-- ==== Sys2Proof/Word.lean ====
section
/-! DEFINITION. The word types of the AX-32 (00_scope.md R6, R10, R11). -/

namespace Sys2Proof

/-- A byte of memory, of a frame or of an image. -/
abbrev Byte := BitVec 8

/-- A 32-bit register word (R11). -/
abbrev Word := BitVec 32

/-- A 64-bit device address or time value (R6, R405). -/
abbrev DWord := BitVec 64

end Sys2Proof
end

