-- ==== Sys2Proof/Syntax.lean ====
section
/-! DEFINITION. The commands and events of the AX-32: one constructor of `Instr` for each row of
spec/opcode_table.json, with the operands that the row takes in from outside the block (a register
word, a mailbox parameter, a received frame, a measured value). Indexes that the spec bounds are
`Fin`; mailbox parameters are whole words, since R404 judges them (PARAM). -/

namespace Sys2Proof

/-- Beam port, 0 to 31 (R143). -/
abbrev Port := Fin 32
/-- Engine pair, 0 to 35 (R23). -/
abbrev Pair := Fin 36
/-- Photodiode channel, 0 to 63 (R210). -/
abbrev Chan := Fin 64
/-- Temperature input, 0 to 79 (R339). -/
abbrev TIn := Fin 80
/-- Camera receiver, 0 to 7 (R230). -/
abbrev Cam := Fin 8
/-- Encoder input, 0 to 7 (R273). -/
abbrev Enc := Fin 8
/-- Compare unit, 0 to 7 (R280). -/
abbrev Cmp := Fin 8
/-- Auxiliary axis, 0 to 3 (R286). -/
abbrev Axis := Fin 4
/-- DMA channel, 0 to 3 (R396). -/
abbrev Dma := Fin 4
/-- Gorwin Link port, 0 to 3 (R299). -/
abbrev Gp := Fin 4
/-- Gorwin Link node, 0 to 63 (R45). -/
abbrev Node := Fin 64
/-- Ethernet port, 0 to 1 (R310). -/
abbrev Eth := Fin 2
/-- DRAM channel, 0 to 1 (R318). -/
abbrev Ch := Fin 2
/-- Bed buffer, 0 to 15 (R83). -/
abbrev Buf := Fin 16
/-- General-function pin, 0 to 47 (R55). -/
abbrev Gpf := Fin 48

/-- The lanes in which mailbox commands run (R401, R405). -/
inductive Lane where
  | ctrl | buf | load | flash
  deriving DecidableEq, Repr

/-- The causes of a full reset (R406). -/
inductive ResetCause where
  | power | pin | perst | flr | command | brownout
  deriving DecidableEq, Repr

/-- Why an engine pair failed (R170, ENG_PAIRk.CAUSE of R172); for a numeric fault the descriptor whose value is not finite (R175). -/
inductive PairCause where
  | selfCheck | loopNan (desc : Fin 8) | sram | slice
  deriving DecidableEq, Repr

/-- The two feedback blocks of a loop engine (R185). -/
inductive LoopBlk where
  | melt | src
  deriving DecidableEq, Repr

/-- One photodiode channel's two 8 MS/s samples of a P-tick (R211): `ovl` is the front end's
overload comparator, `missing` says that the bridge flit carrying the value was discarded (R25). -/
structure PdSample where
  chan : Chan
  a : BitVec 16
  b : BitVec 16
  ovl : Bool
  missing : Bool
  deriving DecidableEq, Repr

/-- The items of power-up calibration (R215). -/
inductive CalItem where
  | pdOffset (c : Chan) (range : Fin 4)
  | pdGain (c : Chan) (range : Fin 4)
  | dacLin (p : Port)
  | tempFe (t : TIn)
  | strLat (p : Port)
  | skew (p : Port)
  deriving DecidableEq, Repr

/-- A measured value, num / den; a den of 0 counts as 1. -/
structure Meas where
  num : Int
  den : Nat
  deriving DecidableEq, Repr

/-- Three measurements of one calibration item (R215, R216), the third used only where the first two
disagree. A value list holds one value, or the 17 points of DAC linearity. Units: codes for an offset, the
gain correction itself for a gain, full scale for the output looped back at a DAC point, °C of front-end correction,
T-ticks for latency, ns for skew. -/
structure CalMeas where
  item : CalItem
  a : List Meas
  b : List Meas
  c : List Meas
  deriving DecidableEq, Repr

/-- How many values a measurement of an item has (R215). -/
def CalItem.points : CalItem → Nat
  | .dacLin _ => 17
  | _ => 1

/-- How a Stringline link's MEASURE passes came out (R151, R152): two passes, and a third used only
where the first two differ (R216); the start-bit arrival offset in bit times of 10 ns. -/
structure SlMeasure where
  equal : Bool
  ready : Bool
  t1 : Nat
  t2 : Nat
  t3 : Nat
  offset : Byte
  deriving DecidableEq, Repr

/-- ECC outcome of a DRAM or SRAM read (R320, R336). -/
inductive Ecc where
  | clean | corrected | uncorrectable
  deriving DecidableEq, Repr

/-- How a DRAM access ended: with the ECC of its data (R320), after a CA parity alert that persisted through three retries, or with a device
that no longer answers (R334). -/
inductive DramEnd where
  | clean | corrected | uncorrectable | caParity | noResponse
  deriving DecidableEq, Repr

/-- The header ECC of a CSI-2 packet (R230). -/
inductive HdrEcc where
  | clean | corrected | bad
  deriving DecidableEq, Repr

/-- The header of a CSI-2 short packet (R230): its virtual channel and what its ECC showed. -/
structure CamHead where
  vc : Fin 4
  ecc : HdrEcc
  deriving DecidableEq, Repr

/-- A DRAM request presented to the controller (R328): the source code of R436, the device address and
either the bytes written or the number of bytes read. -/
structure DramReq where
  src : Nat
  addr : DWord
  wr : Option (List Byte)
  len : Nat
  deriving DecidableEq, Repr

/-- What a temperature front end measured (R340, R349): the pin voltage in mV, and the conversion's
measured quantity (ΔV in nV for a remote diode, resistance in mΩ for a thermistor); `odd`: the two shutdown comparators of
its beam disagreed on it (R366). -/
structure TempRaw where
  pinmV : Nat
  value : Nat
  odd : Bool
  deriving DecidableEq, Repr

/-- A Gorwin Link frame (R300), its payload in whole blocks without that of the checksum. -/
structure GlkFrame where
  type : Byte
  dst : Byte
  src : Byte
  ttl : Byte
  seq : BitVec 16
  payload : List Byte
  deriving DecidableEq, Repr

/-- A block as a port receives it, descrambled (R299): its lane, sync header and eight bytes. -/
structure GlkBlock where
  lane : Fin 2
  sync : BitVec 2
  bytes : List Byte
  deriving DecidableEq, Repr

/-- A marker pair as a port receives it (R301, R302): the fields of both lanes agree when `agree`, and
`phase` is its arrival less the receiver's own T-tick edge, in 1/16 ns. -/
structure Marker where
  counter : Word
  root : Node
  timeValid : Bool
  compat : Bool
  hops : Fin 64
  holdover : Bool
  apart : Bool
  launch : Nat
  phase : Int
  agree : Bool
  deriving DecidableEq, Repr

/-- Why a neighbour is declared lost (R306, cause of event 0x0701). -/
inductive LostCause where
  | blockLock | markers | hello
  deriving DecidableEq, Repr

/-- A HELLO message (R305, R309): `rtt` is the measured round trip in 1/16 ns, if this HELLO echoes one
of ours; `tick` and `ofs` are its sender's T-tick counter and time from the T-tick edge. -/
structure Hello where
  node : Node
  port : Gp
  imgId : Word
  rtt : Option Nat
  tick : Word
  ofs : Word
  deriving DecidableEq, Repr

/-- A ROUTE message (R305): for each port of the node, its neighbour node and port, none if DOWN. -/
structure Route where
  node : Node
  nbr : List (Option (Node × Gp))
  deriving DecidableEq, Repr

/-- A TIME message of the root (R305): `src` is the source of its frame. -/
structure TimeMsg where
  src : Node
  tick : Word
  time : DWord
  state : Nat
  valid : Bool
  stepped : Bool
  deriving DecidableEq, Repr

/-- An OVERLAP message (R305): one byte for each port of the node. -/
structure Overlap where
  node : Node
  bedNo : Word
  ports : List Byte
  deriving DecidableEq, Repr

/-- One record of a DIGEST message, as the receiver uses it (R307). -/
structure DigestRec where
  sev : Byte
  code : BitVec 16
  seq : Word
  deriving DecidableEq, Repr

/-- An axis-aligned box in bed units (R241). -/
structure Box where
  xmin : Int
  ymin : Int
  xmax : Int
  ymax : Int
  deriving DecidableEq, Repr

/-- An HO_REQ message (R305). -/
structure HoReq where
  xid : Word
  lead : Port
  cover : Port
  syncHit : Bool
  bedNo : Word
  tile : BitVec 16
  seg : Word
  segTick : Word
  x : Word
  y : Word
  box : Box
  dur : Word
  nHit : Word
  detect : Word
  deriving DecidableEq, Repr

/-- The body of an HO_DATA message (R305): segment records of 16 bytes or parameter sets of 128 bytes,
from index `first`. -/
inductive HoBody where
  | segs (first : Nat) (recs : List (List Byte))
  | psets (first : Nat) (sets : List (List Byte))
  deriving DecidableEq, Repr

/-- The header of a standby copy (R305, HO_STBY kind 2). -/
structure StbyHdr where
  bedNo : Word
  tile : BitVec 16
  lead : Port
  first : Nat
  count : Nat
  box : Box
  covers : List (BitVec 16)
  deriving DecidableEq, Repr

/-- An HO_STBY message: a header, segment records or parameter sets (R268, R305). -/
inductive StbyBody where
  | header (h : StbyHdr)
  | body (b : HoBody)
  deriving DecidableEq, Repr

/-- An HO_DONE message (R305). -/
structure HoDone where
  xid : Word
  aborted : Bool
  seg : Word
  segTick : Word
  energy : Word
  wins : List Nat
  notExposed : Nat
  loopLost : Nat
  deriving DecidableEq, Repr

/-- The periodic messages of Gorwin Link (R304). -/
inductive GlkPeriodic where
  | hello (p : Gp)
  | route
  | time
  | overlap
  | digest
  | keep (xid : Word)
  deriving DecidableEq, Repr

/-- PTP messages other than a Sync that yields an offset (R310, R311). `sum` of a delay exchange is what both ways took together in
1/16 ns, from the timestamps as the MAC takes them. `raw` is the MAC's ingress timestamp of a request, in 1/16 ns, before the port's
latency is added; `request` is one that no port of this device answers. -/
inductive PtpMsg where
  | announce (gm : DWord) (better : Bool)
  | delayResp (sum : Int)
  | pdelayResp (sum : Int)
  | delayReq (raw : Nat)
  | pdelayReq (raw : Nat)
  | request
  | followUp
  | management
  | nonPtp
  deriving DecidableEq, Repr

/-- The PTP messages a port sends at its intervals (R310). -/
inductive PtpOut where
  | sync | announce | delayReq | pdelayReq
  deriving DecidableEq, Repr

/-- What DRAM training found on one channel (R318, R319, R324): `failStep` is the step that failed three
times, if one did. -/
structure TrainResult where
  failStep : Option Nat
  speed : Fin 5
  rdimm : Bool
  x8 : Bool
  tworanks : Bool
  capGb : Nat
  ms : Nat
  deriving DecidableEq, Repr

/-- The regions of the on-chip SRAM (R336). -/
inductive SramRegion where
  | prefetch (k : Pair)
  | correction (p : Port)
  | psetBank (bank : Fin 2)
  | loopTables (p : Port)
  | loopState (k : Pair)
  | tileSet
  | pathWindow
  | staging
  | rigging
  | hoBuffers
  | camera (m : Cam)
  | axisTables (a : Axis)
  | axisState (a : Axis)
  | compareState (k : Cmp)
  | eventRing (page : Fin 16)
  | supervisor
  deriving DecidableEq, Repr

/-- The two dies (R352). -/
inductive Die where
  | control | edge
  deriving DecidableEq, Repr

/-- The self-test slice types with their targets (R366). -/
inductive Slice where
  | pairLogic (k : Pair)
  | loopLogic (k : Pair)
  | pd (c : Chan)
  | dac (p : Port)
  | temp (t : TIn)
  | sdcmp (p : Port) (b : Bool)
  | enc (e : Enc)
  deriving DecidableEq, Repr

/-- What a self-test slice measured (R366): the signature and the ROM value it is compared with; the offset and the reading at 50 % of full
scale of a photodiode channel, in codes; the outputs looped back at the codes 0, 32,768 and 65,535, in full scale; the front-end
correction that the internal reference asks for, in °C; whether a comparator tripped 1 °C above SHUTDOWN and 1 °C below it, for both
sensors; the count moved and the illegal transitions of an encoder's pattern. -/
inductive SliceCheck where
  | signature (got rom : Word)
  | pd (dark half : Meas)
  | dac (low mid high : Meas)
  | temp (fix : Meas)
  | comparator (above below : Bool × Bool)
  | enc (moved : Int) (illegal : Nat)
  deriving DecidableEq, Repr

/-- How a self-test slice ended (R368, R370): its completed-cycle counter, what it measured, the CRC-32C of the state saved before it and of
the state restored after it, and the signature or value that its event gives. -/
structure SliceResult where
  cycles : Nat
  check : SliceCheck
  saved : Word
  restored : Word
  value : Word
  deriving DecidableEq, Repr

/-- Why a slice ended early (R369, cause of event 0x0C01). -/
inductive SliceCause where
  | path | monitor | target
  deriving DecidableEq, Repr

/-- How a record's write to the ring went (R379 to R381): its read-back was good; or failed once, with the slots of the
retired page that no longer read correctly; or failed again in the healthy page chosen next. -/
inductive RingOutcome where
  | good
  | failed (unreadable : List Nat)
  | failedTwice (unreadable : List Nat)
  deriving DecidableEq, Repr

/-- How the flash behaved while a group of records was programmed (R385). -/
inductive FlashOutcome where
  | good | eraseFail | programFail | noAnswer
  deriving DecidableEq, Repr

/-- The commands and events of the AX-32, one constructor for each row of spec/opcode_table.json. -/
inductive Instr where
  -- mailbox commands, as they execute in their lanes (R405)
  | nop (tag : Word)
  | hstReset (tag key : Word)
  | fence (tag mask : Word)
  | fenceDrained
  | rigLoad (tag : Word) (addr : DWord) (len : Word)
  | rigImageApply
  | rigSwap (tag : Word) (addr : DWord) (len : Word)
  | rigCancel (tag : Word)
  | rigProgram (tag : Word) (addr : DWord) (len slot : Word) (good : Bool)
  | rigFlashLoad
  | bufOpen (tag n g : Word)
  | bufSeal (tag n g : Word)
  | sealCheck
  | bufDiscard (tag n g : Word)
  | bufferRelease (n : Buf)
  | coverCheck (tag n g : Word) (addr : DWord)
  | bedCommit (tag n g : Word)
  | bedUncommit (tag : Word)
  | bedAbort (tag : Word)
  | bedRecoated (tag : Word)
  | corrLoad (tag port : Word) (addr : DWord) (len : Word)
  | loopLoad (tag : Word) (addr : DWord) (len : Word)
  | axsLoad (tag : Word) (addr : DWord) (len : Word)
  | logFetch (tag start count : Word) (addr : DWord)
  -- the host interface (R11, R394 to R405)
  | mailboxWordWrite (w : Fin 15) (v : Word)
  | mailboxSubmit (v : Word)
  | commandComplete (lane : Lane)
  | hstCplPop (v : Word)
  | registerWrite (addr v : Word)
  | bar0BadAccess (addr : Word) (size : Nat) (write : Bool)
  | bar2Read (off : BitVec 28) (len : Nat)
  | bar2Write (off : BitVec 28) (data : List Byte)
  | dmaHeadWrite (c : Dma) (v : Word)
  | dmaDescriptor (c : Dma) (desc : List Byte) (host : Option (List Byte))
  | dmaDescriptorDone (c : Dma)
  -- reset, start-up and the supervisor (R26, R406, R411)
  | fullReset (cause : ResetCause)
  | startupBoot (cal : List CalMeas) (bad : List (Fin 2 × Word))
  | startupReady
  | lockstepMismatch
  | supervisorRestartDone
  | bridgeFlitDiscard (toCore : Bool) (chans : List Chan)
  | bridgeSilence
  | controlDieBridgeSilence
  | gpfEventInput (g : Gpf)
  -- the bed cycle (R96 to R115)
  | commitHorizon
  | prescan
  | bedBoundary
  | pairStart (tile : BitVec 16)
  | prefetchUnderrun (p : Port)
  | remainderRequeue
  | verifyDone (n : Buf) (tile : BitVec 16)
  | qrecWrite (n : Buf) (tile : BitVec 16)
  | dealPath
  -- trajectory and Stringline (R117 to R172)
  | tTick
  | holdEnd (p : Port)
  | syncTimeout (p : Port)
  | inboundFrame (p : Port) (bytes : List Byte) (inWindow : Bool)
  | missingFrame (p : Port)
  | slStartBitsSeen (p : Port)
  | slAlignDone (p : Port) (phA wA phB wB : Fin 16)
  | slMeasureDone (p : Port) (m : SlMeasure)
  | slFaultExpire (p : Port)
  | slStartupTimeout (p : Port)
  | laserSourceFault (p : Port)
  | pairFailure (k : Pair) (cause : PairCause)
  | attachCheckDone (k : Pair) (ok : Bool)
  -- power loops (R173 to R209)
  | pTick (samples : List PdSample)
  | rampEnd (p : Port) (b : LoopBlk)
  | feedbackReentry (p : Port) (b : LoopBlk)
  | loopnYyArm (p : Port) (v : Word)
  | yoyoRunEnd (p : Port)
  | loopnCapStart (p : Port) (v : Word)
  | captureEnd (p : Port)
  -- sensing and calibration (R210 to R239)
  | calibrationEnd
  | slewDone (item : CalItem)
  | offsetTraceEstimate (c : Chan)
  | gainTraceEstimate (c : Chan)
  | stitchStoreWrite (p : Port)
  | spotObservationStart (p : Port)
  | spotObservationComplete (p : Port)
  | stitchSlewDone (p : Port)
  | camFrameStart (m : Cam) (h : CamHead)
  | camFrameEnd (m : Cam) (h : CamHead)
  | camLinkTimeout (m : Cam)
  | camTrigger (m : Cam)
  | cammTrigFire (m : Cam) (v : Word)
  -- hand-off (R240 to R272)
  | takeoverStart (p : Port)
  | hndFtRelease (hi : Bool) (v : Word)
  | shedStep (p : Port)
  | hoReqReceived (src : Node) (m : HoReq)
  | hoGrantReceived (src : Node) (xid : Word) (case : Fin 4) (start : Word)
  | hoDenyReceived (src : Node) (xid : Word) (reason : Byte)
  | hoGrantTimeout (xid : Word)
  | hoDataReceived (src : Node) (xid : Word) (b : HoBody)
  | hoProgReceived (src : Node) (xid seg segTick x y : Word)
  | hoDoneReceived (src : Node) (m : HoDone)
  | hoAbortReceived (src : Node) (xid : Word) (reason : Byte)
  | hoKeepReceived (src : Node) (xid : Word)
  | ownerSilenceTimeout (xid : Word)
  | remoteCoverLost (xid : Word)
  | hoStbyReceived (src : Node) (xid : Word) (b : StbyBody)
  | hoMarkReceived (src : Node) (xid seg segTick x y nHit : Word) (hit : Bool)
  | hoStbyEndReceived (src : Node) (xid : Word) (reason : Byte)
  | orphanTakeover (xid : Word)
  | hoOrphanedReceived (src : Node) (xid : Word) (cover : Port) (seg : Word)
  -- Gorwin Link and network time (R296 to R317)
  | glkFrameReceived (p : Gp) (b : GlkBlock) (more : List GlkBlock)
  | glkMarker (p : Gp) (m : Marker)
  | neighbourLost (p : Gp) (cause : LostCause)
  | helloReceived (p : Gp) (h : Hello)
  | routeReceived (r : Route)
  | timeReceived (t : TimeMsg)
  | overlapReceived (o : Overlap)
  | digestReceived (src : Node) (recs : List DigestRec)
  | glkPeriodicSend (m : GlkPeriodic)
  | glkPortStateAdvance (p : Gp)
  | glkPortStateTimeout (p : Gp)
  | ptpSync (e : Eth) (raw : Int) (gm : DWord)
  | ptpMessage (e : Eth) (m : PtpMsg)
  | ptpMasterLost
  | phaseSlewDone
  | ptpAccept (v : Word)
  | ptpSnap (v : Word)
  -- DRAM and SRAM (R318 to R338)
  | ddrTrainingDone (c : Ch) (r : TrainResult)
  | retrainCheck (c : Ch) (moved : Bool) (drift : Nat)
  | retrainStep (c : Ch) (ok : Bool) (coreUv : Nat) (clkPpb : Int)
  | retrainLate (c : Ch)
  | dramRequest (r : Option DramReq) (e : DramEnd)
  | requestPromotion
  | selfRefreshEntry (c : Ch)
  | selfRefreshScrubWake (c : Ch)
  | dramScrubStep (ecc : Ecc)
  | sramScrubStep (r : SramRegion) (addr : BitVec 24) (ecc : Ecc) (sourceOk : Bool)
  -- thermal (R339 to R354)
  | tempConversion (t : TIn) (raw : TempRaw)
  | shutdownReport (p : Port)
  | latchRelease (p : Port)
  | sensorRestore (t : TIn)
  | blindLimitExpire (p : Port)
  | dieTempRead (d : Die) (sensor : Fin 2) (reading : BitVec 16)
  -- lighting (R355 to R365)
  | ledFrameStart
  | ledLineSlot (l : Fin 16) (weak : BitVec 24) (ovr : Bool)
  | ledApply (v : Word)
  | ledEnWrite (v : Word)
  -- encoders, compare units and axes (R273 to R295)
  | qeSample (e : Enc) (n : Nat) (a b z : Bool) (lines : BitVec 3)
  | qeMovingTimeout (e : Enc)
  | qeePreset (e : Enc) (v : Word)
  | qeeRearm (e : Enc) (v : Word)
  | compareValueLive (k : Cmp)
  | axsaEnWrite (a : Axis) (v : Word)
  | axsaGo (a : Axis) (v : Word)
  | axsaStop (a : Axis) (v : Word)
  | axsaBndgo (a : Axis) (v : Word)
  | axisUpdate (a : Axis)
  -- self-test and event recorder (R366 to R393)
  | sliceStart (t : Slice) (coreUv : Nat) (clkPpb : Int)
  | sliceEnd (t : Slice) (r : SliceResult)
  | sliceAbort (t : Slice) (cause : SliceCause) (cycles : Nat)
  | eventRaise (code : BitVec 16) (src sev : Byte) (p1 p2 p3 : Word)
  | evrRingWrite (w : RingOutcome)
  | flashPersist (o : FlashOutcome)
  | logFlashScan (answers : Bool)
  | evrCursorWrite (v : Word)
  | evrNext (v : Word)
  | evrFreezeWrite (v : Word)
  | freezeExpire
  | telPeriod
  -- pins and ports (R159, R230, R284, R310, R317, R428)
  | lsrOkChange (p : Port) (level : Bool)
  | camLongPacket (m : Cam) (vc : Fin 4) (hdr : HdrEcc) (dt : Byte) (payload : List Byte) (crcOk : Bool)
  | pinPulseEnd (g : Gpf)
  | ptpPeriodicSend (e : Eth) (m : PtpOut)
  | ethLinkChange (e : Eth) (up : Bool)
  | boundaryScanTck (tms tdi trstN resetN : Bool)
  deriving DecidableEq, Repr

end Sys2Proof
end

