-- ==== Sys2Proof/Decode.lean ====
section
/-! DEFINITION. Commands spelled by table words. The rows of spec/opcode_table.json give no bits: the commands of
the AX-32 reach it as register writes, mailbox commands, frames, samples and events, so no word of the
table's kind spells any of them. -/

namespace Sys2Proof

/-- The command that a word of the opcode table's bits spells: none, since no row of the table gives bits. -/
def decodeTableWord (_nbits _w : Nat) : Option Instr := none

end Sys2Proof
end

