-- ==== Sys2Proof/Config.lean ====
section
/-! DEFINITION. What the spec leaves open. Every constant here is `opaque`: no proof can see its value, so a claim about the
model holds whatever it is. -/

namespace Sys2Proof.Config

/-- A free value: `freeValue n` is the n-th value that the spec leaves open in a run (a value after an
unreadable read, an unstated result). The step reads `State.dev.freeCtr` and advances it. Log entry 4. -/
opaque freeValue : Nat → Nat

/-- The natural logarithm of a binary32 value (13_thermal.md R340). The spec states no rounding of it. Log entry 10. -/
opaque f32Ln : Word → Word

/-- The exponential of a binary32 value (08_sensing_calibration.md R226, the template). Log entry 10. -/
opaque f32Exp : Word → Word

/-- The sine of a binary32 value in radians (07_power_loops.md R205). Log entry 10. -/
opaque f32Sin : Word → Word

/-- x raised to the power y in binary32 (07_power_loops.md R205, the geometric sweep; 14_bed_lighting.md). Log entry 10. -/
opaque f32Pow : Word → Word → Word

end Sys2Proof.Config
end

