-- ==== Sys2Proof/Machine/State.lean ====
section
/-! DEFINITION. The state of the AX-32: plain data, holding everything that the spec gives the block.
Registers are held field by field in one canonical list (`Dev.regs`); what the blocks hold beside their
registers stands in one structure for each chapter of the spec. -/

namespace Sys2Proof.Machine

/-- Why a step stops with a fault. No command of the AX-32 stops the model with a fault: every row of the
table has an effect in the spec. The one constructor is kept for the host's interface. -/
inductive Fault where
  /-- Raised by nothing in this model (safe: a claim that no step raises it can be proved). -/
  | none
  deriving DecidableEq, Repr

/-- Why a step is refused. -/
inductive Refusal where
  /-- Raised by an arm of `exec` whose command has no meaning yet (safe: the machine stops). -/
  | notModelled (mnemonic : String)
  deriving DecidableEq, Repr

/-! ## Registers (00_scope.md R11 to R20) -/

/-- A field of a BAR0 register: the register's address, the field's lowest bit, its width and its reset value. -/
structure Fld where
  addr : Nat
  lsb : Nat
  width : Nat
  reset : Nat
  deriving DecidableEq, Repr

/-- Access codes (R14). -/
inductive Access where
  | rw | ro | wo | w1c | w1s | rwl
  deriving DecidableEq, Repr

/-- Effect points, from soonest to latest (R16); `none` for a field that takes no write. -/
inductive Effect where
  | imm | seg | path | tile | bed | rig | none
  deriving DecidableEq, Repr

/-- The ranges that the spec gives binary32 fields: any number, greater than 0, 0.0 to 1.0, −1.0 to +1.0, 0.5 to 2.0,
1 Hz to 500,000 Hz (R205). -/
inductive F32Range where
  | any | pos | zeroOne | unit1 | halfTwo | hz
  deriving DecidableEq, Repr

/-- The values that a field's description allows (R433): all, at most, a range, a multiple, a power of two in a
range, a two's-complement range (width, −low, high), or a binary32 range. -/
inductive Check where
  | any
  | le (hi : Nat)
  | range (lo hi : Nat)
  | multOf (k : Nat)
  | pow2 (lo hi : Nat)
  | signed (width low high : Nat)
  | f32 (r : F32Range)
  deriving DecidableEq, Repr

/-- What a register's index counts: nothing or a device-wide resource, a beam port, a photodiode channel, a
temperature input (R3, R17). -/
inductive Owner where
  | device | port | chan | tin
  deriving DecidableEq, Repr

/-- One field of a register as the register tables give it. -/
structure FieldSpec where
  name : String
  lsb : Nat
  width : Nat
  reset : Nat
  access : Access
  effect : Effect
  check : Check
  deriving DecidableEq, Repr

/-- One register, or one array of registers: its name, first address, stride and count, second stride and
count, and what its index counts. -/
structure RegSpec where
  name : String
  base : Nat
  stride : Nat
  count : Nat
  stride2 : Nat
  count2 : Nat
  owner : Owner
  fields : List FieldSpec
  deriving DecidableEq, Repr

/-- A written value that waits for its effect point (R16); `port` is none for a device-wide field (R17). -/
structure ShadowEntry where
  fld : Fld
  eff : Effect
  port : Option Nat
  value : Nat
  deriving DecidableEq, Repr

/-- The old value of a device-wide SEG, PATH or TILE field and the ports whose engines still use it (R17, R19). -/
structure OldView where
  fld : Fld
  eff : Effect
  ports : List Nat
  value : Nat
  deriving DecidableEq, Repr

/-- Sparse data by index, in ascending order of index. -/
abbrev Table (α : Type) := List (Nat × α)

/-! ## Memory (12_memory.md R321) -/

/-- DRAM: bytes by device address, in strictly rising order of address, no entry 0x00 (log entry 6), and
the addresses that hold an uncorrectable error without a good copy (R333). -/
structure Dram where
  cells : List Host.Cell
  poison : List Nat
  deriving DecidableEq, Repr

/-! ## The event recorder (15_selftest_recorder.md R373 to R387) -/

/-- An event, or the record of several merged events (R373, R377). `tag` is the AUX tag of the segment that the event names (R74) and `pt` the
Y of the point that a 0x0300 event gives beside its P3 (R132), in bu; the 32-byte record has no field for either (log entry 120). -/
structure Event where
  time : DWord
  code : BitVec 16
  src : Byte
  sev : Byte
  p1 : Word
  p2 : Word
  p3 : Word
  count : Nat
  tag : Nat := 0
  pt : Option Int := none
  deriving DecidableEq, Repr

/-- A record with its sequence number (R375); `persisted` once its MARK in flash reads back 0xA5 (R384). -/
structure Rec where
  ev : Event
  seq : Word
  persisted : Bool
  deriving DecidableEq, Repr

/-- One sector of the log flash (R384): its header's sequence, erase count and first SEQ, whether it is `live` (its header is
written; an erased sector is not), whether it is retired, and its records. -/
structure LogSector where
  seq : Word
  erases : Nat
  first : Word
  live : Bool
  retired : Bool
  recs : List Rec
  deriving DecidableEq, Repr

/-- The log flash on QSPI_CS1_N, which no reset changes (R384 to R386). -/
structure LogFlash where
  sectors : Table LogSector
  cur : Nat
  deriving DecidableEq, Repr

/-- The recorder: intake FIFO oldest first, drop counts by severity since the last LOST record with the time of
the first drop, ring slots by slot number (a slot not listed is empty), the next slot in ring order, the next
SEQ, the last-gasp bank, the read window, and the freeze. -/
structure Evr where
  fifo : List Event
  drops : List Nat
  firstDrop : DWord
  slots : Table Rec
  wr : Nat
  nextSeq : Word
  bank : List Rec
  win : List (Option Rec)
  freezeAt : DWord
  deriving DecidableEq, Repr

/-! ## The host interface (16_host_startup.md) -/

/-- A command accepted from a source of R402 and not yet completed: `verdict` is the result judged before
execution (UNKNOWN or PARAM), if any. -/
structure Cmd where
  src : Nat
  op : Nat
  tag : Word
  words : List Word
  verdict : Option Nat
  deriving DecidableEq, Repr

/-- A completion (R403). -/
structure Completion where
  tag : Word
  op : Nat
  result : Nat
  dup : Bool
  value : DWord
  deriving DecidableEq, Repr

/-- A remembered command (R402): its result and value once it has completed. -/
structure Remembered where
  src : Nat
  tag : Word
  done : Option (Nat × DWord)
  deriving DecidableEq, Repr

/-- A DMA descriptor in progress (R396, R397): what the channel took, and the status it will write. -/
structure DmaJob where
  host : DWord
  index : Nat
  notify : Bool
  status : Nat
  bytes : Nat
  deriving DecidableEq, Repr

/-- The host interface: the mailbox words while a command is written, whether the mailbox is open, the command
queue, the command running in each lane, the finished commands waiting in each lane, the completion queue,
the remembered tags, duplicates waiting for their original, DMA jobs, the remainders of byte counts, the data last
written to host memory by each channel, the last status written by each channel (descriptor index and STATUS), the data of the
last BAR2 read and whether it was poisoned, the answer of the last BAR0 read of another size or alignment (R11), and an HST_RESET that
waits (its tag and the time of its acceptance). -/
structure Hst where
  mbx : Table Word
  free : Bool
  queue : List Cmd
  running : Table Cmd
  finished : Table (List Completion)
  cpl : List Completion
  remembered : List Remembered
  dupWait : List Cmd
  dma : Table DmaJob
  dmaBytes : Table Nat
  dmaOut : Table (DWord × List Byte)
  dmaStatus : Table (Nat × Nat)
  bar2 : List Byte
  bar2Poison : Bool
  bar0 : Option Word
  resetWait : Option (Word × DWord)
  deriving DecidableEq, Repr

/-- The supervisor (01_architecture.md R26). -/
inductive SupState where
  | running | restarting | halted
  deriving DecidableEq, Repr

/-- The supervisor and the inter-die bridge (R25, R26, R269): the time of the last lockstep mismatch, whether
either side of the bridge has gone silent, the flits discarded, the channels whose values of the coming P-tick they carried, whether
RESET_N is held low, and the PHASE reached before the last reset (R408). -/
structure Sys where
  sup : SupState
  lastMismatch : Option DWord
  edgeSilent : Bool
  ctrlSilent : Bool
  flits : Nat
  lost : List Nat
  resetLow : Bool
  phaseBefore : Nat
  deriving DecidableEq, Repr

/-- The ordering codes (00_scope.md R2). -/
inductive Variant where
  | ax32 | ax16
  deriving DecidableEq, Repr

/-! ## The rigging (02_rigging.md) -/

/-- A section of a rigging image (R43): TYPE, CLASS, INSTANCE, payload and SECT_CRC. -/
structure Section where
  type : Nat
  cls : Nat
  inst : Nat
  payload : List Byte
  crc : Word
  deriving DecidableEq, Repr

/-- A swap image that is armed or latched (R66): its IMG_ID and sections. -/
structure Swap where
  imgId : Word
  secs : List Section
  deriving DecidableEq, Repr

/-- A full image that has passed its check and waits to be applied (R63): its sections, header values, source (1 slot A, 2 slot
B, 3 PCIe) and the STATE to return to if it cannot be applied. -/
structure Staged where
  secs : List Section
  imgId : Word
  generation : Word
  toolVer : Word
  imgCrc : Word
  source : Nat
  back : Nat
  tag : Word
  deriving DecidableEq, Repr

/-- The rigging: the live sections; the sections as they were before the last swap while an old bed holds them, with the IMG_ID
of the swap that replaced them (R67); the armed and the latched swap (R66, R99) with the T-tick in which it was armed; the staged full
image; the two slots of the rigging flash, which no reset changes (R59), and the one that a RIG_PROGRAM not yet completed writes (R63). -/
structure Rig where
  live : List Section
  prev : Option (List Section)
  prevSwap : Word
  armed : Option Swap
  latched : Option Swap
  staged : Option Staged
  slots : Table (List Byte)
  armTick : Word
  prog : Option Nat
  deriving DecidableEq, Repr

/-! ## Bed data and the bed cycle (03_bed_data.md, 04_bed_cycle.md) -/

/-- An exact fraction, den > 0. -/
structure Frac where
  num : Int
  den : Nat
  deriving DecidableEq, Repr

/-- A decoded segment record (R72): DX, DY and VEL, or for an ORIGIN the absolute X and Y. -/
structure Seg where
  dx : Int
  dy : Int
  x : Int
  y : Int
  vel : Nat
  pset : Nat
  pwr : Nat
  dz : Int
  kind : Nat
  pathEnd : Bool
  handoff : Bool
  tileEnd : Bool
  dwell : Bool
  aux : Nat
  rest : Nat
  deriving DecidableEq, Repr

/-- A parameter set record (R78). -/
structure PSet where
  flags : Nat
  power : Word
  markVel : Word
  jumpVel : Word
  accel : Word
  jerk : Word
  onDelay : Int
  offDelay : Int
  settle : Nat
  skyLead : Nat
  cool : Nat
  mpSet : Word
  lineCap : Word
  ffMap : Nat
  gainBank : Nat
  rest : List Byte
  deriving DecidableEq, Repr

/-- A tile record of the Jigsaw (R80); a cover is (node byte, port byte). -/
structure TileRec where
  xmin : Int
  ymin : Int
  xmax : Int
  ymax : Int
  first : Nat
  count : Nat
  lead : Nat
  flags : Nat
  stripe : Nat
  covers : List (Nat × Nat)
  partner : Nat
  expCrc : Word
  energy : Word
  rest : Nat
  deriving DecidableEq, Repr

/-- A point of a path from which it is resumed (R140): segment index and T-tick count, nominal position in units of 2⁻³² bu,
focus in units of 2⁻³² µm, the T-ticks left of a hold there, and the tracking count and segment of the last SYNC whose hit has been taken. -/
structure ResumePt where
  seg : Nat
  cnt : Nat
  x : Int
  y : Int
  f : Int
  hold : Nat
  hit : Option (Word × Nat)
  deriving DecidableEq, Repr

/-- Names a path: path `path` of tile `tile` of the bed in buffer `buf`, or a remainder taken in from another device
or from a standby copy (R266, R269). -/
inductive PKey where
  | bed (buf tile path : Nat)
  | inc (xid : Nat)
  deriving DecidableEq, Repr

/-- Where a path stands: not dealt yet; in the pool in a class of R243; waiting out a COOL_TIME until a T-tick; dealt to a port
and not started; running on a port; in a takeover (a cover is to start it, or another device exposes it); ended. -/
inductive PStat where
  | fresh
  | pool (cls : Nat)
  | cool (till : Word)
  | dealt (p : Nat)
  | running (p : Nat)
  | takeover
  | ended
  deriving DecidableEq, Repr

/-- From which point a path that was stopped goes on: at the point itself for the beam that held it and under the HANDOFF_OK rule of R74
for another; after a yield at the point itself for any beam, after a cut under that rule for any beam (R251). -/
inductive ResRule where
  | own | exact | handoff
  deriving DecidableEq, Repr

/-- A path (R76): its segments, its box (R241), its predicted duration in units of 2⁻¹⁰ µs (R244), whether it is coverable
(R242), where it stands and from which point it is resumed, its underruns, interruptions, the beam that last held it and the rule of
its resumption. -/
structure PathSt where
  first : Nat
  count : Nat
  box : Box
  dur : Nat
  coverable : Bool
  st : PStat
  resume : Option ResumePt
  cls : Nat
  underruns : Nat
  interrupts : Nat
  beam : Option Nat
  rule : ResRule := .own
  deriving DecidableEq, Repr

/-- A tile in exposure (R97, R108, R114): its record, whether it is pre-scanned and released, its paths, the times of its first
emitting P-tick and of its finish, the power words summed for each port, the energies reported by other devices, wins by
class, the counts and flags of its quality record, whether its pairing still holds and the next paired path,
its stream CRC once verified, and whether its record is written. -/
structure TileSt where
  rcd : TileRec
  scanned : Bool
  released : Bool
  paths : List PathSt
  startT : Option DWord
  endT : Option DWord
  pwr : Table Nat
  remoteE : List Word
  wins : List Nat
  notExp : Nat
  handoffs : Nat
  loopLost : Nat
  underruns : Nat
  flags : Nat
  paired : Bool
  pairIx : Nat
  crc : Option Word
  recorded : Bool
  tags : List (Nat × Nat) := []
  deriving DecidableEq, Repr

/-- A bed from its latch to the release of its buffer: buffer, header values (LAYER_NO among them, R70), SRAM bank with its parameter sets (R79) and the
sets with an uncorrectable word (R336) or copied with an uncorrectable DRAM error (R333), blade chase, stripes released, whether it is under the previous BED-class set
(R67), and its tiles. -/
structure Bed where
  buf : Nat
  gen : Nat
  bedNo : Word
  tileCount : Nat
  segCount : Nat
  stripeCount : Nat
  segOff : Nat
  layer : Word := 0
  bank : Option Nat
  psets : List PSet
  badSets : List Nat
  lostSets : List Nat
  chase : Bool
  stripes : Nat
  oldSet : Bool
  scanned : Bool
  tiles : Table TileSt
  deriving DecidableEq, Repr

/-- A seal in progress (R91): its buffer, generation and tag, and for each DMA channel the
descriptors queued before its arrival that have not completed. -/
structure SealRun where
  buf : Nat
  gen : Nat
  tag : Word
  left : List Nat
  deriving DecidableEq, Repr

/-- The Control Bar beside its registers (R96 to R107): beds by buffer, the latched and the current bed, the old bed while it is EXPOSING,
BED_NO of the bed in the old-bed slot, the phase in
which the last horizon was taken, the T-tick of the last commit, blade chase since the last boundary, compare hits since it, whether
blade chase has lost its encoder since it, tiles in order of finish waiting for their records, and the seal in progress. -/
structure Bar where
  beds : Table Bed
  latched : Option Nat
  cur : Option Nat
  old : Option Nat
  oldNo : Word
  hznFrom : Nat
  commitTick : Word
  chase : Bool
  hits : Nat
  chaseLost : Bool
  finishOrder : List (Nat × Nat)
  sealing : Option SealRun
  deriving DecidableEq, Repr

/-! ## Exposure engines (05_trajectory.md) -/

/-- What a move of a path is: laser-off motion, exposure, a hold of known length, a settle, a SYNC waiting for its hit, a wait for
the partner of a paired path, the motion that brings an interrupted beam to rest. -/
inductive MvKind where
  | off | expose | hold | settle | sync | pairWait | stop
  deriving DecidableEq, Repr

/-- A planned move (R119 to R124): its kind, whether the laser is on, the segment it belongs to; straight from (x0, y0)
to (x1, y1) in units of 2⁻³² bu and focus f0 to f1; it begins t0 T-ticks after the path's first T-tick and lasts dt; the
profile: length in bu, start, peak and end velocity in bu per T-tick, acceleration and jerk; `segT0` is when its segment
begins; `via` holds the points of the path that an interrupted beam follows to rest (R154), none for a straight move. -/
structure Move where
  kind : MvKind
  on : Bool
  seg : Nat
  x0 : Int
  y0 : Int
  x1 : Int
  y1 : Int
  f0 : Int
  f1 : Int
  t0 : Frac
  dt : Frac
  len : Frac
  v0 : Frac
  vp : Frac
  v1 : Frac
  acc : Frac
  jerk : Frac
  segT0 : Frac
  via : List (Int × Int) := []
  deriving DecidableEq, Repr

/-- A gate edge of R125: its place in 10 ns steps from the path's first T-tick, whether it opens, and the EXPOSE segment at its
transition. -/
structure GEdge where
  at_ : Int
  opens : Bool
  seg : Nat
  deriving DecidableEq, Repr

/-- The quantities that the loop engine takes from a laser-on tick point (R177): parameter set, PWR_SCALE, velocity limit in mm/s,
and the segment index. -/
structure PwrQ where
  set : PSet
  pwr : Nat
  vlim : Word
  seg : Nat
  deriving DecidableEq, Repr

/-- A tick point (R117) as it was sent: T-tick, path position, nominal position and focus, p₂ of R127, the rounded commands,
velocity in mm/s, the laser state with its quantities, whether it belongs to a path (and which), whether a frame carried it, whether it
is confirmed (R139), and whether it lies on the approach to a resume point. -/
structure TickPt where
  tick : Word
  seg : Nat
  cnt : Nat
  x : Int
  y : Int
  f : Int
  p2x : Int
  p2y : Int
  cx : Int
  cy : Int
  v : Word
  q : Option PwrQ
  key : Option PKey
  hold : Nat
  sent : Bool
  ok : Bool := false
  appr : Bool := false
  deriving DecidableEq, Repr

/-- A confirmed point (R139): where it lies on the path and its T-tick. -/
structure ConfPt where
  pt : ResumePt
  tick : Word
  deriving DecidableEq, Repr

/-- A running path (R117 to R125): which; T-tick number on the path and its first T-tick; planned moves, the time up to which it
is planned; the next segment to plan and the last one; nominal end of the planned part in bu and focus in µm; planned end
position; the velocity there; the stroke's velocity inside a SKY stroke; a settle owed; whether every segment is planned; gate
edges to come; the EXPOSE segment and OFF_DELAY at the planned end if the laser is on there; the segment of the open gate interval; the last SYNC hit with its segment; whether it is a takeover remainder, and which
one arrives; its resume point; the tick points it may no longer confirm; the T-tick of an interruption; whether
it is being yielded; the last EXPOSE segment counted in LOOP_LOST; and whether its beam hands it off at its next segment end (R258); the path time at which
it reaches its resume point. -/
structure Run where
  key : PKey
  k : Nat
  startTick : Word
  moves : List Move
  planT : Frac
  next : Nat
  last : Nat
  bx : Int
  by_ : Int
  bf : Int
  px : Int
  py : Int
  vel : Frac
  stroke : Option Frac
  settle : Nat
  planned : Bool
  edges : List GEdge
  lit : Option (Nat × Int)
  openSeg : Option Nat
  hit : Option (Word × Nat)
  taking : Bool
  arrived : Bool
  resume : Option ResumePt
  conf : Option ConfPt
  intr : Option Word
  yield : Bool
  lostSeg : Option Nat
  shed : Bool
  reach : Frac := ⟨0, 1⟩
  deriving DecidableEq, Repr

/-- A segment record in the prefetch queue of an engine (R27): its path, index and 16 bytes, none where it was read with an uncorrectable
error and no good copy (R94). -/
structure PreSeg where
  key : PKey
  ix : Nat
  raw : Option (List Byte)
  deriving DecidableEq, Repr

/-- An exposure engine as its port uses it: position and focus of the last tick point, its running path, the paths dealt to it and
not started, its tick points newest first, the corrected codes of the last tick point, the tile it last exposed, and the wins by class
and power words summed since its last tile boundary (R389), and the segments prefetched for its paths (R27). -/
structure Eng where
  x : Int
  y : Int
  f : Int
  run : Option Run
  queue : List PKey
  hist : List TickPt
  prevC : Option (Word × Word)
  tile : Option (Nat × Nat)
  wins : List Nat
  pwr : Nat
  pre : List PreSeg := []
  deriving DecidableEq, Repr

/-- A correction image (R133): grid origin, node spacing and payload. -/
structure CorrImg where
  x0 : Int
  y0 : Int
  pitch : Nat
  payload : List Byte
  deriving DecidableEq, Repr

/-! ## Beam ports (06_beam_ports.md) -/

/-- A beam port beside its registers: the level of LSR_OKn and since when it holds (R166); the time the link entered CLOCK or
FAULT (R151); consecutive bad or missing frames and consecutive frames over the following-error limit, each with its first
T-tick (R138, R155); the last T-tick whose frame was judged; the last outbound frame and XY2-100 words; the gate and its
edges in this T-tick (10 ns step, level) (R125); blanking; the last MOD frame, its count and the DAC value (R161, R164);
the last actual position on the three axes; the hand-off classes that keep the port out (R264); the hardware shutdown (R346);
P-ticks since the gate closed (R220); the T-tick of the last fault declared (R155); a correction image loaded while the Control Bar
runs (R135); no spare was left for its pair (R170); and the fault of the present low level of LSR_OKn is declared (R166). -/
structure Prt where
  lsr : Bool
  lsrSince : DWord
  linkSince : DWord
  badRun : Nat
  badOnset : Word
  feRun : Nat
  feOnset : Word
  judged : Option Word
  frame : List Byte
  xy2 : Nat × Nat
  gate : Bool
  edges : List (Nat × Bool)
  blank : Bool
  mod : Nat
  fcnt : Fin 4
  dac : Nat
  actX : Int
  actY : Int
  actZ : Int
  classes : List Nat
  shut : Bool
  dark : Nat
  faultTick : Option Word := none
  corrHold : Bool := false
  dead : Bool := false
  lsrDone : Bool := false
  deriving DecidableEq, Repr

/-! ## Power loops (07_power_loops.md) -/

/-- The feedback of one photodiode channel as a block judges it (R192): runs of missing, frozen and saturated P-ticks with their first
T-ticks, and the code of the last P-tick that counted for freezing. -/
structure ChRun where
  missing : Nat
  missOnset : Word
  frozen : Nat
  frozenOnset : Word
  sat : Nat
  satOnset : Word
  code : Option Nat
  deriving DecidableEq, Repr

/-- A MELT or SRC block of a port (R185 to R198): integrator, last p and e, the c of its ramp; whether it is lost, the P-tick of
a running ramp, consecutive valid P-ticks since the loss; the channels 2n and 2n + 1 as it judges them; its last valid input;
whether it was in min-select; its gain bank. -/
structure LoopBlock where
  i : Word
  p : Word
  e : Word
  c0 : Word
  lost : Bool
  ramp : Option Nat
  valid : Nat
  a : ChRun
  b : ChRun
  x : Word
  inSel : Bool
  bank : Option Nat
  prevBank : Option Nat := none
  off : Bool := false
  deriving DecidableEq, Repr

/-- A Yo-yo run (R204, R205): P-ticks done, phase, PRBS register and P-ticks to its next step. -/
structure YyRun where
  k : Nat
  phase : Word
  prbs : Nat
  left : Nat
  deriving DecidableEq, Repr

/-- A response capture (R207): waiting for its run, or running. -/
inductive CapState where
  | idle | waiting | running
  deriving DecidableEq, Repr

/-- The loop engine of a port: its two feedback blocks, the monitor, power and s of the last P-tick and whether it emitted, power
before it and whether that emitted, emitting P-ticks of the open gate, SRC's run over TRIP with its first T-tick, the Yo-yo run, the
capture, the port tables and those that wait for their PATH boundary (R199), the feed-forward maps in use, and the LOOP payload in
use. -/
structure LoopEng where
  melt : LoopBlock
  src : LoopBlock
  mon : Option Word
  u : Word
  emit : Bool
  u1 : Word
  emit1 : Bool
  s : Word
  gateRun : Nat
  trip : Nat
  tripOnset : Word
  yy : Option YyRun
  yyLive : Bool
  cap : CapState
  tab : List Byte
  pend : Option (Word × List Byte)
  ff : List Byte
  loop : List Byte
  deriving DecidableEq, Repr

/-- Feed-forward maps accepted and not yet live in every engine (R199, R203): TABLE_ID, payload and the ports that wait. -/
structure FfPend where
  id : Word
  payload : List Byte
  ports : List Nat
  deriving DecidableEq, Repr

/-! ## Sensing and calibration (08_sensing_calibration.md) -/

/-- A value that is slewed over 4,096 T-ticks (R217): an offset of a channel in 1/16 code, a gain correction, a gain trim, the DAC
table of a port in 1/65,536 of full scale, a temperature front-end correction in 1/16 °C. -/
inductive SlewKind where
  | ofs (c : Nat) | gcal (c : Nat) | trim (c : Nat) | dac (p : Nat) | skew (p : Nat) | temp (t : Nat)
  deriving DecidableEq, Repr

/-- A slew in progress: old and new values and its first T-tick. -/
structure Slew where
  kind : SlewKind
  old : List Frac
  new : List Frac
  start : Word
  deriving DecidableEq, Repr

/-- The traces of a photodiode channel (R220, R221): offset histogram by bin with the samples taken and those outside it; gain
histogram likewise; the previous estimates; emitting P-ticks since the gate opened. -/
structure Trace where
  bins : Table Nat
  n : Nat
  outside : Nat
  ofs : Option Frac
  gbins : Table Nat
  gn : Nat
  trim : Option Word
  deriving DecidableEq, Repr

/-- An observation in progress (R225): parent, its path and segment with the segment's displacement, T-ticks done, the accumulators,
this sweep's contributions, and whether this sweep is discarded. -/
structure SpotObs where
  parent : Nat
  key : PKey
  seg : Nat
  dx : Int
  dy : Int
  k : Nat
  sweeps : Nat
  acc : List Word
  sweep : List Word
  bad : Bool
  deriving DecidableEq, Repr

/-- A kept observation (R227): the across-track offset in 1/256 bu, the displacement of its segment, and the stitch and correction
image under which it was taken. -/
structure SpotKept where
  a : Frac
  dx : Int
  dy : Int
  sx : Nat
  sy : Nat
  corr : Nat
  deriving DecidableEq, Repr

/-- Spotting of a port (R227 to R229): the kept observations, the previous estimate in 1/256 bu, the T-tick from which the stitch slew
steps and the stitch at its start while it runs, the stitch target in the calibration store and the time it was last written. -/
structure SpotPort where
  kept : List SpotKept
  est : Option (Int × Int)
  slewAt : Word
  slew : Option (Int × Int)
  stored : Int × Int
  storedAt : Option DWord
  deriving DecidableEq, Repr

/-- A camera frame in progress (R232, R235): virtual channel, time and T-tick of its start, the settings latched there (data type,
threshold, region, frame size, capture), lines received, features so far (pixels, peak, weighted sums), whether it is damaged
or triggered, observed port and tile, and the payloads captured. -/
structure CamFrame where
  time : DWord
  tick : Word
  dt : Nat
  thr : Nat
  x0 : Nat
  y0 : Nat
  w : Nat
  h : Nat
  fw : Nat
  fh : Nat
  cap : Bool
  line : Nat
  area : Nat
  peak : Nat
  sw : Nat
  sx : Nat
  sy : Nat
  damaged : Bool
  triggered : Bool
  port : Option Nat
  tile : Option Nat
  raw : List Byte
  deriving DecidableEq, Repr

/-- A camera receiver (R230 to R236): frames in progress by virtual channel, the time of the last frame start or of the enabling,
the T-tick in which a FIRE that waits landed, the T-tick from which the period counts, whether a trigger pulse has come since the last frame
start, and whether frame starts have stayed away for 1 s. -/
structure CamRx where
  frames : Table CamFrame
  last : DWord
  fire : Option Word
  modeAt : Word
  trig : Bool
  lost : Bool
  deriving DecidableEq, Repr

/-- A copy of the calibration store (R219): its SEQ, the calibration items and the stitch targets by port. -/
structure StoreCopy where
  seq : Word
  items : List (CalItem × List Int)
  stitch : Table (Int × Int)
  deriving DecidableEq, Repr

/-- Calibration and sensing beside their registers: whether every item but the Stringline latencies is settled, and the ports whose
latency is settled (R214); the power-up offsets and gain corrections by channel and range; the DAC tables (R218); the temperature
front-end corrections; when the calibration began, its items measured three times and declared unsure, and the values it accepted; the calibration store's
later copy, which no reset changes (R219), its SEQ, and the other copy; slews; traces; observations and spotting
state by port; camera receivers. -/
structure Sns where
  settled : Bool
  latSettled : List Nat
  pdOfs : Table Int
  pdGain : Table Word
  dacTab : Table (List Int)
  tempFix : Table Int
  calAt : DWord
  thirds : Nat
  unsures : Nat
  accepted : List (CalItem × List Int)
  store : List (CalItem × List Int)
  storeSeq : Word
  older : StoreCopy
  slews : List Slew
  traces : Table Trace
  obs : Table SpotObs
  spots : Table SpotPort
  cams : Table CamRx
  deriving DecidableEq, Repr

/-! ## Hand-off (09_handoff.md) -/

/-- The cover of a takeover (R249, R250): a local port with its start case (0 IDLE, 1 FINISH, 2 YIELD, 3 CUT) and wait in µs, or a
beam of another node under an exchange number. -/
inductive Cover where
  | loc (p case wait : Nat)
  | rem (node port xid : Nat)
  deriving DecidableEq, Repr

/-- A takeover (R247): the beam it leaves, its fault-table entry (none for a shed hand-off and a remainder from another device), its
path and resume point, detection, the covers of its tile in order, those already tried, the cover chosen, whether the cover has started, and
the T-tick of the choice. -/
structure Takeover where
  lead : Option Nat
  entry : Option Nat
  key : PKey
  rp : ResumePt
  detect : DWord
  covers : List (Nat × Nat)
  tried : List (Nat × Nat)
  cover : Option Cover
  started : Bool
  chose : Word := 0
  deriving DecidableEq, Repr

/-- A remainder that another device exposes for this one (R265): node, port, path, whether it is granted, started, the segments
streamed, the last confirmed point, and the time anything was last heard. -/
structure HoOut where
  node : Nat
  port : Nat
  key : PKey
  granted : Bool
  started : Bool
  sent : Nat
  conf : ResumePt
  heard : DWord
  asked : DWord
  deriving DecidableEq, Repr

/-- A remainder that this device exposes for another one, or for a failed owner (R266, R269): owner node and lead port, local port,
bed and tile, segments and parameter sets received, nominal point and focus at the start of the first segment, the path itself, its sums, when the owner was last heard, and whether it
is an orphan, and its covers on this node. -/
structure HoIn where
  node : Nat
  lead : Nat
  port : Nat
  bedNo : Word
  tile : Nat
  segs : Table (List Byte)
  psets : Table (List Byte)
  base : Int × Int × Int
  path : PathSt
  pwr : Nat
  wins : List Nat
  notExp : Nat
  loopLost : Nat
  heard : DWord
  progTick : Word
  orphan : Bool
  covers : List (Nat × Nat)
  deriving DecidableEq, Repr

/-- A standby copy kept for another node (R268): its owner and header, segments and sets received, the last confirmed point if one was
reported, the SYNC hit, and the time of the last HO_MARK. -/
structure Standby where
  node : Nat
  hdr : StbyHdr
  segs : Table (List Byte)
  psets : Table (List Byte)
  mark : Option ResumePt
  heard : DWord
  deriving DecidableEq, Repr

/-- A standby copy of a path of this device, kept on another node (R268). -/
structure StbyOut where
  node : Nat
  key : PKey
  deriving DecidableEq, Repr

/-- The hand-off scheduler beside its registers: takeovers by number, the next number, exchanges with other devices, standby
copies kept and owned, the next numbers of an exchange and of a standby copy, the order in which fault entries were written (oldest first), the
beds for which a beam is retired, and the pairs routed to ports in a T-tick (R170). -/
structure Hnd where
  tko : Table Takeover
  nextTko : Nat
  out : Table HoOut
  inc : Table HoIn
  stby : Table Standby
  stbyOut : Table StbyOut
  nextXid : Nat
  nextStby : Nat
  order : List Nat
  retiredBed : Table Nat
  routed : List Nat := []
  routeTick : Word := 0
  deriving DecidableEq, Repr

/-! ## Encoders and auxiliary axes (10_encoders_axes.md) -/

/-- An encoder input beside its registers (R274 to R279): the filtered levels of A, B and Z; for each the consecutive samples at
the other level; samples taken, the sample number of the last counted edge with its direction if the next edge may give a period, the last
direction counted, the sample numbers of the last illegal transitions, newest first, and consecutive samples in which each line was at fault. -/
structure Enc where
  a : Bool
  b : Bool
  z : Bool
  ra : Nat
  rb : Nat
  rz : Nat
  clock : Nat
  last : Nat
  edge : Option Bool
  ill : List Nat
  fa : Nat
  fb : Nat
  fz : Nat
  deriving DecidableEq, Repr

/-- What of a compare unit waits to become live (R282, COMPARE_VALUE_LIVE): a written value, and the setting of ARMED. -/
structure CmpU where
  value : Option Word
  arm : Bool
  deriving DecidableEq, Repr

/-- A move of an axis as latched (R287). -/
structure AxMove where
  tgt : Int
  vmax : Word
  amax : Word
  deriving DecidableEq, Repr

/-- An auxiliary axis beside its registers (R286 to R291): the reference in 2⁻³² counts, its velocity in counts/s and the acceleration
of the last update in counts/s², the move under way, one that starts at the next update, a stop asked for, the integrator, the last e, consecutive updates over the following-error limit,
the T-tick of the last update (or of the enabling), and the tables. -/
structure Axs where
  ref : Int
  vel : Frac
  acc : Frac
  move : Option AxMove
  next : Option AxMove
  stop : Bool
  i : Word
  ePrev : Word
  feRun : Nat
  last : Word
  tab : List Byte
  deriving DecidableEq, Repr

/-! ## Gorwin Link and network time (11_link_and_time.md) -/

/-- A message this device sends over Gorwin Link (R300, R304, R305): its type, destination node (none where it is
flooded), SEQ and payload. -/
structure GlkMsg where
  type : Nat
  dst : Option Nat
  seq : Nat
  data : List Byte
  deriving DecidableEq, Repr

/-- A Gorwin Link port beside its registers (R302, R308, R309): the time it entered its state, consecutive invalid marker pairs, the last
valid one with the T-tick in which it came, the last round trips in 1/16 ns, newest first, and the T-tick and time of the last HELLO received, to be echoed. -/
structure GlkPort where
  since : DWord
  bad : Nat
  mark : Option (Marker × Word)
  delays : List Nat
  echo : Option (Word × Word)
  deriving DecidableEq, Repr

/-- A frame being received (R300): header bytes 1 to 7, the data so far, and how many data blocks are still to come. -/
structure GlkPart where
  head : List Byte
  data : List Byte
  left : Nat
  deriving DecidableEq, Repr

/-- The receiver of a port (R299): the frame being received; of each lane the blocks counted and the places of its last 64 errors, the latest
first. -/
structure GlkRx where
  frame : Option GlkPart
  seen0 : Nat
  seen1 : Nat
  errs0 : List Nat
  errs1 : List Nat
  deriving DecidableEq, Repr

/-- What a root last said of its time (R305, TIME): a T-tick, the internal time at its edge, and whether that is valid. -/
structure RootTime where
  tick : Word
  time : DWord
  valid : Bool
  deriving DecidableEq, Repr

/-- Gorwin Link: the events recorded since the last digest period with its start (R307), the messages sent, the frames forwarded (with
their port) and the marker bytes sent since the last T-tick, SEQ by type, the SEQs of floods seen by source and type, the latest
overlap state of each node: BED_NO and one byte for each port (R249, R305); the ports, the neighbours that each other node has reported,
the root that is followed or led, the upstream port, what each root said of its time, the blocks being received by port, the shift of the
T-tick edges by joinings in 1/16 ns (R297), and the T-tick in which a MEMBER lost its root (R298). -/
structure Glk where
  digests : List DigestRec
  digestAt : DWord
  digestTick : Word
  tx : List GlkMsg
  fwd : List (Nat × GlkFrame)
  marks : Table (List Byte)
  seqs : Table Nat
  seen : Table (List Nat)
  overlaps : Table (Word × List Nat)
  ports : Table GlkPort
  routes : Table (List Nat)
  root : Option Nat
  up : Option Nat
  rootTimes : Table RootTime
  rxs : Table GlkRx := []
  phase : Int := 0
  lostAt : Option Word := none
  deriving DecidableEq, Repr

/-- The PTP messages that a port transmits (R310): those of its intervals, the answers to requests, and what follows a two-step message. -/
inductive PtpKind where
  | sync | announce | delayReq | pdelayReq | followUp | delayResp | pdelayResp | pdelayFollowUp
  deriving DecidableEq, Repr

/-- A PTP message that a port sent (R310, R311, R317): its egress timestamp in 1/16 ns, domainNumber, transport, whether one-step, the
log interval it announces, and for an Announce priority1, clockClass and priority2. -/
structure PtpSent where
  port : Nat
  msg : PtpKind
  stamp : Nat
  domain : Nat
  transport : Nat
  oneStep : Bool
  interval : Option Int
  clock : Option (Nat × Nat × Nat)
  /-- The ingress timestamp of the request that the message answers, in 1/16 ns (R311). -/
  received : Option Nat := none
  deriving DecidableEq, Repr

/-- Network time beside its registers (R312, R313): the servo's integrator and f_hold, the frequencies of the last 16 s while LOCKED,
consecutive offsets within ±100 ns, the offsets gathered since a master was chosen or heard again, a step that waits for its T-tick,
the remainder of a phase slew in ns, and the messages sent since the last T-tick. -/
structure Ptp where
  i : Word
  fHold : Word
  fs : List (DWord × Word)
  run : Nat
  first : Option (List Int)
  step : Option Int
  rem : Int
  sent : List PtpSent
  deriving DecidableEq, Repr

/-! ## DRAM and SRAM (12_memory.md) -/

/-- A DRAM request that waits (R328): its age is counted from `since`, and `promoted` is its class after promotion. -/
structure DdrWait where
  id : Nat
  req : DramReq
  cls : Nat
  since : DWord
  deriving DecidableEq, Repr

/-- One DRAM channel beside its registers (R325 to R334): the times of recent uncorrectable errors, the time of the last
request of classes 0 to 3, the time self-refresh was entered, the time since which a retraining step waits and
whether its lateness has been recorded, whether the drift event has been recorded, the time of the last step and
the steps left in the running sequence, and the time of the last ZQ calibration steps. -/
structure DdrCh where
  ueTimes : List DWord
  lastReq : DWord
  srSince : Option DWord
  rtWait : Option DWord
  rtNoted : Bool
  driftNoted : Bool
  lastStep : Option DWord
  rtLeft : Nat
  zqAt : DWord
  /-- When the last retraining check was made (R325). -/
  checkAt : DWord := 0
  deriving DecidableEq, Repr

/-- A FENCE in progress (R330): its tag, the waiting requests it covers, and whether a covered write was dropped. -/
structure FenceRun where
  tag : Word
  ids : List Nat
  dropped : Bool
  deriving DecidableEq, Repr

/-- The DRAM controller: waiting requests, the next request number, the channels, the scrub position, a running FENCE, and
the SRAM scrub position (R335, R336). -/
structure Ddr where
  waiting : List DdrWait
  nextId : Nat
  ch : Table DdrCh
  scrubAt : Nat
  fence : Option FenceRun
  sramAt : Nat
  /-- The sources of the host of which a write was dropped under R334 since the last FENCE that covered them (R330). -/
  dropped : List Nat := []
  deriving DecidableEq, Repr

/-! ## Temperatures (13_thermal.md) -/

/-- A temperature input beside its registers (R339 to R350): the reading of the last conversion while the rate rule may use it, the last
reading before a failure, and the time of the last conversion that met a cause of failure. -/
structure ThmIn where
  prev : Option Int
  good : Int
  bad : DWord
  deriving DecidableEq, Repr

/-- A hardware shutdown on its way to the control die (R346, R347): input, reading and T-tick of the crossing conversion. -/
structure ThmReport where
  input : Nat
  reading : Int
  tick : Word
  deriving DecidableEq, Repr

/-- A beam's thermal state beside its registers (R344 to R351): since when its shed level counts, since when its sensors have read below
SHUTDOWN − SD_HYS, since when it has been blind while the limit runs, the report on its way, and the comparators (0 A, 1 B) that
must pass their test before the latch is released (R371). -/
structure ThmBeam where
  step : DWord
  cool : Option DWord
  blindAt : Option DWord
  report : Option ThmReport
  cmp : List Nat
  deriving DecidableEq, Repr

/-- Temperatures: inputs, beams, the valid readings of the die sensors (2 × die + sensor), the ignored ones, the dies at 115 °C, and
since when both dies have read below 120 °C (R352). -/
structure Thm where
  ins : Table ThmIn
  beams : Table ThmBeam
  die : Table Int
  ignored : List Nat
  hot : List Nat
  cool : Option DWord
  deriving DecidableEq, Repr

/-! ## Bed lighting (14_bed_lighting.md) -/

/-- Bed lighting beside its registers (R355 to R362): the T-tick and time of the start of the frame being scanned, the T-tick in which EN
landed while its first frame has not started, whether a frame has started since reset, the LIGHT payload in use, the drive copies of the
intensities (24 × line + column) and of the compensation points (16 × group + point), the consecutive trips of each line, and the
line being driven with the code of each column. -/
structure Led where
  frame : Option (Word × DWord)
  enAt : Option Word
  begun : Bool
  light : List Byte
  ints : Table Nat
  comps : Table Word
  trips : Table Nat
  drive : Option (Nat × List Nat)
  deriving DecidableEq, Repr

/-! ## Self-test and telemetry (15_selftest_recorder.md R366 to R372, R388, R389) -/

/-- The self-test sequencer: the slice running in the digital and in the analogue group, the targets whose last result was FAIL,
those taken again before their turn, those with a PASS or FAIL in this round, the round's start and its FAILs and INCOMPLETEs, and the
skips since the last 0x0C02 event with its time, and the places in the rotations of both groups. -/
structure Bist where
  dig : Option Slice
  ana : Option Slice
  failed : List Slice
  again : List Slice
  done : List Slice
  roundAt : DWord
  fails : Nat
  incs : Nat
  skips : Nat
  skipAt : Option DWord
  digAt : Nat
  anaAt : Nat
  deriving DecidableEq, Repr

/-- The telemetry period of a port: power words summed, and the counts at its start (paths dealt, bad and missing frames). -/
structure TelPort where
  pwr : Nat
  dealt : Nat
  bad : Nat
  miss : Nat
  deriving DecidableEq, Repr

/-- Telemetry: sequence, periods by port, corrected DRAM errors at the start of the period. -/
structure Tel where
  seq : Word
  ports : Table TelPort
  ce : Nat
  deriving DecidableEq, Repr

/-- A write to DRAM that a block has formed and that lands at the end of the row: source code of R436, address and bytes. -/
structure MemWr where
  src : Nat
  addr : Nat
  data : List Byte
  deriving DecidableEq, Repr

/-! ## Pins (02_rigging.md R55) -/

/-- A GPF output pin that is high: until when. -/
abbrev Pins := Table DWord

/-! ## Boundary scan (17_electrical_package.md R428) -/

/-- The states of the test access port controller that R428 takes from IEEE 1149.1. -/
inductive TapState where
  | reset | idle | selDr | capDr | shDr | ex1Dr | pauseDr | ex2Dr | updDr | selIr | capIr | shIr | ex1Ir | pauseIr | ex2Ir | updIr
  deriving DecidableEq, Repr

/-- The test access port: its state, the instruction in force, the instruction shift register, the 32-bit identification or 1-bit bypass shift
register, and TDO where it is driven. -/
structure Tap where
  st : TapState
  ir : Byte
  irShift : Byte
  dr : Word
  tdo : Option Bool
  deriving DecidableEq, Repr

/-- Everything the AX-32 holds beside its DRAM and the queue of waiting commands. -/
structure Dev where
  variant : Variant
  freeCtr : Nat
  tick : Word
  sub : Fin 4
  time : DWord
  regs : List (Nat × Nat)
  shadow : List ShadowEntry
  oldViews : List OldView
  sys : Sys
  evr : Evr
  logFlash : LogFlash
  hst : Hst
  rig : Rig
  bar : Bar
  eng : Table Eng
  corr : Table CorrImg
  prt : Table Prt
  loops : Table LoopEng
  ffPend : Option FfPend
  sns : Sns
  hnd : Hnd
  encs : Table Enc
  cmps : Table CmpU
  axs : Table Axs
  glk : Glk
  ptp : Ptp
  ddr : Ddr
  thm : Thm
  led : Led
  bist : Bist
  tel : Tel
  wq : List MemWr
  tap : Tap
  pins : Pins
  deriving DecidableEq, Repr

/-- The state of the block: the commands waiting, first in first out, the DRAM, and everything else. -/
structure State where
  pending : List Instr
  mem : Dram
  dev : Dev
  deriving DecidableEq, Repr

/-- The AX-32 right after reset, before start-up (R406, R411): every register at its reset value (the list is
empty), every queue, buffer and table empty, PHASE 0. Log entries 3 to 9 name the values that the spec gives
no reset value for. -/
def Dev.reset : Dev :=
  { variant := .ax32, freeCtr := 0, tick := 0, sub := 0, time := 0, regs := [], shadow := [], oldViews := [],
    sys := { sup := .running, lastMismatch := none, edgeSilent := false, ctrlSilent := false, flits := 0, lost := [],
             resetLow := false, phaseBefore := 0 },
    evr := { fifo := [], drops := [0, 0, 0, 0, 0, 0], firstDrop := 0, slots := [], wr := 0, nextSeq := 0, bank := [],
             win := [], freezeAt := 0 },
    logFlash := { sectors := [], cur := 0 },
    hst := { mbx := [], free := false, queue := [], running := [], finished := [], cpl := [], remembered := [],
             dupWait := [], dma := [], dmaBytes := [], dmaOut := [], dmaStatus := [], bar2 := [],
             bar2Poison := false, bar0 := none, resetWait := none },
    rig := { live := [], prev := none, prevSwap := 0, armed := none, latched := none, staged := none, slots := [], armTick := 0, prog := none },
    bar := { beds := [], latched := none, cur := none, old := none, oldNo := 0, hznFrom := 0, commitTick := 0, chase := false, hits := 0,
             chaseLost := false, finishOrder := [], sealing := none },
    eng := [], corr := [],
    prt := [],
    loops := [], ffPend := none,
    sns := { settled := false, latSettled := [], pdOfs := [], pdGain := [], dacTab := [], tempFix := [], calAt := 0, thirds := 0, unsures := 0, accepted := [],
             store := [], storeSeq := 0, older := { seq := 0, items := [], stitch := [] },
             slews := [], traces := [], obs := [], spots := [], cams := [] },
    hnd := { tko := [], nextTko := 0, out := [], inc := [], stby := [], stbyOut := [], nextXid := 0, nextStby := 0,
             order := [], retiredBed := [] },
    encs := [], cmps := [], axs := [],
    glk := { digests := [], digestAt := 0, digestTick := 0, tx := [], fwd := [], marks := [], seqs := [], seen := [], overlaps := [], ports := [], routes := [], root := none, up := none,
             rootTimes := [] },
    ptp := { i := 0, fHold := 0, fs := [], run := 0, first := none, step := none, rem := 0, sent := [] },
    ddr := { waiting := [], nextId := 0, ch := [], scrubAt := 0, fence := none, sramAt := 0 },
    thm := { ins := [], beams := [], die := [], ignored := [], hot := [], cool := none },
    led := { frame := none, enAt := none, begun := false, light := [], ints := [], comps := [], trips := [], drive := none },
    bist := { dig := none, ana := none, failed := [], again := [], done := [], roundAt := 0, fails := 0, incs := 0, skips := 0,
              skipAt := none, digAt := 0, anaAt := 0 },
    tel := { seq := 0, ports := [], ce := 0 },
    wq := [],
    tap := { st := .reset, ir := 0x01, irShift := 0, dr := 0, tdo := none },
    pins := []
  }

/-- The machine right after reset. -/
def State.reset : State :=
  { pending := [], mem := { cells := [], poison := [] }, dev := Dev.reset }

end Sys2Proof.Machine
end

