-- ==== Sys2Proof/Machine/F32.lean ====
section
/-! DEFINITION. Arithmetic of the AX-32: IEEE 754 binary32 with round to nearest, ties to even, and subnormals
flushed to zero of the same sign (00_scope.md R9), exact fractions for the planning of motion, and
integer square roots. Binary32 values are held as their 32-bit patterns. -/

namespace Sys2Proof.Machine

/-! ## Binary32 patterns -/

/-- The sign bit. -/
def f32Neg? (x : Word) : Bool := x.toNat / 0x80000000 == 1

/-- The biased exponent. -/
def f32Exp (x : Word) : Nat := x.toNat / 0x800000 % 256

/-- The fraction field. -/
def f32Frac (x : Word) : Nat := x.toNat % 0x800000

/-- A NaN. -/
def f32IsNaN (x : Word) : Bool := f32Exp x == 255 && f32Frac x != 0

/-- An infinity of either sign. -/
def f32IsInf (x : Word) : Bool := f32Exp x == 255 && f32Frac x == 0

/-- A subnormal number: exponent field 0 and fraction not 0. -/
def f32IsSub (x : Word) : Bool := f32Exp x == 0 && f32Frac x != 0

/-- Neither a NaN nor an infinity. -/
def f32Finite (x : Word) : Bool := f32Exp x != 255

/-- Zero of either sign, a flushed subnormal included (R9). -/
def f32IsZero (x : Word) : Bool := f32Exp x == 0

/-- The pattern of the quiet NaN that an invalid operation gives. -/
def f32NaN : Word := 0x7FC00000#32

/-- Zero of the given sign. -/
def f32Zero (neg : Bool) : Word := if neg then 0x80000000#32 else 0#32

/-- Infinity of the given sign. -/
def f32Inf (neg : Bool) : Word := if neg then 0xFF800000#32 else 0x7F800000#32

/-- The constant 1.0. -/
def f32One : Word := 0x3F800000#32

/-- The magnitude of a finite pattern in units of 2^-149, subnormals flushed (R9). -/
def f32Mag (x : Word) : Nat :=
  if f32Exp x == 0 then 0 else (0x800000 + f32Frac x) * 2 ^ (f32Exp x - 1)

/-- The value of a finite pattern in units of 2^-149. -/
def f32Val (x : Word) : Int := if f32Neg? x then -(f32Mag x : Int) else f32Mag x

/-- `a / b` rounded to the nearest integer, ties to even. -/
def divRne (a b : Nat) : Nat :=
  let q := a / b
  let r := a % b
  if 2 * r > b then q + 1 else if 2 * r < b then q else if q % 2 == 0 then q else q + 1

/-- Binary32 pattern of ± (num / den) · 2^-149, rounded once to nearest even; a result below the least normal
number after rounding is flushed to zero of the same sign, one above the greatest is an infinity (R9). -/
def f32Round (neg : Bool) (num den : Nat) : Word :=
  if num == 0 || den == 0 then f32Zero neg
  else
    let e0 := Nat.log2 (num / den + 1)
    -- sh: the weight of the result's last bit is 2^sh (in units of 2^-149), with at least 24 bits kept
    let e := if 2 ^ e0 * den ≤ num then e0 else e0 - 1
    let sh := if e < 23 then 0 else e - 23
    -- values below 2^23 units are subnormal before rounding: judge them at unit weight
    let m := divRne num (den * 2 ^ sh)
    let m' := if m == 0x1000000 then 0x800000 else m
    let sh' := if m == 0x1000000 then sh + 1 else sh
    if m' < 0x800000 then f32Zero neg
    else if sh' + 1 > 254 then f32Inf neg
    else BitVec.ofNat 32 ((if neg then 0x80000000 else 0) + (sh' + 1) * 0x800000 + (m' - 0x800000))

/-- Pattern of an exact value in units of 2^-149. -/
def f32OfUnits (v : Int) : Word := f32Round (decide (v < 0)) v.natAbs 1

/-- Pattern of the quotient n / d of an integer by a natural number. -/
def f32OfFrac (n : Int) (d : Nat) : Word := f32Round (decide (n < 0)) (n.natAbs * 2 ^ 149) d

/-- Pattern of an integer. -/
def f32OfInt (n : Int) : Word := f32OfFrac n 1

/-- Negation. -/
def f32Negate (x : Word) : Word := x ^^^ 0x80000000#32

/-- Absolute value. -/
def f32Abs (x : Word) : Word := x &&& 0x7FFFFFFF#32

/-- Sum (R9). -/
def f32Add (a b : Word) : Word :=
  if f32IsNaN a || f32IsNaN b then f32NaN
  else if f32IsInf a then (if f32IsInf b && f32Neg? a != f32Neg? b then f32NaN else a)
  else if f32IsInf b then b
  else
    let v := f32Val a + f32Val b
    if v == 0 then f32Zero (f32Neg? a && f32Neg? b) else f32OfUnits v

/-- Difference (R9). -/
def f32Sub (a b : Word) : Word := f32Add a (f32Negate b)

/-- Product (R9). -/
def f32Mul (a b : Word) : Word :=
  let neg := f32Neg? a != f32Neg? b
  if f32IsNaN a || f32IsNaN b then f32NaN
  else if f32IsInf a || f32IsInf b then (if f32IsZero a || f32IsZero b then f32NaN else f32Inf neg)
  else f32Round neg (f32Mag a * f32Mag b) (2 ^ 149)

/-- Quotient (R9). -/
def f32Div (a b : Word) : Word :=
  let neg := f32Neg? a != f32Neg? b
  if f32IsNaN a || f32IsNaN b then f32NaN
  else if f32IsInf a then (if f32IsInf b then f32NaN else f32Inf neg)
  else if f32IsInf b then f32Zero neg
  else if f32IsZero b then (if f32IsZero a then f32NaN else f32Inf neg)
  else f32Round neg (f32Mag a * 2 ^ 149) (f32Mag b)

/-- The order key of a pattern that is no NaN: infinities beyond every finite value, both zeros equal. -/
def f32Key (x : Word) : Int :=
  let m : Nat := if f32IsInf x then 2 ^ 300 else f32Mag x
  if f32Neg? x then -(m : Int) else m

/-- a < b; false if either is a NaN. -/
def f32Lt (a b : Word) : Bool := !(f32IsNaN a) && !(f32IsNaN b) && decide (f32Key a < f32Key b)

/-- a ≤ b; false if either is a NaN. -/
def f32Le (a b : Word) : Bool := !(f32IsNaN a) && !(f32IsNaN b) && decide (f32Key a ≤ f32Key b)

/-- x limited to lo … hi. -/
def f32Clamp (lo hi x : Word) : Word := if f32Lt x lo then lo else if f32Lt hi x then hi else x

/-- Integer part of a finite value scaled by 2^k, rounded to nearest even; 0 for a NaN or an infinity, whose users judge
it first. -/
def f32ToIntScaled (x : Word) (k : Nat) : Int :=
  if f32Finite x then
    let m := divRne (f32Mag x * 2 ^ k) (2 ^ 149)
    if f32Neg? x then -(m : Int) else m
  else 0

/-- Nearest integer of a finite value. -/
def f32ToInt (x : Word) : Int := f32ToIntScaled x 0

/-- Floor of a finite value. -/
def f32Floor (x : Word) : Int := if f32Finite x then f32Val x / (2 ^ 149 : Int) else 0

/-- A written binary32 value is refused if it is a NaN, an infinity or a subnormal (R433), or outside its range. -/
def f32Accept (r : F32Range) (x : Word) : Bool :=
  f32Finite x && !(f32IsSub x) &&
  match r with
  | .any => true
  | .pos => decide (0 < f32Val x)
  | .zeroOne => decide (0 ≤ f32Val x) && f32Le x f32One
  | .unit1 => f32Le (f32Abs x) f32One
  | .halfTwo => f32Le 0x3F000000#32 x && f32Le x 0x40000000#32
  | .hz => f32Le f32One x && f32Le x 0x48F42400#32

/-! ## Fractions -/

/-- A fraction in lowest terms. -/
def frac (n : Int) (d : Nat) : Frac :=
  let g := Nat.gcd n.natAbs d
  if g == 0 then ⟨0, 1⟩ else ⟨n / (g : Int), d / g⟩

/-- An integer as a fraction. -/
def fracI (n : Int) : Frac := ⟨n, 1⟩

/-- Sum. -/
def fracAdd (a b : Frac) : Frac := frac (a.num * b.den + b.num * a.den) (a.den * b.den)

/-- Difference. -/
def fracSub (a b : Frac) : Frac := frac (a.num * b.den - b.num * a.den) (a.den * b.den)

/-- Product. -/
def fracMul (a b : Frac) : Frac := frac (a.num * b.num) (a.den * b.den)

/-- Quotient; 0 where the divisor is 0. -/
def fracDiv (a b : Frac) : Frac :=
  if b.num == 0 then ⟨0, 1⟩
  else if b.num < 0 then frac (-(a.num * b.den)) (a.den * b.num.natAbs) else frac (a.num * b.den) (a.den * b.num.natAbs)

/-- a ≤ b. -/
def fracLe (a b : Frac) : Bool := decide (a.num * b.den ≤ b.num * a.den)

/-- a < b. -/
def fracLt (a b : Frac) : Bool := decide (a.num * b.den < b.num * a.den)

/-- The least of two. -/
def fracMin (a b : Frac) : Frac := if fracLe a b then a else b

/-- The greater of two. -/
def fracMax (a b : Frac) : Frac := if fracLe a b then b else a

/-- Absolute value. -/
def fracAbs (a : Frac) : Frac := ⟨a.num.natAbs, a.den⟩

/-- Floor. -/
def fracFloor (a : Frac) : Int := a.num / (a.den : Int)

/-- Ceiling. -/
def fracCeil (a : Frac) : Int := -((-a.num) / (a.den : Int))

/-- Nearest integer, ties to even. -/
def fracRne (a : Frac) : Int :=
  let m := divRne a.num.natAbs a.den
  if a.num < 0 then -(m : Int) else m

/-- The value of a finite binary32 pattern; 0 for a NaN or an infinity. -/
def fracOfF32 (x : Word) : Frac := if f32Finite x then frac (f32Val x) (2 ^ 149) else ⟨0, 1⟩

/-- The nearest binary32 pattern. -/
def f32OfFr (a : Frac) : Word := f32OfFrac a.num a.den

/-! ## Square roots -/

/-- Bit by bit from bit `n - 1` down: the greatest r with r² ≤ a and r < 2^n, starting from r. -/
def isqrtGo (a : Nat) : Nat → Nat → Nat
  | 0, r => r
  | n + 1, r => if (r + 2 ^ n) * (r + 2 ^ n) ≤ a then isqrtGo a n (r + 2 ^ n) else isqrtGo a n r

/-- Floor of the square root. -/
def isqrt (a : Nat) : Nat := isqrtGo a (Nat.log2 (a + 1) / 2 + 1) 0

/-- Square root of a fraction not below 0, floored at 2^-40. -/
def fracSqrt (a : Frac) : Frac := if a.num ≤ 0 then ⟨0, 1⟩ else frac (isqrt (a.num.natAbs * 2 ^ 80 / a.den)) (2 ^ 40)

/-! ## Bits -/

/-- The signed value of the low w bits of v. -/
def sext (w v : Nat) : Int := if v % 2 ^ w < 2 ^ (w - 1) then (v % 2 ^ w : Nat) else (v % 2 ^ w : Nat) - (2 ^ w : Nat)

/-- The low w bits of an integer. -/
def trunc (w : Nat) (v : Int) : Nat := (v % (2 ^ w : Int)).toNat

/-- v limited to lo … hi. -/
def clampI (lo hi v : Int) : Int := if v < lo then lo else if hi < v then hi else v

/-- Bit k of v. -/
def bitAt (v k : Nat) : Bool := v / 2 ^ k % 2 == 1

/-- Bits lsb … lsb + w − 1 of v. -/
def bitsAt (v lsb w : Nat) : Nat := v / 2 ^ lsb % 2 ^ w

/-- v with bit k set or cleared. -/
def bitPut (v k : Nat) (b : Bool) : Nat :=
  if bitAt v k == b then v else if b then v + 2 ^ k else v - 2 ^ k

/-- 1 for true, 0 for false. -/
def b2n (b : Bool) : Nat := if b then 1 else 0

/-- The number of set bits among the low w. -/
def popCount : Nat → Nat → Nat
  | 0, _ => 0
  | w + 1, v => v % 2 + popCount w (v / 2)

/-- `later a b` of R7 for 32-bit counters: the signed difference a − b exceeds 0. -/
def later32 (a b : Word) : Bool := decide (0 < (a - b).toInt)

/-- `later a b` of R7 for 64-bit times. -/
def later64 (a b : DWord) : Bool := decide (0 < (a - b).toInt)

/-- How far `now` lies behind `since` on a 32-bit counter, from their signed difference (R7): 0 where `since` lies ahead. -/
def elapsed32 (now since : Word) : Nat := (now - since).toInt.toNat

/-- How far `now` lies behind `since` in ns, from their signed difference (R7): 0 where `since` lies ahead, as after a backward step. -/
def elapsed64 (now since : DWord) : Nat := (now - since).toInt.toNat

/-- Little-endian value of a byte list (R10). -/
def leNat : List Byte → Nat
  | [] => 0
  | b :: bs => b.toNat + 256 * leNat bs

/-- The low n bytes of v, lowest first (R10). -/
def leBytes : Nat → Nat → List Byte
  | 0, _ => []
  | n + 1, v => BitVec.ofNat 8 v :: leBytes n (v / 256)

/-- n bytes of a list from offset o. -/
def sliceB (bs : List Byte) (o n : Nat) : List Byte := (bs.drop o).take n

/-- The little-endian field of n bytes at offset o. -/
def leAt (bs : List Byte) (o n : Nat) : Nat := leNat (sliceB bs o n)

/-- The binary32 pattern at offset o. -/
def f32At (bs : List Byte) (o : Nat) : Word := BitVec.ofNat 32 (leAt bs o 4)

/-- Every byte is zero. -/
def allZero (bs : List Byte) : Bool := bs.all (· == 0)

end Sys2Proof.Machine
end

