-- ==== Sys2Proof/Machine/Geom.lean ====
section
/-! DEFINITION. Plane geometry on bed positions: convex polygons (02_rigging.md R48), boxes inside them
(09_handoff.md R241) and the area of their overlap (02_rigging.md R49), all in exact arithmetic. -/

namespace Sys2Proof.Machine

/-- A point in bed units. -/
abbrev Pt := Int × Int

/-- The cross product of (a − o) and (b − o). -/
def cross (o a b : Pt) : Int := (a.1 - o.1) * (b.2 - o.2) - (a.2 - o.2) * (b.1 - o.1)

/-- The edges of a closed polygon, from each vertex to the next. -/
def edges (ps : List Pt) : List (Pt × Pt) :=
  match ps with
  | [] => []
  | p :: t => (p :: t).zip (t ++ [p])

/-- The direction of an edge. -/
def dirOf (e : Pt × Pt) : Pt := (e.2.1 - e.1.1, e.2.2 - e.1.2)

/-- A direction in the upper half plane, the positive X axis included. -/
def upperDir (v : Pt) : Bool := decide (0 < v.2) || (v.2 == 0 && decide (0 < v.1))

/-- Twice the signed area. -/
def area2 (ps : List Pt) : Int := (edges ps).foldl (fun s e => s + (e.1.1 * e.2.2 - e.2.1 * e.1.2)) 0

/-- Two consecutive directions of a walk that may turn left or go straight, but not reverse (R48). -/
def turnOk (v w : Pt) : Bool :=
  let c := v.1 * w.2 - v.2 * w.1
  decide (0 < c) || (c == 0 && decide (0 < v.1 * w.1 + v.2 * w.2))

/-- The index of the first vertex at which a polygon breaks R48, or 0 for one that breaks it as a whole; none if it is simple,
convex and counter-clockwise with positive area and no coincident consecutive vertices. Left turns only, and one
passage from the lower to the upper half plane, make exactly one full circle. -/
def polyBad (ps : List Pt) : Option Nat :=
  let ds := (edges ps).map dirOf
  match ds.findIdx? (fun v => v == (0, 0)) with
  | some i => some i
  | none =>
    let pairs := match ds with
      | [] => []
      | d :: t => (d :: t).zip (t ++ [d])
    match pairs.findIdx? (fun x => !(turnOk x.1 x.2)) with
    | some i => some ((i + 1) % max 1 ps.length)
    | none =>
      if (pairs.filter (fun x => !(upperDir x.1) && upperDir x.2)).length == 1 && decide (0 < area2 ps) then none
      else some 0

/-- A point lies in a convex counter-clockwise polygon, its edges included. -/
def inPoly (ps : List Pt) (p : Pt) : Bool := (edges ps).all (fun e => decide (0 ≤ cross e.1 e.2 p))

/-- A box lies wholly in the polygon (R241). -/
def boxIn (ps : List Pt) (b : Box) : Bool :=
  !ps.isEmpty && inPoly ps (b.xmin, b.ymin) && inPoly ps (b.xmax, b.ymin) && inPoly ps (b.xmax, b.ymax) &&
  inPoly ps (b.xmin, b.ymax)

/-- The least box that holds two boxes. -/
def boxJoin (a b : Box) : Box := ⟨min a.xmin b.xmin, min a.ymin b.ymin, max a.xmax b.xmax, max a.ymax b.ymax⟩

/-- The box of one point. -/
def boxPt (p : Pt) : Box := ⟨p.1, p.2, p.1, p.2⟩

/-- A point with exact fractions as coordinates. -/
abbrev FPt := Frac × Frac

/-- Cross product of (b − a) and (p − a) for integer a, b. -/
def crossF (a b : Pt) (p : FPt) : Frac :=
  fracSub (fracMul (fracI (b.1 - a.1)) (fracSub p.2 (fracI a.2))) (fracMul (fracI (b.2 - a.2)) (fracSub p.1 (fracI a.1)))

/-- Where the segment c–d crosses the line whose cross products with c and d are u and v. -/
def crossingF (c d : FPt) (u v : Frac) : FPt :=
  let t := fracDiv u (fracSub u v)
  (fracAdd c.1 (fracMul t (fracSub d.1 c.1)), fracAdd c.2 (fracMul t (fracSub d.2 c.2)))

/-- A polygon cut by the half plane to the left of a → b. -/
def clipF (a b : Pt) (ps : List FPt) : List FPt :=
  match ps with
  | [] => []
  | p0 :: t =>
    ((p0 :: t).zip (t ++ [p0])).flatMap (fun x =>
      let u := crossF a b x.1
      let v := crossF a b x.2
      if 0 ≤ u.num then (if 0 ≤ v.num then [x.2] else [crossingF x.1 x.2 u v])
      else (if 0 ≤ v.num then [crossingF x.1 x.2 u v, x.2] else []))

/-- Twice the area of a polygon with fraction coordinates. -/
def area2F (ps : List FPt) : Frac :=
  match ps with
  | [] => fracI 0
  | p0 :: t => ((p0 :: t).zip (t ++ [p0])).foldl
      (fun s x => fracAdd s (fracSub (fracMul x.1.1 x.2.2) (fracMul x.2.1 x.1.2))) (fracI 0)

/-- The overlap of two convex polygons is at least 1 mm² = 10^10 bu² (R49). -/
def overlapEnough (p q : List Pt) : Bool :=
  let start : List FPt := p.map (fun x => (fracI x.1, fracI x.2))
  let r := (edges q).foldl (fun ps e => clipF e.1 e.2 ps) start
  fracLe (fracI 20000000000) (area2F r)

end Sys2Proof.Machine
end

