-- ==== Sys2Proof/Machine/Crc.lean ====
section
/-! DEFINITION. The check codes of the spec: CRC-32C (02_rigging.md R40), CRC-8 (06_beam_ports.md R146), the
CRC-4 of MOD frames (06_beam_ports.md R161). -/

namespace Sys2Proof.Machine

/-- One bit of the reflected CRC-32C. -/
def crc32cBit (c : Nat) : Nat := if c % 2 == 1 then (c / 2) ^^^ 0x82F63B78 else c / 2

/-- One byte of the reflected CRC-32C. -/
def crc32cByte (c : Nat) (b : Byte) : Nat :=
  crc32cBit (crc32cBit (crc32cBit (crc32cBit (crc32cBit (crc32cBit (crc32cBit (crc32cBit (c ^^^ b.toNat))))))))

/-- CRC-32C of R40. -/
def crc32c (bs : List Byte) : Word := BitVec.ofNat 32 ((bs.foldl crc32cByte 0xFFFFFFFF) ^^^ 0xFFFFFFFF)

/-- One bit of the CRC-8 with polynomial 0x2F. -/
def crc8Bit (c : Nat) : Nat := if c / 128 % 2 == 1 then (c * 2 % 256) ^^^ 0x2F else c * 2 % 256

/-- One byte of the CRC-8. -/
def crc8Byte (c : Nat) (b : Byte) : Nat :=
  crc8Bit (crc8Bit (crc8Bit (crc8Bit (crc8Bit (crc8Bit (crc8Bit (crc8Bit (c ^^^ b.toNat))))))))

/-- CRC-8 of R146. -/
def crc8 (bs : List Byte) : Byte := BitVec.ofNat 8 ((bs.foldl crc8Byte 0xFF) ^^^ 0xFF)

/-- CRC-4 with polynomial 0x3 over the n low bits of v, most significant first, from register value c. -/
def crc4Go : Nat → Nat → Nat → Nat
  | 0, _, c => c
  | n + 1, v, c =>
    let top := c / 8 % 2
    let bit := v / 2 ^ n % 2
    crc4Go n v (if (top + bit) % 2 == 1 then (c * 2 % 16) ^^^ 0x3 else c * 2 % 16)

end Sys2Proof.Machine
end

