-- ==== Sys2Proof/Machine/RegMap.lean ====
section
/-! DEFINITION. The register map: every field of every BAR0 register, at the offsets, widths, reset
values, access codes and effect points that the register tables of the spec's chapters give (R13, R14, R16).
`F.<REGISTER>_<FIELD>` names one field (index arguments follow the register's own index letters), and
`regSpecs` is the table by which a BAR0 write is judged (R433). The reserved fields read zero and take no
write (R10), so they are not listed. -/

namespace Sys2Proof.Machine.F


/-! The rigging (R69) -/

def RIG_STAT_STATE : Fld := ⟨0x10000, 0, 4, 0x0⟩
def RIG_STAT_SOURCE : Fld := ⟨0x10000, 4, 2, 0x0⟩
def RIG_STAT_LATE : Fld := ⟨0x10000, 8, 1, 0x0⟩
def RIG_STAT_FALLBACK : Fld := ⟨0x10000, 9, 1, 0x0⟩
def RIG_STAT_REFUSED : Fld := ⟨0x10000, 10, 1, 0x0⟩
def RIG_STAT_OLDSET : Fld := ⟨0x10000, 11, 1, 0x0⟩
def RIG_ERR_CHECK : Fld := ⟨0x10004, 0, 8, 0x0⟩
def RIG_ERR_SECTION : Fld := ⟨0x10004, 8, 10, 0x0⟩
def RIG_ERR_OFFSET_OFFSET : Fld := ⟨0x10008, 0, 32, 0x0⟩
def RIG_ID_IMG_ID : Fld := ⟨0x1000C, 0, 32, 0x0⟩
def RIG_GEN_GENERATION : Fld := ⟨0x10010, 0, 32, 0x0⟩
def RIG_CRC_IMG_CRC : Fld := ⟨0x10014, 0, 32, 0x0⟩
def RIG_SWAP_ID_IMG_ID : Fld := ⟨0x10018, 0, 32, 0x0⟩
def RIG_SWAPS_COUNT : Fld := ⟨0x1001C, 0, 32, 0x0⟩
def RIG_ROMID_ROMID : Fld := ⟨0x10020, 0, 32, 0xB000001⟩
def RIG_PATCH_CODE_LEN : Fld := ⟨0x10024, 0, 32, 0x0⟩

/-! Bed buffers (R95) -/

def BED_BUFn_BASE_BASE (n : Nat) : Fld := ⟨0x20100 + n * 0x20, 0, 24, 0x0⟩
def BED_BUFn_SIZE_SIZE (n : Nat) : Fld := ⟨0x20104 + n * 0x20, 0, 18, 0x0⟩
def BED_BUFn_STAT_STATE (n : Nat) : Fld := ⟨0x20108 + n * 0x20, 0, 3, 0x0⟩
def BED_BUFn_STAT_PEND (n : Nat) : Fld := ⟨0x20108 + n * 0x20, 3, 1, 0x0⟩
def BED_BUFn_STAT_SEALING (n : Nat) : Fld := ⟨0x20108 + n * 0x20, 4, 1, 0x0⟩
def BED_BUFn_STAT_SINGLE (n : Nat) : Fld := ⟨0x20108 + n * 0x20, 5, 1, 0x0⟩
def BED_BUFn_STAT_DROPPED (n : Nat) : Fld := ⟨0x20108 + n * 0x20, 6, 1, 0x0⟩
def BED_BUFn_GEN_GEN (n : Nat) : Fld := ⟨0x2010C + n * 0x20, 0, 32, 0x0⟩
def BED_BUFn_PEND_GEN_GEN (n : Nat) : Fld := ⟨0x20110 + n * 0x20, 0, 32, 0x0⟩
def BED_BUFn_BED_NO_BED_NO (n : Nat) : Fld := ⟨0x20114 + n * 0x20, 0, 32, 0x0⟩
def BED_BUFn_ERR_CHECK (n : Nat) : Fld := ⟨0x20118 + n * 0x20, 0, 8, 0x0⟩
def BED_BUFn_ERR_INDEX (n : Nat) : Fld := ⟨0x20118 + n * 0x20, 8, 24, 0x0⟩
def BED_BUFn_DROPS_COUNT (n : Nat) : Fld := ⟨0x2011C + n * 0x20, 0, 32, 0x0⟩
def JIG_SHORT_COUNT : Fld := ⟨0x30000, 0, 32, 0x0⟩

/-! The bed cycle (R116) -/

def BED_CTRL_RUN : Fld := ⟨0x20000, 0, 1, 0x0⟩
def BED_CTRL_HOLD : Fld := ⟨0x20000, 1, 1, 0x0⟩
def BED_CTRL_CHASE : Fld := ⟨0x20000, 2, 1, 0x1⟩
def BED_CTRL_RCSRC : Fld := ⟨0x20000, 3, 1, 0x0⟩
def BED_CTRL_VHOLD : Fld := ⟨0x20000, 4, 1, 0x0⟩
def BED_STAT_PHASE : Fld := ⟨0x20004, 0, 3, 0x0⟩
def BED_STAT_LATE : Fld := ⟨0x20004, 3, 1, 0x0⟩
def BED_STAT_STARVE : Fld := ⟨0x20004, 4, 1, 0x0⟩
def BED_STAT_ABANDON : Fld := ⟨0x20004, 5, 1, 0x0⟩
def BED_STAT_UNDERRUN : Fld := ⟨0x20004, 6, 1, 0x0⟩
def BED_STAT_VFAIL : Fld := ⟨0x20004, 7, 1, 0x0⟩
def BED_STAT_PAIRBRK : Fld := ⟨0x20004, 8, 1, 0x0⟩
def BED_STAT_QLOST : Fld := ⟨0x20004, 9, 1, 0x0⟩
def BED_STAT_CHASE_LOST : Fld := ⟨0x20004, 10, 1, 0x0⟩
def BED_STAT_TWO : Fld := ⟨0x20004, 11, 1, 0x0⟩
def BED_STAT_CHASING : Fld := ⟨0x20004, 12, 1, 0x0⟩
def BED_NEXT_BUF : Fld := ⟨0x20008, 0, 4, 0x0⟩
def BED_NEXT_COMMITTED : Fld := ⟨0x20008, 4, 1, 0x0⟩
def BED_NEXT_LATCHED : Fld := ⟨0x20008, 5, 1, 0x0⟩
def BED_NEXT_HELD : Fld := ⟨0x20008, 6, 1, 0x0⟩
def BED_NEXT_LBUF : Fld := ⟨0x20008, 7, 4, 0x0⟩
def BED_CUR_BUF : Fld := ⟨0x20010, 0, 4, 0x0⟩
def BED_CUR_VALID : Fld := ⟨0x20010, 4, 1, 0x0⟩
def BED_CUR_OLD_BUF : Fld := ⟨0x20010, 8, 4, 0x0⟩
def BED_CUR_OLD_VALID : Fld := ⟨0x20010, 12, 1, 0x0⟩
def BED_CHASE_CMP : Fld := ⟨0x20024, 0, 3, 0x0⟩
def BED_CHASE_GUARD : Fld := ⟨0x20024, 4, 4, 0x1⟩
def BED_CHASE_CLEAR : Fld := ⟨0x20024, 16, 16, 0xFFFF⟩
def BED_NEXT_GEN_GEN : Fld := ⟨0x2000C, 0, 32, 0x0⟩
def BED_CUR_NO_BED_NO : Fld := ⟨0x20014, 0, 32, 0x0⟩
def BED_COUNT_COUNT : Fld := ⟨0x20018, 0, 32, 0x0⟩
def BED_HZN_TICK_TICK : Fld := ⟨0x2001C, 0, 32, 0x0⟩
def BED_BND_TICK_TICK : Fld := ⟨0x20020, 0, 32, 0x0⟩
def BED_RECOAT_END_POS : Fld := ⟨0x20028, 0, 32, 0x0⟩
def BED_STRIPES_RELEASED : Fld := ⟨0x2002C, 0, 16, 0x0⟩
def BED_UNDERRUNS_COUNT : Fld := ⟨0x20030, 0, 32, 0x0⟩
def BED_ABANDONED_COUNT : Fld := ⟨0x20034, 0, 32, 0x0⟩
def BED_VPASS_COUNT : Fld := ⟨0x20038, 0, 32, 0x0⟩
def BED_VFAIL_COUNT : Fld := ⟨0x2003C, 0, 32, 0x0⟩
def BED_QREC_BASE_BASE : Fld := ⟨0x20040, 0, 24, 0x0⟩
def BED_QREC_SIZE_SIZE : Fld := ⟨0x20044, 0, 16, 0x0⟩
def BED_QREC_WR_INDEX : Fld := ⟨0x20048, 0, 32, 0x0⟩
def BED_QREC_RD_INDEX : Fld := ⟨0x2004C, 0, 32, 0x0⟩
def BED_QREC_LOST_COUNT : Fld := ⟨0x20050, 0, 32, 0x0⟩

/-! Trajectory (R142) -/

def BEAMn_TSTAT_STATE (n : Nat) : Fld := ⟨0x100000 + n * 0x2000, 0, 3, 0x0⟩
def BEAMn_TSTAT_NOGRID (n : Nat) : Fld := ⟨0x100000 + n * 0x2000, 3, 1, 0x1⟩
def BEAMn_TSTAT_OOF (n : Nat) : Fld := ⟨0x100000 + n * 0x2000, 4, 1, 0x0⟩
def BEAMn_TSTAT_FE_EXC (n : Nat) : Fld := ⟨0x100000 + n * 0x2000, 5, 1, 0x0⟩
def BEAMn_TSTAT_ZCLAMP (n : Nat) : Fld := ⟨0x100000 + n * 0x2000, 6, 1, 0x0⟩
def BEAMn_TSTAT_GCLAMP (n : Nat) : Fld := ⟨0x100000 + n * 0x2000, 7, 1, 0x0⟩
def BEAMn_TSTAT_XY2 (n : Nat) : Fld := ⟨0x100000 + n * 0x2000, 8, 1, 0x0⟩
def BEAMn_PROF_JOIN_ANG (n : Nat) : Fld := ⟨0x100004 + n * 0x2000, 0, 8, 0xA⟩
def BEAMn_TRIM_FINE (n : Nat) : Fld := ⟨0x100008 + n * 0x2000, 0, 6, 0x0⟩
def BEAMn_FE_LIMIT_LIMIT (n : Nat) : Fld := ⟨0x10000C + n * 0x2000, 0, 24, 0x0⟩
def BEAMn_FE_LIMIT_TICKS (n : Nat) : Fld := ⟨0x10000C + n * 0x2000, 24, 8, 0x10⟩
def BEAMn_TRACK_EN (n : Nat) : Fld := ⟨0x10003C + n * 0x2000, 0, 1, 0x0⟩
def BEAMn_TRACK_ENC (n : Nat) : Fld := ⟨0x10003C + n * 0x2000, 1, 3, 0x0⟩
def BEAMn_CONF_TOL (n : Nat) : Fld := ⟨0x100010 + n * 0x2000, 0, 16, 0x40⟩
def BEAMn_FE_MAX_X_FE (n : Nat) : Fld := ⟨0x100014 + n * 0x2000, 0, 24, 0x0⟩
def BEAMn_FE_MAX_Y_FE (n : Nat) : Fld := ⟨0x100018 + n * 0x2000, 0, 24, 0x0⟩
def BEAMn_LAT_TICKS (n : Nat) : Fld := ⟨0x10001C + n * 0x2000, 0, 6, 0x0⟩
def BEAMn_STITCH_X_OFS (n : Nat) : Fld := ⟨0x100020 + n * 0x2000, 0, 32, 0x0⟩
def BEAMn_STITCH_Y_OFS (n : Nat) : Fld := ⟨0x100024 + n * 0x2000, 0, 32, 0x0⟩
def BEAMn_Z_OFF_VAL (n : Nat) : Fld := ⟨0x100028 + n * 0x2000, 0, 32, 0x0⟩
def BEAMn_Z_GAIN_VAL (n : Nat) : Fld := ⟨0x10002C + n * 0x2000, 0, 32, 0x0⟩
def BEAMn_Z_CURV_VAL (n : Nat) : Fld := ⟨0x100030 + n * 0x2000, 0, 32, 0x0⟩
def BEAMn_Z_CX_POS (n : Nat) : Fld := ⟨0x100034 + n * 0x2000, 0, 32, 0x0⟩
def BEAMn_Z_CY_POS (n : Nat) : Fld := ⟨0x100038 + n * 0x2000, 0, 32, 0x0⟩
def BEAMn_TRACK_DX_VAL (n : Nat) : Fld := ⟨0x100040 + n * 0x2000, 0, 32, 0x3F800000⟩
def BEAMn_TRACK_DY_VAL (n : Nat) : Fld := ⟨0x100044 + n * 0x2000, 0, 32, 0x0⟩
def BEAMn_CONF_SEG_SEG (n : Nat) : Fld := ⟨0x100048 + n * 0x2000, 0, 24, 0x0⟩
def BEAMn_CONF_TICK_TICK (n : Nat) : Fld := ⟨0x10004C + n * 0x2000, 0, 32, 0x0⟩
def BEAMn_CORR_ID_CORR_ID (n : Nat) : Fld := ⟨0x100050 + n * 0x2000, 0, 32, 0x0⟩
def BEAMn_OOF_COUNT (n : Nat) : Fld := ⟨0x100054 + n * 0x2000, 0, 32, 0x0⟩

/-! Beam ports and pairs (R171, R172) -/

def BEAMn_PSTAT_LINK (n : Nat) : Fld := ⟨0x100100 + n * 0x2000, 0, 3, 0x0⟩
def BEAMn_PSTAT_READY (n : Nat) : Fld := ⟨0x100100 + n * 0x2000, 3, 1, 0x0⟩
def BEAMn_PSTAT_HFAULT (n : Nat) : Fld := ⟨0x100100 + n * 0x2000, 4, 1, 0x0⟩
def BEAMn_PSTAT_LSR_OK (n : Nat) : Fld := ⟨0x100100 + n * 0x2000, 5, 1, 0x0⟩
def BEAMn_PSTAT_LFAULT (n : Nat) : Fld := ⟨0x100100 + n * 0x2000, 6, 1, 0x0⟩
def BEAMn_PSTAT_EMIT (n : Nat) : Fld := ⟨0x100100 + n * 0x2000, 7, 1, 0x0⟩
def BEAMn_PSTAT_TFAIL (n : Nat) : Fld := ⟨0x100100 + n * 0x2000, 8, 1, 0x0⟩
def BEAMn_PSTAT_ATTACHED (n : Nat) : Fld := ⟨0x100100 + n * 0x2000, 9, 1, 0x0⟩
def BEAMn_PCTRL_LSR_FILT (n : Nat) : Fld := ⟨0x100104 + n * 0x2000, 0, 8, 0x2⟩
def BEAMn_SL_EYE_PHASE_A (n : Nat) : Fld := ⟨0x10010C + n * 0x2000, 0, 4, 0x0⟩
def BEAMn_SL_EYE_WIDTH_A (n : Nat) : Fld := ⟨0x10010C + n * 0x2000, 4, 4, 0x0⟩
def BEAMn_SL_EYE_PHASE_B (n : Nat) : Fld := ⟨0x10010C + n * 0x2000, 8, 4, 0x0⟩
def BEAMn_SL_EYE_WIDTH_B (n : Nat) : Fld := ⟨0x10010C + n * 0x2000, 12, 4, 0x0⟩
def BEAMn_SL_EYE_OFFSET (n : Nat) : Fld := ⟨0x10010C + n * 0x2000, 16, 8, 0x0⟩
def BEAMn_HEAD_STATUS (n : Nat) : Fld := ⟨0x100110 + n * 0x2000, 0, 16, 0x0⟩
def BEAMn_HEAD_TEMP (n : Nat) : Fld := ⟨0x100110 + n * 0x2000, 16, 16, 0x0⟩
def BEAMn_PAIR_PAIR (n : Nat) : Fld := ⟨0x100108 + n * 0x2000, 0, 6, 0x3F⟩
def BEAMn_SL_BAD_COUNT (n : Nat) : Fld := ⟨0x100114 + n * 0x2000, 0, 32, 0x0⟩
def BEAMn_SL_MISS_COUNT (n : Nat) : Fld := ⟨0x100118 + n * 0x2000, 0, 32, 0x0⟩
def BEAMn_SL_INT_COUNT (n : Nat) : Fld := ⟨0x10011C + n * 0x2000, 0, 32, 0x0⟩
def BEAMn_SKEW_SKEW (n : Nat) : Fld := ⟨0x100120 + n * 0x2000, 0, 5, 0x0⟩
def ENG_PAIRk_STATE (k : Nat) : Fld := ⟨0x140000 + k * 0x4, 0, 3, 0x0⟩
def ENG_PAIRk_PORT (k : Nat) : Fld := ⟨0x140000 + k * 0x4, 8, 5, 0x0⟩
def ENG_PAIRk_CAUSE (k : Nat) : Fld := ⟨0x140000 + k * 0x4, 16, 4, 0x0⟩
def ENG_SPARES_COUNT : Fld := ⟨0x140090, 0, 3, 0x0⟩
def ENG_ATTACHES_COUNT : Fld := ⟨0x140094, 0, 32, 0x0⟩

/-! Loops (R209) -/

def LOOPn_CTRL_VDELAY (n : Nat) : Fld := ⟨0x181000 + n * 0x80, 0, 8, 0x0⟩
def LOOPn_CTRL_MP_OFF (n : Nat) : Fld := ⟨0x181000 + n * 0x80, 8, 1, 0x0⟩
def LOOPn_STAT_MP_LOST (n : Nat) : Fld := ⟨0x181004 + n * 0x80, 0, 1, 0x0⟩
def LOOPn_STAT_SRC_LOST (n : Nat) : Fld := ⟨0x181004 + n * 0x80, 1, 1, 0x0⟩
def LOOPn_STAT_MP_RAMP (n : Nat) : Fld := ⟨0x181004 + n * 0x80, 2, 1, 0x0⟩
def LOOPn_STAT_SRC_RAMP (n : Nat) : Fld := ⟨0x181004 + n * 0x80, 3, 1, 0x0⟩
def LOOPn_STAT_MP_CAUSE (n : Nat) : Fld := ⟨0x181004 + n * 0x80, 4, 3, 0x0⟩
def LOOPn_STAT_SRC_CAUSE (n : Nat) : Fld := ⟨0x181004 + n * 0x80, 7, 3, 0x0⟩
def LOOPn_STAT_LOSS (n : Nat) : Fld := ⟨0x181004 + n * 0x80, 10, 1, 0x0⟩
def LOOPn_STAT_TRIP (n : Nat) : Fld := ⟨0x181004 + n * 0x80, 11, 1, 0x0⟩
def LOOPn_STAT_YY_RUN (n : Nat) : Fld := ⟨0x181004 + n * 0x80, 12, 1, 0x0⟩
def LOOPn_STAT_CAP_DONE (n : Nat) : Fld := ⟨0x181004 + n * 0x80, 13, 1, 0x0⟩
def LOOPn_STAT_CAP_BUSY (n : Nat) : Fld := ⟨0x181004 + n * 0x80, 14, 1, 0x0⟩
def LOOPn_WIN_PWR (n : Nat) : Fld := ⟨0x181008 + n * 0x80, 0, 16, 0x0⟩
def LOOPn_WIN_DESC (n : Nat) : Fld := ⟨0x181008 + n * 0x80, 16, 3, 0x0⟩
def LOOPn_WIN_CLASS (n : Nat) : Fld := ⟨0x181008 + n * 0x80, 19, 3, 0x7⟩
def LOOPn_YY_CTRL_MODE (n : Nat) : Fld := ⟨0x18102C + n * 0x80, 0, 3, 0x0⟩
def LOOPn_YY_CTRL_POINT (n : Nat) : Fld := ⟨0x18102C + n * 0x80, 3, 2, 0x0⟩
def LOOPn_YY_CTRL_ARM (n : Nat) : Fld := ⟨0x18102C + n * 0x80, 5, 1, 0x0⟩
def LOOPn_YY_CTRL_CAPSYNC (n : Nat) : Fld := ⟨0x18102C + n * 0x80, 6, 1, 0x0⟩
def LOOPn_CAP_CTRL_START (n : Nat) : Fld := ⟨0x181040 + n * 0x80, 0, 1, 0x0⟩
def LOOPn_WCNT_SCHED_COUNT (n : Nat) : Fld := ⟨0x18100C + n * 0x80, 0, 32, 0x0⟩
def LOOPn_WCNT_MP_COUNT (n : Nat) : Fld := ⟨0x181010 + n * 0x80, 0, 32, 0x0⟩
def LOOPn_WCNT_CAP_COUNT (n : Nat) : Fld := ⟨0x181014 + n * 0x80, 0, 32, 0x0⟩
def LOOPn_WCNT_SRC_COUNT (n : Nat) : Fld := ⟨0x181018 + n * 0x80, 0, 32, 0x0⟩
def LOOPn_WCNT_OTHER_COUNT (n : Nat) : Fld := ⟨0x18101C + n * 0x80, 0, 32, 0x0⟩
def LOOPn_LOSSES_COUNT (n : Nat) : Fld := ⟨0x181020 + n * 0x80, 0, 32, 0x0⟩
def LOOPn_TABLE_ID_TABLE_ID (n : Nat) : Fld := ⟨0x181024 + n * 0x80, 0, 32, 0x0⟩
def LOOPn_MON_VAL (n : Nat) : Fld := ⟨0x181028 + n * 0x80, 0, 32, 0x0⟩
def LOOPn_YY_AMP_VAL (n : Nat) : Fld := ⟨0x181030 + n * 0x80, 0, 32, 0x0⟩
def LOOPn_YY_F0_VAL (n : Nat) : Fld := ⟨0x181034 + n * 0x80, 0, 32, 0x447A0000⟩
def LOOPn_YY_F1_VAL (n : Nat) : Fld := ⟨0x181038 + n * 0x80, 0, 32, 0x47C35000⟩
def LOOPn_YY_LEN_LEN (n : Nat) : Fld := ⟨0x18103C + n * 0x80, 0, 24, 0x0⟩
def LOOPn_CAP_BASE_BASE (n : Nat) : Fld := ⟨0x181044 + n * 0x80, 0, 24, 0x0⟩
def LOOPn_CAP_LEN_LEN (n : Nat) : Fld := ⟨0x181048 + n * 0x80, 0, 32, 0x0⟩
def LOOPn_CAP_WR_COUNT (n : Nat) : Fld := ⟨0x18104C + n * 0x80, 0, 32, 0x0⟩
def LOOP_FF_ID_TABLE_ID : Fld := ⟨0x180000, 0, 32, 0x0⟩
def LOOP_PEND_PORTS : Fld := ⟨0x180004, 0, 32, 0x0⟩
def LOOP_FF_PEND_PEND : Fld := ⟨0x180008, 0, 1, 0x0⟩
def LOOP_NANS_COUNT : Fld := ⟨0x18000C, 0, 32, 0x0⟩

/-! Sensing and cameras (R238, R239) -/

def SNS_CTRL_SPOT_EN : Fld := ⟨0x1C0000, 0, 1, 0x1⟩
def SNS_CTRL_OTRACE : Fld := ⟨0x1C0000, 1, 1, 0x1⟩
def SNS_CTRL_GTRACE : Fld := ⟨0x1C0000, 2, 1, 0x1⟩
def SNS_CTRL_REF_PORT : Fld := ⟨0x1C0000, 8, 5, 0x0⟩
def SNS_STAT_CAL_RUN : Fld := ⟨0x1C0004, 0, 1, 0x0⟩
def SNS_STAT_CAL_DONE : Fld := ⟨0x1C0004, 1, 1, 0x0⟩
def SNS_STAT_UNSURE : Fld := ⟨0x1C0004, 2, 1, 0x0⟩
def SNS_STAT_STORE_BAD : Fld := ⟨0x1C0004, 3, 1, 0x0⟩
def SNS_STAT_TRACE_REF : Fld := ⟨0x1C0004, 4, 1, 0x0⟩
def SNS_STAT_SPOT_REF : Fld := ⟨0x1C0004, 5, 1, 0x0⟩
def SNS_SPOT_STEP_STEP : Fld := ⟨0x1C0008, 0, 16, 0x190⟩
def SNS_SPOT_W_VAL : Fld := ⟨0x1C000C, 0, 32, 0x42700000⟩
def SNS_SPOT_MINCORR_VAL : Fld := ⟨0x1C0010, 0, 32, 0x3F4CCCCD⟩
def SNS_SPOT_MAX_MAX : Fld := ⟨0x1C0014, 0, 24, 0x7D0⟩
def SNS_DARK_WAIT_WAIT : Fld := ⟨0x1C0018, 0, 16, 0x32⟩
def SNS_CAL_TIME_MS : Fld := ⟨0x1C001C, 0, 32, 0x0⟩
def SNS_UNSURE_PD0_CH : Fld := ⟨0x1C0020, 0, 32, 0x0⟩
def SNS_UNSURE_PD1_CH : Fld := ⟨0x1C0024, 0, 32, 0x0⟩
def SNS_UNSURE_DAC_PORT : Fld := ⟨0x1C0028, 0, 32, 0x0⟩
def SNS_UNSURE_SKEW_PORT : Fld := ⟨0x1C002C, 0, 32, 0x0⟩
def SNS_UNSURE_STR_PORT : Fld := ⟨0x1C0030, 0, 32, 0x0⟩
def SNS_UNSURE_T0_IN : Fld := ⟨0x1C0034, 0, 32, 0x0⟩
def SNS_UNSURE_T1_IN : Fld := ⟨0x1C0038, 0, 32, 0x0⟩
def SNS_UNSURE_T2_IN : Fld := ⟨0x1C003C, 0, 16, 0x0⟩
def SNS_CHc_CFG_RANGE (c : Nat) : Fld := ⟨0x1C0100 + c * 0x20, 0, 2, 0x0⟩
def SNS_CHc_K_VAL (c : Nat) : Fld := ⟨0x1C0104 + c * 0x20, 0, 32, 0x3F800000⟩
def SNS_CHc_REF_VAL (c : Nat) : Fld := ⟨0x1C0108 + c * 0x20, 0, 32, 0x3F000000⟩
def SNS_CHc_OFS_OFS (c : Nat) : Fld := ⟨0x1C010C + c * 0x20, 0, 20, 0x8000⟩
def SNS_CHc_GCAL_VAL (c : Nat) : Fld := ⟨0x1C0110 + c * 0x20, 0, 32, 0x3F800000⟩
def SNS_CHc_TRIM_VAL (c : Nat) : Fld := ⟨0x1C0114 + c * 0x20, 0, 32, 0x3F800000⟩
def SNS_CHc_STAT_SAT (c : Nat) : Fld := ⟨0x1C0118 + c * 0x20, 0, 1, 0x0⟩
def SNS_CHc_STAT_MISS (c : Nat) : Fld := ⟨0x1C0118 + c * 0x20, 1, 1, 0x0⟩
def SNS_CHc_STAT_OFS_SLEW (c : Nat) : Fld := ⟨0x1C0118 + c * 0x20, 2, 1, 0x0⟩
def SNS_CHc_STAT_GAIN_SLEW (c : Nat) : Fld := ⟨0x1C0118 + c * 0x20, 3, 1, 0x0⟩
def SNS_CHc_STAT_UNSURE (c : Nat) : Fld := ⟨0x1C0118 + c * 0x20, 4, 1, 0x0⟩
def SNS_CHc_RAW_CODE (c : Nat) : Fld := ⟨0x1C011C + c * 0x20, 0, 16, 0x0⟩
def SNS_Pn_SPOT_STATE (n : Nat) : Fld := ⟨0x1C100C + n * 0x40, 0, 2, 0x0⟩
def SNS_Pn_SPOT_REFERENCE (n : Nat) : Fld := ⟨0x1C100C + n * 0x40, 2, 1, 0x0⟩
def SNS_Pn_SPOT_PARENT (n : Nat) : Fld := ⟨0x1C100C + n * 0x40, 8, 5, 0x0⟩
def SNS_Pn_SPOT_NOPARENT (n : Nat) : Fld := ⟨0x1C100C + n * 0x40, 13, 1, 0x0⟩
def SNS_Pn_C2A_VAL (n : Nat) : Fld := ⟨0x1C1000 + n * 0x40, 0, 32, 0x3F800000⟩
def SNS_Pn_C2B_VAL (n : Nat) : Fld := ⟨0x1C1004 + n * 0x40, 0, 32, 0x0⟩
def SNS_Pn_C2FLOOR_VAL (n : Nat) : Fld := ⟨0x1C1008 + n * 0x40, 0, 32, 0x3C23D70A⟩
def SNS_Pn_EST_X_VAL (n : Nat) : Fld := ⟨0x1C1010 + n * 0x40, 0, 32, 0x0⟩
def SNS_Pn_EST_Y_VAL (n : Nat) : Fld := ⟨0x1C1014 + n * 0x40, 0, 32, 0x0⟩
def SNS_Pn_TGT_X_VAL (n : Nat) : Fld := ⟨0x1C1018 + n * 0x40, 0, 32, 0x0⟩
def SNS_Pn_TGT_Y_VAL (n : Nat) : Fld := ⟨0x1C101C + n * 0x40, 0, 32, 0x0⟩
def SNS_Pn_OBS_COUNT (n : Nat) : Fld := ⟨0x1C1020 + n * 0x40, 0, 32, 0x0⟩
def SNS_Pn_ACC_COUNT (n : Nat) : Fld := ⟨0x1C1024 + n * 0x40, 0, 32, 0x0⟩
def SNS_Pn_REJ_COUNT (n : Nat) : Fld := ⟨0x1C1028 + n * 0x40, 0, 32, 0x0⟩
def CAMm_CTRL_EN (m : Nat) : Fld := ⟨0x200000 + m * 0x100, 0, 1, 0x0⟩
def CAMm_CTRL_LANES (m : Nat) : Fld := ⟨0x200000 + m * 0x100, 1, 2, 0x2⟩
def CAMm_CTRL_DT (m : Nat) : Fld := ⟨0x200000 + m * 0x100, 3, 2, 0x2⟩
def CAMm_CTRL_CAPEN (m : Nat) : Fld := ⟨0x200000 + m * 0x100, 5, 1, 0x0⟩
def CAMm_STAT_LINK (m : Nat) : Fld := ⟨0x200004 + m * 0x100, 0, 1, 0x0⟩
def CAMm_STAT_DAMAGED (m : Nat) : Fld := ⟨0x200004 + m * 0x100, 1, 1, 0x0⟩
def CAMm_STAT_TIMEOUT (m : Nat) : Fld := ⟨0x200004 + m * 0x100, 2, 1, 0x0⟩
def CAMm_STAT_CAPDROP (m : Nat) : Fld := ⟨0x200004 + m * 0x100, 3, 1, 0x0⟩
def CAMm_STAT_FEATLOST (m : Nat) : Fld := ⟨0x200004 + m * 0x100, 4, 1, 0x0⟩
def CAMm_TRIG_MODE (m : Nat) : Fld := ⟨0x200014 + m * 0x100, 0, 2, 0x0⟩
def CAMm_TRIG_FIRE (m : Nat) : Fld := ⟨0x200014 + m * 0x100, 2, 1, 0x0⟩
def CAMm_TRIG_WIDTH (m : Nat) : Fld := ⟨0x200014 + m * 0x100, 8, 8, 0xA⟩
def CAMm_ROI_XY_X0 (m : Nat) : Fld := ⟨0x200008 + m * 0x100, 0, 12, 0x0⟩
def CAMm_ROI_XY_Y0 (m : Nat) : Fld := ⟨0x200008 + m * 0x100, 16, 12, 0x0⟩
def CAMm_ROI_WH_W (m : Nat) : Fld := ⟨0x20000C + m * 0x100, 0, 13, 0x1000⟩
def CAMm_ROI_WH_H (m : Nat) : Fld := ⟨0x20000C + m * 0x100, 16, 13, 0x1000⟩
def CAMm_THRESH_THR (m : Nat) : Fld := ⟨0x200010 + m * 0x100, 0, 12, 0x800⟩
def CAMm_TRIG_PER_PERIOD (m : Nat) : Fld := ⟨0x200018 + m * 0x100, 0, 32, 0x2710⟩
def CAMm_FEAT_BASE_BASE (m : Nat) : Fld := ⟨0x20001C + m * 0x100, 0, 24, 0x0⟩
def CAMm_FEAT_SIZE_SIZE (m : Nat) : Fld := ⟨0x200020 + m * 0x100, 0, 16, 0x0⟩
def CAMm_FEAT_WR_INDEX (m : Nat) : Fld := ⟨0x200024 + m * 0x100, 0, 32, 0x0⟩
def CAMm_FEAT_RD_INDEX (m : Nat) : Fld := ⟨0x200028 + m * 0x100, 0, 32, 0x0⟩
def CAMm_CAP_BASE_BASE (m : Nat) : Fld := ⟨0x20002C + m * 0x100, 0, 24, 0x0⟩
def CAMm_CAP_SIZE_SIZE (m : Nat) : Fld := ⟨0x200030 + m * 0x100, 0, 24, 0x0⟩
def CAMm_CAP_WR_OFS (m : Nat) : Fld := ⟨0x200034 + m * 0x100, 0, 32, 0x0⟩
def CAMm_CAP_RD_OFS (m : Nat) : Fld := ⟨0x200038 + m * 0x100, 0, 32, 0x0⟩
def CAMm_FRAMES_COUNT (m : Nat) : Fld := ⟨0x20003C + m * 0x100, 0, 32, 0x0⟩
def CAMm_HDR_ERR_CORR (m : Nat) : Fld := ⟨0x200040 + m * 0x100, 0, 16, 0x0⟩
def CAMm_HDR_ERR_UNCORR (m : Nat) : Fld := ⟨0x200040 + m * 0x100, 16, 16, 0x0⟩
def CAMm_CRC_ERR_COUNT (m : Nat) : Fld := ⟨0x200044 + m * 0x100, 0, 32, 0x0⟩
def CAMm_DROPS_COUNT (m : Nat) : Fld := ⟨0x200048 + m * 0x100, 0, 32, 0x0⟩
def CAMm_FRAME_W (m : Nat) : Fld := ⟨0x20004C + m * 0x100, 0, 13, 0x1000⟩
def CAMm_FRAME_H (m : Nat) : Fld := ⟨0x20004C + m * 0x100, 16, 13, 0x1000⟩

/-! Hand-off (R272) -/

def HND_CTRL_DEPTH : Fld := ⟨0x240000, 0, 3, 0x2⟩
def HND_CTRL_NOCUT : Fld := ⟨0x240000, 3, 1, 0x0⟩
def HND_STAT_OPEN : Fld := ⟨0x240004, 0, 7, 0x0⟩
def HND_STAT_FAULT_OVF : Fld := ⟨0x240004, 8, 1, 0x0⟩
def HND_STAT_FAULT_LOST : Fld := ⟨0x240004, 9, 1, 0x0⟩
def HND_STAT_UNCOV : Fld := ⟨0x240004, 10, 1, 0x0⟩
def HND_STAT_WAIT_EXC : Fld := ⟨0x240004, 11, 1, 0x0⟩
def HND_STAT_NOFIELD : Fld := ⟨0x240004, 12, 1, 0x0⟩
def HND_BAL_MARGIN : Fld := ⟨0x240008, 0, 16, 0x32⟩
def HND_FT_VALID0_VALID : Fld := ⟨0x240010, 0, 32, 0x0⟩
def HND_FT_VALID1_VALID : Fld := ⟨0x240014, 0, 32, 0x0⟩
def HND_TAKEOVERS_COUNT : Fld := ⟨0x240020, 0, 32, 0x0⟩
def HND_REMOTE_OUT_COUNT : Fld := ⟨0x240024, 0, 32, 0x0⟩
def HND_REMOTE_IN_COUNT : Fld := ⟨0x240028, 0, 32, 0x0⟩
def HND_UNCOVERED_COUNT : Fld := ⟨0x24002C, 0, 32, 0x0⟩
def HND_MERGES_COUNT : Fld := ⟨0x240030, 0, 32, 0x0⟩
def HND_INT_MAX_US : Fld := ⟨0x240034, 0, 32, 0x0⟩
def HND_UNCOV_PATHS_COUNT : Fld := ⟨0x240038, 0, 32, 0x0⟩
def HND_Pn_STAT_STATE (n : Nat) : Fld := ⟨0x240100 + n * 0x10, 0, 3, 0x5⟩
def HND_Pn_STAT_TAKING (n : Nat) : Fld := ⟨0x240100 + n * 0x10, 3, 1, 0x0⟩
def HND_Pn_STAT_SHED (n : Nat) : Fld := ⟨0x240100 + n * 0x10, 4, 2, 0x0⟩
def HND_Pn_STAT_ENTRY (n : Nat) : Fld := ⟨0x240100 + n * 0x10, 8, 6, 0x0⟩
def HND_Pn_STAT_ENTRY_V (n : Nat) : Fld := ⟨0x240100 + n * 0x10, 14, 1, 0x0⟩
def HND_Pn_CTRL_HOLDOUT (n : Nat) : Fld := ⟨0x240104 + n * 0x10, 0, 1, 0x0⟩
def HND_Pn_DEALT_COUNT (n : Nat) : Fld := ⟨0x240108 + n * 0x10, 0, 32, 0x0⟩
def HND_Pn_TAKEN_COUNT (n : Nat) : Fld := ⟨0x24010C + n * 0x10, 0, 32, 0x0⟩
def HND_FTk_INFO_CLASS (k : Nat) : Fld := ⟨0x241000 + k * 0x20, 0, 4, 0x0⟩
def HND_FTk_INFO_SEV (k : Nat) : Fld := ⟨0x241000 + k * 0x20, 4, 3, 0x0⟩
def HND_FTk_INFO_RESOLVED (k : Nat) : Fld := ⟨0x241000 + k * 0x20, 7, 1, 0x0⟩
def HND_FTk_INFO_PORT (k : Nat) : Fld := ⟨0x241000 + k * 0x20, 8, 5, 0x0⟩
def HND_FTk_INFO_DEVICE (k : Nat) : Fld := ⟨0x241000 + k * 0x20, 13, 1, 0x0⟩
def HND_FTk_INFO_COVERED (k : Nat) : Fld := ⟨0x241000 + k * 0x20, 16, 1, 0x0⟩
def HND_FTk_INFO_UNCOVERED (k : Nat) : Fld := ⟨0x241000 + k * 0x20, 17, 1, 0x0⟩
def HND_FTk_INFO_RETIRED (k : Nat) : Fld := ⟨0x241000 + k * 0x20, 18, 1, 0x0⟩
def HND_FTk_INFO_REMOTE (k : Nat) : Fld := ⟨0x241000 + k * 0x20, 19, 1, 0x0⟩
def HND_FTk_INFO_COUNT (k : Nat) : Fld := ⟨0x241000 + k * 0x20, 24, 8, 0x0⟩
def HND_FTk_CAUSE_CAUSE (k : Nat) : Fld := ⟨0x241004 + k * 0x20, 0, 16, 0x0⟩
def HND_FTk_TAKE_NODE (k : Nat) : Fld := ⟨0x24101C + k * 0x20, 0, 8, 0x0⟩
def HND_FTk_TAKE_CPORT (k : Nat) : Fld := ⟨0x24101C + k * 0x20, 8, 5, 0x0⟩
def HND_FTk_TAKE_CVALID (k : Nat) : Fld := ⟨0x24101C + k * 0x20, 13, 1, 0x0⟩
def HND_FTk_TAKE_INTERVAL (k : Nat) : Fld := ⟨0x24101C + k * 0x20, 16, 16, 0x0⟩
def HND_FTk_PORTS_PORTS (k : Nat) : Fld := ⟨0x241008 + k * 0x20, 0, 32, 0x0⟩
def HND_FTk_ONSET_TICK (k : Nat) : Fld := ⟨0x24100C + k * 0x20, 0, 32, 0x0⟩
def HND_FTk_TIME_LO_NS (k : Nat) : Fld := ⟨0x241010 + k * 0x20, 0, 32, 0x0⟩
def HND_FTk_TIME_HI_NS (k : Nat) : Fld := ⟨0x241014 + k * 0x20, 0, 32, 0x0⟩
def HND_FTk_RESUME_SEG (k : Nat) : Fld := ⟨0x241018 + k * 0x20, 0, 24, 0x0⟩

/-! Encoders, compare units, axes (R293 to R295) -/

def QEe_CTRL_FILT (e : Nat) : Fld := ⟨0x2E0000 + e * 0x40, 0, 2, 0x1⟩
def QEe_CTRL_ZHOME (e : Nat) : Fld := ⟨0x2E0000 + e * 0x40, 2, 1, 0x0⟩
def QEe_CTRL_PRESET (e : Nat) : Fld := ⟨0x2E0000 + e * 0x40, 3, 1, 0x0⟩
def QEe_CTRL_REARM (e : Nat) : Fld := ⟨0x2E0000 + e * 0x40, 4, 1, 0x0⟩
def QEe_STAT_DIR (e : Nat) : Fld := ⟨0x2E0004 + e * 0x40, 0, 1, 0x0⟩
def QEe_STAT_MOVING (e : Nat) : Fld := ⟨0x2E0004 + e * 0x40, 1, 1, 0x0⟩
def QEe_STAT_PVALID (e : Nat) : Fld := ⟨0x2E0004 + e * 0x40, 2, 1, 0x0⟩
def QEe_STAT_ZSEEN (e : Nat) : Fld := ⟨0x2E0004 + e * 0x40, 3, 1, 0x0⟩
def QEe_ERR_ILLEGAL (e : Nat) : Fld := ⟨0x2E0008 + e * 0x40, 0, 1, 0x0⟩
def QEe_ERR_LINE (e : Nat) : Fld := ⟨0x2E0008 + e * 0x40, 1, 1, 0x0⟩
def QEe_ERR_LOST (e : Nat) : Fld := ⟨0x2E0008 + e * 0x40, 2, 1, 0x0⟩
def QEe_ERR_LINE_NOW (e : Nat) : Fld := ⟨0x2E0008 + e * 0x40, 3, 1, 0x0⟩
def QEe_COUNT_COUNT (e : Nat) : Fld := ⟨0x2E000C + e * 0x40, 0, 32, 0x0⟩
def QEe_PRESET_VAL (e : Nat) : Fld := ⟨0x2E0010 + e * 0x40, 0, 32, 0x0⟩
def QEe_ZLATCH_COUNT (e : Nat) : Fld := ⟨0x2E0014 + e * 0x40, 0, 32, 0x0⟩
def QEe_PERIOD_SAMPLES (e : Nat) : Fld := ⟨0x2E0018 + e * 0x40, 0, 24, 0x0⟩
def QEe_VEL_VAL (e : Nat) : Fld := ⟨0x2E001C + e * 0x40, 0, 32, 0x0⟩
def QEe_ILLEGAL_COUNT (e : Nat) : Fld := ⟨0x2E0020 + e * 0x40, 0, 32, 0x0⟩
def QEe_LOSSES_COUNT (e : Nat) : Fld := ⟨0x2E0024 + e * 0x40, 0, 32, 0x0⟩
def QE_CMPk_CTRL_SRC (k : Nat) : Fld := ⟨0x2E0400 + k * 0x40, 0, 3, 0x0⟩
def QE_CMPk_CTRL_DIR (k : Nat) : Fld := ⟨0x2E0400 + k * 0x40, 3, 2, 0x0⟩
def QE_CMPk_CTRL_CATCHUP (k : Nat) : Fld := ⟨0x2E0400 + k * 0x40, 5, 1, 0x0⟩
def QE_CMPk_CTRL_ARM (k : Nat) : Fld := ⟨0x2E0400 + k * 0x40, 6, 1, 0x0⟩
def QE_CMPk_CTRL_PW (k : Nat) : Fld := ⟨0x2E0400 + k * 0x40, 8, 8, 0xA⟩
def QE_CMPk_STAT_ARMED (k : Nat) : Fld := ⟨0x2E0404 + k * 0x40, 0, 1, 0x0⟩
def QE_CMPk_STAT_CMP_BEHIND (k : Nat) : Fld := ⟨0x2E0404 + k * 0x40, 1, 1, 0x0⟩
def QE_CMPk_STAT_SRC_LOST (k : Nat) : Fld := ⟨0x2E0404 + k * 0x40, 2, 1, 0x0⟩
def QE_CMPk_STAT_DONE (k : Nat) : Fld := ⟨0x2E0404 + k * 0x40, 3, 1, 0x0⟩
def QE_CMPk_VAL_VAL (k : Nat) : Fld := ⟨0x2E0408 + k * 0x40, 0, 32, 0x0⟩
def QE_CMPk_SPACE_SPACE (k : Nat) : Fld := ⟨0x2E040C + k * 0x40, 0, 31, 0x0⟩
def QE_CMPk_CNT_CNT (k : Nat) : Fld := ⟨0x2E0410 + k * 0x40, 0, 32, 0x0⟩
def QE_CMPk_HITS_COUNT (k : Nat) : Fld := ⟨0x2E0414 + k * 0x40, 0, 32, 0x0⟩
def QE_CMPk_SKIP_COUNT (k : Nat) : Fld := ⟨0x2E0418 + k * 0x40, 0, 32, 0x0⟩
def QE_CMPk_HIT_TICK_TICK (k : Nat) : Fld := ⟨0x2E041C + k * 0x40, 0, 32, 0x0⟩
def AXSa_CTRL_EN (a : Nat) : Fld := ⟨0x2E0800 + a * 0x80, 0, 1, 0x0⟩
def AXSa_CTRL_GO (a : Nat) : Fld := ⟨0x2E0800 + a * 0x80, 1, 1, 0x0⟩
def AXSa_CTRL_STOP (a : Nat) : Fld := ⟨0x2E0800 + a * 0x80, 2, 1, 0x0⟩
def AXSa_CTRL_BNDGO (a : Nat) : Fld := ⟨0x2E0800 + a * 0x80, 3, 1, 0x0⟩
def AXSa_STAT_STATE (a : Nat) : Fld := ⟨0x2E0804 + a * 0x80, 0, 2, 0x0⟩
def AXSa_STAT_SAT (a : Nat) : Fld := ⟨0x2E0804 + a * 0x80, 2, 1, 0x0⟩
def AXSa_STAT_BNDARM (a : Nat) : Fld := ⟨0x2E0804 + a * 0x80, 3, 1, 0x0⟩
def AXSa_STAT_FE_EXC (a : Nat) : Fld := ⟨0x2E0804 + a * 0x80, 4, 1, 0x0⟩
def AXSa_STAT_ENC_LOST (a : Nat) : Fld := ⟨0x2E0804 + a * 0x80, 5, 1, 0x0⟩
def AXSa_STAT_NUMERIC (a : Nat) : Fld := ⟨0x2E0804 + a * 0x80, 6, 1, 0x0⟩
def AXSa_TGT_POS (a : Nat) : Fld := ⟨0x2E0808 + a * 0x80, 0, 32, 0x0⟩
def AXSa_VMAX_VAL (a : Nat) : Fld := ⟨0x2E080C + a * 0x80, 0, 32, 0x447A0000⟩
def AXSa_AMAX_VAL (a : Nat) : Fld := ⟨0x2E0810 + a * 0x80, 0, 32, 0x461C4000⟩
def AXSa_KP_VAL (a : Nat) : Fld := ⟨0x2E0814 + a * 0x80, 0, 32, 0x0⟩
def AXSa_KI_VAL (a : Nat) : Fld := ⟨0x2E0818 + a * 0x80, 0, 32, 0x0⟩
def AXSa_KD_VAL (a : Nat) : Fld := ⟨0x2E081C + a * 0x80, 0, 32, 0x0⟩
def AXSa_KVFF_VAL (a : Nat) : Fld := ⟨0x2E0820 + a * 0x80, 0, 32, 0x0⟩
def AXSa_KAFF_VAL (a : Nat) : Fld := ⟨0x2E0824 + a * 0x80, 0, 32, 0x0⟩
def AXSa_ILIM_VAL (a : Nat) : Fld := ⟨0x2E0828 + a * 0x80, 0, 32, 0x0⟩
def AXSa_FE_LIM_LIM (a : Nat) : Fld := ⟨0x2E082C + a * 0x80, 0, 24, 0x0⟩
def AXSa_RATE_TICKS (a : Nat) : Fld := ⟨0x2E0830 + a * 0x80, 0, 10, 0x19⟩
def AXSa_PITCH_PITCH (a : Nat) : Fld := ⟨0x2E0834 + a * 0x80, 0, 24, 0x0⟩
def AXSa_COG_ORG_POS (a : Nat) : Fld := ⟨0x2E0838 + a * 0x80, 0, 32, 0x0⟩
def AXSa_VSTEP_VAL (a : Nat) : Fld := ⟨0x2E083C + a * 0x80, 0, 32, 0x447A0000⟩
def AXSa_REF_POS (a : Nat) : Fld := ⟨0x2E0840 + a * 0x80, 0, 32, 0x0⟩
def AXSa_OUT_CODE (a : Nat) : Fld := ⟨0x2E0844 + a * 0x80, 0, 16, 0x0⟩
def AXSa_FE_ERR (a : Nat) : Fld := ⟨0x2E0848 + a * 0x80, 0, 32, 0x0⟩
def AXSa_TABLE_ID_TABLE_ID (a : Nat) : Fld := ⟨0x2E084C + a * 0x80, 0, 32, 0x0⟩

/-! Gorwin Link and PTP (R316, R317) -/

def GLK_CTRL_PORT_EN : Fld := ⟨0x280000, 0, 4, 0xF⟩
def GLK_CTRL_ROOT_EN : Fld := ⟨0x280000, 4, 1, 0x1⟩
def GLK_CTRL_DIGEST_SEV : Fld := ⟨0x280000, 5, 3, 0x3⟩
def GLK_STAT_ROLE : Fld := ⟨0x280004, 0, 2, 0x0⟩
def GLK_STAT_ROOT : Fld := ⟨0x280004, 2, 6, 0x0⟩
def GLK_STAT_HOPS : Fld := ⟨0x280004, 8, 6, 0x0⟩
def GLK_STAT_SPLIT : Fld := ⟨0x280004, 14, 1, 0x0⟩
def GLK_STAT_TICK_MISMATCH : Fld := ⟨0x280004, 15, 1, 0x0⟩
def GLK_STAT_NODE_CONFLICT : Fld := ⟨0x280004, 16, 1, 0x0⟩
def GLK_STAT_ROUTE_CHG : Fld := ⟨0x280004, 17, 1, 0x0⟩
def GLKp_STAT_STATE (p : Nat) : Fld := ⟨0x280100 + p * 0x40, 0, 3, 0x0⟩
def GLKp_STAT_UPSTREAM (p : Nat) : Fld := ⟨0x280100 + p * 0x40, 3, 1, 0x0⟩
def GLKp_STAT_NBR_NODE (p : Nat) : Fld := ⟨0x280100 + p * 0x40, 4, 6, 0x0⟩
def GLKp_STAT_NBR_PORT (p : Nat) : Fld := ⟨0x280100 + p * 0x40, 10, 2, 0x0⟩
def GLKp_STAT_NBR_VALID (p : Nat) : Fld := ⟨0x280100 + p * 0x40, 12, 1, 0x0⟩
def GLKp_STAT_LOST (p : Nat) : Fld := ⟨0x280100 + p * 0x40, 13, 1, 0x0⟩
def GLK_NODE_NODE : Fld := ⟨0x280008, 0, 6, 0x0⟩
def GLK_REACH0_NODES : Fld := ⟨0x280010, 0, 32, 0x0⟩
def GLK_REACH1_NODES : Fld := ⟨0x280014, 0, 32, 0x0⟩
def GLK_DOMAIN0_NODES : Fld := ⟨0x280018, 0, 32, 0x0⟩
def GLK_DOMAIN1_NODES : Fld := ⟨0x28001C, 0, 32, 0x0⟩
def GLK_PHASE_ERR : Fld := ⟨0x280020, 0, 32, 0x0⟩
def GLK_DIGEST_TX_COUNT : Fld := ⟨0x280024, 0, 32, 0x0⟩
def GLK_DIGEST_RX_COUNT : Fld := ⟨0x280028, 0, 32, 0x0⟩
def GLK_DIGEST_LOST_COUNT : Fld := ⟨0x28002C, 0, 32, 0x0⟩
def GLK_REROUTES_COUNT : Fld := ⟨0x280030, 0, 32, 0x0⟩
def GLKp_DELAY_DELAY (p : Nat) : Fld := ⟨0x280104 + p * 0x40, 0, 24, 0x0⟩
def GLKp_ASYM_ASYM (p : Nat) : Fld := ⟨0x280108 + p * 0x40, 0, 16, 0x0⟩
def GLKp_BLK_ERR_COUNT (p : Nat) : Fld := ⟨0x28010C + p * 0x40, 0, 32, 0x0⟩
def GLKp_CRC_ERR_COUNT (p : Nat) : Fld := ⟨0x280110 + p * 0x40, 0, 32, 0x0⟩
def GLKp_DROPS_COUNT (p : Nat) : Fld := ⟨0x280114 + p * 0x40, 0, 32, 0x0⟩
def GLKp_LOSSES_COUNT (p : Nat) : Fld := ⟨0x280118 + p * 0x40, 0, 32, 0x0⟩
def PTP_CTRL_EN : Fld := ⟨0x2A0000, 0, 1, 0x0⟩
def PTP_CTRL_COMPAT : Fld := ⟨0x2A0000, 1, 1, 0x0⟩
def PTP_CTRL_BC : Fld := ⟨0x2A0000, 2, 1, 0x0⟩
def PTP_CTRL_ONESTEP : Fld := ⟨0x2A0000, 3, 1, 0x0⟩
def PTP_CTRL_P2P : Fld := ⟨0x2A0000, 4, 1, 0x0⟩
def PTP_CTRL_TRANSPORT : Fld := ⟨0x2A0000, 5, 2, 0x0⟩
def PTP_CTRL_SLAVE_ONLY : Fld := ⟨0x2A0000, 7, 1, 0x0⟩
def PTP_CTRL_ACCEPT : Fld := ⟨0x2A0000, 8, 1, 0x0⟩
def PTP_STAT_STATE : Fld := ⟨0x2A0004, 0, 3, 0x0⟩
def PTP_STAT_TIME_VALID : Fld := ⟨0x2A0004, 3, 1, 0x0⟩
def PTP_STAT_JUMP_REFUSED : Fld := ⟨0x2A0004, 4, 1, 0x0⟩
def PTP_STAT_MASTER_LOST : Fld := ⟨0x2A0004, 5, 1, 0x0⟩
def PTP_STAT_STEPPED : Fld := ⟨0x2A0004, 6, 1, 0x0⟩
def PTP_STAT_PHASE_SLEW : Fld := ⟨0x2A0004, 7, 1, 0x0⟩
def PTP_INTV_SYNC_LOG : Fld := ⟨0x2A000C, 0, 4, 0xD⟩
def PTP_INTV_ANN_LOG : Fld := ⟨0x2A000C, 4, 4, 0x1⟩
def PTP_INTV_PDELAY_LOG : Fld := ⟨0x2A000C, 8, 4, 0x0⟩
def PTP_INTV_ANN_TIMEOUT : Fld := ⟨0x2A000C, 12, 4, 0x3⟩
def PTP_DOMAIN_DOMAIN : Fld := ⟨0x2A0008, 0, 8, 0x0⟩
def PTP_DOMAIN_PRIO1 : Fld := ⟨0x2A0008, 8, 8, 0x80⟩
def PTP_DOMAIN_PRIO2 : Fld := ⟨0x2A0008, 16, 8, 0x80⟩
def PTP_DOMAIN_CLASS : Fld := ⟨0x2A0008, 24, 8, 0xF8⟩
def PTP_STEP_THR_NS : Fld := ⟨0x2A0010, 0, 32, 0x3E8⟩
def PTP_OFS_LO_NS : Fld := ⟨0x2A0014, 0, 32, 0x0⟩
def PTP_OFS_HI_NS : Fld := ⟨0x2A0018, 0, 32, 0x0⟩
def PTP_FREQ_VAL : Fld := ⟨0x2A001C, 0, 32, 0x0⟩
def PTP_KP_VAL : Fld := ⟨0x2A0020, 0, 32, 0x3F333333⟩
def PTP_KI_VAL : Fld := ⟨0x2A0024, 0, 32, 0x3D4CCCCD⟩
def PTP_SLEW_MAX_PPB : Fld := ⟨0x2A0028, 0, 16, 0xC350⟩
def PTP_SNAP_SNAP : Fld := ⟨0x2A0030, 0, 1, 0x0⟩
def PTP_SNAP_SEC_LO_SEC : Fld := ⟨0x2A0034, 0, 32, 0x0⟩
def PTP_SNAP_SEC_HI_SEC : Fld := ⟨0x2A0038, 0, 16, 0x0⟩
def PTP_SNAP_NS_NS : Fld := ⟨0x2A003C, 0, 32, 0x0⟩
def PTP_SNAP_TICK_TICK : Fld := ⟨0x2A0040, 0, 32, 0x0⟩
def PTP_SNAP_INT_LO_NS : Fld := ⟨0x2A0044, 0, 32, 0x0⟩
def PTP_SNAP_INT_HI_NS : Fld := ⟨0x2A0048, 0, 32, 0x0⟩
def PTP_GM_LO_ID : Fld := ⟨0x2A0050, 0, 32, 0x0⟩
def PTP_GM_HI_ID : Fld := ⟨0x2A0054, 0, 32, 0x0⟩
def PTPp_CFG_SPEED (p : Nat) : Fld := ⟨0x2A0100 + p * 0x40, 0, 1, 0x0⟩
def PTPp_CFG_PEN (p : Nat) : Fld := ⟨0x2A0100 + p * 0x40, 1, 1, 0x1⟩
def PTPp_STAT_PSTATE (p : Nat) : Fld := ⟨0x2A0104 + p * 0x40, 0, 4, 0x0⟩
def PTPp_STAT_LINK (p : Nat) : Fld := ⟨0x2A0104 + p * 0x40, 4, 1, 0x0⟩
def PTPp_ING_LAT_LAT (p : Nat) : Fld := ⟨0x2A0108 + p * 0x40, 0, 20, 0x0⟩
def PTPp_EGR_LAT_LAT (p : Nat) : Fld := ⟨0x2A010C + p * 0x40, 0, 20, 0x0⟩
def PTPp_ASYM_ASYM (p : Nat) : Fld := ⟨0x2A0110 + p * 0x40, 0, 32, 0x0⟩
def PTPp_MPD_MPD (p : Nat) : Fld := ⟨0x2A0114 + p * 0x40, 0, 32, 0x0⟩
def PTPp_RX_OTHER_COUNT (p : Nat) : Fld := ⟨0x2A0118 + p * 0x40, 0, 32, 0x0⟩

/-! DRAM (R338) -/

def DDR_CTRL_SR_EN : Fld := ⟨0x2C0000, 0, 1, 0x1⟩
def DDR_CTRL_PD_EN : Fld := ⟨0x2C0000, 1, 1, 0x1⟩
def DDR_CTRL_FIXED : Fld := ⟨0x2C0000, 2, 1, 0x0⟩
def DDR_CTRL_RT_PERIOD : Fld := ⟨0x2C0000, 8, 8, 0x64⟩
def DDR_STAT_MIRROR : Fld := ⟨0x2C0004, 0, 1, 0x0⟩
def DDR_STAT_CE : Fld := ⟨0x2C0004, 1, 1, 0x0⟩
def DDR_STAT_UE : Fld := ⟨0x2C0004, 2, 1, 0x0⟩
def DDR_STAT_LOST : Fld := ⟨0x2C0004, 3, 1, 0x0⟩
def DDR_STAT_DRIFT : Fld := ⟨0x2C0004, 4, 1, 0x0⟩
def DDR_STAT_RT_LATE : Fld := ⟨0x2C0004, 5, 1, 0x0⟩
def DDR_STAT_SRAM_UE : Fld := ⟨0x2C0004, 6, 1, 0x0⟩
def DDR_MIRROR_SIZE : Fld := ⟨0x2C0008, 0, 6, 0x0⟩
def DDR_CHc_STAT_STATE (c : Nat) : Fld := ⟨0x2C0100 + c * 0x40, 0, 3, 0x0⟩
def DDR_CHc_STAT_SPEED (c : Nat) : Fld := ⟨0x2C0100 + c * 0x40, 3, 3, 0x0⟩
def DDR_CHc_STAT_RDIMM (c : Nat) : Fld := ⟨0x2C0100 + c * 0x40, 6, 1, 0x0⟩
def DDR_CHc_STAT_WIDTH (c : Nat) : Fld := ⟨0x2C0100 + c * 0x40, 7, 1, 0x0⟩
def DDR_CHc_STAT_RANKS (c : Nat) : Fld := ⟨0x2C0100 + c * 0x40, 8, 1, 0x0⟩
def DDR_CHc_STAT_CAP (c : Nat) : Fld := ⟨0x2C0100 + c * 0x40, 9, 6, 0x0⟩
def DDR_SR_IDLE_US : Fld := ⟨0x2C000C, 0, 16, 0x3E8⟩
def DDR_SCRUB_PASS_COUNT : Fld := ⟨0x2C0010, 0, 32, 0x0⟩
def DDR_SRAM_CE_COUNT : Fld := ⟨0x2C0014, 0, 32, 0x0⟩
def DDR_SRAM_UE_COUNT : Fld := ⟨0x2C0018, 0, 32, 0x0⟩
def DDR_SRAM_UE_ADDR_ADDR : Fld := ⟨0x2C001C, 0, 24, 0x0⟩
def DDR_CHc_CE_COUNT (c : Nat) : Fld := ⟨0x2C0104 + c * 0x40, 0, 32, 0x0⟩
def DDR_CHc_UE_COUNT (c : Nat) : Fld := ⟨0x2C0108 + c * 0x40, 0, 32, 0x0⟩
def DDR_CHc_UE_ADDR_LO_ADDR (c : Nat) : Fld := ⟨0x2C010C + c * 0x40, 0, 32, 0x0⟩
def DDR_CHc_UE_ADDR_HI_ADDR (c : Nat) : Fld := ⟨0x2C0110 + c * 0x40, 0, 32, 0x0⟩
def DDR_CHc_RT_STEPS_COUNT (c : Nat) : Fld := ⟨0x2C0114 + c * 0x40, 0, 32, 0x0⟩
def DDR_CHc_RT_DEFER_COUNT (c : Nat) : Fld := ⟨0x2C0118 + c * 0x40, 0, 32, 0x0⟩
def DDR_CHc_LOST_WR_COUNT (c : Nat) : Fld := ⟨0x2C011C + c * 0x40, 0, 32, 0x0⟩
def DDR_CHc_SR_ENTRIES_COUNT (c : Nat) : Fld := ⟨0x2C0120 + c * 0x40, 0, 32, 0x0⟩

/-! Thermal (R354) -/

def THM_STAT_WARN : Fld := ⟨0x300000, 0, 1, 0x0⟩
def THM_STAT_THROTTLE : Fld := ⟨0x300000, 1, 1, 0x0⟩
def THM_STAT_SHUTDOWN : Fld := ⟨0x300000, 2, 1, 0x0⟩
def THM_STAT_SFAIL : Fld := ⟨0x300000, 3, 1, 0x0⟩
def THM_STAT_BLIND : Fld := ⟨0x300000, 4, 1, 0x0⟩
def THM_STAT_DIE_HOT : Fld := ⟨0x300000, 5, 1, 0x0⟩
def THM_STAT_DIE_SD : Fld := ⟨0x300000, 6, 1, 0x0⟩
def THM_DIE_CTRL_T : Fld := ⟨0x300004, 0, 16, 0x0⟩
def THM_DIE_EDGE_T : Fld := ⟨0x300004, 16, 16, 0x0⟩
def THM_SHUTDOWNS_COUNT : Fld := ⟨0x300008, 0, 32, 0x0⟩
def THM_INt_VAL_TEMP (t : Nat) : Fld := ⟨0x300100 + t * 0x20, 0, 16, 0x0⟩
def THM_INt_VAL_LEVEL (t : Nat) : Fld := ⟨0x300100 + t * 0x20, 16, 2, 0x0⟩
def THM_INt_VAL_VALID (t : Nat) : Fld := ⟨0x300100 + t * 0x20, 18, 1, 0x0⟩
def THM_INt_VAL_FAILED (t : Nat) : Fld := ⟨0x300100 + t * 0x20, 19, 1, 0x0⟩
def THM_INt_VAL_FCAUSE (t : Nat) : Fld := ⟨0x300100 + t * 0x20, 20, 3, 0x0⟩
def THM_INt_WT_WARN (t : Nat) : Fld := ⟨0x300104 + t * 0x20, 0, 16, 0x3C0⟩
def THM_INt_WT_THROTTLE (t : Nat) : Fld := ⟨0x300104 + t * 0x20, 16, 16, 0x460⟩
def THM_INt_SD_SHUTDOWN (t : Nat) : Fld := ⟨0x300108 + t * 0x20, 0, 16, 0x500⟩
def THM_INt_HYS_WARN_HYS (t : Nat) : Fld := ⟨0x30010C + t * 0x20, 0, 8, 0x20⟩
def THM_INt_HYS_THR_HYS (t : Nat) : Fld := ⟨0x30010C + t * 0x20, 8, 8, 0x20⟩
def THM_INt_HYS_SD_HYS (t : Nat) : Fld := ⟨0x30010C + t * 0x20, 16, 8, 0x20⟩
def THM_INt_P1_VAL (t : Nat) : Fld := ⟨0x300110 + t * 0x20, 0, 32, 0x0⟩
def THM_INt_P2_VAL (t : Nat) : Fld := ⟨0x300114 + t * 0x20, 0, 32, 0x0⟩
def THM_INt_FAILS_COUNT (t : Nat) : Fld := ⟨0x300118 + t * 0x20, 0, 32, 0x0⟩
def THM_Pn_STAT_LEVEL (n : Nat) : Fld := ⟨0x300C00 + n * 0x10, 0, 2, 0x0⟩
def THM_Pn_STAT_SINGLE (n : Nat) : Fld := ⟨0x300C00 + n * 0x10, 2, 1, 0x0⟩
def THM_Pn_STAT_BLIND (n : Nat) : Fld := ⟨0x300C00 + n * 0x10, 3, 1, 0x0⟩
def THM_Pn_STAT_LATCH (n : Nat) : Fld := ⟨0x300C00 + n * 0x10, 4, 1, 0x0⟩
def THM_Pn_STAT_REENTRY (n : Nat) : Fld := ⟨0x300C00 + n * 0x10, 5, 1, 0x0⟩
def THM_Pn_STAT_BLIND_S (n : Nat) : Fld := ⟨0x300C00 + n * 0x10, 16, 6, 0x0⟩
def THM_Pn_CFG_STEP (n : Nat) : Fld := ⟨0x300C04 + n * 0x10, 0, 8, 0x5⟩

/-! Lighting (R364) -/

def LED_CTRL_EN : Fld := ⟨0x310000, 0, 1, 0x0⟩
def LED_CTRL_APPLY : Fld := ⟨0x310000, 1, 1, 0x0⟩
def LED_STAT_RUN : Fld := ⟨0x310004, 0, 1, 0x0⟩
def LED_STAT_PEND : Fld := ⟨0x310004, 1, 1, 0x0⟩
def LED_STAT_FITTED : Fld := ⟨0x310004, 2, 1, 0x0⟩
def LED_STAT_COMP_STALE : Fld := ⟨0x310004, 3, 1, 0x0⟩
def LED_SYNC_DIV : Fld := ⟨0x31000C, 0, 8, 0x1⟩
def LED_SYNC_DELAY : Fld := ⟨0x31000C, 8, 9, 0x0⟩
def LED_SYNC_RECOAT : Fld := ⟨0x31000C, 17, 1, 0x0⟩
def LED_FRAME_COUNT : Fld := ⟨0x310008, 0, 16, 0x0⟩
def LED_FRAME_APPLIED : Fld := ⟨0x310008, 16, 16, 0x0⟩
def LED_TEMP_TEMP : Fld := ⟨0x310010, 0, 16, 0x0⟩
def LED_COL_FLT_COLS : Fld := ⟨0x310014, 0, 24, 0x0⟩
def LED_LINE_FLT_LINES : Fld := ⟨0x310018, 0, 16, 0x0⟩
def LED_COMPg_k_VAL (g k : Nat) : Fld := ⟨0x310400 + g * 0x40 + k * 4, 0, 32, 0x3F800000⟩
def LED_INTl_c_INT (l c : Nat) : Fld := ⟨0x311000 + l * 0x80 + c * 4, 0, 10, 0x0⟩

/-! Self-test, recorder, telemetry (R391 to R393) -/

def BIST_CTRL_DEN : Fld := ⟨0x320000, 0, 1, 0x1⟩
def BIST_CTRL_AEN : Fld := ⟨0x320000, 1, 1, 0x1⟩
def BIST_STAT_DRUN : Fld := ⟨0x320004, 0, 1, 0x0⟩
def BIST_STAT_ARUN : Fld := ⟨0x320004, 1, 1, 0x0⟩
def BIST_STAT_FAIL : Fld := ⟨0x320004, 2, 1, 0x0⟩
def BIST_STAT_INCOMP : Fld := ⟨0x320004, 3, 1, 0x0⟩
def BIST_STAT_SKIP : Fld := ⟨0x320004, 4, 1, 0x0⟩
def BIST_STAT_AFAIL : Fld := ⟨0x320004, 5, 1, 0x0⟩
def BIST_LAST_TYPE : Fld := ⟨0x320008, 0, 4, 0x0⟩
def BIST_LAST_TARGET : Fld := ⟨0x320008, 4, 7, 0x0⟩
def BIST_LAST_RESULT : Fld := ⟨0x320008, 12, 2, 0x0⟩
def BIST_PASS_COUNT : Fld := ⟨0x32000C, 0, 32, 0x0⟩
def BIST_FAILS_COUNT : Fld := ⟨0x320010, 0, 32, 0x0⟩
def BIST_INCOMPLETE_COUNT : Fld := ⟨0x320014, 0, 32, 0x0⟩
def BIST_SKIPPED_COUNT : Fld := ⟨0x320018, 0, 32, 0x0⟩
def BIST_FAIL_PAIR0_PAIRS : Fld := ⟨0x32001C, 0, 32, 0x0⟩
def BIST_FAIL_PAIR1_PAIRS : Fld := ⟨0x320020, 0, 4, 0x0⟩
def BIST_FAIL_CMP0_CMP : Fld := ⟨0x320024, 0, 32, 0x0⟩
def BIST_FAIL_CMP1_CMP : Fld := ⟨0x320028, 0, 32, 0x0⟩
def BIST_ROUND_MS : Fld := ⟨0x32002C, 0, 32, 0x0⟩
def EVR_CTRL_FREEZE : Fld := ⟨0x330000, 0, 1, 0x0⟩
def EVR_CTRL_NEXT : Fld := ⟨0x330000, 1, 1, 0x0⟩
def EVR_CTRL_PERSIST : Fld := ⟨0x330000, 2, 1, 0x1⟩
def EVR_STAT_FROZEN : Fld := ⟨0x330004, 0, 1, 0x0⟩
def EVR_STAT_WIN_BUSY : Fld := ⟨0x330004, 1, 1, 0x0⟩
def EVR_STAT_DROP : Fld := ⟨0x330004, 2, 1, 0x0⟩
def EVR_STAT_PAGE_RET : Fld := ⟨0x330004, 3, 1, 0x0⟩
def EVR_STAT_LASTGASP : Fld := ⟨0x330004, 4, 1, 0x0⟩
def EVR_STAT_FLASH_READY : Fld := ⟨0x330004, 5, 1, 0x0⟩
def EVR_STAT_FLASH_FAIL : Fld := ⟨0x330004, 6, 1, 0x0⟩
def EVR_STAT_LG_COUNT : Fld := ⟨0x330004, 7, 4, 0x0⟩
def EVR_HEAD_SEQ : Fld := ⟨0x330008, 0, 32, 0x0⟩
def EVR_OLDEST_SEQ : Fld := ⟨0x33000C, 0, 32, 0x0⟩
def EVR_PERSIST_SEQ : Fld := ⟨0x330010, 0, 32, 0x0⟩
def EVR_CURSOR_SEQ : Fld := ⟨0x330014, 0, 32, 0x0⟩
def EVR_PAGES_RETIRED : Fld := ⟨0x330018, 0, 16, 0x0⟩
def EVR_DROPS_COUNT : Fld := ⟨0x33001C, 0, 32, 0x0⟩
def EVR_MERGES_COUNT : Fld := ⟨0x330020, 0, 32, 0x0⟩
def EVR_LG_LOST_COUNT : Fld := ⟨0x330024, 0, 32, 0x0⟩
def EVR_FLASH_BAD_COUNT : Fld := ⟨0x330028, 0, 32, 0x0⟩
def EVR_FLASH_OLDEST_SEQ : Fld := ⟨0x33002C, 0, 32, 0x0⟩
def EVR_FLASH_PASS_COUNT : Fld := ⟨0x330030, 0, 32, 0x0⟩
def EVR_WINw_DATA (w : Nat) : Fld := ⟨0x330100 + w * 0x4, 0, 32, 0x0⟩
def EVR_LGw_DATA (w : Nat) : Fld := ⟨0x330200 + w * 0x4, 0, 32, 0x0⟩
def TEL_CTRL_EN : Fld := ⟨0x340000, 0, 1, 0x0⟩
def TEL_STAT_LOST : Fld := ⟨0x340004, 0, 1, 0x0⟩
def TEL_BASE_BASE : Fld := ⟨0x340008, 0, 24, 0x0⟩
def TEL_SIZE_SIZE : Fld := ⟨0x34000C, 0, 16, 0x0⟩
def TEL_WR_INDEX : Fld := ⟨0x340010, 0, 32, 0x0⟩
def TEL_RD_INDEX : Fld := ⟨0x340014, 0, 32, 0x0⟩
def TEL_LOST_COUNT : Fld := ⟨0x340018, 0, 32, 0x0⟩

/-! Host (R414) -/

def HST_STAT_PHASE : Fld := ⟨0x0, 0, 3, 0x0⟩
def HST_STAT_SUP_RESTART : Fld := ⟨0x0, 3, 1, 0x0⟩
def HST_STAT_QUEUED : Fld := ⟨0x0, 4, 6, 0x0⟩
def HST_STAT_LANE_BUSY : Fld := ⟨0x0, 10, 4, 0x0⟩
def HST_ATTN_CAUSE : Fld := ⟨0x4, 0, 15, 0x0⟩
def HST_ATTN_HOLD_COND : Fld := ⟨0x8, 0, 5, 0x0⟩
def HST_MBX_STAT_FREE : Fld := ⟨0xC, 0, 1, 0x0⟩
def HST_WIN_BASE : Fld := ⟨0x10, 0, 8, 0x0⟩
def HST_RESET_CAUSE_CAUSE : Fld := ⟨0x14, 0, 3, 0x1⟩
def HST_ID_REV : Fld := ⟨0x18, 0, 8, 0xB0⟩
def HST_ID_BEAMS : Fld := ⟨0x18, 8, 8, 0x20⟩
def HST_ID_DEVICE : Fld := ⟨0x18, 16, 16, 0xA320⟩
def HST_MBXw_WORD (w : Nat) : Fld := ⟨0x100 + w * 0x4, 0, 32, 0x0⟩
def HST_CPL0_TAG : Fld := ⟨0x200, 0, 32, 0x0⟩
def HST_CPL1_INFO : Fld := ⟨0x204, 0, 32, 0x0⟩
def HST_CPL2_VAL_LO : Fld := ⟨0x208, 0, 32, 0x0⟩
def HST_CPL3_VAL_HI : Fld := ⟨0x20C, 0, 32, 0x0⟩
def HST_CPL_POP_POP : Fld := ⟨0x210, 0, 1, 0x0⟩
def HST_CPL_COUNT_COUNT : Fld := ⟨0x214, 0, 6, 0x0⟩
def HST_DMAc_CTRL_EN (c : Nat) : Fld := ⟨0x400 + c * 0x40, 0, 1, 0x0⟩
def HST_DMAc_STAT_RUN (c : Nat) : Fld := ⟨0x404 + c * 0x40, 0, 1, 0x0⟩
def HST_DMAc_STAT_ERR (c : Nat) : Fld := ⟨0x404 + c * 0x40, 1, 1, 0x0⟩
def HST_DMAc_RING_LO_ADDR (c : Nat) : Fld := ⟨0x408 + c * 0x40, 0, 32, 0x0⟩
def HST_DMAc_RING_HI_ADDR (c : Nat) : Fld := ⟨0x40C + c * 0x40, 0, 32, 0x0⟩
def HST_DMAc_RING_SIZE_SIZE (c : Nat) : Fld := ⟨0x410 + c * 0x40, 0, 13, 0x10⟩
def HST_DMAc_HEAD_INDEX (c : Nat) : Fld := ⟨0x414 + c * 0x40, 0, 12, 0x0⟩
def HST_DMAc_TAIL_INDEX (c : Nat) : Fld := ⟨0x418 + c * 0x40, 0, 12, 0x0⟩
def HST_DMAc_BYTES_COUNT (c : Nat) : Fld := ⟨0x41C + c * 0x40, 0, 32, 0x0⟩

end Sys2Proof.Machine.F

namespace Sys2Proof.Machine

/-- The rigging (R69): part 0 of the chapter's registers. -/
def regs02_0 : List RegSpec :=
  [⟨"RIG_STAT", 0x10000, 0, 1, 0, 1, .device,
     [⟨"STATE", 0, 4, 0x0, .ro, .none, .any⟩,
      ⟨"SOURCE", 4, 2, 0x0, .ro, .none, .any⟩,
      ⟨"LATE", 8, 1, 0x0, .w1c, .imm, .any⟩,
      ⟨"FALLBACK", 9, 1, 0x0, .w1c, .imm, .any⟩,
      ⟨"REFUSED", 10, 1, 0x0, .w1c, .imm, .any⟩,
      ⟨"OLDSET", 11, 1, 0x0, .ro, .none, .any⟩]⟩,
   ⟨"RIG_ERR", 0x10004, 0, 1, 0, 1, .device,
     [⟨"CHECK", 0, 8, 0x0, .ro, .none, .any⟩,
      ⟨"SECTION", 8, 10, 0x0, .ro, .none, .any⟩]⟩,
   ⟨"RIG_ERR_OFFSET", 0x10008, 0, 1, 0, 1, .device,
     [⟨"OFFSET", 0, 32, 0x0, .ro, .none, .any⟩]⟩,
   ⟨"RIG_ID", 0x1000C, 0, 1, 0, 1, .device,
     [⟨"IMG_ID", 0, 32, 0x0, .ro, .none, .any⟩]⟩,
   ⟨"RIG_GEN", 0x10010, 0, 1, 0, 1, .device,
     [⟨"GENERATION", 0, 32, 0x0, .ro, .none, .any⟩]⟩,
   ⟨"RIG_CRC", 0x10014, 0, 1, 0, 1, .device,
     [⟨"IMG_CRC", 0, 32, 0x0, .ro, .none, .any⟩]⟩,
   ⟨"RIG_SWAP_ID", 0x10018, 0, 1, 0, 1, .device,
     [⟨"IMG_ID", 0, 32, 0x0, .ro, .none, .any⟩]⟩,
   ⟨"RIG_SWAPS", 0x1001C, 0, 1, 0, 1, .device,
     [⟨"COUNT", 0, 32, 0x0, .ro, .none, .any⟩]⟩,
   ⟨"RIG_ROMID", 0x10020, 0, 1, 0, 1, .device,
     [⟨"ROMID", 0, 32, 0xB000001, .ro, .none, .any⟩]⟩,
   ⟨"RIG_PATCH", 0x10024, 0, 1, 0, 1, .device,
     [⟨"CODE_LEN", 0, 32, 0x0, .ro, .none, .any⟩]⟩]

/-- Bed buffers (R95): part 0 of the chapter's registers. -/
def regs03_0 : List RegSpec :=
  [⟨"BED_BUFn_BASE", 0x20100, 32, 16, 0, 1, .device,
     [⟨"BASE", 0, 24, 0x0, .rwl, .imm, .any⟩]⟩,
   ⟨"BED_BUFn_SIZE", 0x20104, 32, 16, 0, 1, .device,
     [⟨"SIZE", 0, 18, 0x0, .rwl, .imm, .le 131072⟩]⟩,
   ⟨"BED_BUFn_STAT", 0x20108, 32, 16, 0, 1, .device,
     [⟨"STATE", 0, 3, 0x0, .ro, .none, .any⟩,
      ⟨"PEND", 3, 1, 0x0, .ro, .none, .any⟩,
      ⟨"SEALING", 4, 1, 0x0, .ro, .none, .any⟩,
      ⟨"SINGLE", 5, 1, 0x0, .ro, .none, .any⟩,
      ⟨"DROPPED", 6, 1, 0x0, .w1c, .imm, .any⟩]⟩,
   ⟨"BED_BUFn_GEN", 0x2010C, 32, 16, 0, 1, .device,
     [⟨"GEN", 0, 32, 0x0, .ro, .none, .any⟩]⟩,
   ⟨"BED_BUFn_PEND_GEN", 0x20110, 32, 16, 0, 1, .device,
     [⟨"GEN", 0, 32, 0x0, .ro, .none, .any⟩]⟩,
   ⟨"BED_BUFn_BED_NO", 0x20114, 32, 16, 0, 1, .device,
     [⟨"BED_NO", 0, 32, 0x0, .ro, .none, .any⟩]⟩,
   ⟨"BED_BUFn_ERR", 0x20118, 32, 16, 0, 1, .device,
     [⟨"CHECK", 0, 8, 0x0, .ro, .none, .any⟩,
      ⟨"INDEX", 8, 24, 0x0, .ro, .none, .any⟩]⟩,
   ⟨"BED_BUFn_DROPS", 0x2011C, 32, 16, 0, 1, .device,
     [⟨"COUNT", 0, 32, 0x0, .ro, .none, .any⟩]⟩,
   ⟨"JIG_SHORT", 0x30000, 0, 1, 0, 1, .device,
     [⟨"COUNT", 0, 32, 0x0, .ro, .none, .any⟩]⟩]

/-- The bed cycle (R116): part 0 of the chapter's registers. -/
def regs04_0 : List RegSpec :=
  [⟨"BED_CTRL", 0x20000, 0, 1, 0, 1, .device,
     [⟨"RUN", 0, 1, 0x0, .rw, .imm, .any⟩,
      ⟨"HOLD", 1, 1, 0x0, .rw, .imm, .any⟩,
      ⟨"CHASE", 2, 1, 0x1, .rw, .bed, .any⟩,
      ⟨"RCSRC", 3, 1, 0x0, .rw, .bed, .any⟩,
      ⟨"VHOLD", 4, 1, 0x0, .rw, .imm, .any⟩]⟩,
   ⟨"BED_STAT", 0x20004, 0, 1, 0, 1, .device,
     [⟨"PHASE", 0, 3, 0x0, .ro, .none, .any⟩,
      ⟨"LATE", 3, 1, 0x0, .w1c, .imm, .any⟩,
      ⟨"STARVE", 4, 1, 0x0, .w1c, .imm, .any⟩,
      ⟨"ABANDON", 5, 1, 0x0, .w1c, .imm, .any⟩,
      ⟨"UNDERRUN", 6, 1, 0x0, .w1c, .imm, .any⟩,
      ⟨"VFAIL", 7, 1, 0x0, .w1c, .imm, .any⟩,
      ⟨"PAIRBRK", 8, 1, 0x0, .w1c, .imm, .any⟩,
      ⟨"QLOST", 9, 1, 0x0, .w1c, .imm, .any⟩,
      ⟨"CHASE_LOST", 10, 1, 0x0, .w1c, .imm, .any⟩,
      ⟨"TWO", 11, 1, 0x0, .ro, .none, .any⟩,
      ⟨"CHASING", 12, 1, 0x0, .ro, .none, .any⟩]⟩,
   ⟨"BED_NEXT", 0x20008, 0, 1, 0, 1, .device,
     [⟨"BUF", 0, 4, 0x0, .ro, .none, .any⟩,
      ⟨"COMMITTED", 4, 1, 0x0, .ro, .none, .any⟩,
      ⟨"LATCHED", 5, 1, 0x0, .ro, .none, .any⟩,
      ⟨"HELD", 6, 1, 0x0, .ro, .none, .any⟩,
      ⟨"LBUF", 7, 4, 0x0, .ro, .none, .any⟩]⟩,
   ⟨"BED_CUR", 0x20010, 0, 1, 0, 1, .device,
     [⟨"BUF", 0, 4, 0x0, .ro, .none, .any⟩,
      ⟨"VALID", 4, 1, 0x0, .ro, .none, .any⟩,
      ⟨"OLD_BUF", 8, 4, 0x0, .ro, .none, .any⟩,
      ⟨"OLD_VALID", 12, 1, 0x0, .ro, .none, .any⟩]⟩,
   ⟨"BED_CHASE", 0x20024, 0, 1, 0, 1, .device,
     [⟨"CMP", 0, 3, 0x0, .rw, .bed, .any⟩,
      ⟨"GUARD", 4, 4, 0x1, .rw, .bed, .any⟩,
      ⟨"CLEAR", 16, 16, 0xFFFF, .rw, .bed, .any⟩]⟩,
   ⟨"BED_NEXT_GEN", 0x2000C, 0, 1, 0, 1, .device,
     [⟨"GEN", 0, 32, 0x0, .ro, .none, .any⟩]⟩,
   ⟨"BED_CUR_NO", 0x20014, 0, 1, 0, 1, .device,
     [⟨"BED_NO", 0, 32, 0x0, .ro, .none, .any⟩]⟩,
   ⟨"BED_COUNT", 0x20018, 0, 1, 0, 1, .device,
     [⟨"COUNT", 0, 32, 0x0, .ro, .none, .any⟩]⟩,
   ⟨"BED_HZN_TICK", 0x2001C, 0, 1, 0, 1, .device,
     [⟨"TICK", 0, 32, 0x0, .ro, .none, .any⟩]⟩,
   ⟨"BED_BND_TICK", 0x20020, 0, 1, 0, 1, .device,
     [⟨"TICK", 0, 32, 0x0, .ro, .none, .any⟩]⟩,
   ⟨"BED_RECOAT_END", 0x20028, 0, 1, 0, 1, .device,
     [⟨"POS", 0, 32, 0x0, .rw, .bed, .any⟩]⟩,
   ⟨"BED_STRIPES", 0x2002C, 0, 1, 0, 1, .device,
     [⟨"RELEASED", 0, 16, 0x0, .ro, .none, .any⟩]⟩]

/-- The bed cycle (R116): part 1 of the chapter's registers. -/
def regs04_1 : List RegSpec :=
  [⟨"BED_UNDERRUNS", 0x20030, 0, 1, 0, 1, .device,
     [⟨"COUNT", 0, 32, 0x0, .ro, .none, .any⟩]⟩,
   ⟨"BED_ABANDONED", 0x20034, 0, 1, 0, 1, .device,
     [⟨"COUNT", 0, 32, 0x0, .ro, .none, .any⟩]⟩,
   ⟨"BED_VPASS", 0x20038, 0, 1, 0, 1, .device,
     [⟨"COUNT", 0, 32, 0x0, .ro, .none, .any⟩]⟩,
   ⟨"BED_VFAIL", 0x2003C, 0, 1, 0, 1, .device,
     [⟨"COUNT", 0, 32, 0x0, .ro, .none, .any⟩]⟩,
   ⟨"BED_QREC_BASE", 0x20040, 0, 1, 0, 1, .device,
     [⟨"BASE", 0, 24, 0x0, .rwl, .imm, .any⟩]⟩,
   ⟨"BED_QREC_SIZE", 0x20044, 0, 1, 0, 1, .device,
     [⟨"SIZE", 0, 16, 0x0, .rwl, .imm, .any⟩]⟩,
   ⟨"BED_QREC_WR", 0x20048, 0, 1, 0, 1, .device,
     [⟨"INDEX", 0, 32, 0x0, .ro, .none, .any⟩]⟩,
   ⟨"BED_QREC_RD", 0x2004C, 0, 1, 0, 1, .device,
     [⟨"INDEX", 0, 32, 0x0, .rw, .imm, .any⟩]⟩,
   ⟨"BED_QREC_LOST", 0x20050, 0, 1, 0, 1, .device,
     [⟨"COUNT", 0, 32, 0x0, .ro, .none, .any⟩]⟩]

/-- Trajectory (R142): part 0 of the chapter's registers. -/
def regs05_0 : List RegSpec :=
  [⟨"BEAMn_TSTAT", 0x100000, 8192, 32, 0, 1, .port,
     [⟨"STATE", 0, 3, 0x0, .ro, .none, .any⟩,
      ⟨"NOGRID", 3, 1, 0x1, .ro, .none, .any⟩,
      ⟨"OOF", 4, 1, 0x0, .w1c, .imm, .any⟩,
      ⟨"FE_EXC", 5, 1, 0x0, .w1c, .imm, .any⟩,
      ⟨"ZCLAMP", 6, 1, 0x0, .w1c, .imm, .any⟩,
      ⟨"GCLAMP", 7, 1, 0x0, .w1c, .imm, .any⟩,
      ⟨"XY2", 8, 1, 0x0, .ro, .none, .any⟩]⟩,
   ⟨"BEAMn_PROF", 0x100004, 8192, 32, 0, 1, .port,
     [⟨"JOIN_ANG", 0, 8, 0xA, .rw, .path, .any⟩]⟩,
   ⟨"BEAMn_TRIM", 0x100008, 8192, 32, 0, 1, .port,
     [⟨"FINE", 0, 6, 0x0, .rw, .seg, .any⟩]⟩,
   ⟨"BEAMn_FE_LIMIT", 0x10000C, 8192, 32, 0, 1, .port,
     [⟨"LIMIT", 0, 24, 0x0, .rw, .path, .any⟩,
      ⟨"TICKS", 24, 8, 0x10, .rw, .path, .any⟩]⟩,
   ⟨"BEAMn_TRACK", 0x10003C, 8192, 32, 0, 1, .port,
     [⟨"EN", 0, 1, 0x0, .rw, .path, .any⟩,
      ⟨"ENC", 1, 3, 0x0, .rw, .path, .any⟩]⟩,
   ⟨"BEAMn_CONF", 0x100010, 8192, 32, 0, 1, .port,
     [⟨"TOL", 0, 16, 0x40, .rw, .path, .any⟩]⟩,
   ⟨"BEAMn_FE_MAX_X", 0x100014, 8192, 32, 0, 1, .port,
     [⟨"FE", 0, 24, 0x0, .ro, .none, .any⟩]⟩,
   ⟨"BEAMn_FE_MAX_Y", 0x100018, 8192, 32, 0, 1, .port,
     [⟨"FE", 0, 24, 0x0, .ro, .none, .any⟩]⟩,
   ⟨"BEAMn_LAT", 0x10001C, 8192, 32, 0, 1, .port,
     [⟨"TICKS", 0, 6, 0x0, .ro, .none, .any⟩]⟩,
   ⟨"BEAMn_STITCH_X", 0x100020, 8192, 32, 0, 1, .port,
     [⟨"OFS", 0, 32, 0x0, .ro, .none, .any⟩]⟩,
   ⟨"BEAMn_STITCH_Y", 0x100024, 8192, 32, 0, 1, .port,
     [⟨"OFS", 0, 32, 0x0, .ro, .none, .any⟩]⟩,
   ⟨"BEAMn_Z_OFF", 0x100028, 8192, 32, 0, 1, .port,
     [⟨"VAL", 0, 32, 0x0, .rw, .path, .f32 .any⟩]⟩]

/-- Trajectory (R142): part 1 of the chapter's registers. -/
def regs05_1 : List RegSpec :=
  [⟨"BEAMn_Z_GAIN", 0x10002C, 8192, 32, 0, 1, .port,
     [⟨"VAL", 0, 32, 0x0, .rw, .path, .f32 .any⟩]⟩,
   ⟨"BEAMn_Z_CURV", 0x100030, 8192, 32, 0, 1, .port,
     [⟨"VAL", 0, 32, 0x0, .rw, .path, .f32 .any⟩]⟩,
   ⟨"BEAMn_Z_CX", 0x100034, 8192, 32, 0, 1, .port,
     [⟨"POS", 0, 32, 0x0, .rw, .path, .any⟩]⟩,
   ⟨"BEAMn_Z_CY", 0x100038, 8192, 32, 0, 1, .port,
     [⟨"POS", 0, 32, 0x0, .rw, .path, .any⟩]⟩,
   ⟨"BEAMn_TRACK_DX", 0x100040, 8192, 32, 0, 1, .port,
     [⟨"VAL", 0, 32, 0x3F800000, .rw, .path, .f32 .any⟩]⟩,
   ⟨"BEAMn_TRACK_DY", 0x100044, 8192, 32, 0, 1, .port,
     [⟨"VAL", 0, 32, 0x0, .rw, .path, .f32 .any⟩]⟩,
   ⟨"BEAMn_CONF_SEG", 0x100048, 8192, 32, 0, 1, .port,
     [⟨"SEG", 0, 24, 0x0, .ro, .none, .any⟩]⟩,
   ⟨"BEAMn_CONF_TICK", 0x10004C, 8192, 32, 0, 1, .port,
     [⟨"TICK", 0, 32, 0x0, .ro, .none, .any⟩]⟩,
   ⟨"BEAMn_CORR_ID", 0x100050, 8192, 32, 0, 1, .port,
     [⟨"CORR_ID", 0, 32, 0x0, .ro, .none, .any⟩]⟩,
   ⟨"BEAMn_OOF", 0x100054, 8192, 32, 0, 1, .port,
     [⟨"COUNT", 0, 32, 0x0, .ro, .none, .any⟩]⟩]

/-- Beam ports and pairs (R171, R172): part 0 of the chapter's registers. -/
def regs06_0 : List RegSpec :=
  [⟨"BEAMn_PSTAT", 0x100100, 8192, 32, 0, 1, .port,
     [⟨"LINK", 0, 3, 0x0, .ro, .none, .any⟩,
      ⟨"READY", 3, 1, 0x0, .ro, .none, .any⟩,
      ⟨"HFAULT", 4, 1, 0x0, .w1c, .imm, .any⟩,
      ⟨"LSR_OK", 5, 1, 0x0, .ro, .none, .any⟩,
      ⟨"LFAULT", 6, 1, 0x0, .w1c, .imm, .any⟩,
      ⟨"EMIT", 7, 1, 0x0, .ro, .none, .any⟩,
      ⟨"TFAIL", 8, 1, 0x0, .w1c, .imm, .any⟩,
      ⟨"ATTACHED", 9, 1, 0x0, .ro, .none, .any⟩]⟩,
   ⟨"BEAMn_PCTRL", 0x100104, 8192, 32, 0, 1, .port,
     [⟨"LSR_FILT", 0, 8, 0x2, .rw, .path, .any⟩]⟩,
   ⟨"BEAMn_SL_EYE", 0x10010C, 8192, 32, 0, 1, .port,
     [⟨"PHASE_A", 0, 4, 0x0, .ro, .none, .any⟩,
      ⟨"WIDTH_A", 4, 4, 0x0, .ro, .none, .any⟩,
      ⟨"PHASE_B", 8, 4, 0x0, .ro, .none, .any⟩,
      ⟨"WIDTH_B", 12, 4, 0x0, .ro, .none, .any⟩,
      ⟨"OFFSET", 16, 8, 0x0, .ro, .none, .any⟩]⟩,
   ⟨"BEAMn_HEAD", 0x100110, 8192, 32, 0, 1, .port,
     [⟨"STATUS", 0, 16, 0x0, .ro, .none, .any⟩,
      ⟨"TEMP", 16, 16, 0x0, .ro, .none, .any⟩]⟩,
   ⟨"BEAMn_PAIR", 0x100108, 8192, 32, 0, 1, .port,
     [⟨"PAIR", 0, 6, 0x3F, .ro, .none, .any⟩]⟩,
   ⟨"BEAMn_SL_BAD", 0x100114, 8192, 32, 0, 1, .port,
     [⟨"COUNT", 0, 32, 0x0, .ro, .none, .any⟩]⟩,
   ⟨"BEAMn_SL_MISS", 0x100118, 8192, 32, 0, 1, .port,
     [⟨"COUNT", 0, 32, 0x0, .ro, .none, .any⟩]⟩,
   ⟨"BEAMn_SL_INT", 0x10011C, 8192, 32, 0, 1, .port,
     [⟨"COUNT", 0, 32, 0x0, .ro, .none, .any⟩]⟩,
   ⟨"BEAMn_SKEW", 0x100120, 8192, 32, 0, 1, .port,
     [⟨"SKEW", 0, 5, 0x0, .ro, .none, .any⟩]⟩,
   ⟨"ENG_PAIRk", 0x140000, 4, 36, 0, 1, .device,
     [⟨"STATE", 0, 3, 0x0, .ro, .none, .any⟩,
      ⟨"PORT", 8, 5, 0x0, .ro, .none, .any⟩,
      ⟨"CAUSE", 16, 4, 0x0, .ro, .none, .any⟩]⟩,
   ⟨"ENG_SPARES", 0x140090, 0, 1, 0, 1, .device,
     [⟨"COUNT", 0, 3, 0x0, .ro, .none, .any⟩]⟩,
   ⟨"ENG_ATTACHES", 0x140094, 0, 1, 0, 1, .device,
     [⟨"COUNT", 0, 32, 0x0, .ro, .none, .any⟩]⟩]

/-- Loops (R209): part 0 of the chapter's registers. -/
def regs07_0 : List RegSpec :=
  [⟨"LOOPn_CTRL", 0x181000, 128, 32, 0, 1, .port,
     [⟨"VDELAY", 0, 8, 0x0, .rw, .path, .any⟩,
      ⟨"MP_OFF", 8, 1, 0x0, .rw, .seg, .any⟩]⟩,
   ⟨"LOOPn_STAT", 0x181004, 128, 32, 0, 1, .port,
     [⟨"MP_LOST", 0, 1, 0x0, .ro, .none, .any⟩,
      ⟨"SRC_LOST", 1, 1, 0x0, .ro, .none, .any⟩,
      ⟨"MP_RAMP", 2, 1, 0x0, .ro, .none, .any⟩,
      ⟨"SRC_RAMP", 3, 1, 0x0, .ro, .none, .any⟩,
      ⟨"MP_CAUSE", 4, 3, 0x0, .ro, .none, .any⟩,
      ⟨"SRC_CAUSE", 7, 3, 0x0, .ro, .none, .any⟩,
      ⟨"LOSS", 10, 1, 0x0, .w1c, .imm, .any⟩,
      ⟨"TRIP", 11, 1, 0x0, .w1c, .imm, .any⟩,
      ⟨"YY_RUN", 12, 1, 0x0, .ro, .none, .any⟩,
      ⟨"CAP_DONE", 13, 1, 0x0, .w1c, .imm, .any⟩,
      ⟨"CAP_BUSY", 14, 1, 0x0, .ro, .none, .any⟩]⟩,
   ⟨"LOOPn_WIN", 0x181008, 128, 32, 0, 1, .port,
     [⟨"PWR", 0, 16, 0x0, .ro, .none, .any⟩,
      ⟨"DESC", 16, 3, 0x0, .ro, .none, .any⟩,
      ⟨"CLASS", 19, 3, 0x7, .ro, .none, .any⟩]⟩,
   ⟨"LOOPn_YY_CTRL", 0x18102C, 128, 32, 0, 1, .port,
     [⟨"MODE", 0, 3, 0x0, .rw, .path, .le 4⟩,
      ⟨"POINT", 3, 2, 0x0, .rw, .path, .le 2⟩,
      ⟨"ARM", 5, 1, 0x0, .w1s, .path, .any⟩,
      ⟨"CAPSYNC", 6, 1, 0x0, .rw, .path, .any⟩]⟩,
   ⟨"LOOPn_CAP_CTRL", 0x181040, 128, 32, 0, 1, .port,
     [⟨"START", 0, 1, 0x0, .w1s, .imm, .any⟩]⟩,
   ⟨"LOOPn_WCNT_SCHED", 0x18100C, 128, 32, 0, 1, .port,
     [⟨"COUNT", 0, 32, 0x0, .ro, .none, .any⟩]⟩,
   ⟨"LOOPn_WCNT_MP", 0x181010, 128, 32, 0, 1, .port,
     [⟨"COUNT", 0, 32, 0x0, .ro, .none, .any⟩]⟩,
   ⟨"LOOPn_WCNT_CAP", 0x181014, 128, 32, 0, 1, .port,
     [⟨"COUNT", 0, 32, 0x0, .ro, .none, .any⟩]⟩,
   ⟨"LOOPn_WCNT_SRC", 0x181018, 128, 32, 0, 1, .port,
     [⟨"COUNT", 0, 32, 0x0, .ro, .none, .any⟩]⟩,
   ⟨"LOOPn_WCNT_OTHER", 0x18101C, 128, 32, 0, 1, .port,
     [⟨"COUNT", 0, 32, 0x0, .ro, .none, .any⟩]⟩,
   ⟨"LOOPn_LOSSES", 0x181020, 128, 32, 0, 1, .port,
     [⟨"COUNT", 0, 32, 0x0, .ro, .none, .any⟩]⟩,
   ⟨"LOOPn_TABLE_ID", 0x181024, 128, 32, 0, 1, .port,
     [⟨"TABLE_ID", 0, 32, 0x0, .ro, .none, .any⟩]⟩]

/-- Loops (R209): part 1 of the chapter's registers. -/
def regs07_1 : List RegSpec :=
  [⟨"LOOPn_MON", 0x181028, 128, 32, 0, 1, .port,
     [⟨"VAL", 0, 32, 0x0, .ro, .none, .any⟩]⟩,
   ⟨"LOOPn_YY_AMP", 0x181030, 128, 32, 0, 1, .port,
     [⟨"VAL", 0, 32, 0x0, .rw, .path, .f32 .unit1⟩]⟩,
   ⟨"LOOPn_YY_F0", 0x181034, 128, 32, 0, 1, .port,
     [⟨"VAL", 0, 32, 0x447A0000, .rw, .path, .f32 .hz⟩]⟩,
   ⟨"LOOPn_YY_F1", 0x181038, 128, 32, 0, 1, .port,
     [⟨"VAL", 0, 32, 0x47C35000, .rw, .path, .f32 .hz⟩]⟩,
   ⟨"LOOPn_YY_LEN", 0x18103C, 128, 32, 0, 1, .port,
     [⟨"LEN", 0, 24, 0x0, .rw, .path, .any⟩]⟩,
   ⟨"LOOPn_CAP_BASE", 0x181044, 128, 32, 0, 1, .port,
     [⟨"BASE", 0, 24, 0x0, .rwl, .imm, .any⟩]⟩,
   ⟨"LOOPn_CAP_LEN", 0x181048, 128, 32, 0, 1, .port,
     [⟨"LEN", 0, 32, 0x0, .rwl, .imm, .any⟩]⟩,
   ⟨"LOOPn_CAP_WR", 0x18104C, 128, 32, 0, 1, .port,
     [⟨"COUNT", 0, 32, 0x0, .ro, .none, .any⟩]⟩,
   ⟨"LOOP_FF_ID", 0x180000, 0, 1, 0, 1, .device,
     [⟨"TABLE_ID", 0, 32, 0x0, .ro, .none, .any⟩]⟩,
   ⟨"LOOP_PEND", 0x180004, 0, 1, 0, 1, .device,
     [⟨"PORTS", 0, 32, 0x0, .ro, .none, .any⟩]⟩,
   ⟨"LOOP_FF_PEND", 0x180008, 0, 1, 0, 1, .device,
     [⟨"PEND", 0, 1, 0x0, .ro, .none, .any⟩]⟩,
   ⟨"LOOP_NANS", 0x18000C, 0, 1, 0, 1, .device,
     [⟨"COUNT", 0, 32, 0x0, .ro, .none, .any⟩]⟩]

/-- Sensing and cameras (R238, R239): part 0 of the chapter's registers. -/
def regs08_0 : List RegSpec :=
  [⟨"SNS_CTRL", 0x1C0000, 0, 1, 0, 1, .device,
     [⟨"SPOT_EN", 0, 1, 0x1, .rw, .bed, .any⟩,
      ⟨"OTRACE", 1, 1, 0x1, .rw, .bed, .any⟩,
      ⟨"GTRACE", 2, 1, 0x1, .rw, .bed, .any⟩,
      ⟨"REF_PORT", 8, 5, 0x0, .rw, .bed, .any⟩]⟩,
   ⟨"SNS_STAT", 0x1C0004, 0, 1, 0, 1, .device,
     [⟨"CAL_RUN", 0, 1, 0x0, .ro, .none, .any⟩,
      ⟨"CAL_DONE", 1, 1, 0x0, .ro, .none, .any⟩,
      ⟨"UNSURE", 2, 1, 0x0, .ro, .none, .any⟩,
      ⟨"STORE_BAD", 3, 1, 0x0, .w1c, .imm, .any⟩,
      ⟨"TRACE_REF", 4, 1, 0x0, .w1c, .imm, .any⟩,
      ⟨"SPOT_REF", 5, 1, 0x0, .w1c, .imm, .any⟩]⟩,
   ⟨"SNS_SPOT_STEP", 0x1C0008, 0, 1, 0, 1, .device,
     [⟨"STEP", 0, 16, 0x190, .rw, .bed, .range 1 65535⟩]⟩,
   ⟨"SNS_SPOT_W", 0x1C000C, 0, 1, 0, 1, .device,
     [⟨"VAL", 0, 32, 0x42700000, .rw, .bed, .f32 .any⟩]⟩,
   ⟨"SNS_SPOT_MINCORR", 0x1C0010, 0, 1, 0, 1, .device,
     [⟨"VAL", 0, 32, 0x3F4CCCCD, .rw, .bed, .f32 .zeroOne⟩]⟩,
   ⟨"SNS_SPOT_MAX", 0x1C0014, 0, 1, 0, 1, .device,
     [⟨"MAX", 0, 24, 0x7D0, .rw, .bed, .any⟩]⟩,
   ⟨"SNS_DARK_WAIT", 0x1C0018, 0, 1, 0, 1, .device,
     [⟨"WAIT", 0, 16, 0x32, .rw, .bed, .any⟩]⟩,
   ⟨"SNS_CAL_TIME", 0x1C001C, 0, 1, 0, 1, .device,
     [⟨"MS", 0, 32, 0x0, .ro, .none, .any⟩]⟩,
   ⟨"SNS_UNSURE_PD0", 0x1C0020, 0, 1, 0, 1, .device,
     [⟨"CH", 0, 32, 0x0, .ro, .none, .any⟩]⟩,
   ⟨"SNS_UNSURE_PD1", 0x1C0024, 0, 1, 0, 1, .device,
     [⟨"CH", 0, 32, 0x0, .ro, .none, .any⟩]⟩,
   ⟨"SNS_UNSURE_DAC", 0x1C0028, 0, 1, 0, 1, .device,
     [⟨"PORT", 0, 32, 0x0, .ro, .none, .any⟩]⟩,
   ⟨"SNS_UNSURE_SKEW", 0x1C002C, 0, 1, 0, 1, .device,
     [⟨"PORT", 0, 32, 0x0, .ro, .none, .any⟩]⟩]

/-- Sensing and cameras (R238, R239): part 1 of the chapter's registers. -/
def regs08_1 : List RegSpec :=
  [⟨"SNS_UNSURE_STR", 0x1C0030, 0, 1, 0, 1, .device,
     [⟨"PORT", 0, 32, 0x0, .ro, .none, .any⟩]⟩,
   ⟨"SNS_UNSURE_T0", 0x1C0034, 0, 1, 0, 1, .device,
     [⟨"IN", 0, 32, 0x0, .ro, .none, .any⟩]⟩,
   ⟨"SNS_UNSURE_T1", 0x1C0038, 0, 1, 0, 1, .device,
     [⟨"IN", 0, 32, 0x0, .ro, .none, .any⟩]⟩,
   ⟨"SNS_UNSURE_T2", 0x1C003C, 0, 1, 0, 1, .device,
     [⟨"IN", 0, 16, 0x0, .ro, .none, .any⟩]⟩,
   ⟨"SNS_CHc_CFG", 0x1C0100, 32, 64, 0, 1, .chan,
     [⟨"RANGE", 0, 2, 0x0, .rw, .bed, .any⟩]⟩,
   ⟨"SNS_CHc_K", 0x1C0104, 32, 64, 0, 1, .chan,
     [⟨"VAL", 0, 32, 0x3F800000, .rw, .path, .f32 .pos⟩]⟩,
   ⟨"SNS_CHc_REF", 0x1C0108, 32, 64, 0, 1, .chan,
     [⟨"VAL", 0, 32, 0x3F000000, .rw, .bed, .f32 .pos⟩]⟩,
   ⟨"SNS_CHc_OFS", 0x1C010C, 32, 64, 0, 1, .chan,
     [⟨"OFS", 0, 20, 0x8000, .ro, .none, .any⟩]⟩,
   ⟨"SNS_CHc_GCAL", 0x1C0110, 32, 64, 0, 1, .chan,
     [⟨"VAL", 0, 32, 0x3F800000, .ro, .none, .any⟩]⟩,
   ⟨"SNS_CHc_TRIM", 0x1C0114, 32, 64, 0, 1, .chan,
     [⟨"VAL", 0, 32, 0x3F800000, .ro, .none, .any⟩]⟩,
   ⟨"SNS_CHc_STAT", 0x1C0118, 32, 64, 0, 1, .chan,
     [⟨"SAT", 0, 1, 0x0, .w1c, .imm, .any⟩,
      ⟨"MISS", 1, 1, 0x0, .w1c, .imm, .any⟩,
      ⟨"OFS_SLEW", 2, 1, 0x0, .ro, .none, .any⟩,
      ⟨"GAIN_SLEW", 3, 1, 0x0, .ro, .none, .any⟩,
      ⟨"UNSURE", 4, 1, 0x0, .ro, .none, .any⟩]⟩,
   ⟨"SNS_CHc_RAW", 0x1C011C, 32, 64, 0, 1, .chan,
     [⟨"CODE", 0, 16, 0x0, .ro, .none, .any⟩]⟩]

/-- Sensing and cameras (R238, R239): part 2 of the chapter's registers. -/
def regs08_2 : List RegSpec :=
  [⟨"SNS_Pn_SPOT", 0x1C100C, 64, 32, 0, 1, .port,
     [⟨"STATE", 0, 2, 0x0, .ro, .none, .any⟩,
      ⟨"REFERENCE", 2, 1, 0x0, .ro, .none, .any⟩,
      ⟨"PARENT", 8, 5, 0x0, .ro, .none, .any⟩,
      ⟨"NOPARENT", 13, 1, 0x0, .ro, .none, .any⟩]⟩,
   ⟨"SNS_Pn_C2A", 0x1C1000, 64, 32, 0, 1, .port,
     [⟨"VAL", 0, 32, 0x3F800000, .rw, .path, .f32 .any⟩]⟩,
   ⟨"SNS_Pn_C2B", 0x1C1004, 64, 32, 0, 1, .port,
     [⟨"VAL", 0, 32, 0x0, .rw, .path, .f32 .any⟩]⟩,
   ⟨"SNS_Pn_C2FLOOR", 0x1C1008, 64, 32, 0, 1, .port,
     [⟨"VAL", 0, 32, 0x3C23D70A, .rw, .path, .f32 .pos⟩]⟩,
   ⟨"SNS_Pn_EST_X", 0x1C1010, 64, 32, 0, 1, .port,
     [⟨"VAL", 0, 32, 0x0, .ro, .none, .any⟩]⟩,
   ⟨"SNS_Pn_EST_Y", 0x1C1014, 64, 32, 0, 1, .port,
     [⟨"VAL", 0, 32, 0x0, .ro, .none, .any⟩]⟩,
   ⟨"SNS_Pn_TGT_X", 0x1C1018, 64, 32, 0, 1, .port,
     [⟨"VAL", 0, 32, 0x0, .ro, .none, .any⟩]⟩,
   ⟨"SNS_Pn_TGT_Y", 0x1C101C, 64, 32, 0, 1, .port,
     [⟨"VAL", 0, 32, 0x0, .ro, .none, .any⟩]⟩,
   ⟨"SNS_Pn_OBS", 0x1C1020, 64, 32, 0, 1, .port,
     [⟨"COUNT", 0, 32, 0x0, .ro, .none, .any⟩]⟩,
   ⟨"SNS_Pn_ACC", 0x1C1024, 64, 32, 0, 1, .port,
     [⟨"COUNT", 0, 32, 0x0, .ro, .none, .any⟩]⟩,
   ⟨"SNS_Pn_REJ", 0x1C1028, 64, 32, 0, 1, .port,
     [⟨"COUNT", 0, 32, 0x0, .ro, .none, .any⟩]⟩,
   ⟨"CAMm_CTRL", 0x200000, 256, 8, 0, 1, .device,
     [⟨"EN", 0, 1, 0x0, .rw, .imm, .any⟩,
      ⟨"LANES", 1, 2, 0x2, .rwl, .imm, .le 2⟩,
      ⟨"DT", 3, 2, 0x2, .rwl, .imm, .le 2⟩,
      ⟨"CAPEN", 5, 1, 0x0, .rw, .imm, .any⟩]⟩]

/-- Sensing and cameras (R238, R239): part 3 of the chapter's registers. -/
def regs08_3 : List RegSpec :=
  [⟨"CAMm_STAT", 0x200004, 256, 8, 0, 1, .device,
     [⟨"LINK", 0, 1, 0x0, .ro, .none, .any⟩,
      ⟨"DAMAGED", 1, 1, 0x0, .w1c, .imm, .any⟩,
      ⟨"TIMEOUT", 2, 1, 0x0, .w1c, .imm, .any⟩,
      ⟨"CAPDROP", 3, 1, 0x0, .w1c, .imm, .any⟩,
      ⟨"FEATLOST", 4, 1, 0x0, .w1c, .imm, .any⟩]⟩,
   ⟨"CAMm_TRIG", 0x200014, 256, 8, 0, 1, .device,
     [⟨"MODE", 0, 2, 0x0, .rw, .imm, .any⟩,
      ⟨"FIRE", 2, 1, 0x0, .w1s, .imm, .any⟩,
      ⟨"WIDTH", 8, 8, 0xA, .rw, .imm, .any⟩]⟩,
   ⟨"CAMm_ROI_XY", 0x200008, 256, 8, 0, 1, .device,
     [⟨"X0", 0, 12, 0x0, .rw, .imm, .any⟩,
      ⟨"Y0", 16, 12, 0x0, .rw, .imm, .any⟩]⟩,
   ⟨"CAMm_ROI_WH", 0x20000C, 256, 8, 0, 1, .device,
     [⟨"W", 0, 13, 0x1000, .rw, .imm, .range 1 4096⟩,
      ⟨"H", 16, 13, 0x1000, .rw, .imm, .range 1 4096⟩]⟩,
   ⟨"CAMm_THRESH", 0x200010, 256, 8, 0, 1, .device,
     [⟨"THR", 0, 12, 0x800, .rw, .imm, .any⟩]⟩,
   ⟨"CAMm_TRIG_PER", 0x200018, 256, 8, 0, 1, .device,
     [⟨"PERIOD", 0, 32, 0x2710, .rw, .imm, .range 1 4294967295⟩]⟩,
   ⟨"CAMm_FEAT_BASE", 0x20001C, 256, 8, 0, 1, .device,
     [⟨"BASE", 0, 24, 0x0, .rwl, .imm, .any⟩]⟩,
   ⟨"CAMm_FEAT_SIZE", 0x200020, 256, 8, 0, 1, .device,
     [⟨"SIZE", 0, 16, 0x0, .rwl, .imm, .any⟩]⟩,
   ⟨"CAMm_FEAT_WR", 0x200024, 256, 8, 0, 1, .device,
     [⟨"INDEX", 0, 32, 0x0, .ro, .none, .any⟩]⟩,
   ⟨"CAMm_FEAT_RD", 0x200028, 256, 8, 0, 1, .device,
     [⟨"INDEX", 0, 32, 0x0, .rw, .imm, .any⟩]⟩,
   ⟨"CAMm_CAP_BASE", 0x20002C, 256, 8, 0, 1, .device,
     [⟨"BASE", 0, 24, 0x0, .rwl, .imm, .any⟩]⟩,
   ⟨"CAMm_CAP_SIZE", 0x200030, 256, 8, 0, 1, .device,
     [⟨"SIZE", 0, 24, 0x0, .rwl, .imm, .any⟩]⟩]

/-- Sensing and cameras (R238, R239): part 4 of the chapter's registers. -/
def regs08_4 : List RegSpec :=
  [⟨"CAMm_CAP_WR", 0x200034, 256, 8, 0, 1, .device,
     [⟨"OFS", 0, 32, 0x0, .ro, .none, .any⟩]⟩,
   ⟨"CAMm_CAP_RD", 0x200038, 256, 8, 0, 1, .device,
     [⟨"OFS", 0, 32, 0x0, .rw, .imm, .any⟩]⟩,
   ⟨"CAMm_FRAMES", 0x20003C, 256, 8, 0, 1, .device,
     [⟨"COUNT", 0, 32, 0x0, .ro, .none, .any⟩]⟩,
   ⟨"CAMm_HDR_ERR", 0x200040, 256, 8, 0, 1, .device,
     [⟨"CORR", 0, 16, 0x0, .ro, .none, .any⟩,
      ⟨"UNCORR", 16, 16, 0x0, .ro, .none, .any⟩]⟩,
   ⟨"CAMm_CRC_ERR", 0x200044, 256, 8, 0, 1, .device,
     [⟨"COUNT", 0, 32, 0x0, .ro, .none, .any⟩]⟩,
   ⟨"CAMm_DROPS", 0x200048, 256, 8, 0, 1, .device,
     [⟨"COUNT", 0, 32, 0x0, .ro, .none, .any⟩]⟩,
   ⟨"CAMm_FRAME", 0x20004C, 256, 8, 0, 1, .device,
     [⟨"W", 0, 13, 0x1000, .rwl, .imm, .range 1 4096⟩,
      ⟨"H", 16, 13, 0x1000, .rwl, .imm, .range 1 4096⟩]⟩]

/-- Hand-off (R272): part 0 of the chapter's registers. -/
def regs09_0 : List RegSpec :=
  [⟨"HND_CTRL", 0x240000, 0, 1, 0, 1, .device,
     [⟨"DEPTH", 0, 3, 0x2, .rw, .path, .range 1 4⟩,
      ⟨"NOCUT", 3, 1, 0x0, .rw, .path, .any⟩]⟩,
   ⟨"HND_STAT", 0x240004, 0, 1, 0, 1, .device,
     [⟨"OPEN", 0, 7, 0x0, .ro, .none, .any⟩,
      ⟨"FAULT_OVF", 8, 1, 0x0, .w1c, .imm, .any⟩,
      ⟨"FAULT_LOST", 9, 1, 0x0, .w1c, .imm, .any⟩,
      ⟨"UNCOV", 10, 1, 0x0, .w1c, .imm, .any⟩,
      ⟨"WAIT_EXC", 11, 1, 0x0, .w1c, .imm, .any⟩,
      ⟨"NOFIELD", 12, 1, 0x0, .w1c, .imm, .any⟩]⟩,
   ⟨"HND_BAL", 0x240008, 0, 1, 0, 1, .device,
     [⟨"MARGIN", 0, 16, 0x32, .rw, .tile, .any⟩]⟩,
   ⟨"HND_FT_VALID0", 0x240010, 0, 1, 0, 1, .device,
     [⟨"VALID", 0, 32, 0x0, .w1c, .imm, .any⟩]⟩,
   ⟨"HND_FT_VALID1", 0x240014, 0, 1, 0, 1, .device,
     [⟨"VALID", 0, 32, 0x0, .w1c, .imm, .any⟩]⟩,
   ⟨"HND_TAKEOVERS", 0x240020, 0, 1, 0, 1, .device,
     [⟨"COUNT", 0, 32, 0x0, .ro, .none, .any⟩]⟩,
   ⟨"HND_REMOTE_OUT", 0x240024, 0, 1, 0, 1, .device,
     [⟨"COUNT", 0, 32, 0x0, .ro, .none, .any⟩]⟩,
   ⟨"HND_REMOTE_IN", 0x240028, 0, 1, 0, 1, .device,
     [⟨"COUNT", 0, 32, 0x0, .ro, .none, .any⟩]⟩,
   ⟨"HND_UNCOVERED", 0x24002C, 0, 1, 0, 1, .device,
     [⟨"COUNT", 0, 32, 0x0, .ro, .none, .any⟩]⟩,
   ⟨"HND_MERGES", 0x240030, 0, 1, 0, 1, .device,
     [⟨"COUNT", 0, 32, 0x0, .ro, .none, .any⟩]⟩,
   ⟨"HND_INT_MAX", 0x240034, 0, 1, 0, 1, .device,
     [⟨"US", 0, 32, 0x0, .ro, .none, .any⟩]⟩,
   ⟨"HND_UNCOV_PATHS", 0x240038, 0, 1, 0, 1, .device,
     [⟨"COUNT", 0, 32, 0x0, .ro, .none, .any⟩]⟩]

/-- Hand-off (R272): part 1 of the chapter's registers. -/
def regs09_1 : List RegSpec :=
  [⟨"HND_Pn_STAT", 0x240100, 16, 32, 0, 1, .port,
     [⟨"STATE", 0, 3, 0x5, .ro, .none, .any⟩,
      ⟨"TAKING", 3, 1, 0x0, .ro, .none, .any⟩,
      ⟨"SHED", 4, 2, 0x0, .ro, .none, .any⟩,
      ⟨"ENTRY", 8, 6, 0x0, .ro, .none, .any⟩,
      ⟨"ENTRY_V", 14, 1, 0x0, .ro, .none, .any⟩]⟩,
   ⟨"HND_Pn_CTRL", 0x240104, 16, 32, 0, 1, .port,
     [⟨"HOLDOUT", 0, 1, 0x0, .rw, .path, .any⟩]⟩,
   ⟨"HND_Pn_DEALT", 0x240108, 16, 32, 0, 1, .port,
     [⟨"COUNT", 0, 32, 0x0, .ro, .none, .any⟩]⟩,
   ⟨"HND_Pn_TAKEN", 0x24010C, 16, 32, 0, 1, .port,
     [⟨"COUNT", 0, 32, 0x0, .ro, .none, .any⟩]⟩,
   ⟨"HND_FTk_INFO", 0x241000, 32, 64, 0, 1, .device,
     [⟨"CLASS", 0, 4, 0x0, .ro, .none, .any⟩,
      ⟨"SEV", 4, 3, 0x0, .ro, .none, .any⟩,
      ⟨"RESOLVED", 7, 1, 0x0, .ro, .none, .any⟩,
      ⟨"PORT", 8, 5, 0x0, .ro, .none, .any⟩,
      ⟨"DEVICE", 13, 1, 0x0, .ro, .none, .any⟩,
      ⟨"COVERED", 16, 1, 0x0, .ro, .none, .any⟩,
      ⟨"UNCOVERED", 17, 1, 0x0, .ro, .none, .any⟩,
      ⟨"RETIRED", 18, 1, 0x0, .ro, .none, .any⟩,
      ⟨"REMOTE", 19, 1, 0x0, .ro, .none, .any⟩,
      ⟨"COUNT", 24, 8, 0x0, .ro, .none, .any⟩]⟩,
   ⟨"HND_FTk_CAUSE", 0x241004, 32, 64, 0, 1, .device,
     [⟨"CAUSE", 0, 16, 0x0, .ro, .none, .any⟩]⟩,
   ⟨"HND_FTk_TAKE", 0x24101C, 32, 64, 0, 1, .device,
     [⟨"NODE", 0, 8, 0x0, .ro, .none, .any⟩,
      ⟨"CPORT", 8, 5, 0x0, .ro, .none, .any⟩,
      ⟨"CVALID", 13, 1, 0x0, .ro, .none, .any⟩,
      ⟨"INTERVAL", 16, 16, 0x0, .ro, .none, .any⟩]⟩,
   ⟨"HND_FTk_PORTS", 0x241008, 32, 64, 0, 1, .device,
     [⟨"PORTS", 0, 32, 0x0, .ro, .none, .any⟩]⟩,
   ⟨"HND_FTk_ONSET", 0x24100C, 32, 64, 0, 1, .device,
     [⟨"TICK", 0, 32, 0x0, .ro, .none, .any⟩]⟩,
   ⟨"HND_FTk_TIME_LO", 0x241010, 32, 64, 0, 1, .device,
     [⟨"NS", 0, 32, 0x0, .ro, .none, .any⟩]⟩,
   ⟨"HND_FTk_TIME_HI", 0x241014, 32, 64, 0, 1, .device,
     [⟨"NS", 0, 32, 0x0, .ro, .none, .any⟩]⟩,
   ⟨"HND_FTk_RESUME", 0x241018, 32, 64, 0, 1, .device,
     [⟨"SEG", 0, 24, 0x0, .ro, .none, .any⟩]⟩]

/-- Encoders, compare units, axes (R293 to R295): part 0 of the chapter's registers. -/
def regs10_0 : List RegSpec :=
  [⟨"QEe_CTRL", 0x2E0000, 64, 8, 0, 1, .device,
     [⟨"FILT", 0, 2, 0x1, .rw, .imm, .any⟩,
      ⟨"ZHOME", 2, 1, 0x0, .rw, .imm, .any⟩,
      ⟨"PRESET", 3, 1, 0x0, .w1s, .imm, .any⟩,
      ⟨"REARM", 4, 1, 0x0, .w1s, .imm, .any⟩]⟩,
   ⟨"QEe_STAT", 0x2E0004, 64, 8, 0, 1, .device,
     [⟨"DIR", 0, 1, 0x0, .ro, .none, .any⟩,
      ⟨"MOVING", 1, 1, 0x0, .ro, .none, .any⟩,
      ⟨"PVALID", 2, 1, 0x0, .ro, .none, .any⟩,
      ⟨"ZSEEN", 3, 1, 0x0, .w1c, .imm, .any⟩]⟩,
   ⟨"QEe_ERR", 0x2E0008, 64, 8, 0, 1, .device,
     [⟨"ILLEGAL", 0, 1, 0x0, .w1c, .imm, .any⟩,
      ⟨"LINE", 1, 1, 0x0, .w1c, .imm, .any⟩,
      ⟨"LOST", 2, 1, 0x0, .ro, .none, .any⟩,
      ⟨"LINE_NOW", 3, 1, 0x0, .ro, .none, .any⟩]⟩,
   ⟨"QEe_COUNT", 0x2E000C, 64, 8, 0, 1, .device,
     [⟨"COUNT", 0, 32, 0x0, .ro, .none, .any⟩]⟩,
   ⟨"QEe_PRESET", 0x2E0010, 64, 8, 0, 1, .device,
     [⟨"VAL", 0, 32, 0x0, .rw, .imm, .any⟩]⟩,
   ⟨"QEe_ZLATCH", 0x2E0014, 64, 8, 0, 1, .device,
     [⟨"COUNT", 0, 32, 0x0, .ro, .none, .any⟩]⟩,
   ⟨"QEe_PERIOD", 0x2E0018, 64, 8, 0, 1, .device,
     [⟨"SAMPLES", 0, 24, 0x0, .ro, .none, .any⟩]⟩,
   ⟨"QEe_VEL", 0x2E001C, 64, 8, 0, 1, .device,
     [⟨"VAL", 0, 32, 0x0, .ro, .none, .any⟩]⟩,
   ⟨"QEe_ILLEGAL", 0x2E0020, 64, 8, 0, 1, .device,
     [⟨"COUNT", 0, 32, 0x0, .ro, .none, .any⟩]⟩,
   ⟨"QEe_LOSSES", 0x2E0024, 64, 8, 0, 1, .device,
     [⟨"COUNT", 0, 32, 0x0, .ro, .none, .any⟩]⟩,
   ⟨"QE_CMPk_CTRL", 0x2E0400, 64, 8, 0, 1, .device,
     [⟨"SRC", 0, 3, 0x0, .rwl, .imm, .any⟩,
      ⟨"DIR", 3, 2, 0x0, .rwl, .imm, .le 2⟩,
      ⟨"CATCHUP", 5, 1, 0x0, .rw, .imm, .any⟩,
      ⟨"ARM", 6, 1, 0x0, .rw, .imm, .any⟩,
      ⟨"PW", 8, 8, 0xA, .rw, .imm, .any⟩]⟩,
   ⟨"QE_CMPk_STAT", 0x2E0404, 64, 8, 0, 1, .device,
     [⟨"ARMED", 0, 1, 0x0, .ro, .none, .any⟩,
      ⟨"CMP_BEHIND", 1, 1, 0x0, .w1c, .imm, .any⟩,
      ⟨"SRC_LOST", 2, 1, 0x0, .ro, .none, .any⟩,
      ⟨"DONE", 3, 1, 0x0, .w1c, .imm, .any⟩]⟩]

/-- Encoders, compare units, axes (R293 to R295): part 1 of the chapter's registers. -/
def regs10_1 : List RegSpec :=
  [⟨"QE_CMPk_VAL", 0x2E0408, 64, 8, 0, 1, .device,
     [⟨"VAL", 0, 32, 0x0, .rw, .imm, .any⟩]⟩,
   ⟨"QE_CMPk_SPACE", 0x2E040C, 64, 8, 0, 1, .device,
     [⟨"SPACE", 0, 31, 0x0, .rw, .imm, .any⟩]⟩,
   ⟨"QE_CMPk_CNT", 0x2E0410, 64, 8, 0, 1, .device,
     [⟨"CNT", 0, 32, 0x0, .rw, .imm, .any⟩]⟩,
   ⟨"QE_CMPk_HITS", 0x2E0414, 64, 8, 0, 1, .device,
     [⟨"COUNT", 0, 32, 0x0, .ro, .none, .any⟩]⟩,
   ⟨"QE_CMPk_SKIP", 0x2E0418, 64, 8, 0, 1, .device,
     [⟨"COUNT", 0, 32, 0x0, .ro, .none, .any⟩]⟩,
   ⟨"QE_CMPk_HIT_TICK", 0x2E041C, 64, 8, 0, 1, .device,
     [⟨"TICK", 0, 32, 0x0, .ro, .none, .any⟩]⟩,
   ⟨"AXSa_CTRL", 0x2E0800, 128, 4, 0, 1, .device,
     [⟨"EN", 0, 1, 0x0, .rw, .imm, .any⟩,
      ⟨"GO", 1, 1, 0x0, .w1s, .imm, .any⟩,
      ⟨"STOP", 2, 1, 0x0, .w1s, .imm, .any⟩,
      ⟨"BNDGO", 3, 1, 0x0, .w1s, .imm, .any⟩]⟩,
   ⟨"AXSa_STAT", 0x2E0804, 128, 4, 0, 1, .device,
     [⟨"STATE", 0, 2, 0x0, .ro, .none, .any⟩,
      ⟨"SAT", 2, 1, 0x0, .ro, .none, .any⟩,
      ⟨"BNDARM", 3, 1, 0x0, .ro, .none, .any⟩,
      ⟨"FE_EXC", 4, 1, 0x0, .w1c, .imm, .any⟩,
      ⟨"ENC_LOST", 5, 1, 0x0, .w1c, .imm, .any⟩,
      ⟨"NUMERIC", 6, 1, 0x0, .w1c, .imm, .any⟩]⟩,
   ⟨"AXSa_TGT", 0x2E0808, 128, 4, 0, 1, .device,
     [⟨"POS", 0, 32, 0x0, .rw, .imm, .any⟩]⟩,
   ⟨"AXSa_VMAX", 0x2E080C, 128, 4, 0, 1, .device,
     [⟨"VAL", 0, 32, 0x447A0000, .rw, .imm, .f32 .pos⟩]⟩,
   ⟨"AXSa_AMAX", 0x2E0810, 128, 4, 0, 1, .device,
     [⟨"VAL", 0, 32, 0x461C4000, .rw, .imm, .f32 .pos⟩]⟩,
   ⟨"AXSa_KP", 0x2E0814, 128, 4, 0, 1, .device,
     [⟨"VAL", 0, 32, 0x0, .rw, .imm, .f32 .any⟩]⟩]

/-- Encoders, compare units, axes (R293 to R295): part 2 of the chapter's registers. -/
def regs10_2 : List RegSpec :=
  [⟨"AXSa_KI", 0x2E0818, 128, 4, 0, 1, .device,
     [⟨"VAL", 0, 32, 0x0, .rw, .imm, .f32 .any⟩]⟩,
   ⟨"AXSa_KD", 0x2E081C, 128, 4, 0, 1, .device,
     [⟨"VAL", 0, 32, 0x0, .rw, .imm, .f32 .any⟩]⟩,
   ⟨"AXSa_KVFF", 0x2E0820, 128, 4, 0, 1, .device,
     [⟨"VAL", 0, 32, 0x0, .rw, .imm, .f32 .any⟩]⟩,
   ⟨"AXSa_KAFF", 0x2E0824, 128, 4, 0, 1, .device,
     [⟨"VAL", 0, 32, 0x0, .rw, .imm, .f32 .any⟩]⟩,
   ⟨"AXSa_ILIM", 0x2E0828, 128, 4, 0, 1, .device,
     [⟨"VAL", 0, 32, 0x0, .rw, .imm, .f32 .zeroOne⟩]⟩,
   ⟨"AXSa_FE_LIM", 0x2E082C, 128, 4, 0, 1, .device,
     [⟨"LIM", 0, 24, 0x0, .rw, .imm, .any⟩]⟩,
   ⟨"AXSa_RATE", 0x2E0830, 128, 4, 0, 1, .device,
     [⟨"TICKS", 0, 10, 0x19, .rwl, .imm, .range 10 1000⟩]⟩,
   ⟨"AXSa_PITCH", 0x2E0834, 128, 4, 0, 1, .device,
     [⟨"PITCH", 0, 24, 0x0, .rwl, .imm, .any⟩]⟩,
   ⟨"AXSa_COG_ORG", 0x2E0838, 128, 4, 0, 1, .device,
     [⟨"POS", 0, 32, 0x0, .rwl, .imm, .any⟩]⟩,
   ⟨"AXSa_VSTEP", 0x2E083C, 128, 4, 0, 1, .device,
     [⟨"VAL", 0, 32, 0x447A0000, .rwl, .imm, .f32 .pos⟩]⟩,
   ⟨"AXSa_REF", 0x2E0840, 128, 4, 0, 1, .device,
     [⟨"POS", 0, 32, 0x0, .ro, .none, .any⟩]⟩,
   ⟨"AXSa_OUT", 0x2E0844, 128, 4, 0, 1, .device,
     [⟨"CODE", 0, 16, 0x0, .ro, .none, .any⟩]⟩]

/-- Encoders, compare units, axes (R293 to R295): part 3 of the chapter's registers. -/
def regs10_3 : List RegSpec :=
  [⟨"AXSa_FE", 0x2E0848, 128, 4, 0, 1, .device,
     [⟨"ERR", 0, 32, 0x0, .ro, .none, .any⟩]⟩,
   ⟨"AXSa_TABLE_ID", 0x2E084C, 128, 4, 0, 1, .device,
     [⟨"TABLE_ID", 0, 32, 0x0, .ro, .none, .any⟩]⟩]

/-- Gorwin Link and PTP (R316, R317): part 0 of the chapter's registers. -/
def regs11_0 : List RegSpec :=
  [⟨"GLK_CTRL", 0x280000, 0, 1, 0, 1, .device,
     [⟨"PORT_EN", 0, 4, 0xF, .rw, .imm, .any⟩,
      ⟨"ROOT_EN", 4, 1, 0x1, .rw, .imm, .any⟩,
      ⟨"DIGEST_SEV", 5, 3, 0x3, .rw, .imm, .range 1 5⟩]⟩,
   ⟨"GLK_STAT", 0x280004, 0, 1, 0, 1, .device,
     [⟨"ROLE", 0, 2, 0x0, .ro, .none, .any⟩,
      ⟨"ROOT", 2, 6, 0x0, .ro, .none, .any⟩,
      ⟨"HOPS", 8, 6, 0x0, .ro, .none, .any⟩,
      ⟨"SPLIT", 14, 1, 0x0, .w1c, .imm, .any⟩,
      ⟨"TICK_MISMATCH", 15, 1, 0x0, .w1c, .imm, .any⟩,
      ⟨"NODE_CONFLICT", 16, 1, 0x0, .w1c, .imm, .any⟩,
      ⟨"ROUTE_CHG", 17, 1, 0x0, .w1c, .imm, .any⟩]⟩,
   ⟨"GLKp_STAT", 0x280100, 64, 4, 0, 1, .device,
     [⟨"STATE", 0, 3, 0x0, .ro, .none, .any⟩,
      ⟨"UPSTREAM", 3, 1, 0x0, .ro, .none, .any⟩,
      ⟨"NBR_NODE", 4, 6, 0x0, .ro, .none, .any⟩,
      ⟨"NBR_PORT", 10, 2, 0x0, .ro, .none, .any⟩,
      ⟨"NBR_VALID", 12, 1, 0x0, .ro, .none, .any⟩,
      ⟨"LOST", 13, 1, 0x0, .w1c, .imm, .any⟩]⟩,
   ⟨"GLK_NODE", 0x280008, 0, 1, 0, 1, .device,
     [⟨"NODE", 0, 6, 0x0, .ro, .none, .any⟩]⟩,
   ⟨"GLK_REACH0", 0x280010, 0, 1, 0, 1, .device,
     [⟨"NODES", 0, 32, 0x0, .ro, .none, .any⟩]⟩,
   ⟨"GLK_REACH1", 0x280014, 0, 1, 0, 1, .device,
     [⟨"NODES", 0, 32, 0x0, .ro, .none, .any⟩]⟩,
   ⟨"GLK_DOMAIN0", 0x280018, 0, 1, 0, 1, .device,
     [⟨"NODES", 0, 32, 0x0, .ro, .none, .any⟩]⟩,
   ⟨"GLK_DOMAIN1", 0x28001C, 0, 1, 0, 1, .device,
     [⟨"NODES", 0, 32, 0x0, .ro, .none, .any⟩]⟩,
   ⟨"GLK_PHASE", 0x280020, 0, 1, 0, 1, .device,
     [⟨"ERR", 0, 32, 0x0, .ro, .none, .any⟩]⟩,
   ⟨"GLK_DIGEST_TX", 0x280024, 0, 1, 0, 1, .device,
     [⟨"COUNT", 0, 32, 0x0, .ro, .none, .any⟩]⟩,
   ⟨"GLK_DIGEST_RX", 0x280028, 0, 1, 0, 1, .device,
     [⟨"COUNT", 0, 32, 0x0, .ro, .none, .any⟩]⟩,
   ⟨"GLK_DIGEST_LOST", 0x28002C, 0, 1, 0, 1, .device,
     [⟨"COUNT", 0, 32, 0x0, .ro, .none, .any⟩]⟩]

/-- Gorwin Link and PTP (R316, R317): part 1 of the chapter's registers. -/
def regs11_1 : List RegSpec :=
  [⟨"GLK_REROUTES", 0x280030, 0, 1, 0, 1, .device,
     [⟨"COUNT", 0, 32, 0x0, .ro, .none, .any⟩]⟩,
   ⟨"GLKp_DELAY", 0x280104, 64, 4, 0, 1, .device,
     [⟨"DELAY", 0, 24, 0x0, .ro, .none, .any⟩]⟩,
   ⟨"GLKp_ASYM", 0x280108, 64, 4, 0, 1, .device,
     [⟨"ASYM", 0, 16, 0x0, .rw, .imm, .any⟩]⟩,
   ⟨"GLKp_BLK_ERR", 0x28010C, 64, 4, 0, 1, .device,
     [⟨"COUNT", 0, 32, 0x0, .ro, .none, .any⟩]⟩,
   ⟨"GLKp_CRC_ERR", 0x280110, 64, 4, 0, 1, .device,
     [⟨"COUNT", 0, 32, 0x0, .ro, .none, .any⟩]⟩,
   ⟨"GLKp_DROPS", 0x280114, 64, 4, 0, 1, .device,
     [⟨"COUNT", 0, 32, 0x0, .ro, .none, .any⟩]⟩,
   ⟨"GLKp_LOSSES", 0x280118, 64, 4, 0, 1, .device,
     [⟨"COUNT", 0, 32, 0x0, .ro, .none, .any⟩]⟩,
   ⟨"PTP_CTRL", 0x2A0000, 0, 1, 0, 1, .device,
     [⟨"EN", 0, 1, 0x0, .rw, .imm, .any⟩,
      ⟨"COMPAT", 1, 1, 0x0, .rw, .imm, .any⟩,
      ⟨"BC", 2, 1, 0x0, .rwl, .imm, .any⟩,
      ⟨"ONESTEP", 3, 1, 0x0, .rwl, .imm, .any⟩,
      ⟨"P2P", 4, 1, 0x0, .rwl, .imm, .any⟩,
      ⟨"TRANSPORT", 5, 2, 0x0, .rwl, .imm, .le 2⟩,
      ⟨"SLAVE_ONLY", 7, 1, 0x0, .rwl, .imm, .any⟩,
      ⟨"ACCEPT", 8, 1, 0x0, .w1s, .imm, .any⟩]⟩,
   ⟨"PTP_STAT", 0x2A0004, 0, 1, 0, 1, .device,
     [⟨"STATE", 0, 3, 0x0, .ro, .none, .any⟩,
      ⟨"TIME_VALID", 3, 1, 0x0, .ro, .none, .any⟩,
      ⟨"JUMP_REFUSED", 4, 1, 0x0, .w1c, .imm, .any⟩,
      ⟨"MASTER_LOST", 5, 1, 0x0, .w1c, .imm, .any⟩,
      ⟨"STEPPED", 6, 1, 0x0, .w1c, .imm, .any⟩,
      ⟨"PHASE_SLEW", 7, 1, 0x0, .ro, .none, .any⟩]⟩,
   ⟨"PTP_INTV", 0x2A000C, 0, 1, 0, 1, .device,
     [⟨"SYNC_LOG", 0, 4, 0xD, .rwl, .imm, .signed 4 7 1⟩,
      ⟨"ANN_LOG", 4, 4, 0x1, .rwl, .imm, .signed 4 3 3⟩,
      ⟨"PDELAY_LOG", 8, 4, 0x0, .rwl, .imm, .signed 4 7 1⟩,
      ⟨"ANN_TIMEOUT", 12, 4, 0x3, .rwl, .imm, .range 2 15⟩]⟩,
   ⟨"PTP_DOMAIN", 0x2A0008, 0, 1, 0, 1, .device,
     [⟨"DOMAIN", 0, 8, 0x0, .rwl, .imm, .le 127⟩,
      ⟨"PRIO1", 8, 8, 0x80, .rwl, .imm, .any⟩,
      ⟨"PRIO2", 16, 8, 0x80, .rwl, .imm, .any⟩,
      ⟨"CLASS", 24, 8, 0xF8, .rwl, .imm, .any⟩]⟩,
   ⟨"PTP_STEP_THR", 0x2A0010, 0, 1, 0, 1, .device,
     [⟨"NS", 0, 32, 0x3E8, .rw, .imm, .any⟩]⟩]

/-- Gorwin Link and PTP (R316, R317): part 2 of the chapter's registers. -/
def regs11_2 : List RegSpec :=
  [⟨"PTP_OFS_LO", 0x2A0014, 0, 1, 0, 1, .device,
     [⟨"NS", 0, 32, 0x0, .ro, .none, .any⟩]⟩,
   ⟨"PTP_OFS_HI", 0x2A0018, 0, 1, 0, 1, .device,
     [⟨"NS", 0, 32, 0x0, .ro, .none, .any⟩]⟩,
   ⟨"PTP_FREQ", 0x2A001C, 0, 1, 0, 1, .device,
     [⟨"VAL", 0, 32, 0x0, .ro, .none, .any⟩]⟩,
   ⟨"PTP_KP", 0x2A0020, 0, 1, 0, 1, .device,
     [⟨"VAL", 0, 32, 0x3F333333, .rw, .imm, .f32 .any⟩]⟩,
   ⟨"PTP_KI", 0x2A0024, 0, 1, 0, 1, .device,
     [⟨"VAL", 0, 32, 0x3D4CCCCD, .rw, .imm, .f32 .any⟩]⟩,
   ⟨"PTP_SLEW_MAX", 0x2A0028, 0, 1, 0, 1, .device,
     [⟨"PPB", 0, 16, 0xC350, .rw, .imm, .any⟩]⟩,
   ⟨"PTP_SNAP", 0x2A0030, 0, 1, 0, 1, .device,
     [⟨"SNAP", 0, 1, 0x0, .w1s, .imm, .any⟩]⟩,
   ⟨"PTP_SNAP_SEC_LO", 0x2A0034, 0, 1, 0, 1, .device,
     [⟨"SEC", 0, 32, 0x0, .ro, .none, .any⟩]⟩,
   ⟨"PTP_SNAP_SEC_HI", 0x2A0038, 0, 1, 0, 1, .device,
     [⟨"SEC", 0, 16, 0x0, .ro, .none, .any⟩]⟩,
   ⟨"PTP_SNAP_NS", 0x2A003C, 0, 1, 0, 1, .device,
     [⟨"NS", 0, 32, 0x0, .ro, .none, .any⟩]⟩,
   ⟨"PTP_SNAP_TICK", 0x2A0040, 0, 1, 0, 1, .device,
     [⟨"TICK", 0, 32, 0x0, .ro, .none, .any⟩]⟩,
   ⟨"PTP_SNAP_INT_LO", 0x2A0044, 0, 1, 0, 1, .device,
     [⟨"NS", 0, 32, 0x0, .ro, .none, .any⟩]⟩]

/-- Gorwin Link and PTP (R316, R317): part 3 of the chapter's registers. -/
def regs11_3 : List RegSpec :=
  [⟨"PTP_SNAP_INT_HI", 0x2A0048, 0, 1, 0, 1, .device,
     [⟨"NS", 0, 32, 0x0, .ro, .none, .any⟩]⟩,
   ⟨"PTP_GM_LO", 0x2A0050, 0, 1, 0, 1, .device,
     [⟨"ID", 0, 32, 0x0, .ro, .none, .any⟩]⟩,
   ⟨"PTP_GM_HI", 0x2A0054, 0, 1, 0, 1, .device,
     [⟨"ID", 0, 32, 0x0, .ro, .none, .any⟩]⟩,
   ⟨"PTPp_CFG", 0x2A0100, 64, 2, 0, 1, .device,
     [⟨"SPEED", 0, 1, 0x0, .rwl, .imm, .any⟩,
      ⟨"PEN", 1, 1, 0x1, .rwl, .imm, .any⟩]⟩,
   ⟨"PTPp_STAT", 0x2A0104, 64, 2, 0, 1, .device,
     [⟨"PSTATE", 0, 4, 0x0, .ro, .none, .any⟩,
      ⟨"LINK", 4, 1, 0x0, .ro, .none, .any⟩]⟩,
   ⟨"PTPp_ING_LAT", 0x2A0108, 64, 2, 0, 1, .device,
     [⟨"LAT", 0, 20, 0x0, .rw, .imm, .any⟩]⟩,
   ⟨"PTPp_EGR_LAT", 0x2A010C, 64, 2, 0, 1, .device,
     [⟨"LAT", 0, 20, 0x0, .rw, .imm, .any⟩]⟩,
   ⟨"PTPp_ASYM", 0x2A0110, 64, 2, 0, 1, .device,
     [⟨"ASYM", 0, 32, 0x0, .rw, .imm, .any⟩]⟩,
   ⟨"PTPp_MPD", 0x2A0114, 64, 2, 0, 1, .device,
     [⟨"MPD", 0, 32, 0x0, .ro, .none, .any⟩]⟩,
   ⟨"PTPp_RX_OTHER", 0x2A0118, 64, 2, 0, 1, .device,
     [⟨"COUNT", 0, 32, 0x0, .ro, .none, .any⟩]⟩]

/-- DRAM (R338): part 0 of the chapter's registers. -/
def regs12_0 : List RegSpec :=
  [⟨"DDR_CTRL", 0x2C0000, 0, 1, 0, 1, .device,
     [⟨"SR_EN", 0, 1, 0x1, .rw, .imm, .any⟩,
      ⟨"PD_EN", 1, 1, 0x1, .rw, .imm, .any⟩,
      ⟨"FIXED", 2, 1, 0x0, .rwl, .imm, .any⟩,
      ⟨"RT_PERIOD", 8, 8, 0x64, .rw, .imm, .range 10 255⟩]⟩,
   ⟨"DDR_STAT", 0x2C0004, 0, 1, 0, 1, .device,
     [⟨"MIRROR", 0, 1, 0x0, .ro, .none, .any⟩,
      ⟨"CE", 1, 1, 0x0, .w1c, .imm, .any⟩,
      ⟨"UE", 2, 1, 0x0, .w1c, .imm, .any⟩,
      ⟨"LOST", 3, 1, 0x0, .w1c, .imm, .any⟩,
      ⟨"DRIFT", 4, 1, 0x0, .w1c, .imm, .any⟩,
      ⟨"RT_LATE", 5, 1, 0x0, .w1c, .imm, .any⟩,
      ⟨"SRAM_UE", 6, 1, 0x0, .w1c, .imm, .any⟩]⟩,
   ⟨"DDR_MIRROR", 0x2C0008, 0, 1, 0, 1, .device,
     [⟨"SIZE", 0, 6, 0x0, .rwl, .imm, .any⟩]⟩,
   ⟨"DDR_CHc_STAT", 0x2C0100, 64, 2, 0, 1, .device,
     [⟨"STATE", 0, 3, 0x0, .ro, .none, .any⟩,
      ⟨"SPEED", 3, 3, 0x0, .ro, .none, .any⟩,
      ⟨"RDIMM", 6, 1, 0x0, .ro, .none, .any⟩,
      ⟨"WIDTH", 7, 1, 0x0, .ro, .none, .any⟩,
      ⟨"RANKS", 8, 1, 0x0, .ro, .none, .any⟩,
      ⟨"CAP", 9, 6, 0x0, .ro, .none, .any⟩]⟩,
   ⟨"DDR_SR_IDLE", 0x2C000C, 0, 1, 0, 1, .device,
     [⟨"US", 0, 16, 0x3E8, .rw, .imm, .any⟩]⟩,
   ⟨"DDR_SCRUB_PASS", 0x2C0010, 0, 1, 0, 1, .device,
     [⟨"COUNT", 0, 32, 0x0, .ro, .none, .any⟩]⟩,
   ⟨"DDR_SRAM_CE", 0x2C0014, 0, 1, 0, 1, .device,
     [⟨"COUNT", 0, 32, 0x0, .ro, .none, .any⟩]⟩,
   ⟨"DDR_SRAM_UE", 0x2C0018, 0, 1, 0, 1, .device,
     [⟨"COUNT", 0, 32, 0x0, .ro, .none, .any⟩]⟩,
   ⟨"DDR_SRAM_UE_ADDR", 0x2C001C, 0, 1, 0, 1, .device,
     [⟨"ADDR", 0, 24, 0x0, .ro, .none, .any⟩]⟩,
   ⟨"DDR_CHc_CE", 0x2C0104, 64, 2, 0, 1, .device,
     [⟨"COUNT", 0, 32, 0x0, .ro, .none, .any⟩]⟩,
   ⟨"DDR_CHc_UE", 0x2C0108, 64, 2, 0, 1, .device,
     [⟨"COUNT", 0, 32, 0x0, .ro, .none, .any⟩]⟩,
   ⟨"DDR_CHc_UE_ADDR_LO", 0x2C010C, 64, 2, 0, 1, .device,
     [⟨"ADDR", 0, 32, 0x0, .ro, .none, .any⟩]⟩]

/-- DRAM (R338): part 1 of the chapter's registers. -/
def regs12_1 : List RegSpec :=
  [⟨"DDR_CHc_UE_ADDR_HI", 0x2C0110, 64, 2, 0, 1, .device,
     [⟨"ADDR", 0, 32, 0x0, .ro, .none, .any⟩]⟩,
   ⟨"DDR_CHc_RT_STEPS", 0x2C0114, 64, 2, 0, 1, .device,
     [⟨"COUNT", 0, 32, 0x0, .ro, .none, .any⟩]⟩,
   ⟨"DDR_CHc_RT_DEFER", 0x2C0118, 64, 2, 0, 1, .device,
     [⟨"COUNT", 0, 32, 0x0, .ro, .none, .any⟩]⟩,
   ⟨"DDR_CHc_LOST_WR", 0x2C011C, 64, 2, 0, 1, .device,
     [⟨"COUNT", 0, 32, 0x0, .ro, .none, .any⟩]⟩,
   ⟨"DDR_CHc_SR_ENTRIES", 0x2C0120, 64, 2, 0, 1, .device,
     [⟨"COUNT", 0, 32, 0x0, .ro, .none, .any⟩]⟩]

/-- Thermal (R354): part 0 of the chapter's registers. -/
def regs13_0 : List RegSpec :=
  [⟨"THM_STAT", 0x300000, 0, 1, 0, 1, .device,
     [⟨"WARN", 0, 1, 0x0, .w1c, .imm, .any⟩,
      ⟨"THROTTLE", 1, 1, 0x0, .w1c, .imm, .any⟩,
      ⟨"SHUTDOWN", 2, 1, 0x0, .w1c, .imm, .any⟩,
      ⟨"SFAIL", 3, 1, 0x0, .w1c, .imm, .any⟩,
      ⟨"BLIND", 4, 1, 0x0, .w1c, .imm, .any⟩,
      ⟨"DIE_HOT", 5, 1, 0x0, .ro, .none, .any⟩,
      ⟨"DIE_SD", 6, 1, 0x0, .ro, .none, .any⟩]⟩,
   ⟨"THM_DIE", 0x300004, 0, 1, 0, 1, .device,
     [⟨"CTRL_T", 0, 16, 0x0, .ro, .none, .any⟩,
      ⟨"EDGE_T", 16, 16, 0x0, .ro, .none, .any⟩]⟩,
   ⟨"THM_SHUTDOWNS", 0x300008, 0, 1, 0, 1, .device,
     [⟨"COUNT", 0, 32, 0x0, .ro, .none, .any⟩]⟩,
   ⟨"THM_INt_VAL", 0x300100, 32, 80, 0, 1, .tin,
     [⟨"TEMP", 0, 16, 0x0, .ro, .none, .any⟩,
      ⟨"LEVEL", 16, 2, 0x0, .ro, .none, .any⟩,
      ⟨"VALID", 18, 1, 0x0, .ro, .none, .any⟩,
      ⟨"FAILED", 19, 1, 0x0, .ro, .none, .any⟩,
      ⟨"FCAUSE", 20, 3, 0x0, .ro, .none, .any⟩]⟩,
   ⟨"THM_INt_WT", 0x300104, 32, 80, 0, 1, .tin,
     [⟨"WARN", 0, 16, 0x3C0, .rw, .imm, .any⟩,
      ⟨"THROTTLE", 16, 16, 0x460, .rw, .imm, .any⟩]⟩,
   ⟨"THM_INt_SD", 0x300108, 32, 80, 0, 1, .tin,
     [⟨"SHUTDOWN", 0, 16, 0x500, .rw, .imm, .any⟩]⟩,
   ⟨"THM_INt_HYS", 0x30010C, 32, 80, 0, 1, .tin,
     [⟨"WARN_HYS", 0, 8, 0x20, .rw, .imm, .any⟩,
      ⟨"THR_HYS", 8, 8, 0x20, .rw, .imm, .any⟩,
      ⟨"SD_HYS", 16, 8, 0x20, .rw, .imm, .any⟩]⟩,
   ⟨"THM_INt_P1", 0x300110, 32, 80, 0, 1, .tin,
     [⟨"VAL", 0, 32, 0x0, .rw, .imm, .f32 .any⟩]⟩,
   ⟨"THM_INt_P2", 0x300114, 32, 80, 0, 1, .tin,
     [⟨"VAL", 0, 32, 0x0, .rw, .imm, .f32 .any⟩]⟩,
   ⟨"THM_INt_FAILS", 0x300118, 32, 80, 0, 1, .tin,
     [⟨"COUNT", 0, 32, 0x0, .ro, .none, .any⟩]⟩,
   ⟨"THM_Pn_STAT", 0x300C00, 16, 32, 0, 1, .port,
     [⟨"LEVEL", 0, 2, 0x0, .ro, .none, .any⟩,
      ⟨"SINGLE", 2, 1, 0x0, .ro, .none, .any⟩,
      ⟨"BLIND", 3, 1, 0x0, .ro, .none, .any⟩,
      ⟨"LATCH", 4, 1, 0x0, .ro, .none, .any⟩,
      ⟨"REENTRY", 5, 1, 0x0, .ro, .none, .any⟩,
      ⟨"BLIND_S", 16, 6, 0x0, .ro, .none, .any⟩]⟩,
   ⟨"THM_Pn_CFG", 0x300C04, 16, 32, 0, 1, .port,
     [⟨"STEP", 0, 8, 0x5, .rw, .imm, .any⟩]⟩]

/-- Lighting (R364): part 0 of the chapter's registers. -/
def regs14_0 : List RegSpec :=
  [⟨"LED_CTRL", 0x310000, 0, 1, 0, 1, .device,
     [⟨"EN", 0, 1, 0x0, .rw, .imm, .any⟩,
      ⟨"APPLY", 1, 1, 0x0, .w1s, .imm, .any⟩]⟩,
   ⟨"LED_STAT", 0x310004, 0, 1, 0, 1, .device,
     [⟨"RUN", 0, 1, 0x0, .ro, .none, .any⟩,
      ⟨"PEND", 1, 1, 0x0, .ro, .none, .any⟩,
      ⟨"FITTED", 2, 1, 0x0, .ro, .none, .any⟩,
      ⟨"COMP_STALE", 3, 1, 0x0, .ro, .none, .any⟩]⟩,
   ⟨"LED_SYNC", 0x31000C, 0, 1, 0, 1, .device,
     [⟨"DIV", 0, 8, 0x1, .rw, .imm, .any⟩,
      ⟨"DELAY", 8, 9, 0x0, .rw, .imm, .le 499⟩,
      ⟨"RECOAT", 17, 1, 0x0, .rw, .imm, .any⟩]⟩,
   ⟨"LED_FRAME", 0x310008, 0, 1, 0, 1, .device,
     [⟨"COUNT", 0, 16, 0x0, .ro, .none, .any⟩,
      ⟨"APPLIED", 16, 16, 0x0, .ro, .none, .any⟩]⟩,
   ⟨"LED_TEMP", 0x310010, 0, 1, 0, 1, .device,
     [⟨"TEMP", 0, 16, 0x0, .ro, .none, .any⟩]⟩,
   ⟨"LED_COL_FLT", 0x310014, 0, 1, 0, 1, .device,
     [⟨"COLS", 0, 24, 0x0, .w1c, .imm, .any⟩]⟩,
   ⟨"LED_LINE_FLT", 0x310018, 0, 1, 0, 1, .device,
     [⟨"LINES", 0, 16, 0x0, .w1c, .imm, .any⟩]⟩,
   ⟨"LED_COMPg_k", 0x310400, 64, 4, 4, 16, .device,
     [⟨"VAL", 0, 32, 0x3F800000, .rw, .imm, .f32 .halfTwo⟩]⟩,
   ⟨"LED_INTl_c", 0x311000, 128, 16, 4, 24, .device,
     [⟨"INT", 0, 10, 0x0, .rw, .imm, .any⟩]⟩]

/-- Self-test, recorder, telemetry (R391 to R393): part 0 of the chapter's registers. -/
def regs15_0 : List RegSpec :=
  [⟨"BIST_CTRL", 0x320000, 0, 1, 0, 1, .device,
     [⟨"DEN", 0, 1, 0x1, .rw, .imm, .any⟩,
      ⟨"AEN", 1, 1, 0x1, .rw, .imm, .any⟩]⟩,
   ⟨"BIST_STAT", 0x320004, 0, 1, 0, 1, .device,
     [⟨"DRUN", 0, 1, 0x0, .ro, .none, .any⟩,
      ⟨"ARUN", 1, 1, 0x0, .ro, .none, .any⟩,
      ⟨"FAIL", 2, 1, 0x0, .w1c, .imm, .any⟩,
      ⟨"INCOMP", 3, 1, 0x0, .w1c, .imm, .any⟩,
      ⟨"SKIP", 4, 1, 0x0, .w1c, .imm, .any⟩,
      ⟨"AFAIL", 5, 1, 0x0, .w1c, .imm, .any⟩]⟩,
   ⟨"BIST_LAST", 0x320008, 0, 1, 0, 1, .device,
     [⟨"TYPE", 0, 4, 0x0, .ro, .none, .any⟩,
      ⟨"TARGET", 4, 7, 0x0, .ro, .none, .any⟩,
      ⟨"RESULT", 12, 2, 0x0, .ro, .none, .any⟩]⟩,
   ⟨"BIST_PASS", 0x32000C, 0, 1, 0, 1, .device,
     [⟨"COUNT", 0, 32, 0x0, .ro, .none, .any⟩]⟩,
   ⟨"BIST_FAILS", 0x320010, 0, 1, 0, 1, .device,
     [⟨"COUNT", 0, 32, 0x0, .ro, .none, .any⟩]⟩,
   ⟨"BIST_INCOMPLETE", 0x320014, 0, 1, 0, 1, .device,
     [⟨"COUNT", 0, 32, 0x0, .ro, .none, .any⟩]⟩,
   ⟨"BIST_SKIPPED", 0x320018, 0, 1, 0, 1, .device,
     [⟨"COUNT", 0, 32, 0x0, .ro, .none, .any⟩]⟩,
   ⟨"BIST_FAIL_PAIR0", 0x32001C, 0, 1, 0, 1, .device,
     [⟨"PAIRS", 0, 32, 0x0, .ro, .none, .any⟩]⟩,
   ⟨"BIST_FAIL_PAIR1", 0x320020, 0, 1, 0, 1, .device,
     [⟨"PAIRS", 0, 4, 0x0, .ro, .none, .any⟩]⟩,
   ⟨"BIST_FAIL_CMP0", 0x320024, 0, 1, 0, 1, .device,
     [⟨"CMP", 0, 32, 0x0, .ro, .none, .any⟩]⟩,
   ⟨"BIST_FAIL_CMP1", 0x320028, 0, 1, 0, 1, .device,
     [⟨"CMP", 0, 32, 0x0, .ro, .none, .any⟩]⟩,
   ⟨"BIST_ROUND", 0x32002C, 0, 1, 0, 1, .device,
     [⟨"MS", 0, 32, 0x0, .ro, .none, .any⟩]⟩]

/-- Self-test, recorder, telemetry (R391 to R393): part 1 of the chapter's registers. -/
def regs15_1 : List RegSpec :=
  [⟨"EVR_CTRL", 0x330000, 0, 1, 0, 1, .device,
     [⟨"FREEZE", 0, 1, 0x0, .rw, .imm, .any⟩,
      ⟨"NEXT", 1, 1, 0x0, .w1s, .imm, .any⟩,
      ⟨"PERSIST", 2, 1, 0x1, .rw, .imm, .any⟩]⟩,
   ⟨"EVR_STAT", 0x330004, 0, 1, 0, 1, .device,
     [⟨"FROZEN", 0, 1, 0x0, .ro, .none, .any⟩,
      ⟨"WIN_BUSY", 1, 1, 0x0, .ro, .none, .any⟩,
      ⟨"DROP", 2, 1, 0x0, .w1c, .imm, .any⟩,
      ⟨"PAGE_RET", 3, 1, 0x0, .w1c, .imm, .any⟩,
      ⟨"LASTGASP", 4, 1, 0x0, .ro, .none, .any⟩,
      ⟨"FLASH_READY", 5, 1, 0x0, .ro, .none, .any⟩,
      ⟨"FLASH_FAIL", 6, 1, 0x0, .ro, .none, .any⟩,
      ⟨"LG_COUNT", 7, 4, 0x0, .ro, .none, .any⟩]⟩,
   ⟨"EVR_HEAD", 0x330008, 0, 1, 0, 1, .device,
     [⟨"SEQ", 0, 32, 0x0, .ro, .none, .any⟩]⟩,
   ⟨"EVR_OLDEST", 0x33000C, 0, 1, 0, 1, .device,
     [⟨"SEQ", 0, 32, 0x0, .ro, .none, .any⟩]⟩,
   ⟨"EVR_PERSIST", 0x330010, 0, 1, 0, 1, .device,
     [⟨"SEQ", 0, 32, 0x0, .ro, .none, .any⟩]⟩,
   ⟨"EVR_CURSOR", 0x330014, 0, 1, 0, 1, .device,
     [⟨"SEQ", 0, 32, 0x0, .rw, .imm, .any⟩]⟩,
   ⟨"EVR_PAGES", 0x330018, 0, 1, 0, 1, .device,
     [⟨"RETIRED", 0, 16, 0x0, .ro, .none, .any⟩]⟩,
   ⟨"EVR_DROPS", 0x33001C, 0, 1, 0, 1, .device,
     [⟨"COUNT", 0, 32, 0x0, .ro, .none, .any⟩]⟩,
   ⟨"EVR_MERGES", 0x330020, 0, 1, 0, 1, .device,
     [⟨"COUNT", 0, 32, 0x0, .ro, .none, .any⟩]⟩,
   ⟨"EVR_LG_LOST", 0x330024, 0, 1, 0, 1, .device,
     [⟨"COUNT", 0, 32, 0x0, .ro, .none, .any⟩]⟩,
   ⟨"EVR_FLASH_BAD", 0x330028, 0, 1, 0, 1, .device,
     [⟨"COUNT", 0, 32, 0x0, .ro, .none, .any⟩]⟩,
   ⟨"EVR_FLASH_OLDEST", 0x33002C, 0, 1, 0, 1, .device,
     [⟨"SEQ", 0, 32, 0x0, .ro, .none, .any⟩]⟩]

/-- Self-test, recorder, telemetry (R391 to R393): part 2 of the chapter's registers. -/
def regs15_2 : List RegSpec :=
  [⟨"EVR_FLASH_PASS", 0x330030, 0, 1, 0, 1, .device,
     [⟨"COUNT", 0, 32, 0x0, .ro, .none, .any⟩]⟩,
   ⟨"EVR_WINw", 0x330100, 4, 64, 0, 1, .device,
     [⟨"DATA", 0, 32, 0x0, .ro, .none, .any⟩]⟩,
   ⟨"EVR_LGw", 0x330200, 4, 64, 0, 1, .device,
     [⟨"DATA", 0, 32, 0x0, .ro, .none, .any⟩]⟩,
   ⟨"TEL_CTRL", 0x340000, 0, 1, 0, 1, .device,
     [⟨"EN", 0, 1, 0x0, .rw, .imm, .any⟩]⟩,
   ⟨"TEL_STAT", 0x340004, 0, 1, 0, 1, .device,
     [⟨"LOST", 0, 1, 0x0, .w1c, .imm, .any⟩]⟩,
   ⟨"TEL_BASE", 0x340008, 0, 1, 0, 1, .device,
     [⟨"BASE", 0, 24, 0x0, .rwl, .imm, .any⟩]⟩,
   ⟨"TEL_SIZE", 0x34000C, 0, 1, 0, 1, .device,
     [⟨"SIZE", 0, 16, 0x0, .rwl, .imm, .any⟩]⟩,
   ⟨"TEL_WR", 0x340010, 0, 1, 0, 1, .device,
     [⟨"INDEX", 0, 32, 0x0, .ro, .none, .any⟩]⟩,
   ⟨"TEL_RD", 0x340014, 0, 1, 0, 1, .device,
     [⟨"INDEX", 0, 32, 0x0, .rw, .imm, .any⟩]⟩,
   ⟨"TEL_LOST", 0x340018, 0, 1, 0, 1, .device,
     [⟨"COUNT", 0, 32, 0x0, .ro, .none, .any⟩]⟩]

/-- Host (R414): part 0 of the chapter's registers. -/
def regs16_0 : List RegSpec :=
  [⟨"HST_STAT", 0x0, 0, 1, 0, 1, .device,
     [⟨"PHASE", 0, 3, 0x0, .ro, .none, .any⟩,
      ⟨"SUP_RESTART", 3, 1, 0x0, .ro, .none, .any⟩,
      ⟨"QUEUED", 4, 6, 0x0, .ro, .none, .any⟩,
      ⟨"LANE_BUSY", 10, 4, 0x0, .ro, .none, .any⟩]⟩,
   ⟨"HST_ATTN", 0x4, 0, 1, 0, 1, .device,
     [⟨"CAUSE", 0, 15, 0x0, .w1c, .imm, .any⟩]⟩,
   ⟨"HST_ATTN_HOLD", 0x8, 0, 1, 0, 1, .device,
     [⟨"COND", 0, 5, 0x0, .ro, .none, .any⟩]⟩,
   ⟨"HST_MBX_STAT", 0xC, 0, 1, 0, 1, .device,
     [⟨"FREE", 0, 1, 0x0, .ro, .none, .any⟩]⟩,
   ⟨"HST_WIN", 0x10, 0, 1, 0, 1, .device,
     [⟨"BASE", 0, 8, 0x0, .rw, .imm, .any⟩]⟩,
   ⟨"HST_RESET_CAUSE", 0x14, 0, 1, 0, 1, .device,
     [⟨"CAUSE", 0, 3, 0x1, .ro, .none, .any⟩]⟩,
   ⟨"HST_ID", 0x18, 0, 1, 0, 1, .device,
     [⟨"REV", 0, 8, 0xB0, .ro, .none, .any⟩,
      ⟨"BEAMS", 8, 8, 0x20, .ro, .none, .any⟩,
      ⟨"DEVICE", 16, 16, 0xA320, .ro, .none, .any⟩]⟩,
   ⟨"HST_MBXw", 0x100, 4, 16, 0, 1, .device,
     [⟨"WORD", 0, 32, 0x0, .wo, .imm, .any⟩]⟩,
   ⟨"HST_CPL0", 0x200, 0, 1, 0, 1, .device,
     [⟨"TAG", 0, 32, 0x0, .ro, .none, .any⟩]⟩,
   ⟨"HST_CPL1", 0x204, 0, 1, 0, 1, .device,
     [⟨"INFO", 0, 32, 0x0, .ro, .none, .any⟩]⟩,
   ⟨"HST_CPL2", 0x208, 0, 1, 0, 1, .device,
     [⟨"VAL_LO", 0, 32, 0x0, .ro, .none, .any⟩]⟩,
   ⟨"HST_CPL3", 0x20C, 0, 1, 0, 1, .device,
     [⟨"VAL_HI", 0, 32, 0x0, .ro, .none, .any⟩]⟩]

/-- Host (R414): part 1 of the chapter's registers. -/
def regs16_1 : List RegSpec :=
  [⟨"HST_CPL_POP", 0x210, 0, 1, 0, 1, .device,
     [⟨"POP", 0, 1, 0x0, .w1s, .imm, .any⟩]⟩,
   ⟨"HST_CPL_COUNT", 0x214, 0, 1, 0, 1, .device,
     [⟨"COUNT", 0, 6, 0x0, .ro, .none, .any⟩]⟩,
   ⟨"HST_DMAc_CTRL", 0x400, 64, 4, 0, 1, .device,
     [⟨"EN", 0, 1, 0x0, .rw, .imm, .any⟩]⟩,
   ⟨"HST_DMAc_STAT", 0x404, 64, 4, 0, 1, .device,
     [⟨"RUN", 0, 1, 0x0, .ro, .none, .any⟩,
      ⟨"ERR", 1, 1, 0x0, .w1c, .imm, .any⟩]⟩,
   ⟨"HST_DMAc_RING_LO", 0x408, 64, 4, 0, 1, .device,
     [⟨"ADDR", 0, 32, 0x0, .rwl, .imm, .multOf 32⟩]⟩,
   ⟨"HST_DMAc_RING_HI", 0x40C, 64, 4, 0, 1, .device,
     [⟨"ADDR", 0, 32, 0x0, .rwl, .imm, .any⟩]⟩,
   ⟨"HST_DMAc_RING_SIZE", 0x410, 64, 4, 0, 1, .device,
     [⟨"SIZE", 0, 13, 0x10, .rwl, .imm, .pow2 16 4096⟩]⟩,
   ⟨"HST_DMAc_HEAD", 0x414, 64, 4, 0, 1, .device,
     [⟨"INDEX", 0, 12, 0x0, .rw, .imm, .any⟩]⟩,
   ⟨"HST_DMAc_TAIL", 0x418, 64, 4, 0, 1, .device,
     [⟨"INDEX", 0, 12, 0x0, .ro, .none, .any⟩]⟩,
   ⟨"HST_DMAc_BYTES", 0x41C, 64, 4, 0, 1, .device,
     [⟨"COUNT", 0, 32, 0x0, .ro, .none, .any⟩]⟩]

/-- Every register of BAR0 (R13). -/
def regSpecs : List RegSpec :=
  regs02_0 ++ regs03_0 ++ regs04_0 ++ regs04_1 ++ regs05_0 ++ regs05_1 ++ regs06_0 ++ regs07_0 ++
  regs07_1 ++ regs08_0 ++ regs08_1 ++ regs08_2 ++ regs08_3 ++ regs08_4 ++ regs09_0 ++ regs09_1 ++
  regs10_0 ++ regs10_1 ++ regs10_2 ++ regs10_3 ++ regs11_0 ++ regs11_1 ++ regs11_2 ++ regs11_3 ++
  regs12_0 ++ regs12_1 ++ regs13_0 ++ regs14_0 ++ regs15_0 ++ regs15_1 ++ regs15_2 ++ regs16_0 ++
  regs16_1

end Sys2Proof.Machine
end

