-- ==== Sys2Proof/Machine/Ops.lean ====
section
/-! DEFINITION. The operations every family uses: tables, register fields with their shadows and effect points
(00_scope.md R14 to R20), free values, DRAM bytes, raising an event (15_selftest_recorder.md R376 to
R381), attention (16_host_startup.md R398, R399). -/

namespace Sys2Proof.Machine

/-! ## Tables -/

/-- Entry k of a table, or the default. -/
def tget {α : Type} (d : α) : Table α → Nat → α
  | [], _ => d
  | (i, a) :: t, k => if i == k then a else tget d t k

/-- Entry k of a table, if present. -/
def tfind {α : Type} : Table α → Nat → Option α
  | [], _ => none
  | (i, a) :: t, k => if i == k then some a else tfind t k

/-- The table with entry k set, in ascending order. -/
def tput {α : Type} : Table α → Nat → α → Table α
  | [], k, v => [(k, v)]
  | (i, a) :: t, k, v =>
    if k == i then (k, v) :: t else if k < i then (k, v) :: (i, a) :: t else (i, a) :: tput t k v

/-- The table without entry k. -/
def tdel {α : Type} : Table α → Nat → Table α
  | [], _ => []
  | (i, a) :: t, k => if i == k then tdel t k else (i, a) :: tdel t k

/-- 0, 1, …, n − 1. -/
abbrev upTo (n : Nat) : List Nat := List.range n

/-! ## Register fields -/

/-- The key of a field in the register list. -/
def Fld.key (F : Fld) : Nat := F.addr * 32 + F.lsb

/-- Value under key k of a register list, d where it is not listed. -/
def regGet : List (Nat × Nat) → Nat → Nat → Nat
  | [], _, d => d
  | (i, v) :: t, k, d => if i == k then v else regGet t k d

/-- The register list without key k. -/
def regDel : List (Nat × Nat) → Nat → List (Nat × Nat)
  | [], _ => []
  | (i, w) :: t, k => if i == k then regDel t k else (i, w) :: regDel t k

/-- The register list with key k holding v, or without an entry where v is the reset value d: ascending in keys, no
entry at its reset value. -/
def regPut : List (Nat × Nat) → Nat → Nat → Nat → List (Nat × Nat)
  | [], k, v, d => if v == d then [] else [(k, v)]
  | (i, w) :: t, k, v, d =>
    if i == k then regPut t k v d
    else if k < i then (if v == d then (i, w) :: regDel t k else (k, v) :: (i, w) :: regDel t k)
    else (i, w) :: regPut t k v d

/-- The live value of a field (R19). -/
def Dev.get (d : Dev) (F : Fld) : Nat := regGet d.regs F.key F.reset

/-- The state with a field's live value set, cut to the field's width. -/
def Dev.put (d : Dev) (F : Fld) (v : Nat) : Dev := { d with regs := regPut d.regs F.key (v % 2 ^ F.width) F.reset }

/-- A one-bit field as a truth value. -/
def Dev.flag (d : Dev) (F : Fld) : Bool := d.get F != 0

/-- The state with a one-bit field set or cleared. -/
def Dev.setFlag (d : Dev) (F : Fld) (b : Bool) : Dev := d.put F (b2n b)

/-- A field as a two's-complement number of its width. -/
def Dev.getI (d : Dev) (F : Fld) : Int := sext F.width (d.get F)

/-- The state with a field set to the low bits of a signed number. -/
def Dev.putI (d : Dev) (F : Fld) (v : Int) : Dev := d.put F (trunc F.width v)

/-- A field as a word. -/
def Dev.getW (d : Dev) (F : Fld) : Word := BitVec.ofNat 32 (d.get F)

/-- The state with a counter field raised by n, stopping at its greatest value ("saturates"). -/
def Dev.bump (d : Dev) (F : Fld) (n : Nat := 1) : Dev := d.put F (min (d.get F + n) (2 ^ F.width - 1))

/-- The state with a counter field raised by n, wrapping. -/
def Dev.bumpWrap (d : Dev) (F : Fld) (n : Nat := 1) : Dev := d.put F (d.get F + n)

/-- One bit of a field. -/
def Dev.bit (d : Dev) (F : Fld) (k : Nat) : Bool := bitAt (d.get F) k

/-- The state with one bit of a field set or cleared. -/
def Dev.setBit (d : Dev) (F : Fld) (k : Nat) (b : Bool) : Dev := d.put F (bitPut (d.get F) k b)

/-- The value of a device-wide SEG, PATH or TILE field as the engine of port p uses it (R17, R19). -/
def Dev.view (d : Dev) (p : Nat) (F : Fld) : Nat :=
  match d.oldViews.find? (fun o => decide (o.fld = F) && o.ports.contains p) with
  | some o => o.value
  | none => d.get F

/-! ## Free values -/

/-- The next free value, and the state that has used it up (log entry 4). -/
def Dev.free (d : Dev) : Nat × Dev := (Config.freeValue d.freeCtr, { d with freeCtr := d.freeCtr + 1 })

/-! ## DRAM bytes -/

/-- The byte at a device address; a byte not listed reads 0x00 (log entry 6). -/
def cellGet : List Host.Cell → Nat → Byte
  | [], _ => 0
  | (i, b) :: t, a => if i == a then b else cellGet t a

/-- The list without address a. -/
def cellDel : List Host.Cell → Nat → List Host.Cell
  | [], _ => []
  | (i, c) :: t, a => if i == a then cellDel t a else (i, c) :: cellDel t a

/-- The list with the byte at address a set, in canonical form. -/
def cellPut : List Host.Cell → Nat → Byte → List Host.Cell
  | [], a, b => if b == 0 then [] else [(a, b)]
  | (i, c) :: t, a, b =>
    if i == a then cellPut t a b
    else if a < i then (if b == 0 then (i, c) :: cellDel t a else (a, b) :: (i, c) :: cellDel t a)
    else (i, c) :: cellPut t a b

/-- Bytes bs written from address a upwards. -/
def cellsPut : List Host.Cell → Nat → List Byte → List Host.Cell
  | m, _, [] => m
  | m, a, b :: bs => cellsPut (cellPut m a b) (a + 1) bs

/-- n bytes from address a. -/
def cellsGet (m : List Host.Cell) (a : Nat) : Nat → List Byte
  | 0 => []
  | n + 1 => cellGet m a :: cellsGet m (a + 1) n

/-- Every address of the list lies above b, and no byte is 0x00. -/
def cellsAbove : Nat → List Host.Cell → Bool
  | _, [] => true
  | b, (i, c) :: t => decide (b < i) && c != 0 && cellsAbove i t

/-- The canonical form of memory: strictly rising addresses and no byte equal to what an unlisted address reads as. -/
def Dram.wf (m : Dram) : Bool :=
  match m.cells with
  | [] => true
  | (i, c) :: t => c != 0 && cellsAbove i t

/-- The byte at a device address. -/
def Dram.read (m : Dram) (a : Nat) : Byte := cellGet m.cells a

/-- n bytes from a device address. -/
def Dram.readBytes (m : Dram) (a n : Nat) : List Byte := cellsGet m.cells a n

/-- DRAM with bytes written from a device address; fresh data clears an uncorrectable error there (R333: the word is
rewritten). -/
def Dram.writeBytes (m : Dram) (a : Nat) (bs : List Byte) : Dram :=
  { m with cells := cellsPut m.cells a bs,
           poison := m.poison.filter (fun p => !(decide (a ≤ p) && decide (p < a + bs.length))) }

/-- Some byte of the range holds an uncorrectable error without a good copy (R333). -/
def Dram.poisoned (m : Dram) (a n : Nat) : Bool := m.poison.any (fun p => decide (a ≤ p) && decide (p < a + n))

/-! ## Attention (R398, R399) -/

/-- The latched attention causes of R399, by bit number. -/
inductive Attn where
  | buffer | fault | chase | qrec | capture | axis | link | time | memory | thermal | recorder | supervisor | starve
  | rigging | dma
  deriving DecidableEq, Repr

/-- The bit of HST_ATTN (R399). -/
def Attn.bit : Attn → Nat
  | .buffer => 0 | .fault => 1 | .chase => 2 | .qrec => 3 | .capture => 4 | .axis => 5 | .link => 6 | .time => 7
  | .memory => 8 | .thermal => 9 | .recorder => 10 | .supervisor => 11 | .starve => 12 | .rigging => 13 | .dma => 14

/-- The state with an attention cause latched. -/
def Dev.attn (d : Dev) (a : Attn) : Dev := d.setBit F.HST_ATTN_CAUSE a.bit true

/-- The held conditions of R399: CPL, STARVED, UNRIGGED, LASTGASP, HALTED. -/
def Dev.attnHold (d : Dev) : Nat :=
  b2n (!d.hst.cpl.isEmpty) + 2 * b2n (d.get F.BED_STAT_PHASE == 4) + 4 * b2n (d.get F.RIG_STAT_STATE == 0)
    + 8 * b2n (d.flag F.EVR_STAT_LASTGASP) + 16 * b2n (decide (d.sys.sup = .halted))

/-- The 64 T-ticks between a horizon taken in STARVED and its boundary: no bed has become current yet, so HRDY stays low (R100), though
PHASE is PRE and HST_ATTN_HOLD.STARVED reads 0 (R399; log entry 121). -/
def Dev.starving (d : Dev) : Bool := d.get F.BED_STAT_PHASE == 2 && d.bar.hznFrom == 4

/-- HRDY (R398): high when the mailbox is free and no attention is latched or held. In reset it is
high-impedance and read as busy, which `free` being false gives. -/
def Dev.hrdy (d : Dev) : Bool := d.hst.free && d.get F.HST_ATTN_CAUSE == 0 && d.attnHold == 0 && !d.starving

/-! ## Events (R373 to R381) -/

/-- Capacity of the intake FIFO (R376). -/
def fifoMax : Nat := 128

/-- The code of the LOST record (R378). -/
def codeLost : BitVec 16 := 0x0D01#16

/-- An event may be merged: not of the 0x01xx range and not of severity 5 (R377). -/
def Event.mergeable (e : Event) : Bool := e.code.toNat / 256 != 1 && e.sev != 5 && e.code != codeLost

/-- CODE, SOURCE and SEV are equal and the entry's COUNT is below 65,535 (R377). -/
def Event.takes (entry e : Event) : Bool :=
  entry.code == e.code && entry.src == e.src && entry.sev == e.sev && decide (entry.count < 65535) && e.mergeable

/-- The FIFO with the event merged into the oldest entry that takes it, or none where no entry does (R377). -/
def fifoMerge (e : Event) : List Event → Option (List Event)
  | [] => none
  | x :: t =>
    if x.takes e then some ({ x with count := x.count + 1 } :: t)
    else match fifoMerge e t with
      | some t' => some (x :: t')
      | none => none

/-- The lowest severity among the entries that may be dropped; a LOST record is never dropped (R378). 6 where there is none. -/
def fifoLow (f : List Event) : Nat :=
  f.foldl (fun m x => if x.code == codeLost then m else min m x.sev.toNat) 6

/-- The youngest entry of severity l, removed. -/
def fifoDropYoungest (l : Nat) (f : List Event) : List Event :=
  let r := f.reverse
  let i := r.findIdx (fun x => x.code != codeLost && x.sev.toNat == l)
  (r.eraseIdx i).reverse

/-- A drop of severity sev is counted (R378). -/
def Dev.countDrop (d : Dev) (sev : Nat) : Dev :=
  let first := d.evr.drops.all (· == 0)
  let n := min ((d.evr.drops.getD sev 0) + 1) 65535
  (({ d with evr := { d.evr with drops := d.evr.drops.set sev n,
                                 firstDrop := if first then d.time else d.evr.firstDrop } }).bump
    F.EVR_DROPS_COUNT).setFlag F.EVR_STAT_DROP true

/-- A record enters the last-gasp bank with the next SEQ; the first 8 are kept, later ones counted (R381). -/
def Dev.bankAdd (d : Dev) (e : Event) : Dev :=
  if d.evr.bank.length < 8 then
    (({ d with evr := { d.evr with bank := d.evr.bank ++ [Rec.mk e d.evr.nextSeq false],
                                   nextSeq := d.evr.nextSeq + 1 } }).put F.EVR_HEAD_SEQ d.evr.nextSeq.toNat).put
      F.EVR_STAT_LG_COUNT (d.evr.bank.length + 1)
  else d.bump F.EVR_LG_LOST_COUNT

/-- A record goes to the last-gasp bank; the first one sets LASTGASP, is followed by a 0x0D02 record of severity 4 and
raises attention RECORDER (R381). Cause: 1 no healthy page, 2 write failed, 3 severity 5 with a full FIFO. -/
def Dev.toBank (d : Dev) (e : Event) (cause : Nat) : Dev :=
  let d1 := d.bankAdd e
  if d.flag F.EVR_STAT_LASTGASP then d1
  else
    ((d1.setFlag F.EVR_STAT_LASTGASP true).bankAdd
      { time := d.time, code := 0x0D02#16, src := 0x0C#8, sev := 4#8, p1 := BitVec.ofNat 32 cause,
        p2 := d.evr.nextSeq, p3 := 0, count := 1 }).attn .recorder

/-- An event enters the intake FIFO, merges, displaces a lower one, is dropped or goes to the bank (R376 to R378). -/
def Dev.intake (d : Dev) (e : Event) : Dev :=
  match fifoMerge e d.evr.fifo with
  | some f => ({ d with evr := { d.evr with fifo := f } }).bump F.EVR_MERGES_COUNT
  | none =>
    if d.evr.fifo.length < fifoMax then { d with evr := { d.evr with fifo := d.evr.fifo ++ [e] } }
    else
      let l := fifoLow d.evr.fifo
      if l < e.sev.toNat then
        let d1 := d.countDrop l
        { d1 with evr := { d1.evr with fifo := fifoDropYoungest l d1.evr.fifo ++ [e] } }
      else if e.sev == 5 then d.toBank e 3
      else d.countDrop e.sev.toNat

/-- An event is raised now (R373, R376): code, SOURCE of R374, severity and three parameters. -/
def Dev.raise (d : Dev) (code src sev p1 p2 p3 : Nat) : Dev :=
  d.intake { time := d.time, code := BitVec.ofNat 16 code, src := BitVec.ofNat 8 src, sev := BitVec.ofNat 8 sev,
             p1 := BitVec.ofNat 32 p1, p2 := BitVec.ofNat 32 p2, p3 := BitVec.ofNat 32 p3, count := 1 }

/-- An event that names a segment carries its AUX tag (R74). -/
def Dev.raiseSeg (d : Dev) (tag code src sev p1 p2 p3 : Nat) (pt : Option Int := none) : Dev :=
  d.intake { time := d.time, code := BitVec.ofNat 16 code, src := BitVec.ofNat 8 src, sev := BitVec.ofNat 8 sev,
             p1 := BitVec.ofNat 32 p1, p2 := BitVec.ofNat 32 p2, p3 := BitVec.ofNat 32 p3, count := 1, tag := tag, pt := pt }

/-- SOURCE of beam port n (R374). -/
def srcPort (n : Nat) : Nat := 0x40 + n

/-! ## Shadows (R16 to R19) -/

/-- The order of effect points: every TILE boundary is a PATH boundary and every PATH boundary a SEG boundary (R16). -/
def Effect.rank : Effect → Nat
  | .seg => 1 | .path => 2 | .tile => 3 | _ => 0

/-- A boundary of kind k passes a field of effect e. -/
def Effect.passed (k e : Effect) : Bool := decide (1 ≤ e.rank) && decide (e.rank ≤ k.rank)

/-- The shadow list with an entry written; a later write of the same field replaces the earlier one (R19). -/
def shadowPut (l : List ShadowEntry) (e : ShadowEntry) : List ShadowEntry :=
  (l.filter (fun x => decide (x.fld ≠ e.fld))) ++ [e]

/-- Port p passes a boundary of kind k: its own per-beam fields of that effect go live (R17). -/
def Dev.boundaryOwn (d : Dev) (p : Nat) (k : Effect) : Dev :=
  let due := d.shadow.filter (fun e => e.port == some p && Effect.passed k e.eff)
  due.foldl (fun d e => d.put e.fld e.value)
    { d with shadow := d.shadow.filter (fun e => !(e.port == some p && Effect.passed k e.eff)) }

/-- Port p passes a boundary of kind k: the engine takes the newest value of each device-wide field of that effect;
the other running ports keep the value they have until their own boundary (R17, R19). -/
def Dev.boundaryShared (d : Dev) (p : Nat) (k : Effect) (running : List Nat) : Dev :=
  let others := running.filter (· != p)
  let due := d.shadow.filter (fun e => e.port == none && Effect.passed k e.eff)
  let d1 := { d with
    oldViews := (d.oldViews.map (fun o =>
      if Effect.passed k o.eff then { o with ports := o.ports.filter (· != p) } else o)).filter (fun o => !o.ports.isEmpty) }
  due.foldl (fun d e =>
      let held := (d.oldViews.filter (fun o => decide (o.fld = e.fld))).flatMap (·.ports)
      let rest := others.filter (fun q => !(held.contains q))
      let d2 := if rest.isEmpty then d
        else { d with oldViews := d.oldViews ++ [OldView.mk e.fld e.eff rest (d.get e.fld)] }
      { d2.put e.fld e.value with shadow := d2.shadow.filter (fun x => decide (x ≠ e)) }) d1

/-- Port p passes a SEG, PATH or TILE boundary (R16, R17). -/
def Dev.boundary (d : Dev) (p : Nat) (k : Effect) (running : List Nat) : Dev :=
  (d.boundaryOwn p k).boundaryShared p k running

/-- The bed boundary: every field of effect BED goes live together (R17). -/
def Dev.bedEffects (d : Dev) : Dev :=
  (d.shadow.filter (fun e => decide (e.eff = .bed))).foldl (fun d e => d.put e.fld e.value)
    { d with shadow := d.shadow.filter (fun e => decide (e.eff ≠ .bed)) }

/-! ## The state -/

/-- The state with its device changed. -/
def State.onDev (s : State) (f : Dev → Dev) : State := { s with dev := f s.dev }

/-- The device address space in GB-derived bytes: 2 (C − D) − M (R321), with C from the channel status, M the
mirrored range where the DEVICE flags ask for mirroring. 0 before training. -/
def Dev.addrSpace (d : Dev) : Nat :=
  let c := max (d.get (F.DDR_CHc_STAT_CAP 0)) (d.get (F.DDR_CHc_STAT_CAP 1))
  let m := if d.flag F.DDR_STAT_MIRROR then d.get F.DDR_MIRROR_SIZE else 0
  (2 * (c - 1) - m) * 2 ^ 30

/-- The background activities of R28 run: they pause while the supervisor restarts, and once it has stopped (R26). -/
def Dev.background (d : Dev) : Bool := decide (d.sys.sup = .running)

/-- The bed buffer whose placed range holds address a (R83, R95). -/
def Dev.bufOf (d : Dev) (a : Nat) : Option Nat :=
  let l := (upTo 16).filter (fun n =>
    let b := d.get (F.BED_BUFn_BASE_BASE n) * 4096
    decide (b ≤ a) && decide (a < b + d.get (F.BED_BUFn_SIZE_SIZE n) * 4096))
  (l.find? (fun n => d.get (F.BED_BUFn_STAT_STATE n) != 0 || d.flag (F.BED_BUFn_STAT_PEND n))).or l.head?

end Sys2Proof.Machine
end

