-- ==== Sys2Proof/Machine/Mem.lean ====
section
/-! DEFINITION. Access to DRAM as every block makes it: the channels that serve a device address (12_memory.md R321,
R322), accesses beyond the space (R321), writes to a LOST channel (R334), reads without a good copy (R333),
and writes of the host into bed buffers (03_bed_data.md R86). -/

namespace Sys2Proof.Machine

/-- A channel with nothing pending. -/
def ddrCh0 : DdrCh :=
  { ueTimes := [], lastReq := 0, srSince := none, rtWait := none, rtNoted := false, driftNoted := false, lastStep := none,
    rtLeft := 0, zqAt := 0 }

/-- Channel c is LOST (R334). -/
def Dev.chLost (d : Dev) (c : Nat) : Bool := d.get (F.DDR_CHc_STAT_STATE c) == 5

/-- The mirrored range M in bytes (R321). -/
def Dev.mirrorBytes (d : Dev) : Nat := if d.flag F.DDR_STAT_MIRROR then d.get F.DDR_MIRROR_SIZE * 2 ^ 30 else 0

/-- C − D in bytes (R321). -/
def Dev.chanBytes (d : Dev) : Nat :=
  (max (d.get (F.DDR_CHc_STAT_CAP 0)) (d.get (F.DDR_CHc_STAT_CAP 1)) - 1) * 2 ^ 30

/-- The channels that hold device address a (R321). -/
def Dev.homes (d : Dev) (a : Nat) : List Nat :=
  if a < d.mirrorBytes then [0, 1] else if a < d.chanBytes then [0] else [1]

/-- The channel that serves a read of address a (R322): in the mirrored range channel n mod 2 for bed buffer n, else
channel 0, or the surviving channel after a loss; elsewhere the one channel that holds it. -/
def Dev.serving (d : Dev) (a : Nat) : Nat :=
  match d.homes a with
  | [c] => c
  | _ =>
    let c := match d.bufOf a with
      | some n => n % 2
      | none => 0
    if d.chLost c then 1 - c else c

/-- Every channel that holds address a is LOST. -/
def Dev.gone (d : Dev) (a : Nat) : Bool := (d.homes a).all (fun c => d.chLost c)

/-- The first address of the n bytes from a of which every channel is LOST. The channels of an address change only at M and at C − D
(R321), so the start of the range and those two places decide. -/
def Dev.goneAt (d : Dev) (a n : Nat) : Option Nat :=
  [a, d.mirrorBytes, d.chanBytes].find? (fun x => decide (a ≤ x) && decide (x < a + max 1 n) && d.gone x)

/-- A transfer of n bytes from a leaves the device address space (R321). -/
def Dev.beyond (d : Dev) (a n : Nat) : Bool := decide (d.addrSpace < a + n)

/-- The 0x0E00 event of an access beyond the address space (R321): source coded as R436. -/
def Dev.raiseBeyond (d : Dev) (src a : Nat) : Dev := d.raise 0x0E00 0x01 2 src (a % 2 ^ 32) (a / 2 ^ 32)

/-- The channel offset of device address a in the channel that serves it (R321). -/
def Dev.chanOfs (d : Dev) (a : Nat) : Nat := if a < d.chanBytes then a else a - d.chanBytes + d.mirrorBytes

/-- Channel c with its beside-the-registers state changed. -/
def Dev.updCh (d : Dev) (c : Nat) (f : DdrCh → DdrCh) : Dev :=
  { d with ddr := { d.ddr with ch := tput d.ddr.ch c (f (tget ddrCh0 d.ddr.ch c)) } }

/-- An uncorrectable error on channel c at offset `ofs` (R333): counted, its address loaded, its time kept for R334. -/
def Dev.noteUe (d : Dev) (c ofs : Nat) : Dev :=
  ((((d.bump (F.DDR_CHc_UE_COUNT c)).put (F.DDR_CHc_UE_ADDR_LO_ADDR c) ofs).put (F.DDR_CHc_UE_ADDR_HI_ADDR c) (ofs / 2 ^ 32)).setFlag
    F.DDR_STAT_UE true).updCh c (fun x => { x with
      ueTimes := (x.ueTimes.filter (fun t => decide ((elapsed64 d.time t) ≤ 1000000000))) ++ [d.time] })

/-- The 0x0804 event of an error without a good copy (R333), with the channel's counter and address. -/
def Dev.raiseLostRead (d : Dev) (src a : Nat) : Dev :=
  (d.noteUe (d.serving a) (d.chanOfs a)).raise 0x0804 0x05 3 src (a % 2 ^ 32) (a / 2 ^ 32)

/-- A retraining sequence of n steps begins to wait (R325). -/
def Dev.rtBegin (d : Dev) (c n : Nat) : Dev :=
  d.updCh c (fun x => { x with rtLeft := n, rtWait := if n == 0 then none else some d.time, rtNoted := false })

/-- The retraining sequence of a channel before it leaves a long self-refresh (R325, R332): the reading step, the two ZQ steps, which are due
after more than 128 ms, and a step for each 1/64 UI of drift, whose number nothing states: a free value. In fixed mode nothing moves. -/
def Dev.srRetrain (d : Dev) (c : Nat) : Dev :=
  if d.flag F.DDR_CTRL_FIXED then d
  else (d.free.2.bump (F.DDR_CHc_RT_STEPS_COUNT c) (3 + d.free.1)).updCh c (fun x => { x with
    lastStep := some d.time, zqAt := d.time, checkAt := d.time })

/-- Channel c leaves self-refresh (R331), after a stay of more than 1 s with a retraining sequence before it (R332). -/
def Dev.leaveSr (d : Dev) (c : Nat) : Dev :=
  if d.get (F.DDR_CHc_STAT_STATE c) == 4 then
    let d1 := match (tget ddrCh0 d.ddr.ch c).srSince with
      | some t => if 1000000000 < elapsed64 d.time t then d.srRetrain c else d
      | none => d
    (d1.put (F.DDR_CHc_STAT_STATE c) 2).updCh c (fun x => { x with srSince := none })
  else d

/-- Both channels leave self-refresh before a horizon can be taken (R331). -/
def Dev.wakeDram (d : Dev) : Dev := (d.leaveSr 0).leaveSr 1

/-- Channel c receives a request of classes 0 to 3 (R331): its idle time starts again, and a channel in self-refresh leaves it. -/
def Dev.touch (d : Dev) (c : Nat) : Dev := (d.leaveSr c).updCh c (fun x => { x with lastReq := d.time })

/-- The channels that hold address a receive a request. -/
def Dev.touchAll (d : Dev) (a : Nat) : Dev := (d.homes a).foldl (fun d c => d.touch c) d

/-- Bytes from an address, cut at address c where that lies within them. -/
def cutAt (c : Nat) (x : Nat × List Byte) : List (Nat × List Byte) :=
  if x.1 < c && c < x.1 + x.2.length then [(x.1, x.2.take (c - x.1)), (c, x.2.drop (c - x.1))] else [x]

/-- Bytes from an address, cut at each of a list of addresses. -/
def cutAll (cs : List Nat) (x : Nat × List Byte) : List (Nat × List Byte) := cs.foldl (fun l c => l.flatMap (cutAt c)) [x]

/-- Where the ranges of R321 meet: M and C − D. -/
def Dev.rangeEdges (d : Dev) : List Nat := [d.mirrorBytes, d.chanBytes]

/-- A write of source src to a LOST channel is dropped and counted (R334); one of the host is kept for FENCE (R330). -/
def Dev.dropWrite (d : Dev) (src a : Nat) : Dev :=
  let d1 := d.bump (F.DDR_CHc_LOST_WR_COUNT (d.serving a))
  if 0x40 ≤ src && src ≤ 0x44 && !(d.ddr.dropped.contains src) then { d1 with ddr := { d1.ddr with dropped := d.ddr.dropped ++ [src] } } else d1

/-- One part of a write: it lands, or every channel that holds it is LOST. -/
def State.writePart (src : Nat) (s : State) (x : Nat × List Byte) : State :=
  if s.dev.gone x.1 then s.onDev (fun d => d.dropWrite src x.1)
  else { s with mem := s.mem.writeBytes x.1 x.2, dev := s.dev.touchAll x.1 }

/-- A write by a block of the device (R321, R334): beyond the space it is dropped with a 0x0E00 event; where every
channel that holds it is LOST it is dropped and counted. The truth value says that all of it landed. -/
def State.dramWrite (s : State) (src a : Nat) (bs : List Byte) : State × Bool :=
  if s.dev.beyond a bs.length then (s.onDev (fun d => d.raiseBeyond src a), false)
  else if (s.dev.goneAt a bs.length).isSome then ((cutAll s.dev.rangeEdges (a, bs)).foldl (State.writePart src) s, false)
  else ({ s with mem := s.mem.writeBytes a bs, dev := s.dev.touchAll a }, true)

/-- The addresses of the failed reads of a region: one for each access of 64 bytes that holds an uncorrectable error, or one for a
region that reaches into a LOST channel (R333, R334; log entry 124). -/
def Dev.badWords (d : Dev) (m : Dram) (a n : Nat) : List Nat :=
  match d.goneAt a n with
  | some x => [x]
  | none => ((m.poison.filter (fun p => decide (a ≤ p) && decide (p < a + n))).map (fun p => max a (p / 64 * 64))).eraseDups

/-- A read of n bytes by a block of the device: zeros beyond the space with a 0x0E00 event (R395); with an
uncorrectable error and no good copy the truth value is false and R333's event is recorded. -/
def State.dramRead (s : State) (src a n : Nat) : State × List Byte × Bool :=
  if s.dev.beyond a n then (s.onDev (fun d => d.raiseBeyond src a), List.replicate n 0, false)
  else if (s.dev.goneAt a n).isSome || s.mem.poisoned a n then
    (s.onDev (fun d => (d.badWords s.mem a n).foldl (fun d p => d.raiseLostRead src p) d), s.mem.readBytes a n, false)
  else (s.onDev (fun d => d.touch (d.serving a)), s.mem.readBytes a n, true)

/-- A read of a range would meet an uncorrectable error without a good copy (R94, R333). -/
def badRead (d : Dev) (m : Dram) (a n : Nat) : Bool := d.beyond a n || (d.goneAt a n).isSome || m.poisoned a n

/-- A buffer takes host writes: FILLING and not sealing (R86). -/
def Dev.bufWritable (d : Dev) (n : Nat) : Bool :=
  d.get (F.BED_BUFn_STAT_STATE n) == 1 && !(d.flag (F.BED_BUFn_STAT_SEALING n))

/-- A write dropped from a buffer's range (R86): DROPPED, the count and event 0x0226 with the address, buffer, state and
writer (0 BAR2, 1 to 4 DMA channels). -/
def Dev.dropBufWrite (d : Dev) (src n a : Nat) : Dev :=
  ((d.setFlag (F.BED_BUFn_STAT_DROPPED n) true).bump (F.BED_BUFn_DROPS_COUNT n)).raise 0x0226 0x03 2 (a % 2 ^ 32)
    (a / 2 ^ 32) (n + 16 * d.get (F.BED_BUFn_STAT_STATE n) + 256 * (if src == 0x44 then 0 else src - 0x40 + 1))

/-- DMA channel c still has a transfer queued before the running seal arrived (R91). A channel that is not enabled and works on none takes
none (R396; log entry 122). -/
def Dev.sealAwaits (d : Dev) (c : Nat) : Bool :=
  match d.bar.sealing with
  | some r => r.left.getD c 0 != 0 && (d.flag (F.HST_DMAc_CTRL_EN c) || (tfind d.hst.dma c).isSome)
  | none => false

/-- Buffer k takes a write of source src: it is writable, or it is sealing and the write was queued before the seal's arrival
(R86, R91). -/
def Dev.bufTakes (d : Dev) (src k : Nat) : Bool :=
  d.bufWritable k ||
  ((d.bar.sealing.any (fun r => r.buf == k)) && decide (0x40 ≤ src) && decide (src ≤ 0x43) && d.sealAwaits (src - 0x40))

/-- The first buffer that does not take the write and whose range the n bytes from a touch (R86). Where a placed FREE buffer overlaps one
that is FILLING (R83), the spec does not say whose state decides: the one that does not take the write does (log entry 123). -/
def Dev.lockedBuf (d : Dev) (src a n : Nat) : Option Nat :=
  (upTo 16).find? (fun k =>
    let b := d.get (F.BED_BUFn_BASE_BASE k) * 4096
    let e := b + d.get (F.BED_BUFn_SIZE_SIZE k) * 4096
    decide (a < e) && decide (b < a + n) && decide (b < e) && !(d.bufTakes src k))

/-- The first and the last place of every placed buffer. -/
def Dev.bufEdges (d : Dev) : List Nat :=
  (upTo 16).flatMap (fun k => [d.get (F.BED_BUFn_BASE_BASE k) * 4096, (d.get (F.BED_BUFn_BASE_BASE k) + d.get (F.BED_BUFn_SIZE_SIZE k)) * 4096])

/-- One part of a write by the host: it lands, or falls into a buffer that does not take writes and is dropped (R86). -/
def State.hostPart (src : Nat) (s : State) (x : Nat × List Byte) : State :=
  match s.dev.lockedBuf src x.1 x.2.length with
  | some n => s.onDev (fun d => d.dropBufWrite src n x.1)
  | none => (s.dramWrite src x.1 x.2).1

/-- A write by the host through BAR2 or a DMA channel (R86, R321): what falls into a buffer that does not take writes is
dropped, a part for each stretch between the ends of the buffers. The truth value says that all of it landed. -/
def State.hostWrite (s : State) (src a : Nat) (bs : List Byte) : State × Bool :=
  if s.dev.beyond a bs.length then (s.onDev (fun d => d.raiseBeyond src a), false)
  else if (s.dev.lockedBuf src a bs.length).isSome then ((cutAll s.dev.bufEdges (a, bs)).foldl (State.hostPart src) s, false)
  else s.dramWrite src a bs

/-- How many bytes of a write by the host land (R397). -/
def Dev.landed (d : Dev) (src a : Nat) (bs : List Byte) : Nat :=
  (cutAll (d.bufEdges ++ d.rangeEdges) (a, bs)).foldl (fun n x =>
    if (d.lockedBuf src x.1 x.2.length).isSome || d.gone x.1 then n else n + x.2.length) 0

/-- Bytes read from address a, with zeros for those that no good copy holds (R397). -/
def cleanBytes (d : Dev) (m : Dram) (a : Nat) (bs : List Byte) : List Byte :=
  bs.mapIdx (fun i b => if d.gone (a + i) || m.poison.contains (a + i) then 0 else b)

/-- A read of an image by a load command. R436 gives such a read no source code, so the code in the event of a failed read is left
open (log entry 24). -/
def State.imageRead (s : State) (a n : Nat) : State × List Byte × Bool :=
  if badRead s.dev s.mem a n then
    let f := s.dev.free
    State.dramRead { s with dev := f.2 } (f.1 % 256) a n
  else s.dramRead 0 a n

end Sys2Proof.Machine
end

