-- ==== Sys2Proof/Machine/Mailbox.lean ====
section
/-! DEFINITION. How mailbox commands are accepted, run in their lanes and completed (16_host_startup.md R400 to
R405). The command rows of the table call `State.command`, which judges whether the command may run now. -/

namespace Sys2Proof.Machine

/-! ## Result codes (R404) -/

/-- The results of R404. -/
inductive Res where
  | ok | deferred | stale | busy | state | range | refused | armed | running | latched | none | flashFail | held
  | unrigged | notRecoat | dropped | unknown | param
  deriving DecidableEq, Repr

/-- The code of a result (R404). -/
def Res.code : Res → Nat
  | .ok => 0x00 | .deferred => 0x01 | .stale => 0x02 | .busy => 0x03 | .state => 0x04 | .range => 0x05
  | .refused => 0x06 | .armed => 0x07 | .running => 0x08 | .latched => 0x09 | .none => 0x0A | .flashFail => 0x0B
  | .held => 0x0C | .unrigged => 0x0D | .notRecoat => 0x0E | .dropped => 0x0F | .unknown => 0x10 | .param => 0x11

/-- The number of a lane: bit 0 CTRL, 1 BUF, 2 LOAD, 3 FLASH of HST_STAT.LANE_BUSY (R414). -/
def laneIx : Lane → Nat
  | .ctrl => 0 | .buf => 1 | .load => 2 | .flash => 3

/-- For an opcode of R405: its lane and the number of parameter words it uses from word 2; none if the opcode is not in
R405. -/
def opInfo : Nat → Option (Lane × Nat)
  | 0x01 => some (.ctrl, 0) | 0x02 => some (.ctrl, 1) | 0x03 => some (.ctrl, 1)
  | 0x10 => some (.load, 3) | 0x11 => some (.load, 3) | 0x12 => some (.ctrl, 0) | 0x13 => some (.flash, 4)
  | 0x20 => some (.buf, 2) | 0x21 => some (.buf, 2) | 0x22 => some (.buf, 2) | 0x23 => some (.buf, 4)
  | 0x30 => some (.ctrl, 2) | 0x31 => some (.ctrl, 0) | 0x32 => some (.ctrl, 0) | 0x33 => some (.ctrl, 0)
  | 0x40 => some (.load, 4) | 0x41 => some (.load, 3) | 0x42 => some (.load, 3)
  | 0x50 => some (.flash, 4)
  | _ => none

/-- The lane of an opcode; an opcode not in R405 is answered in CTRL (log entry 11). -/
def opLane (op : Nat) : Lane :=
  match opInfo op with
  | some (l, _) => l
  | none => .ctrl

/-- Word w of the mailbox as written; a word not written since the last submission holds zero (R400). -/
def Hst.word (h : Hst) (w : Nat) : Word := tget 0 h.mbx w

/-- The verdict reached before every other result (R404): UNKNOWN for an opcode not in R405, PARAM where a word that the
command does not use, or bits [31:8] of word 0, is not zero. -/
def mbxVerdict (words : List Word) : Option Nat :=
  let w0 := (words.getD 0 0).toNat
  match opInfo (w0 % 256) with
  | none => some Res.unknown.code
  | some (_, n) =>
    if w0 / 256 != 0 || !((words.drop (2 + n)).all (· == 0)) then some Res.param.code else none

/-- Commands queued or running, 0 to 16 (HST_STAT.QUEUED): those in the queue, running in a lane, and finished in a
lane and waiting for the completion queue (R401, R403). -/
def Hst.queued (h : Hst) : Nat :=
  h.queue.length + h.running.length + (h.finished.map (fun x => x.2.length)).foldl (· + ·) 0

/-- A remembered command of this source and tag (R402). -/
def Hst.known (h : Hst) (src : Nat) (tag : Word) : Option Remembered :=
  h.remembered.find? (fun r => r.src == src && r.tag == tag)

/-- The last 1,024 commands of a source are remembered (R402). -/
def rememberPut (l : List Remembered) (r : Remembered) : List Remembered :=
  let mine := l.filter (fun x => x.src == r.src)
  if mine.length < 1024 then l ++ [r]
  else (l.eraseIdx (l.findIdx (fun x => x.src == r.src))) ++ [r]

/-- A completion waits in its lane (R403). -/
def Hst.addFinished (h : Hst) (l : Lane) (c : Completion) : Hst :=
  { h with finished := tput h.finished (laneIx l) (tget [] h.finished (laneIx l) ++ [c]) }

/-- The event of a duplicate (R402): source and opcode, tag, original result. -/
def Dev.raiseDup (d : Dev) (src op : Nat) (tag : Word) (res : Nat) : Dev :=
  d.raise 0x0E11 0x01 1 (src * 256 + op) tag.toNat res

/-- A duplicate of a completed command completes with the original result and DUP (R402). -/
def Dev.finishDup (d : Dev) (c : Cmd) (res : Nat) (val : DWord) : Dev :=
  ({ d with hst := d.hst.addFinished (opLane c.op) ⟨c.tag, c.op, res, true, val⟩ }).raiseDup c.src c.op c.tag res

/-- A command of the PCIe source has finished: it leaves the queue and its lane, its result is remembered, its completion
waits in its lane, and duplicates that waited for it complete after it (R402, R403). -/
def Dev.finish (d : Dev) (l : Lane) (op : Nat) (tag : Word) (res : Nat) (val : DWord) : Dev :=
  let h := d.hst
  let i := h.queue.findIdx (fun c => c.op == op && c.tag == tag)
  let h1 := { h with
    queue := h.queue.eraseIdx i
    running := if (tfind h.running (laneIx l)).isSome then tdel h.running (laneIx l) else h.running
    remembered := h.remembered.map (fun (r : Remembered) => if r.src == 0 && r.tag == tag then { r with done := some (res, val) } else r)
    dupWait := h.dupWait.filter (fun (c : Cmd) => c.tag != tag) }
  let d1 := { d with hst := h1.addFinished l ⟨tag, op, res, false, val⟩ }
  (h.dupWait.filter (fun c => c.tag == tag)).foldl (fun d c => d.finishDup c res val) d1

/-- The first command of lane l in the queue. -/
def Hst.headOf (h : Hst) (l : Lane) : Option Cmd := h.queue.find? (fun c => decide (opLane c.op = l))

/-- The command of this opcode and tag may run now (R401, R403): the supervisor is not restarting, nothing runs in its lane and no
finished command waits there for the completion queue, and if it stands in the queue it is the first of its lane. -/
def Dev.mayRun (d : Dev) (l : Lane) (op : Nat) (tag : Word) : Bool :=
  decide (d.sys.sup ≠ .restarting) && (tfind d.hst.running (laneIx l)).isNone && (tget [] d.hst.finished (laneIx l)).isEmpty &&
  (!(d.hst.queue.any (fun c => c.op == op && c.tag == tag)) ||
    (match d.hst.headOf l with
     | some c => c.op == op && c.tag == tag && c.verdict.isNone
     | none => false))

/-- Run a command (R401): where it may not run now nothing happens; while HALTED every command but NOP and HST_RESET
completes STATE; else its body gives a result and a value, and it finishes. -/
def State.command (s : State) (l : Lane) (op : Nat) (tag : Word) (body : State → State × Res × DWord) : State :=
  if s.dev.mayRun l op tag then
    if decide (s.dev.sys.sup = .halted) && op != 0x01 && op != 0x02 then
      s.onDev (fun d => d.finish l op tag Res.state.code 0)
    else
      let r := body s
      r.1.onDev (fun d => d.finish l op tag r.2.1.code r.2.2)
  else s

/-- Start a command that goes on running in its lane (R401): its body gives the state in which it runs, or a result
with which it finishes at once. -/
def State.commandStart (s : State) (l : Lane) (op : Nat) (tag : Word) (words : List Word)
    (body : State → State × Option (Res × DWord)) : State :=
  if s.dev.mayRun l op tag then
    if decide (s.dev.sys.sup = .halted) then s.onDev (fun d => d.finish l op tag Res.state.code 0)
    else
      match body s with
      | (s1, some (r, v)) => s1.onDev (fun d => d.finish l op tag r.code v)
      | (s1, none) =>
        s1.onDev (fun d =>
          let i := d.hst.queue.findIdx (fun c => c.op == op && c.tag == tag)
          { d with hst := { d.hst with
              queue := d.hst.queue.eraseIdx i
              running := tput d.hst.running (laneIx l) ⟨0, op, tag, words, none⟩ } })
  else s

/-- The command running in a lane. -/
def Dev.laneCmd (d : Dev) (l : Lane) : Option Cmd := tfind d.hst.running (laneIx l)

/-- The mailbox contents move to the queue while it has room (R400): every word reads zero again and FREE returns to 1. A
duplicate is not queued: it completes with the original result, at once or right after the original (R402). While HST_RESET
waits, the mailbox stays closed (R410). -/
def Dev.mbxMove (d : Dev) : Dev :=
  if (tfind d.hst.mbx 15).isSome && !d.hst.free && d.hst.resetWait.isNone && decide (d.hst.queued < 16) then
    let words := (upTo 16).map d.hst.word
    let op := (words.getD 0 0).toNat % 256
    let tag := words.getD 1 0
    let c : Cmd := ⟨0, op, tag, words, mbxVerdict words⟩
    let h := { d.hst with mbx := [], free := true }
    match d.hst.known 0 tag with
    | some r =>
      match r.done with
      | some (res, val) => ({ d with hst := h }).finishDup c res val
      | none => { d with hst := { h with dupWait := h.dupWait ++ [c] } }
    | none =>
      { d with hst := { h with queue := h.queue ++ [c], remembered := rememberPut h.remembered ⟨0, tag, none⟩ } }
  else d

/-- A 64-bit address from two words, low word first (R405). -/
def addr64 (lo hi : Word) : DWord := BitVec.ofNat 64 (lo.toNat + hi.toNat * 2 ^ 32)

/-- An address of a command is aligned to 16 bytes (R405). -/
def aligned16 (a : DWord) : Bool := a.toNat % 16 == 0

end Sys2Proof.Machine
end

