-- ==== Sys2Proof/Machine/Recorder.lean ====
section
/-! DEFINITION. The event recorder (15_selftest_recorder.md R373 to R387): the ring and its pages, the last-gasp
bank, the read window, the freeze and the log flash. -/

namespace Sys2Proof.Machine

/-! ## Records -/

/-- Bytes 0 to 29 of a record (R373). -/
def recBody (r : Rec) : List Byte :=
  leBytes 8 r.ev.time.toNat ++ leBytes 2 r.ev.code.toNat ++ [r.ev.src, r.ev.sev] ++ leBytes 4 r.seq.toNat ++
  leBytes 4 r.ev.p1.toNat ++ leBytes 4 r.ev.p2.toNat ++ leBytes 4 r.ev.p3.toNat ++ leBytes 2 r.ev.count

/-- The 32 bytes of a record: the body, its CRC-8 and MARK 0xA5 (R373). -/
def recBytes (r : Rec) : List Byte := recBody r ++ [crc8 (recBody r), 0xA5#8]

/-- Word w (0 to 7) of a record as a register reads it. -/
def recWord (r : Rec) (w : Nat) : Word := BitVec.ofNat 32 (leAt (recBytes r) (4 * w) 4)

/-! ## The ring (R379, R380) -/

/-- The ring has 8,192 slots in 16 pages of 512 (R379). -/
def ringSlots : Nat := 8192

/-- The ring is frozen. -/
def Dev.frozen (d : Dev) : Bool := d.flag F.EVR_STAT_FROZEN

/-- Persistence is off, or has stopped because the flash has failed, so that every slot counts as persisted (R379, R385). -/
def Dev.persistOff (d : Dev) : Bool := !(d.flag F.EVR_CTRL_PERSIST) || d.flag F.EVR_STAT_FLASH_FAIL

/-- Page p of the ring is retired. -/
def Dev.pageRetired (d : Dev) (p : Nat) : Bool := d.bit F.EVR_PAGES_RETIRED p

/-- Slot i is usable (R379): its page is not retired; it is empty or the ring is not frozen; it is empty, or its record is
persisted, or persistence is off. -/
def Dev.slotUsable (d : Dev) (i : Nat) : Bool :=
  !(d.pageRetired (i / 512)) &&
  match tfind d.evr.slots i with
  | none => true
  | some r => !d.frozen && (r.persisted || d.persistOff)

/-- The first usable slot among the next n in ring order from slot i. -/
def Dev.findSlot (d : Dev) : Nat → Nat → Option Nat
  | 0, _ => none
  | n + 1, i => if d.slotUsable i then some i else d.findSlot n ((i + 1) % ringSlots)

/-- The next usable slot in ring order (R379). -/
def Dev.nextSlot (d : Dev) : Option Nat := d.findSlot ringSlots d.evr.wr

/-- Some page of the ring is healthy. -/
def Dev.anyPage (d : Dev) : Bool := d.get F.EVR_PAGES_RETIRED != 0xFFFF

/-- The oldest SEQ among records, by R7. -/
def oldestSeq : List Rec → Option Word
  | [] => none
  | r :: t => some (t.foldl (fun m x => if later32 m x.seq then x.seq else m) r.seq)

/-- The latest SEQ among records, by R7. -/
def newestSeq : List Rec → Option Word
  | [] => none
  | r :: t => some (t.foldl (fun m x => if later32 x.seq m then x.seq else m) r.seq)

/-- EVR_OLDEST follows the ring's contents. -/
def Dev.ringOldest (d : Dev) : Dev :=
  match oldestSeq (d.evr.slots.map (·.2)) with
  | some q => d.put F.EVR_OLDEST_SEQ q.toNat
  | none => d

/-- A record is placed in slot i. -/
def Dev.slotPut (d : Dev) (i : Nat) (r : Rec) : Dev :=
  ({ d with evr := { d.evr with slots := tput d.evr.slots i r, wr := (i + 1) % ringSlots } }).ringOldest

/-- The event goes to slot i with the next SEQ (R375, R379). -/
def Dev.slotWrite (d : Dev) (i : Nat) (e : Event) : Dev :=
  let r : Rec := ⟨e, d.evr.nextSeq, false⟩
  let d1 := d.slotPut i r
  ({ d1 with evr := { d1.evr with nextSeq := d.evr.nextSeq + 1 } }).put F.EVR_HEAD_SEQ d.evr.nextSeq.toNat

/-- Page p is retired (R380): its mark and bit are set, its valid records not yet persisted that still read correctly are
copied with their SEQ to a healthy page, those that cannot be read or find no usable slot are counted in
EVR_DROPS. Answers the state, the records copied and the records lost. -/
def Dev.retirePage (d : Dev) (p : Nat) (unreadable : List Nat) : Dev × Nat × Nat :=
  let mine := d.evr.slots.filter (fun x => x.1 / 512 == p)
  let rest := d.evr.slots.filter (fun x => x.1 / 512 != p)
  let todo := mine.filter (fun x => !(x.2.persisted))
  let d1 := (({ d with evr := { d.evr with slots := rest } }).setBit F.EVR_PAGES_RETIRED p true).setFlag
    F.EVR_STAT_PAGE_RET true
  let r := todo.foldl (fun (acc : Dev × Nat × Nat) x =>
      if unreadable.contains x.1 then (acc.1.bump F.EVR_DROPS_COUNT, acc.2.1, acc.2.2 + 1)
      else match acc.1.nextSlot with
        | some i => (acc.1.slotPut i x.2, acc.2.1 + 1, acc.2.2)
        | none => (acc.1.bump F.EVR_DROPS_COUNT, acc.2.1, acc.2.2 + 1)) (d1, 0, 0)
  (r.1.ringOldest, r.2)

/-- The 0x0D00 event of a retired page (R380, R390). -/
def pageEvent (d : Dev) (p copied lost : Nat) : Event :=
  { time := d.time, code := 0x0D00#16, src := 0x0C#8, sev := 3#8, p1 := BitVec.ofNat 32 p, p2 := BitVec.ofNat 32 copied,
    p3 := BitVec.ofNat 32 lost, count := 1 }

/-- The LOST record that enters the first freed entry after drops, ahead of any later event; the counts return to zero
(R378). -/
def Dev.lostRecord (d : Dev) : Dev :=
  let n := fun k => d.evr.drops.getD k 0
  if d.evr.drops.all (· == 0) then d
  else
    let sev := if n 4 != 0 then 4 else if n 3 != 0 then 3 else if n 2 != 0 then 2 else if n 1 != 0 then 1 else 0
    { d with evr := { d.evr with
        drops := [0, 0, 0, 0, 0, 0]
        fifo := d.evr.fifo ++ [{ time := d.evr.firstDrop, code := codeLost, src := 0x0C#8, sev := BitVec.ofNat 8 sev,
                                 p1 := BitVec.ofNat 32 (n 0 + 65536 * n 1), p2 := BitVec.ofNat 32 (n 2 + 65536 * n 3),
                                 p3 := BitVec.ofNat 32 (n 4), count := 1 }] } }

/-- The digest of R307 that the recorded event gives is kept by the link (see Link.lean); here the events recorded since the
last period are listed with their SEQ. -/
def Dev.noteDigest (d : Dev) (e : Event) (q : Word) : Dev :=
  if decide (d.get F.GLK_CTRL_DIGEST_SEV ≤ e.sev.toNat) && e.code != 0x0710#16 then
    { d with glk := { d.glk with digests := d.glk.digests ++ [⟨e.sev, e.code, q⟩] } }
  else d

/-- The oldest entry leaves the FIFO (R376). -/
def Dev.fifoPop (d : Dev) : Dev := { d with evr := { d.evr with fifo := d.evr.fifo.drop 1 } }

/-- EVR_RING_WRITE: the recorder takes the oldest entry of the FIFO and writes it to the next usable slot (R376, R379), or to
the last-gasp bank (R381); where no slot is usable it waits. -/
def Dev.ringWrite (d : Dev) (w : RingOutcome) : Dev :=
  match d.evr.fifo with
  | [] => d
  | e :: _ =>
    if !d.anyPage then ((d.fifoPop.lostRecord).noteDigest e d.evr.nextSeq).toBank e 1
    else
      match d.nextSlot with
      | none => d
      | some i =>
        let d0 := (d.fifoPop.lostRecord).noteDigest e d.evr.nextSeq
        let failed := fun (unreadable : List Nat) =>
          let r := d0.retirePage (i / 512) unreadable
          (r.1, pageEvent d (i / 512) r.2.1 r.2.2)
        match w with
        | .good => d0.slotWrite i e
        | .failed u =>
          let r := failed u
          match r.1.nextSlot with
          | some j =>
            let d2 := r.1.slotWrite j e
            { d2 with evr := { d2.evr with fifo := r.2 :: d2.evr.fifo } }
          | none => (if r.1.anyPage then { r.1 with evr := { r.1.evr with fifo := e :: r.2 :: r.1.evr.fifo } }
                     else (r.1.toBank e 1).toBank r.2 1)
        | .failedTwice u =>
          let r := failed u
          let d2 := if r.1.anyPage then r.1.toBank e 2 else r.1.toBank e 1
          { d2 with evr := { d2.evr with fifo := r.2 :: d2.evr.fifo } }

/-! ## Reading (R382, R383) -/

/-- The record of sequence q, if the ring holds it. -/
def Dev.ringFind (d : Dev) (q : Word) : Option Rec :=
  (d.evr.slots.find? (fun x => x.2.seq == q)).map (·.2)

/-- The window is loaded with the records of sequence s to s + 7 (R382); a record that the ring does not hold reads as zeros. -/
def Dev.loadWindow (d : Dev) : Dev :=
  let s := d.getW F.EVR_CURSOR_SEQ
  { d with evr := { d.evr with
      win := (upTo 8).map (fun r =>
        match d.ringFind (s + BitVec.ofNat 32 r) with
        | some x => some x
        | none => none) } }

/-- Word w of the read window (EVR_WINw). -/
def Dev.winWord (d : Dev) (w : Nat) : Word :=
  match d.evr.win.getD (w / 8) none with
  | some r => recWord r (w % 8)
  | none => 0

/-- Word w of the last-gasp bank (EVR_LGw). -/
def Dev.bankWord (d : Dev) (w : Nat) : Word :=
  match d.evr.bank[w / 8]? with
  | some r => recWord r (w % 8)
  | none => 0

/-- FREEZE lands at 1 (R383): the ring is frozen and 0x0D03 is recorded; while frozen nothing changes. -/
def Dev.freeze (d : Dev) : Dev :=
  if d.frozen then d
  else
    ({ d.setFlag F.EVR_STAT_FROZEN true with evr := { d.evr with freezeAt := d.time } }).raise 0x0D03 0x0C 0
      (d.get F.EVR_CURSOR_SEQ) (d.get F.EVR_HEAD_SEQ) 0

/-- The freeze ends (R383): 0x0D04 tells whether it expired and its duration in µs. -/
def Dev.unfreeze (d : Dev) (expired : Bool) : Dev :=
  if d.frozen then
    ((d.setFlag F.EVR_STAT_FROZEN false).setFlag F.EVR_CTRL_FREEZE false).raise 0x0D04 0x0C 0 (b2n expired)
      ((elapsed64 d.time d.evr.freezeAt) / 1000) 0
  else d

/-! ## The log flash (R384 to R386) -/

/-- The log flash has 1,024 sectors, each with 2,047 record slots (R384). -/
def logSectors : Nat := 1024

/-- Record slots of a sector (R384). -/
def sectorSlots : Nat := 2047

/-- A sector that nothing has written. -/
def blankSector : LogSector := { seq := 0, erases := 0, first := 0, live := false, retired := false, recs := [] }

/-- The sector header that slot 0 holds (R384); one that is retired has its MAGIC programmed to 0 (R385). -/
def LogSector.header (x : LogSector) : List Byte :=
  let b := leBytes 4 0x4C455841 ++ leBytes 2 1 ++ leBytes 2 0 ++ leBytes 4 x.seq.toNat ++ leBytes 4 x.erases ++ leBytes 4 x.first.toNat ++
    leBytes 8 0
  (if x.retired then leBytes 4 0 else b.take 4) ++ b.drop 4 ++ leBytes 4 (crc32c b).toNat

/-- The 32 bytes of slot i of a sector (R384): the header, the records in SEQ order, and erased bytes behind them. -/
def LogSector.slot (x : LogSector) (i : Nat) : List Byte :=
  match i with
  | 0 => if x.live || x.retired then x.header else List.replicate 32 0xFF
  | k + 1 => match x.recs[k]? with
    | some r => recBytes r
    | none => List.replicate 32 0xFF

/-- Sector i of the log. -/
def LogFlash.sector (f : LogFlash) (i : Nat) : LogSector := tget blankSector f.sectors i

/-- The sectors retired so far. -/
def LogFlash.retiredCount (f : LogFlash) : Nat := (f.sectors.filter (fun x => x.2.retired)).length

/-- The highest erase count in the log (R385). -/
def LogFlash.maxErases (f : LogFlash) : Nat := f.sectors.foldl (fun m x => max m x.2.erases) 0

/-- The first sector not retired among the n after sector i, in the circle (R385). -/
def LogFlash.after (f : LogFlash) : Nat → Nat → Nat
  | 0, i => i
  | n + 1, i =>
    let j := (i + 1) % logSectors
    if (f.sector j).retired then f.after n j else j

/-- Every record in the log flash. -/
def LogFlash.recs (f : LogFlash) : List Rec := f.sectors.flatMap (fun x => if x.2.retired then [] else x.2.recs)

/-- One above the highest SEQ found in the log flash, or 0 (R375). -/
def LogFlash.nextSeq (f : LogFlash) : Word :=
  match newestSeq f.recs with
  | some q => q + 1
  | none => 0

/-- The erase of sector i (R385): its records go, its erase count is kept for the next header. -/
def LogFlash.erase (f : LogFlash) (i : Nat) : LogFlash :=
  { f with sectors := tput f.sectors i { (blankSector) with erases := (f.sector i).erases } }

/-- Sector i is retired: MAGIC is programmed to 0 (R385). -/
def LogFlash.retire (f : LogFlash) (i : Nat) : LogFlash :=
  { f with sectors := tput f.sectors i { f.sector i with retired := true, live := false, recs := [] } }

/-- The log flash has failed (R385). Cause: 1 no answer, 2 too many bad sectors. -/
def Dev.flashFailed (d : Dev) (cause : Nat) : Dev :=
  if d.flag F.EVR_STAT_FLASH_FAIL then d
  else
    ((d.setFlag F.EVR_STAT_FLASH_FAIL true).raise 0x0D06 0x0C 3 cause (d.logFlash.retiredCount)
      (d.get F.EVR_PERSIST_SEQ)).attn .recorder

/-- Sector i failed an erase (1) or a program (2): it is retired, and after 64 the flash has failed (R385). -/
def Dev.sectorFailed (d : Dev) (i kind : Nat) : Dev :=
  let d1 := (({ d with logFlash := d.logFlash.retire i }).bump F.EVR_FLASH_BAD_COUNT).raise 0x0D05 0x0C 2 i
    ((d.logFlash.sector i).erases) kind
  if 64 ≤ d1.logFlash.retiredCount then d1.flashFailed 2 else d1

/-- The records not yet persisted, of the ring and of the bank (R384). -/
def Dev.unpersisted (d : Dev) : List Rec :=
  (d.evr.slots.map (·.2) ++ d.evr.bank).filter (fun r => !r.persisted)

/-- The n earliest of a list of records in SEQ order (R384). -/
def earliest : Nat → List Rec → List Rec
  | 0, _ => []
  | n + 1, l =>
    match oldestSeq l with
    | none => []
    | some q =>
      match l.find? (fun r => r.seq == q) with
      | some r => r :: earliest n (l.filter (fun x => x.seq != q))
      | none => []

/-- Records of these sequences are marked persisted. -/
def markPersisted (qs : List Word) (r : Rec) : Rec := if qs.contains r.seq then { r with persisted := true } else r

/-- A sector is needed for the next group: none is live yet at the current place, or the current one is full (R384). -/
def LogFlash.needSector (f : LogFlash) : Bool :=
  let s := f.sector f.cur
  s.retired || !s.live || decide (sectorSlots ≤ s.recs.length)

/-- The next sector takes a header (R384, R385): its sequence rises by one, its erase count by one over the count read
before the erase (or the highest in the log plus one), and the sector after it is erased. -/
def Dev.openSector (d : Dev) (first : Word) : Dev :=
  let f := d.logFlash
  let old := f.sector f.cur
  let c := if old.live || old.retired then f.after logSectors f.cur else f.cur
  let count := (if (f.sector c).erases == 0 then f.maxErases else (f.sector c).erases) + 1
  let s : LogSector := { seq := old.seq + (if old.live then 1 else 0), erases := count, first := first, live := true,
                         retired := false, recs := [] }
  let f1 := { f with sectors := tput f.sectors c s, cur := c }
  let f2 := f1.erase (f1.after logSectors c)
  let d1 := { d with logFlash := f2 }
  if old.live && decide (c < f.cur) then d1.bumpWrap F.EVR_FLASH_PASS_COUNT else d1

/-- EVR_FLASH_OLDEST follows the log. -/
def Dev.flashOldest (d : Dev) : Dev :=
  match oldestSeq d.logFlash.recs with
  | some q => d.put F.EVR_FLASH_OLDEST_SEQ q.toNat
  | none => d

/-- FLASH_PERSIST: the next group of up to 8 records goes to the log flash in SEQ order (R384), or the flash fails as R385
gives. Runs while PERSIST is 1, the start-up scan has ended, the flash has not failed and the supervisor runs (R26). -/
def Dev.flashPersist (d : Dev) (o : FlashOutcome) : Dev :=
  if !(d.flag F.EVR_CTRL_PERSIST) || !(d.flag F.EVR_STAT_FLASH_READY) || d.flag F.EVR_STAT_FLASH_FAIL || decide (d.sys.sup ≠ .running) then d
  else
    match earliest 8 d.unpersisted with
    | [] => d
    | r0 :: rs =>
      match o with
      | .noAnswer => d.flashFailed 1
      | .eraseFail =>
        if d.logFlash.needSector then
          d.sectorFailed (d.logFlash.after logSectors (if (d.logFlash.sector d.logFlash.cur).live then d.logFlash.cur
            else d.logFlash.cur + logSectors - 1)) 1
        else d
      | .programFail =>
        let d1 := if d.logFlash.needSector then d.openSector r0.seq else d
        d1.sectorFailed d1.logFlash.cur 2
      | .good =>
        let d1 := if d.logFlash.needSector then d.openSector r0.seq else d
        let s := d1.logFlash.sector d1.logFlash.cur
        let grp := ((r0 :: rs).take (sectorSlots - s.recs.length)).map (fun r => { r with persisted := true })
        let qs := grp.map (·.seq)
        let d2 := { d1 with
          logFlash := { d1.logFlash with sectors := tput d1.logFlash.sectors d1.logFlash.cur { s with recs := s.recs ++ grp } }
          evr := { d1.evr with slots := d1.evr.slots.map (fun (x : Nat × Rec) => (x.1, markPersisted qs x.2))
                               bank := d1.evr.bank.map (markPersisted qs) } }
        (match newestSeq grp with
         | some q => d2.put F.EVR_PERSIST_SEQ q.toNat
         | none => d2).flashOldest

/-- Sequence numbers given before the scan, when the flash proves to have failed: they start from 0 (R375). -/
def Dev.renumber (d : Dev) (base : Word) : Dev :=
  let f := fun (r : Rec) => { r with seq := r.seq - base }
  let any := !d.evr.slots.isEmpty || !d.evr.bank.isEmpty
  let d1 := { d with evr := { d.evr with nextSeq := d.evr.nextSeq - base, bank := d.evr.bank.map f,
                                         slots := d.evr.slots.map (fun (x : Nat × Rec) => (x.1, f x.2)) } }
  if any then (d1.put F.EVR_HEAD_SEQ (d1.evr.nextSeq - 1).toNat).ringOldest else d1

/-- LOG_FLASH_SCAN: the start-up scan ends (R386). Where the flash answers, FLASH_READY is set and 0x0D07 gives the records
found, the highest SEQ and the scan time in ms (at most 50, else free); where it does not, the flash has failed
(R385). The reset is then recorded (R408). -/
def Dev.logFlashScan (d : Dev) (answers : Bool) : Dev :=
  if d.flag F.EVR_STAT_FLASH_READY || d.flag F.EVR_STAT_FLASH_FAIL then d
  else
    let d1 :=
      if answers then
        let v := d.free
        let d1 := (v.2.setFlag F.EVR_STAT_FLASH_READY true).flashOldest
        let hi := (match newestSeq d.logFlash.recs with | some q => q | none => 0)
        (d1.put F.EVR_PERSIST_SEQ hi.toNat).raise 0x0D07 0x0C 0 d.logFlash.recs.length hi.toNat (v.1 % 51)
      else (d.renumber d.logFlash.nextSeq).flashFailed 1
    d1.raise 0x0E30 0x01 0 (d.get F.HST_RESET_CAUSE_CAUSE) d.sys.phaseBefore 0

/-! ## Log fetch (R387) -/

/-- Records of the list with sequences from q upwards, n at most, in SEQ order. -/
def recordsFrom (l : List Rec) (q : Word) (n : Nat) : List Rec :=
  earliest n (l.filter (fun r => !(later32 q r.seq)))

/-- The records that LOG_FETCH can copy: those of the log flash unless it has failed, and those still held only in the
ring or the bank. -/
def Dev.logRecords (d : Dev) : List Rec :=
  if d.flag F.EVR_STAT_FLASH_FAIL then d.evr.slots.map (·.2)
  else
    let fl := d.logFlash.recs
    fl ++ (d.evr.slots.map (·.2) ++ d.evr.bank).filter (fun r => !(fl.any (fun x => x.seq == r.seq)))

/-- Records written one after another into DRAM from address a. -/
def State.writeRecs (s : State) (src : Nat) : Nat → List Rec → State
  | _, [] => s
  | a, r :: rs => (s.dramWrite src a (recBytes r)).1.writeRecs src (a + 32) rs

/-- LOG_FETCH (R387). -/
def State.logFetch (s : State) (start count : Word) (addr : DWord) : State × Res × DWord :=
  if !(aligned16 addr) || count == 0 || decide (65536 < count.toNat) then (s, .param, 0)
  else
    let all := s.dev.logRecords
    let grp := recordsFrom all start count.toNat
    let res : Res × DWord :=
      if s.dev.flag F.EVR_STAT_FLASH_FAIL then (.flashFail, BitVec.ofNat 64 grp.length)
      else match oldestSeq all with
        | some q => if later32 q start then (.range, BitVec.ofNat 64 q.toNat) else (.ok, BitVec.ofNat 64 grp.length)
        | none => (.ok, 0)
    (s.writeRecs 0x5B addr.toNat grp, res)

/-! ## The rows -/

/-- EVENT_RAISE: a block raises an event (R376 to R378). -/
def execEventRaise (code : BitVec 16) (src sev : Byte) (p1 p2 p3 : Word) (s : State) : Host.Outcome State Fault Refusal :=
  .next (s.onDev (fun d => d.intake { time := d.time, code := code, src := src, sev := sev, p1 := p1, p2 := p2, p3 := p3,
                                      count := 1 }))

/-- EVR_RING_WRITE (R376, R379 to R381). -/
def execEvrRingWrite (w : RingOutcome) (s : State) : Host.Outcome State Fault Refusal :=
  .next (s.onDev (fun d => d.ringWrite w))

/-- FLASH_PERSIST (R384, R385). -/
def execFlashPersist (o : FlashOutcome) (s : State) : Host.Outcome State Fault Refusal :=
  .next (s.onDev (fun d => d.flashPersist o))

/-- LOG_FLASH_SCAN (R386). -/
def execLogFlashScan (answers : Bool) (s : State) : Host.Outcome State Fault Refusal :=
  .next (s.onDev (fun d => d.logFlashScan answers))

/-- FREEZE_EXPIRE: 20 ms after FREEZE landed the freeze ends (R383). -/
def execFreezeExpire (s : State) : Host.Outcome State Fault Refusal :=
  .next (s.onDev (fun d => d.unfreeze true))

/-- LOG_FETCH (R387). -/
def execLogFetch (tag start count : Word) (addr : DWord) (s : State) : Host.Outcome State Fault Refusal :=
  .next (s.command .flash 0x50 tag (fun s => s.logFetch start count addr))

end Sys2Proof.Machine
end

