-- ==== Sys2Proof/Machine/Host.lean ====
section
/-! DEFINITION. The host interface (16_host_startup.md R394 to R405, R414): mailbox rows, NOP and FENCE, BAR0
accesses of a wrong size, the BAR2 window and the DMA channels. -/

namespace Sys2Proof.Machine

/-! ## Registers that show the queues (R414) -/

/-- HST_STAT as it reads: PHASE, SUP_RESTART, QUEUED and LANE_BUSY (R414). -/
def Dev.hstStat (d : Dev) : Nat :=
  d.get F.HST_STAT_PHASE + 8 * b2n (decide (d.sys.sup = .restarting)) + 16 * d.hst.queued +
    1024 * (b2n (d.laneCmd .ctrl).isSome + 2 * b2n (d.laneCmd .buf).isSome + 4 * b2n (d.laneCmd .load).isSome +
      8 * b2n (d.laneCmd .flash).isSome)

/-- The head completion's words (R403). -/
def Dev.cplWord (d : Dev) (w : Nat) : Nat :=
  match d.hst.cpl with
  | [] => 0
  | c :: _ =>
    match w with
    | 0 => c.tag.toNat
    | 1 => c.op + 256 * c.result + 65536 * b2n c.dup
    | 2 => c.value.toNat % 2 ^ 32
    | _ => c.value.toNat / 2 ^ 32

/-! ## The mailbox (R400 to R403) -/

/-- The device is in the start-up phase READY or HALTED, in which the mailbox is open (R411, R412). -/
def Dev.ready (d : Dev) : Bool := d.get F.HST_STAT_PHASE == 4 || d.get F.HST_STAT_PHASE == 5

/-- A write of mailbox word w below 15 (R400): kept while FREE is 1, else dropped with 0x0E04. -/
def Dev.mbxWrite (d : Dev) (w : Nat) (v : Word) : Dev :=
  if d.hst.free then { d with hst := { d.hst with mbx := tput d.hst.mbx w v } }
  else d.raise 0x0E04 0x01 2 w v.toNat 0

/-- The write of word 15 (R400): the command is submitted and recorded once as 0x0111, FREE clears, and the contents move to
the queue if it has room. -/
def Dev.mbxSubmit (d : Dev) (v : Word) : Dev :=
  if d.hst.free then
    let h := { d.hst with mbx := tput d.hst.mbx 15 v, free := false }
    let op := (h.word 0).toNat % 256
    let dup := (h.known 0 (h.word 1)).isSome
    (({ d with hst := h }).raise 0x0111 0x01 0 (op + 65536 * b2n dup) (h.word 1).toNat (h.word 2).toNat).mbxMove
  else d.raise 0x0E04 0x01 2 15 v.toNat 0

/-- MAILBOX_WORD_WRITE (R400). -/
def execMailboxWordWrite (w : Fin 15) (v : Word) (s : State) : Host.Outcome State Fault Refusal :=
  .next (s.onDev (fun d => d.mbxWrite w.val v))

/-- MAILBOX_SUBMIT (R400). -/
def execMailboxSubmit (v : Word) (s : State) : Host.Outcome State Fault Refusal :=
  .next (s.onDev (fun d => d.mbxSubmit v))

/-- The next command of lane l, if it was judged UNKNOWN or PARAM on submission and its turn has come, completes with that
result (R401, R404). -/
def Dev.answerVerdict (d : Dev) (l : Lane) : Dev :=
  match (d.laneCmd l).isNone && decide (d.sys.sup ≠ .restarting), d.hst.headOf l with
  | true, some c =>
    match c.verdict with
    | some r => d.finish l c.op c.tag r 0
    | none => d
  | _, _ => d

/-- A RIG_PROGRAM whose completion is placed writes its slot no more. -/
def Dev.progDone (d : Dev) (c : Completion) : Dev :=
  if c.op == 0x13 && !c.dup then { d with rig := { d.rig with prog := none } } else d

/-- COMMAND_COMPLETE (R403): the finished command of a lane places its completion in the completion queue, or waits while 32
completions stand there. A full mailbox then moves if there is room (R400). -/
def Dev.commandComplete (d : Dev) (l : Lane) : Dev :=
  let d0 := if (tget [] d.hst.finished (laneIx l)).isEmpty then d.answerVerdict l else d
  match tget [] d0.hst.finished (laneIx l) with
  | [] => d0
  | c :: rest =>
    if d0.hst.cpl.length < 32 then
      (({ d0 with hst := { d0.hst with cpl := d0.hst.cpl ++ [c],
                                       finished := if rest.isEmpty then tdel d0.hst.finished (laneIx l)
                                                   else tput d0.hst.finished (laneIx l) rest } }).progDone c).mbxMove
    else d0

/-- COMMAND_COMPLETE (R403). -/
def execCommandComplete (l : Lane) (s : State) : Host.Outcome State Fault Refusal :=
  .next (s.onDev (fun d => d.commandComplete l))

/-- POP written 1 removes the head completion (R403). -/
def Dev.cplPop (d : Dev) (v : Word) : Dev :=
  if v.toNat % 2 == 1 then { d with hst := { d.hst with cpl := d.hst.cpl.drop 1 } } else d

/-- HST_CPL_POP (R403). -/
def execHstCplPop (v : Word) (s : State) : Host.Outcome State Fault Refusal :=
  .next (s.onDev (fun d => d.cplPop v))

/-- NOP (R405): completes OK with HST_STAT as its value. -/
def execNop (tag : Word) (s : State) : Host.Outcome State Fault Refusal :=
  .next (s.command .ctrl 0x01 tag (fun s => (s, .ok, BitVec.ofNat 64 s.dev.hstStat)))

/-! ## FENCE (R330) -/

/-- A waiting request is a write of a source that the mask selects: bits 0 to 3 the DMA channels, bit 4 BAR2. -/
def fenceCovers (mask : Nat) (w : DdrWait) : Bool :=
  w.req.wr.isSome && decide (0x40 ≤ w.req.src) && decide (w.req.src ≤ 0x44) && bitAt mask (w.req.src - 0x40)

/-- FENCE starts (R330): it covers every write of the selected sources that waits or has landed, and those dropped under R334 that no FENCE
has covered before it. -/
def Dev.fenceStart (d : Dev) (tag : Word) (mask : Nat) : Dev :=
  let sel := fun (src : Nat) => bitAt mask (src - 0x40)
  { d with ddr := { d.ddr with
      fence := some ⟨tag, (d.ddr.waiting.filter (fenceCovers mask)).map (·.id), d.ddr.dropped.any sel⟩
      dropped := d.ddr.dropped.filter (fun x => !(sel x)) } }

/-- FENCE (R330): PARAM if a bit above 4 is set. -/
def execFence (tag mask : Word) (s : State) : Host.Outcome State Fault Refusal :=
  .next (s.commandStart .ctrl 0x03 tag [0x03#32, tag, mask] (fun s =>
    if 32 ≤ mask.toNat then (s, some (.param, 0)) else (s.onDev (fun d => d.fenceStart tag mask.toNat), none)))

/-- FENCE_DRAINED (R330): once no covered write waits, FENCE completes OK, or DROPPED if a covered write was dropped. -/
def Dev.fenceDrained (d : Dev) : Dev :=
  match d.ddr.fence with
  | none => d
  | some f =>
    if d.ddr.waiting.any (fun w => f.ids.contains w.id) then d
    else ({ d with ddr := { d.ddr with fence := none } }).finish .ctrl 0x03 f.tag
      (if f.dropped then Res.dropped else Res.ok).code 0

/-- FENCE_DRAINED (R330). -/
def execFenceDrained (s : State) : Host.Outcome State Fault Refusal :=
  .next (s.onDev (fun d => d.fenceDrained))

/-! ## BAR0 and BAR2 (R11, R395) -/

/-- An access of another size or alignment (R11): no effect, a read answers 0x0000_0000, recorded as 0x0E01. -/
def Dev.badAccess (d : Dev) (addr size : Nat) (write : Bool) : Dev :=
  let d1 := if write then d else { d with hst := { d.hst with bar0 := some 0 } }
  d1.raise 0x0E01 0x01 2 addr size (b2n write)

/-- BAR0_BAD_ACCESS (R11). -/
def execBar0BadAccess (addr : Word) (size : Nat) (write : Bool) (s : State) : Host.Outcome State Fault Refusal :=
  .next (s.onDev (fun d => d.badAccess addr.toNat size write))

/-- What the endpoint identifies itself by (R394): Device ID, Revision ID and class code. -/
def Variant.pciId (v : Variant) : Nat × Nat × Nat := (if v == .ax32 then 0xA320 else 0xA160, 0xB0, 0x118000)

/-- The bytes that a BAR opens (R394); BAR4 is not implemented. -/
def barBytes : Nat → Nat
  | 0 => 4 * 2 ^ 20
  | 2 => 256 * 2 ^ 20
  | _ => 0

/-- The device address of an offset in BAR2 (R395). -/
def Dev.bar2Addr (d : Dev) (off : BitVec 28) : Nat := d.get F.HST_WIN_BASE * 2 ^ 28 + off.toNat

/-- BAR2_READ (R395): served in every buffer state; zeros beyond the space; poisoned where R333 leaves no good copy. -/
def execBar2Read (off : BitVec 28) (len : Nat) (s : State) : Host.Outcome State Fault Refusal :=
  let a := s.dev.bar2Addr off
  let r := s.dramRead 0x44 a len
  .next (r.1.onDev (fun d => { d with hst := { d.hst with bar2 := r.2.1, bar2Poison := !r.2.2 && !(s.dev.beyond a len) } }))

/-- BAR2_WRITE (R395, R86): dropped beyond the space and in a buffer that does not take writes. -/
def execBar2Write (off : BitVec 28) (data : List Byte) (s : State) : Host.Outcome State Fault Refusal :=
  .next (s.hostWrite 0x44 (s.dev.bar2Addr off) data).1

/-! ## DMA (R396, R397) -/

/-- The fields of a descriptor (R396). -/
structure DmaDesc where
  host : Nat
  dev : Nat
  len : Nat
  kind : Nat
  buf : Nat
  flags : Nat
  pad : Nat
  gen : Nat
  tail : Nat
  deriving DecidableEq, Repr

/-- A descriptor's fields from its 32 bytes (R396). -/
def dmaParse (b : List Byte) : DmaDesc :=
  { host := leAt b 0 8, dev := leAt b 8 8, len := leAt b 16 4, kind := leAt b 20 1, buf := leAt b 21 1, flags := leAt b 22 1,
    pad := leAt b 23 1, gen := leAt b 24 4, tail := leAt b 29 3 }

/-- The format rules of a descriptor (R396, R397 FORMAT). -/
def DmaDesc.wellFormed (x : DmaDesc) : Bool :=
  x.host % 16 == 0 && x.dev % 16 == 0 && x.len % 16 == 0 && decide (16 ≤ x.len) && decide (x.len ≤ 67108864) &&
  decide (x.kind ≤ 2) && (if x.kind == 2 then decide (x.buf < 16) else x.buf == 0 && x.gen == 0) &&
  decide (x.flags ≤ 1) && x.pad == 0 && x.tail == 0

/-- The device address a descriptor names: its own, or its offset in the buffer (R396). -/
def Dev.dmaAddr (d : Dev) (x : DmaDesc) : Nat :=
  if x.kind == 2 then d.get (F.BED_BUFn_BASE_BASE x.buf) * 4096 + x.dev else x.dev

/-- DEV and LEN leave the address space or the buffer (R397 RANGE). -/
def Dev.dmaRange (d : Dev) (x : DmaDesc) : Bool :=
  if x.kind == 2 then decide (d.get (F.BED_BUFn_SIZE_SIZE x.buf) * 4096 < x.dev + x.len) || d.beyond (d.dmaAddr x) x.len
  else d.beyond x.dev x.len

/-- The buffer is not FILLING in the descriptor's generation (R87, R397 STALE). -/
def Dev.dmaStale (d : Dev) (x : DmaDesc) : Bool :=
  x.kind == 2 && (d.get (F.BED_BUFn_STAT_STATE x.buf) != 1 || d.get (F.BED_BUFn_GEN_GEN x.buf) != x.gen)

/-- Channel c may take a descriptor (R396): EN is 1, none is in progress, TAIL has not reached HEAD. -/
def Dev.dmaTakes (d : Dev) (c : Nat) : Bool :=
  d.flag (F.HST_DMAc_CTRL_EN c) && (tfind d.hst.dma c).isNone &&
  d.get (F.HST_DMAc_TAIL_INDEX c) != d.get (F.HST_DMAc_HEAD_INDEX c)

/-- The channel works on a descriptor whose status will be `st`, having moved n bytes; RUN reads 1 (R396, R414). -/
def Dev.dmaJob (d : Dev) (c : Nat) (x : DmaDesc) (st n : Nat) : Dev :=
  let total := tget 0 d.hst.dmaBytes c + n
  (({ d with hst := { d.hst with
      dma := tput d.hst.dma c ⟨BitVec.ofNat 64 x.host, d.get (F.HST_DMAc_TAIL_INDEX c), x.flags % 2 == 1, st, n⟩
      dmaBytes := tput d.hst.dmaBytes c (total % 4096) } }).setFlag (F.HST_DMAc_STAT_RUN c) true).bumpWrap
    (F.HST_DMAc_BYTES_COUNT c) (total / 4096)

/-- DMA_DESCRIPTOR (R396, R397): the channel takes the descriptor at TAIL and moves its data. `host` is what the read of host
memory brought: all LEN bytes, fewer where the read failed (the data before the failure lands), or none. The statuses are
judged in the order FORMAT, STALE, RANGE, then the outcome of the transfer (log entry 12). -/
def State.dmaTake (s : State) (c : Nat) (desc : List Byte) (host : Option (List Byte)) : State :=
  let x := dmaParse desc
  if !(s.dev.dmaTakes c) then s
  else if !x.wellFormed then s.onDev (fun d => d.dmaJob c x 0x07 0)
  else if s.dev.dmaStale x then s.onDev (fun d => d.dmaJob c x 0x02 0)
  else if s.dev.dmaRange x then s.onDev (fun d => d.dmaJob c x 0x03 0)
  else
    let a := s.dev.dmaAddr x
    if x.kind == 1 then
      let r := s.dramRead (0x40 + c) a x.len
      let bytes := if r.2.2 then r.2.1 else cleanBytes s.dev s.mem a r.2.1
      r.1.onDev (fun d =>
        ({ d with hst := { d.hst with dmaOut := tput d.hst.dmaOut c (BitVec.ofNat 64 x.host, bytes) } }).dmaJob c x
          (if r.2.2 then 0x01 else 0x05) x.len)
    else
      match host with
      | none => s.onDev (fun d => d.dmaJob c x 0x06 0)
      | some bs =>
        let part := bs.take x.len
        let r := s.hostWrite (0x40 + c) a part
        r.1.onDev (fun d =>
          d.dmaJob c x (if part.length < x.len then 0x06 else if r.2 then 0x01 else 0x04) (s.dev.landed (0x40 + c) a part))

/-- DMA_DESCRIPTOR (R396). -/
def execDmaDescriptor (c : Dma) (desc : List Byte) (host : Option (List Byte)) (s : State) :
    Host.Outcome State Fault Refusal :=
  .next (s.dmaTake c.val desc host)

/-- A descriptor of channel c has completed: a seal that runs waits for one less (R91). -/
def Dev.sealLess (d : Dev) (c : Nat) : Dev :=
  { d with bar := { d.bar with sealing := d.bar.sealing.map (fun r => { r with left := r.left.modify c (· - 1) }) } }

/-- DMA_DESCRIPTOR_DONE (R397): the status is written, TAIL advances round the ring, a status other than OK sets ERR and records
0x0E20, NOTIFY raises attention DMA. -/
def Dev.dmaDone (d : Dev) (c : Nat) : Dev :=
  match tfind d.hst.dma c with
  | none => d
  | some j =>
    let d1 := (({ d with hst := { d.hst with dma := tdel d.hst.dma c, dmaStatus := tput d.hst.dmaStatus c (j.index, j.status) } }).put
      (F.HST_DMAc_TAIL_INDEX c) ((j.index + 1) % max 1 (d.get (F.HST_DMAc_RING_SIZE_SIZE c)))).setFlag
        (F.HST_DMAc_STAT_RUN c) false
    let d2 := if j.status == 1 then d1
      else (d1.setFlag (F.HST_DMAc_STAT_ERR c) true).raise 0x0E20 0x01 2 c j.index j.status
    (if j.notify then d2.attn .dma else d2).sealLess c

/-- DMA_DESCRIPTOR_DONE (R397). -/
def execDmaDescriptorDone (c : Dma) (s : State) : Host.Outcome State Fault Refusal :=
  .next (s.onDev (fun d => d.dmaDone c.val))

end Sys2Proof.Machine
end

