-- ==== Sys2Proof/Machine/Rigging.lean ====
section
/-! DEFINITION. The rigging image: its layout, its validation (02_rigging.md R39 to R58, with the loop rules of
07_power_loops.md R178 to R180), and what the live sections say to the other blocks. -/

namespace Sys2Proof.Machine

/-! ## Section types (R44) -/

/-- DEVICE, FABRIC, PORT, FIELD, COVER, LOOP, SENSOR, ENCODER, LIGHT, PINS, PATCH, NOTE (R44). -/
def knownTypes : List Nat := [0x01, 0x10, 0x11, 0x20, 0x21, 0x30, 0x31, 0x40, 0x50, 0x60, 0x70, 0xF0]

/-- The types with one section for each port (R44). -/
def perPortTypes : List Nat := [0x11, 0x20, 0x21, 0x30]

/-- The types that may carry CLASS BED: FIELD, COVER, LOOP, LIGHT (R44). -/
def bedTypes : List Nat := [0x20, 0x21, 0x30, 0x50]

/-- The payload size of a type of fixed size (R43). -/
def fixedSize : Nat → Option Nat
  | 0x01 => some 16 | 0x11 => some 16 | 0x10 => some 48 | 0x50 => some 48 | 0x60 => some 48 | 0x40 => some 64
  | 0x21 => some 80 | 0x30 => some 128 | 0x20 => some 144 | 0x31 => some 240
  | _ => none

/-- The first section of this type and instance. -/
def sectOf (l : List Section) (t i : Nat) : Option Section := l.find? (fun s => s.type == t && s.inst == i)

/-- The payload of a section, or nothing. -/
def payOf (l : List Section) (t i : Nat) : List Byte :=
  match sectOf l t i with
  | some s => s.payload
  | none => []

/-- Byte o of a payload, 0 beyond its end. -/
def byteAt (p : List Byte) (o : Nat) : Nat := (p.getD o 0).toNat

/-- The first index in a … b − 1 whose byte is not zero (R10, R57 check 13). -/
def firstNonZero (p : List Byte) (a b : Nat) : Option Nat :=
  match (sliceB p a (b - a)).findIdx? (· != 0) with
  | some i => some (a + i)
  | none => none

/-! ## What the sections say -/

/-- FABRIC byte k: what pair k does (R46); 0xFF where no FABRIC is live. -/
def fabricOf (l : List Section) (k : Nat) : Nat :=
  match sectOf l 0x10 0xFF with
  | some s => byteAt s.payload k
  | none => 0xFF

/-- FABRIC assigns port n. -/
def assigned (l : List Section) (n : Nat) : Bool := (upTo 36).any (fun k => fabricOf l k == n)

/-- The ports that FABRIC assigns, in ascending order. -/
def portsInUse (l : List Section) : List Nat := (upTo 32).filter (assigned l)

/-- The Gorwin Link node number (R45). -/
def nodeOf (l : List Section) : Nat := byteAt (payOf l 0x01 0xFF) 0

/-- DEVICE flag bit 0: bed buffers are mirrored (R45). -/
def mirrorOf (l : List Section) : Bool := bitAt (byteAt (payOf l 0x01 0xFF) 1) 0

/-- DEVICE flag bit 1: blade chase is permitted (R45). -/
def chaseOf (l : List Section) : Bool := bitAt (byteAt (payOf l 0x01 0xFF) 1) 1

/-- PORT byte 0: the head speaks XY2-100 (R47). -/
def isXY2 (l : List Section) (n : Nat) : Bool := byteAt (payOf l 0x11 n) 0 == 1

/-- PORT byte 1: MOD± is enabled (R47). -/
def hasMod (l : List Section) (n : Nat) : Bool := bitAt (byteAt (payOf l 0x11 n) 1) 0

/-- PORT byte 1: DAC± is enabled (R47). -/
def hasDac (l : List Section) (n : Nat) : Bool := bitAt (byteAt (payOf l 0x11 n) 1) 1

/-- PORT byte 2, bit 0: melt-pool feedback is required (R47). -/
def meltRequired (l : List Section) (n : Nat) : Bool := bitAt (byteAt (payOf l 0x11 n) 2) 0

/-- PORT byte 2, bit 1: back-reflection is required (R47). -/
def bref_required (l : List Section) (n : Nat) : Bool := bitAt (byteAt (payOf l 0x11 n) 2) 1

/-- PORT byte 3: the third axis drives dynamic focus (R47). -/
def threeAxes (l : List Section) (n : Nat) : Bool := byteAt (payOf l 0x11 n) 3 == 3

/-- PORT bytes 4 to 7: rated laser power in W (R47). -/
def ratedOf (l : List Section) (n : Nat) : Word := f32At (payOf l 0x11 n) 4

/-- The vertices of a FIELD payload (R48). -/
def fieldPts (p : List Byte) : List Pt :=
  (upTo (leAt p 0 2)).map (fun i => (sext 32 (leAt p (16 + 8 * i) 4), sext 32 (leAt p (20 + 8 * i) 4)))

/-- The field polygon of port n. -/
def fieldOf (l : List Section) (n : Nat) : List Pt := fieldPts (payOf l 0x20 n)

/-- An entry of a COVER list (R49). Its preference byte is held, and nothing acts on it: covers are tried in the order COVER1 to COVER3 of the
tile (R245, R249; log entry 129). -/
structure CoverEntry where
  node : Nat
  port : Nat
  pref : Nat
  deriving DecidableEq, Repr

/-- The entries of a COVER payload (R49). -/
def coverEntries (p : List Byte) : List CoverEntry :=
  (upTo (byteAt p 0)).map (fun j => ⟨byteAt p (16 + 4 * j), byteAt p (17 + 4 * j), byteAt p (18 + 4 * j)⟩)

/-- The COVER list of port n. -/
def coverOf (l : List Section) (n : Nat) : List CoverEntry := coverEntries (payOf l 0x21 n)

/-- A descriptor of a LOOP payload (R51): its index, block type, identifier, input selector, role and constants. -/
structure LoopDesc where
  ix : Nat
  type : Nat
  id : Nat
  sel : Nat
  role : Nat
  consts : List Byte
  deriving DecidableEq, Repr

/-- Descriptor d of a LOOP payload (R51). -/
def loopDesc (p : List Byte) (d : Nat) : LoopDesc :=
  ⟨d, byteAt p (16 * d), byteAt p (16 * d + 1), byteAt p (16 * d + 2), byteAt p (16 * d + 3), sliceB p (16 * d + 4) 12⟩

/-- The non-empty descriptors of port n, in evaluation order (R51). -/
def loopOf (l : List Section) (n : Nat) : List LoopDesc :=
  ((upTo 8).map (loopDesc (payOf l 0x30 n))).filter (fun x => x.type != 0)

/-- SENSOR: the role of photodiode channel c (R52). -/
def pdRole (l : List Section) (c : Nat) : Nat := byteAt (payOf l 0x31 0xFF) c

/-- SENSOR: the front-end type of temperature input t: 0 unused, 1 remote diode, 2 thermistor (R52). -/
def tempType (l : List Section) (t : Nat) : Nat := byteAt (payOf l 0x31 0xFF) (64 + 2 * t)

/-- SENSOR: the role of temperature input t (R52). -/
def tempRole (l : List Section) (t : Nat) : Nat := byteAt (payOf l 0x31 0xFF) (65 + 2 * t)

/-- SENSOR: the port that camera receiver m observes (R52); none where no SENSOR is live. -/
def camPort (l : List Section) (m : Nat) : Option Nat :=
  match sectOf l 0x31 0xFF with
  | none => none
  | some s => if byteAt s.payload (224 + 2 * m) == 0xFF then none else some (byteAt s.payload (224 + 2 * m))

/-- SENSOR: camera receiver m uses virtual channel v (R52). -/
def camVc (l : List Section) (m v : Nat) : Bool := bitAt (byteAt (payOf l 0x31 0xFF) (225 + 2 * m)) v

/-- ENCODER: role of input e: 0 unused, 1 recoater axis, 2 conveyor, 3 auxiliary axis feedback, 4 platform axis (R53). -/
def encRole (l : List Section) (e : Nat) : Nat := byteAt (payOf l 0x40 0xFF) (8 * e)

/-- ENCODER: auxiliary axis index of input e (R53). -/
def encAxis (l : List Section) (e : Nat) : Nat := byteAt (payOf l 0x40 0xFF) (8 * e + 1)

/-- ENCODER: the counting direction of input e is inverted (R53). -/
def encInvert (l : List Section) (e : Nat) : Bool := bitAt (byteAt (payOf l 0x40 0xFF) (8 * e + 2)) 0

/-- ENCODER: input e uses the Z index (R53). -/
def encUsesZ (l : List Section) (e : Nat) : Bool := bitAt (byteAt (payOf l 0x40 0xFF) (8 * e + 2)) 1

/-- ENCODER: counts per mm of input e, binary32 (R53). -/
def encCpm (l : List Section) (e : Nat) : Word := f32At (payOf l 0x40 0xFF) (8 * e + 4)

/-- The input with a role, the lowest first. -/
def encWith (l : List Section) (role : Nat) : Option Nat := (upTo 8).find? (fun e => encRole l e == role)

/-- The input that feeds axis a back (R53, R286). -/
def axisInput (l : List Section) (a : Nat) : Option Nat := (upTo 8).find? (fun e => encRole l e == 3 && encAxis l e == a)

/-- LIGHT: lines used; 0 means lighting is not fitted (R54). -/
def ledLines (l : List Section) : Nat := byteAt (payOf l 0x50 0xFF) 0

/-- LIGHT: columns used (R54). -/
def ledCols (l : List Section) : Nat := byteAt (payOf l 0x50 0xFF) 1

/-- LIGHT: the lamp-board thermistor input (R54). -/
def ledThermistor (l : List Section) : Nat := byteAt (payOf l 0x50 0xFF) 3

/-- LIGHT: colour group of column c, 0xFF where none is fitted (R54). -/
def ledGroup (l : List Section) (c : Nat) : Nat := byteAt (payOf l 0x50 0xFF) (4 + c)

/-- PINS: the function of pin GPFg (R55); 0 where no PINS is live. -/
def pinFn (l : List Section) (g : Nat) : Nat := byteAt (payOf l 0x60 0xFF) g

/-- The pin with an output function, if one has it (R55). -/
def pinWith (l : List Section) (f : Nat) : Option Nat := (upTo 48).find? (fun g => pinFn l g == f)

/-- PATCH: the code length of the live patch, 0 when none is loaded (R56, R69). -/
def patchLen (l : List Section) : Nat := leAt (payOf l 0x70 0xFF) 4 4

/-- The number of beam ports, engine pairs and the like that the ordering code enables (R2). -/
def Variant.ports : Variant → Nat
  | .ax32 => 32
  | .ax16 => 16

/-! ## Range checks of one payload (R57 check 13) -/

/-- A finite binary32 value that is no subnormal. -/
def f32Good (x : Word) : Bool := f32Finite x && !(f32IsSub x)

/-- First offset in a list of conditions that fails. -/
def firstBad : List (Bool × Nat) → Option Nat
  | [] => none
  | (bad, o) :: t => if bad then some o else firstBad t

/-- DEVICE (R45). -/
def badDevice (p : List Byte) : Option Nat :=
  (firstBad [(decide (63 < byteAt p 0), 0), (decide (3 < byteAt p 1), 1)]).or (firstNonZero p 2 16)

/-- FABRIC (R46): values from 0x20 to 0xFD are none of its codes. -/
def badFabric (p : List Byte) : Option Nat :=
  (firstBad ((upTo 36).map (fun k => (decide (0x1F < byteAt p k) && decide (byteAt p k < 0xFE), k)))).or
    (firstNonZero p 36 48)

/-- PORT (R47). -/
def badPort (p : List Byte) : Option Nat :=
  let r := f32At p 4
  (firstBad [
    (decide (1 < byteAt p 0), 0),
    (decide (3 < byteAt p 1) || byteAt p 1 == 0, 1),
    (decide (3 < byteAt p 2), 2),
    (!(byteAt p 3 == 2 || byteAt p 3 == 3) || (byteAt p 0 == 1 && byteAt p 3 != 2), 3),
    (!(f32Good r) || !(decide (0 < f32Val r)) || !(f32Le r 0x47C35000#32), 4)]).or (firstNonZero p 8 16)

/-- FIELD (R48): the vertex count and the zero bytes; the polygon itself is check 16. -/
def badField (p : List Byte) : Option Nat :=
  let v := leAt p 0 2
  (firstBad [(decide (v < 3) || decide (16 < v), 0)]).or
    ((firstNonZero p 2 16).or (firstNonZero p (16 + 8 * v) 144))

/-- COVER (R49): the count, the codes of each entry and the zero bytes. -/
def badCover (p : List Byte) : Option Nat :=
  let n := byteAt p 0
  (firstBad [(decide (16 < n), 0)]).or ((firstNonZero p 1 16).or ((firstBad ((upTo n).flatMap (fun j =>
    let o := 16 + 4 * j
    [(decide (63 < byteAt p o) && byteAt p o != 0xFF, o), (decide (31 < byteAt p (o + 1)), o + 1),
     (byteAt p (o + 3) != 0, o + 3)]))).or (firstNonZero p (16 + 4 * n) 80)))

/-- SENSOR (R52): the codes of each byte. -/
def badSensor (p : List Byte) : Option Nat :=
  (firstBad ((upTo 64).map (fun c => (decide (3 < byteAt p c), c)))).or
    ((firstBad ((upTo 80).flatMap (fun t =>
        [(decide (2 < byteAt p (64 + 2 * t)), 64 + 2 * t),
         (decide ((if t < 64 then 0 else 3) < byteAt p (65 + 2 * t)), 65 + 2 * t)]))).or
      (firstBad ((upTo 8).flatMap (fun m =>
        [(decide (31 < byteAt p (224 + 2 * m)) && byteAt p (224 + 2 * m) != 0xFF, 224 + 2 * m),
         (decide (15 < byteAt p (225 + 2 * m)), 225 + 2 * m)]))))

/-- ENCODER (R53): entries of role 0x00 are not judged further. -/
def badEncoder (p : List Byte) : Option Nat :=
  firstBad ((upTo 8).flatMap (fun e =>
    let o := 8 * e
    let used := byteAt p o != 0
    let c := f32At p (o + 4)
    [(decide (4 < byteAt p o), o),
     (used && decide ((if byteAt p o == 3 then 3 else 0) < byteAt p (o + 1)), o + 1),
     (used && decide (3 < byteAt p (o + 2)), o + 2),
     (used && byteAt p (o + 3) != 0, o + 3),
     (used && (!(f32Good c) || !(decide (0 < f32Val c))), o + 4)]))

/-- LIGHT (R54): bytes 2 to 27 are judged only where lines are used; the group of a column is held against the number of
groups at check 21. -/
def badLight (p : List Byte) : Option Nat :=
  let lit := byteAt p 0 != 0
  (firstBad ([(decide (16 < byteAt p 0), 0), (decide (24 < byteAt p 1), 1),
    (lit && (byteAt p 2 == 0 || decide (4 < byteAt p 2)), 2),
    (lit && (decide (byteAt p 3 < 64) || decide (79 < byteAt p 3)), 3)] ++
    (upTo (byteAt p 1)).map (fun c => (lit && decide (3 < byteAt p (4 + c)) && byteAt p (4 + c) != 0xFF, 4 + c)))).or
    (firstNonZero p 28 48)

/-- A pin function code of R55. -/
def pinCode (f : Nat) : Bool :=
  f == 0 || f == 0x30 || f == 0x31 || (decide (0x10 ≤ f) && decide (f ≤ 0x17)) || (decide (0x20 ≤ f) && decide (f ≤ 0x27)) ||
  (decide (0x40 ≤ f) && decide (f ≤ 0x4F))

/-- PINS (R55). -/
def badPins (p : List Byte) : Option Nat := firstBad ((upTo 48).map (fun g => (!(pinCode (byteAt p g)), g)))

/-- The first byte of a payload that is reserved and not zero, or out of its range (R57 check 13). LOOP is judged at check 18
(R180), NOTE is ignored; no check of R57 names the padding after the code of PATCH, which may hold anything (log entry 129). -/
def badPayload (t : Nat) (p : List Byte) : Option Nat :=
  match t with
  | 0x01 => badDevice p | 0x10 => badFabric p | 0x11 => badPort p | 0x20 => badField p | 0x21 => badCover p
  | 0x31 => badSensor p | 0x40 => badEncoder p | 0x50 => badLight p | 0x60 => badPins p | 0x70 => firstNonZero p 12 16
  | _ => none

/-! ## Loop payloads (R51, R178 to R180) -/

/-- The roles and selectors that a block type permits (R178); none for a type that is not in the table. -/
def blockRules : Nat → Option (List Nat × List Nat)
  | 1 => some ([0], [0]) | 2 => some ([0, 2], [1, 2, 3]) | 3 => some ([0], [0]) | 4 => some ([0], [2]) | 5 => some ([0], [0])
  | 6 => some ([1], [0]) | 7 => some ([1], [0])
  | 8 => some ([2], [1, 2, 3, 0x10, 0x11, 0x12, 0x13, 0x14, 0x15, 0x16, 0x17])
  | _ => none

/-- A value in lo … hi, given as patterns. -/
def f32In (lo hi x : Word) : Bool := f32Good x && f32Le lo x && f32Le x hi

/-- The first offset at which the constants of a descriptor break R178. -/
def badConsts (t : Nat) (b : List Byte) : Option Nat :=
  let x := f32At b 4
  let y := f32At b 8
  match t with
  | 1 => (firstBad [(!(f32In f32One 0x40000000#32 x), 4)]).or (firstNonZero b 8 16)
  | 2 => (firstBad [(!(f32Good x), 4), (!(f32Good y), 8), (!(f32Lt x y), 4)]).or (firstNonZero b 14 16)
  | 3 => (firstBad [(!(f32In 0#32 0x477FFF00#32 x), 4)]).or (firstNonZero b 8 16)
  | 4 => (firstBad [(!(f32Good x), 4), (!(f32Good y), 8), (!(f32Lt x y), 4), (leAt b 12 2 == 0, 12)]).or (firstNonZero b 14 16)
  | 5 => (firstBad [(!(f32In 0#32 f32One x), 4)]).or (firstNonZero b 8 16)
  | 8 => (firstBad [(!(f32In 0#32 f32One x) || f32IsZero x, 4)]).or (firstNonZero b 8 16)
  | _ => firstNonZero b 4 16

/-- The MELT and SRC inputs that a port's channel roles r0, r1 provide (R180). -/
def inputOk (t sel r0 r1 : Nat) : Bool :=
  match t with
  | 2 => (sel == 1 && (r0 == 1 || r0 == 2)) || (sel == 2 && (r1 == 1 || r1 == 2)) ||
         (sel == 3 && ((r0 == 1 && r1 == 2) || (r0 == 2 && r1 == 1)))
  | 4 => r1 == 3
  | _ => true

/-- The first offset at which descriptor d breaks R51 or R178 to R180, given the descriptors before it. -/
def badDesc (p : List Byte) (r0 r1 d : Nat) : Option Nat :=
  let o := 16 * d
  let b := sliceB p o 16
  let x := loopDesc p d
  let before := ((upTo d).map (loopDesc p)).filter (fun y => y.type != 0)
  let r : Option Nat :=
    if x.type == 0 then firstNonZero b 0 16
    else match blockRules x.type with
      | none => some 0
      | some (roles, sels) =>
        (firstBad [
          (before.any (fun y => y.type == x.type), 0),
          (x.id == 0 || before.any (fun y => y.id == x.id), 1),
          (!(sels.contains x.sel), 2),
          (decide (0x10 ≤ x.sel) && !(before.any (fun y => y.ix + 0x10 == x.sel)), 2),
          (!(roles.contains x.role), 3),
          (!(inputOk x.type x.sel r0 r1), 2)]).or (badConsts x.type b)
  match r with
  | some i => some (o + i)
  | none => none

/-- The first offset at which a LOOP payload breaks R51 or R178 to R180 (check 18). -/
def badLoop (p : List Byte) (r0 r1 : Nat) : Option Nat :=
  match (upTo 8).findSome? (badDesc p r0 r1) with
  | some o => some o
  | none => if (upTo 8).any (fun d => (loopDesc p d).type == 1) then none else some 0

/-! ## The image as a whole (R39 to R43, checks 1 to 7) -/

/-- Where an image fails: the check, RIG_ERR.SECTION and RIG_ERR_OFFSET (R57). -/
structure RigErr where
  check : Nat
  sect : Nat
  offset : Nat
  deriving DecidableEq, Repr

/-- A section found in an image, with the offset of its header. -/
structure Found where
  off : Nat
  ver : Nat
  resv : Nat
  sec : Section
  deriving DecidableEq, Repr

/-- The sections from offset o up to `stop`, or the offset of the first byte that breaks R43 (check 7). -/
def walkSections (img : List Byte) (stop : Nat) : Nat → Nat → Except Nat (List Found)
  | 0, _ => .ok []
  | n + 1, o =>
    if stop ≤ o then .ok []
    else
      let t := leAt img o 2
      let len := leAt img (o + 4) 4
      let sizeOk := match fixedSize t with
        | some k => len == k
        | none => true
      if stop < o + 16 then .error o
      else if !(len % 16 == 0) || len < 16 || 1048576 < len || !sizeOk || stop < o + 16 + len then .error (o + 4)
      else
        match walkSections img stop n (o + 16 + len) with
        | .error e => .error e
        | .ok l =>
          .ok (⟨o, leAt img (o + 8) 2, leAt img (o + 10) 2,
                ⟨t, byteAt img (o + 2), byteAt img (o + 3), sliceB img (o + 16) len, f32At img (o + 12)⟩⟩ :: l)

/-- Checks 1 to 7 (R57) on the data offered; `kind` is the KIND that suits the use. -/
def checkImage (data : List Byte) (kind : Nat) : Except RigErr (List Found) :=
  let h := fun (c o : Nat) => (Except.error ⟨c, 0x3FF, o⟩ : Except RigErr (List Found))
  let len := leAt data 8 4
  let hdr := data.take 64
  if leAt hdr 0 4 != 0x47525841 then h 1 0
  else if leAt hdr 4 2 != 1 then h 2 4
  else if leAt hdr 6 2 != 64 then h 2 6
  else if (crc32c (hdr.take 60)).toNat != leAt hdr 60 4 then h 3 0x3C
  else if len % 16 != 0 || len < 112 || 4194304 < len || data.length < len then h 4 8
  else
    let img := data.take len
    if (crc32c (img.take (len - 4))).toNat != leAt img (len - 4) 4 then h 5 (len - 4)
    else if leAt hdr 0x18 2 != 0 && leAt hdr 0x18 2 != 0xB0 then h 6 0x18
    else if leAt hdr 0x0C 2 == 0 || 512 < leAt hdr 0x0C 2 then h 6 0x0C
    else if byteAt hdr 0x0E != kind then h 6 0x0E
    else if byteAt hdr 0x0F != 0 then h 6 0x0F
    else if leAt hdr 0x1A 2 != 0 then h 6 0x1A
    else if !(allZero (sliceB hdr 0x20 28)) then h 6 0x20
    else
      match walkSections img (len - 16) 512 64 with
      | .error o => h 7 o
      | .ok l =>
        if l.length != leAt hdr 0x0C 2 ||
            64 + (l.map (fun f => 16 + f.sec.payload.length)).foldl (· + ·) 0 != len - 16 then h 7 0x0C
        else
          match firstNonZero img (len - 16) (len - 4) with
          | some o => h 7 o
          | none => .ok l

/-! ## Sections one by one (checks 8 to 13) -/

/-- INSTANCE suits the scope of the type (R43, R44) and names no disabled port (R3). -/
def instOk (ports t i : Nat) : Bool :=
  if perPortTypes.contains t then decide (i < ports)
  else if t == 0xF0 then decide (i < ports) || i == 0xFF
  else i == 0xFF

/-- CLASS is permitted (R44): BOOT outside a swap image, BED for the types that allow it. -/
def clsOk (kind t c : Nat) : Bool :=
  (c == 0 && kind == 0) || (c == 1 && (bedTypes.contains t || t == 0xF0))

/-- Checks 8 to 13 on one section, given those before it: the check and the offset from its header. -/
def checkSection (ports kind : Nat) (before : List Found) (f : Found) : Option (Nat × Nat) :=
  let s := f.sec
  if crc32c s.payload != s.crc then some (8, 12)
  else if !(knownTypes.contains s.type) then some (9, 0)
  else if f.ver != 1 then some (9, 8)
  else if !(clsOk kind s.type s.cls) then some (10, 2)
  else if !(instOk ports s.type s.inst) then some (11, 3)
  else if s.type != 0xF0 && before.any (fun b => b.sec.type == s.type && b.sec.inst == s.inst) then some (12, 0)
  else if f.resv != 0 then some (13, 10)
  else match badPayload s.type s.payload with
    | some o => some (13, 16 + o)
    | none => none

/-- Checks 8 to 13 on every section in image order. -/
def checkSections (ports kind : Nat) : Nat → List Found → List Found → Option RigErr
  | _, _, [] => none
  | i, before, f :: t =>
    match checkSection ports kind before f with
    | some (c, o) => some ⟨c, i, f.off + o⟩
    | none => checkSections ports kind (i + 1) (before ++ [f]) t

/-! ## The set (checks 14 to 23) -/

/-- A failure of a set check in the section of type t and instance i, at payload offset o: in the offered image by index and byte
offset, else as a live or missing section (R57). -/
def setErr (fs : List Found) (check t i o : Nat) : RigErr :=
  match fs.findIdx? (fun f => f.sec.type == t && f.sec.inst == i), fs.find? (fun f => f.sec.type == t && f.sec.inst == i) with
  | some k, some f => ⟨check, k, f.off + 16 + o⟩
  | _, _ => ⟨check, 0x3FE, t + i * 65536⟩

/-- Check 14 (R58). On the AX16 a FABRIC byte that names a disabled port is a matter of check 15 (R3), and asks for no sections. -/
def check14 (ports : Nat) (fs : List Found) (l : List Section) : Option RigErr :=
  match [0x01, 0x10, 0x31, 0x40, 0x50, 0x60].find? (fun t => (sectOf l t 0xFF).isNone) with
  | some t => some ⟨14, 0x3FE, t + 0xFF * 65536⟩
  | none =>
    let missing := ((portsInUse l).filter (fun n => decide (n < ports))).flatMap (fun n =>
      (perPortTypes.filter (fun t => (sectOf l t n).isNone)).map (fun t => (t, n)))
    match missing with
    | (t, n) :: _ => some ⟨14, 0x3FE, t + n * 65536⟩
    | [] =>
      match l.find? (fun s => perPortTypes.contains s.type && !(assigned l s.inst)) with
      | some s =>
        match fs.findIdx? (fun f => f.sec.type == s.type && f.sec.inst == s.inst),
              fs.find? (fun f => f.sec.type == s.type && f.sec.inst == s.inst) with
        | some k, some f => some ⟨14, k, f.off + 3⟩
        | _, _ => some ⟨14, 0x3FE, s.type + s.inst * 65536⟩
      | none => none

/-- Check 15 (R46): each port in use is named by one pair; on the AX16 bytes 18 to 35 are 0xFF and no disabled port is named. -/
def check15 (ports : Nat) (fs : List Found) (l : List Section) : Option RigErr :=
  let b := fabricOf l
  match (upTo 36).find? (fun k =>
      (decide (b k ≤ 0x1F) && (upTo 36).any (fun j => j != k && b j == b k)) ||
      (decide (ports ≤ b k) && decide (b k ≤ 0x1F)) || (ports == 16 && decide (18 ≤ k) && b k != 0xFF)) with
  | some k => some (setErr fs 15 0x10 0xFF k)
  | none => none

/-- Check 16 (R48). -/
def check16 (fs : List Found) (l : List Section) : Option RigErr :=
  (portsInUse l).findSome? (fun n =>
    match polyBad (fieldOf l n) with
    | some i => some (setErr fs 16 0x20 n (16 + 8 * i))
    | none => none)

/-- An entry of the COVER list of port n breaks R49. -/
def coverBad (ports : Nat) (l : List Section) (n : Nat) (es : List CoverEntry) (j : Nat) : Bool :=
  let e := es.getD j ⟨0, 0, 0⟩
  (if e.node == 0xFF then
    !(assigned l e.port) || e.port == n || decide (ports ≤ e.port) || !(overlapEnough (fieldOf l n) (fieldOf l e.port))
   else e.node == nodeOf l) ||
  (es.drop (j + 1)).any (fun x => x.node == e.node && x.port == e.port)

/-- Check 17 (R49). -/
def check17 (ports : Nat) (fs : List Found) (l : List Section) : Option RigErr :=
  (portsInUse l).findSome? (fun n =>
    let es := coverOf l n
    match (upTo es.length).find? (coverBad ports l n es) with
    | some j => some (setErr fs 17 0x21 n (16 + 4 * j))
    | none => none)

/-- Check 18 (R51, R180). -/
def check18 (fs : List Found) (l : List Section) : Option RigErr :=
  (portsInUse l).findSome? (fun n =>
    match badLoop (payOf l 0x30 n) (pdRole l (2 * n)) (pdRole l (2 * n + 1)) with
    | some o => some (setErr fs 18 0x30 n o)
    | none => none)

/-- Check 19 (R52): sensors A and B, the melt-pool channel, the second colour, the channel of BREF, the required
back-reflection, and the rules of the AX16. -/
def check19 (ports : Nat) (fs : List Found) (l : List Section) : Option RigErr :=
  let s := fun o => setErr fs 19 0x31 0xFF o
  let perPort := fun n =>
    let r0 := pdRole l (2 * n)
    let r1 := pdRole l (2 * n + 1)
    let used := assigned l n
    if used && tempType l (2 * n) == 0 then some (s (64 + 4 * n))
    else if used && tempType l (2 * n + 1) == 0 then some (s (66 + 4 * n))
    else if used && r0 != 1 && r1 != 1 then some (s (2 * n))
    else if r0 == 2 && r1 != 1 then some (s (2 * n))
    else if r1 == 2 && r0 != 1 then some (s (2 * n + 1))
    else if r0 == 3 then some (s (2 * n))
    else if used && bref_required l n && r1 != 3 then some (setErr fs 19 0x11 n 2)
    else none
  match (upTo 32).findSome? perPort with
  | some e => some e
  | none =>
    if ports == 32 then none
    else
      let p := payOf l 0x31 0xFF
      match firstNonZero p 32 64 with
      | some o => some (s o)
      | none =>
        match (upTo 32).find? (fun t => tempType l (32 + t) != 0) with
        | some t => some (s (128 + 2 * t))
        | none =>
          match (upTo 8).find? (fun m => match camPort l m with | some q => decide (16 ≤ q) | none => false) with
          | some m => some (s (224 + 2 * m))
          | none => none

/-- Check 20 (R53). -/
def check20 (fs : List Found) (l : List Section) : Option RigErr :=
  let twice := fun (e : Nat) => (upTo 8).any (fun f => decide (e < f) &&
    ((encRole l e == 1 && encRole l f == 1) || (encRole l e == 4 && encRole l f == 4) ||
     (encRole l e == 3 && encRole l f == 3 && encAxis l e == encAxis l f)))
  match (upTo 8).find? twice with
  | some e => some (setErr fs 20 0x40 0xFF (8 * e))
  | none => if chaseOf l && (encWith l 1).isNone then some (setErr fs 20 0x40 0xFF 0) else none

/-- Check 21 (R54). Columns without lines, and lines without columns, fail here: each value is within the range of check 13 by itself (log
entry 129). -/
def check21 (fs : List Found) (l : List Section) : Option RigErr :=
  let p := payOf l 0x50 0xFF
  let e := fun o => some (setErr fs 21 0x50 0xFF o)
  if ledLines l == 0 then (if ledCols l != 0 then e 1 else none)
  else if ledCols l == 0 then e 1
  else if tempType l (ledThermistor l) == 0 || tempRole l (ledThermistor l) != 1 then e 3
  else
    match (upTo (ledCols l)).find? (fun c => ledGroup l c != 0xFF && decide (byteAt p 2 ≤ ledGroup l c)) with
    | some c => e (4 + c)
    | none => none

/-- Check 22 (R55): each output function on one pin at most. -/
def check22 (fs : List Found) (l : List Section) : Option RigErr :=
  match (upTo 48).find? (fun g => decide (0x10 ≤ pinFn l g) && decide (pinFn l g < 0x40) &&
      (upTo 48).any (fun h => decide (g < h) && pinFn l h == pinFn l g)) with
  | some g => some (setErr fs 22 0x60 0xFF g)
  | none => none

/-- Check 23 (R56). -/
def check23 (fs : List Found) (l : List Section) : Option RigErr :=
  match sectOf l 0x70 0xFF with
  | none => none
  | some s =>
    let p := s.payload
    match firstBad [(leAt p 0 4 != 0x0B000001, 0), (leAt p 4 4 == 0 || decide (p.length - 16 < leAt p 4 4), 4),
        (decide (leAt p 4 4 ≤ leAt p 8 4), 8)] with
    | some o => some (setErr fs 23 0x70 0xFF o)
    | none => none

/-- Checks 14 to 23 in order (R57). -/
def checkSet (ports : Nat) (fs : List Found) (l : List Section) : Option RigErr :=
  (check14 ports fs l).or <| (check15 ports fs l).or <| (check16 fs l).or <| (check17 ports fs l).or <| (check18 fs l).or <|
  (check19 ports fs l).or <| (check20 fs l).or <| (check21 fs l).or <| (check22 fs l).or (check23 fs l)

/-- The set of a swap: the live sections, each replaced by the offered one of its type and instance; NOTE is never compared. -/
def swapSet (live offered : List Section) : List Section :=
  let os := offered.filter (fun s => s.type != 0xF0)
  live.map (fun s => match sectOf os s.type s.inst with | some x => x | none => s) ++
    os.filter (fun s => (sectOf live s.type s.inst).isNone)

/-- Every check of R57 in its order: the sections of the image, or where it fails. `live` is the set that a swap image is laid
over; a full image (kind 0) stands alone. -/
def rigValidate (ports kind : Nat) (live : List Section) (data : List Byte) : Except RigErr (List Section) :=
  match checkImage data kind with
  | .error e => .error e
  | .ok fs =>
    match checkSections ports kind 0 [] fs with
    | some e => .error e
    | none =>
      let secs := fs.map (fun f => f.sec)
      let set := if kind == 0 then secs else swapSet live secs
      match checkSet ports fs set with
      | some e => .error e
      | none => .ok secs

/-- An image is refused (R57): RIG_ERR, RIG_ERR_OFFSET, REFUSED and event 0x0102 with its origin (R434). -/
def Dev.rigRefuse (d : Dev) (e : RigErr) (origin : Nat) (data : List Byte) : Dev :=
  ((((d.put F.RIG_ERR_CHECK e.check).put F.RIG_ERR_SECTION e.sect).put F.RIG_ERR_OFFSET_OFFSET e.offset).setFlag
    F.RIG_STAT_REFUSED true).raise 0x0102 0x02 2 (e.check + 256 * e.sect + 262144 * origin) e.offset
      (if e.check ≤ 3 then 0 else leAt data 0x10 4)

/-! ## Differences (R64) -/

/-- The 0x0101 events of a change from one set to another: sections of `new` that differ or are added, in their order, then, for a
full load, sections of `old` that are gone. NOTE sections are not compared. -/
def Dev.rigDiff (d : Dev) (old new : List Section) (full : Bool) : Dev :=
  let cmp := fun (l : List Section) => l.filter (fun s => s.type != 0xF0)
  let d1 := (cmp new).foldl (fun d s =>
    match sectOf old s.type s.inst with
    | some o =>
      if o.payload == s.payload then d
      else d.raise 0x0101 0x02 0 (s.type + 65536 * s.inst + 2 * 2 ^ 24) o.crc.toNat s.crc.toNat
    | none => d.raise 0x0101 0x02 0 (s.type + 65536 * s.inst + 1 * 2 ^ 24) 0 s.crc.toNat) d
  if full then
    (cmp old).foldl (fun d s =>
      if (sectOf new s.type s.inst).isSome then d
      else d.raise 0x0101 0x02 0 (s.type + 65536 * s.inst + 3 * 2 ^ 24) s.crc.toNat 0) d1
  else d1

/-- The sections under which a bed is exposed (R67): the previous set for the old bed while it is held, else the live one. -/
def Dev.sections (d : Dev) (old : Bool) : List Section :=
  if old then (match d.rig.prev with | some l => l | none => d.rig.live) else d.rig.live

/-- The device holds a rigging (R61): RIG_STAT.STATE is not UNRIGGED, nor LOADING with UNRIGGED before it (R420, log entry 111). -/
def Dev.rigged (d : Dev) : Bool :=
  d.get F.RIG_STAT_STATE != 0 && (d.get F.RIG_STAT_STATE != 1 || d.rig.staged.any (fun x => x.back != 0))

end Sys2Proof.Machine
end

