-- ==== Sys2Proof/Machine/Domain.lean ====
section
/-! DEFINITION. The routes of Gorwin Link and the tick domain: the root, joining it, and the upstream port (11_link_and_time.md R296 to R298,
R303, R306). -/

namespace Sys2Proof.Machine

/-- A port without history. -/
def glkPort0 : GlkPort := { since := 0, bad := 0, mark := none, delays := [], echo := none }

/-- Port p beside its registers. -/
def Dev.glkPort (d : Dev) (p : Nat) : GlkPort := tget glkPort0 d.glk.ports p

/-- The state with port p changed. -/
def Dev.updGlkPort (d : Dev) (p : Nat) (f : GlkPort → GlkPort) : Dev :=
  { d with glk := { d.glk with ports := tput d.glk.ports p (f (d.glkPort p)) } }

/-- Port p is UP (R308). -/
def Dev.glkUp (d : Dev) (p : Nat) : Bool := d.get (F.GLKp_STAT_STATE p) == 5

/-- The ports that are UP. -/
def Dev.glkUps (d : Dev) : List Nat := (upTo 4).filter (fun p => d.glkUp p)

/-- This device's node number (R45). -/
def Dev.node (d : Dev) : Nat := nodeOf (d.sections false)

/-! ## Routes (R306) -/

/-- The neighbours of a node: of this one from its ports, of another from its last ROUTE. -/
def Dev.nbrs (d : Dev) (n : Nat) : List Nat :=
  if n == d.node then d.glkUps.map (fun p => d.get (F.GLKp_STAT_NBR_NODE p)) else tget [] d.glk.routes n

/-- Hops from a set of nodes to each node reached: breadth first, n levels. -/
def Dev.hopsFrom (d : Dev) : Nat → Nat → List Nat → Table Nat → Table Nat
  | 0, _, _, seen => seen
  | n + 1, k, last, seen =>
    let next := (last.flatMap d.nbrs).foldl (fun (l : List Nat) m => if (tfind seen m).isSome || l.contains m then l else l ++ [m]) []
    if next.isEmpty then seen else d.hopsFrom n (k + 1) next (next.foldl (fun t m => tput t m k) seen)

/-- Hops from this node to each other node. -/
def Dev.hopTable (d : Dev) : Table Nat := tdel (d.hopsFrom 64 1 [d.node] [(d.node, 0)]) d.node

/-- Hops to a node through port p, without passing through this node again. -/
def Dev.hopsVia (d : Dev) (p n : Nat) : Option Nat :=
  let b := d.get (F.GLKp_STAT_NBR_NODE p)
  (tfind (d.hopsFrom 64 1 [b] (tput [(d.node, 0)] b 0)) n).map (· + 1)

/-- The port through which a node is reached by the shortest route, the lower one on a tie. -/
def Dev.nextHop (d : Dev) (n : Nat) : Option Nat :=
  (d.glkUps.foldl (fun (b : Option (Nat × Nat)) p => match d.hopsVia p n, b with
    | some h, none => some (p, h)
    | some h, some (q, k) => some (if h < k then (p, h) else (q, k))
    | none, b => b) none).map (·.1)

/-- A set of nodes as one word of a mask. -/
def maskWord (w : Nat) (l : List Nat) : Nat := (upTo 32).foldl (fun m i => bitPut m i (l.contains (32 * w + i))) 0

/-- The nodes known to be apart: neighbours whose last marker said so (R301). -/
def Dev.apartNodes (d : Dev) : List Nat :=
  d.glkUps.filterMap (fun p => match (d.glkPort p).mark with
    | some (m, _) => if m.apart then some (d.get (F.GLKp_STAT_NBR_NODE p)) else none
    | none => none)

/-- GLK_REACH and GLK_DOMAIN follow the routes and the role. -/
def Dev.reachBits (d : Dev) : Dev :=
  let reach := d.hopTable.map (·.1)
  let role := d.get F.GLK_STAT_ROLE
  let dom := if role == 1 || role == 2 then d.node :: reach.filter (fun n => !(d.apartNodes.contains n)) else []
  (((d.put F.GLK_REACH0_NODES (maskWord 0 reach)).put F.GLK_REACH1_NODES (maskWord 1 reach)).put F.GLK_DOMAIN0_NODES
    (maskWord 0 dom)).put F.GLK_DOMAIN1_NODES (maskWord 1 dom)

/-- Node n is reachable. -/
def Dev.reaches (d : Dev) (n : Nat) : Bool :=
  if n < 32 then d.bit F.GLK_REACH0_NODES n else d.bit F.GLK_REACH1_NODES (n - 32)

/-! ## The upstream port (R303) -/

/-- The valid marker of port p, unless three have been invalid since. -/
def Dev.markOf (d : Dev) (p : Nat) : Option (Marker × Word) := if 3 ≤ (d.glkPort p).bad then none else (d.glkPort p).mark

/-- The port that leads with the fewest hops to a root that is reachable, the lower one on a tie, with the hops: its neighbour's markers name
the root, and a route through it comes there without this node (R303, R306), so that what a neighbour last said of a root that is lost
leads nowhere. -/
def Dev.upstreamTo (d : Dev) (r : Nat) : Option (Nat × Nat) :=
  d.glkUps.foldl (fun (b : Option (Nat × Nat)) p => match d.markOf p with
    | some (m, _) =>
      if m.root.val == r && d.reaches r && (d.hopsVia p r).isSome then
        match b with
        | some (_, h) => if m.hops.val + 1 < h then some (p, m.hops.val + 1) else b
        | none => some (p, m.hops.val + 1)
      else b
    | none => b) none

/-- GLK_STAT and the UPSTREAM bits for a role, root, upstream port and hops. -/
def Dev.setRole (d : Dev) (role : Nat) (root up : Option Nat) (hops : Nat) : Dev :=
  let d1 := { d with glk := { d.glk with root := root, up := up } }
  let d2 := ((d1.put F.GLK_STAT_ROLE role).put F.GLK_STAT_ROOT (root.getD 0)).put F.GLK_STAT_HOPS hops
  ((upTo 4).foldl (fun d p => d.setFlag (F.GLKp_STAT_UPSTREAM p) (decide (up = some p))) d2).reachBits

/-- The servo's state where the device takes its time from a root, or no longer does (R298, R312). -/
def Dev.followTime (d : Dev) (member : Bool) : Dev :=
  if member then d.put F.PTP_STAT_STATE 6
  else if d.get F.PTP_STAT_STATE == 6 then
    { d.put F.PTP_STAT_STATE (b2n (d.flag F.PTP_CTRL_EN)) with ptp := { d.ptp with run := 0, first := some [] } }
  else d

/-! ## The root and joining it (R296 to R298) -/

/-- Internal time at the last T-tick edge. -/
def Dev.edgeTime (d : Dev) : DWord := d.time - BitVec.ofNat 64 (250 * d.sub.val)

/-- The root's T-tick counter now, from the marker of a port. -/
def Dev.rootTick (d : Dev) (m : Marker) (at_ : Word) : Word := m.counter + (d.tick - at_)

/-- The root's internal time at a T-tick edge of its counter. -/
def RootTime.at_ (t : RootTime) (tick : Word) : DWord := t.time + BitVec.ofInt 64 ((tick - t.tick).toInt * 1000)

/-- The device joins the domain of root r through port p (R297): a MEMBER. -/
def Dev.joined (d : Dev) (r p hops : Nat) : Dev :=
  let old := d.get F.GLK_STAT_ROOT
  let d1 := if d.get F.GLK_STAT_ROLE == 2 then d.raise 0x0704 0x07 2 old r d.tick.toNat else d
  (d1.raise 0x0707 0x07 1 r hops d.tick.toNat).setRole 2 (some r) (some p) hops |>.followTime true

/-- How far the edge of a marker pair's sender lies after this device's, in 1/16 ns (R302): the arrival less the expected one. -/
def Dev.markErr (d : Dev) (p : Nat) (m : Marker) : Int :=
  m.phase - (m.launch + d.get (F.GLKp_DELAY_DELAY p) + d.getI (F.GLKp_ASYM_ASYM p))

/-- In IDLE a device takes the root's counter, tick phase and internal time as they are (R297): its T-tick edges move by the phase that the
markers of port p show. -/
def Dev.takeTick (d : Dev) (r p : Nat) (m : Marker) (tick : Word) : Dev :=
  let shift := tick - d.tick
  let err := d.markErr p m
  let root := tfind d.glk.rootTimes r
  let time := match root with
    | some t => t.at_ tick + BitVec.ofNat 64 (250 * d.sub.val)
    | none => d.time
  let valid := match root with
    | some t => t.valid
    | none => d.flag F.PTP_STAT_TIME_VALID
  let ports := d.glk.ports.map (fun (x : Nat × GlkPort) =>
    (x.1, { x.2 with mark := x.2.mark.map (fun (y : Marker × Word) => ({ y.1 with phase := y.1.phase - err }, y.2 + shift)) }))
  ({ d with tick := tick, time := time, glk := { d.glk with ports := ports, phase := d.glk.phase + err } }).setFlag F.PTP_STAT_TIME_VALID
    valid

/-- The device stays apart from root r (R297). A root that meets a lower one splits from it. -/
def Dev.detach (d : Dev) (r : Nat) (ticks times : Int) : Dev :=
  let d1 := if d.get F.GLK_STAT_ROLE == 1 then
      ((d.setFlag F.GLK_STAT_SPLIT true).raise 0x0706 0x07 3 r d.node (trunc 32 times)).attn .link
    else d
  ((((d1.setFlag F.GLK_STAT_TICK_MISMATCH true).raise 0x0705 0x07 3 r (trunc 32 ticks) (trunc 32 times)).attn .link).setRole 3 (some d.node)
    none 0).followTime false

/-- The conditions of R297 for root r, seen through port p: a device in IDLE takes its counter, phase and time; another joins where counters
and times agree. While the root's time is not yet known, it waits. A MEMBER whose root still leads it stays with that root, which tests
the conditions itself; every other device becomes DETACHED. -/
def Dev.tryJoin (d : Dev) (r p hops : Nat) (led : Bool) : Dev :=
  match (d.glkPort p).mark with
  | none => d
  | some (m, at_) =>
    let tick := d.rootTick m at_
    if d.get F.BED_STAT_PHASE == 0 then (d.takeTick r p m tick).joined r p hops
    else match tfind d.glk.rootTimes r with
      | none => d
      | some t =>
        let diff := (t.at_ tick - d.edgeTime).toInt
        if tick == d.tick && decide (diff.natAbs ≤ d.get F.PTP_STEP_THR_NS) then d.joined r p hops
        else if led then d
        else d.detach r (tick - d.tick).toInt diff

/-- The device leads its own domain (R296, R298). -/
def Dev.becomeRoot (d : Dev) : Dev :=
  if d.get F.GLK_STAT_ROLE == 1 then d
  else
    let d1 := if d.get F.GLK_STAT_ROLE == 2 then d.raise 0x0704 0x07 2 (d.get F.GLK_STAT_ROOT) d.node d.tick.toNat else d
    (d1.setRole 1 (some d.node) none 0).followTime false

/-- The device stands alone (R296). -/
def Dev.becomeAlone (d : Dev) : Dev := if d.get F.GLK_STAT_ROLE == 0 then d else (d.setRole 0 none none 0).followTime false

/-- The roots that can be followed (R296): this node, where it may be root, and the reachable ones that ports lead to. -/
def Dev.rootCands (d : Dev) : List Nat :=
  (if d.flag F.GLK_CTRL_ROOT_EN then [d.node] else []) ++
  d.glkUps.filterMap (fun p => match d.markOf p with
    | some (m, _) => if m.apart || m.root.val == d.node || (d.upstreamTo m.root.val).isNone then none else some m.root.val
    | none => none)

/-- A MEMBER that has lost its root waits for neighbours that have not noticed yet (R298, within 10 µs): `below` asks for those with lower
node numbers alone, and 5 T-ticks at most. -/
def Dev.rootWait (d : Dev) (below : Bool) : Bool :=
  d.get F.GLK_STAT_ROLE == 2 && decide ((d.tick - d.glk.lostAt.getD d.tick).toNat < (if below then 5 else 10)) &&
  d.glkUps.any (fun p => (!below || decide (d.get (F.GLKp_STAT_NBR_NODE p) < d.node)) && (match d.markOf p with
    | some (m, _) => !m.apart && decide (d.glk.root = some m.root.val)
    | none => false))

/-- The T-tick of the loss of a MEMBER's root is noted, and forgotten once a port leads to a root again (R298). -/
def Dev.noteLost (d : Dev) (gone : Bool) : Dev :=
  { d with glk := { d.glk with lostAt := if gone then d.glk.lostAt.or (some d.tick) else none } }

/-- The lowest of a list. -/
def lowestOf : List Nat → Option Nat
  | [] => none
  | a :: l => some (l.foldl min a)

/-- A MEMBER whose root is lost keeps its rate with no upstream port until another is taken (R298, R303). -/
def Dev.adrift (d : Dev) : Dev := d.setRole 2 d.glk.root none (d.get F.GLK_STAT_HOPS)

/-- The role is judged again (R296 to R298): the root is the lowest reachable node that may be one. `retest` is set at a bed boundary, on
entering IDLE and under ACCEPT, when a DETACHED device tests the conditions again. -/
def Dev.judgeRole (d0 : Dev) (retest : Bool) : Dev :=
  if !(d0.rigged) || d0.glkUps.isEmpty then d0.becomeAlone
  else
    let role := d0.get F.GLK_STAT_ROLE
    let mine := d0.glk.root.getD 64
    let up := if role == 2 then d0.upstreamTo mine else none
    if role != 2 && d0.glkUps.any (fun p => (d0.glkPort p).mark.isNone) then d0
    else
      let d := d0.noteLost (role == 2 && up.isNone)
      let stay := fun (d : Dev) => match up with
        | some (p, h) => d.setRole 2 (some mine) (some p) h
        | none => d
      match lowestOf (d.rootCands ++ (if up.isSome then [mine] else [])) with
      | none => if d.rootWait false then d.adrift else d.becomeAlone
      | some r =>
        if r == d.node then (if up.isNone && d.rootWait true then d.adrift else d.becomeRoot)
        else if up.isSome && r == mine then stay d
        else if role == 3 && !retest then d
        else match d.upstreamTo r with
          | some (p, h) => (stay d).tryJoin r p h up.isSome
          | none => stay d

/-- A root hears of a lower one that no port leads to yet (R297): two partitions have met. Where their internal times at one T-tick count
differ by more than PTP_STEP_THR the conditions cannot hold, and it becomes DETACHED; in IDLE it waits for markers. The two differences
cannot be told apart then: the whole one is shown as T-ticks, the remainder as time (log entry 139). -/
def Dev.meetRoot (d : Dev) (r : Nat) (t : RootTime) : Dev :=
  if d.get F.GLK_STAT_ROLE == 1 && decide (r < d.node) && d.reaches r && (d.upstreamTo r).isNone && d.get F.BED_STAT_PHASE != 0 then
    let diff := (t.at_ d.tick - d.edgeTime).toInt
    if diff.natAbs ≤ d.get F.PTP_STEP_THR_NS then d else d.detach r (-(diff / 1000)) (diff % 1000)
  else d

/-- On entering IDLE and at a bed boundary a DETACHED device tests the conditions again (R297). -/
def Dev.retestJoin (d : Dev) : Dev := if d.get F.GLK_STAT_ROLE == 3 then d.judgeRole true else d

end Sys2Proof.Machine
end

