-- ==== Sys2Proof/Machine/FaultTable.lean ====
section
/-! DEFINITION. The fault table (09_handoff.md R260 to R263): writing, adding to, merging, raising and resolving
entries. -/

namespace Sys2Proof.Machine

/-- Entry k holds a fault (HND_FT_VALID). -/
def Dev.ftValid (d : Dev) (k : Nat) : Bool :=
  if k < 32 then d.bit F.HND_FT_VALID0_VALID k else d.bit F.HND_FT_VALID1_VALID (k - 32)

/-- Entry k marked as holding a fault or free. -/
def Dev.ftSetValid (d : Dev) (k : Nat) (b : Bool) : Dev :=
  if k < 32 then d.setBit F.HND_FT_VALID0_VALID k b else d.setBit F.HND_FT_VALID1_VALID (k - 32) b

/-- Entry k is open (R261). -/
def Dev.ftOpen (d : Dev) (k : Nat) : Bool := d.ftValid k && !(d.flag (F.HND_FTk_INFO_RESOLVED k))

/-- HND_STAT.OPEN follows the entries. -/
def Dev.ftCount (d : Dev) : Dev := d.put F.HND_STAT_OPEN ((upTo 64).filter (fun k => d.ftOpen k)).length

/-- The open entry of port n. -/
def Dev.entryOf (d : Dev) (n : Nat) : Option Nat :=
  if d.flag (F.HND_Pn_STAT_ENTRY_V n) then some (d.get (F.HND_Pn_STAT_ENTRY n)) else none

/-- Two words in one parameter: a in the low 8 bits, b above them (log entry 20). -/
def pair8 (a b : Nat) : Nat := a % 256 + 256 * b

/-- The 0x0600 event and attention FAULT of entry k (R261). -/
def Dev.ftEvent (d : Dev) (k : Nat) : Dev :=
  (d.raise 0x0600 0x04 (d.get (F.HND_FTk_INFO_SEV k)) (pair8 k (d.get (F.HND_FTk_INFO_CLASS k)))
    (d.get (F.HND_FTk_PORTS_PORTS k)) (d.get (F.HND_FTk_ONSET_TICK k))).attn .fault

/-- The severity of entry k rises to at least v (R262). -/
def Dev.ftRaise (d : Dev) (k v : Nat) : Dev :=
  if d.get (F.HND_FTk_INFO_SEV k) < v then (d.put (F.HND_FTk_INFO_SEV k) v).ftEvent k else d

/-- The time of detection in entry k. -/
def Dev.ftTime (d : Dev) (k : Nat) : Dev :=
  (d.put (F.HND_FTk_TIME_LO_NS k) (d.time.toNat % 2 ^ 32)).put (F.HND_FTk_TIME_HI_NS k) (d.time.toNat / 2 ^ 32)

/-- A new fault of a beam with open entry k is added to it (R257, R260). -/
def Dev.ftAdd (d : Dev) (k cause sev : Nat) : Dev :=
  let d1 := ((d.put (F.HND_FTk_CAUSE_CAUSE k) (d.get (F.HND_FTk_CAUSE_CAUSE k) ||| cause)).bump
    (F.HND_FTk_INFO_COUNT k)).ftTime k
  d1.ftRaise k sev

/-- A further cause detected in the T-tick of entry k's fault joins it with the earlier onset tick (R155). -/
def Dev.ftJoin (d : Dev) (k cause sev : Nat) (onset : Word) : Dev :=
  let first := BitVec.ofNat 32 (d.get (F.HND_FTk_ONSET_TICK k))
  let d1 := d.put (F.HND_FTk_CAUSE_CAUSE k) (d.get (F.HND_FTk_CAUSE_CAUSE k) ||| cause)
  (if later32 first onset then d1.put (F.HND_FTk_ONSET_TICK k) onset.toNat else d1).ftRaise k sev

/-- The entry k of severity below 5 that R263 takes first: lowest severity, then the oldest. -/
def Dev.ftLowest (d : Dev) (ks : List Nat) : Option Nat :=
  ks.foldl (fun (best : Option Nat) k =>
    if d.get (F.HND_FTk_INFO_SEV k) == 5 then best
    else match best with
      | none => some k
      | some b => if d.get (F.HND_FTk_INFO_SEV k) < d.get (F.HND_FTk_INFO_SEV b) then some k else some b) none

/-- Every field of entry k at its reset value. -/
def Dev.ftClear (d : Dev) (k : Nat) : Dev :=
  [F.HND_FTk_INFO_CLASS k, F.HND_FTk_INFO_SEV k, F.HND_FTk_INFO_RESOLVED k, F.HND_FTk_INFO_PORT k,
   F.HND_FTk_INFO_DEVICE k, F.HND_FTk_INFO_COVERED k, F.HND_FTk_INFO_UNCOVERED k, F.HND_FTk_INFO_RETIRED k,
   F.HND_FTk_INFO_REMOTE k, F.HND_FTk_INFO_COUNT k, F.HND_FTk_CAUSE_CAUSE k, F.HND_FTk_TAKE_NODE k,
   F.HND_FTk_TAKE_CPORT k, F.HND_FTk_TAKE_CVALID k, F.HND_FTk_TAKE_INTERVAL k, F.HND_FTk_PORTS_PORTS k,
   F.HND_FTk_ONSET_TICK k, F.HND_FTk_TIME_LO_NS k, F.HND_FTk_TIME_HI_NS k, F.HND_FTk_RESUME_SEG k].foldl
    (fun d f => d.put f f.reset) d

/-- The lowest set bit of a port mask. -/
def lowBit (m : Nat) : Nat := ((upTo 32).find? (fun n => bitAt m n)).getD 0

/-- Entry b is merged into entry a (R263): COUNT added, PORTS and CAUSE joined, the later detection kept, RESOLVED only if both
were; whatever pointed to b points to a. -/
def Dev.ftMerge (d : Dev) (a b : Nat) : Dev :=
  let tm := fun k => BitVec.ofNat 64 (d.get (F.HND_FTk_TIME_LO_NS k) + d.get (F.HND_FTk_TIME_HI_NS k) * 2 ^ 32)
  let late := if later64 (tm b) (tm a) then b else a
  let orF := fun (d : Dev) (f : Nat → Fld) => d.put (f a) (d.get (f a) ||| d.get (f b))
  let d1 := d.put (F.HND_FTk_INFO_COUNT a)
    (min 255 (d.get (F.HND_FTk_INFO_COUNT a) + d.get (F.HND_FTk_INFO_COUNT b)))
  let d2 := [F.HND_FTk_PORTS_PORTS, F.HND_FTk_CAUSE_CAUSE, F.HND_FTk_INFO_COVERED, F.HND_FTk_INFO_UNCOVERED,
    F.HND_FTk_INFO_RETIRED, F.HND_FTk_INFO_REMOTE].foldl orF d1
  let d3 := ((d2.put (F.HND_FTk_TIME_LO_NS a) (d.get (F.HND_FTk_TIME_LO_NS late))).put (F.HND_FTk_TIME_HI_NS a)
    (d.get (F.HND_FTk_TIME_HI_NS late))).setFlag (F.HND_FTk_INFO_RESOLVED a)
    (d.flag (F.HND_FTk_INFO_RESOLVED a) && d.flag (F.HND_FTk_INFO_RESOLVED b))
  let d4 := (d3.put (F.HND_FTk_INFO_SEV a) (max (d.get (F.HND_FTk_INFO_SEV a)) (d.get (F.HND_FTk_INFO_SEV b)))).put
    (F.HND_FTk_INFO_PORT a) (lowBit (d2.get (F.HND_FTk_PORTS_PORTS a)))
  let d5 := (upTo 32).foldl (fun d n =>
    if d.entryOf n == some b then d.put (F.HND_Pn_STAT_ENTRY n) a else d) d4
  let d6 := { d5 with hnd := { d5.hnd with
    tko := d5.hnd.tko.map (fun (x : Nat × Takeover) =>
      if x.2.entry == some b then (x.1, { x.2 with entry := some a }) else x)
    order := d5.hnd.order.filter (· != b) } }
  (d6.ftClear b).ftSetValid b false

/-- A free entry for a fault of class cls, or none where every entry holds severity 5 or no two may be merged (R263). -/
def Dev.ftAlloc (d : Dev) (cls : Nat) : Dev × Option Nat :=
  match (upTo 64).find? (fun k => !(d.ftValid k)) with
  | some k => (d, some k)
  | none =>
    let lost := ((d.setFlag F.HND_STAT_FAULT_LOST true).raise 0x0609 0x04 2 0xFF 0xFF cls, none)
    match d.ftLowest d.hnd.order with
    | none => lost
    | some a =>
      match d.ftLowest (d.hnd.order.filter (· != a)) with
      | none => lost
      | some b =>
        let older := if d.hnd.order.findIdx (· == a) ≤ d.hnd.order.findIdx (· == b) then a else b
        let newer := if older == a then b else a
        let d1 := d.ftMerge older newer
        (((d1.setFlag F.HND_STAT_FAULT_OVF true).bump F.HND_MERGES_COUNT).raise 0x0609 0x04 2 older newer cls,
          some newer)

/-- A fault is written (R260): to the beam's open entry, or to an entry of its own. `port` is none for a fault of no
port. The entry, if one took it. -/
def Dev.ftWrite (d : Dev) (port : Option Nat) (cls cause sev : Nat) (onset : Word) (resume : Nat) : Dev × Option Nat :=
  match port.bind d.entryOf with
  | some k => (d.ftAdd k cause sev, some k)
  | none =>
    match d.ftAlloc cls with
    | (d1, none) => (d1, none)
    | (d1, some k) =>
      let d2 := (d1.ftClear k).ftSetValid k true
      let ports := match port with
        | some n => 2 ^ n
        | none => 0
      let d3 := ((((((d2.put (F.HND_FTk_INFO_CLASS k) cls).put (F.HND_FTk_INFO_SEV k) sev).put
        (F.HND_FTk_INFO_COUNT k) 1).put (F.HND_FTk_INFO_PORT k) (port.getD 0)).setFlag (F.HND_FTk_INFO_DEVICE k)
        port.isNone).put (F.HND_FTk_CAUSE_CAUSE k) cause).put (F.HND_FTk_PORTS_PORTS k) ports
      let d4 := ((d3.put (F.HND_FTk_ONSET_TICK k) onset.toNat).put (F.HND_FTk_RESUME_SEG k) resume).ftTime k
      let d5 := match port with
        | some n => (d4.put (F.HND_Pn_STAT_ENTRY n) k).setFlag (F.HND_Pn_STAT_ENTRY_V n) true
        | none => d4
      (({ d5 with hnd := { d5.hnd with order := d5.hnd.order ++ [k] } }).ftEvent k |>.ftCount, some k)

/-- Port n no longer keeps an entry open (R261): it is in service, or it has been retired for a bed that has since left
EXPOSING. -/
def Dev.portSettled (d : Dev) (n : Nat) : Bool :=
  d.get (F.HND_Pn_STAT_STATE n) == 0 ||
  (match tfind d.hnd.retiredBed n with
   | some b => d.get (F.BED_BUFn_STAT_STATE b) != 4
   | none => false)

/-- Entry k is resolved when every takeover it started has started or ended, and its beams are settled (R261). -/
def Dev.ftResolve (d : Dev) (k : Nat) : Dev :=
  if d.ftOpen k && !(d.hnd.tko.any (fun (x : Nat × Takeover) => x.2.entry == some k && !x.2.started)) &&
      (upTo 32).all (fun n => !(bitAt (d.get (F.HND_FTk_PORTS_PORTS k)) n) || d.portSettled n) then
    (upTo 32).foldl (fun d n => if d.entryOf n == some k then
        (d.setFlag (F.HND_Pn_STAT_ENTRY_V n) false).put (F.HND_Pn_STAT_ENTRY n) 0 else d)
      (d.setFlag (F.HND_FTk_INFO_RESOLVED k) true)
  else d

/-- Every entry that may be resolved is (R261). -/
def Dev.ftSweep (d : Dev) : Dev := ((upTo 64).foldl (fun d k => d.ftResolve k) d).ftCount

/-- The host releases resolved entries of word w (0: entries 0 to 31, 1: entries 32 to 63) by a mask (R261). -/
def Dev.ftRelease (d : Dev) (w mask : Nat) : Dev :=
  (upTo 32).foldl (fun d i =>
    let k := 32 * w + i
    if bitAt mask i && d.ftValid k && d.flag (F.HND_FTk_INFO_RESOLVED k) then
      let d1 := (d.ftClear k).ftSetValid k false
      { d1 with hnd := { d1.hnd with order := d1.hnd.order.filter (· != k) } }
    else d) d

end Sys2Proof.Machine
end

