-- ==== Sys2Proof/Machine/Operands.lean ====
section
/-! DEFINITION. The operands of a bed (03_bed_data.md): its header, parameter sets, tile records and segment
records, as read from their bytes, and the rules that each must meet by itself. -/

namespace Sys2Proof.Machine

/-! ## Segments (R72 to R75) -/

/-- The segment record held in 16 bytes (R72, R73): DX, DY and VEL, or for ORIGIN the absolute X and Y. -/
def segOfBytes (bs : List Byte) : Seg :=
  let n := leNat bs
  { dx := sext 24 (bitsAt n 0 24), dy := sext 24 (bitsAt n 24 24), x := sext 32 (bitsAt n 0 32),
    y := sext 32 (bitsAt n 32 32), vel := bitsAt n 48 16, pset := bitsAt n 64 12, pwr := bitsAt n 76 8,
    dz := sext 12 (bitsAt n 84 12), kind := bitsAt n 96 4, pathEnd := bitAt n 100, handoff := bitAt n 101,
    tileEnd := bitAt n 102, dwell := bitAt n 103, aux := bitsAt n 104 16, rest := bitsAt n 120 8 }

/-- The kinds of R73. -/
def Seg.isExpose (s : Seg) : Bool := s.kind == 0
/-- A JUMP. -/
def Seg.isJump (s : Seg) : Bool := s.kind == 1
/-- An ORIGIN. -/
def Seg.isOrigin (s : Seg) : Bool := s.kind == 2
/-- A PAUSE. -/
def Seg.isPause (s : Seg) : Bool := s.kind == 3
/-- A SYNC. -/
def Seg.isSync (s : Seg) : Bool := s.kind == 4

/-- A segment breaks a rule that binds it alone (R72, R73, R75): a reserved KIND, a reserved bit, a PAUSE or SYNC that moves
or changes focus, a SYNC with AUX[15:3] or DWELL set. -/
def Seg.bad (s : Seg) : Bool :=
  decide (4 < s.kind) || s.rest != 0 ||
  ((s.isPause || s.isSync) && !(s.dx == 0 && s.dy == 0 && s.dz == 0)) ||
  (s.isSync && (decide (8 ≤ s.aux) || s.dwell))

/-- T-ticks for which the end point is held (R74). -/
def Seg.dwellTicks (s : Seg) : Nat := if s.dwell && !s.isSync then s.aux else 0

/-! ## Parameter sets (R78) -/

/-- The parameter set held in 128 bytes (R78). -/
def psetOfBytes (b : List Byte) : PSet :=
  { flags := leAt b 0 4, power := f32At b 4, markVel := f32At b 8, jumpVel := f32At b 12, accel := f32At b 16,
    jerk := f32At b 20, onDelay := sext 16 (leAt b 24 2), offDelay := sext 16 (leAt b 26 2), settle := leAt b 28 2,
    skyLead := leAt b 30 2, cool := leAt b 32 4, mpSet := f32At b 36, lineCap := f32At b 40, ffMap := leAt b 44 2,
    gainBank := leAt b 46 1, rest := sliceB b 47 81 }

/-- VALID. -/
def PSet.valid (p : PSet) : Bool := bitAt p.flags 0
/-- SKY: skywriting. -/
def PSet.sky (p : PSet) : Bool := bitAt p.flags 1
/-- MP_LOOP: the melt-pool loop is active. -/
def PSet.mpLoop (p : PSet) : Bool := bitAt p.flags 2
/-- CAP: the geometry energy cap is active. -/
def PSet.cap (p : PSet) : Bool := bitAt p.flags 3
/-- REFERENCE: gain-tracing reference set. -/
def PSet.reference (p : PSet) : Bool := bitAt p.flags 4

/-- A finite pattern, no subnormal (R78). -/
def f32Plain (x : Word) : Bool := f32Finite x && !(f32IsSub x)

/-- A plain pattern greater than 0. -/
def f32Pos (x : Word) : Bool := f32Plain x && decide (0 < f32Val x)

/-- A plain pattern from 0 to hi. -/
def f32Upto (hi x : Word) : Bool := f32Plain x && decide (0 ≤ f32Val x) && f32Le x hi

/-- A parameter set breaks R78. 100,000 is 0x47C35000 and 65,535 is 0x477FFF00 in binary32. -/
def PSet.bad (p : PSet) : Bool :=
  decide (32 ≤ p.flags) || !(f32Upto 0x47C35000#32 p.power) || !(f32Pos p.markVel && f32Le p.markVel 0x477FFF00#32) ||
  !(f32Pos p.jumpVel && f32Le p.jumpVel 0x477FFF00#32) || !(f32Pos p.accel) || !(f32Pos p.jerk) ||
  decide (10000000 < p.cool) || !(f32Upto f32One p.mpSet) || !(f32Plain p.lineCap) ||
  (p.cap && !(f32Pos p.lineCap)) || (decide (255 < p.ffMap) && p.ffMap != 0xFFFF) || decide (15 < p.gainBank) ||
  !(allZero p.rest)

/-! ## Tile records (R80, R81) -/

/-- The tile record held in 48 bytes (R80). -/
def tileOfBytes (b : List Byte) : TileRec :=
  { xmin := sext 32 (leAt b 0 4), ymin := sext 32 (leAt b 4 4), xmax := sext 32 (leAt b 8 4), ymax := sext 32 (leAt b 12 4),
    first := leAt b 16 4, count := leAt b 20 4, lead := byteAtB b 24, flags := byteAtB b 25, stripe := leAt b 26 2,
    covers := [(byteAtB b 28, byteAtB b 29), (byteAtB b 30, byteAtB b 31), (byteAtB b 32, byteAtB b 33)],
    partner := leAt b 34 2, expCrc := f32At b 36, energy := f32At b 40, rest := leAt b 44 4 }
where
  /-- Byte o as a number. -/
  byteAtB (b : List Byte) (o : Nat) : Nat := leAt b o 1

/-- PAIRED (R80). -/
def TileRec.paired (t : TileRec) : Bool := bitAt t.flags 0
/-- LEAD_ONLY (R80). -/
def TileRec.leadOnly (t : TileRec) : Bool := bitAt t.flags 1

/-- No cover (R81). -/
def coverNone (c : Nat × Nat) : Bool := c == (0xFF, 0xFF)

/-- A cover field that R81 does not encode. -/
def coverMalformed (c : Nat × Nat) : Bool :=
  !(coverNone c) && !((c.1 == 0xFF || decide (c.1 ≤ 63)) && decide (c.2 ≤ 31))

/-- Covers after the first none, not none. -/
def coversGap : List (Nat × Nat) → Bool
  | [] => false
  | c :: t => (coverNone c && t.any (fun x => !(coverNone x))) || coversGap t

/-- Two equal covers. -/
def coversRepeat : List (Nat × Nat) → Bool
  | [] => false
  | c :: t => (!(coverNone c) && t.any (· == c)) || coversRepeat t

/-- The named covers in their order (R81). -/
def TileRec.named (t : TileRec) : List (Nat × Nat) := t.covers.filter (fun c => !(coverNone c))

/-- A cover with this device's own node number written as 0xFF: both name a beam of this device (R81). -/
def coverPlain (own : Nat) (c : Nat × Nat) : Nat × Nat := if c.1 == own then (0xFF, c.2) else c

/-- Two covers name the same beam, or one names the lead beam, under whichever of its two spellings (R81). -/
def TileRec.coversClash (t : TileRec) (own : Nat) : Bool :=
  let l := t.named.map (coverPlain own)
  coversRepeat l || l.contains (0xFF, t.lead)

/-- A tile record breaks R80 or R81 by itself. -/
def TileRec.bad (t : TileRec) : Bool :=
  decide (t.xmax ≤ t.xmin) || decide (t.ymax ≤ t.ymin) || decide (2 ^ 24 ≤ t.first) ||
  !(decide (2 ≤ t.count) && decide (t.count ≤ 16777216)) || decide (31 < t.lead) || decide (3 < t.flags) ||
  t.covers.any coverMalformed || coversGap t.covers || coversRepeat t.covers ||
  t.covers.any (fun c => c == (0xFF, t.lead)) || (!t.paired && t.partner != 0) ||
  !(f32Plain t.energy && decide (0 ≤ f32Val t.energy)) || t.rest != 0

/-! ## The bed header (R70) -/

/-- The bed header (R70). -/
structure BedHdr where
  magic : Nat
  format : Nat
  hdrSize : Nat
  bedNo : Nat
  gen : Nat
  len : Nat
  layer : Nat
  tiles : Nat
  segs : Nat
  psets : Nat
  stripes : Nat
  psetOff : Nat
  tileOff : Nat
  segOff : Nat
  psetCrc : Nat
  tileCrc : Nat
  segCrc : Nat
  res : Nat
  hdrCrc : Nat
  tailZero : Bool
  crcOk : Bool
  deriving DecidableEq, Repr

/-- The header held in the first 4,096 bytes of a bed (R70). -/
def hdrOfBytes (b : List Byte) : BedHdr :=
  { magic := leAt b 0 4, format := leAt b 4 2, hdrSize := leAt b 6 2, bedNo := leAt b 8 4, gen := leAt b 12 4,
    len := leAt b 16 4, layer := leAt b 20 4, tiles := leAt b 24 4, segs := leAt b 28 4, psets := leAt b 32 2,
    stripes := leAt b 34 2, psetOff := leAt b 36 4, tileOff := leAt b 40 4, segOff := leAt b 44 4,
    psetCrc := leAt b 48 4, tileCrc := leAt b 52 4, segCrc := leAt b 56 4, res := leAt b 60 4,
    hdrCrc := leAt b 0xFFC 4, tailZero := allZero (sliceB b 0x60 0xF9C),
    crcOk := (crc32c (b.take 0xFFC)).toNat == leAt b 0xFFC 4 }

/-- Two byte ranges overlap. -/
def overlap (a m b n : Nat) : Bool := decide (a < b + n) && decide (b < a + m)

/-- The offsets break R71: alignment, a region below 4,096 or beyond BED_LEN, or two regions that overlap. -/
def BedHdr.badOffsets (h : BedHdr) : Bool :=
  let p := h.psets * 128
  let t := h.tiles * 48
  let s := h.segs * 16
  h.psetOff % 64 != 0 || h.tileOff % 64 != 0 || h.segOff % 4096 != 0 || decide (h.psetOff < 4096) ||
  decide (h.tileOff < 4096) || decide (h.segOff < 4096) || decide (h.len < h.psetOff + p) ||
  decide (h.len < h.tileOff + t) || decide (h.len < h.segOff + s) || overlap h.psetOff p h.tileOff t ||
  overlap h.psetOff p h.segOff s || overlap h.tileOff t h.segOff s

end Sys2Proof.Machine
end

