-- ==== Sys2Proof/Machine/Beds.lean ====
section
/-! DEFINITION. Beds, tiles and paths while they are in flight: looking them up, reading their segments and parameter sets
(03_bed_data.md R72 to R94), the honoured covers (02_rigging.md R50), the end of a path, of a tile and of a bed
(04_bed_cycle.md R84, R97), the two sets of BED-class sections and their swap (02_rigging.md R64 to R67), and
entering IDLE (R102). -/

namespace Sys2Proof.Machine

/-! ## Tables of the Control Bar -/

/-- The bed in buffer n. -/
def Dev.bed? (d : Dev) (n : Nat) : Option Bed := tfind d.bar.beds n

/-- The state with the bed of buffer n changed. -/
def Dev.updBed (d : Dev) (n : Nat) (f : Bed → Bed) : Dev :=
  match tfind d.bar.beds n with
  | some b => { d with bar := { d.bar with beds := tput d.bar.beds n (f b) } }
  | none => d

/-- Tile t of the bed in buffer n. -/
def Dev.tile? (d : Dev) (n t : Nat) : Option TileSt := (d.bed? n).bind (fun b => tfind b.tiles t)

/-- The state with tile t of the bed in buffer n changed. -/
def Dev.updTile (d : Dev) (n t : Nat) (f : TileSt → TileSt) : Dev :=
  d.updBed n (fun b => match tfind b.tiles t with
    | some x => { b with tiles := tput b.tiles t (f x) }
    | none => b)

/-- The path a key names. -/
def Dev.path? (d : Dev) : PKey → Option PathSt
  | .bed n t i => (d.tile? n t).bind (fun x => x.paths[i]?)
  | .inc x => (tfind d.hnd.inc x).map (fun h => h.path)

/-- The state with the path a key names changed. -/
def Dev.updPath (d : Dev) (k : PKey) (f : PathSt → PathSt) : Dev :=
  match k with
  | .bed n t i => d.updTile n t (fun x => { x with paths := x.paths.modify i f })
  | .inc x =>
    match tfind d.hnd.inc x with
    | some h => { d with hnd := { d.hnd with inc := tput d.hnd.inc x { h with path := f h.path } } }
    | none => d

/-- A path's standing set. -/
def Dev.setStat (d : Dev) (k : PKey) (st : PStat) : Dev := d.updPath k (fun p => { p with st := st })

/-- The tile of a path of this device's own beds. -/
def PKey.tile : PKey → Option (Nat × Nat)
  | .bed n t _ => some (n, t)
  | .inc _ => none

/-- The tile index carried into events. -/
def Dev.tileNo (d : Dev) : PKey → Nat
  | .bed _ t _ => t
  | .inc x => match tfind d.hnd.inc x with
    | some h => h.tile
    | none => 0

/-- The BED_NO carried into events. -/
def Dev.keyBedNo (d : Dev) : PKey → Nat
  | .bed n _ _ => match d.bed? n with
    | some b => b.bedNo.toNat
    | none => 0
  | .inc x => match tfind d.hnd.inc x with
    | some h => h.bedNo.toNat
    | none => 0

/-- The sections under which a path is exposed (R67, R253); a remainder from another device is exposed under the live set. -/
def Dev.keySections (d : Dev) : PKey → List Section
  | .bed n _ _ => d.sections (match d.bed? n with
    | some b => b.oldSet
    | none => false)
  | .inc _ => d.sections false

/-- A flag bit of the tile's quality record is set (R114). -/
def Dev.tileFlag (d : Dev) (k : PKey) (bit : Nat) : Dev :=
  match k.tile with
  | some (n, t) => d.updTile n t (fun x => { x with flags := bitPut x.flags bit true })
  | none => d

/-! ## Reading a bed -/

/-- What reading a segment gave (R94). -/
inductive SegRead where
  | ok (s : Seg)
  | unreadable
  | missing
  deriving DecidableEq, Repr

/-- Device address of segment i of the bed in buffer n (R70). -/
def Dev.segAddr (d : Dev) (n i : Nat) : Nat :=
  d.get (F.BED_BUFn_BASE_BASE n) * 4096 + (match d.bed? n with
    | some b => b.segOff
    | none => 0) + 16 * i

/-- Segment i of a path in the prefetch queue of an engine (R27). -/
def Dev.preSeg (d : Dev) (k : PKey) (i : Nat) : Option PreSeg :=
  d.eng.findSome? (fun (x : Nat × Eng) => x.2.pre.find? (fun s => decide (s.key = k) && s.ix == i))

/-- What decoding a prefetched record gives. -/
def PreSeg.read (s : PreSeg) : SegRead :=
  match s.raw with
  | some bs => .ok (segOfBytes bs)
  | none => .unreadable

/-- Segment i of the path a key names, as it is decoded: from the prefetch queue of the engine that holds it, else from the bed. -/
def Dev.segOf (d : Dev) (m : Dram) (k : PKey) (i : Nat) : SegRead :=
  match k with
  | .bed n _ _ =>
    let a := d.segAddr n i
    match d.preSeg k i with
    | some s => s.read
    | none => if badRead d m a 16 then .unreadable else .ok (segOfBytes (m.readBytes a 16))
  | .inc x =>
    match (tfind d.hnd.inc x).bind (fun h => tfind h.segs i) with
    | some bs => .ok (segOfBytes bs)
    | none => .missing

/-- The AUX tag of a segment (R74): none, written 0, where DWELL is set, on a SYNC and where it cannot be read. -/
def Dev.segTag (d : Dev) (m : Dram) (k : PKey) (i : Nat) : Nat :=
  match d.segOf m k i with
  | .ok s => if s.dwell || s.isSync then 0 else s.aux
  | _ => 0

/-- The AUX tag of a segment is copied into the record of its tile (R74; log entry 120). -/
def Dev.noteTag (d : Dev) (m : Dram) (k : PKey) (i : Nat) : Dev :=
  match k.tile with
  | some (n, t) => if d.segTag m k i == 0 then d
    else d.updTile n t (fun x => { x with tags := if x.tags.contains (i, d.segTag m k i) then x.tags else x.tags ++ [(i, d.segTag m k i)] })
  | none => d

/-- What looking up a parameter set gave; the cause of R435's 0x0228 event where it failed: 2 not present or not VALID, 3 a DRAM error,
4 an uncorrectable bank word, 5 not streamed. -/
inductive SetRead where
  | ok (p : PSet)
  | fail (cause : Nat)
  deriving DecidableEq, Repr

/-- Parameter set i for the path a key names: from its bed's bank (R79), or as streamed (R265). -/
def Dev.setOf (d : Dev) (k : PKey) (i : Nat) : SetRead :=
  match k with
  | .bed n _ _ =>
    match d.bed? n with
    | some b =>
      if b.lostSets.contains i then .fail 3
      else if b.badSets.contains i then .fail 4
      else match b.psets[i]? with
        | some p => if p.valid then .ok p else .fail 2
        | none => .fail 2
    | none => .fail 2
  | .inc x =>
    match (tfind d.hnd.inc x).bind (fun h => tfind h.psets i) with
    | some bs => if (psetOfBytes bs).valid then .ok (psetOfBytes bs) else .fail 2
    | none => .fail 5

/-! ## Covers (R50, R81) -/

/-- A cover of a tile stands in the COVER list of the tile's lead. This device's own node number and 0xFF name the same node, in the record and
in the list (log entry 129). -/
def coverListed (l : List Section) (lead : Nat) (c : Nat × Nat) : Bool :=
  (coverOf l lead).any (fun e => e.port == c.2 && (e.node == c.1 || (c.1 == 0xFF && e.node == nodeOf l) ||
    (e.node == 0xFF && c.1 == nodeOf l)))

/-- A cover that names a beam of this device. -/
def coverLocal (l : List Section) (c : Nat × Nat) : Bool := c.1 == 0xFF || c.1 == nodeOf l

/-- The honoured covers of a tile, in order (R50). -/
def honoured (l : List Section) (t : TileRec) : List (Nat × Nat) := t.named.filter (coverListed l t.lead)

/-! ## The bed-class sets (R64 to R67) -/

/-- The OLDSET bit follows what is held. -/
def Dev.oldSetBit (d : Dev) : Dev := d.setFlag F.RIG_STAT_OLDSET d.rig.prev.isSome

/-- A swap goes live (R66, R64): its sections overlay the live set, the 0x0101 events are recorded, RIG_SWAPS counts. `hold` says
that a bed in flight keeps the previous set (R67). -/
def Dev.swapLive (d : Dev) (w : Swap) (hold : Bool) : Dev :=
  let old := d.rig.live
  let new := swapSet old w.secs
  let d1 := d.rigDiff old new false
  let d2 := { d1 with rig := { d1.rig with live := new, armed := none, latched := none,
                                           prev := if hold then some old else none, prevSwap := w.imgId } }
  (((d2.put F.RIG_SWAP_ID_IMG_ID w.imgId.toNat).bumpWrap F.RIG_SWAPS_COUNT).put F.RIG_STAT_STATE 2).oldSetBit

/-- The previous set is released once no unfinished bed holds it (R67), recording 0x0104. -/
def Dev.oldSetRelease (d : Dev) (lastBed : Nat) : Dev :=
  match d.rig.prev with
  | none => d
  | some _ =>
    if d.bar.beds.any (fun (x : Nat × Bed) => x.2.oldSet && x.2.tiles.any (fun (y : Nat × TileSt) => y.2.endT.isNone)) then d
    else
      let d1 := d.raise 0x0104 0x02 0 lastBed d.rig.prevSwap.toNat d.tick.toNat
      ({ d1 with rig := { d1.rig with prev := none },
                 bar := { d1.bar with beds := d1.bar.beds.map (fun (x : Nat × Bed) => (x.1, { x.2 with oldSet := false })) } }).oldSetBit

/-! ## Entering IDLE (R96, R102) -/

/-- A bed is still EXPOSING. -/
def Dev.anyExposing (d : Dev) : Bool := (upTo 16).any (fun n => d.get (F.BED_BUFn_STAT_STATE n) == 4)

/-- Two beds in flight (BED_STAT.TWO). -/
def Dev.twoBit (d : Dev) : Dev :=
  d.setFlag F.BED_STAT_TWO (decide (1 < ((upTo 16).filter (fun n => d.get (F.BED_BUFn_STAT_STATE n) == 4)).length))

/-- The Control Bar enters IDLE: no bed is current, and a swap still armed goes live at that moment (R66). -/
def Dev.enterIdle (d : Dev) : Dev :=
  let d1 := ((d.put F.BED_STAT_PHASE 0).setFlag F.BED_CUR_VALID false).setFlag F.BED_STAT_CHASING false
  let d2 := { d1 with bar := { d1.bar with cur := none } }
  match d2.rig.armed with
  | some w => (d2.swapLive w false).retestJoin
  | none => d2.retestJoin

/-- With RUN clear, the Control Bar enters IDLE from EXPOSE or STARVED once no bed is EXPOSING (R102). -/
def Dev.idleCheck (d : Dev) : Dev :=
  let ph := d.get F.BED_STAT_PHASE
  if !(d.flag F.BED_CTRL_RUN) && (ph == 1 || ph == 4) && !d.anyExposing then d.enterIdle else d

/-! ## The end of paths, tiles and beds (R84, R97) -/

/-- Buffer n leaves EXPOSING for RETIRING once every tile of its bed is finished (R84); the old-bed slot is cleared, and fault
entries of beams retired for the bed may resolve (R261). -/
def Dev.bedCheck (d : Dev) (n : Nat) : Dev :=
  match d.bed? n with
  | none => d
  | some b =>
    if d.get (F.BED_BUFn_STAT_STATE n) == 4 && b.scanned && b.tiles.all (fun (y : Nat × TileSt) => y.2.endT.isSome) then
      let d1 := d.put (F.BED_BUFn_STAT_STATE n) 5
      let d2 := if d1.bar.old == some n then
          { (d1.setFlag F.BED_CUR_OLD_VALID false) with bar := { d1.bar with old := none } }
        else d1
      ((d2.twoBit.oldSetRelease b.bedNo.toNat).ftSweep).idleCheck
    else d

/-- A tile is finished when every path of it has ended (R97): its finish time is taken and it waits for its record. -/
def Dev.tileCheck (d : Dev) (n t : Nat) : Dev :=
  match d.tile? n t with
  | none => d
  | some x =>
    if x.endT.isNone && x.scanned && x.paths.all (fun p => decide (p.st = .ended)) then
      let d1 := d.updTile n t (fun x => { x with endT := some d.time })
      ({ d1 with bar := { d1.bar with finishOrder := d1.bar.finishOrder ++ [(n, t)] } }).bedCheck n
    else d

/-- A path has ended (R97). -/
def Dev.pathEnded (d : Dev) (k : PKey) : Dev :=
  let d1 := d.setStat k .ended
  match k.tile with
  | some (n, t) => d1.tileCheck n t
  | none => d1

/-- The EXPOSE segments from index `a` up to the last segment of a path. -/
def Dev.countExpose (d : Dev) (m : Dram) (k : PKey) (a : Nat) : Nat → Nat
  | 0 => 0
  | n + 1 =>
    (match d.segOf m k a with
     | .ok s => b2n s.isExpose
     | _ => 0) + d.countExpose m k (a + 1) n

/-- EXPOSE segments are recorded as not exposed (R114). -/
def Dev.addNotExposed (d : Dev) (k : PKey) (n : Nat) : Dev :=
  match k with
  | .bed b t _ => d.updTile b t (fun x => { x with notExp := x.notExp + n })
  | .inc x =>
    match tfind d.hnd.inc x with
    | some h => { d with hnd := { d.hnd with inc := tput d.hnd.inc x { h with notExp := h.notExp + n } } }
    | none => d

/-- The EXPOSE segments of a path from segment a to its end are recorded as not exposed. -/
def Dev.loseFrom (d : Dev) (m : Dram) (k : PKey) (a : Nat) : Dev :=
  match d.path? k with
  | some p => d.addNotExposed k (d.countExpose m k a (p.first + p.count - a))
  | none => d

/-- Segments left in a path from segment a. -/
def Dev.segsLeft (d : Dev) (k : PKey) (a : Nat) : Nat :=
  match d.path? k with
  | some p => p.first + p.count - a
  | none => 0

/-- The pairing of two tiles ends (R109): both records carry PAIR_BROKEN, all later paths run unpaired, and a 0x020A event gives
the cause (1 fault, 2 underrun, 3 abandonment, 4 path interruption, 5 shed hand-off). -/
def Dev.pairEnd (d : Dev) (k : PKey) (cause : Nat) : Dev :=
  match k with
  | .inc _ => d
  | .bed n t _ =>
    match d.tile? n t with
    | none => d
    | some x =>
      if x.paired then
        let off := fun (y : TileSt) => { y with paired := false, flags := bitPut y.flags 5 true }
        (((d.updTile n t off).updTile n x.rcd.partner off).setFlag F.BED_STAT_PAIRBRK true).raise 0x020A 0x03 2
          (t + 65536 * x.rcd.partner) cause (d.keyBedNo k)
      else d

/-- What happens on a port that is the LEAD of paired tiles ends their pairing, whatever the port exposes at that moment (R109). -/
def Dev.pairEndPort (d : Dev) (p cause : Nat) : Dev :=
  ([d.bar.old, d.bar.cur].filterMap id).foldl (fun d n => match d.bed? n with
    | none => d
    | some b => (b.tiles.filter (fun (y : Nat × TileSt) => y.2.paired && y.2.endT.isNone && y.2.rcd.lead == p)).foldl
        (fun d (y : Nat × TileSt) => d.pairEnd (.bed n y.1 0) cause) d) d

end Sys2Proof.Machine
end

