-- ==== Sys2Proof/Machine/Buffers.lean ====
section
/-! DEFINITION. Bed buffers (03_bed_data.md R83 to R92): BUF_OPEN, BUF_SEAL, SEAL_CHECK, BUF_DISCARD, BUFFER_RELEASE and the
checks of R91. -/

namespace Sys2Proof.Machine

/-! ## Placement (R83, R323) -/

/-- Buffer n counts for the overlap rule: placed and not FREE, or FREE with an open pending (R83). -/
def Dev.bufCounts (d : Dev) (n : Nat) : Bool :=
  d.get (F.BED_BUFn_SIZE_SIZE n) != 0 && (d.get (F.BED_BUFn_STAT_STATE n) != 0 || d.flag (F.BED_BUFn_STAT_PEND n))

/-- First byte of buffer n. -/
def Dev.bufBase (d : Dev) (n : Nat) : Nat := d.get (F.BED_BUFn_BASE_BASE n) * 4096

/-- Length of buffer n in bytes. -/
def Dev.bufLen (d : Dev) (n : Nat) : Nat := d.get (F.BED_BUFn_SIZE_SIZE n) * 4096

/-- Some byte of a range is homed in a LOST channel. The home of an address changes only at M and at C − D, so the ends of the
range and those two places decide. -/
def Dev.touchesLost (d : Dev) (a n : Nat) : Bool :=
  ([a, a + n - 1, d.mirrorBytes, d.chanBytes].filter (fun x => decide (a ≤ x) && decide (x < a + n))).any
    (fun x => (d.homes x).any (fun c => d.chLost c))

/-- The placement of buffer n breaks R83 or R323. -/
def Dev.badPlacement (d : Dev) (n : Nat) : Bool :=
  let a := d.bufBase n
  let l := d.bufLen n
  l == 0 || decide (536870912 < l) || d.beyond a l ||
  (upTo 16).any (fun k => k != n && d.bufCounts k && overlap a l (d.bufBase k) (d.bufLen k)) ||
  (d.flag F.DDR_STAT_MIRROR && decide (d.mirrorBytes < a + l)) || d.touchesLost a l

/-! ## Opening, discarding, releasing (R87 to R90) -/

/-- Buffer n enters FILLING in generation g (R84): the error of the last seal and the drop count start again. -/
def Dev.bufFill (d : Dev) (n g : Nat) : Dev :=
  ((((d.put (F.BED_BUFn_STAT_STATE n) 1).put (F.BED_BUFn_GEN_GEN n) g).put (F.BED_BUFn_ERR_CHECK n) 0).put
    (F.BED_BUFn_ERR_INDEX n) 0).put (F.BED_BUFn_DROPS_COUNT n) 0

/-- A deferred open starts when its buffer reaches FREE (R90). -/
def Dev.deferredStart (d : Dev) (n : Nat) : Dev :=
  if d.get (F.BED_BUFn_STAT_STATE n) == 0 && d.flag (F.BED_BUFn_STAT_PEND n) then
    let g := d.get (F.BED_BUFn_PEND_GEN_GEN n)
    ((((d.bufFill n g).setFlag (F.BED_BUFn_STAT_PEND n) false).put (F.BED_BUFn_PEND_GEN_GEN n) 0).raise 0x0222 0x03 1 n g 0).attn
      .buffer
  else d

/-- Buffer n reaches FREE (R84). -/
def Dev.bufFree (d : Dev) (n : Nat) : Dev := (d.put (F.BED_BUFn_STAT_STATE n) 0).deferredStart n

/-- A generation that BUF_OPEN may name: not 0, and later than the present one where the buffer has one (R87). -/
def Dev.genNew (d : Dev) (n : Nat) (g : Word) : Bool :=
  g != 0 && (d.get (F.BED_BUFn_GEN_GEN n) == 0 || later32 g (d.getW (F.BED_BUFn_GEN_GEN n)))

/-- The buffer's present generation is g (R87). -/
def Dev.genIs (d : Dev) (n : Nat) (g : Word) : Bool := g != 0 && d.getW (F.BED_BUFn_GEN_GEN n) == g

/-- BUF_OPEN (R88 to R90): PARAM for no such buffer; then STALE, BUSY, RANGE, DEFERRED in this order (R89). -/
def Dev.bufOpen (d : Dev) (n : Nat) (g : Word) : Dev × Res :=
  if 16 ≤ n then (d, .param)
  else if !(d.genNew n g) then (d, .stale)
  else if d.flag (F.BED_BUFn_STAT_PEND n) then (d, .busy)
  else if d.badPlacement n then (d, .range)
  else if d.get (F.BED_BUFn_STAT_STATE n) != 0 then
    (((d.setFlag (F.BED_BUFn_STAT_PEND n) true).put (F.BED_BUFn_PEND_GEN_GEN n) g.toNat).raise 0x0221 0x03 0 n g.toNat
      (d.get (F.BED_BUFn_STAT_STATE n)), .deferred)
  else (d.bufFill n g.toNat, .ok)

/-- BUF_OPEN (R88). -/
def execBufOpen (tag n g : Word) (s : State) : Host.Outcome State Fault Refusal :=
  .next (s.command .buf 0x20 tag (fun s => ({ s with dev := (s.dev.bufOpen n.toNat g).1 }, (s.dev.bufOpen n.toNat g).2, 0)))

/-- BUF_DISCARD (R88 to R90): it names the present generation, or that of the pending open, which it cancels. -/
def Dev.bufDiscard (d : Dev) (n : Nat) (g : Word) : Dev × Res :=
  let pend := d.flag (F.BED_BUFn_STAT_PEND n) && d.getW (F.BED_BUFn_PEND_GEN_GEN n) == g
  if 16 ≤ n then (d, .param)
  else if !pend && !(d.genIs n g) then (d, .stale)
  else if d.flag (F.BED_BUFn_STAT_SEALING n) then (d, .busy)
  else if pend then ((d.setFlag (F.BED_BUFn_STAT_PEND n) false).put (F.BED_BUFn_PEND_GEN_GEN n) 0, .ok)
  else if d.get (F.BED_BUFn_STAT_STATE n) == 1 || d.get (F.BED_BUFn_STAT_STATE n) == 2 then (d.bufFree n, .ok)
  else (d, .state)

/-- BUF_DISCARD (R88). -/
def execBufDiscard (tag n g : Word) (s : State) : Host.Outcome State Fault Refusal :=
  .next (s.command .buf 0x22 tag (fun s =>
    ({ s with dev := (s.dev.bufDiscard n.toNat g).1 }, (s.dev.bufDiscard n.toNat g).2, 0)))

/-- A path of the bed in buffer n is held by an engine, waits, or is taken over by a beam of another device (R79, R85). -/
def Dev.bedBusy (d : Dev) (n : Nat) : Bool :=
  (match d.bed? n with
   | some b => !b.scanned || b.tiles.any (fun (y : Nat × TileSt) => y.2.paths.any (fun p => decide (p.st ≠ .ended)))
   | none => false) ||
  d.hnd.out.any (fun (x : Nat × HoOut) => match x.2.key with
    | .bed b _ _ => b == n
    | .inc _ => false) ||
  d.eng.any (fun (x : Nat × Eng) => x.2.pre.any (fun s => s.key.tile.any (fun y => y.1 == n)))

/-- Every checked tile of the bed has its verification result (R79, R85). -/
def Bed.verified (b : Bed) : Bool :=
  b.tiles.all (fun (y : Nat × TileSt) => y.2.endT.isSome && (y.2.rcd.expCrc == 0 || y.2.crc.isSome))

/-- Every record of the bed has been written (R85). -/
def Bed.allRecorded (b : Bed) : Bool := b.tiles.all (fun (y : Nat × TileSt) => y.2.recorded)

/-- Nothing needs the parameter bank of the bed in buffer n any more (R79): the bank is free from that moment. -/
def Dev.bankDone (d : Dev) (n : Nat) (b : Bed) : Bool := d.get (F.BED_BUFn_STAT_STATE n) == 5 && !(d.bedBusy n) && b.verified

/-- The parameter bank of the bed in buffer n is released once nothing needs it (R79). -/
def Dev.bankRelease (d : Dev) (n : Nat) : Dev :=
  match d.bed? n with
  | none => d
  | some b =>
    if d.bankDone n b then
      d.updBed n (fun b => { b with bank := none, psets := [] })
    else d

/-- BUFFER_RELEASE (R85): a RETIRING buffer whose last condition is met becomes FREE, and a deferred open starts. -/
def Dev.bufferRelease (d : Dev) (n : Nat) : Dev :=
  if d.get (F.BED_BUFn_STAT_STATE n) == 5 then
    let d1 := d.bankRelease n
    match d1.bed? n with
    | none => d1.bufFree n
    | some b =>
      if b.bank.isNone && b.allRecorded && !(d1.bedBusy n) then
        ({ d1 with bar := { d1.bar with
            beds := tdel d1.bar.beds n
            cur := if d1.bar.cur == some n then none else d1.bar.cur
            old := if d1.bar.old == some n then none else d1.bar.old } }).bufFree n
      else d1
  else d

/-- BUFFER_RELEASE (R85). -/
def execBufferRelease (n : Buf) (s : State) : Host.Outcome State Fault Refusal :=
  .next (s.onDev (fun d => d.bufferRelease n.val))

/-! ## Sealing (R91) -/

/-- The descriptors of channel c from TAIL up to HEAD, the one in progress included (R396). -/
def Dev.dmaQueued (d : Dev) (c : Nat) : Nat :=
  let n := max 1 (d.get (F.HST_DMAc_RING_SIZE_SIZE c))
  (d.get (F.HST_DMAc_HEAD_INDEX c) + n - d.get (F.HST_DMAc_TAIL_INDEX c) % n) % n

/-- BUF_SEAL starts (R89, R91): the buffer stops accepting new writes, and the seal waits for the DMA transfers queued before
it. While a full image is to be applied no seal starts (R63). -/
def Dev.bufSeal (d : Dev) (tag : Word) (n : Nat) (g : Word) : Dev × Option Res :=
  if 16 ≤ n then (d, some .param)
  else if !(d.genIs n g) then (d, some .stale)
  else if d.flag (F.BED_BUFn_STAT_SEALING n) then (d, some .busy)
  else if d.get (F.BED_BUFn_STAT_STATE n) != 1 then (d, some .state)
  else
    ({ d.setFlag (F.BED_BUFn_STAT_SEALING n) true with bar := { d.bar with
        sealing := some ⟨n, g.toNat, tag, (upTo 4).map d.dmaQueued⟩ } }, none)

/-- BUF_SEAL (R88). -/
def execBufSeal (tag n g : Word) (s : State) : Host.Outcome State Fault Refusal :=
  if s.dev.rig.staged.isSome then .next s
  else .next (s.commandStart .buf 0x21 tag [0x21#32, tag, n, g] (fun s =>
    match s.dev.bufSeal tag n.toNat g with
    | (d, some r) => ({ s with dev := d }, some (r, 0))
    | (d, none) => ({ s with dev := d }, none)))

/-- The index of a failing record that names no record. -/
def noIndex : Nat := 0xFFFFFF

/-- The lowest of several indices. -/
def lowest (l : List Nat) : Option Nat :=
  l.foldl (fun (b : Option Nat) x => match b with
    | some y => some (min x y)
    | none => some x) none

/-- Checks 1 to 8 (R91): the first that fails. `ue` says that the header was read with an uncorrectable error. -/
def sealHdr (h : BedHdr) (gen size : Nat) (ue : Bool) : Option Nat :=
  firstBad [(h.magic != 0x44425841, 1), (h.format != 1 || h.hdrSize != 4096, 2), (ue || !h.crcOk, 3), (h.gen != gen, 4),
    (h.len % 16 != 0 || decide (size < h.len), 5),
    (!(decide (1 ≤ h.tiles) && decide (h.tiles ≤ 65536) && decide (1 ≤ h.segs) && decide (h.segs ≤ 16777216) &&
      decide (1 ≤ h.psets) && decide (h.psets ≤ 4096)), 6),
    (h.badOffsets, 7), (h.res != 0 || !h.tailZero, 8)]

/-- Tile records with their index. -/
abbrev Tiles := List (Nat × TileRec)

/-- Check 13 for one tile (R80 to R82): the lowest index that its failures name. -/
def tileFails (l : List Section) (h : BedHdr) (segAt : Nat → Seg) (ts : Tiles) (t : Nat) (r : TileRec) : List Nat :=
  let chase := chaseOf l
  let own := r.bad || r.coversClash (nodeOf l) || decide (h.segs < r.first + r.count) || !(assigned l r.lead) ||
    !((segAt (r.first + r.count - 1)).tileEnd) ||
    (chase && (if h.stripes == 0 then r.stripe != 0 else decide (h.stripes ≤ r.stripe)))
  let next := match tfind ts (t + 1) with
    | some n => chase && decide (n.stripe < r.stripe)
    | none => false
  let mate := if r.paired then
      match tfind ts r.partner with
      | none => [t]
      | some p =>
        if r.partner == t || !p.paired || p.partner != t || p.lead == r.lead || (chase && p.stripe != r.stripe) then
          [min t r.partner]
        else []
    else []
  let hit := (ts.filter (fun y => decide (t < y.1) && overlap r.first r.count y.2.first y.2.count)).map (fun _ => t)
  (if own then [t] else []) ++ (if next then [t] else []) ++ mate ++ hit

/-- Check 13 (R91): the index to report, if the tile table fails. -/
def sealTiles (l : List Section) (h : BedHdr) (segAt : Nat → Seg) (ts : Tiles) : Option Nat :=
  match lowest (ts.flatMap (fun x => tileFails l h segAt ts x.1 x.2)) with
  | some i => some i
  | none => if (ts.map (fun x => x.2.count)).foldl (· + ·) 0 == h.segs then none else some noIndex

/-- What the walk of check 14 carries from segment to segment: whether a path begins here, its position and focus. -/
structure WalkSt where
  start : Bool
  x : Int
  y : Int
  f : Int
  deriving DecidableEq, Repr

/-- A value outside the 32-bit signed range. -/
def out32 (v : Int) : Bool := decide (v < -2147483648) || decide (2147483647 < v)

/-- Segment i breaks a rule (R72 to R76), or the walk's next state. -/
def walkSeg (psets : List PSet) (lasts : List Nat) (i : Nat) (s : Seg) (w : WalkSt) : Option WalkSt :=
  let isLast := lasts.contains i
  let w1 : WalkSt :=
    if s.isOrigin then ⟨false, s.x, s.y, s.dz⟩ else ⟨false, w.x + s.dx, w.y + s.dy, w.f + s.dz⟩
  let badSet := match psets[s.pset]? with
    | some p => !p.valid
    | none => true
  if s.bad || badSet || (w.start != s.isOrigin) || (s.isOrigin && s.pathEnd) || (isLast && !s.pathEnd) ||
      (s.tileEnd != isLast) || out32 w1.x || out32 w1.y || decide (w1.f < -2048) || decide (2047 < w1.f) then none
  else some { w1 with start := s.pathEnd }

/-- Check 14 (R91): the lowest segment index at which a rule is broken. -/
def sealSegs (psets : List PSet) (lasts : List Nat) (segAt : Nat → Seg) : Nat → Nat → WalkSt → Option Nat
  | 0, _, _ => none
  | n + 1, i, w =>
    match walkSeg psets lasts i (segAt i) w with
    | none => some i
    | some w1 => sealSegs psets lasts segAt n (i + 1) w1

/-- The checks of R91 on the bed in buffer n: the failing check and index, or the header of a good bed. -/
def Dev.sealChecks (d : Dev) (m : Dram) (n gen : Nat) : Except (Nat × Nat) BedHdr :=
  let a := d.bufBase n
  let h := hdrOfBytes (m.readBytes a 4096)
  match sealHdr h gen (d.bufLen n) (badRead d m a 4096) with
  | some c => .error (c, noIndex)
  | none =>
    let region := fun (off len crc : Nat) =>
      badRead d m (a + off) len || (crc32c (m.readBytes (a + off) len)).toNat != crc
    if region h.psetOff (h.psets * 128) h.psetCrc then .error (9, noIndex)
    else if region h.tileOff (h.tiles * 48) h.tileCrc then .error (10, noIndex)
    else if region h.segOff (h.segs * 16) h.segCrc then .error (11, noIndex)
    else
      let psets := (upTo h.psets).map (fun i => psetOfBytes (m.readBytes (a + h.psetOff + 128 * i) 128))
      match psets.findIdx? (fun p => p.bad) with
      | some i => .error (12, i)
      | none =>
        let ts : Tiles := (upTo h.tiles).map (fun t => (t, tileOfBytes (m.readBytes (a + h.tileOff + 48 * t) 48)))
        let segAt := fun i => segOfBytes (m.readBytes (a + h.segOff + 16 * i) 16)
        match sealTiles (d.sections false) h segAt ts with
        | some i => .error (13, i)
        | none =>
          match sealSegs psets (ts.map (fun x => x.2.first + x.2.count - 1)) segAt h.segs 0 ⟨true, 0, 0, 0⟩ with
          | some i => .error (14, i)
          | none => .ok h

/-- The regions that the checks of R91 read, as offset and length: the header, then, where the header passes, each region up to the one
that fails its CRC check. Bytes between regions are not read (R71). -/
def Dev.sealReads (d : Dev) (m : Dram) (n gen : Nat) : List (Nat × Nat) :=
  let a := d.bufBase n
  let h := hdrOfBytes (m.readBytes a 4096)
  let last := match d.sealChecks m n gen with
    | .error (9, _) => 1
    | .error (10, _) => 2
    | _ => 3
  (0, 4096) :: (if (sealHdr h gen (d.bufLen n) (badRead d m a 4096)).isSome then []
    else [(h.psetOff, h.psets * 128), (h.tileOff, h.tiles * 48), (h.segOff, h.segs * 16)].take last)

/-- The uncorrectable errors met by a seal are recorded under R333. -/
def Dev.sealErrors (d : Dev) (m : Dram) (n gen : Nat) : Dev :=
  ((d.sealReads m n gen).flatMap (fun x => d.badWords m (d.bufBase n + x.1) x.2)).foldl (fun d p => d.raiseLostRead 0x61 p) d

/-- SEAL_CHECK (R91): once the queued transfers have completed, the bed is checked; the buffer becomes READY, or returns to
accepting writes in FILLING with the cause in BED_BUFn_ERR. -/
def Dev.sealCheck (d : Dev) (m : Dram) : Dev :=
  match d.bar.sealing with
  | none => d
  | some r =>
    if (upTo 4).any (fun c => d.sealAwaits c) then d
    else
      let d0 := ({ d with bar := { d.bar with sealing := none } }).setFlag (F.BED_BUFn_STAT_SEALING r.buf) false
      match d.sealChecks m r.buf r.gen with
      | .error (c, i) =>
        ((((d0.sealErrors m r.buf r.gen).put (F.BED_BUFn_ERR_CHECK r.buf) c).put (F.BED_BUFn_ERR_INDEX r.buf) i).raise 0x0224 0x03 2
          (r.buf + 256 * c) i r.gen).finish .buf 0x21 r.tag Res.refused.code
          (BitVec.ofNat 64 (c + 256 * i))
      | .ok h =>
        (((d0.put (F.BED_BUFn_BED_NO_BED_NO r.buf) h.bedNo).put (F.BED_BUFn_STAT_STATE r.buf) 2).raise 0x0223 0x03 0 r.buf r.gen
          h.bedNo).finish .buf 0x21 r.tag Res.ok.code 0

/-- SEAL_CHECK (R91). -/
def execSealCheck (s : State) : Host.Outcome State Fault Refusal := .next (s.onDev (fun d => d.sealCheck s.mem))

end Sys2Proof.Machine
end

