-- ==== Sys2Proof/Machine/Channel.lean ====
section
/-! DEFINITION. The loss of a DRAM channel (12_memory.md R334). -/

namespace Sys2Proof.Machine

/-- Some bed buffer lies in the unmirrored part of channel c (R334). -/
def Dev.bufOnly (d : Dev) (c : Nat) : Bool :=
  (upTo 16).any (fun n =>
    let a := d.bufBase n
    let b := a + d.bufLen n - 1
    d.bufCounts n && [a, b].any (fun x => decide (d.homes x = [c])))

/-- A placed buffer, in any state, that lies wholly in the mirrored range (R93, R323). -/
def Dev.bufMirrored (d : Dev) (n : Nat) : Bool := d.get (F.BED_BUFn_SIZE_SIZE n) != 0 && decide (d.bufBase n + d.bufLen n ≤ d.mirrorBytes)

/-- Channel c is declared LOST (R334): cause 1 training, 2 errors, 3 CA parity, 4 no response. -/
def Dev.channelLost (d : Dev) (c cause : Nat) : Dev :=
  if d.chLost c then d
  else
    let bad := d.bufOnly c
    let d1 := ((d.put (F.DDR_CHc_STAT_STATE c) 5).setFlag F.DDR_STAT_LOST true).updCh c (fun x => { x with rtLeft := 0, rtWait := none })
    let d2 := (upTo 16).foldl (fun d n => if d.bufMirrored n then d.setFlag (F.BED_BUFn_STAT_SINGLE n) true else d) d1
    let d3 := (d2.raise 0x0802 0x05 (if bad then 4 else 3) c cause d.tick.toNat).attn .memory
    if bad then (d3.ftWrite none 6 (2 ^ 13) 4 d.tick 0).1 else d3

/-- The channels with 16 uncorrectable errors within 1 s are LOST (R334). -/
def Dev.lossCheck (d : Dev) : Dev :=
  [0, 1].foldl (fun d c =>
    if 16 ≤ ((tget ddrCh0 d.ddr.ch c).ueTimes.filter (fun t => decide ((elapsed64 d.time t) ≤ 1000000000))).length then d.channelLost c 2
    else d) d

end Sys2Proof.Machine
end

