-- ==== Sys2Proof/Machine/Grid.lean ====
section
/-! DEFINITION. Bilinear interpolation on a grid of nodes (05_trajectory.md R129, 07_power_loops.md R183). -/

namespace Sys2Proof.Machine

/-- 65,536 parts of one. -/
def frac16 (n : Nat) : Word := f32OfFrac n 65536

/-- The value at (u, v) of a grid of (n + 1) × (n + 1) nodes, node j i being the node of row j and column i; none outside 0 … n. -/
def bilerp (node : Nat → Nat → Word) (n : Nat) (u v : Frac) : Option Word :=
  let inside := fun (a : Frac) => decide (0 ≤ a.num) && fracLe a (fracI n)
  if inside u && inside v then
    let cell := fun (a : Frac) => min (n - 1) (fracFloor a).toNat
    let part := fun (a : Frac) => (fracFloor (fracMul (fracSub a (fracI (cell a))) (fracI 65536))).toNat
    let i := cell u
    let j := cell v
    let fu := frac16 (part u)
    let fv := frac16 (part v)
    let gu := f32Sub f32One fu
    let gv := f32Sub f32One fv
    some (f32Add (f32Add (f32Add (f32Mul (f32Mul gu gv) (node j i)) (f32Mul (f32Mul fu gv) (node j (i + 1))))
      (f32Mul (f32Mul gu fv) (node (j + 1) i))) (f32Mul (f32Mul fu fv) (node (j + 1) (i + 1))))
  else none

end Sys2Proof.Machine
end

