-- ==== Sys2Proof/Machine/Motion.lean ====
section
/-! DEFINITION. The geometry of motion (05_trajectory.md R119 to R124, 09_handoff.md R241, R244): velocity changes under a
limit of acceleration and jerk, the profile of one move, junctions, stroke run-ins, and the box and predicted duration of
a path. Lengths are in bu, times in T-ticks (µs), so 1 mm/s is 0.1 bu per T-tick. -/

namespace Sys2Proof.Machine

/-! ## Units -/

/-- Fractions kept at a resolution of 2⁻⁴⁰, so that planning stays bounded in size (log entry 22). -/
def cutF (a : Frac) : Frac := frac (fracFloor (fracMul a (fracI (2 ^ 40)))) (2 ^ 40)

/-- Velocity in bu per T-tick of a binary32 value in mm/s. -/
def velF (w : Word) : Frac := fracMul (fracOfF32 w) (frac 1 10)

/-- Velocity in bu per T-tick of a whole number of mm/s. -/
def velN (n : Nat) : Frac := frac n 10

/-- Acceleration in bu per T-tick² of a value in mm/s². -/
def accF (w : Word) : Frac := fracMul (fracOfF32 w) (frac 1 10000000)

/-- A velocity in bu per T-tick as it is held along the path: in binary32, in mm/s (R118; log entry 22). -/
def velB (v : Frac) : Frac := fracMul (fracOfF32 (f32OfFr (fracMul v (fracI 10)))) (frac 1 10)

/-- Jerk in bu per T-tick³ of a value in mm/s³. -/
def jerkF (w : Word) : Frac := fracMul (fracOfF32 w) (frac 1 10000000000000)

/-- Zero. -/
def f0 : Frac := fracI 0

/-- Half of a fraction. -/
def halfF (a : Frac) : Frac := fracMul a (frac 1 2)

/-- The first T-tick at or after a time; a time less than 1 ns after a T-tick counts as on it, since velocities are held in binary32
(R118; log entry 22). -/
def snapF (t : Frac) : Nat := (fracCeil (fracSub t (frac 1 1000))).toNat

/-! ## Changes of velocity (R119) -/

/-- Time to change velocity by dv ≥ 0 from zero acceleration to zero acceleration. -/
def rampTime (a j dv : Frac) : Frac :=
  if dv.num ≤ 0 then f0
  else if fracLe (fracMul a a) (fracMul dv j) then cutF (fracAdd (fracDiv dv a) (fracDiv a j))
  else fracMul (fracI 2) (fracSqrt (fracDiv dv j))

/-- Distance covered while the velocity changes between v and w. -/
def rampDist (a j v w : Frac) : Frac := cutF (fracMul (halfF (fracAdd v w)) (rampTime a j (fracAbs (fracSub w v))))

/-- Distance gained over constant velocity, t after the start of a rise of velocity by dv that takes T: jerk phases of length tj at
both ends. -/
def riseDist (a j dv T t : Frac) : Frac :=
  if T.num ≤ 0 then f0
  else
    let tj := fracMin (fracDiv a j) (halfF T)
    let jj := fracDiv dv (fracMul tj (fracSub T tj))
    let cube := fun (x : Frac) => fracMul (fracMul jj (fracMul x (fracMul x x))) (frac 1 6)
    if fracLe t tj then cube t
    else if fracLe t (fracSub T tj) then
      let u := fracSub t tj
      let vj := halfF (fracMul jj (fracMul tj tj))
      fracAdd (cube tj) (fracAdd (fracMul vj u) (halfF (fracMul (fracMul jj tj) (fracMul u u))))
    else
      let u := fracSub T t
      fracSub (halfF (fracMul dv T)) (fracSub (fracMul dv u) (cube u))

/-- Distance after time t of a change from v to w that takes T. -/
def rampAt (a j v w T t : Frac) : Frac :=
  if fracLe v w then fracAdd (fracMul v t) (riseDist a j (fracSub w v) T t)
  else
    let u := fracSub T t
    let whole := fracMul (halfF (fracAdd v w)) T
    fracSub whole (fracAdd (fracMul w u) (riseDist a j (fracSub v w) T u))

/-- The greatest x of lo … hi, to 2⁻⁴⁴ of the range, at which `ok` holds, where ok lo holds and ok is true up to some point. -/
def bisect (ok : Frac → Bool) : Nat → Frac → Frac → Frac
  | 0, lo, _ => lo
  | n + 1, lo, hi =>
    let mid := cutF (halfF (fracAdd lo hi))
    if ok mid then bisect ok n mid hi else bisect ok n lo mid

/-- The greatest start velocity, at most cap, from which velocity v is reached within length L. -/
def entryCap (a j L v cap : Frac) : Frac :=
  if fracLe (rampDist a j cap v) L then cap
  else if fracLe v cap then bisect (fun x => fracLe (rampDist a j x v) L) 44 v cap else cap

/-- The peak velocity of a move of length L from v0 to v1 under the limit vm (R119). -/
def peakV (a j L v0 v1 vm : Frac) : Frac :=
  let ok := fun x => fracLe (fracAdd (rampDist a j v0 x) (rampDist a j v1 x)) L
  let lo := fracMax v0 v1
  if ok vm then fracMax lo vm else bisect ok 44 lo (fracMax lo vm)

/-- Duration of a move of length L from v0 by vp to v1: rise, cruise, fall. -/
def moveTime (a j L v0 vp v1 : Frac) : Frac :=
  let d := fracAdd (rampDist a j v0 vp) (rampDist a j v1 vp)
  let cruise := if vp.num ≤ 0 || fracLe L d then f0 else cutF (fracDiv (fracSub L d) vp)
  fracAdd (rampTime a j (fracSub vp v0)) (fracAdd cruise (rampTime a j (fracSub vp v1)))

/-- Length travelled at time t of a move (R119): 0 to L. -/
def moveAt (a j L v0 vp v1 dt t : Frac) : Frac :=
  let t1 := rampTime a j (fracSub vp v0)
  let t3 := rampTime a j (fracSub vp v1)
  let s :=
    if fracLe dt t then L
    else if t.num ≤ 0 then f0
    else if fracLe t t1 then rampAt a j v0 vp t1 t
    else if fracLe t (fracSub dt t3) then fracAdd (rampDist a j v0 vp) (fracMul vp (fracSub t t1))
    else fracSub L (fracSub (rampDist a j v1 vp) (rampAt a j vp v1 t3 (fracSub t (fracSub dt t3))))
  fracMax f0 (fracMin L s)

/-! ## Segments in their path -/

/-- A segment in its path: index, record, parameter set, nominal start and end in bu, focus at start and end, length, velocity limit
of R119 lowered where R77 stretches the segment. -/
structure SegI where
  ix : Nat
  s : Seg
  p : PSet
  x0 : Int
  y0 : Int
  x1 : Int
  y1 : Int
  z0 : Int
  z1 : Int
  len : Frac
  vl : Frac
  deriving DecidableEq, Repr

/-- Length of a displacement in bu. -/
def hypotI (dx dy : Int) : Frac :=
  if dy == 0 then fracI dx.natAbs else if dx == 0 then fracI dy.natAbs else fracSqrt (fracI (dx * dx + dy * dy))

/-- The velocity limit of a segment (R119). -/
def vLimit (s : Seg) (p : PSet) : Frac :=
  if s.isExpose then (if s.vel == 0 then velF p.markVel else velN s.vel)
  else if s.isJump then (if s.vel == 0 then velF p.jumpVel else velN s.vel)
  else velF p.jumpVel

/-- A length takes at least 2 T-ticks (R77): the velocity lowered to fit. -/
def stretchV (len v : Frac) : Frac := fracMin v (halfF len)

/-- Segment ix placed after a nominal point. -/
def placeSeg (ix : Nat) (s : Seg) (p : PSet) (x y z : Int) : SegI :=
  let e : Int × Int × Int := if s.isOrigin then (s.x, s.y, s.dz) else (x + s.dx, y + s.dy, z + s.dz)
  let len := if s.isPause || s.isSync then f0 else hypotI (e.1 - x) (e.2.1 - y)
  { ix := ix, s := s, p := p, x0 := x, y0 := y, x1 := e.1, y1 := e.2.1, z0 := z, z1 := e.2.2, len := len,
    vl := stretchV len (vLimit s p) }

/-- The nominal duration is below 2 T-ticks (R77). -/
def SegI.short (a : SegI) : Bool :=
  if a.s.isSync then false
  else if a.s.isPause then decide (a.s.vel < 2)
  else if a.len.num == 0 then true
  else fracLt a.len (fracMul (fracI 2) (vLimit a.s a.p))

/-- Nominal duration in T-ticks (R77), at least 2; a SYNC adds nothing that is known ahead. -/
def SegI.nominal (a : SegI) : Frac :=
  if a.s.isSync then f0
  else if a.s.isPause then fracI (max 2 a.s.vel)
  else if a.vl.num ≤ 0 then fracI 2
  else fracMax (fracI 2) (cutF (fracDiv a.len a.vl))

/-- π to 2⁻⁶⁰. -/
def piF : Frac := ⟨3622009729038561421, 1152921504606846976⟩

/-- The square of the cosine of n × 0.05° for n up to 255: the series to the 16th power of the angle, whose remainder is below
2⁻⁶⁰ (log entry 22). -/
def cos2F (n : Nat) : Frac :=
  let x := fracMul piF (frac (n * 2) 3600)
  let q := fracMul x x
  let t := fun (a : Frac) (k : Nat) => fracMul a (fracDiv q (fracI (k * (k + 1))))
  let t1 := t (fracI 1) 1
  let t2 := t t1 3
  let t3 := t t2 5
  let t4 := t t3 7
  let t5 := t t4 9
  let t6 := t t5 11
  let t7 := t t6 13
  let t8 := t t7 15
  let c := fracAdd (fracSub (fracI 1) t1) (fracAdd (fracSub t2 t3) (fracAdd (fracSub t4 t5) (fracAdd (fracSub t6 t7) t8)))
  halfF (fracAdd (fracI 1) c)

/-- The turn between two displacements is at most n × 0.05° (R120). -/
def turnWithin (n : Nat) (ax ay bx by_ : Int) : Bool :=
  let dot := ax * bx + ay * by_
  decide (0 < dot) && (fracLe (fracMul (cos2F n) (fracI ((ax * ax + ay * ay) * (bx * bx + by_ * by_)))) (fracI (dot * dot)))

/-- The junction between two consecutive segments is passed in motion (R120). -/
def joined (ang : Nat) (a b : SegI) : Bool :=
  ((a.s.isExpose && b.s.isExpose && a.p.sky == b.p.sky) || (a.s.isJump && b.s.isJump)) &&
  a.len.num != 0 && b.len.num != 0 && !a.s.dwell && !a.s.pathEnd && turnWithin ang (a.x1 - a.x0) (a.y1 - a.y0) (b.x1 - b.x0) (b.y1 - b.y0)

/-- The run of segments joined in motion that begins with the first of the list (R120). -/
def joinedRun (ang : Nat) : List SegI → List SegI
  | [] => []
  | [a] => [a]
  | a :: b :: t => if joined ang a b then a :: joinedRun ang (b :: t) else [a]

/-- Whether a segment begins or lies in a skywritten stroke (R124): EXPOSE with SKY, not a lone one of zero length. -/
def SegI.skyStroke (a : SegI) : Bool := a.s.isExpose && a.p.sky && a.len.num != 0

/-- The velocity of a stroke: the lowest limit of its segments (R124). -/
def strokeV (run : List SegI) : Frac :=
  match run with
  | [] => f0
  | a :: t => velB (t.foldl (fun v b => fracMin v b.vl) a.vl)

/-- The length of a run-in or run-out at velocity v under a set (R124). -/
def runLen (p : PSet) (v : Frac) : Frac :=
  fracAdd (rampDist (accF p.accel) (jerkF p.jerk) f0 v) (fracMul v (fracI p.skyLead))

/-- A point in units of 2⁻³² bu from a nominal point. -/
def fixI (v : Int) : Int := v * 2 ^ 32

/-- A length of d bu along a displacement (dx, dy) of length len, in units of 2⁻³² bu. -/
def alongF (dx : Int) (len d : Frac) : Int :=
  if len.num == 0 then 0 else fracFloor (fracMul (fracDiv (fracMul (fracI dx) d) len) (fracI (2 ^ 32)))

/-- Where the run-in of a stroke starts (R124), given its first segment and the point from which it is exposed. -/
def runInStart (a : SegI) (v : Frac) (x y : Int) : Int × Int :=
  let d := runLen a.p v
  (x - alongF (a.x1 - a.x0) a.len d, y - alongF (a.y1 - a.y0) a.len d)

/-- Where the run-out of a stroke ends, given its last segment. -/
def runOutEnd (a : SegI) (v : Frac) : Int × Int :=
  let d := runLen a.p v
  (fixI a.x1 + alongF (a.x1 - a.x0) a.len d, fixI a.y1 + alongF (a.y1 - a.y0) a.len d)

/-- The next segment that moves or exposes (R122): PAUSE and SYNC are passed over. -/
def nextMoving : List SegI → Option SegI
  | [] => none
  | a :: t => if a.s.isPause || a.s.isSync then nextMoving t else some a

/-- The settle owed after a laser-off motion with set p, given what follows (R122). -/
def settleAfter (p : PSet) (rest : List SegI) : Nat :=
  match nextMoving rest with
  | some b => if b.s.isExpose then p.settle else 0
  | none => 0

/-! ## Look-ahead (R120) -/

/-- The highest velocity at which each run of joined segments may be entered so that the motion can stop at its end (R120). -/
def enterV (ang : Nat) : List SegI → Frac
  | [] => f0
  | [a] => entryCap (accF a.p.accel) (jerkF a.p.jerk) a.len f0 a.vl
  | a :: b :: t =>
    let out := if joined ang a b then fracMin (fracMin a.vl b.vl) (enterV ang (b :: t)) else f0
    entryCap (accF a.p.accel) (jerkF a.p.jerk) a.len out a.vl

/-- The velocity at which the first segment of the list is left, entered at v0 (R120): at most 256 segments are looked at. -/
def exitV (ang : Nat) (v0 : Frac) (run : List SegI) : Frac :=
  match run.take 256 with
  | a :: b :: t =>
    if joined ang a b then
      let lim := fracMin (fracMin a.vl b.vl) (enterV ang (b :: t))
      if fracLe lim v0 then lim
      else entryCap (accF a.p.accel) (jerkF a.p.jerk) a.len v0 lim
    else f0
  | _ => f0

/-! ## Box and predicted duration (R241, R244) -/

/-- The rest penalty of R244 for a segment: (v / A + A / J) / 2. -/
def restPenalty (v : Frac) (p : PSet) : Frac :=
  halfF (fracAdd (cutF (fracDiv v (accF p.accel))) (cutF (fracDiv (accF p.accel) (jerkF p.jerk))))

/-- The rest penalty of a moving segment, none for one that does not move. -/
def SegI.penalty (a : SegI) : Frac := if a.len.num == 0 then f0 else restPenalty a.vl a.p

/-- The settle after a laser-off move that R124 inserts before segment a, given the last segment that moved: before a SKY stroke that follows
an EXPOSE run, and before an EXPOSE run without SKY that follows a run-out. -/
def insertSettle (moved : Option SegI) (a : SegI) : Nat :=
  match moved with
  | some b => if b.s.isExpose && (a.skyStroke || (a.s.isExpose && b.skyStroke)) then a.p.settle else 0
  | none => 0

/-- Predicted duration of the segments after the ORIGIN, given the segment before and the last one before that moves or exposes (R244). -/
def predictGo (ang : Nat) (prev moved : Option SegI) : List SegI → Frac
  | [] => f0
  | a :: t =>
    let startRest := match prev with
      | some q => !(joined ang q a)
      | none => true
    let endRest := match t with
      | b :: _ => !(joined ang a b)
      | [] => true
    let lead := if a.skyStroke then
        (if startRest then fracI a.p.skyLead else f0) |> fracAdd (if endRest then fracI a.p.skyLead else f0)
      else f0
    let settle := fracAdd (if a.s.isJump && endRest then fracI (settleAfter a.p t) else f0)
      (if startRest then fracI (insertSettle moved a) else f0)
    fracAdd (fracAdd (fracAdd a.nominal (fracI a.s.dwellTicks)) (fracAdd lead settle))
      (fracAdd (fracAdd (if startRest then a.penalty else f0) (if endRest then a.penalty else f0))
        (predictGo ang (some a) (if a.s.isPause || a.s.isSync then moved else some a) t))

/-- A duration in units of 2⁻¹⁰ µs, rounded up. -/
def durUnits (t : Frac) : Nat := (fracCeil (fracMul t (fracI 1024))).toNat

/-- Predicted duration of a path without its approach, in units of 2⁻¹⁰ µs (R244). -/
def predict (ang : Nat) (segs : List SegI) : Nat :=
  match segs with
  | [] => 0
  | o :: t => durUnits (fracAdd (fracAdd (fracI o.s.dwellTicks) (fracI (settleAfter o.p t))) (predictGo ang none none t))

/-- The predicted approach: the rest-to-rest jump from a point to a path's ORIGIN (R244), in units of 2⁻¹⁰ µs. -/
def approachUnits (p : PSet) (x0 y0 x1 y1 : Int) : Nat :=
  let len := hypotI (x1 - x0) (y1 - y0)
  if len.num == 0 then durUnits (fracI 2)
  else
    let v := stretchV len (velF p.jumpVel)
    durUnits (fracAdd (fracMax (fracI 2) (cutF (fracDiv len v))) (fracMul (fracI 2) (restPenalty v p)))

/-- Half of `v / A + A / J` times v, plus the lead: the widening of R241. -/
def widenLen (p : PSet) (v : Frac) : Frac :=
  fracAdd (cutF (fracMul v (restPenalty v p))) (fracMul v (fracI p.skyLead))

/-- The widened ends of a SKY stroke (R241), rounded outwards to whole bu. -/
def widenPts (run : List SegI) : List Pt :=
  match run, run.getLast? with
  | a :: _, some z =>
    let v := strokeV run
    let up := fun (s l d : Frac) => fracCeil (fracMul (fracDiv s l) d)
    let dn := fun (s l d : Frac) => fracFloor (fracMul (fracDiv s l) d)
    let da := widenLen a.p v
    let dz := widenLen z.p v
    let ax := fracI (a.x1 - a.x0)
    let ay := fracI (a.y1 - a.y0)
    let zx := fracI (z.x1 - z.x0)
    let zy := fracI (z.y1 - z.y0)
    [(a.x0 - up ax a.len da, a.y0 - up ay a.len da), (a.x0 - dn ax a.len da, a.y0 - dn ay a.len da),
     (z.x1 + up zx z.len dz, z.y1 + up zy z.len dz), (z.x1 + dn zx z.len dz, z.y1 + dn zy z.len dz)]
  | _, _ => []

/-- The points that a box holds: every end point and the widened ends of SKY strokes. `inside` says that the segment continues a
stroke. -/
def boxPts (ang : Nat) (inside : Bool) : List SegI → List Pt
  | [] => []
  | a :: t =>
    let next := match t with
      | b :: _ => joined ang a b
      | [] => false
    (a.x1, a.y1) :: (if a.skyStroke && !inside then (a.x0, a.y0) :: widenPts (joinedRun ang (a :: t)) else []) ++
      boxPts ang next t

/-- The box of a run of segments (R241). -/
def boxOf (ang : Nat) (segs : List SegI) : Box :=
  match boxPts ang false segs with
  | [] => ⟨0, 0, 0, 0⟩
  | p :: t => t.foldl (fun b q => boxJoin b (boxPt q)) (boxPt p)

end Sys2Proof.Machine
end

