-- ==== Sys2Proof/Machine/Flags.lean ====
section
/-! DEFINITION. The status bits that the spec computes from several others: a beam in service (09_handoff.md R240), the level
of EMIT_EN (06_beam_ports.md R159), the trajectory state (05_trajectory.md R142), and the records of engines and ports. -/

namespace Sys2Proof.Machine

/-- An engine that has done nothing. Its position after reset is log entry 8. -/
def eng0 : Eng :=
  { x := 0, y := 0, f := 0, run := none, queue := [], hist := [], prevC := none, tile := none, wins := [0, 0, 0, 0, 0],
    pwr := 0 }

/-- A port that has done nothing. -/
def prt0 : Prt :=
  { lsr := false, lsrSince := 0, linkSince := 0, badRun := 0, badOnset := 0, feRun := 0, feOnset := 0, judged := none,
    frame := [], xy2 := (0, 0), gate := false, edges := [], blank := false, mod := 0, fcnt := 0, dac := 0, actX := 0,
    actY := 0, actZ := 0, classes := [], shut := false, dark := 0 }

/-- The engine that drives port p. -/
def Dev.engOf (d : Dev) (p : Nat) : Eng := tget eng0 d.eng p

/-- The state with the engine of port p changed. -/
def Dev.updEng (d : Dev) (p : Nat) (f : Eng → Eng) : Dev := { d with eng := tput d.eng p (f (d.engOf p)) }

/-- Port p. -/
def Dev.prtOf (d : Dev) (p : Nat) : Prt := tget prt0 d.prt p

/-- The state with port p changed. -/
def Dev.updPrt (d : Dev) (p : Nat) (f : Prt → Prt) : Dev := { d with prt := tput d.prt p (f (d.prtOf p)) }

/-- The path running on port p. -/
def Dev.runOf (d : Dev) (p : Nat) : Option Run := (d.engOf p).run

/-- The state with the running path of port p changed. -/
def Dev.updRun (d : Dev) (p : Nat) (f : Run → Run) : Dev := d.updEng p (fun e => { e with run := e.run.map f })

/-- The ports on which a path runs. -/
def Dev.runningPorts (d : Dev) : List Nat := (d.eng.filter (fun (x : Nat × Eng) => x.2.run.isSome)).map (·.1)

/-- Port p's head protocol is XY2-100 in the live PORT section (R156). -/
def Dev.xy2 (d : Dev) (p : Nat) : Bool := isXY2 (d.sections false) p

/-- Port p is assigned by the live FABRIC. -/
def Dev.assigned (d : Dev) (p : Nat) : Bool := Machine.assigned (d.sections false) p

/-- The calibration items of port p are settled (R214): those of power-up, and the Stringline latency, which needs no measurement on
an XY2-100 port or an unassigned one. -/
def Dev.calSettled (d : Dev) (p : Nat) : Bool :=
  d.sns.settled && (d.xy2 p || !(d.assigned p) || d.sns.latSettled.contains p)

/-- Port p has everything R240 asks for but its hand-off state. -/
def Dev.portUp (d : Dev) (p : Nat) : Bool :=
  d.flag (F.BEAMn_PSTAT_ATTACHED p) && d.get (F.BEAMn_PSTAT_LINK p) == 4 && !(d.flag (F.BEAMn_TSTAT_NOGRID p)) && d.calSettled p

/-- Port p is in service (R240). -/
def Dev.inService (d : Dev) (p : Nat) : Bool := d.portUp p && d.get (F.HND_Pn_STAT_STATE p) == 0

/-- EXTEST, HIGHZ or CLAMP is in force: only while RESET_N is low (17_electrical_package.md R428). -/
def Dev.tapForce (d : Dev) : Bool := d.sys.resetLow && [0x00#8, 0x08#8, 0x09#8].contains d.tap.ir

/-- The edge die lets EMIT_EN of port p rise (R159): it is in service, the device is rigged, the beam is not blanked, LSR_OKn reads
ready, no hardware shutdown holds, and the bridge is not silent. -/
def Dev.emitAllowed (d : Dev) (p : Nat) : Bool :=
  d.inService p && d.rigged && !(d.prtOf p).blank && (d.prtOf p).lsr && !(d.prtOf p).shut && !d.sys.edgeSilent && !d.tapForce &&
  d.hst.resetWait.isNone

/-- The gate's level at a 10 ns step of the T-tick, given its edges in order. -/
def gateAt (edges : List (Nat × Bool)) (step : Nat) : Bool :=
  edges.foldl (fun g e => if e.1 ≤ step then e.2 else g) false

/-- The gate's level where the present P-tick begins. -/
def Dev.gateNow (d : Dev) (p : Nat) : Bool := gateAt (d.prtOf p).edges (25 * d.sub.val)

/-- The gate is open at some time in P-tick q of this T-tick (R161, GATE). -/
def Dev.gateIn (d : Dev) (p q : Nat) : Bool :=
  gateAt (d.prtOf p).edges (25 * q) ||
  (d.prtOf p).edges.any (fun e => e.2 && decide (25 * q < e.1) && decide (e.1 < 25 * q + 25))

/-- The level of EMIT_EN of port p (R159): high exactly while the gate is open and nothing holds it low. -/
def Dev.emitLevel (d : Dev) (p : Nat) : Bool := d.gateNow p && d.emitAllowed p

/-- BEAMn_PSTAT.EMIT follows the level. -/
def Dev.emitBit (d : Dev) (p : Nat) : Dev := d.setFlag (F.BEAMn_PSTAT_EMIT p) (d.emitLevel p)

/-- BEAMn_TSTAT.STATE (R142): 0 out of service, 1 idle, 2 laser-off motion, 3 laser-on motion, 4 hold. -/
def Dev.trajState (d : Dev) (p : Nat) : Nat :=
  if !(d.inService p) then 0
  else match d.runOf p with
    | none => 1
    | some r => match r.moves.head? with
      | none => 4
      | some m => match m.kind with
        | .off => 2
        | .stop => 2
        | .expose => 3
        | _ => 4

/-- BEAMn_TSTAT.STATE and BEAMn_PSTAT.EMIT of port p follow the rest of the state. -/
def Dev.portBits (d : Dev) (p : Nat) : Dev := (d.put (F.BEAMn_TSTAT_STATE p) (d.trajState p)).emitBit p

/-- The beam of port p is blanked (R165): its gate closes, its scheduled edges are dropped, and its next MOD frame carries no
power. -/
def Dev.blankPort (d : Dev) (p : Nat) : Dev :=
  let d1 := d.updPrt p (fun x => { x with gate := false, edges := [(0, false)], blank := true })
  (d1.updRun p (fun r => { r with edges := [], lit := none, openSeg := none })).emitBit p

/-! ## Pins (02_rigging.md R55) -/

/-- The pin that PINS assigns to function f is driven high for a time in ns; a pulse that falls while the pin is high extends it
(R234, R284). -/
def Dev.pulse (d : Dev) (f ns : Nat) : Dev :=
  match pinWith (d.sections false) f with
  | none => d
  | some g =>
    let till := d.time + BitVec.ofNat 64 ns
    { d with pins := tput d.pins g (match tfind d.pins g with
        | some t => if later64 t till then t else till
        | none => till) }

end Sys2Proof.Machine
end

