-- ==== Sys2Proof/Machine/HoMsg.lean ====
section
/-! DEFINITION. Sending over Gorwin Link (11_link_and_time.md R304, R305): messages leave with their payload bytes; their queue is
emptied at each T-tick. -/

namespace Sys2Proof.Machine

/-- A message leaves with the next SEQ of its type (R300). -/
def Dev.glkSend (d : Dev) (type : Nat) (dst : Option Nat) (data : List Byte) : Dev :=
  let q : Nat := tget 0 d.glk.seqs type
  { d with glk := { d.glk with tx := d.glk.tx ++ [⟨type, dst, q, data⟩], seqs := tput d.glk.seqs type ((q + 1) % 65536) } }

/-- A message to one node. -/
def Dev.send (d : Dev) (type dst : Nat) (data : List Byte) : Dev := d.glkSend type (some dst) data

/-- A flooded message. -/
def Dev.flood (d : Dev) (type : Nat) (data : List Byte) : Dev := d.glkSend type none data

/-- TIME (R305): the T-tick counter, the internal time at its edge, PTP_STAT.STATE, and the flags. -/
def Dev.sendTime (d : Dev) (stepped : Bool) : Dev :=
  d.flood 0x05 (leBytes 4 d.tick.toNat ++ leBytes 8 d.edgeTime.toNat ++ leBytes 1 (d.get F.PTP_STAT_STATE) ++
    leBytes 1 (b2n (d.flag F.PTP_STAT_TIME_VALID) + 2 * b2n stepped))

/-- A signed 32-bit field. -/
def leI (v : Int) : List Byte := leBytes 4 (trunc 32 v)

/-- A point held in 2⁻³² bu as its two bu fields, rounded to nearest. -/
def lePt (x y : Int) : List Byte :=
  leI ((x + 2 ^ 31) / 2 ^ 32) ++ leI ((y + 2 ^ 31) / 2 ^ 32)

/-- A box as its four fields. -/
def leBox (b : Box) : List Byte := leI b.xmin ++ leI b.ymin ++ leI b.xmax ++ leI b.ymax

end Sys2Proof.Machine
end

