-- ==== Sys2Proof/Machine/Prefetch.lean ====
section
/-! DEFINITION. The prefetch queue of an exposure engine (01_architecture.md R27, 03_bed_data.md R94, 12_memory.md R326): up to 16,384
segments of the path that runs, of the takeover that waits and of the paths dealt, in this order. -/

namespace Sys2Proof.Machine

/-- The takeover that waits for port p to start (R250). -/
def Dev.tkoFor (d : Dev) (p : Nat) : Option Nat :=
  (d.hnd.tko.find? (fun (x : Nat × Takeover) => !x.2.started && (match x.2.cover with
    | some (.loc q _ _) => q == p
    | _ => false))).map (·.1)

/-- Where a path that has not been exposed to its end goes on. -/
def PathSt.nextSeg (q : PathSt) : Nat :=
  match q.resume with
  | some rp => rp.seg
  | none => q.first

/-- Segments that a queue holds (R27). -/
def preMax : Nat := 16384

/-- The segments from index a up to the end of a path, as far as a queue can hold them; those of a path that another device streams are
not fetched (R265). -/
def Dev.restOf (d : Dev) (k : PKey) (a : Nat) : List (PKey × Nat) :=
  match k, d.path? k with
  | .bed _ _ _, some q => (upTo (min preMax (q.first + q.count - a))).map (fun j => (k, a + j))
  | _, _ => []

/-- The segments that the queue of port p's engine is to hold, in order. -/
def Dev.preWant (d : Dev) (p : Nat) : List (PKey × Nat) :=
  let e := d.engOf p
  let run := match e.run with
    | some r => d.restOf r.key r.next
    | none => []
  let tko := match (d.tkoFor p).bind (fun i => tfind d.hnd.tko i) with
    | some t => d.restOf t.key t.rp.seg
    | none => []
  (run ++ tko ++ e.queue.flatMap (fun k => match d.path? k with
    | some q => d.restOf k q.nextSeg
    | none => [])).take preMax

/-- Fetches of port p's engine wait behind an earlier request of it that the DRAM controller has not served (R328, R330). -/
def Dev.fetchHeld (d : Dev) (p : Nat) : Bool := d.ddr.waiting.any (fun w => w.req.src == d.get (F.BEAMn_PAIR_PAIR p))

/-- Segment i of a path as a fetch brings it. -/
def Dev.fetchSeg (d : Dev) (m : Dram) (k : PKey) (i : Nat) : PreSeg :=
  let a := match k with
    | .bed n _ _ => d.segAddr n i
    | .inc _ => 0
  ⟨k, i, if badRead d m a 16 then none else some (m.readBytes a 16)⟩

/-- A segment in a list of prefetched ones. -/
def preHas (l : List PreSeg) (w : PKey × Nat) : Bool := l.any (fun s => decide (s.key = w.1) && s.ix == w.2)

/-- The event of a fetch that met an uncorrectable error without a good copy (R333, source coded as R436). -/
def Dev.fetchError (d : Dev) (p : Nat) (s : PreSeg) : Dev :=
  match s.raw, s.key with
  | none, .bed n _ _ => d.raiseLostRead (d.get (F.BEAMn_PAIR_PAIR p)) (d.segAddr n s.ix)
  | _, _ => d

/-- The queue of port p's engine is filled (R27). What the running path has used stays with the engine until the path leaves it. When in
a T-tick the fetches land is not given: they land at once (log entry 102). -/
def Dev.prefetch (d : Dev) (m : Dram) (p : Nat) : Dev :=
  let want := d.preWant p
  let keep := (d.engOf p).pre.filter (fun s => want.contains (s.key, s.ix) || (d.runOf p).any (fun r => decide (r.key = s.key)))
  let new := if d.fetchHeld p then [] else (want.filter (fun w => !(preHas keep w))).map (fun w => d.fetchSeg m w.1 w.2)
  if new.isEmpty && keep.length == (d.engOf p).pre.length then d
  else new.foldl (fun d s => d.fetchError p s) (d.updEng p (fun e => { e with pre := keep ++ new }))

/-- The segments of a path leave the queue of port p's engine. -/
def Dev.unfetch (d : Dev) (p : Nat) (f : PKey → Bool) : Dev :=
  d.updEng p (fun e => { e with pre := e.pre.filter (fun s => !(f s.key)) })

/-- The engine of port p can begin at segment i of a path: its queue holds it, or the stream has brought it. -/
def Dev.segReady (d : Dev) (m : Dram) (k : PKey) (i : Nat) : Bool :=
  match k with
  | .bed _ _ _ => (d.preSeg k i).isSome
  | .inc _ => decide (d.segOf m k i ≠ .missing)

/-- A segment as the planner meets it: those before index n have been passed; of the others only those that the queue holds are there
(R120). -/
def Dev.engSeg (d : Dev) (m : Dram) (k : PKey) (n i : Nat) : SegRead :=
  match k with
  | .bed _ _ _ => if i < n || (d.preSeg k i).isSome then d.segOf m k i else .missing
  | .inc _ => d.segOf m k i

/-- The queue of every engine holds at least 4,096 segments, or all that is left of its paths (R326). -/
def Dev.queuesFull (d : Dev) : Bool :=
  d.eng.all (fun (x : Nat × Eng) => ((d.preWant x.1).take 4096).all (fun w => preHas x.2.pre w))

end Sys2Proof.Machine
end

