-- ==== Sys2Proof/Machine/Engine.lean ====
section
/-! DEFINITION. An exposure engine on its path (05_trajectory.md): planning moves ahead (R119 to R124), gate edges (R125), starting a
path or a remainder at its resume point (R140, R252), sampling the tick point (R117, R118), and ending a path. -/

namespace Sys2Proof.Machine

/-! ## Planning (R119 to R124) -/

/-- What planning of a path works from: its segments and sets, JOIN_ANG, the last segment index, whether it starts
together with its partner's path (R108), whether its first record must be an ORIGIN (it need not be where another device
streams a remainder, R265), whether the path came from another device, which gives no focus at its resume point, and the last segment of
the tile where the flags of R74 are checked against it. -/
structure PlanCtx where
  seg : Nat → SegRead
  set : Nat → SetRead
  ang : Nat
  last : Nat
  pair : Bool
  orig : Bool
  inc : Bool := false
  tileLast : Option Nat := none

/-- A data fault met while planning: the cause of R435's 0x0228 event and the segment. -/
structure PlanFault where
  cause : Nat
  seg : Nat
  deriving DecidableEq, Repr

/-- A planned path with the segments stretched to 2 T-ticks (R77) and the segments of clamped or removed gate edges (R125). -/
structure Planned where
  run : Run
  shorts : Nat
  clamps : List Nat
  deriving DecidableEq, Repr

/-- The flags of segment i break R74 or R76: an ORIGIN that ends its path, TILE_END without PATH_END, or one of the two that does not stand
on exactly the last segment of the path or of the tile. -/
def PlanCtx.flagsBad (c : PlanCtx) (i : Nat) (s : Seg) : Bool :=
  (s.isOrigin && s.pathEnd) || (s.tileEnd && !s.pathEnd) ||
  (match c.tileLast with
   | some t => s.pathEnd != (i == c.last) || s.tileEnd != (i == t)
   | none => false)

/-- Segment i as decoded, placed after a nominal point (R94): refused where it breaks the segment rules or its set is missing. -/
def PlanCtx.at_ (c : PlanCtx) (first : Bool) (i : Nat) (x y z : Int) : Except PlanFault SegI :=
  match c.seg i with
  | .unreadable => .error ⟨3, i⟩
  | .missing => .error ⟨1, i⟩
  | .ok s =>
    if s.bad || s.isOrigin != (first && c.orig) || c.flagsBad i s then .error ⟨1, i⟩
    else match c.set s.pset with
      | .fail k => .error ⟨k, i⟩
      | .ok p =>
        let a := placeSeg i s p x y z
        if decide (a.z1 < -2048) || decide (2047 < a.z1) || decide (a.x1 < -2147483648) || decide (2147483647 < a.x1) ||
            decide (a.y1 < -2147483648) || decide (2147483647 < a.y1) then .error ⟨1, i⟩
        else .ok a

/-- The segments that follow a placed one, up to the path's last segment; reading stops at one that cannot be decoded. -/
def PlanCtx.ahead (c : PlanCtx) : Nat → Nat → Int → Int → Int → List SegI
  | 0, _, _, _, _ => []
  | n + 1, i, x, y, z =>
    if c.last < i then []
    else match c.at_ false i x y z with
      | .error _ => []
      | .ok a => a :: c.ahead n (i + 1) a.x1 a.y1 a.z1

/-- A gate edge joins the schedule (R125): one before the path's first T-tick is placed on it; a close before its open removes
the interval. The truth value says that an edge was placed or removed. -/
def addEdge (edges : List GEdge) (e : GEdge) : List GEdge × Bool :=
  let e1 : GEdge := if e.at_ < 0 then { e with at_ := 0 } else e
  match edges.getLast? with
  | some o =>
    if !e.opens && o.opens && decide (e1.at_ < o.at_) then (edges.dropLast, true)
    else (edges ++ [e1], decide (e.at_ < 0))
  | none => ([e1], decide (e.at_ < 0))

/-- A move joins the plan: position, time and velocity move to its end, and a laser-off to laser-on or laser-on to laser-off
transition schedules its gate edge (R125). `del` holds ON_DELAY and OFF_DELAY of the move's set. -/
def Planned.push (q : Planned) (m : Move) (del : Int × Int) : Planned :=
  let r := q.run
  let tick : Int := (snapF m.t0 : Int) * 100
  let add := fun (e : GEdge) => addEdge r.edges e
  let res : List GEdge × Option (Nat × Int) × List Nat :=
    match m.on, r.lit with
    | true, none =>
      let a := add ⟨tick + del.1, true, m.seg⟩
      (a.1, some (m.seg, del.2), if a.2 then [m.seg] else [])
    | true, some _ => (r.edges, some (m.seg, del.2), [])
    | false, some (s, off) =>
      let a := add ⟨tick + off, false, s⟩
      (a.1, none, if a.2 then [s] else [])
    | false, none => (r.edges, none, [])
  { q with run := { r with moves := r.moves ++ [m], planT := fracAdd m.t0 m.dt, px := m.x1, py := m.y1, vel := m.v1,
                           edges := res.1, lit := res.2.1 },
           clamps := q.clamps ++ res.2.2 }

/-- When the next move begins: where the last one ends. A rest within 1 ns of a T-tick counts as on it (log entry 22). -/
def Run.nextT (r : Run) : Frac :=
  let n := fracI (snapF r.planT)
  if r.vel.num == 0 && fracLe (fracAbs (fracSub r.planT n)) (frac 1 1000) then n else r.planT

/-- When a wait for an event begins: on a T-tick (R73, R121). -/
def Run.waitT (r : Run) : Frac := fracI (snapF r.planT)

/-- Length in bu between two points in units of 2⁻³² bu. -/
def lenFix (x0 y0 x1 y1 : Int) : Frac := fracMul (hypotI (x1 - x0) (y1 - y0)) (frac 1 (2 ^ 32))

/-- A straight move under a set's limits: from the planned end to (x1, y1), focus f0 to f1. -/
def Run.straight (r : Run) (kind : MvKind) (on : Bool) (seg : Nat) (p : PSet) (x1 y1 f0' f1 : Int) (v1 vm : Frac)
    (segT0 : Frac) : Move :=
  let len := lenFix r.px r.py x1 y1
  let a := accF p.accel
  let j := jerkF p.jerk
  let v := stretchV len vm
  let v1 := velB v1
  let vp := velB (peakV a j len r.vel v1 (fracMax v (fracMax r.vel v1)))
  let dt := if len.num == 0 then fracI 2 else fracMax (moveTime a j len r.vel vp v1) (if r.vel.num == 0 && v1.num == 0 then fracI 2 else f0)
  { kind := kind, on := on, seg := seg, x0 := r.px, y0 := r.py, x1 := x1, y1 := y1, f0 := f0', f1 := f1, t0 := r.nextT,
    dt := dt, len := len, v0 := r.vel, vp := vp, v1 := v1, acc := a, jerk := j, segT0 := segT0 }

/-- A hold at the planned end. -/
def Run.holdMove (r : Run) (kind : MvKind) (on : Bool) (seg : Nat) (f : Int) (n : Nat) (segT0 : Frac) : Move :=
  { kind := kind, on := on, seg := seg, x0 := r.px, y0 := r.py, x1 := r.px, y1 := r.py, f0 := f, f1 := f,
    t0 := if decide (kind = .sync) || decide (kind = .pairWait) then r.waitT else r.nextT, dt := fracI n, len := f0, v0 := f0, vp := f0, v1 := f0, acc := fracI 1, jerk := fracI 1, segT0 := segT0 }

/-- The delays of a set (R125). -/
def PSet.delays (p : PSet) : Int × Int := (p.onDelay, p.offDelay)

/-- A settle that is owed is held before the next motion (R122). -/
def Planned.flushSettle (q : Planned) (seg : Nat) (f : Int) : Planned :=
  if q.run.settle == 0 then q
  else
    let q1 := q.push (q.run.holdMove .settle false seg f q.run.settle (fracAdd q.run.nextT (fracI q.run.settle))) (0, 0)
    { q1 with run := { q1.run with settle := 0 } }

/-- A laser-off move to a point, from rest to rest (R124, R140). -/
def Planned.offTo (q : Planned) (seg : Nat) (p : PSet) (x y f0' f1 : Int) (settle : Nat) : Planned :=
  let m := q.run.straight .off false seg p x y f0' f1 f0 (velF p.jumpVel) (fracI 0)
  let m1 : Move := { m with segT0 := fracAdd m.t0 m.dt }
  let q1 := q.push m1 (0, 0)
  { q1 with run := { q1.run with settle := settle } }

/-- Focus in units of 2⁻³² µm. -/
def SegI.foc0 (a : SegI) : Int := fixI a.z0
/-- Focus at the end. -/
def SegI.foc1 (a : SegI) : Int := fixI a.z1

/-- The end of a segment's motion: its dwell is held (R121), the nominal point moves on. -/
def Planned.closeSeg (q : Planned) (a : SegI) (on : Bool) (segT0 : Frac) : Planned :=
  let q1 := if a.s.dwellTicks == 0 then q
    else q.push (q.run.holdMove .hold on a.ix a.foc1 a.s.dwellTicks segT0) a.p.delays
  { q1 with run := { q1.run with next := a.ix + 1, bx := a.x1, by_ := a.y1, bf := a.z1 } }

/-- The stroke at whose run-in start a laser-off motion ends, if the next segment that moves is one (R124). -/
def strokeAhead (ang : Nat) (rest : List SegI) : Option (SegI × Frac) :=
  match nextMoving rest with
  | some b => if b.skyStroke then some (b, strokeV (joinedRun ang (rest.dropWhile (fun c => c.s.isPause || c.s.isSync)))) else none
  | none => none

/-- The end point of a laser-off motion to (x, y): the run-in start where a stroke follows (R124). -/
def offTarget (ang : Nat) (x y : Int) (rest : List SegI) : Int × Int :=
  match strokeAhead ang rest with
  | some (b, v) => runInStart b v (fixI b.x0) (fixI b.y0)
  | none => (fixI x, fixI y)

/-- The segments of a stroke from `a` on (R124), a whole joined run. -/
def strokeRun (ang : Nat) (a : SegI) (rest : List SegI) : List SegI := joinedRun ang (a :: rest)

/-- One move of a stroke at constant velocity v (R124). -/
def Planned.strokeSeg (q : Planned) (a : SegI) (v : Frac) (ang : Nat) (rest : List SegI) (foc : Int) : Planned :=
  let r := q.run
  let len := lenFix r.px r.py (fixI a.x1) (fixI a.y1)
  let t0 := r.planT
  let m : Move :=
    { kind := .expose, on := true, seg := a.ix, x0 := r.px, y0 := r.py, x1 := fixI a.x1, y1 := fixI a.y1, f0 := foc, f1 := a.foc1,
      t0 := t0, dt := cutF (fracDiv len v), len := len, v0 := v, vp := v, v1 := v, acc := accF a.p.accel,
      jerk := jerkF a.p.jerk, segT0 := t0 }
  let q1 := q.push m a.p.delays
  let goesOn := match rest with
    | b :: _ => joined ang a b
    | [] => false
  if goesOn then { q1 with run := { q1.run with stroke := some v, next := a.ix + 1, bx := a.x1, by_ := a.y1, bf := a.z1 } }
  else
    let e := runOutEnd a v
    let out := q1.run.straight .off false a.ix a.p e.1 e.2 a.foc1 a.foc1 f0 v t0
    let q2 := q1.push out (0, 0)
    let q3 : Planned := { q2 with run := { q2.run with stroke := none, vel := f0 } }
    q3.closeSeg a false t0

/-- An EXPOSE segment (R120 to R124). `part` says that the path is resumed inside it at the planned end; foc is the focus there. -/
def Planned.expose (q : Planned) (a : SegI) (ang : Nat) (rest : List SegI) (part : Bool) (foc : Int) : Planned :=
  match q.run.stroke with
  | some v => q.strokeSeg a v ang rest foc
  | none =>
    if a.skyStroke then
      let v := strokeV (strokeRun ang a rest)
      let sx := if part then q.run.px else fixI a.x0
      let sy := if part then q.run.py else fixI a.y0
      let start := runInStart a v sx sy
      let q1 := if part then q
        else if q.run.px == start.1 && q.run.py == start.2 then q
        else q.offTo a.ix a.p start.1 start.2 foc foc a.p.settle
      let q2 := q1.flushSettle a.ix foc
      let into := q2.run.straight .off false a.ix a.p sx sy foc foc v v f0
      let q3 := q2.push { into with segT0 := fracAdd into.t0 into.dt } (0, 0)
      q3.strokeSeg a v ang rest foc
    else
      let back := !part && q.run.vel.num == 0 && !(q.run.px == fixI a.x0 && q.run.py == fixI a.y0)
      let q1 := if back then q.offTo a.ix a.p (fixI a.x0) (fixI a.y0) foc foc a.p.settle else q
      let q2 := q1.flushSettle a.ix foc
      let v1 := exitV ang q2.run.vel (a :: rest)
      let t0 := q2.run.nextT
      let m := q2.run.straight .expose true a.ix a.p (fixI a.x1) (fixI a.y1) foc a.foc1 v1 a.vl t0
      (q2.push m a.p.delays).closeSeg a true t0

/-- A laser-off motion of the path itself: ORIGIN or JUMP (R119, R122, R124). -/
def Planned.offSeg (q : Planned) (a : SegI) (ang : Nat) (rest : List SegI) (foc : Int) : Planned :=
  let goesOn := match rest with
    | b :: _ => joined ang a b
    | [] => false
  let tgt := if goesOn then (fixI a.x1, fixI a.y1) else offTarget ang a.x1 a.y1 rest
  let v1 := if goesOn then exitV ang q.run.vel (a :: rest) else f0
  let t0 := q.run.nextT
  let q0 : Planned := { q with run := { q.run with settle := 0 } }
  let m := q0.run.straight .off false a.ix a.p tgt.1 tgt.2 foc a.foc1 v1 (vLimit a.s a.p) t0
  let q1 := (q0.push m (0, 0)).closeSeg a false t0
  { q1 with run := { q1.run with settle := if goesOn then 0 else settleAfter a.p rest } }

/-- The hit of the SYNC with index i has been taken: it is not waited for again (R73). -/
def Run.syncTaken (r : Run) (i : Nat) : Bool :=
  match r.hit with
  | some h => decide (i ≤ h.2)
  | none => false

/-- Plan segment a with what follows it. -/
def Planned.segment (q : Planned) (a : SegI) (ang : Nat) (rest : List SegI) (part : Bool) (foc : Int) : Planned :=
  let q0 : Planned := { q with shorts := q.shorts + b2n (a.short && !part) }
  if a.s.isExpose then q0.expose a ang rest part foc
  else if a.s.isJump || a.s.isOrigin then q0.offSeg a ang rest foc
  else if a.s.isPause then
    let q1 := q0.push (q0.run.holdMove .hold false a.ix a.foc0 (max 2 a.s.vel) q0.run.nextT) (0, 0)
    q1.closeSeg a false q0.run.nextT
  else if q0.run.syncTaken a.ix then { q0 with run := { q0.run with next := a.ix + 1 } }
  else
    let q1 := q0.push (q0.run.holdMove .sync false a.ix a.foc0 0 q0.run.waitT) (0, 0)
    { q1 with run := { q1.run with next := a.ix + 1 } }

/-- Some move of the plan waits for an event: its end is not known yet. -/
def Run.waits (r : Run) : Bool := r.moves.any (fun m => decide (m.kind = .sync) || decide (m.kind = .pairWait))

/-- The whole path is planned: the gate's last transition falls on its last T-tick, and edges after that are placed on it
(R125). -/
def Planned.finish (q : Planned) : Planned :=
  let r := q.run
  let k : Int := (snapF r.planT : Int) * 100
  let e := match r.lit with
    | some (s, off) => addEdge r.edges ⟨k + off, false, s⟩
    | none => (r.edges, false)
  let late := e.1.filter (fun x => decide (k < x.at_))
  { q with run := { r with planned := true, lit := none,
                           edges := e.1.map (fun (x : GEdge) => if k < x.at_ then { x with at_ := k } else x) },
           clamps := q.clamps ++ late.map (fun x => x.seg) ++ (if e.2 then [r.last] else []) }

/-- Plan the next segment of the path. -/
def PlanCtx.planNext (c : PlanCtx) (first : Nat) (q : Planned) : Except PlanFault Planned :=
  let r := q.run
  if c.last < r.next then .ok q.finish
  else match c.at_ (r.next == first) r.next r.bx r.by_ r.bf with
    | .error e => .error e
    | .ok a =>
      let n := if a.skyStroke || a.s.isOrigin || a.s.isJump then c.last + 1 - a.ix else 256
      let rest := c.ahead n (a.ix + 1) a.x1 a.y1 a.z1
      let q1 := q.segment a c.ang rest false a.foc0
      if a.s.isOrigin && c.pair then .ok (q1.push (q1.run.holdMove .pairWait false a.ix a.foc1 0 q1.run.waitT) (0, 0)) else .ok q1

/-- T-ticks by which planning leads the present one: the longest advance of a gate edge (R125). -/
def planLead : Nat := 330

/-- Plan until the plan leads by `planLead` T-ticks, ends, or waits for an event. -/
def PlanCtx.planAhead (c : PlanCtx) (first : Nat) : Nat → Planned → Except PlanFault Planned
  | 0, q => .ok q
  | n + 1, q =>
    if q.run.planned || q.run.waits || fracLe (fracI (q.run.k + planLead)) q.run.planT then .ok q
    else if decide (q.run.next ≤ c.last) && decide (c.seg q.run.next = .missing) then .ok q
    else match c.planNext first q with
      | .error e => .error e
      | .ok q1 => c.planAhead first n q1

/-! ## The tick point (R117, R118) -/

/-- Position along one axis after s of len: the exact end, else rounded down to 2⁻³² bu with a last bit that the spec leaves
open (log entry 23). -/
def lerpFix (a b : Int) (len s : Frac) (bit : Nat) : Int :=
  if len.num == 0 then b
  else
    let q := fracDiv (fracMul (fracI (b - a)) s) len
    let f := fracFloor q
    if q == fracI f then a + f else a + f + (bit % 2 : Nat)

/-- The move in force at path T-tick k. -/
def Run.moveAt? (r : Run) (k : Nat) : Option Move :=
  match r.moves.find? (fun m => fracLt (fracI k) (fracAdd m.t0 m.dt) || decide (m.kind = .sync) || decide (m.kind = .pairWait)) with
  | some m => some m
  | none => r.moves.getLast?

/-- Moves that end before path T-tick k are dropped. -/
def Run.trim (r : Run) (k : Nat) : Run :=
  match r.moves with
  | [] => r
  | [_] => r
  | l => { r with moves := (l.dropLast.filter (fun m => fracLt (fracI k) (fracAdd m.t0 m.dt) || decide (m.kind = .sync) ||
      decide (m.kind = .pairWait))) ++ l.getLast?.toList }

/-- The point after length s of a line of legs from (x, y), the last of them going on straight. -/
def polyAt (x y : Int) : List (Int × Int) → Frac → Nat → Int × Int
  | [], _, _ => (x, y)
  | [q], s, bits =>
    let l := lenFix x y q.1 q.2
    (lerpFix x q.1 l s bits, lerpFix y q.2 l s (bits / 2))
  | q :: t, s, bits =>
    let l := lenFix x y q.1 q.2
    if fracLe s l then (lerpFix x q.1 l s bits, lerpFix y q.2 l s (bits / 2)) else polyAt q.1 q.2 t (fracSub s l) bits

/-- What a tick point holds (R117): position, focus, laser state, segment and T-tick count, T-ticks left of a hold. The count is that of the
T-ticks begun since the segment's start: 0 at or before it (log entry 22). -/
structure Sample where
  x : Int
  y : Int
  f : Int
  on : Bool
  seg : Nat
  cnt : Nat
  hold : Nat
  deriving DecidableEq, Repr

/-- The tick point of a move at path T-tick k, with three free low bits. -/
def Move.sample (m : Move) (k bits : Nat) : Sample :=
  let t := fracSub (fracI k) m.t0
  let s := moveAt m.acc m.jerk m.len m.v0 m.vp m.v1 m.dt t
  let xy := if m.via.isEmpty then (lerpFix m.x0 m.x1 m.len s (bits % 2), lerpFix m.y0 m.y1 m.len s (bits / 2 % 2))
    else polyAt m.x0 m.y0 m.via s bits
  { x := xy.1, y := xy.2, f := lerpFix m.f0 m.f1 m.len s (bits / 4 % 2), on := m.on, seg := m.seg,
    cnt := (fracCeil (fracSub (fracI k) m.segT0)).toNat,
    hold := if decide (m.kind = .hold) then (fracCeil (fracSub (fracAdd m.t0 m.dt) (fracI k))).toNat else 0 }

/-! ## Resume points (R74, R140) -/

/-- The point at which a cover resumes (R74): the point itself in a segment with HANDOFF_OK, else the start of the next segment of the
path that has it; none where no such segment follows. -/
def Dev.handoffPoint (d : Dev) (m : Dram) (k : PKey) (rp : ResumePt) : Nat → Nat → Option ResumePt
  | 0, _ => none
  | n + 1, i =>
    match d.segOf m k i with
    | .ok s =>
      if s.handoff then (if i == rp.seg then some rp else some { rp with seg := i, cnt := 0, hold := 0 })
      else d.handoffPoint m k rp n (i + 1)
    | _ => none

/-- The resume point of a path for a beam. After an underrun or an interruption its own beam resumes at the point itself and another one
under R74 (R110, R154, R247); after a yield every beam resumes at the point itself, after a cut every beam under R74 (R251). -/
def Dev.resumeFor (d : Dev) (m : Dram) (k : PKey) (p : PathSt) (rp : ResumePt) (beam : Nat) : Option ResumePt :=
  let exact := match p.rule with
    | .own => p.beam == some beam
    | .exact => true
    | .handoff => false
  if exact then some rp else d.handoffPoint m k rp (p.first + p.count - rp.seg) rp.seg

/-- The placed segment with index i of a path, reached from its first segment, and the segments before it that are joined in motion with it,
nearest first. -/
def PlanCtx.walkTo (c : PlanCtx) (first i : Nat) : Nat → Nat → List SegI → Int → Int → Int → Except PlanFault (SegI × List SegI)
  | 0, j, _, _, _, _ => .error ⟨1, j⟩
  | n + 1, j, run, x, y, z =>
    match c.at_ (j == first) j x y z with
    | .error e => .error e
    | .ok a =>
      let run1 := match run with
        | b :: _ => if joined c.ang b a then run else []
        | [] => []
      if j == i then .ok (a, run1) else c.walkTo first i n (j + 1) (a :: run1) a.x1 a.y1 a.z1

/-! ## Waiting for the partner of a paired path (R108) -/

/-- The path on port p stands at its ORIGIN and waits for its partner. -/
def Run.pairWaiting (r : Run) : Bool :=
  match r.moveAt? r.k with
  | some mv => decide (mv.kind = .pairWait)
  | none => false

/-- The wait of port p ends with the next T-tick. -/
def Dev.pairGo (d : Dev) (p : Nat) : Dev :=
  d.updRun p (fun r =>
    let t := fracI (r.k + 1)
    { r with planT := t,
             moves := r.moves.map (fun (x : Move) => if decide (x.kind = .pairWait) then { x with kind := .hold, dt := fracSub t x.t0 } else x) })

/-- A path of a tile whose pairing has ended waits no longer (R109). -/
def Dev.pairLoose (d : Dev) (p : Nat) : Dev :=
  match d.runOf p with
  | none => d
  | some r =>
    if r.pairWaiting && !((r.key.tile.bind (fun x => d.tile? x.1 x.2)).any (fun t => t.paired)) then d.pairGo p else d

/-! ## Starting a path (R117, R140, R252) -/

/-- The planning context of a path on port p. -/
def Dev.planCtx (d : Dev) (m : Dram) (p : Nat) (k : PKey) (path : PathSt) : PlanCtx :=
  { seg := d.segOf m k, set := d.setOf k, ang := d.get (F.BEAMn_PROF_JOIN_ANG p), last := path.first + path.count - 1,
    tileLast := k.tile.bind (fun x => (d.tile? x.1 x.2).map (fun t => t.rcd.first + t.rcd.count - 1)),
    pair := match k with
      | .bed n t i => (match d.tile? n t with
        | some x => x.paired && i == x.pairIx && (match d.tile? n x.rcd.partner with
          | some y => decide (i < y.paths.length)
          | none => false)
        | none => false)
      | .inc _ => false
    orig := match k with
      | .bed _ _ _ => true
      | .inc _ => (match d.segOf m k path.first with
        | .ok s => s.isOrigin
        | _ => true)
    inc := match k with
      | .bed _ _ _ => false
      | .inc _ => true }

/-- The planning context of the engine of port p, which has passed the segments before index n and of the others has those that its prefetch
queue holds (R120). -/
def Dev.engCtx (d : Dev) (m : Dram) (p : Nat) (k : PKey) (path : PathSt) (n : Nat) : PlanCtx :=
  { d.planCtx m p k path with seg := d.engSeg m k n }

/-- Where the nominal path begins: at the engine, or for a streamed remainder at the point formed for it (R265). -/
def Dev.baseOf (d : Dev) (e : Eng) (k : PKey) (orig : Bool) : Int × Int × Int :=
  match k, orig with
  | .inc x, false => (match tfind d.hnd.inc x with
    | some h => h.base
    | none => (e.x / 2 ^ 32, e.y / 2 ^ 32, e.f / 2 ^ 32))
  | _, _ => (e.x / 2 ^ 32, e.y / 2 ^ 32, e.f / 2 ^ 32)

/-- A run with nothing planned, at an engine's position. -/
def newRun (d : Dev) (e : Eng) (k : PKey) (path : PathSt) (taking orig : Bool) : Run :=
  let b := d.baseOf e k orig
  { key := k, k := 0, startTick := d.tick, moves := [], planT := f0, next := path.first, last := path.first + path.count - 1,
    bx := b.1, by_ := b.2.1, bf := b.2.2, px := e.x, py := e.y, vel := f0, stroke := none, settle := 0,
    planned := false, edges := [], lit := none, openSeg := none, hit := none, taking := taking, arrived := !taking,
    resume := path.resume, conf := none, intr := none, yield := false, lostSeg := none,
    shed := false }

/-- The displacement of the last T-tick, if the engine is in motion. -/
def Eng.motion (e : Eng) (now : Word) : Option (Int × Int) :=
  match e.hist with
  | a :: b :: _ => if now - a.tick ≤ 1 && b.tick + 1 == a.tick && !(a.x == b.x && a.y == b.y) then some (a.x - b.x, a.y - b.y) else none
  | _ => none

/-- A beam in motion is brought to rest, laser off, within a set's ACCEL and JERK: along its present line (R252), or along the points of its
path ahead where they are given (R154). -/
def Planned.stopAlong (q : Planned) (seg : Nat) (p : PSet) (mv : Option (Int × Int)) (f : Int) (via : List (Int × Int) := []) : Planned :=
  match mv with
  | none => q
  | some (dx, dy) =>
    let v := velB (fracMul (hypotI dx dy) (frac 1 (2 ^ 32)))
    let a := accF p.accel
    let j := jerkF p.jerk
    let len := rampDist a j v f0
    let e := if via.isEmpty then (q.run.px + alongF dx (hypotI dx dy) len, q.run.py + alongF dy (hypotI dx dy) len)
      else polyAt q.run.px q.run.py via len 0
    let m : Move :=
      { kind := .stop, on := false, seg := seg, x0 := q.run.px, y0 := q.run.py, x1 := e.1, y1 := e.2, f0 := f, f1 := f,
        t0 := fracI (snapF q.run.planT), dt := rampTime a j v, len := len, v0 := v, vp := v, v1 := f0, acc := a, jerk := j,
        segT0 := fracI (2 ^ 40), via := via }
    q.push m (0, 0)

/-- The points ahead of a running path as far as it is planned. -/
def Run.ahead (r : Run) : List (Int × Int) :=
  let here : List (Int × Int) := match r.moveAt? r.k with
    | some c => (r.moves.dropWhile (fun m => decide (m ≠ c))).map (fun (m : Move) => (m.x1, m.y1))
    | none => []
  here.foldr (fun q l => if l.head? == some q then l else q :: l) []

/-- The parameter set of the segment that the last tick point of port p belongs to, its present set. -/
def Dev.motionSet (d : Dev) (m : Dram) (p : Nat) : Option PSet :=
  (d.engOf p).hist.head?.bind (fun t => t.key.bind (fun k =>
    match d.segOf m k t.seg with
    | .ok s => match d.setOf k s.pset with
      | .ok x => some x
      | .fail _ => none
    | _ => none))

/-- Focus at a point of a segment: linear in the length travelled (R75), where a remainder from another device gives none. -/
def SegI.focAt (a : SegI) (x y : Int) : Int :=
  if a.len.num == 0 then a.foc1
  else
    let s := fracMin a.len (fracMul (hypotI (x - fixI a.x0) (y - fixI a.y0)) (frac 1 (2 ^ 32)))
    a.foc0 + fracFloor (fracDiv (fracMul (fracI (a.foc1 - a.foc0)) s) a.len)

/-- The resume point is reached at path time t: T-ticks of the resumed segment go on counting from those that had passed there. -/
def Planned.reachAt (q : Planned) (seg cnt : Nat) (t : Frac) : Planned :=
  { q with run := { q.run with
      reach := t
      moves := q.run.moves.map (fun (x : Move) =>
        if x.seg == seg && decide (x.kind ≠ .settle) && fracLe t x.t0 then { x with segT0 := fracSub x.segT0 (fracI cnt) } else x) } }

/-- The point lies at or beyond the end of a segment. -/
def SegI.pastEnd (a : SegI) (x y : Int) : Bool :=
  decide (0 ≤ (x - fixI a.x1) * (a.x1 - a.x0) + (y - fixI a.y1) * (a.y1 - a.y0))

/-- The plan from inside a stroke with SKY (R124, R140): the run-in lies behind the resume point, and the stroke keeps the velocity of all
of its segments; in its run-out, only the rest of the run-out and the segment's dwell are left. -/
def Planned.resumeStroke (q : Planned) (a : SegI) (before : List SegI) (ang : Nat) (rest : List SegI) (cnt : Nat) (x y f : Int) : Planned :=
  let v := strokeV (before ++ strokeRun ang a rest)
  if (strokeRun ang a rest).length == 1 && a.pastEnd x y && cnt != 0 then
    let q1 := q.offTo a.ix a.p x y f f 0
    let e := runOutEnd a v
    let q2 := if e.1 == x && e.2 == y then q1 else q1.offTo a.ix a.p e.1 e.2 f f 0
    let q3 := (q2.closeSeg a false q1.run.nextT).reachAt a.ix cnt q1.run.nextT
    { q3 with run := { q3.run with settle := settleAfter a.p rest } }
  else
    let start := runInStart a v x y
    let q1 := (q.offTo a.ix a.p start.1 start.2 f f a.p.settle).flushSettle a.ix f
    let into := q1.run.straight .off false a.ix a.p x y f f v v f0
    let q2 := q1.push { into with segT0 := fracAdd into.t0 into.dt } (0, 0)
    (q2.strokeSeg a v ang rest f).reachAt a.ix cnt (fracAdd into.t0 into.dt)

/-- The plan of a remainder (R140): a laser-off move to its resume point, or behind it to the run-in start of a SKY stroke, the rest
of a hold there, then the path from that point. `mv` is the beam's motion at the start and `now` its present set (R252). -/
def PlanCtx.planResume (c : PlanCtx) (first : Nat) (q : Planned) (rp : ResumePt) (mv : Option (Int × Int)) (now : Option PSet) :
    Except PlanFault Planned :=
  match c.walkTo first rp.seg (rp.seg + 1 - first) first [] q.run.bx q.run.by_ q.run.bf with
  | .error e => .error e
  | .ok (a, before) =>
    let rest := c.ahead (c.last + 1 - a.ix) (a.ix + 1) a.x1 a.y1 a.z1
    let q0 := q.stopAlong a.ix (now.getD a.p) mv q.run.bf
    let whole := rp.cnt == 0 && rp.hold == 0
    if a.s.isOrigin && whole then .ok ((q0.segment a c.ang rest false (fixI q.run.bf)).reachAt a.ix 0 q0.run.nextT)
    else
      let x := if whole then fixI a.x0 else rp.x
      let y := if whole then fixI a.y0 else rp.y
      let f := if whole then a.foc0 else if c.inc then a.focAt rp.x rp.y else rp.f
      let lit := a.s.isExpose && !a.p.sky
      if 0 < rp.hold then
        let q1 := q0.offTo a.ix a.p x y f f (if lit then a.p.settle else 0)
        let at_ := q1.run.nextT
        let q2 := q1.flushSettle a.ix f
        let q3 := (q2.push (q2.run.holdMove .hold lit a.ix f rp.hold q2.run.nextT) a.p.delays).reachAt a.ix rp.cnt at_
        .ok { q3 with run := { q3.run with next := a.ix + 1, bx := a.x1, by_ := a.y1, bf := a.z1,
                                           settle := if lit then 0 else settleAfter a.p rest } }
      else if a.skyStroke then .ok (q0.resumeStroke a before c.ang rest rp.cnt x y f)
      else
        -- what stands still is held where the next motion of a stroke begins (R124)
        let tgt := if whole && (a.s.isPause || a.s.isSync) then
            (match strokeAhead c.ang rest with
             | some (b, v) => runInStart b v (fixI b.x0) (fixI b.y0)
             | none => (x, y))
          else (x, y)
        let settle := if a.s.isExpose then a.p.settle else if a.s.isPause || a.s.isSync then settleAfter a.p rest else 0
        let q1 := q0.offTo a.ix a.p tgt.1 tgt.2 f f settle
        if a.s.isExpose then
          let q2 := q1.flushSettle a.ix f
          let len := lenFix q2.run.px q2.run.py (fixI a.x1) (fixI a.y1)
          .ok ((q2.segment { a with len := len, vl := stretchV len (vLimit a.s a.p) } c.ang rest true f).reachAt a.ix rp.cnt q1.run.nextT)
        else .ok ((q1.segment a c.ang rest false f).reachAt a.ix rp.cnt q1.run.nextT)

/-! ## Ending a path -/

/-- The point of the path that a tick point stands for: on the approach, the resume point it leads to. -/
def Run.ptOf (r : Run) (t : TickPt) : ResumePt :=
  match t.appr, r.resume with
  | true, some rp => { rp with hit := r.hit }
  | _, _ => ⟨t.seg, t.cnt, t.x, t.y, t.f, t.hold, r.hit⟩

/-- The point from which a run began. -/
def Run.startPt (r : Run) (path : PathSt) : ResumePt :=
  match r.resume with
  | some rp => { rp with hit := r.hit }
  | none => ⟨path.first, 0, 0, 0, 0, 0, r.hit⟩

/-- Where a path is cut at the engine's last tick point: its resume point. -/
def Eng.cutPoint (e : Eng) (r : Run) : ResumePt :=
  match e.hist with
  | t :: _ => if t.key == some r.key then r.ptOf t else ⟨r.next, 0, e.x, e.y, e.f, 0, r.hit⟩
  | [] => ⟨r.next, 0, e.x, e.y, e.f, 0, r.hit⟩

/-- The latest confirmed point; before any confirmation, the point from which the run began. -/
def Run.resumePt (r : Run) (path : PathSt) : ResumePt :=
  match r.conf with
  | some c => { c.pt with hit := r.hit }
  | none => r.startPt path

/-- Tick point t of port p is confirmed (R139, R141): the confirmed point of the path that runs, but for a tick point later than an
interruption (R154). -/
def Dev.confirmPt (d : Dev) (p : Nat) (t : TickPt) : Dev :=
  let d1 := d.updEng p (fun e => { e with hist := e.hist.map (fun (h : TickPt) =>
    if h.tick == t.tick && h.key == t.key then { h with ok := true } else h) })
  let d2 := d1.updRun p (fun r =>
    if t.key == some r.key && !(r.intr.any (fun on => later32 t.tick on)) then { r with conf := some ⟨r.ptOf t, t.tick⟩ } else r)
  (d2.put (F.BEAMn_CONF_SEG_SEG p) t.seg).put (F.BEAMn_CONF_TICK_TICK p) t.tick.toNat

/-- The resume point at an onset tick (R140, R141): the latest confirmed tick point no later than it; before any, the point from which the
run began. -/
def Dev.resumeAt (d : Dev) (p : Nat) (r : Run) (path : PathSt) (onset : Word) : ResumePt :=
  match (d.engOf p).hist.find? (fun t => t.ok && t.key == some r.key && !(later32 t.tick onset)) with
  | some t => r.ptOf t
  | none => match r.conf with
    | some c => if later32 c.tick onset then r.startPt path else { c.pt with hit := r.hit }
    | none => r.startPt path

/-- The owner is told that a remainder from another device has ended (R265): HO_DONE with its sums. -/
def Dev.incDone (d : Dev) (x : Nat) (aborted : Bool) (seg cnt : Nat) : Dev :=
  match tfind d.hnd.inc x with
  | none => d
  | some h =>
    let joules := f32OfFr (fracMul (fracMul (frac h.pwr 65535) (fracOfF32 (ratedOf (d.sections false) h.port)))
      (frac 1 4000000))
    let d1 := if h.orphan then
        d.raise 0x0612 0x04 1 (h.node + 256 * h.lead + 65536 * h.port + 2 * 2 ^ 24) h.bedNo.toNat h.tile
      else d.send 0x15 h.node (leBytes 4 x ++ leBytes 4 (b2n aborted) ++ leBytes 4 seg ++ leBytes 4 cnt ++
        leBytes 4 joules.toNat ++ h.wins.flatMap (leBytes 4) ++ leBytes 4 h.notExp ++ leBytes 4 h.loopLost)
    { d1 with hnd := { d1.hnd with inc := tdel d1.hnd.inc x } }

/-- The standby copy of a path ends (R268): HO_STBY_END with its reason. -/
def Dev.stbyEnd (d : Dev) (k : PKey) (reason : Nat) : Dev :=
  (d.hnd.stbyOut.filter (fun (x : Nat × StbyOut) => x.2.key == k)).foldl (fun d x =>
    { d.send 0x1A x.2.node (leBytes 4 x.1 ++ leBytes 4 reason) with
      hnd := { d.hnd with stbyOut := tdel d.hnd.stbyOut x.1 } }) d

/-- The path on port p leaves its engine with its segments. -/
def Dev.dropRun (d : Dev) (p : Nat) : Dev :=
  let d1 := match d.runOf p with
    | some r => d.unfetch p (fun k => decide (k = r.key))
    | none => d
  (d1.updEng p (fun e => { e with run := none })).setFlag (F.HND_Pn_STAT_TAKING p) false

/-- A path ends on port p (R117): whole, or with its EXPOSE segments from `lost` on not exposed. `reason` is that of
HO_STBY_END. -/
def Dev.endRun (d : Dev) (m : Dram) (p : Nat) (lost : Option Nat) (reason : Nat) : Dev :=
  match d.runOf p with
  | none => d
  | some r =>
    let c := (d.engOf p).cutPoint r
    let d1 := match lost with
      | some a => (d.blankPort p).loseFrom m r.key a
      | none => d
    let d2 := ((d1.dropRun p).stbyEnd r.key reason).pathEnded r.key
    match r.key with
    | .inc x => d2.incDone x (reason != 1) c.seg c.cnt
    | .bed _ _ _ => d2

/-- The last segment that is not wholly exposed when the path is cut now. -/
def Dev.cutSeg (d : Dev) (p : Nat) : Nat :=
  match d.runOf p with
  | some r => ((d.engOf p).cutPoint r).seg
  | none => 0

/-- A data fault on port p (R94): the beam is blanked, the path ends at its present tick point, the rest is not exposed, and a
0x0228 event names the segment and the cause. An error met by a fetch has been recorded there (R333). -/
def Dev.dataFault (d : Dev) (m : Dram) (p : Nat) (k : PKey) (f : PlanFault) : Dev :=
  let d1 := (d.tileFlag k 10).raiseSeg (d.segTag m k f.seg) 0x0228 (srcPort p) 3 (d.tileNo k + 65536 * p + 2 ^ 24 * f.cause) f.seg (d.keyBedNo k)
  let d2 := if f.cause == 3 then (match k with
    | .bed n _ _ => if (d1.preSeg k f.seg).isNone && badRead d1 m (d.segAddr n f.seg) 16 then
        d1.raiseLostRead (d.get (F.BEAMn_PAIR_PAIR p)) (d.segAddr n f.seg) else d1
    | .inc _ => d1) else d1
  d2.endRun m p (some (d2.cutSeg p)) 1

/-- The counts of a plan (R77, R125): JIG_SHORT, and a 0x0304 event for each gate edge placed or removed. -/
def Dev.planCounts (d : Dev) (m : Dram) (p : Nat) (k : PKey) (q : Planned) : Dev :=
  let d1 := if q.shorts == 0 then d else d.bump F.JIG_SHORT_COUNT q.shorts
  q.clamps.foldl (fun d s => (d.setFlag (F.BEAMn_TSTAT_GCLAMP p) true).raiseSeg (d.segTag m k s) 0x0304 (srcPort p) 2 (d.tileNo k) s 0) d1

/-- Port p's path is planned further ahead, as far as its prefetch queue goes (R120). -/
def Dev.planPort (d : Dev) (m : Dram) (p : Nat) : Dev :=
  match d.runOf p with
  | none => d
  | some r =>
    match d.path? r.key with
    | none => d.dropRun p
    | some path =>
      let c := d.engCtx m p r.key path r.next
      match c.planAhead path.first (c.last + 2) ⟨r, 0, []⟩ with
      | .error f => d.dataFault m p r.key f
      | .ok q => (d.updRun p (fun _ => q.run)).planCounts m p r.key q

/-- A remainder that an underrun left is resumed from a segment (R110). -/
def Dev.noteResumed (d : Dev) (m : Dram) (p : Nat) (k : PKey) (path : PathSt) (seg : Nat) : Dev :=
  match path.st with
  | .dealt _ =>
    if path.underruns != 0 && path.cls == 3 then
      (d.tileFlag k 1).raiseSeg (d.segTag m k seg) 0x0209 0x03 1 (d.tileNo k + 65536 * p + 2 ^ 21 * path.underruns) seg (d.keyBedNo k)
    else d
  | _ => d

/-- The tick points of a path's earlier runs on port p stand for the point from which the path now goes on, and their confirmations no longer
count. -/
def Dev.forgetConf (d : Dev) (p : Nat) (k : PKey) : Dev :=
  d.updEng p (fun e => { e with hist := e.hist.map (fun (t : TickPt) => if t.key == some k then { t with ok := false, appr := true } else t) })

/-- Port p begins a path or a remainder (R117, R140, R252): the beam starts on it in this T-tick. Segments passed over under R74 are
uncovered; where none may be resumed in, the rest of the path is. -/
def Dev.beginRun (d0 : Dev) (m : Dram) (p : Nat) (k : PKey) (taking : Bool) : Dev :=
  match d0.path? k with
  | none => d0
  | some path =>
    let d := d0.forgetConf p k
    let e := d.engOf p
    let orig := (d.planCtx m p k path).orig
    let run0 := { newRun d e k path taking orig with shed := decide (2 ≤ d.get (F.HND_Pn_STAT_SHED p)) }
    -- a remainder that begins in motion goes on from the last tick point (R252)
    let run := if path.resume.isSome && (e.motion d.tick).isSome then { run0 with startTick := d.tick - 1, k := 1 } else run0
    let set := fun (d : Dev) (r : Run) =>
      ((d.updEng p (fun e => { e with run := some r })).updPrt p (fun x => { x with blank := false })).updPath k
        (fun q => { q with st := .running p, beam := some p, resume := none, rule := .own })
    match path.resume with
    | none => (set d run).planPort m p
    | some rp =>
      match d.resumeFor m k path rp p with
      | none => ((d.loseFrom m k rp.seg).tileFlag k 3).pathEnded k
      | some rp' =>
        let skipped := d.countExpose m k rp.seg (rp'.seg - rp.seg)
        let d1 := (if rp'.seg == rp.seg then d else (d.addNotExposed k skipped).tileFlag k 3).noteResumed m p k path rp'.seg
        let run1 := { run with hit := rp.hit, resume := some rp', next := rp'.seg }
        match (d.engCtx m p k path rp'.seg).planResume path.first ⟨run1, 0, []⟩ rp' (e.motion d.tick) (d.motionSet m p) with
        | .error f => (set d1 run1).dataFault m p k f
        | .ok q => ((set d1 q.run).planCounts m p k q).planPort m p

end Sys2Proof.Machine
end

