-- ==== Sys2Proof/Machine/Handoff.lean ====
section
/-! DEFINITION. The hand-off scheduler (09_handoff.md): remainders and the beams that may take them (R241, R249, R250), takeovers
(R247 to R257), shed hand-offs (R258), faults of a beam (R260), and the return to service (R264). -/

namespace Sys2Proof.Machine

/-! ## Remainders (R241, R244) -/

/-- The placed segments of a path from its first one, as far as they can be decoded. -/
def PlanCtx.placed (c : PlanCtx) (first : Nat) (b : Int × Int × Int) : List SegI :=
  match c.at_ true first b.1 b.2.1 b.2.2 with
  | .error _ => []
  | .ok a => a :: c.ahead (c.last - first) (first + 1) a.x1 a.y1 a.z1

/-- The segments of a path as port p plans them. -/
def Dev.pathSegs (d : Dev) (m : Dram) (p : Nat) (k : PKey) (path : PathSt) : List SegI :=
  let c := d.planCtx m p k path
  c.placed path.first (d.baseOf eng0 k c.orig)

/-- The segments from a resume point on, the first one shortened to begin there. -/
def fromPoint (rp : ResumePt) (segs : List SegI) : List SegI :=
  match segs.filter (fun a => decide (rp.seg ≤ a.ix)) with
  | [] => []
  | a :: t =>
    if rp.cnt == 0 && rp.hold == 0 then a :: t
    else
      let x := rp.x / 2 ^ 32
      let y := rp.y / 2 ^ 32
      let len := if a.s.isPause || a.s.isSync then f0 else hypotI (a.x1 - x) (a.y1 - y)
      { a with x0 := x, y0 := y, len := len, vl := stretchV len (vLimit a.s a.p) } :: t

/-- The box of a remainder, from its resume point onwards (R249). -/
def remBox (ang : Nat) (rp : ResumePt) (segs : List SegI) : Box :=
  match fromPoint rp segs with
  | [] => boxPt (rp.x / 2 ^ 32, rp.y / 2 ^ 32)
  | a :: t =>
    let b := boxJoin (boxOf ang (a :: t)) (boxPt (if a.s.isOrigin then (a.x1, a.y1) else (a.x0, a.y0)))
    if rp.cnt == 0 && rp.hold == 0 then b
    else boxJoin b (boxPt (-((-rp.x) / 2 ^ 32), -((-rp.y) / 2 ^ 32)))

/-- The predicted duration of a remainder without its approach, in units of 2⁻¹⁰ µs (R244): the settle after the approach (R122), the rest
of a hold, and what follows. -/
def remDur (ang : Nat) (rp : ResumePt) (segs : List SegI) : Nat :=
  match fromPoint rp segs with
  | [] => 0
  | a :: t =>
    let after := fun (l : List SegI) => predictGo ang none none l
    if a.s.isOrigin then predict ang (a :: t)
    else if 0 < rp.hold then
      let lit := a.s.isExpose && !a.p.sky
      durUnits (fracAdd (fracI (rp.hold + (if lit then a.p.settle else settleAfter a.p t))) (after t))
    else if a.s.isExpose then durUnits (fracAdd (fracI a.p.settle) (after (a :: t)))
    else if a.s.isPause || a.s.isSync then durUnits (fracAdd (fracI (settleAfter a.p t)) (after (a :: t)))
    else durUnits (after (a :: t))

/-- The record of the tile of a path. -/
def Dev.tileRec (d : Dev) (k : PKey) : Option TileRec := k.tile.bind (fun x => (d.tile? x.1 x.2).map (fun t => t.rcd))

/-- The covers of a path's tile, in order (R50, R266, R269). -/
def Dev.coversFor (d : Dev) (k : PKey) : List (Nat × Nat) :=
  match k with
  | .bed _ _ _ => match d.tileRec k with
    | some r => honoured (d.keySections k) r
    | none => []
  | .inc x => match tfind d.hnd.inc x with
    | some h => h.covers
    | none => []

/-- The field of port b holds a box, in the set of the path's bed (R241). -/
def Dev.fieldHolds (d : Dev) (k : PKey) (b : Nat) (box : Box) : Bool := boxIn (fieldOf (d.keySections k) b) box

/-! ## When a beam can start (R250) -/

/-- The end of the segment under way, if the plan reaches past it and waits for nothing in it. -/
def Run.segEnd (r : Run) : Option Frac :=
  match r.moveAt? r.k with
  | none => none
  | some c =>
    let mine := r.moves.filter (fun m => m.seg == c.seg)
    if mine.any (fun m => decide (m.kind = .sync) || decide (m.kind = .pairWait)) then none
    else if r.planned || r.moves.any (fun m => decide (c.seg < m.seg)) then
      mine.getLast?.map (fun m => fracAdd m.t0 m.dt)
    else none

/-- T-ticks until a path time. -/
def Run.left (r : Run) (t : Frac) : Nat := snapF t - r.k

/-- The cases of R250. -/
def caseIdle : Nat := 0
/-- FINISH. -/
def caseFinish : Nat := 1
/-- YIELD. -/
def caseYield : Nat := 2
/-- CUT. -/
def caseCut : Nat := 3

/-- The case of R250 for port p now, and the wait in µs until its start. -/
def Dev.startCase (d : Dev) (p : Nat) : Nat × Nat :=
  match d.runOf p with
  | none => (caseIdle, 1)
  | some r =>
    if r.planned && decide (r.left r.planT ≤ 150) then (caseFinish, r.left r.planT + 1)
    else match r.segEnd with
      | some t => if r.left t ≤ 150 then (caseYield, r.left t + 1) else (caseCut, 1)
      | none => (caseCut, 1)

/-- Predicted µs until the running path of port p ends (R245): its plan, and after it the predicted duration of what is not planned yet. -/
def Dev.runLeft (d : Dev) (m : Dram) (p : Nat) : Nat :=
  match d.runOf p with
  | none => 0
  | some r =>
    if r.planned then r.left r.planT
    else
      let segs := match d.path? r.key with
        | some path => d.pathSegs m p r.key path
        | none => []
      let ang := d.get (F.BEAMn_PROF_JOIN_ANG p)
      let before := segs.filter (fun a => decide (a.ix < r.next))
      let moved := (before.filter (fun a => !(a.s.isPause || a.s.isSync))).getLast?
      r.left r.planT + (durUnits (predictGo ang before.getLast? moved (segs.filter (fun a => decide (r.next ≤ a.ix)))) + 1023) / 1024

/-! ## Choosing a cover (R249) -/

/-- Takeover a goes before b (R254): the earlier detection, and at equal detection the lower port number. -/
def Takeover.before (a b : Takeover) : Bool :=
  later64 b.detect a.detect || (a.detect == b.detect && decide (a.lead.getD 0xFF < b.lead.getD 0xFF))

/-- A takeover that has not started has chosen port p. -/
def Takeover.waitsFor (t : Takeover) (p : Nat) : Bool :=
  !t.started && (match t.cover with
    | some (.loc q _ _) => q == p
    | _ => false)

/-- Port p is bound to another takeover that has not started (R249). One chosen in this same T-tick by a takeover that ranks after t does not
bind it: both would choose the same cover, and t takes it (R254; log entry 125). -/
def Dev.committed (d : Dev) (t : Takeover) (p : Nat) : Bool :=
  d.hnd.tko.any (fun (x : Nat × Takeover) => x.2.waitsFor p && !(x.2.chose == d.tick && t.before x.2))

/-- The takeovers that lose port p to takeover i (R254). -/
def Dev.displaced (d : Dev) (i p : Nat) : List Nat :=
  (d.hnd.tko.filter (fun (x : Nat × Takeover) => x.1 != i && x.2.waitsFor p)).map (·.1)

/-- Port p of this device may take the remainder of a takeover with this box (R241, R249, R259). -/
def Dev.localOk (d : Dev) (t : Takeover) (box : Box) (p : Nat) : Bool :=
  d.inService p && d.fieldHolds t.key p box && d.get (F.HND_Pn_STAT_SHED p) == 0 && !(d.flag (F.HND_Pn_STAT_TAKING p)) &&
  !(d.committed t p) && !(d.flag (F.HND_Pn_CTRL_HOLDOUT p))

/-- A beam of another node may be asked: no other remainder of this device has been asked of it or runs on it, and its latest overlap state,
if any is known, shows it in service, unshed and not taking (R249). -/
def Dev.remoteOk (d : Dev) (node port : Nat) : Bool :=
  !(d.hnd.out.any (fun (x : Nat × HoOut) => x.2.node == node && x.2.port == port)) &&
  (match tfind d.glk.overlaps node with
   | none => true
   | some (_, l) => l.getD port 0 % 64 == 0)

/-- A cover that names this device. -/
def Dev.coverHere (d : Dev) (k : PKey) (c : Nat × Nat) : Bool := coverLocal (d.keySections k) c

/-- The covers of a takeover that remain, in order. -/
def Dev.candidates (d : Dev) (m : Dram) (t : Takeover) : List (Nat × Nat) :=
  match d.path? t.key with
  | none => []
  | some path =>
    let lead := t.lead.getD 0
    match d.handoffPoint m t.key t.rp (path.first + path.count - t.rp.seg) t.rp.seg with
    | none => []
    | some rp =>
      let ang := d.get (F.BEAMn_PROF_JOIN_ANG lead)
      let box := remBox ang rp (d.pathSegs m lead t.key path)
      t.covers.filter (fun c => !(t.tried.contains c) &&
        (if d.coverHere t.key c then t.lead != some c.2 && d.localOk t box c.2 else d.remoteOk c.1 c.2))

/-- A cover can start within 150 µs without a cut, as far as this device can tell (R249). -/
def Dev.quick (d : Dev) (k : PKey) (c : Nat × Nat) : Bool := !(d.coverHere k c) || (d.startCase c.2).1 != caseCut

/-- The cover chosen (R249). -/
def Dev.pick (d : Dev) (m : Dram) (t : Takeover) : Option (Nat × Nat) :=
  let cs := d.candidates m t
  (cs.find? (d.quick t.key)).or cs.head?

/-! ## Records of a takeover -/

/-- The tile of a path is marked HANDED_OFF and counts a hand-off (R114, R253). -/
def Dev.tileHandoff (d : Dev) (k : PKey) : Dev :=
  match k.tile with
  | some (n, t) => d.updTile n t (fun x => { x with flags := bitPut x.flags 2 true, handoffs := min 255 (x.handoffs + 1) })
  | none => d

/-- An entry number in an event, 0xFF for none. -/
def entryNo : Option Nat → Nat
  | some e => e
  | none => 0xFF

/-- A takeover changed. -/
def Dev.updTko (d : Dev) (i : Nat) (f : Takeover → Takeover) : Dev :=
  match tfind d.hnd.tko i with
  | some t => { d with hnd := { d.hnd with tko := tput d.hnd.tko i (f t) } }
  | none => d

/-- A bit of entry e, where the takeover has one. -/
def Dev.entryBit (d : Dev) (e : Option Nat) (f : Nat → Fld) : Dev :=
  match e with
  | some k => d.setFlag (f k) true
  | none => d

/-- A HANDING beam passes to OUT (R264). -/
def Dev.handingDone (d : Dev) (n : Option Nat) : Dev :=
  match n with
  | some n => if d.get (F.HND_Pn_STAT_STATE n) == 1 then (d.put (F.HND_Pn_STAT_STATE n) 2).portBits n else d
  | none => d

/-- A takeover is over, or ended before its start: its beam passes to OUT (R264), and entries may resolve (R261). -/
def Dev.dropTko (d : Dev) (i : Nat) : Dev :=
  let d1 := match tfind d.hnd.tko i with
    | some t => d.handingDone t.lead
    | none => d
  ({ d1 with hnd := { d1.hnd with tko := tdel d1.hnd.tko i } }).ftSweep

/-- The EXPOSE segments of a remainder are left unexposed (R256): the tile's flag, the entry's outcome and severity, count, status and event. -/
def Dev.uncovered (d : Dev) (m : Dram) (t : Takeover) : Dev :=
  let n := d.segsLeft t.key t.rp.seg
  let d1 := ((d.loseFrom m t.key t.rp.seg).tileFlag t.key 3).entryBit t.entry F.HND_FTk_INFO_UNCOVERED
  let d2 := match t.entry with
    | some e => d1.ftRaise e 4
    | none => d1
  ((d2.bump F.HND_UNCOVERED_COUNT).setFlag F.HND_STAT_UNCOV true).raiseSeg (d.segTag m t.key t.rp.seg) 0x0605 0x04 4 (d.tileNo t.key)
    t.rp.seg n

/-- A remainder for which no cover remains (R256). One that another device streams goes back to its owner as aborted (R265), whose
records those are; an orphan's is this device's to record. -/
def Dev.uncover (d : Dev) (m : Dram) (i : Nat) : Dev :=
  match tfind d.hnd.tko i with
  | none => d
  | some t =>
    match t.key with
    | .inc x =>
      let d1 := if (tfind d.hnd.inc x).any (fun h => h.orphan) then d.uncovered m t else d
      ((d1.setStat t.key .ended).incDone x true t.rp.seg t.rp.cnt).dropTko i
    | .bed _ _ _ => ((d.uncovered m t).pathEnded t.key).dropTko i

/-! ## Yielding and cutting (R251) -/

/-- A path waits in the pool from a point, in a class of R243, with the rule of its resumption. -/
def Dev.requeue (d : Dev) (k : PKey) (cls beam : Nat) (rp : ResumePt) (rule : ResRule) : Dev :=
  d.updPath k (fun q => { q with st := .pool cls, cls := cls, resume := some rp, beam := some beam, rule := rule })

/-- The beams that R241 lets a path be dealt to: its lead and, unless LEAD_ONLY or pairing stops them, its covers on this device.
Both lapse where the lead is out of service. -/
def Dev.dealBeams (d : Dev) (k : PKey) : List Nat :=
  match k with
  | .inc x => match tfind d.hnd.inc x with
    | some h => h.covers.map (·.2)
    | none => []
  | .bed n t _ => match d.tile? n t with
    | none => []
    | some x =>
      let only := (x.rcd.leadOnly || x.paired) && d.inService x.rcd.lead
      x.rcd.lead :: (if only then [] else ((d.coversFor k).filter (d.coverHere k)).map (·.2))

/-- The box of what is left of a path, as dealt. -/
def Dev.leftBox (d : Dev) (m : Dram) (k : PKey) (path : PathSt) : Box :=
  match path.resume with
  | none => path.box
  | some rp =>
    let lead := ((d.dealBeams k).head?).getD 0
    remBox (d.get (F.BEAMn_PROF_JOIN_ANG lead)) rp (d.pathSegs m lead k path)

/-- The eligible beams of a path for dealing, lead first (R241). -/
def Dev.eligible (d : Dev) (m : Dram) (k : PKey) (path : PathSt) : List Nat :=
  let box := d.leftBox m k path
  (d.dealBeams k).filter (fun b => d.inService b && d.fieldHolds k b box)

/-- A yielded or cut path of cover p goes back to the pool in class 2 (R251). -/
def Dev.splitPath (d : Dev) (m : Dram) (p : Nat) (k : PKey) (rp : ResumePt) (rule : ResRule) : Dev :=
  let d1 := (((d.stbyEnd k 1).requeue k 2 p rp rule).tileHandoff k).raiseSeg (d.segTag m k rp.seg) 0x0603 0x04 1 p (d.tileNo k) rp.seg
  match d1.path? k with
  | none => d1
  | some path =>
    let others := (d1.eligible m k path).filter (· != p)
    if others.any (fun b => (d1.startCase b).1 == caseIdle || (d1.startCase b).1 == caseFinish) then d1
    else
      let wait := (others ++ [p]).foldl (fun w b => min w (d1.runLeft m b)) 0xFFFF
      (d1.setFlag F.HND_STAT_WAIT_EXC true).raise 0x0611 0x04 2 p wait (d.tileNo k)

/-- Port p's own path is cut at its present tick point (R251). A pairing cannot outlast that: it ends with cause 1 of 0x020A, the one of the
takeover that asks for the cut (log entry 126). -/
def Dev.cutPath (d : Dev) (m : Dram) (p : Nat) : Dev :=
  match d.runOf p with
  | none => d
  | some r =>
    match d.path? r.key with
    | none => d.dropRun p
    | some path =>
      let rp := d.resumeAt p r path d.tick
      (((d.blankPort p).dropRun p).pairEnd r.key 1).splitPath m p r.key rp .handoff

/-- Port p's own path ends at the end of its present segment (R251): its remainder begins at the next one. Its pairing ends as at a cut
(log entry 126). -/
def Dev.yieldPath (d : Dev) (m : Dram) (p seg : Nat) : Dev :=
  match d.runOf p with
  | none => d
  | some r =>
    let e := d.engOf p
    ((((d.blankPort p).dropRun p).pairEnd r.key 1).splitPath m p r.key ⟨seg + 1, 0, e.x, e.y, e.f, 0, r.hit⟩ .exact)

/-! ## The choice (R248 to R250, R265) -/

/-- Messages of HO_REQ (R305). -/
def Dev.hoReqData (d : Dev) (m : Dram) (xid port : Nat) (t : Takeover) : List Byte :=
  let lead := t.lead.getD 0
  let ang := d.get (F.BEAMn_PROF_JOIN_ANG lead)
  let segs := match d.path? t.key with
    | some path => d.pathSegs m lead t.key path
    | none => []
  let hit := t.rp.hit
  leBytes 4 xid ++ leBytes 1 lead ++ leBytes 1 port ++ leBytes 2 (b2n hit.isSome) ++ leBytes 4 (d.keyBedNo t.key) ++
  leBytes 4 (d.tileNo t.key) ++ leBytes 4 t.rp.seg ++ leBytes 4 t.rp.cnt ++ lePt t.rp.x t.rp.y ++ leBox (remBox ang t.rp segs) ++
  leBytes 4 ((remDur ang t.rp segs + 1023) / 1024) ++ leBytes 4 (match hit with
    | some h => h.1.toNat
    | none => 0) ++ leBytes 4 (d.tick - BitVec.ofNat 32 (elapsed64 d.time t.detect / 1000)).toNat

/-- A transfer identifier (R305): this node and a count of 24 bits. -/
def xidOf (node n : Nat) : Nat := node * 2 ^ 24 + n % 2 ^ 24

/-- A beam of another node is asked (R265). -/
def Dev.askRemote (d : Dev) (m : Dram) (i : Nat) (t : Takeover) (c : Nat × Nat) : Dev :=
  let xid := xidOf (nodeOf d.rig.live) d.hnd.nextXid
  let o : HoOut := { node := c.1, port := c.2, key := t.key, granted := false, started := false, sent := t.rp.seg, conf := t.rp,
                     heard := d.time, asked := d.time }
  (({ d with hnd := { d.hnd with out := tput d.hnd.out xid o, nextXid := d.hnd.nextXid + 1 } }).updTko i
    (fun t => { t with cover := some (.rem c.1 c.2 xid), chose := d.tick })).send 0x10 c.1 (d.hoReqData m xid c.2 t)

/-- A beam of this device is chosen (R250): its case and wait are recorded; a cut is made at once, a yield is ordered. -/
def Dev.takeLocal (d : Dev) (m : Dram) (i : Nat) (t : Takeover) (p : Nat) : Dev :=
  let cw := d.startCase p
  let noCut := d.view p F.HND_CTRL_NOCUT != 0
  let cs := if cw.1 == caseCut && noCut then caseFinish else cw.1
  let wait := if cw.1 == caseCut && noCut then d.runLeft m p + 1 else cw.2
  let d1 := (d.updTko i (fun t => { t with cover := some (.loc p cs wait), chose := d.tick })).raise 0x0601 0x04 1
    (pair8 (t.lead.getD 0xFF) (entryNo t.entry)) (pair8 0xFF p) (pair8 cs wait)
  if cw.1 == caseCut && noCut then
    (d1.setFlag F.HND_STAT_WAIT_EXC true).raise 0x0611 0x04 2 p wait (d.tileNo t.key)
  else if cs == caseCut then d1.cutPath m p
  else if cs == caseYield then d1.updRun p (fun r => { r with yield := true })
  else d1

/-- A cover is chosen for each takeover of a list, or its remainder is uncovered (R249, R256). One that loses its cover to another chooses
again (R254). -/
def Dev.chooseAll (m : Dram) : Nat → List Nat → Dev → Dev
  | 0, _, d => d
  | _, [], d => d
  | n + 1, i :: rest, d =>
    match tfind d.hnd.tko i with
    | none => Dev.chooseAll m n rest d
    | some t =>
      match d.pick m t with
      | none => Dev.chooseAll m n rest (d.uncover m i)
      | some c =>
        if d.coverHere t.key c then
          let lose := d.displaced i c.2
          let d1 := lose.foldl (fun d j => d.updTko j (fun t => { t with cover := none })) d
          Dev.chooseAll m n (rest ++ lose) (d1.takeLocal m i t c.2)
        else Dev.chooseAll m n rest (d.askRemote m i t c)

/-- A cover is chosen for takeover i, or its remainder is uncovered (R249, R256). A displacement passes a cover to a takeover that ranks
before the one that had it, so no more rounds come about than pairs of takeovers. -/
def Dev.choose (d : Dev) (m : Dram) (i : Nat) : Dev := Dev.chooseAll m (1 + d.hnd.tko.length * d.hnd.tko.length) [i] d

/-- The cover number of a takeover in events. -/
def coverNo : Option Cover → Nat
  | some (.loc p _ _) => pair8 0xFF p
  | some (.rem n p _) => pair8 n p
  | none => 0xFFFF

/-- A remainder moves to the next cover with its resume point unchanged (R255), if one remains. -/
def Dev.moveOn (d : Dev) (m : Dram) (i : Nat) (failed : Nat × Nat) : Dev :=
  match tfind d.hnd.tko i with
  | none => d
  | some t =>
    let d1 := (d.updTko i (fun t => { t with tried := failed :: t.tried, cover := none, started := false })).updPath t.key
      (fun q => { q with st := .takeover, resume := some t.rp })
    let d2 := d1.choose m i
    match (tfind d2.hnd.tko i).bind (·.cover) with
    | some c => d2.raise 0x0604 0x04 2 (t.lead.getD 0xFF) (pair8 failed.1 failed.2) (coverNo (some c))
    | none => d2

/-- A takeover begins (R247): of a path that has stopped at a resume point. -/
def Dev.beginTko (d : Dev) (m : Dram) (lead entry : Option Nat) (k : PKey) (rp : ResumePt) (covers : List (Nat × Nat)) : Dev :=
  let i := d.hnd.nextTko
  let t : Takeover := { lead := lead, entry := entry, key := k, rp := rp, detect := d.time, covers := covers, tried := [],
                        cover := none, started := false }
  (({ d with hnd := { d.hnd with tko := tput d.hnd.tko i t, nextTko := i + 1 } }).updPath k
    (fun q => { q with st := .takeover, resume := some rp })).choose m i

/-- The takeover of a path. -/
def Dev.tkoOf (d : Dev) (k : PKey) : Option Nat :=
  (d.hnd.tko.find? (fun (x : Nat × Takeover) => decide (x.2.key = k))).map (·.1)

/-- The takeover of a path ends with the path (R253): a remote cover is told to end its remainder. -/
def Dev.endTko (d : Dev) (k : PKey) (reason : Nat) : Dev :=
  match d.tkoOf k with
  | none => d
  | some i =>
    match (tfind d.hnd.tko i).bind (·.cover) with
    | some (.rem node _ xid) => ((d.dropTko i).send 0x16 node (leBytes 4 xid ++ leBytes 4 reason))
    | _ => d.dropTko i

/-! ## Starting (R247, R252) -/

/-- The approach of a run: T-ticks to its first laser-on transition, or to the end of what is planned. -/
def Run.approach (r : Run) : Nat :=
  match r.moves.find? (fun m => m.on) with
  | some m => snapF m.t0
  | none => snapF r.planT

/-- A start is recorded (R261, R271): counts, the entry's last cover and interval, HANDED_OFF, and the lead's passage to OUT. -/
def Dev.noteStart (d : Dev) (i node port : Nat) : Dev :=
  match tfind d.hnd.tko i with
  | none => d
  | some t =>
    let us := (elapsed64 d.time t.detect) / 1000
    let d1 := ((d.bump F.HND_TAKEOVERS_COUNT).put F.HND_INT_MAX_US (max (d.get F.HND_INT_MAX_US) us)).tileHandoff t.key
    let d2 := match t.entry with
      | none => d1
      | some e => ((((d1.put (F.HND_FTk_TAKE_NODE e) node).put (F.HND_FTk_TAKE_CPORT e) port).setFlag
          (F.HND_FTk_TAKE_CVALID e) true).put (F.HND_FTk_TAKE_INTERVAL e) (min us 65535)).setFlag
          (F.HND_FTk_INFO_COVERED e) true
    let d3 := if node == 0xFF then d2 else d2.entryBit t.entry F.HND_FTk_INFO_REMOTE
    (d3.updTko i (fun t => { t with started := true })).handingDone t.lead

/-- TAKEOVER_START (R247, R252): the cover produces the remainder's first tick point. -/
def Dev.takeoverStart (d : Dev) (m : Dram) (p : Nat) : Dev :=
  match d.tkoFor p with
  | none => d
  | some i =>
    match tfind d.hnd.tko i with
    | none => d
    | some t =>
      if (d.runOf p).isSome || !(d.inService p) || !(d.segReady m t.key t.rp.seg) then d
      else
        let d1 := (d.updPath t.key (fun q => { q with resume := some t.rp })).beginRun m p t.key true
        match d1.runOf p with
        | none => d1.dropTko i
        | some r =>
          let d2 := ((d1.setFlag (F.HND_Pn_STAT_TAKING p) true).bump (F.HND_Pn_TAKEN_COUNT p)).portBits p
          -- the start of a remainder that another device streams is its owner's to record
          let streamed : Bool := match t.key with
            | .inc x => (tfind d.hnd.inc x).any (fun h => !h.orphan)
            | .bed _ _ _ => false
          if streamed then (d2.updTko i (fun t => { t with started := true })).ftSweep
          else ((d2.noteStart i 0xFF p).raise 0x0602 0x04 1 (pair8 (t.lead.getD 0xFF) p)
              ((elapsed64 d.time t.detect) / 1000) r.approach).ftSweep

/-- The remainder on port p has reached its resume point (R247): its takeover is over. -/
def Dev.arrive (d : Dev) (p : Nat) : Dev :=
  match d.runOf p with
  | none => d
  | some r =>
    let d1 := d.updRun p (fun r => { r with arrived := true })
    match d1.tkoOf r.key with
    | some i => d1.dropTko i
    | none => d1

/-! ## Leaving service (R246, R255) -/

/-- The paths dealt to port p and not started return to the pool with their priority (R246). -/
def Dev.returnQueue (d : Dev) (p : Nat) : Dev :=
  (d.engOf p).queue.foldl (fun d k => d.updPath k (fun q => { q with st := if q.cls ≤ 3 then .pool q.cls else .fresh }))
    ((d.unfetch p (fun k => (d.engOf p).queue.contains k)).updEng p (fun e => { e with queue := [] }))

/-- A takeover that waits for port p moves on (R255, R259). -/
def Dev.coverGone (d : Dev) (m : Dram) (p : Nat) : Dev :=
  match d.tkoFor p with
  | some i => d.moveOn m i (0xFF, p)
  | none => d

/-- Covers listed as 0xFF or by this device's node number both name port p here; both count as tried. -/
def Dev.selfCover (d : Dev) (t : Takeover) (p : Nat) : Nat × Nat :=
  (t.covers.find? (fun c => d.coverHere t.key c && c.2 == p)).getD (0xFF, p)

/-- The path running on port p stops for a takeover (R247): the beam is blanked, its pairing and its standby copy end. -/
def Dev.stopRun (d : Dev) (p cause reason : Nat) : Dev :=
  match d.runOf p with
  | none => d
  | some r => (((d.blankPort p).pairEnd r.key cause).stbyEnd r.key reason).dropRun p

/-- The path that ran on port p passes to a cover, under entry e (R247, R255, R265). The truth value says that a takeover of the
beam's own work began. -/
def Dev.handPath (d : Dev) (m : Dram) (p : Nat) (e : Option Nat) (r : Run) (rp : ResumePt) : Dev × Bool :=
  let pending := if r.taking && !r.arrived then d.tkoOf r.key else none
  match pending with
  | some i =>
    let d1 := d.stopRun p 1 2
    match tfind d1.hnd.tko i with
    | some t => (d1.moveOn m i (d1.selfCover t p), false)
    | none => (d1, false)
  | none =>
    match r.key with
    | .inc x =>
      match tfind d.hnd.inc x with
      | some h =>
        if h.orphan then ((d.stopRun p 1 2).beginTko m (some p) e r.key rp h.covers, true)
        else ((((d.stopRun p 1 2).setStat r.key .ended).incDone x true rp.seg rp.cnt), false)
      | none => (d.stopRun p 1 2, false)
    | .bed _ _ _ =>
      if d.sys.ctrlSilent && d.hnd.stbyOut.any (fun (y : Nat × StbyOut) => decide (y.2.key = r.key)) then
        -- R269: with the bridge silent, a path with a standby copy is left to its standby node
        ((((d.blankPort p).pairEnd r.key 1).dropRun p |>.loseFrom m r.key rp.seg |>.tileHandoff r.key).pathEnded r.key, false)
      else
        -- the state is HANDING from the fault until the takeover's start (R257)
        ((d.stopRun p 1 2).beginTko m (some p) e r.key rp (d.coversFor r.key), true)

/-- The classes of faults that keep port p out (R264). -/
def Dev.addClass (d : Dev) (p cls : Nat) : Dev :=
  d.updPrt p (fun x => if x.classes.contains cls then x else { x with classes := x.classes ++ [cls] })

/-- Port p is retired for the rest of the bed (R257). -/
def Dev.retirePort (d : Dev) (p : Nat) : Dev :=
  let d1 := d.put (F.HND_Pn_STAT_STATE p) 3
  { d1 with hnd := { d1.hnd with retiredBed := tput d1.hnd.retiredBed p (d1.bar.cur.getD 0) } }

/-- A new fault on a beam that is HANDING (R257): it is added to the beam's entry, or written where the table took none before (R263), and the
beam is retired. -/
def Dev.handingFault (d : Dev) (p cls cause sev : Nat) (onset : Word) : Dev :=
  let w := d.ftWrite (some p) cls cause sev onset 0
  let d1 := match w.2 with
    | some k => (w.1.setFlag (F.HND_FTk_INFO_RETIRED k) true).ftRaise k 4
    | none => w.1
  (d1.retirePort p).raise 0x0607 0x04 4 p (entryNo w.2) (match w.2 with
    | some k => d1.get (F.HND_FTk_CAUSE_CAUSE k)
    | none => cause)

/-- A further cause in the T-tick of a fault of port p (R155): it joins the fault with the earlier onset tick, and a takeover on this device
that waits is resumed from the point confirmed by then (R140). -/
def Dev.faultJoin (d : Dev) (p cause sev : Nat) (onset : Word) : Dev :=
  let d1 := match d.entryOf p with
    | some k => d.ftJoin k cause sev onset
    | none => d
  match d1.hnd.tko.find? (fun (x : Nat × Takeover) => x.2.lead == some p && !x.2.started) with
  | none => d1
  | some (i, t) =>
    match t.cover, (d1.engOf p).hist.find? (fun h => h.ok && !h.appr && h.key == some t.key && !(later32 h.tick onset)) with
    | some (.loc _ _ _), some h =>
      let rp : ResumePt := ⟨h.seg, h.cnt, h.x, h.y, h.f, h.hold, t.rp.hit⟩
      let d2 := (d1.updTko i (fun t => { t with rp := rp })).updPath t.key (fun q => { q with resume := some rp })
      match d2.entryOf p with
      | some k => d2.put (F.HND_FTk_RESUME_SEG k) rp.seg
      | none => d2
    | _, _ => d1

/-- A fault on port p (R247, R257, R260): class, cause bits, severity and onset tick. It ends the pairing of the tiles that port p leads
(R109). A takeover that waits for port p was detected earlier than this fault and moves on first (R254). -/
def Dev.portFault (d : Dev) (m : Dram) (p cls cause sev : Nat) (onset : Word) : Dev :=
  let st := d.get (F.HND_Pn_STAT_STATE p)
  let same := st != 0 && (d.prtOf p).faultTick == some d.tick
  let d0 := (((d.blankPort p).addClass p cls).pairEndPort p 1).updPrt p (fun x => { x with faultTick := some d.tick })
  if same then d0.faultJoin p cause sev onset
  else if st == 1 then d0.handingFault p cls cause sev onset
  else if st != 0 then (d0.ftWrite (some p) cls cause sev onset 0).1
  else
    match d.runOf p with
    | none =>
      let d1 := ((d0.ftWrite (some p) cls cause sev onset 0).1).put (F.HND_Pn_STAT_STATE p) 2
      ((d1.returnQueue p).coverGone m p).portBits p
    | some r =>
      let rp := match d.path? r.key with
        | some path => d.resumeAt p r path onset
        | none => (d.engOf p).cutPoint r
      let w := d0.ftWrite (some p) cls cause sev onset rp.seg
      let d1 := ((w.1.put (F.HND_Pn_STAT_STATE p) 1).returnQueue p).coverGone m p
      let h := d1.handPath m p w.2 r rp
      ((if h.2 then h.1 else h.1.handingDone (some p)).ftSweep).portBits p

/-! ## Load shift (R258, R345) -/

/-- Port p's running path is handed off under a shed level at a resume point, if a cover can take it (R258): level 2 asks for one
that needs no cut. -/
def Dev.shedHand (d : Dev) (m : Dram) (p : Nat) (rp : ResumePt) : Dev :=
  match d.runOf p with
  | none => d
  | some r =>
    let t : Takeover := { lead := some p, entry := none, key := r.key, rp := rp, detect := d.time, covers := d.coversFor r.key,
                          tried := [], cover := none, started := false }
    let cs := d.candidates m t
    let ok := if d.get (F.HND_Pn_STAT_SHED p) == 2 then cs.any (d.quick r.key) else !cs.isEmpty
    let event := fun (d1 : Dev) =>
      let c := coverNo ((d1.tkoOf r.key).bind (fun i => (tfind d1.hnd.tko i).bind (·.cover)))
      (d1.raise 0x060E 0x04 1 p c (d.tileNo r.key)).portBits p
    if r.taking && !r.arrived then
      -- a remainder on its approach moves on with its resume point (R255)
      match d.tkoOf r.key with
      | some i => match tfind d.hnd.tko i with
        | some old =>
          let self := d.selfCover old p
          if (d.candidates m { old with tried := self :: old.tried }).isEmpty then d else event ((d.stopRun p 5 2).moveOn m i self)
        | none => d
      | none => d
    else if ok then event ((d.stopRun p 5 2).beginTko m (some p) none r.key rp t.covers)
    else d

/-- The shed level of port p is set (R258): a change is recorded; above 0 its unstarted paths return; at level 3 its running path is
handed off with the present T-tick as onset tick. -/
def Dev.setShed (d : Dev) (m : Dram) (p level : Nat) : Dev :=
  let old := d.get (F.HND_Pn_STAT_SHED p)
  if old == level then d
  else
    let d1 := (d.put (F.HND_Pn_STAT_SHED p) level).raise 0x060D 0x04 (if old < level then 2 else 1) p old level
    let d2 := (if level == 0 then d1 else d1.returnQueue p).updRun p (fun r => { r with shed := decide (2 ≤ level) })
    if level == 3 then
      match d2.runOf p with
      | none => d2
      | some r => match d2.path? r.key with
        | some path => d2.shedHand m p (d2.resumeAt p r path d2.tick)
        | none => d2
    else d2

/-! ## Return to service (R166, R264, R348) -/

/-- The condition of a class under which a port returns at a bed boundary (R264): LSR_OKn ready for 10 ms, the link UP, required
feedback re-entered, an ACTIVE pair, the latch released. -/
def Dev.classMet (d : Dev) (p cls : Nat) : Bool :=
  match cls with
  | 1 => (d.prtOf p).lsr && decide (10000000 ≤ elapsed64 d.time (d.prtOf p).lsrSince)
  | 2 => d.get (F.BEAMn_PSTAT_LINK p) == 4
  | 3 =>
    let l := d.sections false
    (!(meltRequired l p) || !(d.flag (F.LOOPn_STAT_MP_LOST p))) && (!(bref_required l p) || !(d.flag (F.LOOPn_STAT_SRC_LOST p)))
  | 4 => d.flag (F.BEAMn_PSTAT_ATTACHED p)
  | 5 => !(d.flag (F.THM_Pn_STAT_LATCH p))
  | _ => true

/-- Port p returns to service (R264), recording 0x0608, and 0x0315 where a laser source fault kept it out (R166). -/
def Dev.portReturn (d : Dev) (p : Nat) : Dev :=
  let laser := (d.prtOf p).classes.contains 1
  let d1 := (d.put (F.HND_Pn_STAT_STATE p) 0).updPrt p (fun x => { x with classes := [] })
  let d2 := d1.raise 0x0608 0x04 1 p (d.get (F.HND_Pn_STAT_STATE p)) (d.get F.BED_CUR_NO_BED_NO)
  let d3 := if laser then d2.raise 0x0315 (srcPort p) 1 p 0 0 else d2
  let d4 := { (d3.setFlag (F.THM_Pn_STAT_REENTRY p) false) with hnd := { d3.hnd with retiredBed := tdel d3.hnd.retiredBed p } }
  (d4.ftSweep).portBits p

/-- At a bed boundary every port that is OUT or RETIRED returns if its conditions are met; a RETIRED one otherwise passes to OUT. One for
whose failed pair no spare was left passes to DEAD and stays there (R170, R264). With the bridge silent none returns before the next full reset (R25). -/
def Dev.portsReturn (d : Dev) : Dev :=
  if d.sys.ctrlSilent || d.sys.edgeSilent then d
  else (upTo 32).foldl (fun d0 p =>
    let d := if (d0.prtOf p).corrHold then d0.updPrt p (fun x => { x with corrHold := false }) else d0
    let st := d.get (F.HND_Pn_STAT_STATE p)
    if st == 2 || st == 3 then
      if (d.prtOf p).dead then d.put (F.HND_Pn_STAT_STATE p) 4
      else if (d.prtOf p).classes.all (fun c => d.classMet p c) then d.portReturn p
      else if st == 3 then d.put (F.HND_Pn_STAT_STATE p) 2
      else d
    else d) d

end Sys2Proof.Machine
end

