-- ==== Sys2Proof/Machine/Rings.lean ====
section
/-! DEFINITION. What the device writes to DRAM by itself: record rings (12_memory.md R437), the end-of-row writes, telemetry
records (15_selftest_recorder.md R388, R389). -/

namespace Sys2Proof.Machine

/-- A write joins those that land at the end of the row (R330: the index that covers it is advanced in the same row). -/
def Dev.queueWr (d : Dev) (src addr : Nat) (data : List Byte) : Dev := { d with wq := d.wq ++ [⟨src, addr, data⟩] }

/-- The writes formed in this row land in order. -/
def State.flushWr (s : State) : State :=
  s.dev.wq.foldl (fun s w => (s.dramWrite w.src w.addr w.data).1) (s.onDev (fun d => { d with wq := [] }))

/-- The state with no write formed in a row waiting to land, as every row begins. -/
def State.settled (s : State) : State := { s with dev := { s.dev with wq := [] } }

/-- A row's effect on the device, followed by its writes to DRAM. -/
def State.runDev (s : State) (f : Dev → Dram → Dev) : State := State.flushWr (s.settled.onDev (fun d => f d s.mem))

/-- A record ring (R437): its base and size in units of 4 KB, its indices, the size of a record and the source code. -/
structure Ring where
  base : Fld
  size : Fld
  wr : Fld
  rd : Fld
  bytes : Nat
  src : Nat

/-- Records that a ring holds, N. -/
def Dev.ringLen (d : Dev) (r : Ring) : Nat := d.get r.size * 4096 / r.bytes

/-- A ring of length 0 keeps no records. -/
def Dev.ringKept (d : Dev) (r : Ring) : Bool := decide (0 < d.ringLen r)

/-- The ring is full (R437). -/
def Dev.ringFull (d : Dev) (r : Ring) : Bool := (d.get r.wr + 1) % d.ringLen r == d.get r.rd

/-- A record is written (R437): into a full ring after the oldest unread one is discarded. The truth value says that one was
discarded. -/
def Dev.ringPut (d : Dev) (r : Ring) (data : List Byte) : Dev × Bool :=
  if d.ringKept r then
    let n := d.ringLen r
    let full := d.ringFull r
    let d1 := if full then d.put r.rd ((d.get r.rd + 1) % n) else d
    ((d1.queueWr r.src (d.get r.base * 4096 + d.get r.wr * r.bytes) data).put r.wr ((d.get r.wr + 1) % n), full)
  else (d, false)

/-! ## Telemetry (R388, R389) -/

/-- The telemetry ring. -/
def telRing : Ring := ⟨F.TEL_BASE_BASE, F.TEL_SIZE_SIZE, F.TEL_WR_INDEX, F.TEL_RD_INDEX, 64, 0x59⟩

/-- A telemetry record (R389): type, port and bytes 16 to 59. -/
def Dev.telRecord (d : Dev) (type port : Nat) (body : List Byte) : Dev :=
  if d.flag F.TEL_CTRL_EN then
    let b := leBytes 8 d.time.toNat ++ leBytes 1 type ++ leBytes 1 port ++ leBytes 2 0 ++ leBytes 4 d.tel.seq.toNat ++ body
    let w := ({ d with tel := { d.tel with seq := d.tel.seq + 1 } }).ringPut telRing (b ++ leBytes 4 (crc32c b).toNat)
    if w.2 then (w.1.setFlag F.TEL_STAT_LOST true).bump F.TEL_LOST_COUNT else w.1
  else d

/-- Energy in J of summed power words of a port: a fraction of 0xFFFF times the rated power times 250 ns, rounded once (R114). -/
def Dev.joules (d : Dev) (p words : Nat) : Frac :=
  fracMul (fracMul (frac words 65535) (fracOfF32 (ratedOf (d.sections false) p))) (frac 1 4000000)

/-- The TILE record of port p for the tile its engine leaves, where it exposed any part of that tile (R388, R389). -/
def Dev.telTile (d : Dev) (p : Nat) : Dev :=
  let e := d.engOf p
  match d.background, e.tile with
  | false, _ => d
  | _, none => d
  | _, some (n, t) => if e.wins.all (· == 0) then d else
    let no := match d.bed? n with
      | some b => b.bedNo.toNat
      | none => 0
    d.telRecord 2 p (leBytes 2 t ++ leBytes 2 0 ++ leBytes 4 no ++ leBytes 4 (d.get (F.BEAMn_FE_MAX_X_FE p)) ++
      leBytes 4 (d.get (F.BEAMn_FE_MAX_Y_FE p)) ++ leBytes 4 (f32OfFr (d.joules p e.pwr)).toNat ++
      e.wins.flatMap (leBytes 4) ++ leBytes 4 0)

/-- The engine of port p passes a tile boundary (R137, R388): the record of the tile it exposed, then the largest following errors and
the sums begin again. -/
def Dev.tileBoundary (d : Dev) (p : Nat) (next : Option (Nat × Nat)) : Dev :=
  (((d.telTile p).put (F.BEAMn_FE_MAX_X_FE p) 0).put (F.BEAMn_FE_MAX_Y_FE p) 0).updEng p
    (fun e => { e with tile := next, wins := [0, 0, 0, 0, 0], pwr := 0 })

end Sys2Proof.Machine
end

