-- ==== Sys2Proof/Machine/Pairs.lean ====
section
/-! DEFINITION. The String Fabric (06_beam_ports.md R168 to R170): pair failures, spares and attach checks. -/

namespace Sys2Proof.Machine

/-- A block that has just started (R197): integrator 0, no loss. -/
def chRun0 : ChRun := { missing := 0, missOnset := 0, frozen := 0, frozenOnset := 0, sat := 0, satOnset := 0, code := none }

/-- A feedback block that has just started. -/
def block0 : LoopBlock :=
  { i := 0, p := 0, e := 0, c0 := 0, lost := false, ramp := none, valid := 0, a := chRun0, b := chRun0, x := 0, inSel := false,
    bank := none }

/-- A loop engine that has done nothing: gains 0.0, energy map and feed-forward points 1.0 (R203), which empty tables stand for. -/
def loop0 : LoopEng :=
  { melt := block0, src := block0, mon := none, u := 0, emit := false, u1 := 0, emit1 := false, s := 0, gateRun := 0, trip := 0,
    tripOnset := 0, yy := none, yyLive := false, cap := .idle, tab := [], pend := none, ff := [], loop := [] }

/-- The loop engine of port p. -/
def Dev.loopOfPort (d : Dev) (p : Nat) : LoopEng := tget loop0 d.loops p

/-- The state with the loop engine of port p changed. -/
def Dev.updLoop (d : Dev) (p : Nat) (f : LoopEng → LoopEng) : Dev := { d with loops := tput d.loops p (f (d.loopOfPort p)) }

/-- A block starts with integrator 0; its loss state is not changed (R196, R197). An input that is not finite is not kept. -/
def LoopBlock.start (b : LoopBlock) : LoopBlock :=
  { b with i := 0, p := 0, e := 0, inSel := false, bank := none, prevBank := none, off := false, x := if f32Finite b.x then b.x else 0 }

/-- The blocks of a loop engine start, and its MONITOR (R197). -/
def LoopEng.start (l : LoopEng) : LoopEng := { l with melt := l.melt.start, src := l.src.start, mon := none }

/-- ENG_SPARES follows the pairs. -/
def Dev.countSpares (d : Dev) : Dev :=
  d.put F.ENG_SPARES_COUNT ((upTo 36).filter (fun k => d.get (F.ENG_PAIRk_STATE k) == 2)).length

/-- CAUSE of ENG_PAIRk (R172) and cause bit of the fault entry (R272). A failed slice of a pair counts as a failed self-check. -/
def pairCodes : PairCause → Nat × Nat
  | .selfCheck => (1, 2 ^ 7) | .loopNan _ => (2, 2 ^ 8) | .sram => (3, 2 ^ 9) | .slice => (5, 2 ^ 7)

/-- A port for which no spare is left is retired, and stays out of service until the next full reset (R170). -/
def Dev.noSpare (d : Dev) (p : Nat) : Dev :=
  let d1 := match d.entryOf p with
    | some e => (d.setFlag (F.HND_FTk_INFO_RETIRED e) true).ftRaise e 4
    | none => d
  (((d1.retirePort p).updPrt p (fun x => { x with dead := true })).raise 0x0318 (srcPort p) 4 p 0 0).portBits p

/-- The pairs routed to ports in this T-tick whose attach check still runs. -/
def Dev.routedNow (d : Dev) : List (Nat × Nat) :=
  if d.hnd.routeTick == d.tick then
    ((upTo 36).filter (fun k => d.get (F.ENG_PAIRk_STATE k) == 3 && d.hnd.routed.contains k)).map (fun k => (k, d.get (F.ENG_PAIRk_PORT k)))
  else []

/-- Port p asks for a spare (R170): the ports that lost their pairs in this T-tick share the pairs routed in it and the SPARE ones, both in
ascending order; each pair so routed begins its attach check, and a port that gets none is retired. -/
def Dev.routeSpare (d : Dev) (p : Nat) : Dev :=
  let now := d.routedNow
  let ports := (upTo 32).filter (fun q => q == p || now.any (fun x => x.2 == q))
  let pairs := (upTo 36).filter (fun k => d.get (F.ENG_PAIRk_STATE k) == 2 || now.any (fun x => x.1 == k))
  let d1 := (pairs.zip ports).foldl (fun d (x : Nat × Nat) =>
    (d.put (F.ENG_PAIRk_STATE x.1) 3).put (F.ENG_PAIRk_PORT x.1) x.2) d
  let d2 := { d1 with hnd := { d1.hnd with routed := pairs.take ports.length, routeTick := d.tick } }
  (ports.drop pairs.length).foldl (fun d q => d.noSpare q) d2.countSpares

/-- A numeric fault of the ACTIVE pair k of port p (R175): the beam is blanked, the fault counted, and 0x0404 names port and descriptor. -/
def Dev.nanNote (d : Dev) (k p : Nat) (cause : PairCause) : Dev :=
  match cause with
  | .loopNan i => ((d.blankPort p).bump F.LOOP_NANS_COUNT).raise 0x0404 (srcPort p) 4 (pair8 p i.val) k d.tick.toNat
  | _ => d

/-- Pair k fails (R170): it is FAILED; the path of the port it drives is handed off, and a spare is routed to the port. -/
def Dev.pairFail (d0 : Dev) (m : Dram) (k : Nat) (cause : PairCause) : Dev :=
  let st := d0.get (F.ENG_PAIRk_STATE k)
  let p := d0.get (F.ENG_PAIRk_PORT k)
  let d := if st == 1 then d0.nanNote k p cause else d0
  let bad := ((d.put (F.ENG_PAIRk_STATE k) 4).put (F.ENG_PAIRk_CAUSE k) (pairCodes cause).1).countSpares
  if st == 1 then
    let d1 := ((bad.setFlag (F.BEAMn_PSTAT_ATTACHED p) false).put (F.BEAMn_PAIR_PAIR p) 0x3F).raise 0x0316 (0x60 + k) 4 k p
      (pairCodes cause).1
    ((d1.portFault m p 4 (pairCodes cause).2 3 d.tick).updEng p (fun e => { e with pre := [] })).routeSpare p
  else if st == 2 then bad.raise 0x0316 (0x60 + k) 4 k 0xFF (pairCodes cause).1
  else if st == 3 then (bad.raise 0x0316 (0x60 + k) 4 k p (pairCodes cause).1).routeSpare p
  else d

/-- PAIR_FAILURE (R170). -/
def execPairFailure (k : Pair) (cause : PairCause) (s : State) : Host.Outcome State Fault Refusal :=
  .next (s.runDev (fun d m => d.pairFail m k.val cause))

/-- An attach check ends (R170): the pair becomes ACTIVE on its port, which returns to service at once if nothing else keeps it
out (R135, R264); or it is FAILED and the next spare is tried. -/
def Dev.attachDone (d : Dev) (k : Nat) (ok : Bool) : Dev :=
  if d.get (F.ENG_PAIRk_STATE k) != 3 then d
  else
    let p := d.get (F.ENG_PAIRk_PORT k)
    if ok then
      let d1 := ((((d.put (F.ENG_PAIRk_STATE k) 1).put (F.BEAMn_PAIR_PAIR p) k).setFlag (F.BEAMn_PSTAT_ATTACHED p) true).bump
        F.ENG_ATTACHES_COUNT).raise 0x0317 (0x60 + k) 1 k p 0
      let d2 := (d1.updLoop p LoopEng.start).updPrt p
        (fun x => { x with classes := x.classes.filter (· != 4) })
      if d2.get (F.HND_Pn_STAT_STATE p) == 2 && (d2.prtOf p).classes.isEmpty && !(d2.prtOf p).corrHold then d2.portReturn p else d2.portBits p
    else
      let d1 := ((d.put (F.ENG_PAIRk_STATE k) 4).put (F.ENG_PAIRk_CAUSE k) 4).raise 0x0316 (0x60 + k) 4 k p 4
      let d2 := match d1.entryOf p with
        | some e => d1.ftAdd e (2 ^ 10) 3
        | none => d1
      d2.routeSpare p

/-- ATTACH_CHECK_DONE (R170). -/
def execAttachCheckDone (k : Pair) (ok : Bool) (s : State) : Host.Outcome State Fault Refusal :=
  .next (s.onDev (fun d => d.attachDone k.val ok))

end Sys2Proof.Machine
end

