-- ==== Sys2Proof/Machine/Sense.lean ====
section
/-! DEFINITION. Photodiode values (08_sensing_calibration.md R210 to R213), slews of calibrated values (R217, R218, R229), and the end
of an observation (R28, R229). -/

namespace Sys2Proof.Machine

/-! ## Photodiode values -/

/-- The value of a channel in a P-tick: decimated code, normalised value, flags; `held` while a slice keeps the channel's values from
the loops (R368). -/
structure PdVal where
  code : Nat
  x : Word
  sat : Bool
  missing : Bool
  held : Bool
  deriving DecidableEq, Repr

/-- The decimated code (R211): the mean of two samples, ties to even. -/
def pdCode (a b : Nat) : Nat :=
  let h := (a + b) / 2
  if (a + b) % 2 == 0 then h else if h % 2 == 0 then h else h + 1

/-- The range whose power-up values channel c uses: RANGE, but for a channel that takes BREF, on which RANGE has no effect (R210); that one
uses those of range 0 (the model's choice, log entry 135). -/
def Dev.rangeOf (d : Dev) (c : Nat) : Nat := if pdRole (d.sections false) c == 3 then 0 else d.get (F.SNS_CHc_CFG_RANGE c)

/-- The normalised value (R212), in the order written there. -/
def Dev.pdNorm (d : Dev) (c code : Nat) : Word :=
  f32Mul (f32Mul (f32Mul (f32Sub (f32OfInt code) (f32OfFrac (d.get (F.SNS_CHc_OFS_OFS c)) 16)) (d.getW (F.SNS_CHc_GCAL_VAL c)))
    (d.getW (F.SNS_CHc_K_VAL c))) (d.getW (F.SNS_CHc_TRIM_VAL c))

/-- The value of channel c in a P-tick (R211): missing where the row does not list the channel, or where a discarded flit carried its
samples (R25). -/
def Dev.pdVal (d : Dev) (l : List PdSample) (c : Nat) : PdVal :=
  let held := match d.bist.ana with
    | some (.pd k) => k.val == c
    | _ => false
  match l.find? (fun s => s.chan.val == c) with
  | none => ⟨0, 0, false, true, held⟩
  | some s =>
    if s.missing || d.sys.lost.contains c then ⟨0, 0, false, true, held⟩
    else
      let a := s.a.toNat
      let b := s.b.toNat
      let code := pdCode a b
      ⟨code, d.pdNorm c code, a == 0 || a == 65535 || b == 0 || b == 65535 || s.ovl, false, held⟩

/-- The flags and the raw code of a channel follow its value (R238). -/
def Dev.pdNote (d : Dev) (c : Nat) (v : PdVal) : Dev :=
  if v.held then d
  else if v.missing then d.setFlag (F.SNS_CHc_STAT_MISS c) true
  else
    let d1 := d.put (F.SNS_CHc_RAW_CODE c) v.code
    if v.sat then d1.setFlag (F.SNS_CHc_STAT_SAT c) true else d1

/-- The two-colour quantity of port n (R213). -/
def Dev.twoColour (d : Dev) (n : Nat) (v1 v2 : PdVal) : PdVal :=
  let fl := d.getW (F.SNS_Pn_C2FLOOR_VAL n)
  let x := if f32Le fl v2.x then
      f32Add (f32Div (f32Mul (d.getW (F.SNS_Pn_C2A_VAL n)) v1.x) v2.x) (d.getW (F.SNS_Pn_C2B_VAL n))
    else f32Zero false
  ⟨v1.code, x, v1.sat || v2.sat, v1.missing || v2.missing, v1.held || v2.held⟩

/-! ## Slews (R217) -/

/-- T-ticks of a slew. -/
def slewTicks : Nat := 4096

/-- The values of a slew at a T-tick: linear from old to new. -/
def Slew.at_ (s : Slew) (tick : Word) : List Frac :=
  let t := min slewTicks (elapsed32 tick s.start)
  (s.old.zip s.new).map (fun (x : Frac × Frac) => fracAdd x.1 (fracMul (fracSub x.2 x.1) (frac t slewTicks)))

/-- The live value that a slew moves, and the state with it set. -/
def Dev.slewPut (d : Dev) (k : SlewKind) (v : List Frac) : Dev :=
  let x := v.headD (fracI 0)
  match k with
  | .ofs c => d.put (F.SNS_CHc_OFS_OFS c) (fracRne x).toNat
  | .gcal c => d.put (F.SNS_CHc_GCAL_VAL c) (f32OfFr x).toNat
  | .trim c => d.put (F.SNS_CHc_TRIM_VAL c) (f32OfFr x).toNat
  | .dac p => { d with sns := { d.sns with dacTab := tput d.sns.dacTab p (v.map fracRne) } }
  | .skew p => d.putI (F.BEAMn_SKEW_SKEW p) (fracRne x)
  | .temp t => { d with sns := { d.sns with tempFix := tput d.sns.tempFix t (fracRne x) } }

/-- The 17 points of a straight DAC table (R216), in 1/65,536 of full scale: the code nominal for each point of R215. -/
def dacStraight : List Int := (upTo 17).map (fun i => if i == 16 then (65535 : Int) else (4096 * i : Nat))

/-- The live value that a slew would move. -/
def Dev.slewGet (d : Dev) (k : SlewKind) : List Frac :=
  match k with
  | .ofs c => [fracI (d.get (F.SNS_CHc_OFS_OFS c))]
  | .gcal c => [fracOfF32 (d.getW (F.SNS_CHc_GCAL_VAL c))]
  | .trim c => [fracOfF32 (d.getW (F.SNS_CHc_TRIM_VAL c))]
  | .dac p => (tget dacStraight d.sns.dacTab p).map fracI
  | .skew p => [fracI (d.getI (F.BEAMn_SKEW_SKEW p))]
  | .temp t => [fracI (tget 0 d.sns.tempFix t)]

/-- The slewing bits of a channel follow the slews (R238). -/
def Dev.slewBits (d : Dev) (k : SlewKind) : Dev :=
  match k with
  | .ofs c => d.setFlag (F.SNS_CHc_STAT_OFS_SLEW c) (d.sns.slews.any (fun s => decide (s.kind = .ofs c)))
  | .gcal c => d.setFlag (F.SNS_CHc_STAT_GAIN_SLEW c) (d.sns.slews.any (fun s => decide (s.kind = .gcal c) || decide (s.kind = .trim c)))
  | .trim c => d.setFlag (F.SNS_CHc_STAT_GAIN_SLEW c) (d.sns.slews.any (fun s => decide (s.kind = .gcal c) || decide (s.kind = .trim c)))
  | _ => d

/-- A value is slewed from its present to its new value over 4,096 T-ticks (R217). -/
def Dev.slewTo (d : Dev) (k : SlewKind) (new : List Frac) : Dev :=
  ({ d with sns := { d.sns with
      slews := d.sns.slews.filter (fun (s : Slew) => decide (s.kind ≠ k)) ++ [Slew.mk k (d.slewGet k) new d.tick] } }).slewBits k

/-- One step of a slew in a T-tick. BEAMn_SKEW moves one step of 0.5 ns at a time, when due and with the gate closed (R217). -/
def Dev.slewStep (d : Dev) (s : Slew) : Dev :=
  match s.kind with
  | .skew p =>
    let due := fracFloor ((s.at_ d.tick).headD (fracI 0))
    let up := fracLt (s.old.headD (fracI 0)) (s.new.headD (fracI 0))
    let want := if up then due else fracCeil ((s.at_ d.tick).headD (fracI 0))
    let now := d.getI (F.BEAMn_SKEW_SKEW p)
    if (d.prtOf p).gate || want == now then d
    else d.putI (F.BEAMn_SKEW_SKEW p) (if now < want then now + 1 else now - 1)
  | k => d.slewPut k (s.at_ d.tick)

/-- Every slew advances in a T-tick. -/
def Dev.slewAll (d : Dev) : Dev := d.sns.slews.foldl (fun d s => d.slewStep s) d

/-- A slew has reached its new value. -/
def Dev.slewDue (d : Dev) (s : Slew) : Bool :=
  decide (slewTicks ≤ elapsed32 d.tick s.start) && (match s.kind with
    | .skew p => fracI (d.getI (F.BEAMn_SKEW_SKEW p)) == s.new.headD (fracI 0)
    | _ => true)

/-- The slews that belong to a calibration item. -/
def slewKinds : CalItem → List SlewKind
  | .pdOffset c _ => [.ofs c.val]
  | .pdGain c _ => [.gcal c.val, .trim c.val]
  | .dacLin p => [.dac p.val]
  | .tempFe t => [.temp t.val]
  | .strLat _ => []
  | .skew p => [.skew p.val]

/-- SLEW_DONE (R217): the slews of an item that are due end at their new value. -/
def Dev.slewDone (d : Dev) (i : CalItem) : Dev :=
  let due := d.sns.slews.filter (fun s => (slewKinds i).contains s.kind && d.slewDue s)
  due.foldl (fun d s =>
    (({ d with sns := { d.sns with slews := d.sns.slews.filter (fun t => decide (t.kind ≠ s.kind)) } }).slewPut s.kind s.new).slewBits
      s.kind) d

/-- SLEW_DONE (R217). -/
def execSlewDone (item : CalItem) (s : State) : Host.Outcome State Fault Refusal := .next (s.onDev (fun d => d.slewDone item))

/-- The DAC code of a power word (R218): linear between the 17 points of the port's table. -/
def Dev.dacCode (d : Dev) (p pwr : Nat) : Nat :=
  let tab := tget dacStraight d.sns.dacTab p
  let i := min 15 (pwr / 4096)
  let x0 := 4096 * i
  let x1 := if i == 15 then 65535 else 4096 * (i + 1)
  let y0 := tab.getD i 0
  let y1 := tab.getD (i + 1) 0
  (clampI 0 65535 (fracRne (fracAdd (fracI y0) (frac ((y1 - y0) * ((pwr : Int) - x0)) (x1 - x0))))).toNat

/-! ## Observations end (R28, R229) -/

/-- An observation of port p ends without result; the port then waits for a stroke again. -/
def Dev.spotStop (d : Dev) (p : Nat) : Dev :=
  match tfind d.sns.obs p with
  | none => d
  | some _ => ({ d with sns := { d.sns with obs := tdel d.sns.obs p } }).put (F.SNS_Pn_SPOT_STATE p) 1

/-- The observations that watch port p as their parent end (R229). -/
def Dev.spotStopOf (d : Dev) (p : Nat) : Dev :=
  (d.sns.obs.filter (fun (x : Nat × SpotObs) => x.2.parent == p)).foldl (fun d x => d.spotStop x.1) d

end Sys2Proof.Machine
end

