-- ==== Sys2Proof/Machine/Loops.lean ====
section
/-! DEFINITION. The evaluation of a loop engine in one P-tick (07_power_loops.md R173 to R198, R204 to R206): feedback loss,
modified schedule, feedback blocks, min-select and integrators. -/

namespace Sys2Proof.Machine

/-! ## Small pieces -/

/-- min(1, max(0, x)). -/
def unit01 (x : Word) : Word := f32Clamp (f32Zero false) f32One x

/-- The lesser of two values; a NaN comes through. -/
def f32Min (a b : Word) : Word := if f32IsNaN a then a else if f32Lt a b then a else b

/-- The greater of two values; a NaN comes through. -/
def f32Max (a b : Word) : Word := if f32IsNaN a then a else if f32Lt a b then b else a

/-- min(hi, max(lo, x)). -/
def clampTo (lo hi x : Word) : Word := f32Min (f32Max x lo) hi

/-- Constant of a descriptor at byte 4 + o. -/
def LoopDesc.c32 (x : LoopDesc) (o : Nat) : Word := f32At x.consts o

/-- 16-bit constant of a descriptor. -/
def LoopDesc.c16 (x : LoopDesc) (o : Nat) : Nat := leAt x.consts o 2

/-- The non-empty descriptors of the payload in use. -/
def LoopEng.descs (l : LoopEng) : List LoopDesc := ((upTo 8).map (loopDesc l.loop)).filter (fun x => x.type != 0)

/-- The descriptor of a type, if the payload has one (R178: at most one). -/
def LoopEng.ofType (l : LoopEng) (t : Nat) : Option LoopDesc := l.descs.find? (fun x => x.type == t)

/-- Gain g of descriptor x in a bank (R201); every gain is 0.0 while no table is live (R203). -/
def LoopEng.gain (l : LoopEng) (bank : Nat) (x : LoopDesc) (g : Nat) : Word := f32At l.tab (256 * bank + 32 * x.ix + 4 * g)

/-- Node (i, j) of the energy map; 1.0 while no table is live (R203). -/
def LoopEng.emap (l : LoopEng) (j i : Nat) : Word := if l.tab.isEmpty then f32One else f32At l.tab (4096 + 4 * (33 * j + i))

/-- Point k of feed-forward map f; 1.0 while no maps are live (R203). -/
def LoopEng.ffPoint (l : LoopEng) (f k : Nat) : Word := if l.ff.isEmpty then f32One else f32At l.ff (256 * f + 4 * k)

/-- A feed-forward map at ρ (R182): linear between its 64 points. -/
def LoopEng.ffAt (l : LoopEng) (f : Nat) (rho : Word) : Word :=
  let r := f32Mul rho (f32OfInt 63)
  let k := min 63 (f32Floor r).toNat
  if 63 ≤ k then l.ffPoint f 63
  else
    let t := f32Sub r (f32OfInt k)
    f32Add (l.ffPoint f k) (f32Mul (f32Sub (l.ffPoint f (k + 1)) (l.ffPoint f k)) t)

/-! ## Feedback loss (R192) -/

/-- The runs of a channel after one more P-tick. A P-tick that does not emit leaves the frozen run as it is; a missing value ends it. -/
def ChRun.step (r : ChRun) (v : PdVal) (emit : Bool) (tick : Word) : ChRun :=
  let sat := v.sat || v.code == 0 || v.code == 65535
  let m : ChRun := if v.missing then
      { r with missing := r.missing + 1, missOnset := if r.missing == 0 then tick else r.missOnset, sat := 0 }
    else { r with missing := 0, sat := if sat then r.sat + 1 else 0, satOnset := if r.sat == 0 then tick else r.satOnset }
  if v.missing then { m with frozen := 0, code := none }
  else if !emit then m
  else if m.code == some v.code then { m with frozen := m.frozen + 1 }
  else { m with frozen := 1, frozenOnset := tick, code := some v.code }

/-- The cause and onset of R192 that a channel's runs give. -/
def ChRun.cause (r : ChRun) : Option (Nat × Word) :=
  if 3 ≤ r.missing then some (1, r.missOnset)
  else if 64 ≤ r.frozen then some (2, r.frozenOnset)
  else if 64 ≤ r.sat then some (3, r.satOnset)
  else none

/-- What a P-tick brings to a port's loop engine (R177): T-tick, whether it emits, the segment's values if there are any, velocity,
p₂'s energy-map coordinates, rated power, channel values with the two-colour quantity, MP_OFF, and the Yo-yo value with its point. -/
structure PCtx where
  tick : Word
  emit : Bool
  q : Option PwrQ
  v : Word
  eu : Frac
  ev : Frac
  rated : Word
  v1 : PdVal
  v2 : PdVal
  vc : PdVal
  mpOff : Bool
  yyPoint : Nat
  yy : Word

/-- The value behind an input selector (R179). -/
def PCtx.input (c : PCtx) (sel : Nat) : PdVal := if sel == 1 then c.v1 else if sel == 2 then c.v2 else c.vc

/-- The runs that a selector judges: one channel, or both for input 0x03 (R192). -/
def LoopBlock.judged (b : LoopBlock) (sel : Nat) : List ChRun := if sel == 1 then [b.a] else if sel == 2 then [b.b] else [b.a, b.b]

/-- The plausible band of a block and its delay (R192). −0.10 and +4.00 in binary32. -/
def bandOf (x : LoopDesc) : Word × Word × Nat :=
  if x.type == 2 then (x.c32 0, x.c32 4, x.c16 8) else (0xBDCCCCCD#32, 0x40800000#32, 0)

/-- The sample of this P-tick lies outside the band where R192 applies it: `run` is the number of emitting P-ticks before this one
in the open gate. -/
def outOfBand (x : LoopDesc) (v : PdVal) (emit : Bool) (run : Nat) : Bool :=
  let b := bandOf x
  emit && !v.missing && decide (b.2.2 ≤ run) && !(f32Le b.1 v.x && f32Le v.x b.2.1)

/-- A block's runs and loss after this P-tick (R192, R195): the cause and onset if the loss is declared in it. -/
def LoopBlock.judge (b : LoopBlock) (x : LoopDesc) (c : PCtx) (run : Nat) : LoopBlock × Option (Nat × Word) :=
  let v := c.input x.sel
  if v.held then (b, none)
  else
    let b1 : LoopBlock := { b with a := b.a.step c.v1 c.emit c.tick, b := b.b.step c.v2 c.emit c.tick }
    let out := outOfBand x v c.emit run
    if b.lost then
      let moved := (b.judged x.sel).zip (b1.judged x.sel) |>.all (fun (y : ChRun × ChRun) => y.1.code != y.2.code)
      let ok := !v.missing && !v.sat && !out && (!c.emit || moved)
      ({ b1 with valid := if ok then b.valid + 1 else 0 }, none)
    else
      match (b1.judged x.sel).findSome? ChRun.cause with
      | some k => ({ b1 with lost := true, valid := 0, c0 := f32Add b.p b.i }, some k)
      | none => if out then ({ b1 with lost := true, valid := 0, c0 := f32Add b.p b.i }, some (4, c.tick)) else (b1, none)

/-! ## The modified schedule (R181 to R183) -/

/-- The factor of a modifier descriptor. -/
def LoopEng.factor (l : LoopEng) (c : PCtx) (q : PwrQ) (x : LoopDesc) : Word :=
  if x.type == 6 then
    if q.set.ffMap == 0xFFFF then f32One else l.ffAt q.set.ffMap (f32Min f32One (f32Div c.v q.vlim))
  else (bilerp l.emap 32 c.eu c.ev).getD f32One

/-- The factors of the modifiers in descriptor order. -/
def LoopEng.factors (l : LoopEng) (c : PCtx) (q : PwrQ) : List (Nat × Word) :=
  (l.descs.filter (fun x => x.type == 6 || x.type == 7)).map (fun x => (x.ix, l.factor c q x))

/-- The Yo-yo value added at a point. -/
def PCtx.yyAt (c : PCtx) (point : Nat) : Word := if c.emit && c.yyPoint == point then c.yy else f32Zero false

/-- s (R181). -/
def schedS (c : PCtx) (q : PwrQ) (fs : List (Nat × Word)) : Word :=
  let s0 := f32Min f32One (f32Div (f32Div (f32Mul q.set.power (f32OfInt q.pwr)) (f32OfInt 128)) c.rated)
  let s1 := fs.foldl (fun s f => f32Mul s f.2) s0
  unit01 (f32Add s1 (c.yyAt 0))

/-! ## The feedback blocks (R185, R186, R195, R198) -/

/-- A block's setpoint. -/
def setpointOf (x : LoopDesc) (c : PCtx) (q : PwrQ) : Word :=
  if x.type == 2 then f32Add q.set.mpSet (c.yyAt 1) else f32Add (x.c32 0) (c.yyAt 2)

/-- A block that is declared lost does not read its input (R193) until the P-tick that makes its 256th valid one (R195). -/
def LoopBlock.blind (b : LoopBlock) : Bool := b.lost && decide (b.valid < 256)

/-- The input x of a block (R185): that of the present P-tick, or the last valid one where the sample is missing or held; emitting or not
(R176). -/
def LoopBlock.read (b : LoopBlock) (x : LoopDesc) (c : PCtx) : LoopBlock :=
  let v := c.input x.sel
  if v.missing || v.held then b else { b with x := v.x }

/-- MP_LOOP is clear or MP_OFF is 1 (R186), as far as this P-tick tells: one without a segment's values tells of MP_OFF alone. -/
def PCtx.meltOff (c : PCtx) : Bool := c.mpOff || (match c.q with
  | some q => !q.set.mpLoop
  | none => false)

/-- A block's place in min-select in a P-tick (R186). In a P-tick without a segment's values a MELT block is where it was. -/
def LoopBlock.sel (b : LoopBlock) (x : LoopDesc) (c : PCtx) : Bool :=
  x.role == 0 && !b.lost && (x.type == 4 || (!c.meltOff && (c.q.isSome || b.inSel)))

/-- The integrator that the proportional step of a change of gain banks between consecutive P-ticks leaves (R198). -/
def LoopBlock.rebank (b : LoopBlock) (l : LoopEng) (x : LoopDesc) (bank : Nat) (e : Word) : Word :=
  match b.prevBank with
  | some old => if old == bank then b.i
    else clampTo (l.gain bank x 2) (l.gain bank x 3) (f32Add b.i (f32Mul (f32Sub (l.gain old x 0) (l.gain bank x 0)) e))
  | none => b.i

/-- A block formed in a P-tick (R185): x, e and p, its gain bank (R198), and its place in min-select (R186). `uPrev` is the power of the
P-tick before, if that emitted: a MELT block that rejoins min-select takes it (R198). No integrator changes in a P-tick that does not
emit (R176). e and p keep their values in a P-tick without a segment's values, which name set and bank (the model's choice, log
entry 130). -/
def LoopBlock.form (b0 : LoopBlock) (l : LoopEng) (x : LoopDesc) (c : PCtx) (s : Word) (uPrev : Option Word) : LoopBlock :=
  if b0.blind then { b0 with inSel := false, prevBank := none }
  else
    let b := b0.read x c
    let on := b.sel x c
    match c.q with
    | none => { b with inSel := on, prevBank := none, off := b.off || (x.type == 2 && c.meltOff) }
    | some q =>
      let bank := q.set.gainBank
      let g := l.gain bank x
      let e := f32Sub (setpointOf x c q) b.x
      let p := f32Mul (g 0) e
      let back := c.emit && x.type == 2 && on && b.off
      let i := if !c.emit || b.lost then b.i
        else if back then (match uPrev with
          | some u => clampTo (g 2) (g 3) (f32Sub (f32Sub u s) p)
          | none => f32Zero false)
        else b.rebank l x bank e
      { b with e := e, p := p, i := i, bank := some bank, prevBank := some bank, inSel := on,
               off := !back && (b.off || (x.type == 2 && c.meltOff)) }

/-- The candidate of a block in closed loop (R185). -/
def LoopBlock.cand (b : LoopBlock) (s : Word) : Word := unit01 (f32Add (f32Add s b.p) b.i)

/-- The ramp candidate (R194). -/
def LoopBlock.rampCand (b : LoopBlock) (s : Word) (k : Nat) : Word :=
  unit01 (f32Add s (f32Mul b.c0 (f32Sub f32One (f32Div (f32OfInt k) (f32OfInt 800)))))

/-- What a feedback block proposes: its ramp candidate while its ramp runs, and else its candidate in closed loop. -/
def LoopBlock.out (b : LoopBlock) (s : Word) : Word :=
  match b.ramp with
  | some k => b.rampCand s k
  | none => b.cand s

/-- A candidate of min-select: descriptor index, class of R206, value. -/
structure Cand where
  ix : Nat
  cls : Nat
  m : Word
  deriving DecidableEq, Repr

/-- The class of a block type's wins (R178, coded as in R206). -/
def clsOf (type : Nat) : Nat := if type == 1 then 0 else if type == 2 then 1 else if type == 3 then 2 else if type == 4 then 3 else 4

/-- The output of a descriptor (R179, R184 to R188): its candidate, in min-select or not, or its factor. CAP, FF and EMAP have none
where no segment's values are known. -/
def outOf (melt src : LoopBlock) (c : PCtx) (s : Word) (fs : List (Nat × Word)) (x : LoopDesc) : Option Word :=
  match x.type with
  | 1 => some (f32Min (if melt.inSel || melt.ramp.isSome then f32Mul s (x.c32 0) else s) f32One)
  | 2 => some (melt.out s)
  | 3 => c.q.map (fun q => f32Min f32One (f32Div (f32Div (f32Mul q.set.lineCap (f32Max c.v (x.c32 0))) (f32OfInt 1000)) c.rated))
  | 4 => some (src.out s)
  | 5 => some (x.c32 0)
  | _ => (fs.find? (fun f => f.1 == x.ix)).map (·.2)

/-- A descriptor is in min-select in an emitting P-tick (R186, R188, R190, R194). -/
def competes (melt src : LoopBlock) (q : PwrQ) (x : LoopDesc) : Bool :=
  match x.type with
  | 1 => true
  | 2 => melt.inSel || melt.ramp.isSome
  | 3 => q.set.cap
  | 4 => src.inSel || src.ramp.isSome
  | 5 => true
  | _ => false

/-- The lowest candidate, the first in descriptor order where several are equal (R189). -/
def minSelect : List Cand → Option Cand
  | [] => none
  | a :: t => some (t.foldl (fun w b => if f32Lt b.m w.m then b else w) a)

/-- A block's integrator after the selection (R189). -/
def LoopBlock.integrate (b : LoopBlock) (l : LoopEng) (x : LoopDesc) (bank : Nat) (u s : Word) (won : Bool) : LoopBlock :=
  let g := l.gain bank x
  let role2 := x.type == 2 && x.role == 2
  if (b.inSel && b.ramp.isNone) || (role2 && !b.lost) then
    let iTry := f32Add b.i (f32Mul (g 1) b.e)
    if won || role2 then { b with i := clampTo (g 2) (g 3) iTry }
    else
      let c := f32Sub (f32Sub (f32Add u (g 4)) s) b.p
      { b with i := clampTo (g 2) (g 3) (f32Min iTry (f32Max b.i c)) }
  else b

/-- The ramp of a block in this P-tick (R194): a new loss of a block that was in min-select begins it with k = 0, a running one goes
on. -/
def LoopBlock.ramping (b : LoopBlock) (was : Bool) (now : Bool) : LoopBlock :=
  if now then { b with ramp := if was then some 0 else none, inSel := false }
  else match b.ramp with
    | some k => { b with ramp := some (k + 1) }
    | none => b

/-! ## One P-tick -/

/-- What a P-tick gives: the loop engine after it, the power word, the winner, s, the output of every descriptor that has one, what the
MONITOR reads, the descriptor that produced a NaN or an infinity, the losses declared (cause and onset), and the onset of a
source-protection trip. -/
structure LoopOut where
  l : LoopEng
  pwr : Nat
  win : Option Cand
  s : Word
  outs : List (Nat × Word)
  mon : Option Word
  nan : Option Nat
  lossM : Option (Nat × Word)
  lossS : Option (Nat × Word)
  trip : Option Word
  deriving DecidableEq, Repr

/-- The output of a descriptor in a list of outputs. -/
def outAt (outs : List (Nat × Word)) (ix : Nat) : Option Word := (outs.find? (fun f => f.1 == ix)).map (·.2)

/-- The output of the block of a type, if the section holds it and it has one. -/
def LoopOut.ofType (o : LoopOut) (t : Nat) : Option Word := (o.l.ofType t).bind (fun x => outAt o.outs x.ix)

/-- A feedback block judged and, if its loss is declared, ramping (R194: where it was in min-select at that P-tick). -/
def LoopBlock.watch (b : LoopBlock) (x : Option LoopDesc) (c : PCtx) (run : Nat) : LoopBlock × Option (Nat × Word) :=
  match x with
  | none => (b, none)
  | some x =>
    let j := b.judge x c run
    (j.1.ramping (b.sel x c) j.2.isSome, j.2)

/-- SRC's run of emitting P-ticks over TRIP (R187). A lost block reads nothing, which ends the run. -/
def LoopEng.tripStep (l : LoopEng) (c : PCtx) : LoopEng × Option Word :=
  match l.ofType 4 with
  | none => (l, none)
  | some x =>
    if l.src.lost then ({ l with trip := 0 }, none)
    else if !c.emit then (l, none)
    else if f32Lt (x.c32 4) l.src.x then
      let l1 : LoopEng := { l with trip := l.trip + 1, tripOnset := if l.trip == 0 then c.tick else l.tripOnset }
      if max 1 (x.c16 8) ≤ l1.trip then ({ l1 with trip := 0 }, some l1.tripOnset) else (l1, none)
    else ({ l with trip := 0 }, none)

/-- What the MONITOR block reads in a P-tick (R179): a channel's valid value, or the output of an earlier descriptor. -/
def LoopEng.monIn (l : LoopEng) (c : PCtx) (outs : List (Nat × Word)) : Option Word :=
  (l.ofType 8).bind (fun x =>
    if 0x10 ≤ x.sel then outAt outs (x.sel - 0x10)
    else if (c.input x.sel).missing || (c.input x.sel).held then none else some (c.input x.sel).x)

/-- A feedback block holds only finite values. -/
def LoopBlock.finite (b : LoopBlock) : Bool := f32Finite b.e && f32Finite b.p && f32Finite b.i

/-- A block that is not finite names its descriptor. -/
def nanOf (x : Option LoopDesc) (b : LoopBlock) : Option Nat := if b.finite then none else x.map (·.ix)

/-- The first value that is not finite (R175): a feedback block's, a descriptor's output, what the MONITOR reads, or s. -/
def LoopEng.firstNaN (l : LoopEng) (outs : List (Nat × Word)) (s : Word) (mon : Option Word) : Option Nat :=
  (nanOf (l.ofType 2) l.melt).or <| (nanOf (l.ofType 4) l.src).or <|
    ((outs.find? (fun f => !(f32Finite f.2))).map (·.1)).or <|
    (mon.bind (fun v => if f32Finite v then none else (l.ofType 8).map (·.ix))).or (if f32Finite s then none else some 0)

/-- A feedback block formed, where the section holds it. -/
def LoopBlock.formIn (b : LoopBlock) (l : LoopEng) (x : Option LoopDesc) (c : PCtx) (s : Word) (uPrev : Option Word) : LoopBlock :=
  match x with
  | some x => b.form l x c s uPrev
  | none => b

/-- The evaluation of one P-tick (R173 to R198): blocks are watched and formed, and every descriptor gives its output; an emitting P-tick
then selects the power and updates the integrators. -/
def LoopEng.pstep (l : LoopEng) (c : PCtx) : LoopOut :=
  let md := l.ofType 2
  let sd := l.ofType 4
  let jm := l.melt.watch md c l.gateRun
  let js := l.src.watch sd c l.gateRun
  let uPrev := if l.emit then some l.u else none
  let fs := match c.q with
    | some q => l.factors c q
    | none => []
  let s := match c.emit, c.q with
    | true, some q => schedS c q fs
    | _, _ => f32Zero false
  let melt := jm.1.formIn l md c s uPrev
  let src := js.1.formIn l sd c s uPrev
  let outs := l.descs.filterMap (fun x => (outOf melt src c s fs x).map (fun m => (x.ix, m)))
  let mon := l.monIn c outs
  match c.emit, c.q with
  | true, some q =>
    let cs := l.descs.filterMap (fun x => if competes melt src q x then (outAt outs x.ix).map (fun m => ⟨x.ix, clsOf x.type, m⟩) else none)
    let w := minSelect cs
    let u := match w with
      | some w => w.m
      | none => s
    let won := fun (x : LoopDesc) => decide (w.map (·.ix) = some x.ix)
    let integ := fun (b : LoopBlock) (x : Option LoopDesc) => match x with
      | some x => b.integrate l x q.set.gainBank u s (won x)
      | none => b
    let t := ({ l with melt := integ melt md, src := integ src sd } : LoopEng).tripStep c
    { l := { t.1 with u1 := l.u, emit1 := l.emit, u := u, emit := true, s := s, gateRun := l.gateRun + 1 },
      pwr := (f32ToInt (f32Mul u (f32OfInt 65535))).toNat, win := w, s := s, outs := outs, mon := mon,
      nan := t.1.firstNaN outs s mon, lossM := jm.2, lossS := js.2, trip := t.2 }
  | _, _ =>
    let t := ({ l with melt := melt, src := src } : LoopEng).tripStep { c with emit := false }
    { l := { t.1 with u1 := l.u, emit1 := l.emit, u := s, emit := false, s := s, gateRun := 0 },
      pwr := 0, win := none, s := s, outs := outs, mon := mon, nan := t.1.firstNaN outs s mon, lossM := jm.2, lossS := js.2, trip := none }

/-- A P-tick of a port without an ACTIVE pair: nothing is evaluated, and nothing is emitted. -/
def LoopEng.rest (l : LoopEng) : LoopOut :=
  let s := f32Zero false
  { l := { l with u1 := l.u, emit1 := l.emit, u := s, emit := false, s := s, gateRun := 0 },
    pwr := 0, win := none, s := s, outs := [], mon := none, nan := none, lossM := none, lossS := none, trip := none }

/-! ## Yo-yo (R204, R205) -/

/-- 2π in binary32. -/
def twoPi : Word := 0x40C90FDB#32

/-- A sine, limited to −1 … 1 whatever the constant left open answers. -/
def sinOf (x : Word) : Word :=
  let y := Config.f32Sin x
  if f32Finite y then clampTo 0xBF800000#32 f32One y else f32Zero false

/-- P-ticks between steps of the PRBS generator (R205), in binary32 (R174). -/
def prbsStep (f0 : Word) : Nat := max 1 (f32ToInt (f32Div (f32OfInt 4000000) (f32Max f32One f0))).toNat

/-- The square's phase at P-tick k is k · F0 / 4,000,000, each operation rounded (R174; the formula is the model's choice, log entry 131):
it lies in the first half of a period. -/
def squareHigh (k : Nat) (f0 : Word) : Bool :=
  let t := f32Div (f32Mul (f32OfInt k) f0) (f32OfInt 4000000)
  f32Lt (f32Sub t (f32OfInt (f32Floor t))) 0x3F000000#32

/-- The generator after one step: x¹⁵ + x¹⁴ + 1, output in bit 14. -/
def prbsNext (r : Nat) : Nat := (2 * r + b2n (bitAt r 14 != bitAt r 13)) % 2 ^ 15

/-- The waveform at P-tick k of a run (R205). -/
def YyRun.wave (y : YyRun) (mode : Nat) (a f0 : Word) : Word :=
  match mode with
  | 1 => a
  | 2 => if squareHigh y.k f0 then a else f32Negate a
  | 3 => f32Mul a (sinOf y.phase)
  | 4 => if bitAt y.prbs 14 then a else f32Negate a
  | _ => f32Zero false

/-- The phase step of the sweep at P-tick k of a run of len P-ticks: 2π f / 4 MHz, f rising geometrically from F0 to F1. -/
def sweepStep (k len : Nat) (f0 f1 : Word) : Word :=
  let x := f32Div (f32OfInt k) (f32OfInt (max 1 len))
  let r := Config.f32Pow (f32Div f1 f0) x
  let f := if f32Finite r then f32Mul f0 r else f0
  f32Div (f32Mul twoPi f) (f32OfInt 4000000)

/-- A run after one more P-tick. -/
def YyRun.next (y : YyRun) (len : Nat) (f0 f1 : Word) : YyRun :=
  { k := y.k + 1, phase := f32Add y.phase (sweepStep y.k len f0 f1),
    prbs := if y.left ≤ 1 then prbsNext y.prbs else y.prbs, left := if y.left ≤ 1 then prbsStep f0 else y.left - 1 }

end Sys2Proof.Machine
end

