-- ==== Sys2Proof/Machine/PTick.lean ====
section
/-! DEFINITION. The P-tick (07_power_loops.md R173 to R209, 06_beam_ports.md R161 to R165, 08_sensing_calibration.md R220, R221, R225):
every loop engine is evaluated, its word goes to the laser port, and what it saw is traced, counted and captured. -/

namespace Sys2Proof.Machine

/-! ## The loss of feedback and its end (R193 to R195) -/

/-- The block of a port. -/
def LoopEng.blk (l : LoopEng) : LoopBlk → LoopBlock
  | .melt => l.melt
  | .src => l.src

/-- The loop engine with a block changed. -/
def LoopEng.updBlk (l : LoopEng) (b : LoopBlk) (f : LoopBlock → LoopBlock) : LoopEng :=
  match b with
  | .melt => { l with melt := f l.melt }
  | .src => { l with src := f l.src }

/-- The block type of R178. -/
def blkType : LoopBlk → Nat
  | .melt => 2 | .src => 4

/-- LOST, RAMP and CAUSE of LOOPn_STAT for a block. -/
def blkLost (b : LoopBlk) (p : Nat) : Fld := match b with
  | .melt => F.LOOPn_STAT_MP_LOST p
  | .src => F.LOOPn_STAT_SRC_LOST p
/-- The ramp bit. -/
def blkRamp (b : LoopBlk) (p : Nat) : Fld := match b with
  | .melt => F.LOOPn_STAT_MP_RAMP p
  | .src => F.LOOPn_STAT_SRC_RAMP p
/-- The cause field. -/
def blkCause (b : LoopBlk) (p : Nat) : Fld := match b with
  | .melt => F.LOOPn_STAT_MP_CAUSE p
  | .src => F.LOOPn_STAT_SRC_CAUSE p

/-- Port and block identifier as they stand in events (log entry 20). -/
def LoopEng.portBlk (l : LoopEng) (p : Nat) (b : LoopBlk) : Nat :=
  p + 256 * (match l.ofType (blkType b) with
    | some x => x.id
    | none => 0)

/-- The ramp bits of a port follow its blocks. -/
def Dev.rampBits (d : Dev) (p : Nat) : Dev :=
  let l := d.loopOfPort p
  (d.setFlag (F.LOOPn_STAT_MP_RAMP p) l.melt.ramp.isSome).setFlag (F.LOOPn_STAT_SRC_RAMP p) l.src.ramp.isSome

/-- RAMP_END (R194): after the 800th P-tick of its ramp the block leaves min-select. -/
def Dev.rampEnd (d : Dev) (p : Nat) (b : LoopBlk) : Dev :=
  match ((d.loopOfPort p).blk b).ramp with
  | some k => if 799 ≤ k then (d.updLoop p (fun l => l.updBlk b (fun x => { x with ramp := none }))).rampBits p else d
  | none => d

/-- RAMP_END (R194). -/
def execRampEnd (p : Port) (b : LoopBlk) (s : State) : Host.Outcome State Fault Refusal :=
  .next (s.onDev (fun d => d.rampEnd p.val b))

/-- The parameter set of the segment in force, as gains are looked up for a re-entry: the bank that the block last used. -/
def LoopBlock.bankIx (b : LoopBlock) : Nat := b.bank.getD 0

/-- FEEDBACK_REENTRY (R195): a lost block with 256 valid P-ticks re-enters with its candidate at the power of the P-tick before, or
with integrator 0 where that P-tick did not emit. -/
def Dev.reentry (d : Dev) (p : Nat) (b : LoopBlk) : Dev :=
  let l := d.loopOfPort p
  let x := l.blk b
  if x.lost && decide (256 ≤ x.valid) then
    let i := match l.ofType (blkType b) with
      | some y => if l.emit1 then
          clampTo (l.gain x.bankIx y 2) (l.gain x.bankIx y 3) (f32Sub (f32Sub l.u1 l.s) x.p)
        else f32Zero false
      | none => f32Zero false
    let d1 := d.updLoop p (fun l => l.updBlk b (fun x => { x with i := i, lost := false, ramp := none, off := false, a := chRun0, b := chRun0 }))
    (((d1.setFlag (blkLost b p) false).put (blkCause b p) 0).rampBits p).raise 0x0401 (srcPort p) 1 (l.portBlk p b) x.valid
      (d.get (F.LOOPn_WIN_PWR p))
  else d

/-- FEEDBACK_REENTRY (R195). -/
def execFeedbackReentry (p : Port) (b : LoopBlk) (s : State) : Host.Outcome State Fault Refusal :=
  .next (s.onDev (fun d => d.reentry p.val b))

/-- A loss declared in this P-tick (R193): bits, count and event; a required sensor's loss is a fault of the port. -/
def Dev.feedbackLost (d : Dev) (m : Dram) (p : Nat) (b : LoopBlk) (loss : Option (Nat × Word)) : Dev :=
  match loss with
  | none => d
  | some (cause, onset) =>
    let l := d.sections false
    let req := match b with
      | .melt => meltRequired l p
      | .src => bref_required l p
    let d1 := ((((d.setFlag (blkLost b p) true).put (blkCause b p) cause).setFlag (F.LOOPn_STAT_LOSS p) true).bump
      (F.LOOPn_LOSSES_COUNT p)).raise 0x0400 (srcPort p) (if req then 4 else 3) ((d.loopOfPort p).portBlk p b) cause onset.toNat
    if req then d1.portFault m p 3 (match b with
      | .melt => 2 ^ 5
      | .src => 2 ^ 6) 3 onset
    else d1

/-! ## Yo-yo and capture (R204 to R207) -/

/-- A Yo-yo run starts on port p (R204). A capture that waits for it starts with it (R207). -/
def Dev.yoyoStart (d : Dev) (p : Nat) : Dev :=
  let f0' := d.getW (F.LOOPn_YY_F0_VAL p)
  let d1 := (d.updLoop p (fun l => { l with
      yy := some { k := 0, phase := f32Zero false, prbs := 0x7FFF, left := prbsStep f0' }, yyLive := true,
      cap := match l.cap with
        | .waiting => .running
        | x => x })).setFlag (F.LOOPn_STAT_YY_RUN p) true
  d1.raise 0x0406 (srcPort p) 0 (pair8 p (d.get (F.LOOPn_YY_CTRL_MODE p))) 0 d.tick.toNat

/-- YOYO_RUN_END (R204): after LOOPn_YY_LEN P-ticks ARM is cleared and YY_RUN falls. -/
def Dev.yoyoEnd (d : Dev) (p : Nat) : Dev :=
  match (d.loopOfPort p).yy with
  | none => d
  | some r =>
    if d.get (F.LOOPn_YY_LEN_LEN p) ≤ r.k then
      (((d.updLoop p (fun l => { l with yy := none, yyLive := false })).setFlag (F.LOOPn_STAT_YY_RUN p) false).setFlag
        (F.LOOPn_YY_CTRL_ARM p) false).raise 0x0406 (srcPort p) 0 (pair8 p (d.get (F.LOOPn_YY_CTRL_MODE p))) 1 d.tick.toNat
    else d

/-- YOYO_RUN_END (R204). -/
def execYoyoRunEnd (p : Port) (s : State) : Host.Outcome State Fault Refusal := .next (s.onDev (fun d => d.yoyoEnd p.val))

/-- A write of 1 to LOOPn_CAP_CTRL.START (R207): the capture waits for the next Yo-yo run, or starts at the next P-tick; ignored while a
capture runs. -/
def Dev.capStart (d : Dev) (p : Nat) : Dev :=
  if decide ((d.loopOfPort p).cap = .running) then d
  else
    ((d.updLoop p (fun l => { l with cap := if d.flag (F.LOOPn_YY_CTRL_CAPSYNC p) then .waiting else .running })).setFlag
      (F.LOOPn_STAT_CAP_BUSY p) true).put (F.LOOPn_CAP_WR_COUNT p) 0

/-- CAPTURE_END (R207): LOOPn_CAP_LEN records are written. -/
def Dev.captureEnd (d : Dev) (p : Nat) : Dev :=
  if decide ((d.loopOfPort p).cap = .running) && decide (d.get (F.LOOPn_CAP_LEN_LEN p) ≤ d.get (F.LOOPn_CAP_WR_COUNT p)) then
    ((((d.updLoop p (fun l => { l with cap := .idle })).setFlag (F.LOOPn_STAT_CAP_BUSY p) false).setFlag (F.LOOPn_STAT_CAP_DONE p)
      true).raise 0x0407 (srcPort p) 0 p (d.get (F.LOOPn_CAP_WR_COUNT p)) d.tick.toNat).attn .capture
  else d

/-- CAPTURE_END (R207). -/
def execCaptureEnd (p : Port) (s : State) : Host.Outcome State Fault Refusal := .next (s.onDev (fun d => d.captureEnd p.val))

/-- The CAP candidate of a record: 0 where the section holds no CAP; open where no segment's LINE_CAP is known. -/
def capCand (o : LoopOut) (open_ : Nat) : Nat :=
  match o.l.ofType 3, o.ofType 3 with
  | none, _ => 0
  | some _, some m => m.toNat
  | some _, none => open_

/-- A capture record (R206). -/
def capRecord (tick : Word) (sub : Nat) (o : LoopOut) (yyOn : Bool) (yy : Word) (missing : Bool) (cap : Nat) : List Byte :=
  let cand := fun (t : Nat) => match o.ofType t with
    | some m => m.toNat
    | none => 0
  let w := match o.win with
    | some y => 4 * y.ix + 32 * y.cls
    | none => 32 * 7
  let l := o.l
  leBytes 4 tick.toNat ++ leBytes 1 (sub + w) ++
  leBytes 1 (b2n l.emit + 2 * b2n l.melt.lost + 4 * b2n l.src.lost + 8 * b2n (l.melt.ramp.isSome || l.src.ramp.isSome) +
    16 * b2n yyOn + 32 * b2n missing) ++
  leBytes 2 o.pwr ++ leBytes 4 o.s.toNat ++ leBytes 4 (if yyOn then yy.toNat else 0) ++
  leBytes 4 (if (l.ofType 2).isSome then l.melt.x.toNat else 0) ++ leBytes 4 (cand 2) ++ leBytes 4 (cand 4) ++ leBytes 4 cap

/-- The capture of port p writes its record of this P-tick (R206, R207). -/
def Dev.capWrite (d : Dev) (p : Nat) (o : LoopOut) (c : PCtx) (yyOn : Bool) : Dev :=
  if decide ((d.loopOfPort p).cap = .running) then
    let miss := match o.l.ofType 2 with
      | some x => (c.input x.sel).missing
      | none => false
    let at_ := d.get (F.LOOPn_CAP_BASE_BASE p) * 4096 + 32 * d.get (F.LOOPn_CAP_WR_COUNT p)
    let x := d.free
    (x.2.queueWr (0x50 + 256 * p) at_ (capRecord d.tick d.sub.val o yyOn c.yy miss (capCand o (x.1 % 2 ^ 32)))).bump (F.LOOPn_CAP_WR_COUNT p)
  else d

/-! ## What a loop engine sees (R177) -/

/-- The quantities of a segment: parameter set, PWR_SCALE and velocity limit in mm/s. -/
def Dev.pwrQ (d : Dev) (m : Dram) (k : PKey) (i : Nat) : Option PwrQ :=
  match d.segOf m k i with
  | .ok s => match d.setOf k s.pset with
    | .ok set => some ⟨set, s.pwr, f32OfFr (fracMul (vLimit s set) (fracI 10)), i⟩
    | .fail _ => none
  | _ => none

/-- The tick point in force VDELAY T-ticks before the P-tick. -/
def Dev.delayed (d : Dev) (p : Nat) : Option TickPt :=
  let t := d.tick - BitVec.ofNat 32 (d.get (F.LOOPn_CTRL_VDELAY p))
  (d.engOf p).hist.find? (fun x => x.tick == t)

/-- The quantities in use (R177): those of the delayed tick point, or those of the segment that opened the present gate interval. -/
def Dev.quantities (d : Dev) (m : Dram) (p : Nat) : Option PwrQ :=
  match (d.delayed p).bind (fun t => t.q) with
  | some q => some q
  | none => match d.runOf p with
    | some r => r.openSeg.bind (fun i => d.pwrQ m r.key i)
    | none => none

/-- An energy-map coordinate of p₂ (R183): the grid coordinate divided by 8. -/
def mapCoord (v base : Int) (pitch : Nat) : Frac := frac (v - fixI base) (2 ^ 32 * 8 * max 1 pitch)

/-- What this P-tick brings to the loop engine of port p. -/
def Dev.pctx (d : Dev) (m : Dram) (pds : List PdSample) (p : Nat) (emit : Bool) : PCtx :=
  let v1 := d.pdVal pds (2 * p)
  let v2 := d.pdVal pds (2 * p + 1)
  let l := d.loopOfPort p
  let t := d.delayed p
  let g := tget { x0 := 0, y0 := 0, pitch := 1, payload := [] } d.corr p
  let w := match l.yy with
    | some y => y.wave (d.get (F.LOOPn_YY_CTRL_MODE p)) (d.getW (F.LOOPn_YY_AMP_VAL p)) (d.getW (F.LOOPn_YY_F0_VAL p))
    | none => f32Zero false
  { tick := d.tick, emit := emit, q := d.quantities m p,
    v := match t with
      | some t => t.v
      | none => f32Zero false
    eu := match t with
      | some t => mapCoord t.p2x g.x0 g.pitch
      | none => f0
    ev := match t with
      | some t => mapCoord t.p2y g.y0 g.pitch
      | none => f0
    rated := ratedOf (d.sections false) p, v1 := v1, v2 := v2, vc := d.twoColour p v1 v2,
    mpOff := d.flag (F.LOOPn_CTRL_MP_OFF p),
    yyPoint := if l.yy.isSome then d.get (F.LOOPn_YY_CTRL_POINT p) else 3, yy := w }

/-! ## What a P-tick leaves (R114, R191, R220, R221, R225) -/

/-- The telemetry period of a port at its start. -/
def telPort0 : TelPort := { pwr := 0, dealt := 0, bad := 0, miss := 0 }

/-- The win counter of a class. -/
def wcnt (p : Nat) : Nat → Fld
  | 0 => F.LOOPn_WCNT_SCHED_COUNT p
  | 1 => F.LOOPn_WCNT_MP_COUNT p
  | 2 => F.LOOPn_WCNT_CAP_COUNT p
  | 3 => F.LOOPn_WCNT_SRC_COUNT p
  | _ => F.LOOPn_WCNT_OTHER_COUNT p

/-- One more in place i of a list of counts. -/
def countAt (l : List Nat) (i : Nat) : List Nat := l.modify i (· + 1)

/-- A win is counted and the power word added for the port, its tile and its telemetry period (R114, R191, R389). -/
def Dev.countWin (d : Dev) (p cls pwr : Nat) : Dev :=
  let d1 := (d.bump (wcnt p cls)).updEng p (fun e => { e with wins := countAt e.wins cls, pwr := e.pwr + pwr })
  let t := tget telPort0 d1.tel.ports p
  let d2 := { d1 with tel := { d1.tel with ports := tput d1.tel.ports p { t with pwr := t.pwr + pwr } } }
  match d2.runOf p with
  | none => d2
  | some r => match r.key with
    | .bed n t _ => d2.updTile n t (fun x => { x with
        startT := x.startT.or (some d.time), wins := countAt x.wins cls, pwr := tput x.pwr p (tget 0 x.pwr p + pwr) })
    | .inc x => match tfind d2.hnd.inc x with
      | some h => { d2 with hnd := { d2.hnd with inc := tput d2.hnd.inc x { h with wins := countAt h.wins cls, pwr := h.pwr + pwr } } }
      | none => d2

/-- An EXPOSE segment exposed while a block of the beam is lost or ramping is counted once (R194). -/
def Dev.countLoopLost (d : Dev) (p seg : Nat) : Dev :=
  let l := d.loopOfPort p
  if l.melt.lost || l.src.lost || l.melt.ramp.isSome || l.src.ramp.isSome then
    match d.runOf p with
    | none => d
    | some r =>
      if r.lostSeg == some seg then d
      else
        let d1 := (d.updRun p (fun r => { r with lostSeg := some seg })).tileFlag r.key 9
        match r.key with
        | .bed n t _ => d1.updTile n t (fun x => { x with loopLost := x.loopLost + 1 })
        | .inc x => match tfind d1.hnd.inc x with
          | some h => { d1 with hnd := { d1.hnd with inc := tput d1.hnd.inc x { h with loopLost := h.loopLost + 1 } } }
          | none => d1
  else d

/-- The MOD frame (R161, R162) as a number whose bit 25 is slot 0. -/
def modFrame (pwr : Nat) (gate armed : Bool) (fcnt : Nat) : Nat :=
  let body := pwr % 65536 * 16 + b2n gate * 8 + b2n armed * 4 + fcnt % 4
  2 ^ 25 + body * 16 + crc4Go 20 body 0

/-- A self-test slice holds the DAC of port p (R368). -/
def Dev.dacSlice (d : Dev) (p : Nat) : Bool :=
  match d.bist.ana with
  | some (.dac q) => q.val == p
  | _ => false

/-- The MOD frame and the DAC update of this P-tick (R161 to R164, R218, R368). -/
def Dev.laserOut (d : Dev) (p pwr : Nat) (gate : Bool) : Dev :=
  let l := d.sections false
  let w := if d.dacSlice p then 0 else pwr
  d.updPrt p (fun x => { x with
    mod := if hasMod l p then modFrame w gate (d.inService p) x.fcnt.val else 0
    fcnt := x.fcnt + 1
    dac := if hasDac l p && d.rigged && !(d.dacSlice p) && !d.sys.edgeSilent && !d.tapForce && d.calSettled p then d.dacCode p w else 0
    dark := if gate then 0 else x.dark + 1 })

/-- A trace that has just begun. -/
def trace0 : Trace := { bins := [], n := 0, outside := 0, ofs := none, gbins := [], gn := 0, trim := none }

/-- The state with the trace of channel c changed. -/
def Dev.updTrace (d : Dev) (c : Nat) (f : Trace → Trace) : Dev :=
  { d with sns := { d.sns with traces := tput d.sns.traces c (f (tget trace0 d.sns.traces c)) } }

/-- Samples of an offset estimate (R220). -/
def ofsSamples : Nat := 16384
/-- Values of a gain estimate (R221). -/
def gainSamples : Nat := 65536

/-- The beam is in a JUMP or ORIGIN segment, or idle (R220). -/
def Dev.inJump (d : Dev) (m : Dram) (p : Nat) : Bool :=
  match d.runOf p with
  | none => true
  | some r => match (d.engOf p).hist with
    | t :: _ => (match d.segOf m r.key t.seg with
      | .ok s => s.isJump || s.isOrigin
      | _ => false)
    | [] => false

/-- A dark sample of channel c is counted (R220), in a histogram centred on the live offset. -/
def Dev.traceDark (d : Dev) (m : Dram) (p c : Nat) (v : PdVal) (emit : Bool) : Dev :=
  if d.flag F.SNS_CTRL_OTRACE && d.inService p && !emit && d.inJump m p &&
      decide (4 * d.get F.SNS_DARK_WAIT_WAIT ≤ (d.prtOf p).dark) && (tfind d.sns.obs p).isNone && !v.missing && !v.sat && !v.held then
    let bin : Int := (v.code : Int) - fracRne (frac (d.get (F.SNS_CHc_OFS_OFS c)) 16) + 128
    d.updTrace c (fun t =>
      if ofsSamples ≤ t.n then t
      else if 0 ≤ bin && bin < 256 then { t with n := t.n + 1, bins := tput t.bins bin.toNat (tget 0 t.bins bin.toNat + 1) }
      else { t with n := t.n + 1, outside := t.outside + 1 })
  else d

/-- 0.95 in binary32. -/
def f095 : Word := 0x3F733333#32

/-- A reference value of channel c is counted (R221), in a histogram of 1,024 bins from 0 to 2.0; a value outside counts in the bin
next to it. `run` is the number of emitting P-ticks before this one in the open gate. -/
def Dev.traceGain (d : Dev) (p c : Nat) (v : PdVal) (ctx : PCtx) (run : Nat) : Dev :=
  let l := d.loopOfPort p
  let role := pdRole (d.sections false) c
  let ok := match ctx.q with
    | some q => q.set.reference && f32Le (f32Mul f095 q.vlim) ctx.v
    | none => false
  if d.flag F.SNS_CTRL_GTRACE && (role == 1 || role == 2) && ctx.emit && ok && decide (64 ≤ run) && !v.missing && !v.held &&
      !(l.melt.lost || l.src.lost || l.melt.ramp.isSome || l.src.ramp.isSome) then
    let bin := (clampI 0 1023 (fracFloor (fracMul (fracOfF32 v.x) (fracI 512)))).toNat
    d.updTrace c (fun t => if gainSamples ≤ t.gn then t
      else { t with gn := t.gn + 1, gbins := tput t.gbins bin (tget 0 t.gbins bin + 1) })
  else d

/-- The value of channel 2n is added to the accumulator of the offset commanded VDELAY T-ticks earlier, while port p observes (R225). -/
def Dev.spotAdd (d : Dev) (p : Nat) (v : PdVal) : Dev :=
  match tfind d.sns.obs p with
  | none => d
  | some o =>
    let k := o.k - 1
    let del := d.get (F.LOOPn_CTRL_VDELAY p)
    if o.k == 0 || k < del then d
    else
      let j := (k - del) % 33
      let o1 : SpotObs := if v.missing || v.sat then { o with bad := true }
        else { o with sweep := o.sweep.modify j (fun a => f32Add a v.x) }
      { d with sns := { d.sns with obs := tput d.sns.obs p o1 } }

/-- The MONITOR block (R197, R206): it starts from its first valid sample; the spec gives no formula for later ones, so its value is
then left open. -/
def Dev.monitor (d : Dev) (p : Nat) (o : LoopOut) : Dev :=
  match o.mon.filter f32Finite, (d.loopOfPort p).mon with
  | none, _ => d
  | some v, none => (d.updLoop p (fun l => { l with mon := some v })).put (F.LOOPn_MON_VAL p) v.toNat
  | some _, some _ =>
    let w := BitVec.ofNat 32 d.free.1
    let w1 := if f32Finite w then w else f32Zero false
    (d.free.2.updLoop p (fun l => { l with mon := some w1 })).put (F.LOOPn_MON_VAL p) w1.toNat

/-- The source-protection trip (R187). -/
def Dev.srcTrip (d : Dev) (m : Dram) (p : Nat) (onset : Option Word) (x : Word) : Dev :=
  match onset with
  | none => d
  | some t =>
    (((d.setFlag (F.BEAMn_PSTAT_LFAULT p) true).setFlag (F.LOOPn_STAT_TRIP p) true).raise 0x0405 (srcPort p) 4 p x.toNat
      t.toNat).portFault m p 1 (2 ^ 1) 3 t

/-- A numeric fault (R175): the pair fails, which blanks the beam and records the fault. -/
def Dev.loopNaN (d : Dev) (m : Dram) (p : Nat) (ix : Option Nat) : Dev :=
  match ix with
  | none => d
  | some i => d.pairFail m (d.get (F.BEAMn_PAIR_PAIR p)) (.loopNan (Fin.ofNat 8 i))

/-- LOOPn_WIN (R191): power word and class of the last P-tick, descriptor of the last winner. -/
def Dev.winReg (d : Dev) (p pwr : Nat) (w : Option Cand) : Dev :=
  match w with
  | some y => ((d.put (F.LOOPn_WIN_PWR p) pwr).put (F.LOOPn_WIN_DESC p) y.ix).put (F.LOOPn_WIN_CLASS p) y.cls
  | none => (d.put (F.LOOPn_WIN_PWR p) pwr).put (F.LOOPn_WIN_CLASS p) 7

/-- Rows that are due before a P-tick is evaluated: ends of ramps, re-entries, the end of a Yo-yo run and of a capture. -/
def Dev.loopDue (d : Dev) (p : Nat) : Dev :=
  (((((d.rampEnd p .melt).rampEnd p .src).reentry p .melt).reentry p .src).yoyoEnd p).captureEnd p

/-- The Yo-yo run of a port advances on every P-tick (R204). -/
def Dev.yoyoNext (d : Dev) (p : Nat) : Dev :=
  d.updLoop p (fun l => { l with yy := l.yy.map (fun y => y.next (d.get (F.LOOPn_YY_LEN_LEN p)) (d.getW (F.LOOPn_YY_F0_VAL p))
    (d.getW (F.LOOPn_YY_F1_VAL p))) })

/-- The loop engine of port p evaluates the P-tick (R173 to R198). -/
def Dev.loopEval (d : Dev) (m : Dram) (pds : List PdSample) (p : Nat) : Dev :=
  let emit := d.gateIn p d.sub.val && d.emitAllowed p
  let c := d.pctx m pds p emit
  let l := d.loopOfPort p
  let yyOn := emit && (match l.yy with
    | some _ => d.get (F.LOOPn_YY_CTRL_MODE p) != 0
    | none => false)
  let o := l.pstep c
  let good := o.nan.isNone
  let pwr := if good then o.pwr else 0
  let d1 := (((d.updLoop p (fun _ => o.l)).yoyoNext p).rampBits p).winReg p pwr o.win
  let d2 := (d1.capWrite p { o with pwr := pwr } c yyOn).laserOut p pwr (emit && good)
  let d3 := match emit, o.win with
    | true, some w => d2.countWin p w.cls pwr
    | _, _ => d2
  let d4 := match emit, c.q with
    | true, some q => d3.countLoopLost p q.seg
    | _, _ => d3
  let d5 := ((((d4.monitor p o).traceDark m p (2 * p) c.v1 emit).traceDark m p (2 * p + 1) c.v2 emit).traceGain p (2 * p) c.v1 c
    l.gateRun).traceGain p (2 * p + 1) c.v2 c l.gateRun
  let d6 := (d5.spotAdd p c.v1).feedbackLost m p .melt o.lossM
  ((d6.feedbackLost m p .src o.lossS).srcTrip m p o.trip o.l.src.x).loopNaN m p o.nan

/-- A P-tick of port p without an ACTIVE pair: its frames carry no power, a Yo-yo run goes on (R204), and a capture records a P-tick that
does not emit (R206). -/
def Dev.loopRest (d : Dev) (m : Dram) (pds : List PdSample) (p : Nat) : Dev :=
  let o := (d.loopOfPort p).rest
  let c := d.pctx m pds p false
  ((((d.updLoop p (fun _ => o.l)).yoyoNext p).winReg p 0 none).capWrite p o c false).laserOut p 0 false

/-- The values that a P-tick brings are noted for every powered channel (R210, R238), assigned to a pair or not; a channel of no assigned
port that the row does not list keeps what it shows. -/
def Dev.pdNotes (d : Dev) (pds : List PdSample) : Dev :=
  let ports := portsInUse (d.sections false)
  (upTo (2 * d.variant.ports)).foldl (fun d c =>
    if ports.contains (c / 2) || pds.any (fun s => s.chan.val == c) then d.pdNote c (d.pdVal pds c) else d) d

/-- Port p in a P-tick: with an ACTIVE pair its loop engine is evaluated. -/
def Dev.portPTick (d : Dev) (m : Dram) (pds : List PdSample) (p : Nat) : Dev :=
  let d1 := d.loopDue p
  let d2 := if d1.flag (F.BEAMn_PSTAT_ATTACHED p) then d1.loopEval m pds p else d1.loopRest m pds p
  d2.emitBit p

/-- The gate of a port where the T-tick has passed. -/
def Prt.tickOver (x : Prt) : Prt := { x with edges := [(0, x.gate)] }

/-- The time of the P-tick: 250 ns each from the T-tick's edge. -/
def Dev.atSub (d : Dev) : Dev := { d with time := d.time + BitVec.ofNat 64 (250 * d.sub.val) }

/-- P_TICK (R173): every assigned port, in order; then the next P-tick. -/
def Dev.pTick (d : Dev) (m : Dram) (pds : List PdSample) : Dev :=
  let ports := portsInUse (d.sections false)
  let d1 := ports.foldl (fun d p => d.portPTick m pds p) (d.atSub.pdNotes pds)
  let d2 := { d1 with time := d.time, sub := d.sub + 1, sys := { d1.sys with lost := [] } }
  if d.sub == 3 then { d2 with prt := d2.prt.map (fun (x : Nat × Prt) => (x.1, x.2.tickOver)) } else d2

/-- P_TICK (R173). -/
def execPTick (samples : List PdSample) (s : State) : Host.Outcome State Fault Refusal :=
  .next (s.runDev (fun d m => d.pTick m samples))

end Sys2Proof.Machine
end

