-- ==== Sys2Proof/Machine/LoopLoad.lean ====
section
/-! DEFINITION. LOOP_LOAD and the effect points of its tables (07_power_loops.md R199 to R203). -/

namespace Sys2Proof.Machine

/-- The payload length of a kind of loop table image (R200). -/
def loopPayLen : Nat → Option Nat
  | 1 => some 8464 | 2 => some 65536 | _ => none

/-- The ranges of the eight gains of a descriptor (R201), as binary32 bounds. −16.0 … 16.0, 0.0 … 1.0, −1.0 … 1.0. -/
def gainRange : Nat → Word × Word
  | 0 => (0xC1800000#32, 0x41800000#32)
  | 1 => (0#32, 0x3F800000#32)
  | 2 => (0xBF800000#32, 0x3F800000#32)
  | 3 => (0xBF800000#32, 0x3F800000#32)
  | 4 => (0#32, 0x3F800000#32)
  | _ => (0#32, 0#32)

/-- Value number i of a port payload breaks R201 or R202. -/
def badPortVal (pay : List Byte) (i : Nat) : Bool :=
  let x := f32At pay (4 * i)
  if i < 1024 then
    let r := gainRange (i % 8)
    !(f32In r.1 r.2 x) || (i % 8 == 3 && !(f32Le (f32At pay (4 * i - 4)) x))
  else if i < 2113 then !(f32In 0x3F000000#32 0x40000000#32 x)
  else x != 0

/-- Value number i of a payload of feed-forward maps breaks R201 or R202. -/
def badFfVal (pay : List Byte) (i : Nat) : Bool := !(f32In 0#32 0x40000000#32 (f32At pay (4 * i)))

/-- The first value of a payload that is refused. -/
def badLoopVal (kind : Nat) (pay : List Byte) : Option Nat :=
  ((upTo (pay.length / 4)).find? (fun i => if kind == 1 then badPortVal pay i else badFfVal pay i)).map (fun i => 64 + 4 * i)

/-- The failing offset of a loop table image (R200 to R202), if it is refused: header fields in order, the header's CRC, the payload's
CRC, the port, the values. `len` is the length offered, `ue` says that the image could not be read without error. -/
def badLoopImage (l : List Section) (img : List Byte) (len : Nat) (ue : Bool) : Option Nat :=
  let kind := byteAt img 6
  let port := byteAt img 7
  let n := (loopPayLen kind).getD 0
  let pay := img.drop 64
  (firstBad [(leAt img 0 4 != 0x544C5841, 0x00), (leAt img 4 2 != 1, 0x04), ((loopPayLen kind).isNone, 0x06),
    ((kind == 1 && decide (31 < port)) || (kind == 2 && port != 0xFF), 0x07),
    (leAt img 0x0C 4 != n || len != 64 + n, 0x0C)]).or <|
  (firstNonZero img 0x14 0x3C).or <|
  (firstBad [(ue || (crc32c (img.take 0x3C)).toNat != leAt img 0x3C 4, 0x3C), ((crc32c pay).toNat != leAt img 0x10 4, 0x10),
    (kind == 1 && !(assigned l port), 0x07)]).or <|
  badLoopVal kind pay

/-- The tables of port p that wait become live in its engine (R199). -/
def Dev.tablesLive (d : Dev) (p : Nat) : Dev :=
  match (d.loopOfPort p).pend with
  | none => d
  | some (id, pay) =>
    ((d.updLoop p (fun l => { l with tab := pay, pend := none })).put (F.LOOPn_TABLE_ID_TABLE_ID p) id.toNat).setBit
      F.LOOP_PEND_PORTS p false

/-- Feed-forward maps are live in every engine once none waits for its boundary (R199, R203). -/
def Dev.ffDone (d : Dev) : Dev :=
  match d.ffPend with
  | some w => if w.ports.isEmpty then
      (({ d with ffPend := none }).put F.LOOP_FF_ID_TABLE_ID w.id.toNat).setFlag F.LOOP_FF_PEND_PEND false
    else d
  | none => d

/-- The engine of port p takes the feed-forward maps that wait (R199). -/
def Dev.ffLive (d : Dev) (p : Nat) : Dev :=
  match d.ffPend with
  | some w => if w.ports.contains p then
      ({ d.updLoop p (fun l => { l with ff := w.payload }) with
        ffPend := some { w with ports := w.ports.filter (· != p) } }).ffDone
    else d
  | none => d

/-- An accepted image (R199, R203): an engine without a running path takes it at once (R18). -/
def Dev.loopAccept (d : Dev) (kind port : Nat) (id : Word) (pay : List Byte) : Dev :=
  if kind == 1 then
    let d1 := (d.raise 0x0402 (srcPort port) 1 (pair8 kind port) (d.get (F.LOOPn_TABLE_ID_TABLE_ID port)) id.toNat).updLoop port
      (fun l => { l with pend := some (id, pay) })
    if (d.runOf port).isSome then d1.setBit F.LOOP_PEND_PORTS port true else d1.tablesLive port
  else
    let d1 := d.raise 0x0402 0x00 1 (pair8 kind 0xFF) (d.get F.LOOP_FF_ID_TABLE_ID) id.toNat
    let wait := d1.runningPorts
    let d2 := (upTo 32).foldl (fun d p => if wait.contains p then d else d.updLoop p (fun l => { l with ff := pay })) d1
    (({ d2 with ffPend := some ⟨id, pay, wait⟩ }).setFlag F.LOOP_FF_PEND_PEND true).ffDone

/-- LOOP_LOAD (R203). -/
def State.loopLoad (s : State) (addr : DWord) (len : Word) : State × Res × DWord :=
  if !(aligned16 addr) then (s, .param, 0)
  else if !(s.dev.rigged) then (s, .unrigged, 0)
  else
    let r := s.imageRead addr.toNat (min len.toNat 65600)
    let img := r.2.1
    let d := r.1.dev
    let kind := byteAt img 6
    let port := byteAt img 7
    let id := f32At img 8
    let src := if port ≤ 31 then srcPort port else 0x00
    if (kind == 2 && d.ffPend.isSome) || (kind == 1 && (d.loopOfPort port).pend.isSome) then (r.1, .busy, 0)
    else match badLoopImage (d.sections false) img len.toNat (!r.2.2) with
      | some o => ({ r.1 with dev := d.raise 0x0403 src 2 (pair8 kind port) o id.toNat }, .refused, 0)
      | none => ({ r.1 with dev := d.loopAccept kind port id (img.drop 64) }, .ok, 0)

/-- LOOP_LOAD (R203). -/
def execLoopLoad (tag : Word) (addr : DWord) (len : Word) (s : State) : Host.Outcome State Fault Refusal :=
  .next (s.command .load 0x41 tag (fun s => s.loopLoad addr len))

end Sys2Proof.Machine
end

