-- ==== Sys2Proof/Machine/Chain.lean ====
section
/-! DEFINITION. From bed point to head command (05_trajectory.md R127 to R132) and correction images (R133 to R136). -/

namespace Sys2Proof.Machine

/-! ## Correction images (R133 to R136) -/

/-- Length of the payload of a correction image. -/
def corrPayLen : Nat := 529416

/-- Nodes of a grid. -/
def corrNodes : Nat := 66049

/-- −8,388,608.0 and +8,388,607.0 in binary32. -/
def codeLo : Word := 0xCB000000#32
/-- The upper limit. -/
def codeHi : Word := 0x4AFFFFFE#32

/-- Value number i of a payload breaks R134. -/
def badCorrVal (pay : List Byte) (i : Nat) : Bool :=
  let x := f32At pay (4 * i)
  !(f32Good x) || (decide (i < 2 * corrNodes) && !(f32Le codeLo x && f32Le x codeHi))

/-- A grid end leaves the 32-bit signed range (R134). -/
def gridEndBad (x0 : Int) (pitch : Nat) : Bool := decide (2147483647 < x0 + 256 * pitch)

/-- The failing offset of a correction image, if it is refused (R134): header fields in order, the header's CRC, the payload's CRC, the
port, the grid's ends, the values. An image made for another port than the command's is refused at its PORT field (log entry 129). -/
def badCorrImage (l : List Section) (port : Nat) (img : List Byte) (len : Nat) (ue : Bool) : Option Nat :=
  let pay := img.drop 64
  let pitch := leAt img 0x10 4
  (firstBad [(leAt img 0 4 != 0x52435841, 0x00), (leAt img 4 2 != 1, 0x04), (decide (31 < byteAt img 6) || byteAt img 6 != port, 0x06),
    (byteAt img 7 != 0, 0x07), (!(decide (1000 ≤ pitch) && decide (pitch ≤ 8388607)), 0x10),
    (leAt img 0x18 4 != corrPayLen || len != 64 + corrPayLen, 0x18)]).or <|
  (firstNonZero img 0x20 0x3C).or <|
  (firstBad [(ue || (crc32c (img.take 0x3C)).toNat != leAt img 0x3C 4, 0x3C), ((crc32c pay).toNat != leAt img 0x1C 4, 0x1C),
    (!(assigned l port), 0x06), (gridEndBad (sext 32 (leAt img 0x08 4)) pitch, 0x08),
    (gridEndBad (sext 32 (leAt img 0x0C 4)) pitch, 0x0C)]).or <|
  ((upTo (pay.length / 4)).find? (badCorrVal pay)).map (fun i => 64 + 4 * i)

/-- A correction image becomes the port's (R135). While the Control Bar runs the port stays out of service until the next bed
boundary. -/
def Dev.corrAccept (d : Dev) (p : Nat) (img : List Byte) : Dev :=
  let c : CorrImg := { x0 := sext 32 (leAt img 0x08 4), y0 := sext 32 (leAt img 0x0C 4), pitch := leAt img 0x10 4, payload := img.drop 64 }
  let id := leAt img 0x14 4
  let running := d.get F.BED_STAT_PHASE != 0
  let d1 := (d.raise 0x0302 (srcPort p) 1 p (d.get (F.BEAMn_CORR_ID_CORR_ID p)) id).put (F.BEAMn_CORR_ID_CORR_ID p) id
  let d2 := ({ d1 with corr := tput d1.corr p c }).updPrt p (fun x => { x with corrHold := x.corrHold || running })
  ((if running && d.get (F.HND_Pn_STAT_STATE p) == 0 then d2.put (F.HND_Pn_STAT_STATE p) 2 else d2).setFlag (F.BEAMn_TSTAT_NOGRID p)
    false).portBits p

/-- CORR_LOAD (R135). -/
def State.corrLoad (s : State) (port : Word) (addr : DWord) (len : Word) : State × Res × DWord :=
  if !(aligned16 addr) || decide (31 < port.toNat) then (s, .param, 0)
  else if !(s.dev.rigged) then (s, .unrigged, 0)
  else if s.dev.get F.BED_STAT_PHASE != 0 && s.dev.inService port.toNat then (s, .running, 0)
  else
    let r := s.imageRead addr.toNat (min len.toNat (64 + corrPayLen))
    match badCorrImage (r.1.dev.sections false) port.toNat r.2.1 len.toNat (!r.2.2) with
    | some o => ({ r.1 with dev := r.1.dev.raise 0x0303 (srcPort port.toNat) 2 port.toNat o (leAt r.2.1 0x14 4) }, .refused, 0)
    | none => ({ r.1 with dev := r.1.dev.corrAccept port.toNat r.2.1 }, .ok, 0)

/-- CORR_LOAD (R135). -/
def execCorrLoad (tag port : Word) (addr : DWord) (len : Word) (s : State) : Host.Outcome State Fault Refusal :=
  .next (s.command .load 0x40 tag (fun s => s.corrLoad port addr len))

/-! ## The chain (R127 to R132) -/

/-- Grid value of an axis (0 X, 1 Y) at p₂ in units of 2⁻³² bu; none outside the grid (R129). -/
def CorrImg.at_ (c : CorrImg) (axis : Nat) (x y : Int) : Option Word :=
  let node := fun (j i : Nat) => f32At c.payload (4 * (corrNodes * axis + 257 * j + i))
  let uv := fun (v base : Int) => frac (v - fixI base) (2 ^ 32 * max 1 c.pitch)
  bilerp node 256 (uv x c.x0) (uv y c.y0)

/-- KV or KA of an axis at a corrected code (R130): linear between the 64 points, held beyond the last. `which` is 0 for KV, 1 for
KA. -/
def CorrImg.ff (c : CorrImg) (axis which : Nat) (code : Word) : Word :=
  let pt := fun (k : Nat) => f32At c.payload (8 * corrNodes + 512 * axis + 8 * k + 4 * which)
  let t := f32Div (f32Add code 0x4B000000#32) 0x48800000#32
  if f32Le t (f32Zero false) then pt 0
  else
    let k := (f32Floor t).toNat
    if 63 ≤ k then pt 63
    else f32Add (pt k) (f32Mul (f32Sub (pt (k + 1)) (pt k)) (f32Sub t (f32OfInt k)))

/-- The corrected code with feed-forward (R130): the codes of the tick points before and after. -/
def CorrImg.withFf (c : CorrImg) (axis : Nat) (prev now next : Word) : Word :=
  let kv := c.ff axis 0 now
  let ka := c.ff axis 1 now
  f32Add (f32Add now (f32Div (f32Mul kv (f32Sub next prev)) (f32OfInt 2)))
    (f32Mul ka (f32Add (f32Sub next (f32Mul (f32OfInt 2) now)) prev))

/-- A command within the 24-bit signed range (R132). -/
def codeOf (x : Word) : Option Int :=
  if f32Finite x && decide (-8388608 ≤ f32ToInt x) && decide (f32ToInt x ≤ 8388607) then some (f32ToInt x) else none

/-- The conveyor offset of R128 in units of 2⁻³² bu; none where tracking stops the tick point. The spec gives no rounding of it: it is
rounded down to that unit (log entry 25). -/
def Dev.conveyor (d : Dev) (p : Nat) (hit : Option Word) : Option (Int × Int) :=
  if d.flag (F.BEAMn_TRACK_EN p) then
    let e := d.get (F.BEAMn_TRACK_ENC p)
    let l := d.sections false
    if encRole l e != 2 || d.flag (F.QEe_ERR_LOST e) then none
    else match hit with
      | none => some (0, 0)
      | some h =>
        let n := (d.getW (F.QEe_COUNT_COUNT e) - h).toInt
        let k := fracDiv (fracMul (fracI n) (fracI (100000 * 2 ^ 32))) (fracOfF32 (encCpm l e))
        some (fracFloor (fracMul k (fracOfF32 (d.getW (F.BEAMn_TRACK_DX_VAL p)))),
          fracFloor (fracMul k (fracOfF32 (d.getW (F.BEAMn_TRACK_DY_VAL p)))))
  else some (0, 0)

/-- p₂ of a nominal point (R127): conveyor and stitch added. -/
def Dev.p2 (d : Dev) (p : Nat) (x y : Int) (off : Int × Int) : Int × Int :=
  (x + off.1 + d.getI (F.BEAMn_STITCH_X_OFS p) * 2 ^ 24, y + off.2 + d.getI (F.BEAMn_STITCH_Y_OFS p) * 2 ^ 24)

/-- The corrected codes at p₂ (R129). -/
def Dev.corrected (d : Dev) (p : Nat) (x y : Int) : Option (Word × Word) :=
  match tfind d.corr p with
  | none => none
  | some c => match c.at_ 0 x y, c.at_ 1 x y with
    | some a, some b => some (a, b)
    | _, _ => none

/-- The Z command before its limits (R131). -/
def Dev.zCmd (d : Dev) (p : Nat) (x y f : Int) : Word :=
  let mm := fun (v : Int) (c : Fld) => f32OfFrac (v - fixI (d.getI c)) (2 ^ 32 * 100000)
  let dx := mm x (F.BEAMn_Z_CX_POS p)
  let dy := mm y (F.BEAMn_Z_CY_POS p)
  let r2 := f32Add (f32Mul dx dx) (f32Mul dy dy)
  f32Add (d.getW (F.BEAMn_Z_OFF_VAL p)) (f32Mul (d.getW (F.BEAMn_Z_GAIN_VAL p))
    (f32Add (f32OfFrac f (2 ^ 32)) (f32Mul (d.getW (F.BEAMn_Z_CURV_VAL p)) r2)))

/-- The Z command and whether it was clamped (R131); zero on a two-axis port. The rule gives Z no rounding and no value for a NaN: it is rounded
to nearest, ties to even, as X and Y are, and a NaN counts as clamped, to 0 (log entry 128). -/
def Dev.zCode (d : Dev) (p : Nat) (x y f : Int) : Int × Bool :=
  if threeAxes (d.sections false) p then
    let z := d.zCmd p x y f
    if f32IsNaN z then (0, true)
    else if f32Lt z codeLo then (-8388608, true)
    else if f32Lt codeHi z then (8388607, true)
    else (clampI (-8388608) 8388607 (f32ToInt z), false)
  else (0, false)

/-- A head command: X, Y and Z codes, whether Z was clamped, p₂, and the corrected codes. -/
structure Cmd3 where
  x : Int
  y : Int
  z : Int
  zc : Bool
  p2x : Int
  p2y : Int
  c : Word × Word
  deriving DecidableEq, Repr

/-- The command of a tick point (R127), given the codes of the tick point before and the nominal place of the one after; none where it
is out of field (R132). The code of the next point is formed with the conveyor offset of the present T-tick, and c[k] stands for it where
that point lies outside the grid (R130 gives neither; log entry 128). -/
def Dev.command3 (d : Dev) (p : Nat) (x y f : Int) (off : Int × Int) (prev : Option (Word × Word)) (next : Option (Int × Int)) :
    Option Cmd3 :=
  match tfind d.corr p with
  | none => none
  | some g =>
    let q := d.p2 p x y off
    match d.corrected p q.1 q.2 with
    | none => none
    | some c =>
      let c1 := (next.bind (fun n => d.corrected p (d.p2 p n.1 n.2 off).1 (d.p2 p n.1 n.2 off).2)).getD c
      let c0 := prev.getD c
      match codeOf (g.withFf 0 c0.1 c.1 c1.1), codeOf (g.withFf 1 c0.2 c.2 c1.2) with
      | some cx, some cy =>
        let z := d.zCode p q.1 q.2 f
        some ⟨cx, cy, z.1, z.2, q.1, q.2, c⟩
      | _, _ => none

/-! ## Frames (R146, R147, R157) -/

/-- A 24-bit field, most significant byte last as R10 orders bytes (log entry 26). -/
def le24 (v : Int) : List Byte := leBytes 3 (trunc 24 v)

/-- The outbound Stringline frame of nine command bytes (R147). -/
def slFrame (cmd : List Byte) (tick : Word) : List Byte :=
  let b := cmd ++ leBytes 1 tick.toNat
  b ++ [crc8 b]

/-- An XY2-100 axis word (R157). -/
def xy2Word (code : Int) : Nat := (clampI 0 65535 (fracRne (frac code 256) + 32768)).toNat

/-- The low n bits of a number, the highest first. -/
def msbBits (n v : Nat) : List Bool := (upTo n).map (fun i => bitAt v (n - 1 - i))

/-- What SLO_DATn carries in the 100 bit slots of a T-tick (R144, R147): a start bit, the bytes of the frame, each bit 7 first, and idle slots;
only idle slots where no frame is sent. -/
def slSlots (frame : List Byte) : List Bool :=
  let b := if frame.isEmpty then [] else true :: frame.flatMap (fun x => msbBits 8 x.toNat)
  b ++ List.replicate (100 - b.length) false

/-- The 20 bits of an XY2-100 frame of an axis word (R156): control bits 0b001, the word, and a parity bit that makes the number of ones
even. -/
def xy2Bits (w : Nat) : List Bool :=
  let b := [false, false, true] ++ msbBits 16 w
  b ++ [(b.filter (fun x => x)).length % 2 == 1]

/-- SYNC over the 20 bits of a frame (R156). -/
def xy2Sync : List Bool := List.replicate 19 true ++ [false]

/-- The bits of X and Y of the frame that port p sends, beside SYNC, from the last T-tick that is a multiple of 10 on (R156, R157). -/
def Prt.xy2Lines (x : Prt) : List Bool × List Bool := (xy2Bits x.xy2.1, xy2Bits x.xy2.2)

/-- What SLO_DATn of a Stringline port carries in this T-tick. -/
def Prt.sloDat (x : Prt) : List Bool := slSlots x.frame

end Sys2Proof.Machine
end

