-- ==== Sys2Proof/Machine/Path.lean ====
section
/-! DEFINITION. The first and the last T-tick of a path on an engine: boundaries (00_scope.md R16 to R19), loops (07_power_loops.md R198,
R199, R204), standby copies (09_handoff.md R268), the messages sent while it runs (R265, R268), the hit of a SYNC and the end of holds
(03_bed_data.md R73, 05_trajectory.md R121). -/

namespace Sys2Proof.Machine

/-! ## Loops at a path's first T-tick (R198, R199, R204) -/

/-- A LOOP payload comes into use: blocks that keep identifier and type keep their state, others start (R197, R199). -/
def LoopEng.takeLoop (l : LoopEng) (new : List Byte) : LoopEng :=
  if l.loop == new then l
  else
    let n : LoopEng := { l with loop := new }
    let keeps := fun (t : Nat) => match l.ofType t, n.ofType t with
      | some a, some b => a.id == b.id
      | _, _ => false
    { n with melt := if keeps 2 then l.melt else l.melt.start, src := if keeps 4 then l.src else l.src.start,
             mon := if keeps 8 then l.mon else none }

/-- The integrator of a block that is not lost returns to 0 (R198). -/
def LoopBlock.pathReset (b : LoopBlock) : LoopBlock := if b.lost then b else { b with i := f32Zero false, prevBank := none }

/-- The loop engine of port p at a path's first T-tick. -/
def Dev.loopPath (d : Dev) (p : Nat) (k : PKey) : Dev :=
  let pay := payOf (d.keySections k) 0x30 p
  let d1 := ((d.tablesLive p).ffLive p).updLoop p (fun l =>
    let l1 := l.takeLoop pay
    { l1 with melt := l1.melt.pathReset, src := l1.src.pathReset })
  if d1.flag (F.LOOPn_YY_CTRL_ARM p) && (d1.loopOfPort p).yy.isNone then d1.yoyoStart p else d1

/-! ## Standby copies (R268) -/

/-- A parameter set as its 128 bytes (R78). -/
def PSet.bytes (p : PSet) : List Byte :=
  leBytes 4 p.flags ++ leBytes 4 p.power.toNat ++ leBytes 4 p.markVel.toNat ++ leBytes 4 p.jumpVel.toNat ++ leBytes 4 p.accel.toNat ++
  leBytes 4 p.jerk.toNat ++ leBytes 2 (trunc 16 p.onDelay) ++ leBytes 2 (trunc 16 p.offDelay) ++ leBytes 2 p.settle ++
  leBytes 2 p.skyLead ++ leBytes 4 p.cool ++ leBytes 4 p.mpSet.toNat ++ leBytes 4 p.lineCap.toNat ++ leBytes 2 p.ffMap ++
  leBytes 1 p.gainBank ++ p.rest

/-- The 16 bytes of segment i of a path of this device's own bed. -/
def Dev.segRaw (d : Dev) (m : Dram) (k : PKey) (i : Nat) : List Byte :=
  match k with
  | .bed n _ _ => m.readBytes (d.segAddr n i) 16
  | .inc x => ((tfind d.hnd.inc x).bind (fun h => tfind h.segs i)).getD []

/-- The sets that the segments from `a`, n of them, name, in order of index. -/
def Dev.setsNamed (d : Dev) (m : Dram) (k : PKey) (a n : Nat) : List Nat :=
  let used := (upTo n).filterMap (fun j => match d.segOf m k (a + j) with
    | .ok s => some s.pset
    | _ => none)
  (upTo 4096).filter (fun i => used.contains i)

/-- A message body of records (R305, HO_DATA and HO_STBY): kind, count, index of the first. -/
def hoBody (xid kind first : Nat) (recs : List (List Byte)) : List Byte :=
  leBytes 4 xid ++ leBytes 1 kind ++ leBytes 1 recs.length ++ leBytes 2 0 ++ leBytes 4 first ++ leBytes 4 0 ++ recs.flatten

/-- Segment records sent as messages of 62 (R305). -/
def Dev.sendSegs (d : Dev) (m : Dram) (type node xid : Nat) (k : PKey) : Nat → Nat → Nat → Dev
  | 0, _, _ => d
  | fuel + 1, a, n =>
    if n == 0 then d
    else
      let c := min 62 n
      (d.send type node (hoBody xid 0 a ((upTo c).map (fun j => d.segRaw m k (a + j))))).sendSegs m type node xid k fuel (a + c) (n - c)

/-- Parameter sets sent as messages of one set each. -/
def Dev.sendSets (d : Dev) (m : Dram) (type node xid : Nat) (k : PKey) (a n : Nat) : Dev :=
  (d.setsNamed m k a n).foldl (fun d i => match d.setOf k i with
    | .ok p => d.send type node (hoBody xid 1 i [p.bytes])
    | .fail _ => d) d

/-- The node that keeps a standby copy of a path: that of its first cover on another node. -/
def Dev.stbyNode (d : Dev) (k : PKey) : Option Nat :=
  ((d.coversFor k).find? (fun c => !(d.coverHere k c))).map (·.1)

/-- A path of this device starts: its standby copy is sent (R268). -/
def Dev.stbyStart (d : Dev) (m : Dram) (p : Nat) (k : PKey) : Dev :=
  match k, d.path? k, d.stbyNode k with
  | .bed _ _ _, some path, some node =>
    let lead := match d.tileRec k with
      | some r => r.lead
      | none => p
    if 65536 < path.count then d.raise 0x0613 0x04 2 (pair8 node lead) (d.tileNo k) 2
    else
      let xid := xidOf (nodeOf d.rig.live) d.hnd.nextStby
      let hdr := leBytes 4 xid ++ leBytes 1 2 ++ leBytes 1 1 ++ leBytes 2 0 ++ leBytes 4 0 ++ leBytes 4 0 ++ leBytes 4 (d.keyBedNo k) ++
        leBytes 2 (d.tileNo k) ++ leBytes 1 lead ++ leBytes 1 0 ++ leBytes 4 path.first ++ leBytes 4 path.count ++ leBox path.box
      let d1 := { d with hnd := { d.hnd with nextStby := d.hnd.nextStby + 1, stbyOut := tput d.hnd.stbyOut xid ⟨node, k⟩ } }
      ((d1.send 0x18 node hdr).sendSegs m 0x18 node xid k (path.count + 1) path.first path.count).sendSets m 0x18 node xid k path.first
        path.count
  | _, _, _ => d

/-! ## Messages while a path runs (R265, R268, R304) -/

/-- Every 8 T-ticks of a path: HO_MARK to its standby node, HO_PROG to the owner of a remainder. The edge die silent, no HO_MARK is
sent (R269). -/
def Dev.runReports (d : Dev) (r : Run) : Dev :=
  if r.k == 0 || r.k % 8 != 0 then d
  else match d.path? r.key with
    | none => d
    | some path =>
      let c := r.resumePt path
      let d1 := if d.sys.ctrlSilent then d
        else (d.hnd.stbyOut.filter (fun (x : Nat × StbyOut) => decide (x.2.key = r.key))).foldl (fun d x =>
          d.send 0x19 x.2.node (leBytes 4 x.1 ++ leBytes 4 c.seg ++ leBytes 4 c.cnt ++ lePt c.x c.y ++
            leBytes 4 (match r.hit with
              | some h => h.1.toNat
              | none => 0) ++ leBytes 1 (b2n r.hit.isSome))) d
      match r.key with
      | .inc x => match tfind d1.hnd.inc x with
        | some h => if h.orphan || r.conf.isNone then d1
          else d1.send 0x14 h.node (leBytes 4 x ++ leBytes 4 c.seg ++ leBytes 4 c.cnt ++ lePt c.x c.y)
        | none => d1
      | .bed _ _ _ => d1

/-! ## The first T-tick -/

/-- HOLDOUT becomes live on port p: the paths dealt and not started return, and a takeover that waits for it moves on (R246, R259). -/
def Dev.holdLive (d : Dev) (m : Dram) (p : Nat) : Dev := (d.returnQueue p).coverGone m p

/-- The boundaries that port p passes as it starts a path (R16): a tile boundary where the tile changes. A path's end passes none by
itself: a value still in its shadow then waits for the port's next path (log entry 113). -/
def Dev.pathBoundaries (d : Dev) (m : Dram) (p : Nat) (k : PKey) : Dev :=
  let held := d.flag (F.HND_Pn_CTRL_HOLDOUT p)
  let d1 := if (d.engOf p).tile == k.tile then d.boundary p .path d.runningPorts
    else (d.boundary p .tile d.runningPorts).tileBoundary p k.tile
  if !held && d1.flag (F.HND_Pn_CTRL_HOLDOUT p) then d1.holdLive m p else d1

/-- HOLDOUT of port p is written to 1 and becomes live at the port's next boundary. -/
def Dev.holdComes (d : Dev) (p : Nat) : Bool := d.shadow.any (fun e => decide (e.fld = F.HND_Pn_CTRL_HOLDOUT p) && e.value == 1)

/-- Port p starts a path: boundaries, loops, the run, its standby copy. -/
def Dev.startPath (d : Dev) (m : Dram) (p : Nat) (k : PKey) (taking : Bool) : Dev :=
  let d1 := (d.pathBoundaries m p k).updEng p (fun e => { e with prevC := none })
  let d2 := d1.beginRun m p k taking
  match d2.runOf p with
  | none => d2.portBits p
  | some _ => ((d2.loopPath p k).stbyStart m p k).portBits p

/-- The engine of port p holds the segment with which a path dealt to it goes on. -/
def Dev.startReady (d : Dev) (m : Dram) (k : PKey) : Bool :=
  match d.path? k with
  | some q => d.segReady m k q.nextSeg
  | none => false

/-- The next path dealt to port p starts in this T-tick, if nothing runs on it, it is in service, no takeover waits for it, and the path's
segments have come into its prefetch queue. Where HOLDOUT becomes live at this boundary, what was dealt to it returns instead (R246,
R259). -/
def Dev.startNext (d : Dev) (m : Dram) (p : Nat) : Dev :=
  match d.runOf p, (d.engOf p).queue with
  | none, k :: t =>
    if d.inService p && (d.tkoFor p).isNone && d.startReady m k then
      if d.holdComes p then (d.boundary p .path d.runningPorts).holdLive m p
      else (d.updEng p (fun e => { e with queue := t })).startPath m p k false
    else d
  | _, _ => d

/-! ## The last T-tick -/

/-- A takeover whose path has ended is over. -/
def Dev.tkoEnded (d : Dev) (k : PKey) : Dev :=
  match d.tkoOf k with
  | some i => d.dropTko i
  | none => d

/-- The path on port p ends (R117), whole or with its EXPOSE segments from `lost` on not exposed. -/
def Dev.finishRun (d : Dev) (m : Dram) (p : Nat) (lost : Option Nat) (reason : Nat) : Dev :=
  match d.runOf p with
  | none => d
  | some r =>
    (((d.endRun m p lost reason).tkoEnded r.key).updPrt p (fun x =>
      { x with edges := [(0, x.gate && lost.isNone), (0, false)], gate := false })).portBits p

/-! ## SYNC and holds (R73, R121) -/

/-- n_hit of port p at a hit of compare unit k with this count (R128): the count of the encoder that BEAMn_TRACK.ENC names. -/
def Dev.hitCount (d : Dev) (p k : Nat) (count : Word) : Word :=
  let e := d.get (F.BEAMn_TRACK_ENC p)
  if d.get (F.QE_CMPk_CTRL_SRC k) == e then count else BitVec.ofNat 32 (d.get (F.QEe_COUNT_COUNT e))

/-- A hit of compare unit k at a count: every engine that holds at a SYNC naming it goes on with the next T-tick. -/
def Dev.syncHit (d : Dev) (m : Dram) (k : Nat) (count : Word) : Dev :=
  d.runningPorts.foldl (fun d p => match d.runOf p with
    | none => d
    | some r => match r.moveAt? r.k with
      | none => d
      | some mv =>
        if decide (mv.kind = .sync) && (match d.segOf m r.key mv.seg with
            | .ok s => s.isSync && s.aux % 8 == k
            | _ => false) then
          let t := fracI (r.k + 1)
          d.updRun p (fun r => { r with
            hit := some (d.hitCount p k count, mv.seg), planT := t,
            moves := r.moves.map (fun (x : Move) => if decide (x.kind = .sync) then { x with kind := .hold, dt := fracSub t x.t0 } else x) })
        else d) d

/-- SYNC_TIMEOUT (R73): once VEL × 10 T-ticks have passed from the SYNC's first one (R121), the rest of the path is skipped. -/
def Dev.syncTimeout (d : Dev) (m : Dram) (p : Nat) : Dev :=
  match d.runOf p with
  | none => d
  | some r => match r.moveAt? r.k with
    | none => d
    | some mv =>
      match decide (mv.kind = .sync), d.segOf m r.key mv.seg with
      | true, .ok s =>
        if s.vel == 0 || decide (r.k < snapF mv.t0 + 10 * s.vel) then d
        else ((d.tileFlag r.key 11).raiseSeg (d.segTag m r.key mv.seg) 0x0229 0x03 2 (d.tileNo r.key + 65536 * p) mv.seg (r.last - mv.seg)).finishRun m p (some mv.seg) 1
      | _, _ => d

/-- SYNC_TIMEOUT (R73). -/
def execSyncTimeout (p : Port) (s : State) : Host.Outcome State Fault Refusal :=
  .next (s.runDev (fun d m => d.syncTimeout m p.val))

/-- HOLD_END (R121, R122): a hold or settle that is over by the next T-tick is left, and the state of the beam is that of what
follows. -/
def Dev.holdEnd (d : Dev) (p : Nat) : Dev :=
  match d.runOf p with
  | none => d
  | some r => match r.moveAt? r.k with
    | none => d
    | some mv =>
      if (decide (mv.kind = .hold) || decide (mv.kind = .settle)) && fracLe (fracAdd mv.t0 mv.dt) (fracI (r.k + 1)) then
        (d.updRun p (fun r => r.trim (r.k + 1))).portBits p
      else d

/-- HOLD_END (R121). -/
def execHoldEnd (p : Port) (s : State) : Host.Outcome State Fault Refusal := .next (s.onDev (fun d => d.holdEnd p.val))

/-- TAKEOVER_START (R247, R252) with what starting a path brings. Where HOLDOUT becomes live at this boundary, the takeover moves on instead
(R259). -/
def Dev.takeoverBegin (d0 : Dev) (m : Dram) (p : Nat) : Dev :=
  let d := d0.prefetch m p
  match (d.tkoFor p).bind (fun i => tfind d.hnd.tko i) with
  | none => d
  | some t =>
    if (d.runOf p).isSome || !(d.inService p) || !(d.segReady m t.key t.rp.seg) then d
    else if d.holdComes p then (d.boundary p .path d.runningPorts).holdLive m p
    else
      let d1 := ((d.pathBoundaries m p t.key).updEng p (fun e => { e with prevC := none })).takeoverStart m p
      match d1.runOf p with
      | some _ => ((d1.loopPath p t.key).stbyStart m p t.key).portBits p
      | none => d1.portBits p

/-- TAKEOVER_START (R252). -/
def execTakeoverStart (p : Port) (s : State) : Host.Outcome State Fault Refusal :=
  .next (s.runDev (fun d m => d.takeoverBegin m p.val))

end Sys2Proof.Machine
end

