-- ==== Sys2Proof/Machine/Traj.lean ====
section
/-! DEFINITION. The T-tick (05_trajectory.md R117 to R132, 06_beam_ports.md R147, R157): every engine produces its tick point, its gate
edges and its frame; observers sweep (08_sensing_calibration.md R225) and calibrated values slew (R217, R229). -/

namespace Sys2Proof.Machine

/-! ## Frames and histories -/

/-- The command bytes that port p repeats: those of its last frame, or the actual position where it has sent none. -/
def Dev.lastCmd (d : Dev) (p : Nat) : List Byte :=
  let x := d.prtOf p
  if 9 ≤ x.frame.length then x.frame.take 9 else le24 x.actX ++ le24 x.actY ++ le24 x.actZ

/-- Port p sends its frame of this T-tick (R147, R151, R157): its command where it is UP, the actual position last reported in
MEASURE, nothing otherwise; an XY2-100 port every 10 T-ticks. -/
def Dev.sendFrame (d : Dev) (p : Nat) (cmd : List Byte) (codes : Option (Int × Int)) : Dev :=
  if d.xy2 p then
    match codes with
    | some c => if d.tick.toNat % 10 == 0 then d.updPrt p (fun x => { x with xy2 := (xy2Word c.1, xy2Word c.2) }) else d
    | none => d
  else
    let link := d.get (F.BEAMn_PSTAT_LINK p)
    let x := d.prtOf p
    if link == 4 then d.updPrt p (fun x => { x with frame := slFrame cmd d.tick })
    else if link == 3 then d.updPrt p (fun y => { y with frame := slFrame (le24 x.actX ++ le24 x.actY ++ le24 x.actZ) d.tick })
    else d.updPrt p (fun x => { x with frame := [] })

/-- The tick points kept: for the confirmations of R137 and the delay of R177. -/
def histLen : Nat := 320

/-- A tick point joins the history. -/
def Dev.pushTick (d : Dev) (p : Nat) (t : TickPt) : Dev :=
  d.updEng p (fun e => { e with hist := (t :: e.hist).take histLen, x := t.x, y := t.y, f := t.f })

/-- A frame of port p leaves in this T-tick. -/
def Dev.sendsNow (d : Dev) (p : Nat) : Bool :=
  if d.xy2 p then d.tick.toNat % 10 == 0 else d.get (F.BEAMn_PSTAT_LINK p) == 4

/-- The X and Y codes that port p's frame of this T-tick carries; without a frame, the given ones (R137). -/
def Dev.sentCodes (d : Dev) (p : Nat) (other : Int × Int) : Int × Int :=
  let f := (d.prtOf p).frame
  if f.isEmpty then other else (sext 24 (leAt f 0 3), sext 24 (leAt f 3 3))

/-- An engine without a path repeats its last tick point, laser off, and its port the last command (R117). -/
def Dev.idleTick (d : Dev) (p : Nat) : Dev :=
  let e := d.engOf p
  let last := e.hist.head?
  let d1 := d.sendFrame p (d.lastCmd p) (last.map (fun l => (l.cx, l.cy)))
  let c := d1.sentCodes p ((last.map (·.cx)).getD 0, (last.map (·.cy)).getD 0)
  let t : TickPt :=
    { tick := d.tick, seg := 0, cnt := 0, x := e.x, y := e.y, f := e.f, p2x := e.x, p2y := e.y, cx := c.1, cy := c.2, v := f32Zero false,
      q := none, key := none, hold := 0, sent := d.sendsNow p }
  (d1.pushTick p t).updPrt p (fun x => { x with edges := [(0, x.gate)] })

/-! ## The gate (R125) -/

/-- The gate edges of port p in this T-tick. -/
def Dev.gateTick (d : Dev) (p : Nat) : Dev :=
  match d.runOf p with
  | none => d
  | some r =>
    let k : Int := (r.k : Int) * 100
    let due := r.edges.filter (fun e => decide (e.at_ < k + 100))
    let opened := (due.filter (fun e => e.opens)).getLast?
    let d1 := d.updRun p (fun r => { r with
      edges := r.edges.filter (fun e => !(decide (e.at_ < k + 100)))
      openSeg := match opened with
        | some e => some e.seg
        | none => r.openSeg })
    d1.updPrt p (fun x => { x with
      edges := (0, x.gate) :: due.map (fun e => ((e.at_ - k).toNat, e.opens))
      gate := match due.getLast? with
        | some e => e.opens
        | none => x.gate })

/-! ## The tick point of a running path (R117, R127, R132) -/

/-- The velocity of a tick point in mm/s (R177). -/
def tickVel (dx dy : Int) : Word := f32OfFr (fracMul (hypotI dx dy) (frac 10 (2 ^ 32)))

/-- A tick point is out of field (R132): the previous command is repeated, the laser is blanked, the path ends there. Its point is given as
P3 (X) and beside the record (Y), in bu (log entry 120). -/
def Dev.outOfField (d : Dev) (m : Dram) (p seg : Nat) (x y : Int) (k : PKey) : Dev :=
  let bu := fun (v : Int) => (v + 2 ^ 31) / 2 ^ 32
  let d1 := (((d.blankPort p).setFlag (F.BEAMn_TSTAT_OOF p) true).bump (F.BEAMn_OOF_COUNT p)).raiseSeg (d.segTag m k seg) 0x0300 (srcPort p) 3
    (d.tileNo k) seg (trunc 32 (bu x)) (some (bu y))
  (d1.finishRun m p (some seg) 1).idleTick p

/-- On an XY2-100 port a tick point counts as confirmed when its command is sent (R141). -/
def Dev.confirmSent (d : Dev) (p : Nat) (t : TickPt) : Dev := if d.xy2 p && t.sent then d.confirmPt p t else d

/-- The sample of a run at a path T-tick; at the planned end where nothing is planned. -/
def Run.sampleAt (r : Run) (k bits : Nat) : Sample :=
  match r.moveAt? k with
  | some mv => mv.sample k bits
  | none => { x := r.px, y := r.py, f := fixI r.bf, on := false, seg := r.next, cnt := 0, hold := 0 }

/-- Path T-tick k lies on the approach to the resume point, the settle there included (R122, R247). -/
def Run.approaching (r : Run) (k : Nat) : Bool :=
  match r.resume, r.moveAt? k with
  | some rp, some mv => fracLt (fracI k) r.reach || (decide (mv.kind = .settle) && mv.seg == rp.seg)
  | _, _ => false

/-- Port p's path produces tick point s (R117, R127). -/
def Dev.tickPoint (d : Dev) (m : Dram) (p : Nat) (r : Run) (s : Sample) (next : Option (Int × Int)) : Dev :=
  let e := d.engOf p
  match (d.conveyor p (r.hit.map (·.1))).bind (fun off => d.command3 p s.x s.y s.f off e.prevC next) with
  | none => d.outOfField m p s.seg s.x s.y r.key
  | some c =>
    let d1 := if c.zc then d.setFlag (F.BEAMn_TSTAT_ZCLAMP p) true else d
    let d2 := d1.sendFrame p (le24 c.x ++ le24 c.y ++ le24 c.z) (some (c.x, c.y))
    let sent := d2.sentCodes p (c.x, c.y)
    let t : TickPt :=
      { tick := d.tick, seg := s.seg, cnt := s.cnt, x := s.x, y := s.y, f := s.f, p2x := c.p2x, p2y := c.p2y, cx := sent.1, cy := sent.2,
        v := tickVel (s.x - e.x) (s.y - e.y), q := if s.on then d.pwrQ m r.key s.seg else none, key := some r.key, hold := s.hold,
        sent := d.sendsNow p, appr := r.approaching r.k }
    let d3 := ((d2.pushTick p t).updEng p (fun e => { e with prevC := some c.c })).confirmSent p t
    (d3.gateTick p).runReports { r with conf := (d3.runOf p).bind (·.conf) }

/-- A remainder reaches its resume point when the moves of its approach are over (R247). -/
def Run.reached (r : Run) : Bool := fracLe r.reach (fracI r.k)

/-- The running path of port p is handed off where its shed level asks for it (R258): at the end of a segment, or at level 3 in every
T-tick until a cover can take it. -/
def Dev.shedTick (d : Dev) (m : Dram) (p : Nat) (r : Run) (ended : Option Nat) : Dev :=
  let e := d.engOf p
  if !r.shed then d
  else if d.get (F.HND_Pn_STAT_SHED p) == 3 then
    (match d.path? r.key with
     | some path => d.shedHand m p (d.resumeAt p r path d.tick)
     | none => d)
  else match ended with
    | some q => (d.updRun p (fun r => { r with shed := false })).shedHand m p ⟨q + 1, 0, e.x, e.y, e.f, 0, r.hit⟩
    | none => d

/-- A run in this T-tick: the end of a yielded segment (R251) or of one after which the path is handed off (R258), the boundary of a segment, arrival, the tick point. -/
def Dev.runTick (d : Dev) (m : Dram) (p : Nat) (r : Run) : Dev :=
  let d0 := d.free.2
  let bits := d.free.1
  let s := r.sampleAt r.k bits
  let prev := match (d0.engOf p).hist with
    | t :: _ => if t.key == some r.key then some t.seg else none
    | [] => none
  let ended := match prev with
    | some q => if q != s.seg && !(r.approaching r.k) then some q else none
    | none => none
  if ended.isSome && r.yield then (d0.yieldPath m p (ended.getD 0)).idleTick p
  else
    let ds := d0.shedTick m p r ended
    if (ds.runOf p).isNone then ds.idleTick p
    else
      let d1 := if ended.isSome then ds.boundary p .seg ds.runningPorts else ds
      let d2 := if prev == some s.seg then d1 else d1.noteTag m r.key s.seg
      let d3 := if r.taking && !r.arrived && r.reached then d2.arrive p else d2
      let last := r.planned && decide (snapF r.planT ≤ r.k)
      let n := r.sampleAt (r.k + 1) (bits / 8)
      d3.tickPoint m p r s (if last then none else some (n.x, n.y))

/-! ## Observations (R225) -/

/-- An observer's sweep ends after 33 T-ticks: its values join the accumulators unless it is discarded. -/
def SpotObs.roll (o : SpotObs) : SpotObs :=
  if o.k % 33 == 0 && decide (o.sweeps < o.k / 33) then
    { o with sweeps := o.sweeps + 1, bad := false, sweep := List.replicate 33 (f32Zero false),
             acc := if o.bad then o.acc else (o.acc.zip o.sweep).map (fun (x : Word × Word) => f32Add x.1 x.2) }
  else o

/-- T-ticks of an observation. -/
def obsTicks : Nat := 1056

/-- Where an observer's command points: the parent's nominal tick point of the T-tick before, offset along the left normal of its
segment (R225). -/
def Dev.spotPoint (d : Dev) (o : SpotObs) (t : TickPt) : Int × Int :=
  let off := fracI (((o.k % 33 : Nat) - 16 : Int) * d.get F.SNS_SPOT_STEP_STEP)
  let len := hypotI o.dx o.dy
  (t.x + alongF (-o.dy) len off, t.y + alongF o.dx len off)

/-- The parent's nominal tick point of this T-tick, if it lies in the observed segment: the one that the observer commands next. -/
def Dev.parentNow (d : Dev) (o : SpotObs) : Option TickPt :=
  match (d.engOf o.parent).hist.find? (fun t => t.tick == d.tick) with
  | some t => if t.key == some o.key && t.seg == o.seg then some t else none
  | none => (d.runOf o.parent).bind (fun r =>
      let s := r.sampleAt (d.tick - r.startTick).toNat 0
      if r.key == o.key && s.seg == o.seg then
        (d.engOf o.parent).hist.head?.map (fun t => { t with x := s.x, y := s.y }) else none)

/-- The observation has commanded nothing yet, and its stroke is still to come. -/
def Dev.strokeAhead (d : Dev) (o : SpotObs) : Bool :=
  o.k == 0 && (match d.runOf o.parent with
    | none => false
    | some r => r.key == o.key && r.moves.any (fun x => decide (x.kind = .expose) && x.seg == o.seg &&
        decide ((d.tick - r.startTick).toNat ≤ snapF x.t0)))

/-- Port p observes in this T-tick; the observation ends without result where its parent's segment has ended or is blanked,
or a port has left service (R229). -/
def Dev.spotTick (d : Dev) (p : Nat) (o0 : SpotObs) : Dev :=
  let o := o0.roll
  let d0 := { d with sns := { d.sns with obs := tput d.sns.obs p o } }
  if obsTicks ≤ o.k then d0.idleTick p
  else if !(d.inService p) || !(d.inService o.parent) || (d.prtOf o.parent).blank then (d0.spotStop p).idleTick p
  else match (d.engOf o.parent).hist.find? (fun t => t.tick == d.tick - 1 && t.key == some o.key && t.seg == o.seg) with
    | none => if d.strokeAhead o then d0.idleTick p else (d0.spotStop p).idleTick p
    | some t =>
      let q := d.spotPoint o t
      let next := (d.parentNow o).bind (fun u => if o.k + 1 < obsTicks then some (d.spotPoint { o with k := o.k + 1 } u) else none)
      let d1 := { d0 with sns := { d0.sns with obs := tput d0.sns.obs p { o with k := o.k + 1 } } }
      match d1.command3 p q.1 q.2 t.f (0, 0) (if o.k == 0 then none else (d1.engOf p).prevC) next with
      | none => d1.idleTick p
      | some c =>
        let e := d1.engOf p
        let tp : TickPt :=
          { tick := d.tick, seg := 0, cnt := 0, x := q.1, y := q.2, f := t.f, p2x := c.p2x, p2y := c.p2y, cx := c.x, cy := c.y,
            v := tickVel (q.1 - e.x) (q.2 - e.y), q := none, key := none, hold := 0, sent := d.sendsNow p }
        ((d1.sendFrame p (le24 c.x ++ le24 c.y ++ le24 c.z) (some (c.x, c.y))).pushTick p tp).updEng p
          (fun e => { e with prevC := some c.c })

/-! ## One port -/

/-- An engine without a running path: an observer sweeps, every other one repeats its last tick point. -/
def Dev.restTick (d : Dev) (p : Nat) : Dev :=
  match tfind d.sns.obs p with
  | some o => d.spotTick p o
  | none => d.idleTick p

/-- Port p in a T-tick after a path may have started: planning ahead, then the tick point. -/
def Dev.liveTick (d : Dev) (m : Dram) (p : Nat) : Dev :=
  match d.runOf p with
  | none => d.restTick p
  | some r =>
    let d1 := if r.intr.isSome then d else (d.planPort m p).pairLoose p
    match d1.runOf p with
    | none => d1.restTick p
    | some r1 => d1.runTick m p r1

/-- Port p in a T-tick (R117): the last T-tick of a path is the first one at or after its end and holds its end point (R118, R125;
log entry 22); with the next T-tick it leaves its engine and another may start. -/
def Dev.portTTick (d : Dev) (m : Dram) (p : Nat) : Dev :=
  if d.flag (F.BEAMn_PSTAT_ATTACHED p) then
    let d1 := d.updRun p (fun r => (({ r with k := (d.tick - r.startTick).toNat }) : Run).trim (d.tick - r.startTick).toNat)
    let d2 := match d1.runOf p with
      | none => d1
      | some r => if r.planned && decide (snapF r.planT < r.k) then d1.finishRun m p none 1 else d1
    ((((d2.prefetch m p).startNext m p).liveTick m p)).portBits p
  else ((d.updEng p (fun e => { e with pre := [] })).idleTick p).portBits p

/-! ## Slews (R217, R229) -/

/-- Length of a stitch slew from its start to its target, and where it stands after n steps of 5/256 bu (R229). -/
def stitchAt (x0 y0 x1 y1 : Int) (n : Nat) : Int × Int :=
  let len := hypotI (x1 - x0) (y1 - y0)
  let s := fracI (5 * n : Nat)
  if fracLe len s then (x1, y1)
  else
    let part := fun (v : Int) =>
      let q := fracDiv (fracMul (fracI v) s) len
      if v < 0 then fracCeil q else fracFloor q
    (x0 + part (x1 - x0), y0 + part (y1 - y0))

/-- The applied stitch of port p in this T-tick: it steps every second T-tick. -/
def Dev.stitchStep (d : Dev) (p : Nat) (s : SpotPort) : Dev :=
  match s.slew with
  | none => d
  | some (x0, y0) =>
    let n := (elapsed32 d.tick s.slewAt) / 2
    let q := stitchAt x0 y0 (d.getI (F.SNS_Pn_TGT_X_VAL p)) (d.getI (F.SNS_Pn_TGT_Y_VAL p)) n
    (d.putI (F.BEAMn_STITCH_X_OFS p) q.1).putI (F.BEAMn_STITCH_Y_OFS p) q.2

/-- Every slew in a T-tick. -/
def Dev.allSlews (d : Dev) : Dev := d.sns.spots.foldl (fun d (x : Nat × SpotPort) => d.stitchStep x.1 x.2) d.slewAll

/-! ## The T-tick -/

/-- THM_Pn_STAT.BLIND_S of every blind beam whose limit runs (13_thermal.md R351). -/
def Dev.blindShow (d : Dev) : Dev :=
  d.thm.beams.foldl (fun d (x : Nat × ThmBeam) => match x.2.blindAt with
    | some t => d.put (F.THM_Pn_STAT_BLIND_S x.1) (min 60 ((elapsed64 d.time t) / 1000000000))
    | none => d) d

/-- The T-tick strobe rises where PINS assigns one (R55); how long it stays high within the T-tick is a free value. -/
def Dev.tickStrobe (d : Dev) : Dev :=
  match pinWith (d.sections false) 0x31 with
  | none => d
  | some _ => d.free.2.pulse 0x31 (d.free.1 % 1000)

/-- A step of internal time by `by_` ns, decided since the last T-tick (R313): the root floods TIME; a remainder is slewed out. -/
def Dev.timeStep (d : Dev) (by_ : Int) : Dev :=
  let old := d.time
  let r := (by_ + 500) % 1000 - 500
  let d1 := { d with time := d.time + BitVec.ofInt 64 by_, ptp := { d.ptp with rem := r } }
  let d2 := ((d1.raise 0x0723 0x08 2 (old.toNat / 2 ^ 32) old.toNat (trunc 32 by_)).setFlag F.PTP_STAT_STEPPED true).setFlag
    F.PTP_STAT_TIME_VALID true
  let d3 := if d.get F.GLK_STAT_ROLE == 1 then d2.sendTime true else d2
  if r == 0 then d3.setFlag F.PTP_STAT_PHASE_SLEW false
  else (d3.setFlag F.PTP_STAT_PHASE_SLEW true).raise 0x0725 0x08 1 (trunc 32 r) (d.get F.PTP_SLEW_MAX_PPB) d.tick.toNat

/-- A step that waits is taken at this T-tick (R313). -/
def Dev.stepTime (d : Dev) : Dev :=
  match d.ptp.step with
  | some o => { d with ptp := { d.ptp with step := none } }.timeStep (-o)
  | none => d

/-- The marker bytes of R301 that port p sends: the launch offset, up to 41/16 ns, is a free value. -/
def Dev.markerBytes (d : Dev) (off : Nat) : List Byte :=
  let role := d.get F.GLK_STAT_ROLE
  let up := (d.glk.up.bind (fun p => (d.glkPort p).mark)).map (·.1)
  let valid := match up with
    | some m => m.timeValid
    | none => d.flag F.PTP_STAT_TIME_VALID
  let compat := match up with
    | some m => m.compat
    | none => d.flag F.PTP_CTRL_COMPAT
  let hold := match up with
    | some m => m.holdover
    | none => d.get F.PTP_STAT_STATE == 3
  leBytes 4 d.tick.toNat ++ leBytes 1 (d.glk.root.getD d.node + 64 * b2n valid + 128 * b2n compat) ++
    leBytes 1 (d.get F.GLK_STAT_HOPS + 64 * b2n hold + 128 * b2n (role == 0 || role == 3)) ++ leBytes 1 (off % 42)

/-- Every port that is not DOWN or DISABLED sends a marker pair (R301). -/
def Dev.sendMarkers (d : Dev) : Dev :=
  (upTo 4).foldl (fun d p =>
    if d.get (F.GLKp_STAT_STATE p) == 0 || d.get (F.GLKp_STAT_STATE p) == 6 then d
    else
      let f := d.free
      { f.2 with glk := { f.2.glk with marks := tput f.2.glk.marks p (d.markerBytes f.1) } })
    { d with glk := { d.glk with marks := [] } }

/-- T_TICK: time moves to the next T-tick edge; then every port of the live FABRIC, in order. -/
def Dev.tTick (d : Dev) (m : Dram) : Dev :=
  let d1 := { d with tick := d.tick + 1, time := d.time + 1000, sub := 0, glk := { d.glk with tx := [], fwd := [] }, ptp := { d.ptp with sent := [] } }
  (portsInUse (d1.sections false)).foldl (fun d p => d.portTTick m p) d1.stepTime.sendMarkers.tickStrobe.allSlews.blindShow.lossCheck

/-- T_TICK (R117). -/
def execTTick (s : State) : Host.Outcome State Fault Refusal := .next (s.runDev (fun d m => d.tTick m))

end Sys2Proof.Machine
end

