-- ==== Sys2Proof/Machine/Calib.lean ====
section
/-! DEFINITION. Power-up calibration and the calibration store (08_sensing_calibration.md R214 to R219). -/

namespace Sys2Proof.Machine

/-- Item code, index and range of a calibration item. The spec numbers neither (log entry 20). -/
def calCode : CalItem → Nat × Nat × Nat
  | .pdOffset c r => (1, c.val, r.val)
  | .pdGain c r => (2, c.val, r.val)
  | .dacLin p => (3, p.val, 0)
  | .tempFe t => (4, t.val, 0)
  | .strLat p => (5, p.val, 0)
  | .skew p => (6, p.val, 0)

/-- Item and index as one event parameter. -/
def calParam (i : CalItem) : Nat := (calCode i).1 + 256 * (calCode i).2.1 + 65536 * (calCode i).2.2

/-- A measured value as a fraction. -/
def measVal (m : Meas) : Frac := frac m.num (max 1 m.den)

/-- The repeat tolerance of an item (R215): 8 codes, 0.2 %, 0.05 % of full scale, 0.25 °C, 0 T-ticks, 0.5 ns. -/
def calTol : CalItem → Frac
  | .pdOffset _ _ => fracI 8
  | .pdGain _ _ => frac 2 1000
  | .dacLin _ => frac 5 10000
  | .tempFe _ => frac 1 4
  | .strLat _ => fracI 0
  | .skew _ => frac 1 2

/-- The difference of two measurements (R216): the largest at any point. -/
def calDiff (a b : List Meas) : Frac := (a.zip b).foldl (fun m (x : Meas × Meas) => fracMax m (fracAbs (fracSub (measVal x.1) (measVal x.2)))) (fracI 0)

/-- Two measurements of an item agree (R215, R216). -/
def calAgree (i : CalItem) (a b : List Meas) : Bool := a.length == b.length && fracLe (calDiff a b) (calTol i)

/-- The codes at which DAC linearity is measured (R215). -/
def dacCodes : List Int := dacStraight

/-- The code at which a measured curve reaches an output, both in 1/65,535 of full scale: linear between the measured points, the first
stretch that reaches it; the end codes beyond the curve. -/
def dacInvert (out : Frac) : List (Int × Frac) → Int
  | (x0, y0) :: (x1, y1) :: t =>
    if fracLe out y0 then x0
    else if fracLe out y1 then fracRne (fracAdd (fracI x0) (fracMul (fracDiv (fracSub out y0) (fracSub y1 y0)) (fracI (x1 - x0))))
    else dacInvert out ((x1, y1) :: t)
  | (x0, _) :: [] => x0
  | [] => 0

/-- The correction table of R218 from the outputs looped back at the 17 codes: at each of these power words the code that gives its nominal
output of R164. -/
def dacTable (l : List Frac) : List Int :=
  let curve := dacCodes.zip (l.map (fun v => fracMul v (fracI 65535)))
  dacCodes.map (fun x => dacInvert (fracI x) curve)

/-- Measured values as the register or table that holds them has them (R216): 1/16 code, binary32, the table of R218 in codes, 1/16 °C,
T-ticks, 0.5 ns. -/
def calHeld (i : CalItem) (l : List Frac) : List Int :=
  match i with
  | .pdOffset _ _ => l.map (fun v => fracRne (fracMul v (fracI 16)))
  | .pdGain _ _ => l.map (fun v => ((f32OfFr v).toNat : Int))
  | .dacLin _ => dacTable l
  | .tempFe _ => l.map (fun v => fracRne (fracMul v (fracI 16)))
  | .strLat _ => l.map fracRne
  | .skew _ => l.map (fun v => clampI (-16) 15 (fracRne (fracMul v (fracI 2))))

/-- The mean of two measurements, rounded once (R216). -/
def calMean (i : CalItem) (a b : List Meas) : List Int :=
  calHeld i ((a.zip b).map (fun (x : Meas × Meas) => fracMul (fracAdd (measVal x.1) (measVal x.2)) (frac 1 2)))

/-- How an item settled: its value if one was accepted, and whether a third measurement was taken. -/
structure Settled where
  value : Option (List Int)
  third : Bool
  deriving DecidableEq, Repr

/-- The procedure of R216. -/
def settle (m : CalMeas) : Settled :=
  if calAgree m.item m.a m.b then ⟨some (calMean m.item m.a m.b), false⟩
  else if calAgree m.item m.c m.a || calAgree m.item m.c m.b then
    ⟨some (calMean m.item m.c (if fracLe (calDiff m.c m.a) (calDiff m.c m.b) then m.a else m.b)), true⟩
  else ⟨none, true⟩

/-- The defaults of R216; Stringline latency has none. -/
def calDefault : CalItem → Option (List Int)
  | .pdOffset _ _ => some [2048 * 16]
  | .pdGain _ _ => some [(f32One.toNat : Int)]
  | .dacLin _ => some dacStraight
  | .tempFe _ => some [0]
  | .strLat _ => none
  | .skew _ => some [0]

/-- The stored value of an item. -/
def Dev.stored (d : Dev) (i : CalItem) : Option (List Int) :=
  (d.sns.store.find? (fun (x : CalItem × List Int) => decide (x.1 = i))).map (·.2)

/-- The value of an item before it is measured (R217). -/
def Dev.calOld (d : Dev) (i : CalItem) : Option (List Int) := (d.stored i).or (calDefault i)

/-- The range of an item's channel is the live one; items of no channel have none. -/
def Dev.calLive (d : Dev) : CalItem → Bool
  | .pdOffset c r => d.rangeOf c.val == r.val
  | .pdGain c r => d.rangeOf c.val == r.val
  | _ => true

/-- What an item's value is as a live value. -/
def calFracs (i : CalItem) (v : List Int) : List Frac :=
  match i with
  | .pdGain _ _ => v.map (fun x => fracOfF32 (BitVec.ofInt 32 x))
  | _ => v.map fracI

/-- The slew that moves an item's live value. -/
def calSlew : CalItem → Option SlewKind
  | .pdOffset c _ => some (.ofs c.val)
  | .pdGain c _ => some (.gcal c.val)
  | .dacLin p => some (.dac p.val)
  | .tempFe t => some (.temp t.val)
  | .strLat _ => none
  | .skew p => some (.skew p.val)

/-- The power-up value of a channel's range is kept. -/
def Dev.calKeep (d : Dev) (i : CalItem) (v : List Int) : Dev :=
  let x := v.headD 0
  match i with
  | .pdOffset c r => { d with sns := { d.sns with pdOfs := tput d.sns.pdOfs (4 * c.val + r.val) x } }
  | .pdGain c r => { d with sns := { d.sns with pdGain := tput d.sns.pdGain (4 * c.val + r.val) (BitVec.ofInt 32 x) } }
  | _ => d

/-- An item is declared unsure (R216): its bits and the 0x0501 event. -/
def Dev.calUnsure (d : Dev) (i : CalItem) (used : List Int) (fromStore : Bool) : Dev :=
  let n := (calCode i).2.1
  let d1 := match i with
    | .pdOffset c _ => (if c.val < 32 then d.setBit F.SNS_UNSURE_PD0_CH n true else d.setBit F.SNS_UNSURE_PD1_CH (n - 32) true).setFlag
        (F.SNS_CHc_STAT_UNSURE n) true
    | .pdGain c _ => (if c.val < 32 then d.setBit F.SNS_UNSURE_PD0_CH n true else d.setBit F.SNS_UNSURE_PD1_CH (n - 32) true).setFlag
        (F.SNS_CHc_STAT_UNSURE n) true
    | .dacLin _ => d.setBit F.SNS_UNSURE_DAC_PORT n true
    | .tempFe _ => if n < 32 then d.setBit F.SNS_UNSURE_T0_IN n true
        else if n < 64 then d.setBit F.SNS_UNSURE_T1_IN (n - 32) true else d.setBit F.SNS_UNSURE_T2_IN (n - 64) true
    | .strLat _ => d.setBit F.SNS_UNSURE_STR_PORT n true
    | .skew _ => d.setBit F.SNS_UNSURE_SKEW_PORT n true
  let d2 := { d1 with sns := { d1.sns with unsures := d1.sns.unsures + 1 } }
  (d2.setFlag F.SNS_STAT_UNSURE true).raise 0x0501 0x0D 2 (calParam i) (b2n fromStore) (trunc 32 (used.headD 0))

/-- The 0x0502 event of a third measurement, with the first two values as they would be held. -/
def Dev.calThird (d : Dev) (m : CalMeas) : Dev :=
  ({ d with sns := { d.sns with thirds := d.sns.thirds + 1 } }).raise 0x0502 0x0D 1 (calParam m.item) (trunc 32 ((calMean m.item m.a m.a).headD 0))
    (trunc 32 ((calMean m.item m.b m.b).headD 0))

/-- One item measured at power-up (R216, R217): the accepted value, or the stored one or default, is slewed in. -/
def Dev.calItem (d : Dev) (m : CalMeas) : Dev :=
  match m.item with
  | .strLat _ => d
  | i =>
    let s := settle m
    let d1 := if s.third then d.calThird m else d
    let old := d1.calOld i
    let v := (s.value.or old).getD []
    let d2 := match s.value with
      | some x => { d1 with sns := { d1.sns with accepted := d1.sns.accepted ++ [(i, x)] } }
      | none => d1.calUnsure i v (d1.stored i).isSome
    let d3 := d2.calKeep i v
    match calSlew i, s.value.isSome && d3.calLive i with
    | some k, true => d3.slewTo k (calFracs i v)
    | _, _ => d3

/-- The items of an enabled channel, input or port (R3, R214). -/
def Dev.calCovered (d : Dev) (i : CalItem) : Bool :=
  let n := d.variant.ports
  match i with
  | .pdOffset c _ => decide (c.val < 2 * n)
  | .pdGain c _ => decide (c.val < 2 * n)
  | .dacLin p => decide (p.val < n)
  | .tempFe t => decide (t.val < 2 * n) || decide (64 ≤ t.val)
  | .strLat p => decide (p.val < n)
  | .skew p => decide (p.val < n)

/-- A stored value is live before calibration (R217). -/
def Dev.calRestore (d : Dev) (x : CalItem × List Int) : Dev :=
  let d1 := d.calKeep x.1 x.2
  match calSlew x.1 with
  | some k => if d1.calLive x.1 then d1.slewPut k (calFracs x.1 x.2) else d1
  | none => d1

/-- Each port's stitch starts from its stored target (R219). -/
def Dev.stitchRestore (d : Dev) : Dev :=
  d.sns.spots.foldl (fun d (x : Nat × SpotPort) =>
    (((d.putI (F.BEAMn_STITCH_X_OFS x.1) x.2.stored.1).putI (F.BEAMn_STITCH_Y_OFS x.1) x.2.stored.2).putI (F.SNS_Pn_TGT_X_VAL x.1)
      x.2.stored.1).putI (F.SNS_Pn_TGT_Y_VAL x.1) x.2.stored.2) d

/-- Power-up calibration begins (R214): stored values are live, and the items measured settle. -/
def Dev.calBegin (d : Dev) (cal : List CalMeas) : Dev :=
  let d1 := (d.sns.store.foldl (fun d x => d.calRestore x) d.stitchRestore).setFlag F.SNS_STAT_CAL_RUN true
  let d2 := { d1 with sns := { d1.sns with calAt := d1.time, thirds := 0, unsures := 0, accepted := [], settled := false } }
  (cal.filter (fun m => d2.calCovered m.item)).foldl (fun d m => d.calItem m) d2

/-- The store with a value set. -/
def storePut (l : List (CalItem × List Int)) (x : CalItem × List Int) : List (CalItem × List Int) :=
  l.filter (fun (y : CalItem × List Int) => decide (y.1 ≠ x.1)) ++ [x]

/-- The copy of the store that holds the later SEQ. -/
def Dev.storeCopy (d : Dev) : StoreCopy :=
  { seq := d.sns.storeSeq, items := d.sns.store, stitch := d.sns.spots.map (fun (x : Nat × SpotPort) => (x.1, x.2.stored)) }

/-- Values three at a time. -/
def threes : List Int → List (List Int)
  | [] => []
  | x :: y :: z :: t => [x, y, z] :: threes t
  | l => [l]

/-- A 16-byte entry of the store's body (R219): item code, index, range or point group, flags, three values. -/
def storeEntry (code ix group : Nat) (v : List Int) : List Byte :=
  leBytes 1 code ++ leBytes 1 ix ++ leBytes 1 group ++ leBytes 1 0 ++
    (upTo 3).flatMap (fun k => leBytes 4 (trunc 32 (v.getD k 0)))

/-- The entries of an item: one, or a group of three points each (R219). -/
def itemEntries (x : CalItem × List Int) : List (List Byte) :=
  let c := calCode x.1
  (threes x.2).mapIdx (fun g v => storeEntry c.1 c.2.1 (c.2.2 + g) v)

/-- The entries of a copy: its items, then the stitch targets under item code 7. -/
def StoreCopy.entries (c : StoreCopy) : List (List Byte) :=
  c.items.flatMap itemEntries ++ c.stitch.map (fun (x : Nat × (Int × Int)) => storeEntry 7 x.1 0 [x.2.1, x.2.2])

/-- A copy as it stands on the flash (R219): the header with MAGIC, FORMAT, SEQ, body length, and the CRC-32C of body and header, then the
body. The spec orders the header's fields but gives no offsets, and numbers no item (log entries 20 and 134). -/
def StoreCopy.image (c : StoreCopy) : List Byte :=
  let body := c.entries.flatten
  let h := leBytes 4 0x53435841 ++ leBytes 2 1 ++ leBytes 2 0 ++ leBytes 4 c.seq.toNat ++ leBytes 4 body.length ++ leBytes 8 0 ++
    leBytes 4 (crc32c body).toNat
  h ++ leBytes 4 (crc32c h).toNat ++ body

/-- The flash offset of copy n of the store (R219). -/
def storeOffset (n : Nat) : Nat := 0x800000 + 0x10000 * n

/-- The calibration store is written (R219): the other copy, with SEQ + 1; the copy `old` is left as it is. -/
def Dev.storeWrite (d : Dev) (old : StoreCopy) (l : List (CalItem × List Int)) : Dev :=
  let q := d.sns.storeSeq + 1
  let d1 := { d with sns := { d.sns with store := l, storeSeq := q, older := old } }
  d1.raise 0x0503 0x0D 0 (q.toNat % 2) q.toNat d1.storeCopy.entries.length

/-- The store's contents are those of a copy. -/
def Dev.storeUse (d : Dev) (c : StoreCopy) : Dev :=
  { d with sns := { d.sns with
    store := c.items
    storeSeq := c.seq
    spots := d.sns.spots.map (fun (x : Nat × SpotPort) => (x.1, { x.2 with stored := tget (0, 0) c.stitch x.1 })) } }

/-- A copy without contents. -/
def noCopy (seq : Word) : StoreCopy := { seq := seq, items := [], stitch := [] }

/-- The store is read at start-up (R219): the copies in `bad`, each with the SEQ it reads, fail their CRC; the copy with the later valid
SEQ is used. -/
def Dev.storeRead (d : Dev) (bad : List (Fin 2 × Word)) : Dev :=
  let isBad := fun (n : Nat) => bad.any (fun x => x.1.val == n)
  let now := d.sns.storeSeq.toNat % 2
  let d1 := if isBad (1 - now) then { d with sns := { d.sns with older := noCopy d.sns.older.seq } } else d
  let d2 := if isBad now then (d1.storeUse d1.sns.older) else d1
  bad.foldl (fun d x => (d.setFlag F.SNS_STAT_STORE_BAD true).raise 0x0504 0x0D 2 x.1.val x.2.toNat 0) d2

/-- CALIBRATION_END (R214, R219). -/
def Dev.calEnd (d : Dev) : Dev :=
  if d.flag F.SNS_STAT_CAL_RUN then
    let ms := (elapsed64 d.time d.sns.calAt) / 1000000
    let d1 := ((d.setFlag F.SNS_STAT_CAL_RUN false).setFlag F.SNS_STAT_CAL_DONE true).put F.SNS_CAL_TIME_MS ms
    let d2 := ({ d1 with sns := { d1.sns with settled := true } }).raise 0x0500 0x0D 0 ms d1.sns.unsures d1.sns.thirds
    let changed := d2.sns.accepted.filter (fun (x : CalItem × List Int) => d2.stored x.1 != some x.2)
    let d3 := if changed.isEmpty then d2 else d2.storeWrite d2.storeCopy (changed.foldl storePut d2.sns.store)
    (upTo 32).foldl (fun d p => d.portBits p) d3
  else d

/-- CALIBRATION_END (R214). -/
def execCalibrationEnd (s : State) : Host.Outcome State Fault Refusal := .next (s.onDev (fun d => d.calEnd))

end Sys2Proof.Machine
end

