-- ==== Sys2Proof/Machine/BeamPort.lean ====
section
/-! DEFINITION. Beam ports (06_beam_ports.md R148 to R166, 05_trajectory.md R137 to R139): inbound Stringline frames, interruptions, head
faults, link states and the laser source's status. -/

namespace Sys2Proof.Machine

/-! ## Inbound frames (R148, R149) -/

/-- An inbound Stringline frame. -/
structure SlIn where
  x : Int
  y : Int
  z : Int
  seq : Nat
  ready : Bool
  fault : Bool
  cmdErr : Bool
  status : Nat
  temp : Nat
  crcOk : Bool
  deriving DecidableEq, Repr

/-- The frame held in 14 bytes. -/
def slParse (b : List Byte) : SlIn :=
  let st := leAt b 9 2
  { x := sext 24 (leAt b 0 3), y := sext 24 (leAt b 3 3), z := sext 24 (leAt b 6 3), seq := st % 256, ready := bitAt st 8,
    fault := bitAt st 9, cmdErr := bitAt st 10, status := st, temp := trunc 16 (sext 12 (leAt b 11 2)),
    crcOk := b.length == 14 && crc8 (b.take 13) == b.getD 13 0 }

/-! ## Head faults and interruptions (R154, R155) -/

/-- A head fault (R155): HFAULT, the event, the link to FAULT, the fault table. -/
def Dev.headFault (d : Dev) (m : Dram) (p cause : Nat) (onset : Word) : Dev :=
  let d1 := ((d.setFlag (F.BEAMn_PSTAT_HFAULT p) true).raise 0x0313 (srcPort p) 4 p cause onset.toNat).put (F.BEAMn_PSTAT_LINK p) 5
  let d2 := d1.updPrt p (fun x => { x with linkSince := d1.time, badRun := 0, feRun := 0 })
  (d2.portFault m p 2 cause 3 onset).portBits p

/-- The gate of port p is open, or scheduled to open: its laser-on transition has been passed, or its edge falls in this T-tick
(log entry 27). -/
def Dev.gatePending (d : Dev) (p : Nat) : Bool :=
  let x := d.prtOf p
  x.gate || x.edges.any (fun e => e.2) ||
  (match d.runOf p with
   | some r => r.edges.any (fun e => e.opens) && (match (d.engOf p).hist with
     | t :: _ => t.q.isSome
     | [] => false)
   | none => false)

/-- A path is interrupted (R154): the laser is blanked, the motion comes to rest along the path as far as it is planned, within the present
set's limits, and the run waits for a valid frame. `onset` is the frame's T-tick. The interruption ends pairings as a fault does. -/
def Dev.interrupt (d : Dev) (m : Dram) (p : Nat) (r : Run) (onset : Word) : Dev :=
  let e := d.engOf p
  let base : Run := { r with k := 0, startTick := d.tick, moves := [], planT := f0, px := e.x, py := e.y, vel := f0, stroke := none,
                             settle := 0, planned := false, intr := some onset }
  let seg := (e.cutPoint r).seg
  let stopped : Run := match d.motionSet m p with
    | some q => (Planned.stopAlong ⟨base, 0, []⟩ seg q (e.motion d.tick) e.f r.ahead).run
    | none => base
  let d1 := (d.blankPort p).updEng p (fun e => { e with run := some { stopped with edges := [], lit := none, openSeg := none } })
  let d2 := (((d1.tileFlag r.key 1).bump (F.BEAMn_SL_INT_COUNT p)).updPath r.key (fun q => { q with interrupts := q.interrupts + 1 })).raiseSeg
    (d.segTag m r.key seg) 0x0312 (srcPort p) 1 (d.tileNo r.key + 65536 * p) seg onset.toNat
  ((d2.pairEnd r.key 4).pairEndPort p 4).portBits p

/-- Interruptions at which a path's next one is a head fault (R154). -/
def maxInterrupts : Nat := 15

/-- A bad or missing frame of this T-tick (R153 to R155): with the gate open or scheduled to open it interrupts the path, a path's 16th
interruption being a head fault; the third in a row and HEAD_FAULT declare a head fault besides. -/
def Dev.badFrame (d : Dev) (m : Dram) (p : Nat) (headFault : Bool) : Dev :=
  let x := d.prtOf p
  let onset := if x.badRun == 0 then d.tick else x.badOnset
  let d1 := d.updPrt p (fun x => { x with badRun := x.badRun + 1, badOnset := onset, feRun := 0, judged := some d.tick })
  let d2 := match tfind d1.sns.obs p with
    | some o => { d1 with sns := { d1.sns with obs := tput d1.sns.obs p { o with bad := true } } }
    | none => d1
  let three := decide (3 ≤ x.badRun + 1)
  let hit := match d2.runOf p with
    | some r => r.intr.isNone && d2.gatePending p
    | none => false
  let worn := hit && (match d2.runOf p with
    | some r => decide (maxInterrupts ≤ ((d2.path? r.key).map (fun q => q.interrupts)).getD 0)
    | none => false)
  let d3 := match hit && !worn, d2.runOf p with
    | true, some r => d2.interrupt m p r d.tick
    | _, _ => d2
  if three || headFault || worn then
    d3.headFault m p (2 ^ 2 * b2n (three || worn) + 2 ^ 3 * b2n headFault) (if three then onset else d.tick)
  else d3

/-! ## Valid frames (R137 to R139) -/

/-- A tick point within TOL of the actual position on both axes is confirmed (R139), whether or not its path still runs. It is the confirmed
point of the path that runs, but for one later than an interruption (R154). -/
def Dev.confirm (d : Dev) (p : Nat) (t : TickPt) (f : SlIn) : Dev :=
  let tol : Int := (d.get (F.BEAMn_CONF_TOL p) : Int)
  if t.key.isSome && decide (((f.x - t.cx).natAbs : Int) ≤ tol) && decide (((f.y - t.cy).natAbs : Int) ≤ tol) then d.confirmPt p t
  else d

/-- The following error of a valid frame (R137, R138). The truth value says that a tracking fault is declared, from its onset tick. -/
def Dev.followErr (d : Dev) (p : Nat) (t : TickPt) (f : SlIn) : Dev × Option Word :=
  let ex := (f.x - t.cx).natAbs
  let ey := (f.y - t.cy).natAbs
  let d1 := (d.put (F.BEAMn_FE_MAX_X_FE p) (min (2 ^ 24 - 1) (max (d.get (F.BEAMn_FE_MAX_X_FE p)) ex))).put (F.BEAMn_FE_MAX_Y_FE p)
    (min (2 ^ 24 - 1) (max (d.get (F.BEAMn_FE_MAX_Y_FE p)) ey))
  let lim := d.get (F.BEAMn_FE_LIMIT_LIMIT p)
  if lim != 0 && (decide (lim < ex) || decide (lim < ey)) then
    let x := d1.prtOf p
    let onset := if x.feRun == 0 then d.tick else x.feOnset
    (d1.updPrt p (fun x => { x with feRun := x.feRun + 1, feOnset := onset }),
      if max 1 (d.get (F.BEAMn_FE_LIMIT_TICKS p)) ≤ x.feRun + 1 then some onset else none)
  else (d1.updPrt p (fun x => { x with feRun := 0 }), none)

/-- An interrupted path resumes at a valid frame (R154) from the point of R140. -/
def Dev.resumeRun (d : Dev) (m : Dram) (p : Nat) : Dev :=
  match d.runOf p with
  | none => d
  | some r => match r.intr, d.path? r.key with
    | some onset, some path =>
      let rp := d.resumeAt p r path onset
      let d1 := (d.updPath r.key (fun q => { q with resume := some rp })).beginRun m p r.key r.taking
      (d1.updRun p (fun n => { n with arrived := r.arrived, lostSeg := r.lostSeg, shed := r.shed, yield := r.yield })).portBits p
    | _, _ => d

/-- A valid frame of this T-tick. -/
def Dev.goodFrame (d : Dev) (m : Dram) (p : Nat) (f : SlIn) : Dev :=
  let lat := BitVec.ofNat 32 (d.get (F.BEAMn_LAT_TICKS p))
  let d1 := (((d.updPrt p (fun x => { x with badRun := 0, judged := some d.tick, actX := f.x, actY := f.y, actZ := f.z })).setFlag
    (F.BEAMn_PSTAT_READY p) f.ready).put (F.BEAMn_HEAD_STATUS p) f.status).put (F.BEAMn_HEAD_TEMP p) f.temp
  let r := match (d1.engOf p).hist.find? (fun t => t.tick == d.tick - lat) with
    | some t => ((d1.followErr p t f).1.confirm p t f, (d1.followErr p t f).2)
    | none => (d1, none)
  match f.fault, r.2 with
  | false, none => r.1.resumeRun m p
  | hf, fe =>
    let d2 := match fe with
      | some on => (r.1.setFlag (F.BEAMn_TSTAT_FE_EXC p) true).raise 0x0301 (srcPort p) 4 p on.toNat 0
      | none => r.1
    d2.headFault m p (2 ^ 3 * b2n hf + 2 ^ 4 * b2n fe.isSome) (fe.getD d.tick)

/-- INBOUND_FRAME (R153): judged on a port that is UP, once in a T-tick, where it falls in the window. In MEASURE its position is
taken for the next command. -/
def Dev.inboundFrame (d : Dev) (m : Dram) (p : Nat) (b : List Byte) (inWindow : Bool) : Dev :=
  let f := slParse b
  let link := d.get (F.BEAMn_PSTAT_LINK p)
  if link == 3 && f.crcOk then d.updPrt p (fun x => { x with actX := f.x, actY := f.y, actZ := f.z })
  else if link == 4 && inWindow && !(d.xy2 p) && (d.prtOf p).judged != some d.tick then
    let lat := d.get (F.BEAMn_LAT_TICKS p)
    let echo := (d.tick - BitVec.ofNat 32 lat).toNat % 256
    let bad := !f.crcOk || f.seq != echo || f.cmdErr || !f.ready
    if bad then (d.bump (F.BEAMn_SL_BAD_COUNT p)).badFrame m p (f.crcOk && f.fault) else d.goodFrame m p f
  else d

/-- INBOUND_FRAME (R153). -/
def execInboundFrame (p : Port) (bytes : List Byte) (inWindow : Bool) (s : State) : Host.Outcome State Fault Refusal :=
  .next (s.runDev (fun d m => d.inboundFrame m p.val bytes inWindow))

/-- MISSING_FRAME (R153): the window of this T-tick closes without a start bit. -/
def Dev.missingFrame (d : Dev) (m : Dram) (p : Nat) : Dev :=
  if d.get (F.BEAMn_PSTAT_LINK p) == 4 && !(d.xy2 p) && (d.prtOf p).judged != some d.tick then
    (d.bump (F.BEAMn_SL_MISS_COUNT p)).badFrame m p false
  else d

/-- MISSING_FRAME (R153). -/
def execMissingFrame (p : Port) (s : State) : Host.Outcome State Fault Refusal :=
  .next (s.runDev (fun d m => d.missingFrame m p.val))

/-! ## Link states (R151, R152) -/

/-- The link of port p enters a state. -/
def Dev.linkTo (d : Dev) (p st : Nat) : Dev := (d.put (F.BEAMn_PSTAT_LINK p) st).portBits p

/-- SL_START_BITS_SEEN (R151). -/
def execSlStartBitsSeen (p : Port) (s : State) : Host.Outcome State Fault Refusal :=
  .next (s.onDev (fun d => if d.get (F.BEAMn_PSTAT_LINK p.val) == 1 then d.linkTo p.val 2 else d))

/-- SL_ALIGN_DONE (R151): both lanes have a run of at least 4 steps. -/
def Dev.slAlign (d : Dev) (p phA wA phB wB : Nat) : Dev :=
  if d.get (F.BEAMn_PSTAT_LINK p) == 2 && decide (4 ≤ wA) && decide (4 ≤ wB) then
    ((((d.put (F.BEAMn_SL_EYE_PHASE_A p) phA).put (F.BEAMn_SL_EYE_WIDTH_A p) wA).put (F.BEAMn_SL_EYE_PHASE_B p) phB).put
      (F.BEAMn_SL_EYE_WIDTH_B p) wB).linkTo p 3
  else d

/-- SL_ALIGN_DONE (R151). -/
def execSlAlignDone (p : Port) (phA wA phB wB : Fin 16) (s : State) : Host.Outcome State Fault Refusal :=
  .next (s.onDev (fun d => d.slAlign p.val phA.val wA.val phB.val wB.val))

/-- Port p reaches UP with a round trip (R152): 0x0310, and 0x0319 where it replaces another value after a FAULT. -/
def Dev.slUp (d : Dev) (p t offset : Nat) (again : Bool) : Dev :=
  let old := d.get (F.BEAMn_LAT_TICKS p)
  let d1 := if again && old != t then d.raise 0x0319 (srcPort p) 2 p old t else d
  let d2 := (d1.put (F.BEAMn_LAT_TICKS p) t).put (F.BEAMn_SL_EYE_OFFSET p) offset
  let d3 := { d2 with sns := { d2.sns with
      latSettled := if d2.sns.latSettled.contains p then d2.sns.latSettled else d2.sns.latSettled ++ [p] } }
  let d4 := (d3.updPrt p (fun x => { x with badRun := 0, feRun := 0, judged := some d3.tick })).setFlag (F.BEAMn_PSTAT_READY p) true
  (d4.raise 0x0310 (srcPort p) 0 p t 0).linkTo p 4

/-- A latency value accepted by R216 is kept for the store while calibration runs, and written at once after it. -/
def Dev.latAccept (d : Dev) (p : Port) (t : Nat) : Dev :=
  let x : CalItem × List Int := (.strLat p, [(t : Int)])
  if d.stored x.1 == some x.2 then d
  else if d.flag F.SNS_STAT_CAL_DONE then d.storeWrite d.storeCopy (storePut d.sns.store x)
  else { d with sns := { d.sns with accepted := d.sns.accepted ++ [x] } }

/-- SL_MEASURE_DONE (R151, R152, R216): two passes that agree, or a third that agrees with one of them, give the round trip; else the
stored value is used and the item is unsure; with none stored MEASURE is repeated. -/
def Dev.slMeasure (d : Dev) (p : Port) (s : SlMeasure) : Dev :=
  let n := p.val
  let again := d.sns.latSettled.contains n
  if d.get (F.BEAMn_PSTAT_LINK n) == 3 && s.equal && s.ready then
    let m : CalMeas := { item := .strLat p, a := [⟨s.t1, 1⟩], b := [⟨s.t2, 1⟩], c := [⟨s.t3, 1⟩] }
    let st := settle m
    let d1 := if st.third then d.calThird m else d
    match st.value with
    | some v =>
      let t := (v.headD 0).toNat
      if 1 ≤ t && t ≤ 32 then (d1.latAccept p t).slUp n t s.offset.toNat again else d1
    | none => match d1.stored (.strLat p) with
      | some v => (d1.calUnsure (.strLat p) v true).slUp n (v.headD 0).toNat s.offset.toNat again
      | none => d1
  else d

/-- SL_MEASURE_DONE (R152). -/
def execSlMeasureDone (p : Port) (m : SlMeasure) (s : State) : Host.Outcome State Fault Refusal :=
  .next (s.onDev (fun d => d.slMeasure p m))

/-- The link enters CLOCK. -/
def Dev.linkClock (d : Dev) (p : Nat) : Dev := (d.updPrt p (fun x => { x with linkSince := d.time })).linkTo p 1

/-- SL_FAULT_EXPIRE (R151). -/
def execSlFaultExpire (p : Port) (s : State) : Host.Outcome State Fault Refusal :=
  .next (s.onDev (fun d => if d.get (F.BEAMn_PSTAT_LINK p.val) == 5 then d.linkClock p.val else d))

/-- SL_STARTUP_TIMEOUT (R151): TFAIL, 0x0311 once, and CLOCK again. -/
def Dev.slTimeout (d : Dev) (p : Nat) : Dev :=
  let l := d.get (F.BEAMn_PSTAT_LINK p)
  if l == 1 || l == 2 || l == 3 then
    let d1 := if d.flag (F.BEAMn_PSTAT_TFAIL p) then d else (d.setFlag (F.BEAMn_PSTAT_TFAIL p) true).raise 0x0311 (srcPort p) 2 p l 0
    d1.linkClock p
  else d

/-- SL_STARTUP_TIMEOUT (R151). -/
def execSlStartupTimeout (p : Port) (s : State) : Host.Outcome State Fault Refusal := .next (s.onDev (fun d => d.slTimeout p.val))

/-! ## The laser source (R159, R166) -/

/-- LSR_OK_CHANGE (R159): while LSR_OKn reads not ready EMIT_ENn is low; each edge starts the filter or the ready count again. -/
def Dev.lsrChange (d : Dev) (p : Nat) (level : Bool) : Dev :=
  if (d.prtOf p).lsr == level then d
  else
    let d1 := d.updPrt p (fun x => { x with lsr := level, lsrSince := d.time, lsrDone := false })
    (if level then d1.setFlag (F.BEAMn_PSTAT_LSR_OK p) true else d1).emitBit p

/-- LSR_OK_CHANGE (R159). -/
def execLsrOkChange (p : Port) (level : Bool) (s : State) : Host.Outcome State Fault Refusal :=
  .next (s.onDev (fun d => d.lsrChange p.val level))

/-- LASER_SOURCE_FAULT (R166): LSR_OKn has read low for BEAMn_PCTRL.LSR_FILT µs, 0 taken as 1. PSTAT.LSR_OK shows it on every port; a port in
use declares a fault, once for each time the line goes low. -/
def Dev.laserFault (d : Dev) (m : Dram) (p : Nat) : Dev :=
  let x := d.prtOf p
  let low := elapsed64 d.time x.lsrSince
  if x.lsr || decide (low < 1000 * max 1 (d.get (F.BEAMn_PCTRL_LSR_FILT p))) then d
  else
    let d1 := d.setFlag (F.BEAMn_PSTAT_LSR_OK p) false
    if !(d.assigned p) || x.lsrDone then d1
    else
      let onset := d.tick - BitVec.ofNat 32 (low / 1000)
      (((d1.updPrt p (fun x => { x with lsrDone := true })).setFlag (F.BEAMn_PSTAT_LFAULT p) true).raise 0x0314 (srcPort p) 4 p onset.toNat
        0).portFault m p 1 (2 ^ 0) 3 onset

/-- LASER_SOURCE_FAULT (R166). -/
def execLaserSourceFault (p : Port) (s : State) : Host.Outcome State Fault Refusal :=
  .next (s.runDev (fun d m => d.laserFault m p.val))

/-! ## Placement of the laser port (R126, R160) -/

/-- Where the edges of EMIT_ENn fall after their exposure step, in 0.5 ns. -/
def Dev.emitPlace (d : Dev) (p : Nat) : Int := d.getI (F.BEAMn_TRIM_FINE p) + d.getI (F.BEAMn_SKEW_SKEW p)

/-- Where the frame of MODn and the update of DACn fall after the start of their P-tick, in 0.5 ns. -/
def Dev.powerPlace (d : Dev) (p : Nat) : Int := d.getI (F.BEAMn_TRIM_FINE p)

end Sys2Proof.Machine
end

