-- ==== Sys2Proof/Machine/BedCycle.lean ====
section
/-! DEFINITION. The bed cycle (04_bed_cycle.md R96 to R115): commits, the commit horizon, the pre-scan (09_handoff.md R242), stripes
and blade chase, abandonment, paired tiles, underruns, verification and quality records. The bed boundary stands in Boundary.lean. -/

namespace Sys2Proof.Machine

/-! ## Commits (R98, R99) -/

/-- The committed bed's buffer. -/
def Dev.committedBuf (d : Dev) : Option Nat :=
  if d.flag F.BED_NEXT_COMMITTED then some (d.get F.BED_NEXT_BUF) else none

/-- The parameter bank that no bed holds: a bed holds its bank until nothing needs it any more (R79). -/
def Dev.freeBank (d : Dev) : Option Nat :=
  (upTo 2).find? (fun b => !(d.bar.beds.any (fun (x : Nat × Bed) => x.2.bank == some b && !(d.bankDone x.1 x.2))))

/-- A swap armed on an earlier T-tick, judged under R7 (R66). -/
def Dev.armedBefore (d : Dev) : Option Swap := if later32 d.tick d.rig.armTick then d.rig.armed else none

/-- An armed swap that R68 defers. -/
def Dev.swapDeferred (d : Dev) : Bool := d.armedBefore.isSome && d.rig.prev.isSome

/-- A bed committed on an earlier T-tick (R99, judged under R7) that can be latched now with its bank and any swap. -/
def Dev.latchable (d : Dev) : Option Nat :=
  match d.committedBuf with
  | some n => if later32 d.tick d.bar.commitTick && d.freeBank.isSome && !d.swapDeferred then some n else none
  | none => none

/-- Every tile of the current bed that must be finished before a horizon is finished (R97). -/
def Dev.curClear (d : Dev) : Bool :=
  match d.bar.cur.bind d.bed? with
  | none => true
  | some b => b.tiles.all (fun (y : Nat × TileSt) => y.2.endT.isSome ||
      (b.chase && decide (d.get F.BED_CHASE_CLEAR < b.stripeCount) && decide (d.get F.BED_CHASE_CLEAR ≤ y.2.rcd.stripe)))

/-- An earlier bed is still EXPOSING. -/
def Dev.oldExposing (d : Dev) : Bool := (upTo 16).any (fun n => d.get (F.BED_BUFn_STAT_STATE n) == 4 && d.bar.cur != some n)

/-- A horizon is taken in this T-tick (R97, R101); none while a channel is in self-refresh (R331), nor once
the supervisor has stopped (R26). -/
def Dev.horizonDue (d : Dev) : Bool :=
  let ph := d.get F.BED_STAT_PHASE
  let hold := d.flag F.BED_CTRL_HOLD || decide (d.sys.sup = .halted) || [0, 1].any (fun c => d.get (F.DDR_CHc_STAT_STATE c) == 4)
  (ph == 1 && d.flag F.BED_CTRL_RUN && !hold && !d.oldExposing && d.curClear) ||
  ((ph == 4 || (ph == 0 && d.flag F.BED_CTRL_RUN)) && !hold && d.latchable.isSome)

/-- The late window of R99: from a horizon, its own T-tick included, to recoat complete after its boundary. A T-tick in which every
condition of a horizon holds is that horizon's, whether or not its row has run yet (log entry 116). -/
def Dev.lateWindow (d : Dev) : Bool := d.get F.BED_STAT_PHASE == 2 || d.get F.BED_STAT_PHASE == 3 || d.horizonDue

/-- BED_NEXT and BED_NEXT_GEN (R116) with this buffer committed, beside the latched one. -/
def Dev.nextPut (d : Dev) (com : Option Nat) (held : Bool) : Dev :=
  let shown := (com.or d.bar.latched).getD 0
  let gen := match com.or d.bar.latched with
    | some n => d.get (F.BED_BUFn_GEN_GEN n)
    | none => 0
  (((((d.put F.BED_NEXT_BUF shown).setFlag F.BED_NEXT_COMMITTED com.isSome).setFlag F.BED_NEXT_LATCHED d.bar.latched.isSome).setFlag
    F.BED_NEXT_HELD held).put F.BED_NEXT_LBUF (d.bar.latched.getD 0)).put F.BED_NEXT_GEN_GEN gen

/-- BED_COMMIT (R98): UNRIGGED, STALE, BUSY, STATE in this order; HELD in the late window. -/
def Dev.bedCommit (d : Dev) (n : Nat) (g : Word) : Dev × Res :=
  if 16 ≤ n then (d, .param)
  else if !d.rigged then (d, .unrigged)
  else if !(d.genIs n g) then (d, .stale)
  else if d.flag F.BED_NEXT_COMMITTED then (d, .busy)
  else if d.get (F.BED_BUFn_STAT_STATE n) != 2 then (d, .state)
  else
    let late := d.lateWindow
    let d1 := (d.put (F.BED_BUFn_STAT_STATE n) 3).nextPut (some n) late
    let d2 := ({ d1 with bar := { d1.bar with commitTick := d1.tick } }).wakeDram
    if late then (d2.setFlag F.BED_STAT_LATE true, .held) else (d2, .ok)

/-- BED_COMMIT (R98). -/
def execBedCommit (tag n g : Word) (s : State) : Host.Outcome State Fault Refusal :=
  .next (s.command .ctrl 0x30 tag (fun s => ({ s with dev := (s.dev.bedCommit n.toNat g).1 }, (s.dev.bedCommit n.toNat g).2, 0)))

/-- BED_UNCOMMIT (R98). -/
def Dev.bedUncommit (d : Dev) : Dev × Res :=
  match d.committedBuf with
  | some n => ((d.put (F.BED_BUFn_STAT_STATE n) 2).nextPut none false, .ok)
  | none => (d, if d.bar.latched.isSome then .latched else .none)

/-- BED_UNCOMMIT (R98). -/
def execBedUncommit (tag : Word) (s : State) : Host.Outcome State Fault Refusal :=
  .next (s.command .ctrl 0x31 tag (fun s => ({ s with dev := s.dev.bedUncommit.1 }, s.dev.bedUncommit.2, 0)))

/-! ## The horizon (R79, R97, R99, R101) -/

/-- A tile as it stands before its pre-scan. -/
def tileNew (r : TileRec) : TileSt :=
  { rcd := r, scanned := false, released := false, paths := [], startT := none, endT := none, pwr := [], remoteE := [],
    wins := [0, 0, 0, 0, 0], notExp := 0, handoffs := 0, loopLost := 0, underruns := 0, flags := 0, paired := r.paired,
    pairIx := 0, crc := none, recorded := false }

/-- The bed in buffer n as the Control Bar latches it with bank b: header, parameter sets copied (R79), tile table. Sets read with an
uncorrectable DRAM error are lost (R333). -/
def Dev.bedOf (d : Dev) (m : Dram) (n b : Nat) : Bed :=
  let a := d.bufBase n
  let h := hdrOfBytes (m.readBytes a 4096)
  { buf := n, gen := d.get (F.BED_BUFn_GEN_GEN n), bedNo := BitVec.ofNat 32 h.bedNo, tileCount := h.tiles, segCount := h.segs,
    stripeCount := h.stripes, segOff := h.segOff,
    layer := BitVec.ofNat 32 h.layer, bank := some b,
    psets := (upTo h.psets).map (fun i => psetOfBytes (m.readBytes (a + h.psetOff + 128 * i) 128)),
    badSets := [], lostSets := (upTo h.psets).filter (fun i => badRead d m (a + h.psetOff + 128 * i) 128),
    chase := false, stripes := 0, oldSet := false, scanned := false,
    tiles := (upTo h.tiles).map (fun t => (t, tileNew (tileOfBytes (m.readBytes (a + h.tileOff + 48 * t) 48)))) }

/-- A bed that no longer needs its bank gives it up when another bed takes it (R79). -/
def Dev.bankTake (d : Dev) (b : Nat) : Dev :=
  { d with bar := { d.bar with beds := d.bar.beds.map (fun (x : Nat × Bed) =>
      (x.1, if x.2.bank == some b then { x.2 with bank := none, psets := [] } else x.2)) } }

/-- The bed in buffer n is latched with bank b and any swap armed before (R99, R66). -/
def Dev.latch (d0 : Dev) (m : Dram) (n b : Nat) : Dev :=
  let d := d0.bankTake b
  let bed := d.bedOf m n b
  let d1 := bed.lostSets.foldl (fun d i =>
    d.raiseLostRead 0x31 (d.bufBase n + (hdrOfBytes (m.readBytes (d.bufBase n) 4096)).psetOff + 128 * i)) d
  let d2 := { d1 with bar := { d1.bar with beds := tput d1.bar.beds n bed, latched := some n } }
  let d3 := d2.nextPut none false
  match d.armedBefore with
  | some w => ({ d3 with rig := { d3.rig with armed := none, latched := some w } }).put F.RIG_STAT_STATE 4
  | none => d3

/-- COMMIT_HORIZON (R97, R99, R101). A committed bed that cannot be latched stays COMMITTED, with LATE. -/
def Dev.commitHorizon (d : Dev) (m : Dram) : Dev :=
  if d.horizonDue then
    let d1 := { d with bar := { d.bar with hznFrom := d.get F.BED_STAT_PHASE } }
    let d2 := (d1.put F.BED_HZN_TICK_TICK d.tick.toNat).put F.BED_STAT_PHASE 2
    match d.committedBuf, d.latchable, d.freeBank with
    | some _, some n, some b => d2.latch m n b
    | some n, _, _ =>
      let early := later32 d.tick d.bar.commitTick
      let d3 := (d2.setFlag F.BED_STAT_LATE true).nextPut (some n) (d.flag F.BED_NEXT_HELD || !early)
      if early && d.swapDeferred then d3.setFlag F.RIG_STAT_LATE true else d3
    | none, _, _ => d2
  else d

/-- COMMIT_HORIZON (R97). -/
def execCommitHorizon (s : State) : Host.Outcome State Fault Refusal := .next (s.onDev (fun d => d.commitHorizon s.mem))

/-! ## The pre-scan (R242) -/

/-- The paths of a run of n segments from index i, each as first segment and count; `start` is the first segment of the path under
way. -/
def splitPaths (seg : Nat → SegRead) (start : Nat) : Nat → Nat → List (Nat × Nat)
  | 0, i => if start < i then [(start, i - start)] else []
  | n + 1, i =>
    match seg i with
    | .ok s => if s.pathEnd then (start, i + 1 - start) :: splitPaths seg (i + 1) n (i + 1) else splitPaths seg start n (i + 1)
    | _ => splitPaths seg start n (i + 1)

/-- The segments of a path as its bed's own data give them. -/
def scanSegs (seg : Nat → SegRead) (set : Nat → SetRead) (ang a n : Nat) : List SegI :=
  PlanCtx.placed { seg := seg, set := set, ang := ang, last := a + n - 1, pair := false, orig := true } a (0, 0, 0)

/-- A path as the pre-scan forms it: box, predicted duration and whether some honoured cover could expose it (R241, R242). `l` is the
set that will be live for its bed. -/
def scanPath (seg : Nat → SegRead) (set : Nat → SetRead) (ang : Nat) (l : List Section) (r : TileRec) (x : Nat × Nat) : PathSt :=
  let segs := scanSegs seg set ang x.1 x.2
  let box := boxOf ang segs
  { first := x.1, count := x.2, box := box, dur := predict ang segs,
    coverable := (honoured l r).any (fun c => !(coverLocal l c) || boxIn (fieldOf l c.2) box),
    st := .fresh, resume := none, cls := 5, underruns := 0, interrupts := 0, beam := none }

/-- The set under which the bed in buffer n will be exposed (R242). -/
def Dev.scanSections (d : Dev) (n : Nat) : List Section :=
  match decide (d.bar.latched = some n), d.rig.latched with
  | true, some w => swapSet d.rig.live w.secs
  | _, _ => d.sections (match d.bed? n with
    | some b => b.oldSet
    | none => false)

/-- The 0x060F events of a tile: its covers that are not in the lead's list (R50). -/
def Dev.coverEvents (d : Dev) (l : List Section) (t : Nat) (r : TileRec) : Dev :=
  (r.named.filter (fun c => !(coverListed l r.lead c))).foldl (fun d c => d.raise 0x060F 0x04 2 t (pair8 c.1 c.2) r.lead) d

/-- One tile is pre-scanned: an uncorrectable error met in its segments is recorded (R333). -/
def Dev.scanTile (d : Dev) (m : Dram) (l : List Section) (n t : Nat) : Dev :=
  match d.tile? n t with
  | none => d
  | some x =>
    if x.scanned then d
    else
      let k := PKey.bed n t 0
      let ang := d.get (F.BEAMn_PROF_JOIN_ANG x.rcd.lead)
      let paths := (splitPaths (d.segOf m k) x.rcd.first x.rcd.count x.rcd.first).map (scanPath (d.segOf m k) (d.setOf k) ang l x.rcd)
      let bad := (paths.filter (fun p => !p.coverable)).length
      let a := d.segAddr n x.rcd.first
      let d1 := match m.poison.find? (fun p => decide (a ≤ p) && decide (p < a + 16 * x.rcd.count)) with
        | some p => d.raiseLostRead 0x30 p
        | none => d
      let d2 := ((d1.updTile n t (fun x => { x with scanned := true, paths := paths })).coverEvents l t x.rcd).bump F.HND_UNCOV_PATHS_COUNT bad
      if bad == 0 then d2 else d2.raise 0x0610 0x04 0 t bad (d.keyBedNo k)

/-- The tiles of a bed in ascending STRIPE and then in table order. -/
def Bed.scanOrder (b : Bed) : List Nat :=
  (upTo (max 1 b.stripeCount)).flatMap (fun s => (b.tiles.filter (fun (y : Nat × TileSt) => y.2.rcd.stripe == s ||
    (s + 1 == max 1 b.stripeCount && decide (s < y.2.rcd.stripe)))).map (·.1))

/-- PRESCAN (R242): the tiles of a bed that is not pre-scanned yet. -/
def Dev.prescan (d : Dev) (m : Dram) : Dev :=
  match d.bar.beds.find? (fun (x : Nat × Bed) => !x.2.scanned) with
  | none => d
  | some (n, b) =>
    let l := d.scanSections n
    ((b.scanOrder.foldl (fun d t => d.scanTile m l n t) (d.put F.HND_UNCOV_PATHS_COUNT 0)).updBed n (fun b => { b with scanned := true })).bedCheck n

/-- PRESCAN (R242). -/
def execPrescan (s : State) : Host.Outcome State Fault Refusal := .next (s.onDev (fun d => d.prescan s.mem))

/-! ## Abandonment (R102, R106, R109) -/

/-- The last confirmed point of a path that another device exposes, if one does. -/
def Dev.outSeg (d : Dev) (k : PKey) : Option Nat :=
  (d.hnd.out.find? (fun (x : Nat × HoOut) => decide (x.2.key = k))).map (fun x => x.2.conf.seg)

/-- An exchange for a path that another device has not granted is closed; a granted one waits for HO_DONE (R85, R265). -/
def Dev.dropAsked (d : Dev) (k : PKey) : Dev :=
  { d with hnd := { d.hnd with out := d.hnd.out.filter (fun (x : Nat × HoOut) => !(decide (x.2.key = k) && !x.2.granted)) } }

/-- A path is ended where it stands, its remaining EXPOSE segments not exposed (R106). `reason` is that of HO_ABORT: 1 tile abandoned, 2
BED_ABORT. -/
def Dev.abandonPath (d : Dev) (m : Dram) (k : PKey) (reason : Nat) : Dev :=
  match d.path? k with
  | none => d
  | some q =>
    match q.st with
    | .ended => d
    | .running p => d.finishRun m p (some (d.cutSeg p)) 3
    | .takeover => (((d.loseFrom m k ((d.outSeg k).getD q.nextSeg)).endTko k reason).dropAsked k).pathEnded k
    | .dealt p => (((d.unfetch p (fun x => decide (x = k))).updEng p (fun e => { e with
        queue := e.queue.filter (fun x => decide (x ≠ k)) })).loseFrom m k q.nextSeg).pathEnded k
    | _ => (d.loseFrom m k q.nextSeg).pathEnded k

/-- A tile that the pre-scan has not reached is ended with all of its EXPOSE segments not exposed. -/
def Dev.abandonUnscanned (d : Dev) (m : Dram) (n t : Nat) (x : TileSt) : Dev :=
  if x.scanned then d
  else
    let c := d.countExpose m (.bed n t 0) x.rcd.first x.rcd.count
    (d.updTile n t (fun x => { x with scanned := true, notExp := x.notExp + c })).tileCheck n t

/-- An unfinished tile is abandoned (R106): ABANDONED, BED_STAT.ABANDON, the count; its pairing ends (R109). -/
def Dev.abandonTile (d : Dev) (m : Dram) (n t reason : Nat) : Dev :=
  match d.tile? n t with
  | none => d
  | some x =>
    let k := PKey.bed n t 0
    let d1 := (((d.pairEnd k 3).tileFlag k 4).setFlag F.BED_STAT_ABANDON true).bump F.BED_ABANDONED_COUNT
    ((upTo x.paths.length).foldl (fun d i => d.abandonPath m (.bed n t i) reason) d1).abandonUnscanned m n t x

/-- The unfinished tiles of the bed in buffer n with a STRIPE of at most s, in table order. -/
def Dev.unfinished (d : Dev) (n s : Nat) : List Nat :=
  match d.bed? n with
  | none => []
  | some b => (b.tiles.filter (fun (y : Nat × TileSt) => y.2.endT.isNone && decide (y.2.rcd.stripe ≤ s))).map (·.1)

/-- The unfinished old-bed tiles of stripes up to s are abandoned, with a 0x0207 event each: cause 1 guard of a hit, 2 recoat complete,
3 blade chase lost (R106, R107). -/
def Dev.abandonOld (d : Dev) (m : Dram) (s cause : Nat) : Dev :=
  match d.bar.old with
  | none => d
  | some n => (d.unfinished n s).foldl (fun d t =>
      (d.raise 0x0207 0x03 3 (d.keyBedNo (.bed n t 0)) t cause).abandonTile m n t 1) d

/-- Every stripe of a bed. -/
def allStripes : Nat := 65535

/-- The beds in flight: those whose buffer is EXPOSING. -/
def Dev.inFlight (d : Dev) : List Nat := (upTo 16).filter (fun n => d.get (F.BED_BUFn_STAT_STATE n) == 4)

/-- BED_ABORT takes back a latched bed and its swap (R102). -/
def Dev.unlatch (d : Dev) : Dev :=
  match d.bar.latched with
  | none => d
  | some n =>
    let d1 := match d.committedBuf with
      | some c => d.put (F.BED_BUFn_STAT_STATE c) 2
      | none => d
    let d2 := { d1 with bar := { d1.bar with latched := none, beds := tdel d1.bar.beds n } }
    let d3 := d2.nextPut (some n) false
    match d3.rig.latched with
    | some w => ({ d3 with rig := { d3.rig with latched := none, armed := some w } }).put F.RIG_STAT_STATE 3
    | none => d3

/-- BED_ABORT (R102). -/
def Dev.bedAbort (d : Dev) (m : Dram) : Dev :=
  let no := if d.flag F.BED_CUR_VALID then d.get F.BED_CUR_NO_BED_NO else 0
  let d1 := (portsInUse (d.sections false)).foldl (fun d p => d.blankPort p) d
  let todo := d.inFlight.flatMap (fun n => (d.unfinished n allStripes).map (fun t => (n, t)))
  let d2 := todo.foldl (fun d (x : Nat × Nat) => d.abandonTile m x.1 x.2 2) d1
  let d3 := d2.runningPorts.foldl (fun d p => d.finishRun m p (some (d.cutSeg p)) 3) d2
  let d4 := d3.inFlight.foldl (fun d n => (d.updBed n (fun b => { b with scanned := true })).bedCheck n) d3
  (((d4.unlatch).setFlag F.BED_CTRL_RUN false).raise 0x020F 0x03 3 todo.length no d.tick.toNat).idleCheck

/-- BED_ABORT (R102). -/
def execBedAbort (tag : Word) (s : State) : Host.Outcome State Fault Refusal :=
  .next (s.command .ctrl 0x32 tag (fun s => ({ s with dev := s.dev.bedAbort s.mem }, .ok, 0)))

/-! ## Stripes, recoat and blade chase (R103 to R107) -/

/-- Stripes of a bed as BED_STRIPES counts them (R116). -/
def Bed.stripeTotal (b : Bed) : Nat := if b.chase then max 1 b.stripeCount else 1

/-- A tile's stripe; with STRIPE_COUNT 0 every tile lies in stripe 0 (R105). -/
def Bed.stripeOf (b : Bed) (r : TileRec) : Nat := if b.stripeCount == 0 then 0 else r.stripe

/-- Every tile of the bed in buffer n is released at once (R101, R103). -/
def Dev.releaseAll (d : Dev) (n : Nat) : Dev :=
  match d.bed? n with
  | none => d
  | some b =>
    (d.updBed n (fun b => { b with stripes := b.stripeTotal,
                                   tiles := b.tiles.map (fun (y : Nat × TileSt) => (y.1, { y.2 with released := true })) })).put
      F.BED_STRIPES_RELEASED b.stripeTotal

/-- The next stripe of the current bed is released (R105): cause 0 hit, 1 skipped spacing, 2 recoat complete. -/
def Dev.releaseNext (d : Dev) (cause : Nat) : Dev :=
  match d.bar.cur with
  | none => d
  | some n => match d.bed? n with
    | none => d
    | some b =>
      if b.chase && decide (b.stripes < b.stripeTotal) then
        ((d.updBed n (fun b => { b with
            stripes := b.stripes + 1
            tiles := b.tiles.map (fun (y : Nat × TileSt) =>
              (y.1, { y.2 with released := y.2.released || b.stripeOf y.2.rcd == b.stripes })) })).put F.BED_STRIPES_RELEASED (b.stripes + 1)).raise
          0x0206 0x03 0 b.bedNo.toNat b.stripes cause
      else d

/-- A hit of compare unit k, or a spacing it skipped, under blade chase (R105, R106). -/
def Dev.chaseHit (d : Dev) (m : Dram) (k : Nat) (skipped : Bool) : Dev :=
  if d.bar.chase && !d.bar.chaseLost && d.get F.BED_CHASE_CMP == k then
    let h := d.bar.hits
    let d1 := { d with bar := { d.bar with hits := h + 1 } }
    (d1.releaseNext (b2n skipped)).abandonOld m (h + d.get F.BED_CHASE_GUARD) 1
  else d

/-- Blade chase has lost its encoder (R107). -/
def Dev.chaseLose (d : Dev) (m : Dram) (e : Nat) : Dev :=
  if d.bar.chase && !d.bar.chaseLost && d.get F.BED_STAT_PHASE == 3 then
    let no := if d.flag F.BED_CUR_VALID then d.get F.BED_CUR_NO_BED_NO else 0
    let d1 := { d with bar := { d.bar with chaseLost := true } }
    (((d1.setFlag F.BED_STAT_CHASE_LOST true).raise 0x020E 0x03 4 e no d.tick.toNat).attn .chase).abandonOld m allStripes 3
  else d

/-- The phase after recoat complete (R96, R100). -/
def Dev.afterRecoat (d : Dev) : Dev :=
  if d.flag F.BED_CUR_VALID then (d.put F.BED_STAT_PHASE 1).idleCheck
  else if !(d.flag F.BED_CTRL_RUN) && !d.anyExposing then d.enterIdle
  else ((((d.put F.BED_STAT_PHASE 4).setFlag F.BED_STAT_STARVE true).raise 0x0204 0x03 2 d.bar.oldNo.toNat d.tick.toNat 0).attn .starve)

/-- Recoat complete (R104): the remaining stripes are released in order, unfinished old-bed tiles are abandoned, RECOAT ends. -/
def Dev.recoatComplete (d : Dev) (m : Dram) : Dev :=
  if d.get F.BED_STAT_PHASE == 3 then
    let n := match d.bar.cur.bind d.bed? with
      | some b => b.stripeTotal - b.stripes
      | none => 0
    let d1 := (upTo n).foldl (fun d _ => d.releaseNext 2) d
    (d1.abandonOld m allStripes 2).afterRecoat
  else d

/-- BED_RECOATED (R104). -/
def execBedRecoated (tag : Word) (s : State) : Host.Outcome State Fault Refusal :=
  .next (s.command .ctrl 0x33 tag (fun s =>
    if s.dev.get F.BED_STAT_PHASE == 3 then ({ s with dev := s.dev.recoatComplete s.mem }, .ok, 0) else (s, .notRecoat, 0)))

/-! ## Paired tiles (R108) -/

/-- The port on which a path waits at its ORIGIN for its partner. -/
def Dev.pairWaits (d : Dev) (k : PKey) : Option Nat :=
  d.runningPorts.find? (fun p => match d.runOf p with
    | some r => decide (r.key = k) && r.pairWaiting
    | none => false)

/-- Path i of a tile has ended. -/
def Dev.pathOver (d : Dev) (k : PKey) : Bool := (d.path? k).any (fun q => decide (q.st = .ended))

/-- PAIR_START (R108): path i of the tile and path i of its partner start on the same T-tick, once both engines stand at their ORIGIN. Where
the partner's path i has ended without that start, path i goes on alone. -/
def Dev.pairStart (d : Dev) (t : Nat) : Dev :=
  ([d.bar.old, d.bar.cur].filterMap id).foldl (fun d n =>
    match d.tile? n t with
    | none => d
    | some x =>
      match x.paired, d.pairWaits (.bed n t x.pairIx), d.pairWaits (.bed n x.rcd.partner x.pairIx) with
      | true, some p, some q =>
        let next := fun (y : TileSt) => { y with pairIx := y.pairIx + 1 }
        (((((d.pairGo p).pairGo q).updTile n t next).updTile n x.rcd.partner next).portBits p).portBits q
      | true, some p, none =>
        if d.pathOver (.bed n x.rcd.partner x.pairIx) then
          let next := fun (y : TileSt) => { y with pairIx := y.pairIx + 1 }
          (((d.pairGo p).updTile n t next).updTile n x.rcd.partner next).portBits p
        else d
      | _, _, _ => d) d

/-- PAIR_START (R108). -/
def execPairStart (tile : BitVec 16) (s : State) : Host.Outcome State Fault Refusal :=
  .next (s.onDev (fun d => d.pairStart tile.toNat))

/-! ## Underruns (R110, R111) -/

/-- COOL_TIME of the set that a segment names, in T-ticks. -/
def Dev.coolOf (d : Dev) (m : Dram) (k : PKey) (i : Nat) : Nat :=
  match d.segOf m k i with
  | .ok s => match d.setOf k s.pset with
    | .ok p => p.cool
    | .fail _ => 0
  | _ => 0

/-- An underrun counts for the tile of a path. -/
def Dev.tileUnderrun (d : Dev) (k : PKey) : Dev :=
  match k.tile with
  | some (n, t) => d.updTile n t (fun x => { x with underruns := min 255 (x.underruns + 1) })
  | none => d

/-- PREFETCH_UNDERRUN (R110, R111): the path ends at the tick point it has reached, and its remainder waits out COOL_TIME; a fifth
underrun ends it. -/
def Dev.underrun (d : Dev) (m : Dram) (p : Nat) : Dev :=
  match d.runOf p with
  | none => d
  | some r =>
    match d.path? r.key with
    | none => d
    | some q =>
      let rp := (d.engOf p).cutPoint r
      let par := d.tileNo r.key + 65536 * p
      let tag := d.segTag m r.key rp.seg
      let d1 := ((((d.setFlag F.BED_STAT_UNDERRUN true).bump F.BED_UNDERRUNS_COUNT).tileUnderrun r.key).raiseSeg tag 0x0208 0x03 2 par rp.seg
        (d.keyBedNo r.key)).updPath r.key (fun q => { q with underruns := q.underruns + 1 })
      let d2 := (d1.pairEnd r.key 2).pairEndPort p 2
      if 4 ≤ q.underruns then
        (d2.raiseSeg tag 0x0211 0x03 3 par rp.seg (d.keyBedNo r.key)).finishRun m p (some rp.seg) 1
      else
        ((((d2.blankPort p).stbyEnd r.key 1).dropRun p).updPath r.key (fun q =>
          { q with st := .cool (d.tick + BitVec.ofNat 32 (d.coolOf m r.key rp.seg)), cls := 3, resume := some rp, beam := some p, rule := .own })).portBits p

/-- PREFETCH_UNDERRUN (R110). -/
def execPrefetchUnderrun (p : Port) (s : State) : Host.Outcome State Fault Refusal :=
  .next (s.runDev (fun d m => d.underrun m p.val))

/-- A remainder whose COOL_TIME has passed joins the pool in class 3 (R110, R243). -/
def requeued (now : Word) (q : PathSt) : PathSt :=
  match q.st with
  | .cool till => if later32 till now then q else { q with st := .pool 3 }
  | _ => q

/-- REMAINDER_REQUEUE (R110). -/
def Dev.remainderRequeue (d : Dev) : Dev :=
  { d with
    bar := { d.bar with beds := d.bar.beds.map (fun (b : Nat × Bed) => (b.1, { b.2 with
      tiles := b.2.tiles.map (fun (y : Nat × TileSt) => (y.1, { y.2 with paths := y.2.paths.map (requeued d.tick) })) })) }
    hnd := { d.hnd with inc := d.hnd.inc.map (fun (x : Nat × HoIn) => (x.1, { x.2 with path := requeued d.tick x.2.path })) } }

/-- REMAINDER_REQUEUE (R110). -/
def execRemainderRequeue (s : State) : Host.Outcome State Fault Refusal := .next (s.onDev (fun d => d.remainderRequeue))

/-! ## Verification (R112, R113) -/

/-- The exposure stream entry of an EXPOSE segment (R112). -/
def streamEntry (a : SegI) : List Byte :=
  leI a.x0 ++ leI a.y0 ++ leI a.x1 ++ leI a.y1 ++
  leBytes 4 (f32Div (f32Mul a.p.power (f32OfInt a.s.pwr)) (f32OfInt 128)).toNat ++
  leBytes 4 (if fracLt a.vl (vLimit a.s a.p) then f32OfFr (fracMul a.vl (fracI 10)) else if a.s.vel == 0 then a.p.markVel else f32OfInt a.s.vel).toNat ++
  leBytes 2 (trunc 16 a.z0) ++ leBytes 2 a.s.dwellTicks ++ leBytes 4 a.ix

/-- The exposure stream of tile t of the bed in buffer n (R112), its segments decoded in index order. -/
def Dev.tileStream (d : Dev) (m : Dram) (n t : Nat) (r : TileRec) : List Byte :=
  let k := PKey.bed n t 0
  (splitPaths (d.segOf m k) r.first r.count r.first).flatMap (fun x =>
    ((scanSegs (d.segOf m k) (d.setOf k) 0 x.1 x.2).filter (fun a => a.s.isExpose)).flatMap streamEntry)

/-- VERIFY_DONE (R113): a checked tile that has finished gets its result. A tile with no EXPOSE segment has CRC 0 and is not checked. -/
def Dev.verifyDone (d : Dev) (m : Dram) (n t : Nat) : Dev :=
  match d.tile? n t with
  | none => d
  | some x =>
    if x.endT.isNone || x.rcd.expCrc == 0 || x.crc.isSome then d
    else
      let bytes := d.tileStream m n t x.rcd
      let c : Word := if bytes.isEmpty then 0 else crc32c bytes
      let d1 := d.updTile n t (fun x => { x with crc := some c })
      if bytes.isEmpty then d1
      else
        let k := PKey.bed n t 0
        let d2 := d1.tileFlag k 6
        if c == x.rcd.expCrc then d2.bump F.BED_VPASS_COUNT
        else
          let d3 := (((d2.tileFlag k 7).setFlag F.BED_STAT_VFAIL true).bump F.BED_VFAIL_COUNT).raise 0x020B 0x03 3 t x.rcd.expCrc.toNat c.toNat
          if d3.flag F.BED_CTRL_VHOLD then d3.setFlag F.BED_CTRL_HOLD true else d3

/-- VERIFY_DONE (R113). -/
def execVerifyDone (n : Buf) (tile : BitVec 16) (s : State) : Host.Outcome State Fault Refusal :=
  .next (s.onDev (fun d => d.verifyDone s.mem n.val tile.toNat))

/-! ## Quality records (R114, R115) -/

/-- The quality-record ring. -/
def qrecRing : Ring := ⟨F.BED_QREC_BASE_BASE, F.BED_QREC_SIZE_SIZE, F.BED_QREC_WR_INDEX, F.BED_QREC_RD_INDEX, 64, 0x58⟩

/-- Delivered energy of a tile, summed exactly and rounded once (R114). -/
def Dev.tileEnergy (d : Dev) (x : TileSt) : Word :=
  f32OfFr (x.remoteE.foldl (fun s e => fracAdd s (fracOfF32 e)) (x.pwr.foldl (fun s (y : Nat × Nat) => fracAdd s (d.joules y.1 y.2)) (fracI 0)))

/-- The energy exceeds the tile's non-zero budget (R114). -/
def overBudget (x : TileSt) (e : Word) : Bool := !(f32IsZero x.rcd.energy) && f32Lt x.rcd.energy e

/-- The 60 bytes of a quality record before its CRC (R114). -/
def qrecBytes (bedNo : Word) (t : Nat) (x : TileSt) (e : Word) : List Byte :=
  let done := x.endT.getD 0
  leBytes 4 bedNo.toNat ++ leBytes 2 t ++
  leBytes 2 (bitPut (bitPut x.flags 0 (x.notExp == 0)) 8 (overBudget x e)) ++
  leBytes 8 (x.startT.getD done).toNat ++ leBytes 8 done.toNat ++ leBytes 4 e.toNat ++
  leBytes 4 (if x.rcd.expCrc == 0 then 0 else (x.crc.getD 0).toNat) ++ x.wins.flatMap (fun w => leBytes 4 (min w (2 ^ 32 - 1))) ++
  leBytes 3 (min x.notExp (2 ^ 24 - 1)) ++ leBytes 1 (min x.handoffs 255) ++ leBytes 3 (min x.loopLost (2 ^ 24 - 1)) ++
  leBytes 1 (min x.underruns 255)

/-- An exchange with another device about a path of a tile is open. -/
def Dev.tileOut (d : Dev) (n t : Nat) : Bool :=
  d.hnd.out.any (fun (x : Nat × HoOut) => x.2.key.tile == some (n, t))

/-- QREC_WRITE (R114, R115): the record of the tile that finished first of those that wait, once its verification result is known and
no other device still exposes a part of it. -/
def Dev.qrecWrite (d : Dev) (n t : Nat) : Dev :=
  match d.bar.finishOrder, d.tile? n t with
  | (n', t') :: rest, some x =>
    if n' != n || t' != t || (x.rcd.expCrc != 0 && x.crc.isNone) || d.tileOut n t then d
    else
      let k := PKey.bed n t 0
      let e := d.tileEnergy x
      let b := qrecBytes (BitVec.ofNat 32 (d.keyBedNo k)) t x e
      let d0 := { d with bar := { d.bar with finishOrder := rest } }
      let w := d0.ringPut qrecRing (b ++ leBytes 4 (crc32c b).toNat)
      let d1 := if w.2 then ((w.1.setFlag F.BED_STAT_QLOST true).bump F.BED_QREC_LOST_COUNT).attn .qrec else w.1
      let d2 := d1.updTile n t (fun x => { x with recorded := true })
      if overBudget x e then (d2.tileFlag k 8).raise 0x020C 0x03 2 t x.rcd.energy.toNat e.toNat else d2
  | _, _ => d

/-- QREC_WRITE (R114). -/
def execQrecWrite (n : Buf) (tile : BitVec 16) (s : State) : Host.Outcome State Fault Refusal :=
  .next (s.runDev (fun d _ => d.qrecWrite n.val tile.toNat))

end Sys2Proof.Machine
end

