-- ==== Sys2Proof/Machine/Sensing.lean ====
section
/-! DEFINITION. Traced estimates (08_sensing_calibration.md R220 to R222), spotting (R223 to R229) and the stored stitch targets (R219). -/

namespace Sys2Proof.Machine

/-! ## Medians (R220, R221) -/

/-- The samples of a histogram: value and count of each bin, in ascending order. -/
abbrev Bins := List (Nat × Nat)

/-- The sum of the counts. -/
def binSum (l : Bins) : Nat := l.foldl (fun s (x : Nat × Nat) => s + x.2) 0

/-- The bin that holds sample number i, counted from 0. -/
def binAt : Bins → Nat → Nat
  | [], _ => 0
  | (b, n) :: t, i => if i < n then b else binAt t (i - n)

/-- The median of whole values: the mean of the two middle ones where their number is even. -/
def median (l : Bins) : Frac :=
  let n := binSum l
  frac (binAt l (n / 2) + binAt l ((n - 1) / 2) : Nat) 2

/-- The fullest bin, the lower one on a tie. -/
def fullest (l : Bins) : Nat :=
  (l.foldl (fun (b : Nat × Nat) (x : Nat × Nat) => if b.2 < x.2 then x else b) (0, 0)).1

/-- The median of a histogram of width 1/512 per bin, interpolated linearly within its bin (R221). -/
def medianIn (half : Frac) : Bins → Nat → Frac
  | [], _ => fracI 0
  | (b, n) :: t, before =>
    if fracLe half (fracI (before + n : Nat)) then
      fracMul (fracAdd (fracI b) (fracDiv (fracSub half (fracI before)) (fracI n))) (frac 1 512)
    else medianIn half t (before + n)

/-! ## Estimates (R220 to R222) -/

/-- An estimate of the offset of channel c in codes, from its histogram (R220); none where over 25 % of the samples fell outside. -/
def Dev.ofsEstimate (d : Dev) (c : Nat) (t : Trace) : Option Frac :=
  if t.n < 4 * t.outside then none
  else
    let f := fullest t.bins
    let near := t.bins.filter (fun (x : Nat × Nat) => decide (x.1 ≤ f + 8) && decide (f ≤ x.1 + 8))
    some (fracAdd (median near) (fracI (fracRne (frac (d.get (F.SNS_CHc_OFS_OFS c)) 16) - 128)))

/-- The power-up offset of channel c in its present range, in 1/16 code (R215 to R217). -/
def Dev.powerOfs (d : Dev) (c : Nat) : Int := tget (2048 * 16 : Int) d.sns.pdOfs (4 * c + d.rangeOf c)

/-- An accepted offset, in 1/16 code, is applied, or refused beyond 64 codes from the power-up value (R222). -/
def Dev.ofsApply (d : Dev) (c : Nat) (new : Int) : Dev :=
  if 64 * 16 < (new - d.powerOfs c).natAbs then
    (((d.setFlag F.SNS_STAT_TRACE_REF true).setFlag (F.SNS_CHc_STAT_UNSURE c) true).raise 0x0509 0x0D 2 c (trunc 32 (d.powerOfs c))
      (trunc 32 new))
  else
    ((d.raise 0x0508 0x0D 0 c (d.get (F.SNS_CHc_OFS_OFS c)) (trunc 32 new)).slewTo (.ofs c) [fracI new]).setFlag
      (F.SNS_CHc_STAT_UNSURE c) false

/-- OFFSET_TRACE_ESTIMATE (R220, R222). -/
def Dev.ofsTrace (d : Dev) (c : Nat) : Dev :=
  let t := tget trace0 d.sns.traces c
  if t.n < ofsSamples then d
  else
    let e := d.ofsEstimate c t
    let d1 := d.updTrace c (fun t => { t with bins := [], n := 0, outside := 0, ofs := e.or t.ofs })
    match e, t.ofs with
    | some e, some p => if fracLe (fracAbs (fracSub e p)) (fracI 4) then
        d1.ofsApply c (fracRne (fracMul (fracAdd e p) (fracI 8)))
      else d1
    | _, _ => d1

/-- OFFSET_TRACE_ESTIMATE (R220). -/
def execOffsetTraceEstimate (c : Chan) (s : State) : Host.Outcome State Fault Refusal := .next (s.onDev (fun d => d.ofsTrace c.val))

/-- An accepted trim is applied, or refused outside 0.95 to 1.05 (R222). -/
def Dev.trimApply (d : Dev) (c : Nat) (m new : Word) : Dev :=
  let x := fracOfF32 new
  if fracLe (frac 95 100) x && fracLe x (frac 105 100) then
    ((d.raise 0x050A 0x0D 0 c (d.get (F.SNS_CHc_TRIM_VAL c)) new.toNat).slewTo (.trim c) [x]).setFlag (F.SNS_CHc_STAT_UNSURE c) false
  else
    ((d.setFlag F.SNS_STAT_TRACE_REF true).setFlag (F.SNS_CHc_STAT_UNSURE c) true).raise 0x050B 0x0D 2 c m.toNat new.toNat

/-- GAIN_TRACE_ESTIMATE (R221, R222). -/
def Dev.gainTrace (d : Dev) (c : Nat) : Dev :=
  let t := tget trace0 d.sns.traces c
  if t.gn < gainSamples then d
  else
    let m := f32OfFr (medianIn (frac (binSum t.gbins) 2) t.gbins 0)
    let e := f32Div (f32Mul (d.getW (F.SNS_CHc_TRIM_VAL c)) (d.getW (F.SNS_CHc_REF_VAL c))) m
    let d1 := d.updTrace c (fun t => { t with gbins := [], gn := 0, trim := some e })
    match t.trim with
    | some p =>
      let a := fracOfF32 e
      let b := fracOfF32 p
      if fracLe (fracMul (fracAbs (fracSub a b)) (fracI 100)) (fracAbs b) then d1.trimApply c m (f32OfFr (halfF (fracAdd a b))) else d1
    | none => d1

/-- GAIN_TRACE_ESTIMATE (R221). -/
def execGainTraceEstimate (c : Chan) (s : State) : Host.Outcome State Fault Refusal := .next (s.onDev (fun d => d.gainTrace c.val))

/-- A channel whose range has become another (R210) takes that range's power-up offset and gain correction, and its traces restart (R222;
log entry 29 for the gain). `old` is the state before. -/
def Dev.rangeLive (d old : Dev) : Dev :=
  (upTo 64).foldl (fun d c =>
    if d.rangeOf c == old.rangeOf c then d
    else
      let i := 4 * c + d.rangeOf c
      let d1 := (d.put (F.SNS_CHc_OFS_OFS c) (d.powerOfs c).toNat).put (F.SNS_CHc_GCAL_VAL c) (tget f32One d.sns.pdGain i).toNat
      let d2 := { d1 with sns := { d1.sns with
        traces := tput d1.sns.traces c trace0
        slews := d1.sns.slews.filter (fun (s : Slew) => !(decide (s.kind = SlewKind.ofs c) || decide (s.kind = SlewKind.gcal c))) } }
      (d2.slewBits (.ofs c)).slewBits (.gcal c)) d

/-! ## The stored stitch (R219) -/

/-- A port that has not spotted. -/
def spot0 : SpotPort := { kept := [], est := none, slewAt := 0, slew := none, stored := (0, 0), storedAt := none }

/-- Spotting state of port p. -/
def Dev.spotOf (d : Dev) (p : Nat) : SpotPort := tget spot0 d.sns.spots p

/-- The state with the spotting state of port p changed. -/
def Dev.updSpot (d : Dev) (p : Nat) (f : SpotPort → SpotPort) : Dev :=
  { d with sns := { d.sns with spots := tput d.sns.spots p (f (d.spotOf p)) } }

/-- The stitch target of port p. -/
def Dev.stitchTgt (d : Dev) (p : Nat) : Int × Int := (d.getI (F.SNS_Pn_TGT_X_VAL p), d.getI (F.SNS_Pn_TGT_Y_VAL p))

/-- The stitch applied to port p. -/
def Dev.stitchNow (d : Dev) (p : Nat) : Int × Int := (d.getI (F.BEAMn_STITCH_X_OFS p), d.getI (F.BEAMn_STITCH_Y_OFS p))

/-- STITCH_STORE_WRITE (R219): at most once per 10 min while the target differs from the stored one. -/
def Dev.stitchStore (d : Dev) (p : Nat) : Dev :=
  let s := d.spotOf p
  let due := match s.storedAt with
    | some t => decide (600000000000 ≤ elapsed64 d.time t)
    | none => true
  if due && d.stitchTgt p != s.stored then
    (d.updSpot p (fun s => { s with stored := d.stitchTgt p, storedAt := some d.time })).storeWrite d.storeCopy d.sns.store
  else d

/-- STITCH_STORE_WRITE (R219). -/
def execStitchStoreWrite (p : Port) (s : State) : Host.Outcome State Fault Refusal := .next (s.onDev (fun d => d.stitchStore p.val))

/-! ## The graph of ports (R223) -/

/-- Two ports are joined: one's COVER list names the other as a local entry. -/
def spotJoined (l : List Section) (a b : Nat) : Bool :=
  (coverOf l a).any (fun e => e.node == 0xFF && e.port == b) || (coverOf l b).any (fun e => e.node == 0xFF && e.port == a)

/-- The ports at each number of steps from the reference port: those seen, and those reached last. -/
def Dev.spotLevels (d : Dev) (l : List Section) (ports : List Nat) : Nat → List Nat → List Nat → Table Nat
  | 0, _, _ => []
  | n + 1, seen, last =>
    let next := ports.filter (fun p => !(seen.contains p) && last.any (fun q => spotJoined l p q))
    next.filterMap (fun p => (last.filter (fun q => spotJoined l p q)).head?.map (fun q => (p, q))) ++
      d.spotLevels l ports n (seen ++ next) next

/-- At a bed boundary the graph is formed, each port gets its parent, and observations whose parents have changed end (R223, R229). -/
def Dev.spotGraph (d : Dev) : Dev :=
  let l := d.sections false
  let r := d.get F.SNS_CTRL_REF_PORT
  let ports := (upTo 32).filter (fun p => d.inService p)
  let par : Table Nat := if ports.contains r then d.spotLevels l ports 32 [r] [r] else []
  let old := fun (p : Nat) => (d.flag (F.SNS_Pn_SPOT_NOPARENT p), d.get (F.SNS_Pn_SPOT_PARENT p))
  let d1 := (portsInUse l).foldl (fun d p =>
    let q := tfind par p
    ((d.setFlag (F.SNS_Pn_SPOT_REFERENCE p) (p == r)).setFlag (F.SNS_Pn_SPOT_NOPARENT p) (q.isNone && p != r)).put
      (F.SNS_Pn_SPOT_PARENT p) (q.getD 0)) d
  let moved := fun (p : Nat) => old p != (d1.flag (F.SNS_Pn_SPOT_NOPARENT p), d1.get (F.SNS_Pn_SPOT_PARENT p))
  let d2 := (d1.sns.obs.filter (fun (x : Nat × SpotObs) => moved x.1 || moved x.2.parent)).foldl (fun d x => d.spotStop x.1) d1
  (portsInUse l).foldl (fun d p =>
    let on := d.flag F.SNS_CTRL_SPOT_EN && (tfind par p).isSome
    if (tfind d.sns.obs p).isSome || (d.spotOf p).slew.isSome then d else d.put (F.SNS_Pn_SPOT_STATE p) (b2n on)) d2

/-! ## Observations (R224 to R226) -/

/-- The port that a slice uses (R366). -/
def Dev.slicePort (d : Dev) (s : Slice) : Option Nat :=
  match s with
  | .pairLogic k => if d.get (F.ENG_PAIRk_STATE k.val) == 1 then some (d.get (F.ENG_PAIRk_PORT k.val)) else none
  | .loopLogic k => if d.get (F.ENG_PAIRk_STATE k.val) == 1 then some (d.get (F.ENG_PAIRk_PORT k.val)) else none
  | .pd c => some (c.val / 2)
  | .dac p => some p.val
  | .temp t => if t.val < 64 then some (t.val / 2) else none
  | .sdcmp p _ => some p.val
  | .enc _ => none

/-- A self-test slice runs on port p. -/
def Dev.sliceOn (d : Dev) (p : Nat) : Bool := ([d.bist.dig, d.bist.ana].filterMap id).any (fun s => d.slicePort s == some p)

/-- T-ticks of a move in which its nominal point lies inside both fields. -/
def Dev.sharedTicks (d : Dev) (m : Move) (k : PKey) (p q : Nat) : Nat :=
  let l := d.keySections k
  let first := snapF m.t0
  ((upTo (snapF (fracAdd m.t0 m.dt) - first)).filter (fun j =>
    let s := m.sample (first + j) 0
    let pt : Pt := (s.x / 2 ^ 32, s.y / 2 ^ 32)
    inPoly (fieldOf l p) pt && inPoly (fieldOf l q) pt)).length

/-- The stroke that a parent is about to expose: its path, segment and displacement, if it stays long enough in both fields (R224). -/
def Dev.strokeOf (d : Dev) (m : Dram) (p q : Nat) : Option (PKey × Nat × Int × Int) :=
  match d.runOf q with
  | none => none
  | some r =>
    match r.moves.find? (fun x => decide (x.kind = .expose) && (snapF x.t0 == r.k || snapF x.t0 == r.k + 1)) with
    | none => none
    | some x =>
      match d.segOf m r.key x.seg with
      | .ok s => if obsTicks ≤ d.sharedTicks x r.key p q then some (r.key, x.seg, s.dx, s.dy) else none
      | _ => none

/-- A loss is declared on channel 2n of port p (R224): on the MELT block while it reads that channel (R179, R192). -/
def Dev.melt2nLost (d : Dev) (p : Nat) : Bool :=
  match (d.loopOfPort p).ofType 2 with
  | some x => (x.sel == 1 || x.sel == 3) && d.flag (F.LOOPn_STAT_MP_LOST p)
  | none => false

/-- Port p may start an observation, but for its parent's stroke (R224). -/
def Dev.mayObserve (d : Dev) (p : Nat) : Bool :=
  decide (d.sys.sup = .running) && d.flag F.SNS_CTRL_SPOT_EN && !(d.xy2 p) && d.get (F.BEAMn_PSTAT_LINK p) == 4 && !(d.flag (F.BEAMn_TSTAT_NOGRID p)) && d.inService p &&
  (d.runOf p).isNone && (d.engOf p).queue.isEmpty && (d.tkoFor p).isNone && !(d.prtOf p).gate && !(d.sliceOn p) &&
  pdRole (d.sections false) (2 * p) == 1 && !(d.melt2nLost p) && (d.spotOf p).slew.isNone &&
  !(d.flag (F.SNS_Pn_SPOT_NOPARENT p)) && p != d.get F.SNS_CTRL_REF_PORT && (tfind d.sns.obs p).isNone

/-- SPOT_OBSERVATION_START (R224). -/
def Dev.spotStart (d : Dev) (m : Dram) (p : Nat) : Dev :=
  let q := d.get (F.SNS_Pn_SPOT_PARENT p)
  match d.mayObserve p && d.inService q, d.strokeOf m p q with
  | true, some (k, seg, dx, dy) =>
    let z := List.replicate 33 (f32Zero false)
    let o : SpotObs := { parent := q, key := k, seg := seg, dx := dx, dy := dy, k := 0, sweeps := 0, acc := z, sweep := z, bad := false }
    ({ d with sns := { d.sns with obs := tput d.sns.obs p o } }).put (F.SNS_Pn_SPOT_STATE p) 2
  | _, _ => d

/-- SPOT_OBSERVATION_START (R224). -/
def execSpotObservationStart (p : Port) (s : State) : Host.Outcome State Fault Refusal :=
  .next (s.onDev (fun d => d.spotStart s.mem p.val))

/-- A sum in order (R9). -/
def f32Sum (l : List Word) : Word := l.foldl f32Add (f32Zero false)

/-- The template at m steps for a width of w steps (R226). -/
def spotTmpl (w : Word) (m : Int) : Word :=
  if m < -16 || 16 < m then f32Zero false
  else Config.f32Exp (f32Div (f32Negate (f32OfInt (m * m))) (f32Mul (f32Mul (f32OfInt 2) w) w))

/-- The square root of a sum of squares, rounded once. -/
def f32Root (l : List Word) : Word := f32OfFr (fracSqrt (fracOfF32 (f32Sum (l.map (fun x => f32Mul x x)))))

/-- The across-track offset of a complete observation in bu (R226); none where it is discarded. `step` is in bu, `um` the template's width
in µm. -/
def spotReduce (acc0 : List Word) (step : Nat) (um minCorr : Word) : Option Word :=
  let st := f32OfInt step
  let w := f32Div (f32Mul um (f32OfInt 100)) st
  let mean := f32Div (f32Sum acc0) (f32OfInt 33)
  let acc := acc0.map (fun x => f32Sub x mean)
  let tm := spotTmpl w
  let corr := fun (l : Int) => f32Sum ((upTo 33).map (fun (j : Nat) => f32Mul (acc.getD j (f32Zero false)) (tm ((j : Int) - 16 - l))))
  let l0 := ((upTo 25).map (fun (i : Nat) => (i : Int) - 12)).foldl (fun (b : Int) l => if f32Lt (corr b) (corr l) then l else b) (-12)
  let norm := f32Mul (f32Root acc) (f32Root ((upTo 33).map (fun (j : Nat) => tm ((j : Int) - 16))))
  if l0 == -12 || l0 == 12 || !(f32Le minCorr (f32Div (corr l0) norm)) then none
  else
    let a := corr (l0 - 1)
    let b := corr l0
    let c := corr (l0 + 1)
    let fr := f32Div (f32Sub a c) (f32Mul (f32OfInt 2) (f32Add (f32Sub a (f32Mul (f32OfInt 2) b)) c))
    some (f32Mul (f32Add (f32OfInt l0) fr) st)

/-! ## Estimates of a port (R227, R228) -/

/-- Two normals differ by 30° to 150° (R227): the cosine lies within ±√3/2. -/
def crossing (a b : SpotKept) : Bool :=
  let dot := a.dx * b.dx + a.dy * b.dy
  decide (4 * (dot * dot) ≤ 3 * ((a.dx * a.dx + a.dy * a.dy) * (b.dx * b.dx + b.dy * b.dy)))

/-- The offset d with d · n₁ = a₁ and d · n₂ = a₂, in 1/256 bu, each part rounded to nearest; n is the left normal (−dy, dx) of length
1. -/
def spotSolve (a b : SpotKept) : Int × Int :=
  let la := fracMul a.a (hypotI a.dx a.dy)
  let lb := fracMul b.a (hypotI b.dx b.dy)
  let det := fracI (a.dx * b.dy - a.dy * b.dx)
  (fracRne (fracDiv (fracSub (fracMul la (fracI b.dx)) (fracMul lb (fracI a.dx))) det),
   fracRne (fracDiv (fracSub (fracMul la (fracI b.dy)) (fracMul lb (fracI a.dy))) det))

/-- The first two kept observations that cross. -/
def firstCrossing : List SpotKept → Option (SpotKept × SpotKept)
  | [] => none
  | a :: t => match t.find? (fun b => crossing a b) with
    | some b => some (a, b)
    | none => firstCrossing t

/-- X and Y in bu as the two halves of a parameter. -/
def buPair (v : Int × Int) : Nat := trunc 16 (fracRne (frac v.1 256)) + 65536 * trunc 16 (fracRne (frac v.2 256))

/-- 0.5 µm in 1/256 bu. -/
def spotAgree : Int := 12800

/-- An estimate that agrees with the previous one moves the stitch target (R228). -/
def Dev.spotAccept (d : Dev) (p : Nat) (e q : Int × Int) : Dev :=
  let now := d.stitchNow p
  let t : Int × Int := (now.1 + fracRne (frac (e.1 + q.1) 2), now.2 + fracRne (frac (e.2 + q.2) 2))
  let lim : Int := 256 * d.get F.SNS_SPOT_MAX_MAX
  if lim < t.1.natAbs || lim < t.2.natAbs then
    (d.setFlag F.SNS_STAT_SPOT_REF true).raise 0x0513 0x0D 2 p (trunc 32 t.1) (trunc 32 t.2)
  else
    let d1 := ((d.bump (F.SNS_Pn_ACC_COUNT p)).raise 0x0511 0x0D 1 p (buPair (d.stitchTgt p)) (buPair t))
    (((d1.putI (F.SNS_Pn_TGT_X_VAL p) t.1).putI (F.SNS_Pn_TGT_Y_VAL p) t.2).put (F.SNS_Pn_SPOT_STATE p) 3).updSpot p
      (fun s => { s with slewAt := d.tick, slew := some now })

/-- An estimate is formed (R227, R228). -/
def Dev.spotEstimate (d : Dev) (p : Nat) (e : Int × Int) : Dev :=
  let d1 := (((d.putI (F.SNS_Pn_EST_X_VAL p) e.1).putI (F.SNS_Pn_EST_Y_VAL p) e.2).raise 0x0510 0x0D 0
    (pair8 p (d.get (F.SNS_Pn_SPOT_PARENT p))) (trunc 32 e.1) (trunc 32 e.2))
  let d2 := d1.updSpot p (fun s => { s with est := some e })
  match (d.spotOf p).est with
  | none => d2
  | some q =>
    let dx := e.1 - q.1
    let dy := e.2 - q.2
    if dx * dx + dy * dy ≤ spotAgree * spotAgree then d2.spotAccept p e q
    else (d2.bump (F.SNS_Pn_REJ_COUNT p)).raise 0x0512 0x0D 0 p (fracRne (fracSqrt (fracI (dx * dx + dy * dy)))).toNat 0

/-- A kept observation joins those of the port (R227): older ones under another stitch or correction image are discarded; two that cross
form an estimate and are used up. -/
def Dev.spotKeep (d : Dev) (p : Nat) (o : SpotKept) : Dev :=
  let same := ((d.spotOf p).kept.filter (fun x => x.sx == o.sx && x.sy == o.sy && x.corr == o.corr)) ++ [o]
  let d1 := (d.bump (F.SNS_Pn_OBS_COUNT p)).updSpot p (fun s => { s with kept := same })
  match firstCrossing same with
  | none => d1
  | some (a, b) => (d1.updSpot p (fun s => { s with kept := (s.kept.erase a).erase b })).spotEstimate p (spotSolve a b)

/-- SPOT_OBSERVATION_COMPLETE (R226 to R228). -/
def Dev.spotComplete (d : Dev) (p : Nat) : Dev :=
  match tfind d.sns.obs p with
  | none => d
  | some o0 =>
    if o0.k < obsTicks then d
    else
      let o := o0.roll
      let d1 := d.spotStop p
      match spotReduce o.acc (d.get F.SNS_SPOT_STEP_STEP) (d.getW F.SNS_SPOT_W_VAL) (d.getW F.SNS_SPOT_MINCORR_VAL) with
      | none => d1
      | some a => d1.spotKeep p { a := fracMul (fracOfF32 a) (fracI 256), dx := o.dx, dy := o.dy, sx := d.get (F.BEAMn_STITCH_X_OFS p),
                                  sy := d.get (F.BEAMn_STITCH_Y_OFS p), corr := d.get (F.BEAMn_CORR_ID_CORR_ID p) }

/-- SPOT_OBSERVATION_COMPLETE (R226). -/
def execSpotObservationComplete (p : Port) (s : State) : Host.Outcome State Fault Refusal :=
  .next (s.onDev (fun d => d.spotComplete p.val))

/-- STITCH_SLEW_DONE (R229): the target is reached and set exactly. -/
def Dev.stitchDone (d : Dev) (p : Nat) : Dev :=
  match (d.spotOf p).slew with
  | none => d
  | some (x, y) =>
    let t := d.stitchTgt p
    if stitchAt x y t.1 t.2 ((elapsed32 d.tick (d.spotOf p).slewAt) / 2) == t then
      (((((d.putI (F.BEAMn_STITCH_X_OFS p) t.1).putI (F.BEAMn_STITCH_Y_OFS p) t.2).updSpot p (fun s => { s with slew := none })).put
        (F.SNS_Pn_SPOT_STATE p) 1).raise 0x0514 0x0D 0 p (trunc 32 t.1) (trunc 32 t.2))
    else d

/-- STITCH_SLEW_DONE (R229). -/
def execStitchSlewDone (p : Port) (s : State) : Host.Outcome State Fault Refusal := .next (s.onDev (fun d => d.stitchDone p.val))

end Sys2Proof.Machine
end

