-- ==== Sys2Proof/Machine/Thermal.lean ====
section
/-! DEFINITION. Temperature inputs, shed levels, hardware shutdown, sensor failure and die temperatures (13_thermal.md R339 to R352). -/

namespace Sys2Proof.Machine

/-- An input that has not been converted. -/
def thmIn0 : ThmIn := { prev := none, good := 0, bad := 0 }

/-- A beam without thermal history. -/
def thmBeam0 : ThmBeam := { step := 0, cool := none, blindAt := none, report := none, cmp := [] }

/-- Input t beside its registers. -/
def Dev.thmIn (d : Dev) (t : Nat) : ThmIn := tget thmIn0 d.thm.ins t

/-- The state with input t changed. -/
def Dev.updThmIn (d : Dev) (t : Nat) (f : ThmIn → ThmIn) : Dev :=
  { d with thm := { d.thm with ins := tput d.thm.ins t (f (d.thmIn t)) } }

/-- Beam p beside its registers. -/
def Dev.thmBeam (d : Dev) (p : Nat) : ThmBeam := tget thmBeam0 d.thm.beams p

/-- The state with beam p changed. -/
def Dev.updThmBeam (d : Dev) (p : Nat) (f : ThmBeam → ThmBeam) : Dev :=
  { d with thm := { d.thm with beams := tput d.thm.beams p (f (d.thmBeam p)) } }

/-- An event of this chapter, with SOURCE 0x09 (R353, R374). -/
def Dev.raiseThm (d : Dev) (code sev p1 : Nat) (p2 p3 : Int) : Dev := d.raise code 0x09 sev p1 (trunc 32 p2) (trunc 32 p3)

/-- Input t is in use: its type is not 0x00 and its port is not disabled (R339). -/
def Dev.tempUse (d : Dev) (t : Nat) : Bool :=
  tempType (d.sections false) t != 0 && (decide (64 ≤ t) || decide (t / 2 < d.variant.ports))

/-! ## Conversion (R340) -/

/-- The elementary charge over the Boltzmann constant, in kelvin per volt (SI values). -/
def chargeOverK : Frac := frac 16021766340 1380649

/-- A remote diode's temperature in kelvin: the measured ΔV in nV less the drop of 90 µA in the series resistance P2. -/
def diodeK (p1 p2 : Word) (nV : Nat) : Frac :=
  let v := fracMul (fracSub (fracI nV) (fracMul (fracOfF32 p2) (fracI 90000))) (frac 1 1000000000)
  fracDiv (fracMul chargeOverK v) (fracMul (fracOfF32 p1) (fracOfF32 (Config.f32Ln (f32OfInt 10))))

/-- A thermistor's temperature in kelvin from its resistance in mΩ. -/
def thermistorK (p1 p2 : Word) (mOhm : Nat) : Frac :=
  let r := f32Div (f32OfFrac mOhm 1000) p1
  fracDiv (fracI 1) (fracAdd (frac 100 29815) (fracDiv (fracOfF32 (Config.f32Ln r)) (fracOfF32 p2)))

/-- The reading of input t in 1/16 °C (R340): the front-end correction of power-up calibration is added. -/
def Dev.tempReading (d : Dev) (t : Nat) (raw : TempRaw) : Int :=
  let p1 := d.getW (F.THM_INt_P1_VAL t)
  let p2 := d.getW (F.THM_INt_P2_VAL t)
  let k := if tempType (d.sections false) t == 1 then diodeK p1 p2 raw.value else thermistorK p1 p2 raw.value
  clampI (-32768) 32767 (fracRne (fracMul (fracSub k (frac 27315 100)) (fracI 16)) + tget 0 d.sns.tempFix t)

/-- The cause of R349 that a conversion meets: 1 open, 2 short, 3 rate, 4 range, 0 none. -/
def tempCause (pinmV : Nat) (prev : Option Int) (x : Int) : Nat :=
  if 1700 < pinmV then 1
  else if pinmV < 50 then 2
  else if (prev.map (fun (p : Int) => decide (7 ≤ (x - p).natAbs))).getD false then 3
  else if x < -1024 || 4000 < x then 4
  else 0

/-! ## Levels (R342, R344, R345) -/

/-- The threshold of a level and its hysteresis. -/
def Dev.threshold (d : Dev) (t : Nat) : Nat → Int × Int
  | 1 => (d.getI (F.THM_INt_WT_WARN t), d.get (F.THM_INt_HYS_WARN_HYS t))
  | 2 => (d.getI (F.THM_INt_WT_THROTTLE t), d.get (F.THM_INt_HYS_THR_HYS t))
  | _ => (d.getI (F.THM_INt_SD_SHUTDOWN t), d.get (F.THM_INt_HYS_SD_HYS t))

/-- The level that reading x gives input t from level `old` (R342). -/
def Dev.levelFor (d : Dev) (t old : Nat) (x : Int) : Nat :=
  [1, 2, 3].foldl (fun l k =>
    let h := d.threshold t k
    if h.1 ≤ x || (decide (k ≤ old) && decide (h.1 - h.2 ≤ x)) then k else l) 0

/-- Input t takes a level (R342): a change records 0x0A00; a rise sets the matching bit of THM_STAT and raises attention THERMAL. -/
def Dev.setLevel (d : Dev) (t l : Nat) (x : Int) : Dev :=
  let old := d.get (F.THM_INt_VAL_LEVEL t)
  if old == l then d
  else
    let d1 := (d.put (F.THM_INt_VAL_LEVEL t) l).raiseThm 0x0A00 1 t l x
    if old < l then
      (d1.setFlag (if l == 1 then F.THM_STAT_WARN else if l == 2 then F.THM_STAT_THROTTLE else F.THM_STAT_SHUTDOWN) true).attn .thermal
    else d1

/-- The non-failed sensors of beam p. -/
def Dev.goodSensors (d : Dev) (p : Nat) : List Nat :=
  [2 * p, 2 * p + 1].filter (fun t => d.tempUse t && !(d.flag (F.THM_INt_VAL_FAILED t)))

/-- Whether beam p has a sensor. -/
def Dev.hasSensor (d : Dev) (p : Nat) : Bool := d.tempUse (2 * p) || d.tempUse (2 * p + 1)

/-- Beam p becomes blind (R351). -/
def Dev.goBlind (d : Dev) (m : Dram) (p : Nat) : Dev :=
  if d.flag (F.THM_Pn_STAT_BLIND p) then d
  else
    let shed := if 2 ≤ d.get (F.THM_Pn_STAT_LEVEL p) then 3 else 1
    let d1 := ((d.setFlag (F.THM_Pn_STAT_BLIND p) true).setFlag (F.THM_Pn_STAT_SINGLE p) false).setFlag F.THM_STAT_BLIND true
    let d2 := (d1.put (F.THM_Pn_STAT_BLIND_S p) 0).updThmBeam p (fun b => { b with blindAt := some d.time, cool := none })
    ((d2.setShed m p shed).raiseThm 0x0A06 4 p shed d.tick.toNat).attn .thermal

/-- Beam p's level follows its non-failed sensors, and its shed level follows its level (R344, R345, R351). Input t with reading x
brought it about. -/
def Dev.beamLevel (d : Dev) (m : Dram) (p t : Nat) (x : Int) : Dev :=
  let good := d.goodSensors p
  if good.isEmpty then d.goBlind m p
  else
    let l := (good.map (fun t => d.get (F.THM_INt_VAL_LEVEL t))).foldl max 0
    let was := if d.flag (F.THM_Pn_STAT_BLIND p) then 0 else d.get (F.THM_Pn_STAT_LEVEL p)
    let one := [2 * p, 2 * p + 1].any (fun t => d.flag (F.THM_INt_VAL_FAILED t))
    let d1 := ((d.put (F.THM_Pn_STAT_LEVEL p) l).setFlag (F.THM_Pn_STAT_SINGLE p) one).setFlag (F.THM_Pn_STAT_BLIND p) false
    let d2 := (d1.put (F.THM_Pn_STAT_BLIND_S p) 0).updThmBeam p (fun b => { b with blindAt := none })
    if 2 ≤ l then
      if was < 2 then
        ((d2.raiseThm 0x0A01 2 p t x).updThmBeam p (fun b => { b with step := d.time })).setShed m p 1
      else d2
    else d2.setShed m p 0

/-- After a return to service the shed level is set afresh from the level (R348). -/
def Dev.shedAfresh (d : Dev) (m : Dram) (p : Nat) : Dev :=
  if 2 ≤ d.get (F.THM_Pn_STAT_LEVEL p) then (d.updThmBeam p (fun b => { b with step := d.time })).setShed m p 1 else d.setShed m p 0

/-- SHED_STEP (R345): a beam held at THROTTLE for STEP s rises by one shed level, up to 3. -/
def Dev.shedStep (d : Dev) (m : Dram) (p : Nat) : Dev :=
  let b := d.thmBeam p
  let len := max 1 (d.get (F.THM_Pn_CFG_STEP p)) * 1000000000
  let shed := d.get (F.HND_Pn_STAT_SHED p)
  if !(d.flag (F.THM_Pn_STAT_BLIND p)) && decide (2 ≤ d.get (F.THM_Pn_STAT_LEVEL p)) && decide (1 ≤ shed) && decide (shed < 3) &&
      decide (len ≤ elapsed64 d.time b.step) then
    (d.updThmBeam p (fun b => { b with step := b.step + BitVec.ofNat 64 len })).setShed m p (shed + 1)
  else d

/-- SHED_STEP (R345). -/
def execShedStep (p : Port) (s : State) : Host.Outcome State Fault Refusal := .next (s.runDev (fun d m => d.shedStep m p.val))

/-! ## The shutdown latch (R346 to R348) -/

/-- Beam p's latch is set (R346): EMIT_ENn falls, whatever the control die commands. -/
def Dev.latchSet (d : Dev) (p : Nat) (rep : Option ThmReport) : Dev :=
  if d.flag (F.THM_Pn_STAT_LATCH p) then d
  else
    let d1 := ((d.setFlag (F.THM_Pn_STAT_LATCH p) true).setFlag (F.THM_Pn_STAT_REENTRY p) false).setFlag F.THM_STAT_SHUTDOWN true
    ((d1.updPrt p (fun x => { x with shut := true })).updThmBeam p (fun b => { b with cool := none, report := rep })).portBits p

/-- Since when beam p's non-failed sensors read below SHUTDOWN − SD_HYS (R348). -/
def Dev.coolCheck (d : Dev) (p : Nat) : Dev :=
  let good := d.goodSensors p
  let hot := good.isEmpty || good.any (fun t =>
    let h := d.threshold t 3
    !(d.flag (F.THM_INt_VAL_VALID t)) || decide (h.1 - h.2 ≤ d.getI (F.THM_INt_VAL_TEMP t)))
  d.updThmBeam p (fun b => { b with cool := if hot then none else b.cool.or (some d.time) })

/-- Both comparators of beam p count as FAIL (R366, R371): they disagreed on a conversion outside a slice of theirs. -/
def Dev.cmpDisagree (d : Dev) (p : Nat) (x : Int) : Dev :=
  let d1 := ((((d.bump F.BIST_FAILS_COUNT 2).setFlag F.BIST_STAT_FAIL true).setBit F.BIST_FAIL_CMP0_CMP p true).setBit F.BIST_FAIL_CMP1_CMP p
    true).updThmBeam p (fun b => { b with cmp := [0, 1] })
  let l := (List.finRange 32).flatMap (fun q => if q.val == p then [Slice.sdcmp q false, Slice.sdcmp q true] else [])
  let d2 := { d1 with bist := { d1.bist with failed := d1.bist.failed ++ l.filter (fun y => !(d1.bist.failed.contains y)) } }
  (d2.raise 0x0C00 0x0B 3 (6 + 16 * (2 * p)) (trunc 32 x) 0).raise 0x0C00 0x0B 3 (6 + 16 * (2 * p + 1)) (trunc 32 x) 0

/-- A slice tests a comparator of beam p (R366). -/
def Dev.cmpSlice (d : Dev) (p : Nat) : Bool :=
  match d.bist.ana with
  | some (.sdcmp q _) => q.val == p
  | _ => false

/-- A beam sensor's conversion passes the comparators (R346), of which one trips and the other does not where they disagree (`odd`). -/
def Dev.compareTemp (d : Dev) (p t : Nat) (x : Int) (odd : Bool) : Dev :=
  let off := odd && !(d.cmpSlice p)
  let d1 := if d.getI (F.THM_INt_SD_SHUTDOWN t) ≤ x || off then d.latchSet p (some { input := t, reading := x, tick := d.tick }) else d
  if off then d1.cmpDisagree p x else d1

/-- Lighting's thermistor has failed (R358): compensation goes on with the reading held. -/
def Dev.lampHeld (d : Dev) (t : Nat) (held : Int) : Dev :=
  if d.flag F.LED_STAT_FITTED && byteAt d.led.light 3 == t && !(d.flag F.LED_STAT_COMP_STALE) then
    (d.setFlag F.LED_STAT_COMP_STALE true).raise 0x0B03 0x0A 2 t (trunc 32 held) d.tick.toNat
  else d

/-- Sensor t is judged failed (R349). -/
def Dev.sensorFail (d : Dev) (m : Dram) (t cause : Nat) (x : Int) : Dev :=
  let good := (d.thmIn t).good
  let d1 := ((d.setFlag (F.THM_INt_VAL_FAILED t) true).put (F.THM_INt_VAL_FCAUSE t) cause).bump (F.THM_INt_FAILS_COUNT t)
  let d2 := (((d1.setFlag F.THM_STAT_SFAIL true).raiseThm 0x0A04 3 t cause good).attn .thermal).lampHeld t good
  if t < 64 then (d2.beamLevel m (t / 2) t x).coolCheck (t / 2) else d2

/-- A good conversion of input t: its level, its beam and the comparators. -/
def Dev.tempGood (d : Dev) (m : Dram) (t : Nat) (x : Int) (odd : Bool) : Dev :=
  let d1 := (d.updThmIn t (fun i => { i with good := x })).setLevel t (d.levelFor t (d.get (F.THM_INt_VAL_LEVEL t)) x) x
  if t < 64 then ((d1.beamLevel m (t / 2) t x).compareTemp (t / 2) t x odd).coolCheck (t / 2) else d1

/-- TEMP_CONVERSION (R339, R342, R346, R349). -/
def Dev.tempConversion (d : Dev) (m : Dram) (t : Nat) (raw : TempRaw) : Dev :=
  if d.tempUse t then
    let x := d.tempReading t raw
    let cause := tempCause raw.pinmV (d.thmIn t).prev x
    let d1 := ((d.putI (F.THM_INt_VAL_TEMP t) x).setFlag (F.THM_INt_VAL_VALID t) true).updThmIn t
      (fun i => { i with prev := some x, bad := if cause == 0 then i.bad else d.time })
    if d.flag (F.THM_INt_VAL_FAILED t) then d1
    else if cause != 0 then d1.sensorFail m t cause x
    else d1.tempGood m t x raw.odd
  else d

/-- TEMP_CONVERSION (R342). -/
def execTempConversion (t : TIn) (raw : TempRaw) (s : State) : Host.Outcome State Fault Refusal :=
  .next (s.runDev (fun d m => d.tempConversion m t.val raw))

/-- 10 s in ns. -/
def tenSeconds : Nat := 10000000000

/-- SENSOR_RESTORE (R350): 10 s without a conversion that meets a cause. -/
def Dev.sensorRestore (d : Dev) (m : Dram) (t : Nat) : Dev :=
  if d.flag (F.THM_INt_VAL_FAILED t) && decide (tenSeconds ≤ elapsed64 d.time (d.thmIn t).bad) then
    let x := d.getI (F.THM_INt_VAL_TEMP t)
    let d1 := ((d.setFlag (F.THM_INt_VAL_FAILED t) false).put (F.THM_INt_VAL_FCAUSE t) 0).updThmIn t (fun i => { i with good := x })
    let d2 := (d1.setLevel t (d1.levelFor t 0 x) x).raiseThm 0x0A05 1 t x d.tick.toNat
    if t < 64 then (d2.beamLevel m (t / 2) t x).coolCheck (t / 2) else d2
  else d

/-- SENSOR_RESTORE (R350). -/
def execSensorRestore (t : TIn) (s : State) : Host.Outcome State Fault Refusal := .next (s.runDev (fun d m => d.sensorRestore m t.val))

/-- SHUTDOWN_REPORT (R347): the control die blanks the beam, writes the entry and takes the running path over. -/
def Dev.shutdownReport (d : Dev) (m : Dram) (p : Nat) : Dev :=
  match (d.thmBeam p).report, d.sys.ctrlSilent with
  | some r, false =>
    let d1 := ((d.updThmBeam p (fun b => { b with report := none })).bump F.THM_SHUTDOWNS_COUNT).raiseThm 0x0A02 5 p r.input r.reading
    d1.portFault m p 5 (2 ^ 11) 5 r.tick
  | _, _ => d

/-- SHUTDOWN_REPORT (R347). -/
def execShutdownReport (p : Port) (s : State) : Host.Outcome State Fault Refusal := .next (s.runDev (fun d m => d.shutdownReport m p.val))

/-- BLIND_LIMIT_EXPIRE (R351): after 60 s blind the latch is set and the beam handled as under R347, with cause bit 12. -/
def Dev.blindExpire (d : Dev) (m : Dram) (p : Nat) : Dev :=
  match (d.thmBeam p).blindAt with
  | some t0 =>
    if 60000000000 ≤ elapsed64 d.time t0 then
      let d1 := (d.updThmBeam p (fun b => { b with blindAt := none })).put (F.THM_Pn_STAT_BLIND_S p) 60
      let d2 := if d.flag (F.THM_Pn_STAT_LATCH p) then d1 else (d1.latchSet p none).bump F.THM_SHUTDOWNS_COUNT
      (d2.raiseThm 0x0A07 5 p 60 d.tick.toNat).portFault m p 5 (2 ^ 12) 5 d.tick
    else d
  | none => d

/-- BLIND_LIMIT_EXPIRE (R351). -/
def execBlindLimitExpire (p : Port) (s : State) : Host.Outcome State Fault Refusal :=
  .next (s.runDev (fun d m => d.blindExpire m p.val))

/-- The highest reading of beam p's non-failed sensors. -/
def Dev.beamTemp (d : Dev) (p : Nat) : Int :=
  match (d.goodSensors p).map (fun t => d.getI (F.THM_INt_VAL_TEMP t)) with
  | [] => 0
  | a :: l => l.foldl max a

/-- Beam p's sensors have been below SHUTDOWN − SD_HYS for 10 s (R348). -/
def Dev.beamCool (d : Dev) (p : Nat) : Bool :=
  !(d.hasSensor p) || match (d.thmBeam p).cool with
    | some t => decide (tenSeconds ≤ elapsed64 d.time t)
    | none => false

/-- LATCH_RELEASE (R348, R352, R371). -/
def Dev.latchRelease (d : Dev) (p : Nat) : Dev :=
  if d.flag (F.THM_Pn_STAT_LATCH p) && (d.thmBeam p).report.isNone && d.beamCool p && !(d.flag F.THM_STAT_DIE_SD) &&
      (d.thmBeam p).cmp.isEmpty then
    ((((d.setFlag (F.THM_Pn_STAT_LATCH p) false).setFlag (F.THM_Pn_STAT_REENTRY p) true).updPrt p
      (fun x => { x with shut := false })).raiseThm 0x0A03 1 p (d.beamTemp p) d.tick.toNat).portBits p
  else d

/-- LATCH_RELEASE (R348). -/
def execLatchRelease (p : Port) (s : State) : Host.Outcome State Fault Refusal := .next (s.onDev (fun d => d.latchRelease p.val))

/-! ## A fault of many beams at once (R260, R352) -/

/-- Port p leaves service under a fault of the device: entry k names it unless it has an open entry, to which the cause is added
(a beam in HANDING is retired, R257). -/
def Dev.deviceOut (d : Dev) (m : Dram) (p cls cause sev : Nat) (k : Option Nat) : Dev :=
  let st := d.get (F.HND_Pn_STAT_STATE p)
  let d1 := (d.blankPort p).addClass p cls
  if st == 1 then d.portFault m p cls cause sev d.tick
  else match d.entryOf p, k with
  | some e, _ => d1.ftAdd e cause sev
  | none, some e =>
    let d2 := d1.put (F.HND_FTk_PORTS_PORTS e) (d1.get (F.HND_FTk_PORTS_PORTS e) ||| 2 ^ p)
    let d3 := (d2.put (F.HND_Pn_STAT_ENTRY p) e).setFlag (F.HND_Pn_STAT_ENTRY_V p) true
    if st == 0 then d3.put (F.HND_Pn_STAT_STATE p) (if (d.runOf p).isSome then 1 else 2) else d3
  | none, none => if st == 0 then d1.put (F.HND_Pn_STAT_STATE p) (if (d.runOf p).isSome then 1 else 2) else d1

/-- The path that runs on port p is taken over after a fault of the device (R247, R352). -/
def Dev.deviceHand (d : Dev) (m : Dram) (p : Nat) (k : Option Nat) (onset : Word) : Dev :=
  match d.runOf p with
  | none => (d.coverGone m p).portBits p
  | some r =>
    let rp := match d.path? r.key with
      | some path => d.resumeAt p r path onset
      | none => (d.engOf p).cutPoint r
    let h := d.handPath m p k r rp
    (((if h.2 then h.1 else h.1.handingDone (some p)).coverGone m p).ftSweep).portBits p

/-- A fault of the whole device (R260): one entry with DEVICE set; every port leaves service; then each running path is handed on, for
which only covers on other devices are left. -/
def Dev.deviceFault (d : Dev) (m : Dram) (cls cause sev : Nat) (ports : List Nat) : Dev :=
  let w := d.ftWrite none cls cause sev d.tick 0
  let d1 := ports.foldl (fun d p => (d.deviceOut m p cls cause sev w.2).returnQueue p) w.1
  (ports.foldl (fun d p => d.deviceHand m p w.2 d.tick) d1).ftSweep

/-! ## Die temperatures (R352) -/

/-- The sensor number of a die's sensor. -/
def dieIx (die s : Nat) : Nat := 2 * die + s

/-- The higher valid reading of a die. -/
def Dev.dieTemp (d : Dev) (die : Nat) : Option Int :=
  match tfind d.thm.die (dieIx die 0), tfind d.thm.die (dieIx die 1) with
  | some a, some b => some (max a b)
  | some a, none => some a
  | none, b => b

/-- Both sensors of a die are ignored. -/
def Dev.dieBlind (d : Dev) (die : Nat) : Bool :=
  (d.dieTemp die).isNone && d.thm.ignored.contains (dieIx die 0) && d.thm.ignored.contains (dieIx die 1)

/-- A sensor reading joins the valid ones, or is ignored and recorded once (R352). -/
def Dev.dieNote (d : Dev) (die s : Nat) (x : Int) : Dev :=
  if x < -1024 || 3200 < x then
    let seen := d.thm.ignored.contains (dieIx die s)
    let d1 := { d with thm := { d.thm with die := tdel d.thm.die (dieIx die s)
                                           ignored := if seen then d.thm.ignored else d.thm.ignored ++ [dieIx die s] } }
    if seen then d1 else d1.raiseThm 0x0A0A 2 (pair8 die s) x d.tick.toNat
  else { d with thm := { d.thm with die := tput d.thm.die (dieIx die s) x } }

/-- THM_DIE shows the higher valid reading of the die, 0x8000 where both sensors are ignored. -/
def Dev.dieShow (d : Dev) (die : Nat) : Dev :=
  let f := if die == 0 then F.THM_DIE_CTRL_T else F.THM_DIE_EDGE_T
  match d.dieTemp die with
  | some x => d.putI f x
  | none => if d.dieBlind die then d.put f 0x8000 else d

/-- DIE_HOT (R352): from 115 °C until below 110 °C. -/
def Dev.dieHot (d : Dev) (die : Nat) (x : Int) : Dev :=
  let was := d.thm.hot.contains die
  let d1 :=
    if !was && decide (1840 ≤ x) then
      ({ d with thm := { d.thm with hot := d.thm.hot ++ [die] } }.raiseThm 0x0A08 2 die x d.tick.toNat).attn .thermal
    else if was && decide (x < 1760) then { d with thm := { d.thm with hot := d.thm.hot.filter (· != die) } }
    else d
  d1.setFlag F.THM_STAT_DIE_HOT (!d1.thm.hot.isEmpty)

/-- The die shutdown (R352): from 130 °C on either die, until both have read below 120 °C for 10 s. -/
def Dev.dieShutdown (d : Dev) (m : Dram) (die : Nat) (x : Int) : Dev :=
  if decide (2080 ≤ x) && !(d.flag F.THM_STAT_DIE_SD) then
    let beams := upTo d.variant.ports
    let n := (beams.filter (fun p => !(d.flag (F.THM_Pn_STAT_LATCH p)))).length
    let d1 := beams.foldl (fun d p => d.latchSet p none) (d.setFlag F.THM_STAT_DIE_SD true)
    ((d1.bump F.THM_SHUTDOWNS_COUNT n).raiseThm 0x0A09 5 die x d.tick.toNat).deviceFault m 5 (2 ^ 11) 5 (portsInUse (d.sections false))
  else d

/-- Since when both dies have read below 120 °C; after 10 s the die shutdown holds no longer (R352). -/
def Dev.dieCool (d : Dev) : Dev :=
  let below := fun (x : Option Int) => (x.map (fun (v : Int) => decide (v < 1920))).getD false
  let cool := if below (d.dieTemp 0) && below (d.dieTemp 1) then d.thm.cool.or (some d.time) else none
  let d1 := { d with thm := { d.thm with cool := cool } }
  match cool with
  | some t => if tenSeconds ≤ elapsed64 d.time t then d1.setFlag F.THM_STAT_DIE_SD false else d1
  | none => d1

/-- DIE_TEMP_READ (R352). -/
def Dev.dieRead (d : Dev) (m : Dram) (die s : Nat) (x : Int) : Dev :=
  let d1 := (d.dieNote die s x).dieShow die
  match d1.dieTemp die with
  | some v => ((d1.dieHot die v).dieShutdown m die v).dieCool
  | none => d1.dieCool

/-- DIE_TEMP_READ (R352). -/
def execDieTempRead (die : Die) (sensor : Fin 2) (reading : BitVec 16) (s : State) : Host.Outcome State Fault Refusal :=
  .next (s.runDev (fun d m => d.dieRead m (match die with | .control => 0 | .edge => 1) sensor.val reading.toInt))

end Sys2Proof.Machine
end

