-- ==== Sys2Proof/Machine/Lighting.lean ====
section
/-! DEFINITION. The bed lighting drive (14_bed_lighting.md R355 to R363). -/

namespace Sys2Proof.Machine

/-- An event of this chapter, with SOURCE 0x0A (R365, R374). -/
def Dev.raiseLed (d : Dev) (code sev p1 p2 p3 : Nat) : Dev := d.raise code 0x0A sev p1 p2 p3

/-- The live LIGHT payload. -/
def Dev.lightNow (d : Dev) : List Byte := payOf (d.sections false) 0x50 0xFF

/-- The scan stops: every line is off (R359, R360). -/
def Dev.ledStop (d : Dev) : Dev :=
  ({ d with led := { d.led with frame := none, enAt := none, drive := none } }).setFlag F.LED_STAT_RUN false

/-- LED_CTRL.EN is written (R359): 0 turns every line off; a change to 1 starts frames at the next T-tick, with a transfer, and lets
lines that were dark after four trips light again (R362). -/
def Dev.ledEnable (d : Dev) (on : Bool) : Dev :=
  let was := d.flag F.LED_CTRL_EN
  let d1 := d.setFlag F.LED_CTRL_EN on
  if on && !was then { d1 with led := { d1.led with enAt := some d.tick, trips := [] } }
  else if !on then d1.ledStop
  else d1

/-- LED_CTRL.APPLY is written 1 (R359). -/
def Dev.ledApply (d : Dev) : Dev := (d.setFlag F.LED_CTRL_APPLY true).setFlag F.LED_STAT_PEND true

/-- Reset, UNRIGGED and bridge-silent states (R363): every line is off, EN returns to 0, every staging and drive value to its reset
value. -/
def Dev.ledClear (d : Dev) : Dev :=
  let d1 := (upTo 16).foldl (fun d l => (upTo 24).foldl (fun d c => d.put (F.LED_INTl_c_INT l c) 0) d) d
  let d2 := (upTo 4).foldl (fun d g => (upTo 16).foldl (fun d k => d.put (F.LED_COMPg_k_VAL g k) f32One.toNat) d) d1
  let d3 := ((d2.setFlag F.LED_CTRL_EN false).setFlag F.LED_CTRL_APPLY false).setFlag F.LED_STAT_PEND false
  { d3.ledStop with led := { d3.led with frame := none, enAt := none, ints := [], comps := [], trips := [], drive := none } }

/-! ## Intensities (R357) -/

/-- The compensation factor of group g at reading t in 1/16 °C (R357), in binary32 (R174). -/
def Dev.ledComp (d : Dev) (g : Nat) (t : Int) : Word :=
  let pt := fun (k : Nat) => tget f32One d.led.comps (16 * g + k)
  if t ≤ -320 then pt 0
  else if 2080 ≤ t then pt 15
  else
    let k := ((t + 320) / 160).toNat
    let u := f32Div (f32OfInt ((t + 320) - 160 * k)) (f32OfInt 160)
    f32Add (pt k) (f32Mul u (f32Sub (pt (k + 1)) (pt k)))

/-- The code of column c in line l (R356, R357): nothing for a column that is not used or not fitted. -/
def Dev.ledCode (d : Dev) (l c : Nat) : Nat :=
  let g := byteAt d.led.light (4 + c)
  if byteAt d.led.light 1 ≤ c || g == 0xFF then 0
  else
    let i : Nat := tget 0 d.led.ints (24 * l + c)
    let x := f32Mul (f32OfInt i) (d.ledComp g (d.getI F.LED_TEMP_TEMP))
    min 1023 (fracRne (fracOfF32 x)).toNat

/-- The current of a code in mA (R357). -/
def ledCurrent (code : Nat) : Frac := frac (code * 100) 1023

/-- Column c draws a current from the matrix (R356). -/
def Dev.ledColumn (d : Dev) (c : Nat) : Bool := decide (c < byteAt d.led.light 1) && byteAt d.led.light (4 + c) != 0xFF

/-! ## Frames (R355, R358 to R360) -/

/-- Every staging value is copied to the drive copy (R359). -/
def Dev.ledTransfer (d : Dev) : Dev :=
  let ints := (upTo 384).map (fun i => (i, d.get (F.LED_INTl_c_INT (i / 24) (i % 24))))
  let comps := (upTo 64).map (fun i => (i, d.getW (F.LED_COMPg_k_VAL (i / 16) (i % 16))))
  let d1 := { d with led := { d.led with ints := ints, comps := comps } }
  let d2 := ((d1.setFlag F.LED_CTRL_APPLY false).setFlag F.LED_STAT_PEND false).put F.LED_FRAME_APPLIED (d.get F.LED_FRAME_COUNT)
  d2.raiseLed 0x0B00 0 (d.get F.LED_FRAME_COUNT) (trunc 32 (d.getI F.LED_TEMP_TEMP)) d.tick.toNat

/-- The lamp-board reading of a frame (R357, R358): held while the thermistor is failed. -/
def Dev.ledReading (d : Dev) : Dev :=
  let t := byteAt d.led.light 3
  if d.flag (F.THM_INt_VAL_FAILED t) then
    let held := (d.thmIn t).good
    (d.lampHeld t held).putI F.LED_TEMP_TEMP held
  else
    let x := d.getI (F.THM_INt_VAL_TEMP t)
    let d1 := d.putI F.LED_TEMP_TEMP x
    if d.flag F.LED_STAT_COMP_STALE then
      (d1.setFlag F.LED_STAT_COMP_STALE false).raiseLed 0x0B04 1 t (trunc 32 x) d.tick.toNat
    else d1

/-- A frame is due (R355): the first T-tick after EN landed, or 500 T-ticks after the frame before. -/
def Dev.ledDue (d : Dev) : Bool :=
  d.flag F.LED_CTRL_EN && d.rigged && !d.sys.edgeSilent &&
  match d.led.frame, d.led.enAt with
  | some (k, _), _ => decide (500 ≤ elapsed32 d.tick k)
  | none, some k => d.tick != k
  | none, none => byteAt d.lightNow 0 != 0

/-- LED_FRAME_START (R355, R359, R360): the LIGHT section that is live now takes effect; with no line used, the scan stops. -/
def Dev.ledFrame (d : Dev) : Dev :=
  if d.ledDue then
    let fitted := byteAt d.lightNow 0 != 0
    let first := d.led.enAt.isSome
    let d1 := ({ d with led := { d.led with light := d.lightNow } }).setFlag F.LED_STAT_FITTED fitted
    if !fitted then { d1.ledStop with led := { d1.led with frame := none, enAt := d1.led.enAt, drive := none } }
    else
      let d2 := if d.led.begun then d1.bumpWrap F.LED_FRAME_COUNT else d1
      let d3 := { d2.setFlag F.LED_STAT_RUN true with
        led := { d2.led with frame := some (d.tick, d.time), enAt := none, begun := true, drive := none } }
      let d4 := d3.ledReading
      if first || d.flag F.LED_CTRL_APPLY then d4.ledTransfer else d4
  else d

/-- LED_FRAME_START (R355). -/
def execLedFrameStart (s : State) : Host.Outcome State Fault Refusal := .next (s.onDev (fun d => d.ledFrame))

/-! ## Line slots (R356, R362) -/

/-- A column could not hold its current (R362): recorded once until its bit is cleared. -/
def Dev.ledWeak (d : Dev) (l c : Nat) : Dev :=
  if d.bit F.LED_COL_FLT_COLS c then d
  else (d.setBit F.LED_COL_FLT_COLS c true).raiseLed 0x0B01 2 c l d.tick.toNat

/-- LED_LINE_SLOT (R356, R362): in its slot a used line drives its columns; a line that has tripped in four consecutive frames stays
dark. `weak` names the columns that cannot hold their current, `ovr` the overcurrent of the line switch. -/
def Dev.ledSlot (d : Dev) (l : Nat) (weak : Nat) (ovr : Bool) : Dev :=
  match d.led.frame with
  | none => d
  | some (_, t) =>
    if (elapsed64 d.time t) / 31250 != l then d
    else if byteAt d.led.light 0 ≤ l || decide (4 ≤ tget 0 d.led.trips l) then { d with led := { d.led with drive := none } }
    else
      let codes := (upTo 24).map (fun c => d.ledCode l c)
      let d1 := (upTo 24).foldl (fun d c => if bitAt weak c && d.ledColumn c then d.ledWeak l c else d) d
      if ovr then
        let n := tget 0 d.led.trips l + 1
        ({ d1 with led := { d1.led with drive := none, trips := tput d1.led.trips l n } }.setBit F.LED_LINE_FLT_LINES l true).raiseLed
          0x0B02 2 l n d.tick.toNat
      else { d1 with led := { d1.led with drive := some (l, codes), trips := tput d1.led.trips l 0 } }

/-- LED_LINE_SLOT (R356). -/
def execLedLineSlot (l : Fin 16) (weak : BitVec 24) (ovr : Bool) (s : State) : Host.Outcome State Fault Refusal :=
  .next (s.onDev (fun d => d.ledSlot l.val weak.toNat ovr))

end Sys2Proof.Machine
end

