-- ==== Sys2Proof/Machine/Camera.lean ====
section
/-! DEFINITION. Camera receivers (08_sensing_calibration.md R230 to R236). -/

namespace Sys2Proof.Machine

/-- A receiver that has just been enabled or reset. -/
def cam0 : CamRx := { frames := [], last := 0, fire := none, modeAt := 0, trig := false, lost := false }

/-- Receiver m beside its registers. -/
def Dev.cam (d : Dev) (m : Nat) : CamRx := tget cam0 d.sns.cams m

/-- The state with receiver m changed. -/
def Dev.updCam (d : Dev) (m : Nat) (f : CamRx → CamRx) : Dev :=
  { d with sns := { d.sns with cams := tput d.sns.cams m (f (d.cam m)) } }

/-- SOURCE of camera receiver m (R374). -/
def srcCam (m : Nat) : Nat := 0x28 + m

/-- Receiver m takes virtual channel vc (R230). -/
def Dev.camTakes (d : Dev) (m vc : Nat) : Bool := d.flag (F.CAMm_CTRL_EN m) && camVc (d.sections false) m vc

/-- CAMm_CTRL.EN is written: an enabled receiver waits for its first frame start; a stopped one holds no frame. -/
def Dev.camEnable (d : Dev) (m : Nat) (on : Bool) : Dev :=
  let was := d.flag (F.CAMm_CTRL_EN m)
  let d1 := d.setFlag (F.CAMm_CTRL_EN m) on
  if on == was then d1
  else (d1.setFlag (F.CAMm_STAT_LINK m) false).updCam m (fun c => { c with frames := [], last := d.time, trig := false, lost := false })

/-! ## Frames (R232, R236) -/

/-- The tile whose rectangle holds the observed port's nominal tick point, where that port exposes one of its paths (R233). -/
def Dev.camTile (d : Dev) (m : Nat) : Option Nat :=
  match camPort (d.sections false) m with
  | none => none
  | some p =>
    let e := d.engOf p
    match e.run.bind (fun (r : Run) => r.key.tile) with
    | none => none
    | some (n, t) =>
      match d.tile? n t with
      | none => none
      | some x =>
        if fixI x.rcd.xmin ≤ e.x && e.x ≤ fixI x.rcd.xmax && fixI x.rcd.ymin ≤ e.y && e.y ≤ fixI x.rcd.ymax then some t else none

/-- CAM_FRAME_START (R232, R233, R236): the settings are latched; LINK returns. -/
def Dev.camStart (d : Dev) (m vc : Nat) : Dev :=
  if d.camTakes m vc then
    let c := d.cam m
    let tile := d.camTile m
    let f : CamFrame :=
      { time := d.time, tick := d.tick, dt := d.get (F.CAMm_CTRL_DT m), thr := d.get (F.CAMm_THRESH_THR m),
        x0 := d.get (F.CAMm_ROI_XY_X0 m), y0 := d.get (F.CAMm_ROI_XY_Y0 m), w := d.get (F.CAMm_ROI_WH_W m),
        h := d.get (F.CAMm_ROI_WH_H m), fw := d.get (F.CAMm_FRAME_W m), fh := d.get (F.CAMm_FRAME_H m),
        cap := d.flag (F.CAMm_CTRL_CAPEN m), line := 0, area := 0, peak := 0, sw := 0, sx := 0, sy := 0, damaged := false,
        triggered := c.trig, port := camPort (d.sections false) m, tile := tile, raw := [] }
    let d1 := (d.updCam m (fun c => { c with frames := tput c.frames vc f, last := d.time, trig := false, lost := false })).setFlag
      (F.CAMm_STAT_LINK m) true
    if c.lost then d1.raise 0x0521 (srcCam m) 1 m (d.get (F.CAMm_FRAMES_COUNT m)) d.tick.toNat else d1
  else d

/-- The header of a packet that receiver m takes (R230): a corrected one is counted; one with a multi-bit error is counted and the packet
discarded. -/
def Dev.camHeader (d : Dev) (m : Nat) (hdr : HdrEcc) (f : Dev → Dev) : Dev :=
  if !(d.flag (F.CAMm_CTRL_EN m)) then d
  else
    match hdr with
    | .bad => d.bump (F.CAMm_HDR_ERR_UNCORR m)
    | .corrected => f (d.bump (F.CAMm_HDR_ERR_CORR m))
    | .clean => f d

/-- CAM_FRAME_START (R230, R232). -/
def execCamFrameStart (m : Cam) (h : CamHead) (s : State) : Host.Outcome State Fault Refusal :=
  .next (s.onDev (fun d => d.camHeader m.val h.ecc (fun d => d.camStart m.val h.vc.val)))

/-- CAM_LINK_TIMEOUT (R236): no frame start for 1 s. -/
def Dev.camTimeout (d : Dev) (m : Nat) : Dev :=
  let c := d.cam m
  if d.flag (F.CAMm_CTRL_EN m) && !c.lost && decide (1000000000 ≤ elapsed64 d.time c.last) then
    (((d.setFlag (F.CAMm_STAT_LINK m) false).setFlag (F.CAMm_STAT_TIMEOUT m) true).updCam m (fun c => { c with lost := true })).raise
      0x0520 (srcCam m) 2 m (d.get (F.CAMm_FRAMES_COUNT m)) d.tick.toNat
  else d

/-- CAM_LINK_TIMEOUT (R236). -/
def execCamLinkTimeout (m : Cam) (s : State) : Host.Outcome State Fault Refusal := .next (s.onDev (fun d => d.camTimeout m.val))

/-! ## Lines (R230, R232) -/

/-- The pixels of a RAW10 line: four pixels in five bytes, the fifth holding their low bits. -/
def raw10 : List Byte → List Nat
  | a :: b :: c :: e :: l :: t =>
    let low := fun (k : Nat) => l.toNat / 4 ^ k % 4
    (a.toNat * 4 + low 0) :: (b.toNat * 4 + low 1) :: (c.toNat * 4 + low 2) :: (e.toNat * 4 + low 3) :: raw10 t
  | _ => []

/-- The pixels of a RAW12 line: two pixels in three bytes, the third holding their low bits. -/
def raw12 : List Byte → List Nat
  | a :: b :: l :: t => (a.toNat * 16 + l.toNat % 16) :: (b.toNat * 16 + l.toNat / 16) :: raw12 t
  | _ => []

/-- The pixels of a line, scaled to 12 bits (R232). -/
def camPixels (dt : Nat) (l : List Byte) : List Nat :=
  if dt == 0 then l.map (fun b => b.toNat * 16)
  else if dt == 1 then (raw10 l).map (· * 4)
  else raw12 l

/-- One pixel of the region of interest joins the features (R232). -/
def CamFrame.pixel (f : CamFrame) (x y p : Nat) : CamFrame :=
  let f1 := { f with peak := max f.peak p }
  if f.thr ≤ p then
    { f1 with area := f.area + 1, sw := f.sw + (p - f.thr), sx := f.sx + x * (p - f.thr), sy := f.sy + y * (p - f.thr) }
  else f1

/-- The pixels of line y from x upwards, those inside the region and the frame. -/
def CamFrame.pixels (f : CamFrame) (y : Nat) : Nat → List Nat → CamFrame
  | _, [] => f
  | x, p :: t =>
    let inside := f.x0 ≤ x && x < f.x0 + f.w && f.y0 ≤ y && y < f.y0 + f.h
    (if inside then f.pixel x y p else f).pixels y (x + 1) t

/-- A line arrives: pixels beyond the width and lines beyond the height mark the frame DAMAGED, as do short lines, which are
zero-filled, and lines that failed their checksum, which count as all zero. -/
def CamFrame.takeLine (f : CamFrame) (payload : List Byte) (good : Bool) : CamFrame :=
  let ps := camPixels f.dt payload
  let f1 := { f with line := f.line + 1, raw := if f.cap then f.raw ++ payload else f.raw }
  if f.fh ≤ f.line then { f1 with damaged := true }
  else
    let row := if good then ps.take f.fw else []
    let full := row ++ List.replicate (f.fw - row.length) 0
    { f1.pixels f.line 0 full with damaged := f.damaged || !good || ps.length != f.fw }

/-- The data type that CAMm_CTRL.DT names (R230). -/
def camType (dt : Nat) : Nat := 0x2A + dt

/-- CAM_LONG_PACKET (R230). -/
def Dev.camPacket (d : Dev) (m vc : Nat) (hdr : HdrEcc) (dt : Nat) (payload : List Byte) (crcOk : Bool) : Dev :=
  d.camHeader m hdr (fun d =>
    if !(d.camTakes m vc) then d
    else if dt != camType (d.get (F.CAMm_CTRL_DT m)) then d.bump (F.CAMm_CRC_ERR_COUNT m)
    else
      let d1 := if crcOk then d else d.bump (F.CAMm_CRC_ERR_COUNT m)
      match tfind (d.cam m).frames vc with
      | none => d1
      | some f => d1.updCam m (fun c => { c with frames := tput c.frames vc (f.takeLine payload crcOk) }))

/-- CAM_LONG_PACKET (R230). -/
def execCamLongPacket (m : Cam) (vc : Fin 4) (hdr : HdrEcc) (dt : Byte) (payload : List Byte) (crcOk : Bool) (s : State) :
    Host.Outcome State Fault Refusal :=
  .next (s.onDev (fun d => d.camPacket m.val vc.val hdr dt.toNat payload crcOk))

/-! ## Frame end (R233, R235) -/

/-- A weighted mean in 1/16 pixel; 0xFFFF where AREA is 0. Where every weight is 0 the spec states no mean: `fre` is the free value. -/
def CamFrame.mean (f : CamFrame) (s fre : Nat) : Nat :=
  if f.area == 0 then 0xFFFF else if f.sw == 0 then fre % 2 ^ 16 else (fracRne (frac (16 * s : Nat) f.sw)).toNat

/-- The feature record (R233). -/
def CamFrame.record (f : CamFrame) (m vc : Nat) (captured dropped : Bool) (ofs fx fy : Nat) : List Byte :=
  let flags := b2n f.damaged + 2 * b2n f.triggered + 4 * b2n f.tile.isSome + 8 * b2n captured + 16 * b2n dropped
  leBytes 8 f.time.toNat ++ leBytes 4 f.tick.toNat ++ leBytes 1 (m + 16 * vc) ++ leBytes 1 flags ++ leBytes 2 (f.tile.getD 0xFFFF) ++
    leBytes 1 (f.port.getD 0xFF) ++ leBytes 1 0 ++ leBytes 2 f.peak ++ leBytes 4 f.area ++ leBytes 2 (f.mean f.sx fx) ++
    leBytes 2 (f.mean f.sy fy) ++ leBytes 4 ofs

/-- Where a frame of n units of 256 bytes goes in the capture ring, if the space holds it (R235): contiguous, from the base where it
would pass the end. One unit stays free, so that equal offsets mean an empty ring. -/
def Dev.capPlace (d : Dev) (m n : Nat) : Option Nat :=
  let len := d.get (F.CAMm_CAP_SIZE_SIZE m) * 16
  let wr := d.get (F.CAMm_CAP_WR_OFS m)
  let rd := d.get (F.CAMm_CAP_RD_OFS m) % len
  let used := (wr + len - rd) % len
  let skip := if wr + n ≤ len then 0 else len - wr
  if used + skip + n < len then some (if skip == 0 then wr else 0) else none

/-- The feature ring of receiver m (R233, R437). -/
def featRing (m : Nat) : Ring :=
  ⟨F.CAMm_FEAT_BASE_BASE m, F.CAMm_FEAT_SIZE_SIZE m, F.CAMm_FEAT_WR_INDEX m, F.CAMm_FEAT_RD_INDEX m, 32, 0x48 + m⟩

/-- CAM_FRAME_END (R233, R235): the frame is captured or dropped, and its feature record is written. -/
def Dev.camEnd (d : Dev) (m vc : Nat) : Dev :=
  match tfind (d.cam m).frames vc with
  | none => d
  | some f =>
    let fx := d.free
    let fy := fx.2.free
    let d1 := (if f.area != 0 && f.sw == 0 then fy.2 else d).updCam m (fun c => { c with frames := tdel c.frames vc })
    let d2 := (d1.bumpWrap (F.CAMm_FRAMES_COUNT m)).setFlag (F.CAMm_STAT_DAMAGED m) (f.damaged || d.flag (F.CAMm_STAT_DAMAGED m))
    let n := (32 + f.raw.length + 255) / 256
    let place := if f.cap then d.capPlace m n else none
    let dropped := f.cap && place.isNone
    let rec_ := f.record m vc place.isSome dropped (place.getD 0) fx.1 fy.1
    let d3 := match place with
      | some a =>
        (d2.queueWr (0x48 + m) (d.get (F.CAMm_CAP_BASE_BASE m) * 4096 + a * 256)
          (rec_ ++ f.raw ++ List.replicate (n * 256 - 32 - f.raw.length) 0)).put (F.CAMm_CAP_WR_OFS m)
            ((a + n) % (d.get (F.CAMm_CAP_SIZE_SIZE m) * 16))
      | none => if dropped then (d2.bump (F.CAMm_DROPS_COUNT m)).setFlag (F.CAMm_STAT_CAPDROP m) true else d2
    let w := d3.ringPut (featRing m) rec_
    if w.2 then w.1.setFlag (F.CAMm_STAT_FEATLOST m) true else w.1

/-- CAM_FRAME_END (R233). -/
def execCamFrameEnd (m : Cam) (h : CamHead) (s : State) : Host.Outcome State Fault Refusal :=
  .next (s.runDev (fun d _ => d.camHeader m.val h.ecc (fun d => d.camEnd m.val h.vc.val)))

/-! ## Triggers (R234, R361) -/

/-- A trigger locked to lighting frames is due (R361). -/
def Dev.camLit (d : Dev) : Bool :=
  let phase := d.get F.BED_STAT_PHASE
  d.flag F.LED_CTRL_EN && d.flag F.LED_STAT_FITTED &&
  d.get F.LED_FRAME_COUNT % max 1 (d.get F.LED_SYNC_DIV) == 0 && (!(d.flag F.LED_SYNC_RECOAT) || phase == 3 || phase == 4) &&
  match d.led.frame with
  | some (k, _) => (d.tick - k).toNat == d.get F.LED_SYNC_DELAY
  | none => false

/-- The trigger of receiver m is due in its mode. -/
def Dev.camDue (d : Dev) (m : Nat) : Bool :=
  match d.get (F.CAMm_TRIG_MODE m) with
  | 1 => (d.tick - (d.cam m).modeAt).toNat % max 1 (d.get (F.CAMm_TRIG_PER_PERIOD m)) == 0
  | 2 => d.camLit
  | _ => false

/-- A FIRE that waits pulses from the first T-tick after it landed, in any mode except 0. -/
def Dev.camFired (d : Dev) (m : Nat) : Bool :=
  d.get (F.CAMm_TRIG_MODE m) != 0 && ((d.cam m).fire.map (fun k => k != d.tick)).getD false

/-- CAM_TRIGGER (R234). -/
def Dev.camTrigger (d : Dev) (m : Nat) : Dev :=
  if d.camDue m || d.camFired m then
    (d.updCam m (fun c => { c with trig := true, fire := if d.camFired m then none else c.fire })).pulse (0x20 + m)
      (1000 * max 1 (d.get (F.CAMm_TRIG_WIDTH m)))
  else d

/-- CAM_TRIGGER (R234). -/
def execCamTrigger (m : Cam) (s : State) : Host.Outcome State Fault Refusal := .next (s.onDev (fun d => d.camTrigger m.val))

end Sys2Proof.Machine
end

