-- ==== Sys2Proof/Machine/Encoder.lean ====
section
/-! DEFINITION. Encoder inputs and compare units (10_encoders_axes.md R273 to R285), and the fault of an auxiliary axis (R290). -/

namespace Sys2Proof.Machine

/-- An input that has seen no edge; its lines are taken as low (log entry 9). -/
def enc0 : Enc :=
  { a := false, b := false, z := false, ra := 0, rb := 0, rz := 0, clock := 0, last := 0, edge := none, ill := [], fa := 0, fb := 0, fz := 0 }

/-- Input e beside its registers. -/
def Dev.encOf (d : Dev) (e : Nat) : Enc := tget enc0 d.encs e

/-- The state with input e changed. -/
def Dev.updEnc (d : Dev) (e : Nat) (f : Enc → Enc) : Dev := { d with encs := tput d.encs e (f (d.encOf e)) }

/-- SOURCE of encoder input e, compare unit k and axis a (R374). -/
def srcEnc (e : Nat) : Nat := 0x10 + e
/-- SOURCE of compare unit k (R374). -/
def srcCmp (k : Nat) : Nat := 0x18 + k
/-- SOURCE of auxiliary axis a (R374). -/
def srcAxis (a : Nat) : Nat := 0x20 + a

/-- Input e is counted (R273). -/
def Dev.encCounts (d : Dev) (e : Nat) : Bool := d.rigged && encRole (d.sections false) e != 0

/-- Input e has role 0x00 in the live rigging: its registers hold their reset values (R273). -/
def Dev.encHeld (d : Dev) (e : Nat) : Bool := d.rigged && encRole (d.sections false) e == 0

/-- Input e is in use (R277). -/
def Dev.encInUse (d : Dev) (e : Nat) : Bool :=
  let l := d.sections false
  let r := encRole l e
  ((r == 1 || r == 2) && d.get F.BED_STAT_PHASE != 0) || (r == 3 && d.flag (F.AXSa_CTRL_EN (encAxis l e)))

/-! ## Auxiliary axis faults (R290) -/

/-- An axis that has not been enabled. -/
def axs0 : Axs :=
  { ref := 0, vel := f0, acc := f0, move := none, next := none, stop := false, i := f32Zero false, ePrev := f32Zero false, feRun := 0,
    last := 0, tab := [] }

/-- Axis a beside its registers. -/
def Dev.axsOf (d : Dev) (a : Nat) : Axs := tget axs0 d.axs a

/-- The state with axis a changed. -/
def Dev.updAxs (d : Dev) (a : Nat) (f : Axs → Axs) : Dev := { d with axs := tput d.axs a (f (d.axsOf a)) }

/-- Axis a faults (R290): 1 following error, 2 input lost, 3 numeric. The output goes to 0 at the next update. -/
def Dev.axisFault (d : Dev) (a cause : Nat) : Dev :=
  if d.flag (F.AXSa_CTRL_EN a) && d.get (F.AXSa_STAT_STATE a) != 3 then
    let f := if cause == 1 then F.AXSa_STAT_FE_EXC a else if cause == 2 then F.AXSa_STAT_ENC_LOST a else F.AXSa_STAT_NUMERIC a
    ((((d.put (F.AXSa_STAT_STATE a) 3).setFlag (F.AXSa_STAT_BNDARM a) false).setFlag f true).raise 0x0910 (srcAxis a) 3 a cause
      (d.get (F.AXSa_REF_POS a))).attn .axis
  else d

/-! ## Compare units (R280 to R285) -/

/-- Nothing waits to become live. -/
def cmp0 : CmpU := { value := none, arm := false }

/-- What waits in unit k. -/
def Dev.cmpOf (d : Dev) (k : Nat) : CmpU := tget cmp0 d.cmps k

/-- The state with unit k changed. -/
def Dev.updCmp (d : Dev) (k : Nat) (f : CmpU → CmpU) : Dev := { d with cmps := tput d.cmps k (f (d.cmpOf k)) }

/-- The units whose source is input e. -/
def Dev.cmpsOn (d : Dev) (e : Nat) : List Nat := (upTo 8).filter (fun k => d.get (F.QE_CMPk_CTRL_SRC k) == e)

/-- The count of input e. -/
def Dev.count (d : Dev) (e : Nat) : Word := d.getW (F.QEe_COUNT_COUNT e)

/-- A signed difference in the direction of travel. -/
def along (down : Bool) (v : Int) : Int := if down then -v else v

/-- CNT is decremented by a hit or a skipped spacing (R281). -/
def Dev.cmpCount (d : Dev) (k : Nat) : Dev :=
  let n := d.get (F.QE_CMPk_CNT_CNT k)
  if n == 0 then d
  else
    let d1 := d.put (F.QE_CMPk_CNT_CNT k) (n - 1)
    if n == 1 then
      ((d1.setFlag (F.QE_CMPk_STAT_ARMED k) false).setFlag (F.QE_CMPk_STAT_DONE k) true).raise 0x0909 (srcCmp k) 0 k
        (d.get (F.QE_CMPk_HITS_COUNT k)) d.tick.toNat
    else d1

/-- V moves by n spacings in a direction. -/
def Dev.cmpMove (d : Dev) (k : Nat) (down : Bool) (n : Nat) : Dev :=
  d.putI (F.QE_CMPk_VAL_VAL k) (d.getI (F.QE_CMPk_VAL_VAL k) + along down (n * d.get (F.QE_CMPk_SPACE_SPACE k) : Nat))

/-- One skipped spacing (R282): V advances; the Control Bar counts it as a hit (R105). -/
def Dev.cmpSkip (d : Dev) (m : Dram) (k : Nat) (down : Bool) : Dev :=
  ((((d.cmpMove k down 1).bumpWrap (F.QE_CMPk_HITS_COUNT k)).bump (F.QE_CMPk_SKIP_COUNT k)).cmpCount k).chaseHit m k true

/-- The direction of travel that judges unit k (R282): true for decreasing. -/
def Dev.cmpDown (d : Dev) (k : Nat) : Bool :=
  let e := d.get (F.QE_CMPk_CTRL_SRC k)
  let dir := d.get (F.QE_CMPk_CTRL_DIR k)
  if d.flag (F.QEe_STAT_MOVING e) || dir == 2 then d.flag (F.QEe_STAT_DIR e) else dir == 1

/-- The live value of unit k is judged against the present count (R282), whether or not its source is lost, which stops hits alone (R285).
With CATCHUP it advances until it is ahead, past the end of CNT too. -/
def Dev.cmpJudge (d : Dev) (m : Dram) (k : Nat) : Dev :=
  let down := d.cmpDown k
  let v := d.getW (F.QE_CMPk_VAL_VAL k)
  let c := d.count (d.get (F.QE_CMPk_CTRL_SRC k))
  let gap := along down (v - c).toInt
  if 0 < gap then d
  else
    let d1 := (d.setFlag (F.QE_CMPk_STAT_CMP_BEHIND k) true).raise 0x0908 (srcCmp k) 1 k v.toNat c.toNat
    let space := d.get (F.QE_CMPk_SPACE_SPACE k)
    if d.flag (F.QE_CMPk_CTRL_CATCHUP k) && space != 0 then
      (upTo (gap.natAbs / space + 1)).foldl (fun d _ => d.cmpSkip m k down) d1
    else d1

/-- COMPARE_VALUE_LIVE (R282): a written value, or the setting of ARMED, becomes live. -/
def Dev.cmpLive (d : Dev) (m : Dram) (k : Nat) : Dev :=
  let u := d.cmpOf k
  if u.value.isNone && !u.arm then d
  else
    let d1 := match u.value with
      | some v => d.put (F.QE_CMPk_VAL_VAL k) v.toNat
      | none => d
    let d2 := if u.arm then d1.setFlag (F.QE_CMPk_STAT_ARMED k) true else d1
    (d2.updCmp k (fun _ => cmp0)).cmpJudge m k

/-- COMPARE_VALUE_LIVE (R282). -/
def execCompareValueLive (k : Cmp) (s : State) : Host.Outcome State Fault Refusal := .next (s.runDev (fun d m => d.cmpLive m k.val))

/-- A hit of unit k at a count (R280, R281, R283, R284). With SPACE 0 the unit disarms; a value written in the meantime is not advanced. -/
def Dev.cmpHit (d : Dev) (m : Dram) (k : Nat) (down : Bool) (c : Word) : Dev :=
  let d1 := ((d.bumpWrap (F.QE_CMPk_HITS_COUNT k)).put (F.QE_CMPk_HIT_TICK_TICK k) d.tick.toNat).pulse (0x10 + k)
    (100 * max 1 (d.get (F.QE_CMPk_CTRL_PW k)))
  let d2 :=
    if d.get (F.QE_CMPk_SPACE_SPACE k) == 0 then d1.setFlag (F.QE_CMPk_STAT_ARMED k) false
    else if (d.cmpOf k).value.isSome then d1
    else d1.cmpMove k down 1
  ((d2.cmpCount k).chaseHit m k false).syncHit m k c

/-- A counted edge brings the count of a unit's source from c0 to c1 (R280). -/
def Dev.cmpEdge (d : Dev) (m : Dram) (k : Nat) (down : Bool) (c0 c1 : Word) : Dev :=
  let v := d.getW (F.QE_CMPk_VAL_VAL k)
  let dir := d.get (F.QE_CMPk_CTRL_DIR k)
  if d.flag (F.QE_CMPk_CTRL_ARM k) && d.flag (F.QE_CMPk_STAT_ARMED k) && !(d.flag (F.QE_CMPk_STAT_SRC_LOST k)) &&
      (dir == 2 || dir == b2n down) && decide (along down (c0 - v).toInt < 0) && decide (0 ≤ along down (c1 - v).toInt) then
    d.cmpHit m k down c1
  else d

/-! ## Loss (R277) -/

/-- Input e is declared lost (R277): 1 illegal transitions, 2 a line fault. -/
def Dev.encLose (d : Dev) (m : Dram) (e cause : Nat) : Dev :=
  if d.flag (F.QEe_ERR_LOST e) then d
  else
    let l := d.sections false
    let d1 := ((d.setFlag (F.QEe_ERR_LOST e) true).bump (F.QEe_LOSSES_COUNT e)).raise 0x0901 (srcEnc e) (if d.encInUse e then 4 else 3) e
      cause (d.count e).toNat
    let d2 := (d.cmpsOn e).foldl (fun d k => d.setFlag (F.QE_CMPk_STAT_SRC_LOST k) true) d1
    if encRole l e == 1 then d2.chaseLose m e
    else if encRole l e == 3 then d2.axisFault (encAxis l e) 2
    else d2

/-- 1 ms in samples. -/
def lineSamples : Nat := 200000

/-- The lines at fault over n more samples: counts of consecutive samples, LINE_NOW, and the declaration after 1 ms (R277). -/
def Dev.encLines (d : Dev) (m : Dram) (e : Nat) (lines n : Nat) : Dev :=
  let en := d.encOf e
  let run := fun (k old : Nat) => if bitAt lines k then old + n else 0
  let fa := run 0 en.fa
  let fb := run 1 en.fb
  let fz := if encUsesZ (d.sections false) e then run 2 en.fz else 0
  let at_ := fun (v : Nat) => decide (lineSamples ≤ v)
  let new := fun (old v : Nat) => decide (old < lineSamples) && at_ v
  let mask := b2n (at_ fa) + 2 * b2n (at_ fb) + 4 * b2n (at_ fz)
  let d1 := (d.updEnc e (fun x => { x with fa := fa, fb := fb, fz := fz })).setFlag (F.QEe_ERR_LINE_NOW e) (mask != 0)
  if new en.fa fa || new en.fb fb || new en.fz fz then
    ((d1.setFlag (F.QEe_ERR_LINE e) true).raise 0x0903 (srcEnc e) 2 e mask d.tick.toNat).encLose m e 2
  else d1

/-- An illegal transition (R275, R277). -/
def Dev.encIllegal (d : Dev) (m : Dram) (e : Nat) : Dev :=
  let now := (d.encOf e).clock
  let ill := (now :: (d.encOf e).ill).take 16
  let d1 := (((d.setFlag (F.QEe_ERR_ILLEGAL e) true).bump (F.QEe_ILLEGAL_COUNT e)).raise 0x0900 (srcEnc e) 2 e (d.count e).toNat
    d.tick.toNat).updEnc e (fun x => { x with ill := ill })
  if ill.length == 16 && decide (now - ill.getLast?.getD 0 < lineSamples) then d1.encLose m e 1 else d1

/-! ## Counting (R275, R278, R279) -/

/-- 2²⁴ − 1, the greatest period (R279). -/
def maxPeriod : Nat := 16777215

/-- QEe_VEL for a period in samples (R279). -/
def velOf (samples : Nat) (down : Bool) : Word := f32OfFrac (along down 200000000) samples

/-- A counted edge (R275, R279, R280, R104). -/
def Dev.encEdge (d : Dev) (m : Dram) (e : Nat) (down : Bool) : Dev :=
  let en := d.encOf e
  let c0 := d.count e
  let c1 := if down then c0 - 1 else c0 + 1
  let p := min maxPeriod (en.clock - en.last)
  let ok := decide (en.edge = some down)
  let d1 := ((d.put (F.QEe_COUNT_COUNT e) c1.toNat).setFlag (F.QEe_STAT_DIR e) down).setFlag (F.QEe_STAT_MOVING e) true
  let d2 := (d1.setFlag (F.QEe_STAT_PVALID e) ok).put (F.QEe_VEL_VAL e) (if ok then (velOf p down).toNat else 0)
  let d3 := (if ok then d2.put (F.QEe_PERIOD_SAMPLES e) p else d2).updEnc e (fun x => { x with last := x.clock, edge := some down })
  let d4 := (d3.cmpsOn e).foldl (fun d k => d.cmpEdge m k down c0 c1) d3
  let fin := d.getW F.BED_RECOAT_END_POS
  if encRole (d.sections false) e == 1 && !down && d4.get F.BED_STAT_PHASE == 3 && !(d4.flag F.BED_CTRL_RCSRC) && !d4.bar.chaseLost &&
      decide ((c0 - fin).toInt < 0) && decide (0 ≤ (c1 - fin).toInt) then
    d4.recoatComplete m
  else d4

/-- The count is set to QEe_PRESET (R278): no edge; every armed unit on the input judges its value again. -/
def Dev.encPreset (d : Dev) (m : Dram) (e : Nat) : Dev :=
  let d1 := (d.put (F.QEe_COUNT_COUNT e) (d.get (F.QEe_PRESET_VAL e))).updEnc e (fun x => { x with edge := none })
  ((d.cmpsOn e).filter (fun k => d.flag (F.QE_CMPk_STAT_ARMED k))).foldl (fun d k => d.cmpJudge m k) d1

/-- A filtered rising edge of Z (R278). -/
def Dev.encZ (d : Dev) (m : Dram) (e : Nat) : Dev :=
  let d1 := (d.put (F.QEe_ZLATCH_COUNT e) (d.count e).toNat).setFlag (F.QEe_STAT_ZSEEN e) true
  if d.flag (F.QEe_CTRL_ZHOME e) then (d1.setFlag (F.QEe_CTRL_ZHOME e) false).encPreset m e else d1

/-- A line through the filter (R274): its level and the consecutive samples at the other level. -/
def filterLine (filt : Nat) (level : Bool) (run : Nat) (raw : Bool) : Bool × Nat :=
  if raw == level then (level, 0) else if filt ≤ run then (raw, 0) else (level, run + 1)

/-- More samples have passed since the last edge than the last period (R279). -/
def Dev.encSlow (d : Dev) (e : Nat) : Dev :=
  let en := d.encOf e
  let n := en.clock - en.last
  if d.flag (F.QEe_STAT_PVALID e) && decide (d.get (F.QEe_PERIOD_SAMPLES e) < n) then
    d.put (F.QEe_VEL_VAL e) (velOf n (d.flag (F.QEe_STAT_DIR e))).toNat
  else d

/-- One sample of the lines of input e (R274 to R279). -/
def Dev.encSample (d : Dev) (m : Dram) (e : Nat) (a b z : Bool) : Dev :=
  let en := d.encOf e
  let filt := d.get (F.QEe_CTRL_FILT e)
  let fa := filterLine filt en.a en.ra a
  let fb := filterLine filt en.b en.rb b
  let fz := filterLine filt en.z en.rz z
  let d1 := d.updEnc e (fun x => { x with a := fa.1, ra := fa.2, b := fb.1, rb := fb.2, z := fz.1, rz := fz.2, clock := x.clock + 1 })
  let inv := encInvert (d.sections false) e
  let d2 :=
    if fa.1 != en.a && fb.1 != en.b then (d1.encIllegal m e).encSlow e
    else if fa.1 != en.a then d1.encEdge m e ((fa.1 == en.b) != inv)
    else if fb.1 != en.b then d1.encEdge m e ((fb.1 != en.a) != inv)
    else d1.encSlow e
  if encUsesZ (d.sections false) e && fz.1 && !en.z then d2.encZ m e else d2

/-- n samples with the same levels. -/
def Dev.encSamples (d : Dev) (m : Dram) (e : Nat) (a b z : Bool) : Nat → Dev
  | 0 => d
  | n + 1 => (d.encSamples m e a b z n).encSample m e a b z

/-- After this many equal samples every filter has settled. -/
def settleSamples : Nat := 8

/-- QE_SAMPLE (R275): n consecutive samples with these levels and these lines at fault. Beyond the first ones nothing but time passes. -/
def Dev.qeSample (d : Dev) (m : Dram) (e n : Nat) (a b z : Bool) (lines : Nat) : Dev :=
  if d.encCounts e then
    let d1 := d.encSamples m e a b z (min n settleSamples)
    let d2 := if settleSamples < n then (d1.updEnc e (fun x => { x with clock := x.clock + (n - settleSamples) })).encSlow e else d1
    d2.encLines m e lines n
  else d

/-- QE_SAMPLE (R275). -/
def execQeSample (e : Sys2Proof.Enc) (n : Nat) (a b z : Bool) (lines : BitVec 3) (s : State) : Host.Outcome State Fault Refusal :=
  .next (s.runDev (fun d m => d.qeSample m e.val n a b z lines.toNat))

/-- QE_MOVING_TIMEOUT (R279): no counted edge within the last 2²⁴ samples. -/
def Dev.qeStopped (d : Dev) (e : Nat) : Dev :=
  let en := d.encOf e
  if d.flag (F.QEe_STAT_MOVING e) && decide (maxPeriod < en.clock - en.last) then
    (((d.setFlag (F.QEe_STAT_MOVING e) false).setFlag (F.QEe_STAT_PVALID e) false).put (F.QEe_VEL_VAL e) 0).updEnc e
      (fun x => { x with edge := none })
  else d

/-- QE_MOVING_TIMEOUT (R279). -/
def execQeMovingTimeout (e : Sys2Proof.Enc) (s : State) : Host.Outcome State Fault Refusal := .next (s.onDev (fun d => d.qeStopped e.val))

/-- QEe_CTRL.REARM is written 1 (R277, R285): where no line fault is present, LOST clears, the count of illegal transitions starts again
and the compare units judge their values. -/
def Dev.encRearm (d : Dev) (m : Dram) (e : Nat) : Dev :=
  if d.flag (F.QEe_ERR_LOST e) then
    let d1 := ((d.setFlag (F.QEe_ERR_LOST e) false).updEnc e (fun x => { x with ill := [], edge := none })).raise 0x0902 (srcEnc e) 1 e
      (d.count e).toNat d.tick.toNat
    (d.cmpsOn e).foldl (fun d k => (d.setFlag (F.QE_CMPk_STAT_SRC_LOST k) false).cmpJudge m k) d1
  else d

end Sys2Proof.Machine
end

