-- ==== Sys2Proof/Machine/Axis.lean ====
section
/-! DEFINITION. Auxiliary axes (10_encoders_axes.md R286 to R291). -/

namespace Sys2Proof.Machine

/-! ## The reference profile (R287) -/

/-- A point of the reference: position in counts and velocity in counts/s. -/
structure RefPt where
  x : Frac
  v : Frac

/-- A phase of constant acceleration. -/
structure Phase where
  acc : Frac
  dur : Frac

/-- The phases from a velocity w ≥ 0 towards a target at distance l ≥ w²/2a: to the peak velocity, cruise, to rest. -/
def trapezoid (w l vmax a : Frac) : List Phase :=
  let sq := fun (v : Frac) => fracMul v v
  let vp := if fracLt vmax w then vmax else fracMin vmax (fracSqrt (fracAdd (fracMul a l) (halfF (sq w))))
  let d1 := fracDiv (fracAbs (fracSub (sq vp) (sq w))) (fracMul (fracI 2) a)
  let d3 := fracDiv (sq vp) (fracMul (fracI 2) a)
  let d2 := fracMax f0 (fracSub l (fracAdd d1 d3))
  [⟨if fracLt vmax w then fracSub f0 a else a, fracDiv (fracAbs (fracSub vp w)) a⟩,
   ⟨f0, if vp.num == 0 then f0 else fracDiv d2 vp⟩, ⟨fracSub f0 a, fracDiv vp a⟩]

/-- A point after time t in one phase. -/
def RefPt.after (r : RefPt) (acc t : Frac) : RefPt :=
  ⟨fracAdd r.x (fracAdd (fracMul r.v t) (halfF (fracMul acc (fracMul t t)))), fracAdd r.v (fracMul acc t)⟩

/-- A point after time t through phases; none where they are over. -/
def RefPt.through (r : RefPt) : List Phase → Frac → Option RefPt
  | [], _ => none
  | p :: l, t => if fracLt t p.dur then some (r.after p.acc t) else (r.after p.acc p.dur).through l (fracSub t p.dur)

/-- Braking to rest from a velocity: where and when. -/
def brake (r : RefPt) (a : Frac) : Phase × RefPt :=
  let acc := if r.v.num < 0 then a else fracSub f0 a
  let t := fracDiv (fracAbs r.v) a
  (⟨acc, t⟩, ⟨(r.after acc t).x, f0⟩)

/-- The move in the direction of its target, for a point that can still stop before it. -/
def ahead (r : RefPt) (tgt vmax a t : Frac) : Option RefPt :=
  let l := fracSub tgt r.x
  let neg := decide (l.num < 0)
  let flip := fun (v : Frac) => if neg then fracSub f0 v else v
  let ph := (trapezoid (flip r.v) (fracAbs l) vmax a).map (fun (p : Phase) => (⟨flip p.acc, p.dur⟩ : Phase))
  r.through ph t

/-- The target can be reached without overshoot. -/
def reachable (r : RefPt) (tgt a : Frac) : Bool :=
  let l := fracSub tgt r.x
  fracLe f0 (fracMul l r.v) && fracLe (fracMul r.v r.v) (fracMul (fracMul (fracI 2) a) (fracAbs l))

/-- The reference after time t of a move (R287): none once the target is reached. A target that cannot be reached without overshoot is
approached again from rest. -/
def moveRef (r : RefPt) (tgt vmax a t : Frac) : Option RefPt :=
  if reachable r tgt a then ahead r tgt vmax a t
  else
    let b := brake r a
    if fracLt t b.1.dur then some (r.after b.1.acc t) else ahead b.2 tgt vmax a (fracSub t b.1.dur)

/-- The acceleration with which a move goes on from a point. -/
def moveAcc (r : RefPt) (tgt vmax a : Frac) : Frac :=
  if reachable r tgt a then
    let l := fracSub tgt r.x
    let flip := fun (v : Frac) => if l.num < 0 then fracSub f0 v else v
    match (trapezoid (flip r.v) (fracAbs l) vmax a).find? (fun (p : Phase) => p.dur.num != 0) with
    | some p => flip p.acc
    | none => f0
  else (brake r a).1.acc

/-- A 64-bit fixed-point count with 32 fractional bits. -/
def wrap64 (v : Int) : Int := sext 64 (trunc 64 v)

/-- The reference as a point, measured from its own integer origin so that a target's signed difference under R7 counts. -/
def Axs.point (s : Axs) : RefPt := ⟨frac s.ref (2 ^ 32), s.vel⟩

/-- The target as a position near the reference: the signed difference under R7 is added to it. -/
def Axs.goal (s : Axs) (mv : AxMove) : Frac := frac (s.ref + sext 64 (trunc 64 (mv.tgt * 2 ^ 32 - s.ref))) (2 ^ 32)

/-- The state of a reference at a point. -/
def Axs.atPoint (s : Axs) (r : RefPt) : Axs :=
  { s with ref := wrap64 (fracFloor (fracMul r.x (fracI (2 ^ 32)))), vel := cutF r.v }

/-- The reference over t seconds (R287). The truth value says that a move has reached its target. -/
def Axs.advance (s : Axs) (t : Frac) : Axs × Bool :=
  match s.move with
  | none => (s, false)
  | some mv =>
    let a := fracOfF32 mv.amax
    if s.stop then
      let b := brake s.point a
      if fracLt t b.1.dur then ({ s.atPoint (s.point.after b.1.acc t) with acc := b.1.acc }, false)
      else ({ s.atPoint b.2 with acc := f0, move := none, stop := false }, false)
    else
      match moveRef s.point (s.goal mv) (fracOfF32 mv.vmax) a t with
      | some r =>
        let s1 := s.atPoint r
        ({ s1 with acc := moveAcc s1.point (s1.goal mv) (fracOfF32 mv.vmax) a }, false)
      | none => ({ s with ref := wrap64 (mv.tgt * 2 ^ 32), vel := f0, acc := f0, move := none }, true)

/-! ## Tables (R289, R291) -/

/-- A point of the cogging or friction table; 0.0 before any was loaded. -/
def tabAt (tab : List Byte) (i : Nat) : Word := f32At tab (4 * i)

/-- Linear between two points. -/
def lerp32 (a b u : Word) : Word := f32Add a (f32Mul u (f32Sub b a))

/-- The cogging term (R289). -/
def cogging (tab : List Byte) (pitch : Nat) (pos org : Int) : Word :=
  if pitch == 0 then f32Zero false
  else
    let r := ((pos - org) % (pitch : Int)).toNat * 1024
    lerp32 (tabAt tab (r / pitch % 1024)) (tabAt tab ((r / pitch + 1) % 1024)) (f32OfFrac (r % pitch : Nat) pitch)

/-- −1.0, 0.0 or 1.0. -/
def sgn32 (x : Word) : Int := if f32IsZero x then 0 else if f32Neg? x then -1 else 1

/-- The friction term (R289). -/
def friction (tab : List Byte) (v step : Word) : Word :=
  let x := f32Div (f32Abs v) step
  let k := (f32Floor x).toNat
  let f := if 63 ≤ k then tabAt tab (1024 + 63)
    else lerp32 (tabAt tab (1024 + k)) (tabAt tab (1024 + k + 1)) (f32Sub x (f32OfInt k))
  f32Mul (f32OfInt (sgn32 v)) f

/-! ## The update (R288, R290) -/

/-- What an update computes: integrator, e, u0 + i, output code, and whether a NaN or an infinity arose. -/
structure AxOut where
  i : Word
  e : Word
  u : Word
  code : Int
  bad : Bool

/-- The loop law of axis a (R288) for its reference and a count. -/
def Dev.axisLaw (d : Dev) (a : Nat) (s : Axs) (pos : Int) : AxOut :=
  let g := fun (f : Nat → Fld) => d.getW (f a)
  let e := f32OfFrac (sext 64 (trunc 64 (s.ref - pos * 2 ^ 32))) (2 ^ 32)
  let v := f32OfFr s.vel
  let pe := f32Mul (g F.AXSa_KP_VAL) e
  let de := f32Mul (g F.AXSa_KD_VAL) (f32Sub e s.ePrev)
  let ve := f32Mul (g F.AXSa_KVFF_VAL) v
  let ae := f32Mul (g F.AXSa_KAFF_VAL) (f32OfFr s.acc)
  let cog := cogging s.tab (d.get (F.AXSa_PITCH_PITCH a)) pos (d.getI (F.AXSa_COG_ORG_POS a))
  let fr := friction s.tab v (g F.AXSa_VSTEP_VAL)
  let u0 := f32Add (f32Add (f32Add (f32Add (f32Add pe de) ve) ae) cog) fr
  let ki := f32Mul (g F.AXSa_KI_VAL) e
  let sum := f32Add s.i ki
  let lim := g F.AXSa_ILIM_VAL
  let try_ := f32Clamp (f32Negate lim) lim sum
  let ut := f32Add u0 try_
  let i := if f32Lt f32One (f32Abs ut) && sgn32 ki == sgn32 ut then s.i else try_
  let u := f32Add u0 i
  let out := f32Clamp (f32Negate f32One) f32One u
  { i := i, e := e, u := u, code := f32ToInt (f32Mul out (f32OfInt 32767)),
    bad := [pe, de, ve, ae, u0, ki, sum, ut, u].any (fun w => !(f32Finite w)) }

/-- Consecutive updates over the following-error limit (R290). -/
def Dev.axisOver (d : Dev) (a : Nat) (s : Axs) (e : Word) : Nat :=
  let lim := d.get (F.AXSa_FE_LIM_LIM a)
  if lim != 0 && f32Lt (f32OfInt lim) (f32Abs e) then s.feRun + 1 else 0

/-- AXIS_UPDATE of an enabled axis that is not in FAULT. -/
def Dev.axisRun (d : Dev) (a e : Nat) : Dev :=
  let s0 := d.axsOf a
  let pos := (d.count e).toInt
  let w := s0.advance (frac (d.get (F.AXSa_RATE_TICKS a) : Nat) 1000000)
  let s1 := w.1
  let s2 : Axs := match s1.next with
    | some mv =>
      let t : Axs := { s1 with move := some mv, next := none, stop := false }
      { t with acc := moveAcc t.point (t.goal mv) (fracOfF32 mv.vmax) (fracOfF32 mv.amax) }
    | none => s1
  let o := d.axisLaw a s2 pos
  let run := d.axisOver a s2 o.e
  let d1 := d.updAxs a (fun _ => { s2 with i := if o.bad then s2.i else o.i, ePrev := o.e, feRun := run, last := d.tick })
  let d2 := (d1.putI (F.AXSa_REF_POS a) (s2.ref / 2 ^ 32)).putI (F.AXSa_FE_ERR a) (s2.ref / 2 ^ 32 - pos)
  let d3 := d2.put (F.AXSa_STAT_STATE a) (if s2.move.isSome then 2 else 1)
  let d4 := match w.2, s0.move with
    | true, some mv => d3.raise 0x0911 (srcAxis a) 0 a (trunc 32 mv.tgt) d.tick.toNat
    | _, _ => d3
  if o.bad then d4.axisFault a 3
  else
    let d5 := (d4.putI (F.AXSa_OUT_CODE a) o.code).setFlag (F.AXSa_STAT_SAT a) (f32Lt f32One (f32Abs o.u))
    if 4 ≤ run then d5.axisFault a 1 else d5

/-- AXIS_UPDATE (R288, R290): every RATE T-ticks; in FAULT the DAC code is 0. -/
def Dev.axisUpdate (d : Dev) (a : Nat) : Dev :=
  if d.flag (F.AXSa_CTRL_EN a) && decide (d.get (F.AXSa_RATE_TICKS a) ≤ elapsed32 d.tick (d.axsOf a).last) then
    if d.get (F.AXSa_STAT_STATE a) == 3 then (d.put (F.AXSa_OUT_CODE a) 0).updAxs a (fun s => { s with last := d.tick })
    else match axisInput (d.sections false) a with
      | some e => d.axisRun a e
      | none => d
  else d

/-- AXIS_UPDATE (R288). -/
def execAxisUpdate (a : Axis) (s : State) : Host.Outcome State Fault Refusal := .next (s.onDev (fun d => d.axisUpdate a.val))

/-! ## Commands to an axis (R286, R287) -/

/-- AXSa_CTRL.EN may be set (R286): an input exists and is not lost. -/
def Dev.axisMay (d : Dev) (a : Nat) : Bool :=
  d.rigged && match axisInput (d.sections false) a with
    | some e => !(d.flag (F.QEe_ERR_LOST e))
    | none => false

/-- An axis stops (R286, R290): EN is 0, the code is 0, FAULT ends. -/
def Dev.axisOff (d : Dev) (a : Nat) : Dev :=
  let d1 := (((d.setFlag (F.AXSa_CTRL_EN a) false).put (F.AXSa_STAT_STATE a) 0).setFlag (F.AXSa_STAT_BNDARM a) false).setFlag
    (F.AXSa_STAT_SAT a) false
  (d1.put (F.AXSa_OUT_CODE a) 0).updAxs a (fun s => { s with move := none, next := none, stop := false, vel := f0, acc := f0 })

/-- AXSa_CTRL.EN is written (R286). An enabled axis holds its present position; EN 1 on an enabled axis changes nothing. -/
def Dev.axisEnable (d : Dev) (a : Nat) (on : Bool) : Dev :=
  if !on then d.axisOff a
  else if d.flag (F.AXSa_CTRL_EN a) then d
  else match axisInput (d.sections false) a with
    | none => d
    | some e =>
      let pos := (d.count e).toInt
      (((d.setFlag (F.AXSa_CTRL_EN a) true).put (F.AXSa_STAT_STATE a) 1).putI (F.AXSa_REF_POS a) pos).updAxs a
        (fun s => { axs0 with ref := pos * 2 ^ 32, last := d.tick, tab := s.tab })

/-- An axis that takes moves: enabled and not in FAULT. -/
def Dev.axisTakes (d : Dev) (a : Nat) : Bool := d.flag (F.AXSa_CTRL_EN a) && d.get (F.AXSa_STAT_STATE a) != 3

/-- The target and limits of axis a are latched for a move that starts at the next update (R287). -/
def Dev.axisGo (d : Dev) (a : Nat) : Dev :=
  if d.axisTakes a then
    (d.setFlag (F.AXSa_STAT_BNDARM a) false).updAxs a (fun s => { s with
      next := some ⟨d.getI (F.AXSa_TGT_POS a), d.getW (F.AXSa_VMAX_VAL a), d.getW (F.AXSa_AMAX_VAL a)⟩ })
  else d

/-- STOP (R287): the reference comes to rest where it stands; an armed move and one that waits are cancelled. -/
def Dev.axisStop (d : Dev) (a : Nat) : Dev :=
  if d.axisTakes a then
    (d.setFlag (F.AXSa_STAT_BNDARM a) false).updAxs a (fun s => { s with next := none, stop := s.move.isSome })
  else d

/-- BNDGO (R287). -/
def Dev.axisArm (d : Dev) (a : Nat) : Dev := if d.axisTakes a then d.setFlag (F.AXSa_STAT_BNDARM a) true else d

/-- The armed moves start on the bed boundary T-tick (R287). -/
def Dev.axesBoundary (d : Dev) : Dev :=
  (upTo 4).foldl (fun d a => if d.flag (F.AXSa_STAT_BNDARM a) then d.axisGo a else d) d

/-! ## AXS_LOAD (R291) -/

/-- A point of an axis table image out of its range: cogging −1.0 to 1.0, friction 0.0 to 1.0. -/
def badAxisVal (pay : List Byte) (i : Nat) : Bool :=
  !(f32In (if i < 1024 then f32Negate f32One else f32Zero false) f32One (f32At pay (4 * i)))

/-- The failing offset of an axis table image, if it is refused. -/
def badAxisImage (img : List Byte) (len : Nat) (ue : Bool) : Option Nat :=
  let pay := img.drop 64
  (firstBad [(leAt img 0 4 != 0x54415841, 0x00), (leAt img 4 2 != 1, 0x04), (decide (3 < byteAt img 6), 0x06), (byteAt img 7 != 0, 0x07),
    (leAt img 0x0C 4 != 4352 || len != 64 + 4352, 0x0C)]).or <|
  (firstNonZero img 0x14 0x3C).or <|
  (firstBad [(ue || (crc32c (img.take 0x3C)).toNat != leAt img 0x3C 4, 0x3C), ((crc32c pay).toNat != leAt img 0x10 4, 0x10)]).or <|
  ((upTo 1088).find? (fun i => badAxisVal pay i)).map (fun i => 64 + 4 * i)

/-- AXS_LOAD (R291). -/
def State.axsLoad (s : State) (addr : DWord) (len : Word) : State × Res × DWord :=
  if !(aligned16 addr) then (s, .param, 0)
  else if !(s.dev.rigged) then (s, .unrigged, 0)
  else
    let r := s.imageRead addr.toNat (min len.toNat 4416)
    let img := r.2.1
    let d := r.1.dev
    let a := byteAt img 6
    let id := f32At img 8
    match badAxisImage img len.toNat (!r.2.2) with
    | some o => ({ r.1 with dev := d.raise 0x0913 (if a ≤ 3 then srcAxis a else 0x00) 2 a o id.toNat }, .refused, 0)
    | none =>
      if d.get (F.AXSa_STAT_STATE a) == 2 then (r.1, .busy, 0)
      else
        let d1 := d.raise 0x0912 (srcAxis a) 1 a (d.get (F.AXSa_TABLE_ID_TABLE_ID a)) id.toNat
        ({ r.1 with dev := (d1.put (F.AXSa_TABLE_ID_TABLE_ID a) id.toNat).updAxs a (fun s => { s with tab := img.drop 64 }) }, .ok, 0)

/-- AXS_LOAD (R291). -/
def execAxsLoad (tag : Word) (addr : DWord) (len : Word) (s : State) : Host.Outcome State Fault Refusal :=
  .next (s.command .load 0x42 tag (fun s => s.axsLoad addr len))

end Sys2Proof.Machine
end

