-- ==== Sys2Proof/Machine/Boundary.lean ====
section
/-! DEFINITION. The bed boundary (04_bed_cycle.md R96, R100, R101, R103, R107) and all that happens on its T-tick: the swap that goes
live (02_rigging.md R66, R67), ports that return (09_handoff.md R264), auxiliary axes (10_encoders_axes.md R293) and the
join test (11_link_and_time.md R297). -/

namespace Sys2Proof.Machine

/-- The latched bed becomes current, and the previous current one moves to the old-bed slot (R103 step 2), whether or not it is still
EXPOSING. Where no bed was current the slot keeps what it holds. -/
def Dev.makeCurrent (d : Dev) : Dev :=
  let old := match d.bar.cur with
    | some n => if d.get (F.BED_BUFn_STAT_STATE n) == 4 then some n else none
    | none => d.bar.old
  let new := d.bar.latched
  let had := d.flag F.BED_CUR_VALID
  let d1 := { d with bar := { d.bar with cur := new, old := old, latched := none,
                                         oldNo := if had then d.getW F.BED_CUR_NO_BED_NO else d.bar.oldNo } }
  let d2 := (((d1.setFlag F.BED_CUR_OLD_VALID old.isSome).put F.BED_CUR_OLD_BUF (if had then d.get F.BED_CUR_BUF else
    d.get F.BED_CUR_OLD_BUF)).setFlag F.BED_CUR_VALID new.isSome).put F.BED_CUR_BUF (new.getD 0)
  match new with
  | none => d2
  | some n =>
    (((d2.put (F.BED_BUFn_STAT_STATE n) 4).put F.BED_CUR_NO_BED_NO (d2.keyBedNo (.bed n 0 0))).bumpWrap F.BED_COUNT_COUNT).twoBit

/-- A latched swap goes live for the new bed; every earlier bed keeps the set before it until its last tile ends (R66, R67). -/
def Dev.boundarySwap (d : Dev) : Dev :=
  match d.rig.latched with
  | none => d
  | some w =>
    let last := d.get F.BED_CUR_NO_BED_NO
    let d1 := (d.swapLive w (d.bar.hznFrom != 0))
    let mark := fun (x : Nat × Bed) => (x.1, { x.2 with oldSet := d.bar.hznFrom != 0 && d.bar.latched != some x.1 })
    ({ d1 with bar := { d1.bar with beds := d1.bar.beds.map mark } }).oldSetRelease last

/-- Ports return to service (R264); one whose latch has been released takes its shed level afresh (R348). -/
def Dev.boundaryPorts (d : Dev) (m : Dram) : Dev :=
  let latched := (upTo 32).filter (fun p => d.flag (F.THM_Pn_STAT_REENTRY p))
  latched.foldl (fun d p => if d.flag (F.THM_Pn_STAT_REENTRY p) then d else d.shedAfresh m p) d.portsReturn

/-- Stripes and blade chase of the new bed (R101, R103, R105); where no bed becomes current BED_STRIPES reads 0 (log entry 103). -/
def Dev.boundaryStripes (d : Dev) (cold : Bool) : Dev :=
  let chase := chaseOf (d.sections false) && d.flag F.BED_CTRL_CHASE
  let d1 := { d with bar := { d.bar with chase := chase, hits := 0, chaseLost := false } }
  match d1.bar.cur with
  | none => (d1.setFlag F.BED_STAT_CHASING false).put F.BED_STRIPES_RELEASED 0
  | some n =>
    let d2 := (d1.updBed n (fun b => { b with chase := chase, stripes := 0 })).setFlag F.BED_STAT_CHASING chase
    if cold then
      let d3 := d2.releaseAll n
      d3.raise 0x0205 0x03 1 (d3.keyBedNo (.bed n 0 0)) (match d3.bed? n with
        | some b => b.tiles.length
        | none => 0) d3.tick.toNat
    else if chase then d2.put F.BED_STRIPES_RELEASED 0
    else d2.releaseAll n

/-- The phase after the boundary (R96, R101): RECOAT, where an encoder already lost ends blade chase (R107), or straight on. -/
def Dev.boundaryPhase (d : Dev) (m : Dram) (cold : Bool) : Dev :=
  if cold then (d.abandonOld m allStripes 2).afterRecoat
  else
    let d1 := d.put F.BED_STAT_PHASE 3
    match encWith (d.sections false) 1 with
    | some e => if d1.flag (F.QEe_ERR_LOST e) then d1.chaseLose m e else d1
    | none => d1

/-- BED_BOUNDARY (R103): 64 T-ticks after the horizon. Once the supervisor has stopped, no further bed becomes current: a latched one
returns to COMMITTED (R26; log entry 117). -/
def Dev.bedBoundary (d0 : Dev) (m : Dram) : Dev :=
  let d := if decide (d0.sys.sup = .halted) then d0.unlatch else d0
  if d0.get F.BED_STAT_PHASE == 2 && decide (64 ≤ elapsed32 d0.tick (d0.getW F.BED_HZN_TICK_TICK)) then
    let cold := d.bar.hznFrom == 0 || d.bar.hznFrom == 4
    let d1 := (if cold then d else d.pulse 0x30 1000).boundarySwap.makeCurrent.bedEffects
    let d2 := d1.rangeLive d
    let no := match d2.bar.cur with
      | some n => d2.keyBedNo (.bed n 0 0)
      | none => 0
    let par := d2.bar.cur.getD 0 + 16 * b2n d2.bar.cur.isNone + 32 * b2n cold
    let d3 := ((d2.raise 0x0200 0x03 0 no d2.tick.toNat par).put F.BED_BND_TICK_TICK d2.tick.toNat).nextPut d2.committedBuf
      (d2.flag F.BED_NEXT_HELD)
    ((((d3.boundaryPorts m).boundaryStripes cold).boundaryPhase m cold).spotGraph.axesBoundary).retestJoin
  else d0

/-- BED_BOUNDARY (R103). -/
def execBedBoundary (s : State) : Host.Outcome State Fault Refusal := .next (s.runDev (fun d m => d.bedBoundary m))

end Sys2Proof.Machine
end

