-- ==== Sys2Proof/Machine/Deal.lean ====
section
/-! DEFINITION. Dealing paths to beams (09_handoff.md R243 to R246, R258, R259) and the coverage check before commit (R270). -/

namespace Sys2Proof.Machine

/-! ## The pool in order (R243) -/

/-- A path waits in class c of the pool. -/
def inPool (c : Nat) (q : PathSt) : Bool := decide (q.st = .pool c)

/-- The paths of tile t of the bed in buffer n that satisfy a condition, in segment index order. -/
def TileSt.keys (x : TileSt) (n t : Nat) (f : PathSt → Bool) : List PKey :=
  (upTo x.paths.length).filterMap (fun i => match x.paths[i]? with
    | some q => if f q then some (.bed n t i) else none
    | none => none)

/-- The beds with work, the old one first. -/
def Dev.workBeds (d : Dev) : List Nat := [d.bar.old, d.bar.cur].filterMap id

/-- The paths in class c of the pool, 1 to 3. -/
def Dev.poolKeys (d : Dev) (c : Nat) : List PKey :=
  d.workBeds.flatMap (fun n => match d.bed? n with
    | none => []
    | some b => b.tiles.flatMap (fun (y : Nat × TileSt) => y.2.keys n y.1 (inPool c))) ++
  (d.hnd.inc.filter (fun (x : Nat × HoIn) => inPool c x.2.path)).map (fun x => PKey.inc x.1)

/-- The paths of the old bed not dealt yet, by ascending STRIPE (R106). -/
def Dev.oldKeys (d : Dev) : List PKey :=
  match d.bar.old with
  | none => []
  | some n => match d.bed? n with
    | none => []
    | some b => b.scanOrder.flatMap (fun t => match tfind b.tiles t with
      | some x => x.keys n t (fun q => decide (q.st = .fresh))
      | none => [])

/-- The paths of the current bed whose stripe has been released; without blade chase none before recoat complete (R103). -/
def Dev.curKeys (d : Dev) : List PKey :=
  match d.bar.cur with
  | none => []
  | some n => match d.bed? n with
    | none => []
    | some b =>
      if b.chase || d.get F.BED_STAT_PHASE != 3 then
        b.tiles.flatMap (fun (y : Nat × TileSt) => if y.2.released then y.2.keys n y.1 (fun q => decide (q.st = .fresh)) else [])
      else []

/-- Every path that may be dealt, in order of priority (R243). -/
def Dev.dealOrder (d : Dev) : List PKey :=
  if d.get F.BED_STAT_PHASE == 0 then d.hnd.inc.flatMap (fun (x : Nat × HoIn) =>
    match x.2.path.st with
    | .pool _ => [PKey.inc x.1]
    | _ => [])
  else d.poolKeys 1 ++ d.poolKeys 2 ++ d.poolKeys 3 ++ d.oldKeys ++ d.curKeys

/-! ## Predicted times (R244, R245) -/

/-- The end point of a path and the set of its first segment. -/
def Dev.pathEnds (d : Dev) (m : Dram) (p : Nat) (k : PKey) : Option (SegI × SegI) :=
  match d.path? k with
  | none => none
  | some q => match d.pathSegs m p k q with
    | [] => none
    | a :: t => some (a, t.getLastD a)

/-- Where port p will be when everything dealt to it has ended, in bu. -/
def Dev.endPoint (d : Dev) (m : Dram) (p : Nat) : Int × Int :=
  let e := d.engOf p
  let last := match e.queue.getLast? with
    | some k => some k
    | none => e.run.map (fun (r : Run) => r.key)
  match last.bind (d.pathEnds m p) with
  | some (_, z) => (z.x1, z.y1)
  | none => (e.x / 2 ^ 32, e.y / 2 ^ 32)

/-- Where a path begins for the beam that takes it up: its resume point, or its ORIGIN. -/
def startPoint (q : PathSt) (a : SegI) : Int × Int :=
  match q.resume with
  | some rp => (rp.x / 2 ^ 32, rp.y / 2 ^ 32)
  | none => (a.x1, a.y1)

/-- The predicted approach from a point to a path and the path's predicted duration, in units of 2⁻¹⁰ µs (R244). -/
def Dev.pathCost (d : Dev) (m : Dram) (p : Nat) (k : PKey) (x : Int × Int) : Nat :=
  match d.path? k with
  | none => 0
  | some q =>
    let segs := d.pathSegs m p k q
    match segs with
    | [] => 0
    | a :: _ =>
      let s := startPoint q a
      approachUnits a.p x.1 x.2 s.1 s.2 + (match q.resume with
        | some rp => remDur (d.get (F.BEAMn_PROF_JOIN_ANG p)) rp segs
        | none => q.dur)

/-- Approach and duration of the paths dealt to port p and not started, from the end of what runs. -/
def Dev.queueCost (d : Dev) (m : Dram) (p : Nat) : Nat :=
  let e := d.engOf p
  (e.queue.foldl (fun (acc : Nat × (Int × Int)) k =>
    (acc.1 + d.pathCost m p k acc.2, match d.pathEnds m p k with
      | some (_, z) => (z.x1, z.y1)
      | none => acc.2)) (0, match (e.run.map (fun (r : Run) => r.key)).bind (d.pathEnds m p) with
        | some (_, z) => (z.x1, z.y1)
        | none => (e.x / 2 ^ 32, e.y / 2 ^ 32))).1

/-- f[b] of R245, in units of 2⁻¹⁰ µs from now. -/
def Dev.finishTime (d : Dev) (m : Dram) (k : PKey) (b : Nat) : Nat :=
  1024 * d.runLeft m b + d.queueCost m b + d.pathCost m b k (d.endPoint m b)

/-- The best of several beams (R245): the first, unless a later one finishes earlier by more than the margin, as the later one's
engine holds it (R17, R19; log entry 115). -/
def Dev.bestBeam (d : Dev) (m : Dram) (k : PKey) (b : Nat) (rest : List Nat) : Nat :=
  rest.foldl (fun best c =>
    if d.finishTime m k c + 1024 * d.view c F.HND_BAL_MARGIN < d.finishTime m k best then c else best) b

/-! ## Dealing one path (R245, R258, R259) -/

/-- The eligible beams that take the path: not held out, and at a shed level above 0 only the sole eligible one. -/
def Dev.takers (d : Dev) (beams : List Nat) : List Nat :=
  beams.filter (fun b => !(d.flag (F.HND_Pn_CTRL_HOLDOUT b)) && (d.get (F.HND_Pn_STAT_SHED b) == 0 || beams.length == 1))

/-- The beam that a path is dealt to. A remainder that an underrun left goes back to its own beam where that takes it (R110). -/
def Dev.dealBeam (d : Dev) (m : Dram) (k : PKey) (q : PathSt) (beams : List Nat) : Option Nat :=
  match d.takers beams with
  | [] => none
  | b :: t =>
    match q.cls == 3, q.beam with
    | true, some own => if (b :: t).contains own then some own else some (d.bestBeam m k b t)
    | _, _ => some (d.bestBeam m k b t)

/-- The pair of a path's lead is being attached (R170). -/
def Dev.attaching (d : Dev) (p : Nat) : Bool :=
  (upTo 36).any (fun j => d.get (F.ENG_PAIRk_STATE j) == 3 && d.get (F.ENG_PAIRk_PORT j) == p)

/-- A path joins the queue of port b; an observation of the port ends (R28). -/
def Dev.dealTo (d : Dev) (k : PKey) (b : Nat) : Dev :=
  ((((d.setStat k (.dealt b)).updEng b (fun e => { e with queue := e.queue ++ [k] })).bumpWrap (F.HND_Pn_DEALT_COUNT b)).spotStop b)

/-- A path with no eligible beam is ended (R245). -/
def Dev.noBeam (d : Dev) (m : Dram) (k : PKey) (q : PathSt) : Dev :=
  match k with
  | .inc x => (d.setStat k .ended).incDone x true q.nextSeg 0
  | .bed _ _ _ =>
    ((((d.loseFrom m k q.nextSeg).tileFlag k 3).setFlag F.HND_STAT_NOFIELD true).raiseSeg (d.segTag m k q.nextSeg) 0x0606 0x04 3 (d.tileNo k) q.nextSeg
      (d.segsLeft k q.nextSeg)).pathEnded k

/-- A path of a paired tile for which its partner has none waits for the partner's last path (R108). -/
def Dev.extraWaits (d : Dev) (k : PKey) : Bool :=
  match k with
  | .inc _ => false
  | .bed n t i => match d.tile? n t with
    | none => false
    | some x => x.paired && (match d.tile? n x.rcd.partner with
      | some y => decide (y.paths.length ≤ i) && !(y.paths.all (fun q => decide (q.st = .ended)))
      | none => false)

/-- What becomes of a path now: dealt to a beam with room, ended, or left waiting. -/
def Dev.tryDeal (d : Dev) (m : Dram) (k : PKey) : Option Dev :=
  match d.path? k with
  | none => none
  | some q =>
    if d.extraWaits k then none
    else match d.eligible m k q with
    | [] =>
      if (match (d.dealBeams k).head? with
          | some lead => d.attaching lead
          | none => false) then none
      else some (d.noBeam m k q)
    | beams => match d.dealBeam m k q beams with
      | none => none
      | some b => if (d.engOf b).queue.length < d.view b F.HND_CTRL_DEPTH then some (d.dealTo k b) else none

/-- DEAL_PATH (R243, R245): the first path in order of priority that can be dealt now. -/
def Dev.dealPath (d : Dev) (m : Dram) : Dev := (d.dealOrder.findSome? (d.tryDeal m)).getD d

/-- DEAL_PATH (R245). -/
def execDealPath (s : State) : Host.Outcome State Fault Refusal := .next (s.onDev (fun d => d.dealPath s.mem))

/-! ## COVER_CHECK (R270) -/

/-- Segment i of the bed in buffer n, read for a check. -/
def checkSeg (d : Dev) (m : Dram) (a i : Nat) : SegRead :=
  if badRead d m (a + 16 * i) 16 then .unreadable else .ok (segOfBytes (m.readBytes (a + 16 * i) 16))

/-- Parameter set i of the bed in buffer n, read for a check. -/
def checkSet_ (d : Dev) (m : Dram) (a n i : Nat) : SetRead :=
  if n ≤ i || badRead d m (a + 128 * i) 128 then .fail 2
  else if (psetOfBytes (m.readBytes (a + 128 * i) 128)).valid then .ok (psetOfBytes (m.readBytes (a + 128 * i) 128)) else .fail 2

/-- The uncoverable paths of the bed in buffer n under the live rigging: tile index and first segment index. -/
def Dev.uncoverable (d : Dev) (m : Dram) (n : Nat) : List (Nat × Nat) :=
  let a := d.bufBase n
  let h := hdrOfBytes (m.readBytes a 4096)
  let seg := checkSeg d m (a + h.segOff)
  let set := checkSet_ d m (a + h.psetOff) h.psets
  (upTo h.tiles).flatMap (fun t =>
    let r := tileOfBytes (m.readBytes (a + h.tileOff + 48 * t) 48)
    ((splitPaths seg r.first r.count r.first).filter (fun x =>
      !(scanPath seg set (d.get (F.BEAMn_PROF_JOIN_ANG r.lead)) (d.sections false) r x).coverable)).map (fun x => (t, x.1)))

/-- A report entry (R270). -/
def coverEntryBytes (x : Nat × Nat) : List Byte := leBytes 2 x.1 ++ leBytes 2 0 ++ leBytes 4 x.2

/-- The report is written from an address. -/
def State.writeReport (s : State) : Nat → List (Nat × Nat) → State
  | _, [] => s
  | a, x :: t => (s.dramWrite 0x5A a (coverEntryBytes x)).1.writeReport (a + 8) t

/-- COVER_CHECK (R270). -/
def State.coverCheck (s : State) (n : Nat) (g : Word) (addr : DWord) : State × Res × DWord :=
  if 16 ≤ n || !(aligned16 addr) then (s, .param, 0)
  else if !(s.dev.genIs n g) then (s, .stale, 0)
  else if s.dev.get (F.BED_BUFn_STAT_STATE n) != 2 then (s, .state, 0)
  else
    let l := s.dev.uncoverable s.mem n
    (s.writeReport addr.toNat l, .ok, BitVec.ofNat 64 l.length)

/-- COVER_CHECK (R270). -/
def execCoverCheck (tag n g : Word) (addr : DWord) (s : State) : Host.Outcome State Fault Refusal :=
  .next (s.command .buf 0x23 tag (fun s => s.coverCheck n.toNat g addr))

end Sys2Proof.Machine
end

