-- ==== Sys2Proof/Machine/GlkLine.lean ====
section
/-! DEFINITION. The blocks of Gorwin Link (11_link_and_time.md R299, R300): what a frame is on its lanes, the scrambler, and the blocks that a
port receives, put together into frames and counted for block lock. -/

namespace Sys2Proof.Machine

/-! ## Frames as blocks (R299, R300) -/

/-- The header bytes 1 to 7 of a frame with n data blocks (R300). -/
def frameHead (f : GlkFrame) (n : Nat) : List Byte :=
  [f.type, f.dst, f.src, f.ttl, BitVec.ofNat 8 n] ++ leBytes 2 f.seq.toNat

/-- Bytes eight at a time. -/
def eights : List Byte → List (List Byte)
  | a :: b :: c :: d :: e :: f :: g :: h :: t => [a, b, c, d, e, f, g, h] :: eights t
  | _ => []

/-- A payload filled with zero up to a whole block (R305). -/
def padBlocks (l : List Byte) : List Byte := l ++ List.replicate ((8 - l.length % 8) % 8) 0

/-- The FRAME_START block of a frame (R300): LEN counts the blocks after it. -/
def frameStart (f : GlkFrame) : BitVec 2 × List Byte :=
  (2, (0x66 : Byte) :: frameHead f ((eights (padBlocks f.payload)).length + 1))

/-- The blocks after it (R300): the payload, and the block of a checksum. -/
def frameRest (f : GlkFrame) (crc : Word) : List (BitVec 2 × List Byte) :=
  (eights (padBlocks f.payload)).map (fun b => ((1 : BitVec 2), b)) ++ [(1, leBytes 4 crc.toNat ++ leBytes 4 0)]

/-- The blocks of a frame with their sync headers, with a checksum (R300). -/
def frameBlocks (f : GlkFrame) (crc : Word) : List (BitVec 2 × List Byte) := frameStart f :: frameRest f crc

/-- The checksum of a frame (R300): over header bytes 1 to 7 and every data block before its own. -/
def frameCrc (f : GlkFrame) : Word :=
  crc32c (frameHead f ((eights (padBlocks f.payload)).length + 1) ++ padBlocks f.payload)

/-- The blocks of a frame from lane l on: they alternate between the lanes (R299). -/
def onLanes : Fin 2 → List (BitVec 2 × List Byte) → List GlkBlock
  | _, [] => []
  | l, x :: t => ⟨l, x.1, x.2⟩ :: onLanes (l + 1) t

/-- A frame on its lanes, before the scrambler. -/
def frameWire (f : GlkFrame) (l : Fin 2) : List GlkBlock := onLanes l (frameBlocks f (frameCrc f))

/-- A message as the frame that its source sends (R300): TTL 63, to its node or flooded. -/
def GlkMsg.frame (m : GlkMsg) (node : Nat) : GlkFrame :=
  { type := BitVec.ofNat 8 m.type, dst := BitVec.ofNat 8 (m.dst.getD 0xFF), src := BitVec.ofNat 8 node, ttl := 63,
    seq := BitVec.ofNat 16 m.seq, payload := m.data }

/-! ## The scrambler (R299) -/

/-- The scrambler of x⁵⁸ + x³⁹ + 1: each bit is added to those 39 and 58 places before it on the line. `h` holds the last 58 bits on the
line, the latest first. -/
def scramble : List Bool → List Bool → List Bool
  | _, [] => []
  | h, b :: t =>
    let o := Bool.xor b (Bool.xor (h.getD 38 false) (h.getD 57 false))
    o :: scramble ((o :: h).take 58) t

/-- The descrambler of the receiving side. -/
def descramble : List Bool → List Bool → List Bool
  | _, [] => []
  | h, o :: t => Bool.xor o (Bool.xor (h.getD 38 false) (h.getD 57 false)) :: descramble ((o :: h).take 58) t

/-- The 64 bits after the sync header, the first on the line first: bit 0 of byte 0 (log entry 138). -/
def blockBits (l : List Byte) : List Bool := l.flatMap (fun b => (upTo 8).map (fun i => bitAt b.toNat i))

/-! ## Received blocks (R299) -/

/-- A receiver that has heard nothing. -/
def glkRx0 : GlkRx := { frame := none, seen0 := 0, seen1 := 0, errs0 := [], errs1 := [] }

/-- What port p is receiving. -/
def Dev.glkRx (d : Dev) (p : Nat) : GlkRx := tget glkRx0 d.glk.rxs p

/-- The state with the receiver of port p changed. -/
def Dev.updGlkRx (d : Dev) (p : Nat) (f : GlkRx → GlkRx) : Dev :=
  { d with glk := { d.glk with rxs := tput d.glk.rxs p (f (d.glkRx p)) } }

/-- A block in error (R299): any sync header but 0b01 and 0b10, or a control block of another type. -/
def blockBad (b : GlkBlock) : Bool :=
  !(b.sync == 1 || (b.sync == 2 && [0x1E, 0x2D, 0x66].contains (byteAt b.bytes 0)))

/-- A block is counted on its lane, with its place if it is in error; the last 64 errors are kept. -/
def GlkRx.count (x : GlkRx) (b : GlkBlock) : GlkRx :=
  if b.lane == 0 then { x with seen0 := x.seen0 + 1, errs0 := if blockBad b then (x.seen0 :: x.errs0).take 64 else x.errs0 }
  else { x with seen1 := x.seen1 + 1, errs1 := if blockBad b then (x.seen1 :: x.errs1).take 64 else x.errs1 }

/-- 64 of 1,024 consecutive blocks of a lane were in error. -/
def lockGone (errs : List Nat) : Bool := errs.length == 64 && decide (errs.headD 0 - errs.getLast?.getD 0 < 1024)

/-- Block lock is lost on a lane (R299). -/
def GlkRx.lost (x : GlkRx) : Bool := lockGone x.errs0 || lockGone x.errs1

/-- A frame put together from its header bytes and data (R300). -/
def glkFrameOf (head data : List Byte) : GlkFrame :=
  { type := head.getD 0 0, dst := head.getD 1 0, src := head.getD 2 0, ttl := head.getD 3 0, seq := BitVec.ofNat 16 (leAt head 5 2),
    payload := data }

/-- A good block joins the frame being received (R300): a FRAME_START begins one of 1 to 127 data blocks, a marker pair may stand between any
two, and the last data block completes it, with whether its checksum holds. An IDLE within a frame ends it. -/
def GlkRx.take (x : GlkRx) (b : GlkBlock) : GlkRx × Option (GlkFrame × Bool) :=
  if b.sync == 1 then
    match x.frame with
    | none => (x, none)
    | some r =>
      if r.left ≤ 1 then ({ x with frame := none }, some (glkFrameOf r.head r.data, (crc32c (r.head ++ r.data)).toNat == leAt b.bytes 0 4))
      else ({ x with frame := some { r with data := r.data ++ b.bytes, left := r.left - 1 } }, none)
  else if byteAt b.bytes 0 == 0x2D then (x, none)
  else if byteAt b.bytes 0 == 0x66 then
    let n := byteAt b.bytes 5
    ({ x with frame := if 1 ≤ n && n ≤ 127 then some { head := b.bytes.drop 1, data := [], left := n } else none }, none)
  else ({ x with frame := none }, none)

end Sys2Proof.Machine
end

