-- ==== Sys2Proof/Machine/Remote.lean ====
section
/-! DEFINITION. Hand-off between devices (09_handoff.md R265 to R267), standby copies and orphan takeover (R268, R269), as the messages of
11_link_and_time.md R304 and R305 arrive. -/

namespace Sys2Proof.Machine

/-! ## The taking device (R265 to R267) -/

/-- A position in bu in units of 2⁻³² bu, from a message word. -/
def ptFix (w : Word) : Int := fixI (sext 32 w.toNat)

/-- A signed message word. -/
def wordI (w : Word) : Int := sext 32 w.toNat

/-- The resume point that HO_REQ carries. Of which SYNC the hit was, the message does not say: those up to its segment count as hit
(log entry 127). -/
def reqPoint (r : HoReq) : ResumePt :=
  { seg := r.seg.toNat, cnt := r.segTick.toNat, x := ptFix r.x, y := ptFix r.y, f := 0, hold := 0,
    hit := if r.syncHit then some (r.nHit, r.seg.toNat) else none }

/-- The count of segments of a remainder whose PATH_END has not been streamed yet. -/
def openCount : Nat := 2 ^ 24

/-- The takeover that a request asks for (R266): detected in the T-tick that it names. -/
def Dev.reqTko (d : Dev) (r : HoReq) : Takeover :=
  { lead := none, entry := none, key := .inc r.xid.toNat, rp := reqPoint r,
    detect := d.time - BitVec.ofNat 64 (1000 * elapsed32 d.tick r.detect), covers := [(0xFF, r.cover.val)], tried := [], cover := none,
    started := false }

/-- Why a request is denied (R266, R305): 4 DETACHED, 3 not in COVER, 1 not in service, 2 not in FIELD, 5 busy under R249. -/
def Dev.denyReason (d : Dev) (src : Nat) (r : HoReq) (t : Takeover) : Option Nat :=
  let l := d.sections false
  let p := r.cover.val
  if d.get F.GLK_STAT_ROLE == 3 then some 4
  else if !((coverOf l p).any (fun e => e.node == src && e.port == r.lead.val)) then some 3
  else if !(d.inService p) then some 1
  else if !(boxIn (fieldOf l p) r.box) then some 2
  else if d.get (F.HND_Pn_STAT_SHED p) != 0 || d.flag (F.HND_Pn_STAT_TAKING p) || d.committed t p || d.flag (F.HND_Pn_CTRL_HOLDOUT p) then some 5
  else none

/-- A path taken in from another device. -/
def incPath (first count : Nat) (box : Box) (us : Nat) (rp : ResumePt) : PathSt :=
  { first := first, count := count, box := box, dur := us * 1024, coverable := false, st := .takeover, resume := some rp, cls := 1,
    underruns := 0, interrupts := 0, beam := none }

/-- A request is accepted (R266): the remainder waits for its data, its cover is chosen, and HO_GRANT gives case and start. -/
def Dev.acceptReq (d : Dev) (m : Dram) (src : Nat) (r : HoReq) : Dev :=
  let p := r.cover.val
  let x := r.xid.toNat
  let rp := reqPoint r
  let h : HoIn :=
    { node := src, lead := r.lead.val, port := p, bedNo := r.bedNo, tile := r.tile.toNat, segs := [], psets := [],
      base := (wordI r.x, wordI r.y, 0), path := incPath rp.seg openCount r.box r.dur.toNat rp, pwr := 0, wins := [0, 0, 0, 0, 0],
      notExp := 0, loopLost := 0, heard := d.time, progTick := d.tick, orphan := false, covers := [(0xFF, p)] }
  let i := d.hnd.nextTko
  let t := d.reqTko r
  let lose := d.displaced i p
  let d1 := { d with hnd := { d.hnd with inc := tput d.hnd.inc x h, tko := tput d.hnd.tko i t, nextTko := i + 1 } }
  let d1a := lose.foldl (fun d j => d.updTko j (fun t => { t with cover := none })) d1
  let d1b := ((d1a.bump F.HND_REMOTE_IN_COUNT).raise 0x060B 0x04 1 (pair8 src r.lead.val) p r.tile.toNat).takeLocal m i t p
  let d2 := lose.foldl (fun d j => d.choose m j) d1b
  match (tfind d2.hnd.tko i).bind (fun (t : Takeover) => t.cover) with
  | some (.loc _ cs wait) => d2.send 0x11 src (leBytes 4 x ++ leBytes 4 cs ++ leBytes 4 wait)
  | _ => d2

/-- HO_REQ_RECEIVED (R266). A request already accepted changes nothing. -/
def Dev.hoReq (d : Dev) (m : Dram) (src : Nat) (r : HoReq) : Dev :=
  if (tfind d.hnd.inc r.xid.toNat).isSome then d
  else match d.denyReason src r (d.reqTko r) with
    | some c => d.send 0x12 src (leBytes 4 r.xid.toNat ++ leBytes 4 c)
    | none => d.acceptReq m src r

/-- HO_REQ_RECEIVED (R266). -/
def execHoReqReceived (src : Node) (m : HoReq) (s : State) : Host.Outcome State Fault Refusal :=
  .next (s.onDev (fun d => d.hoReq s.mem src.val m))

/-- The state with what is held of a remainder changed, if it came from this node. -/
def Dev.updInc (d : Dev) (src x : Nat) (f : HoIn → HoIn) : Dev :=
  match tfind d.hnd.inc x with
  | some h => if h.node == src then { d with hnd := { d.hnd with inc := tput d.hnd.inc x (f h) } } else d
  | none => d

/-- Streamed records enter a table from an index. -/
def putAll (l : Table (List Byte)) (first : Nat) (recs : List (List Byte)) : Table (List Byte) :=
  (recs.foldl (fun (a : Table (List Byte) × Nat) r => (tput a.1 a.2 r, a.2 + 1)) (l, first)).1

/-- The first PATH_END among segment records, if one has come. -/
def pathEndAt (l : Table (List Byte)) : Option Nat :=
  (l.find? (fun (x : Nat × List Byte) => (segOfBytes x.2).pathEnd)).map (·.1)

/-- Where the nominal path begins, so that its first streamed segment passes through the resume point: at the point itself where no
T-tick of the segment has passed, else behind it along the segment by a length that the messages leave open; its focus likewise
(log entry 28). -/
def HoIn.baseAt (h : HoIn) (bits : Nat) : Int × Int × Int :=
  match h.path.resume, tfind h.segs h.path.first with
  | some rp, some bs =>
    let s := segOfBytes bs
    let back := fun (dx : Int) => if rp.cnt == 0 then 0 else dx * ((bits % 65537 : Nat) : Int) / 65536
    (rp.x / 2 ^ 32 - back s.dx, rp.y / 2 ^ 32 - back s.dy, sext 12 (bits / 65537 % 4096))
  | _, _ => h.base

/-- The records of one HO_DATA join a remainder; its end is known once PATH_END has come. -/
def HoIn.take (h : HoIn) (b : HoBody) (now : DWord) (bits : Nat) : HoIn :=
  match b with
  | .psets first sets => { h with psets := putAll h.psets first sets, heard := now }
  | .segs first recs =>
    let h1 := { h with segs := putAll h.segs first recs, heard := now }
    let h2 := if (tfind h.segs h.path.first).isNone then { h1 with base := h1.baseAt bits } else h1
    match pathEndAt h2.segs with
    | some e => { h2 with path := { h2.path with count := e + 1 - h2.path.first } }
    | none => h2

/-- HO_DATA_RECEIVED (R265). -/
def Dev.hoData (d : Dev) (src x : Nat) (b : HoBody) : Dev :=
  (d.free.2).updInc src x (fun h => h.take b d.time d.free.1)

/-- HO_DATA_RECEIVED (R265). -/
def execHoDataReceived (src : Node) (xid : Word) (b : HoBody) (s : State) : Host.Outcome State Fault Refusal :=
  .next (s.onDev (fun d => d.hoData src.val xid.toNat b))

/-- HO_KEEP_RECEIVED (R304): the owner has been heard. -/
def execHoKeepReceived (src : Node) (xid : Word) (s : State) : Host.Outcome State Fault Refusal :=
  .next (s.onDev (fun d => d.updInc src.val xid.toNat (fun h => { h with heard := d.time })))

/-- A streamed remainder ends where it stands, reported as aborted (R253, R265, R267). -/
def Dev.incStop (d : Dev) (m : Dram) (x : Nat) : Dev :=
  match tfind d.hnd.inc x with
  | none => d
  | some h =>
    let c := match h.path.st with
      | .running p => match d.runOf p with
        | some r => let rp := (d.engOf p).cutPoint r
                    (rp.seg, rp.cnt)
        | none => (h.path.nextSeg, 0)
      | _ => (h.path.nextSeg, 0)
    (d.abandonPath m (.inc x) 1).incDone x true c.1 c.2

/-- HO_ABORT_RECEIVED (R253). -/
def execHoAbortReceived (src : Node) (xid : Word) (_reason : Byte) (s : State) : Host.Outcome State Fault Refusal :=
  .next (s.onDev (fun d => match tfind d.hnd.inc xid.toNat with
    | some h => if h.node == src.val && !h.orphan then d.incStop s.mem xid.toNat else d
    | none => d))

/-- OWNER_SILENCE_TIMEOUT (R267): a running streamed remainder ends, blanked. -/
def execOwnerSilenceTimeout (xid : Word) (s : State) : Host.Outcome State Fault Refusal :=
  .next (s.onDev (fun d => match tfind d.hnd.inc xid.toNat with
    | some h => if h.orphan then d else d.incStop s.mem xid.toNat
    | none => d))

/-! ## The owning device (R255, R265, R267) -/

/-- An exchange that names this node. -/
def Dev.outOf (d : Dev) (src x : Nat) : Option HoOut := (tfind d.hnd.out x).bind (fun o => if o.node == src then some o else none)

/-- The state with an exchange changed. -/
def Dev.updOut (d : Dev) (x : Nat) (f : HoOut → HoOut) : Dev :=
  match tfind d.hnd.out x with
  | some o => { d with hnd := { d.hnd with out := tput d.hnd.out x (f o) } }
  | none => d

/-- An exchange is over. -/
def Dev.dropOut (d : Dev) (x : Nat) : Dev := { d with hnd := { d.hnd with out := tdel d.hnd.out x } }

/-- HO_GRANT_RECEIVED (R265): the choice is recorded, and the remainder is streamed, its parameter sets first. -/
def Dev.hoGrant (d : Dev) (m : Dram) (src x cs start : Nat) : Dev :=
  match d.outOf src x with
  | none => d
  | some o =>
    if o.granted then d
    else
      match (d.tkoOf o.key).bind (fun i => tfind d.hnd.tko i), d.path? o.key with
      | some t, some q =>
        let a := t.rp.seg
        let n := q.first + q.count - a
        let d1 := ((d.updOut x (fun o => { o with granted := true, heard := d.time, sent := q.first + q.count })).bump
          F.HND_REMOTE_OUT_COUNT).raise 0x0601 0x04 1 (pair8 (t.lead.getD 0xFF) (entryNo t.entry)) (pair8 o.node o.port) (pair8 cs start)
        (d1.sendSets m 0x13 o.node x o.key a n).sendSegs m 0x13 o.node x o.key (n + 1) a n
      | _, _ => d.dropOut x

/-- HO_GRANT_RECEIVED (R265). -/
def execHoGrantReceived (src : Node) (xid : Word) (case : Fin 4) (start : Word) (s : State) : Host.Outcome State Fault Refusal :=
  .next (s.onDev (fun d => d.hoGrant s.mem src.val xid.toNat case.val start.toNat))

/-- A cover on another device has failed its takeover (R255, R260): the fault of class LINK with its cause bit, and the remainder moves to
the next cover from a point. -/
def Dev.remoteFailed (d : Dev) (m : Dram) (x : Nat) (o : HoOut) (cause : Nat) (rp : Option ResumePt) : Dev :=
  let d0 := d.dropOut x
  match d0.tkoOf o.key with
  | none => d0
  | some i =>
    match tfind d0.hnd.tko i with
    | none => d0
    | some t =>
      let p := rp.getD t.rp
      let w := d0.ftWrite t.lead 7 cause 3 d0.tick p.seg
      let d1 := w.1.updTko i (fun t => { t with rp := p, entry := t.entry.or w.2 })
      let d2 := (d1.moveOn m i ((t.covers.find? (fun c => c == (o.node, o.port))).getD (o.node, o.port))).ftSweep
      match t.lead with
      | some l => d2.portBits l
      | none => d2

/-- HO_DENY_RECEIVED (R255, R268): a denied takeover moves on; reason 7 says that a standby copy is not kept. -/
def Dev.hoDeny (d : Dev) (m : Dram) (src x reason : Nat) : Dev :=
  if reason == 7 then
    match tfind d.hnd.stbyOut x with
    | some o =>
      if o.node == src then
        let lead := match d.tileRec o.key with
          | some r => r.lead
          | none => 0xFF
        ({ d with hnd := { d.hnd with stbyOut := tdel d.hnd.stbyOut x } }).raise 0x0613 0x04 2 (pair8 src lead) (d.tileNo o.key) 1
      else d
    | none => d
  else match d.outOf src x with
    | some o => if o.granted then d else d.remoteFailed m x o (2 ^ 15) none
    | none => d

/-- HO_DENY_RECEIVED (R255). -/
def execHoDenyReceived (src : Node) (xid : Word) (reason : Byte) (s : State) : Host.Outcome State Fault Refusal :=
  .next (s.onDev (fun d => d.hoDeny s.mem src.val xid.toNat reason.toNat))

/-- HO_GRANT_TIMEOUT (R255). -/
def execHoGrantTimeout (xid : Word) (s : State) : Host.Outcome State Fault Refusal :=
  .next (s.onDev (fun d => match tfind d.hnd.out xid.toNat with
    | some o => if o.granted then d else d.remoteFailed s.mem xid.toNat o (2 ^ 14) none
    | none => d))

/-- The owner learns that a cover on another device has started takeover i (R252, R271). The approach, which no message carries, is left open
in the 0x0602 event. -/
def Dev.remoteStart (d : Dev) (i node port : Nat) : Dev :=
  match tfind d.hnd.tko i with
  | none => d
  | some t =>
    let f := d.free
    (f.2.noteStart i node port).raise 0x0602 0x04 1 (pair8 (t.lead.getD 0xFF) port) ((elapsed64 d.time t.detect) / 1000) f.1

/-- HO_PROG_RECEIVED (R265): the confirmed point of the remote cover; the first one tells that it has started. -/
def Dev.hoProg (d : Dev) (src x : Nat) (seg cnt : Nat) (px py : Int) : Dev :=
  match d.outOf src x with
  | none => d
  | some o =>
    if !o.granted then d
    else
      let d1 := d.updOut x (fun o => { o with heard := d.time, started := true, conf := { o.conf with seg := seg, cnt := cnt, x := px, y := py, hold := 0 } })
      if o.started then d1
      else match (d1.tkoOf o.key) with
        | none => d1
        | some i => (d1.remoteStart i o.node o.port).ftSweep

/-- HO_PROG_RECEIVED (R265). -/
def execHoProgReceived (src : Node) (xid seg segTick x y : Word) (s : State) : Host.Outcome State Fault Refusal :=
  .next (s.onDev (fun d => d.hoProg src.val xid.toNat seg.toNat segTick.toNat (ptFix x) (ptFix y)))

/-- What HO_DONE reports joins the tile's record (R114, R265); EXPOSE segments not exposed are added where the remainder is complete. -/
def Dev.addRemote (d : Dev) (k : PKey) (r : HoDone) (complete : Bool) : Dev :=
  match k.tile with
  | none => d
  | some (n, t) =>
    let d1 := d.updTile n t (fun x => { x with
      remoteE := x.remoteE ++ [r.energy]
      wins := (x.wins.zip (r.wins ++ [0, 0, 0, 0, 0])).map (fun (y : Nat × Nat) => y.1 + y.2)
      loopLost := x.loopLost + r.loopLost
      notExp := x.notExp + (if complete then r.notExposed else 0) })
    if r.loopLost == 0 then d1 else d1.tileFlag k 9

/-- HO_DONE_RECEIVED (R255, R265): a complete remainder ends its path; an aborted one moves to the next cover. -/
def Dev.hoDone (d : Dev) (m : Dram) (src : Nat) (r : HoDone) : Dev :=
  match d.outOf src r.xid.toNat with
  | none => d
  | some o =>
    let ended := match d.path? o.key with
      | some q => decide (q.st = .ended)
      | none => true
    let d1 := d.addRemote o.key r (!r.aborted && !ended)
    if ended then d1.dropOut r.xid.toNat
    else if r.aborted then d1.remoteFailed m r.xid.toNat o (2 ^ 15) (if o.started then some o.conf else none)
    else
      let d2 := if o.started then d1
        else match d1.tkoOf o.key with
          | some i => d1.remoteStart i o.node o.port
          | none => d1
      (((d2.dropOut r.xid.toNat).tkoEnded o.key).pathEnded o.key).ftSweep

/-- HO_DONE_RECEIVED (R265). -/
def execHoDoneReceived (src : Node) (m : HoDone) (s : State) : Host.Outcome State Fault Refusal :=
  .next (s.onDev (fun d => d.hoDone s.mem src.val m))

/-- REMOTE_COVER_LOST (R267): the remainder is taken over again from the last confirmed point reported. -/
def Dev.remoteLost (d : Dev) (m : Dram) (x : Nat) : Dev :=
  match tfind d.hnd.out x with
  | none => d
  | some o =>
    if o.granted then
      (d.raiseSeg (d.segTag m o.key o.conf.seg) 0x060C 0x04 4 (pair8 o.node o.port) (d.tileNo o.key) o.conf.seg).remoteFailed m x o (2 ^ 15) (some o.conf)
    else d

/-- REMOTE_COVER_LOST (R267). -/
def execRemoteCoverLost (xid : Word) (s : State) : Host.Outcome State Fault Refusal :=
  .next (s.onDev (fun d => d.remoteLost s.mem xid.toNat))

/-! ## Standby copies (R268) -/

/-- Standby copies that a node keeps at once. -/
def maxStandby : Nat := 1024

/-- The state with a standby copy of this node changed. -/
def Dev.updStby (d : Dev) (src x : Nat) (f : Standby → Standby) : Dev :=
  match tfind d.hnd.stby x with
  | some c => if c.node == src then { d with hnd := { d.hnd with stby := tput d.hnd.stby x (f c) } } else d
  | none => d

/-- HO_STBY_RECEIVED (R268): a header opens a copy, or is answered with HO_DENY reason 7 where 1,024 are kept. -/
def Dev.hoStby (d : Dev) (src x : Nat) (b : StbyBody) : Dev :=
  match b with
  | .header h =>
    if d.hnd.stby.length < maxStandby || (tfind d.hnd.stby x).isSome then
      let c : Standby := { node := src, hdr := h, segs := [], psets := [], mark := none, heard := d.time }
      { d with hnd := { d.hnd with stby := tput d.hnd.stby x c } }
    else d.send 0x12 src (leBytes 4 x ++ leBytes 4 7)
  | .body (.segs first recs) => d.updStby src x (fun c => { c with segs := putAll c.segs first recs, heard := d.time })
  | .body (.psets first sets) => d.updStby src x (fun c => { c with psets := putAll c.psets first sets, heard := d.time })

/-- HO_STBY_RECEIVED (R268). -/
def execHoStbyReceived (src : Node) (xid : Word) (b : StbyBody) (s : State) : Host.Outcome State Fault Refusal :=
  .next (s.onDev (fun d => d.hoStby src.val xid.toNat b))

/-- HO_MARK_RECEIVED (R268). -/
def execHoMarkReceived (src : Node) (xid seg segTick x y nHit : Word) (hit : Bool) (s : State) : Host.Outcome State Fault Refusal :=
  .next (s.onDev (fun d => d.updStby src.val xid.toNat (fun c => { c with
    heard := d.time
    mark := some { seg := seg.toNat, cnt := segTick.toNat, x := ptFix x, y := ptFix y, f := 0, hold := 0,
                   hit := if hit then some (nHit, seg.toNat) else none } })))

/-- A copy is discarded. -/
def Dev.dropStby (d : Dev) (src x : Nat) : Dev :=
  match tfind d.hnd.stby x with
  | some c => if c.node == src then { d with hnd := { d.hnd with stby := tdel d.hnd.stby x } } else d
  | none => d

/-- HO_STBY_END_RECEIVED (R268). -/
def execHoStbyEndReceived (src : Node) (xid : Word) (_reason : Byte) (s : State) : Host.Outcome State Fault Refusal :=
  .next (s.onDev (fun d => d.dropStby src.val xid.toNat))

/-! ## Orphan takeover (R269) -/

/-- A copy is complete: every segment of its path and every set they name has come. -/
def Standby.complete (c : Standby) : Bool :=
  (upTo c.hdr.count).all (fun j => match tfind c.segs (c.hdr.first + j) with
    | some bs => (tfind c.psets (segOfBytes bs).pset).isSome
    | none => false)

/-- The covers of a copy's tile on this node, in order. A cover field holds the node in its low byte and the port above it. -/
def Dev.stbyCovers (d : Dev) (c : Standby) : List (Nat × Nat) :=
  (c.hdr.covers.map (fun x => (x.toNat % 256, x.toNat / 256))).filter (fun x => x.1 == nodeOf d.rig.live && decide (x.2 < 32))

/-- Exchange number under which an orphan is held, apart from those of remainders. -/
def orphanKey (x : Nat) : Nat := 2 ^ 32 + x

/-- The 0x0612 event (R271): owning node, lead, cover port and stage. -/
def Dev.orphanEvent (d : Dev) (sev node lead cover stage bedNo tile : Nat) : Dev :=
  d.raise 0x0612 0x04 sev (node + 256 * lead + 65536 * cover + 2 ^ 24 * stage) bedNo tile

/-- The first SYNC of a copy's path. -/
def Standby.firstSync (c : Standby) : Option Nat := (c.segs.find? (fun (x : Nat × List Byte) => (segOfBytes x.2).isSync)).map (·.1)

/-- Where the takeover of an orphan begins: the last point that was reported, or the first segment. A hit reported from a point before the
path's first SYNC is that SYNC's; otherwise the SYNCs up to the point count as hit (log entry 127). -/
def Standby.startPt (c : Standby) : ResumePt :=
  match c.mark with
  | some p => { p with hit := p.hit.map (fun h => (h.1, max h.2 (c.firstSync.getD 0))) }
  | none => ⟨c.hdr.first, 0, 0, 0, 0, 0, none⟩

/-- The path of an orphan as this node holds it, for port p. -/
def Dev.orphanPath (d : Dev) (c : Standby) (p : Nat) : HoIn :=
  let h := c.hdr
  { node := c.node, lead := h.lead.val, port := p, bedNo := h.bedNo, tile := h.tile.toNat, segs := c.segs,
    psets := c.psets, base := (0, 0, 0), path := incPath h.first h.count h.box 0 c.startPt, pwr := 0, wins := [0, 0, 0, 0, 0], notExp := 0,
    loopLost := 0, heard := d.time, progTick := d.tick, orphan := true, covers := d.stbyCovers c }

/-- The copy is a standby copy no longer. -/
def Dev.stbyTaken (d : Dev) (x : Nat) : Dev := { d with hnd := { d.hnd with stby := tdel d.hnd.stby x } }

/-- The path of copy x is held as a remainder for port p. -/
def Dev.orphanHeld (d : Dev) (x : Nat) (c : Standby) (p : Nat) : Dev :=
  let d0 := d.stbyTaken x
  { d0 with hnd := { d0.hnd with inc := tput d0.hnd.inc (orphanKey x) (d.orphanPath c p) } }

/-- The takeover of an orphan, before a cover is chosen. -/
def Dev.orphanTko (d : Dev) (x : Nat) (c : Standby) : Takeover :=
  { lead := none, entry := none, key := .inc (orphanKey x), rp := c.startPt, detect := d.time, covers := d.stbyCovers c, tried := [],
    cover := none, started := false }

/-- The cover that takes an orphan (R269): none where the copy is not complete. -/
def Dev.orphanCover (d : Dev) (m : Dram) (x : Nat) (c : Standby) : Option (Nat × Nat) :=
  if c.complete then (d.orphanHeld x c (((d.stbyCovers c).head?.map (·.2)).getD 0)).pick m (d.orphanTko x c) else none

/-- ORPHAN_TAKEOVER (R269): the copy is complete and a cover can take it, or the copy is discarded. -/
def Dev.orphanTakeover (d : Dev) (m : Dram) (x : Nat) : Dev :=
  match tfind d.hnd.stby x with
  | none => d
  | some c =>
    let h := c.hdr
    match d.orphanCover m x c with
    | some cv =>
      (((d.orphanHeld x c cv.2).orphanEvent 4 c.node h.lead.val cv.2 1 h.bedNo.toNat h.tile.toNat).beginTko m none none
        (.inc (orphanKey x)) c.startPt (d.stbyCovers c)).send 0x1B c.node (leBytes 4 x ++ leBytes 4 cv.2 ++ leBytes 4 c.startPt.seg)
    | none => (d.stbyTaken x).orphanEvent 4 c.node h.lead.val 0xFF 3 h.bedNo.toNat h.tile.toNat

/-- ORPHAN_TAKEOVER (R269). -/
def execOrphanTakeover (xid : Word) (s : State) : Host.Outcome State Fault Refusal :=
  .next (s.onDev (fun d => d.orphanTakeover s.mem xid.toNat))

/-- HO_ORPHANED_RECEIVED (R269): an owner that still runs the path blanks it and ends it without a takeover. -/
def Dev.hoOrphaned (d : Dev) (m : Dram) (src x cover : Nat) : Dev :=
  match tfind d.hnd.stbyOut x with
  | none => d
  | some o =>
    if o.node != src then d
    else match (d.path? o.key).map (fun (q : PathSt) => q.st) with
      | some (.running p) =>
        let lead := match d.tileRec o.key with
          | some r => r.lead
          | none => 0xFF
        ((d.tileHandoff o.key).orphanEvent 2 (nodeOf d.rig.live) lead cover 4 (d.keyBedNo o.key) (d.tileNo o.key)).finishRun m p
          (some (d.cutSeg p)) 4
      | _ => d

/-- HO_ORPHANED_RECEIVED (R269). -/
def execHoOrphanedReceived (src : Node) (xid : Word) (cover : Port) (_seg : Word) (s : State) : Host.Outcome State Fault Refusal :=
  .next (s.onDev (fun d => d.hoOrphaned s.mem src.val xid.toNat cover.val))

end Sys2Proof.Machine
end

