-- ==== Sys2Proof/Machine/Link.lean ====
section
/-! DEFINITION. Gorwin Link: frames, markers, messages and the states of the ports (11_link_and_time.md R296 to R309). -/

namespace Sys2Proof.Machine

/-! ## Routes (R306) -/

/-- The routes are computed again: GLK_REACH, a 0x0702 event where they changed, a 0x0612 event for each running path whose standby node
is no longer reached (R269), and the role. -/
def Dev.reroute (d : Dev) : Dev :=
  let old := (d.get F.GLK_REACH0_NODES, d.get F.GLK_REACH1_NODES)
  let d1 := d.reachBits
  let d2 := d1.judgeRole false
  let d3 :=
    if old == (d1.get F.GLK_REACH0_NODES, d1.get F.GLK_REACH1_NODES) then d2
    else (d2.setFlag F.GLK_STAT_ROUTE_CHG true).raise 0x0702 0x07 1 d1.hopTable.length (d2.get F.GLK_STAT_HOPS) d.tick.toNat
  (d.hnd.stbyOut.filter (fun (x : Nat × StbyOut) => d.reaches x.2.node && !(d1.reaches x.2.node))).foldl (fun d x =>
    match (d.path? x.2.key).map (fun (q : PathSt) => q.st) with
    | some (.running _) =>
      let lead := match d.tileRec x.2.key with
        | some r => r.lead
        | none => 0xFF
      d.orphanEvent 2 d.node lead 0xFF 5 (d.keyBedNo x.2.key) (d.tileNo x.2.key)
    | _ => d) d3

/-- ROUTE (R305): for each port its neighbour, 0xFF 0xFF if it is DOWN. -/
def Dev.sendRoute (d : Dev) : Dev :=
  d.flood 0x02 (leBytes 1 d.node ++ leBytes 1 d.glkUps.length ++ leBytes 2 0 ++ (upTo 4).flatMap (fun p =>
    if d.glkUp p then leBytes 1 (d.get (F.GLKp_STAT_NBR_NODE p)) ++ leBytes 1 (d.get (F.GLKp_STAT_NBR_PORT p))
    else leBytes 2 0xFFFF))

/-- ROUTE_RECEIVED (R306). -/
def Dev.routeIn (d : Dev) (r : Route) : Dev :=
  if !d.rigged || r.node.val == d.node then d
  else
    let l := r.nbr.filterMap (fun x => x.map (fun (y : Node × Gp) => y.1.val))
    { d with glk := { d.glk with routes := tput d.glk.routes r.node.val l } }.reroute

/-- ROUTE_RECEIVED (R306). -/
def execRouteReceived (r : Route) (s : State) : Host.Outcome State Fault Refusal := .next (s.onDev (fun d => d.routeIn r))

/-! ## Port states (R306, R308, R309) -/

/-- Port p enters a state (R308). -/
def Dev.glkState (d : Dev) (p st : Nat) : Dev :=
  (d.put (F.GLKp_STAT_STATE p) st).updGlkPort p (fun x => { x with since := d.time, bad := 0, mark := if st == 5 then none else x.mark })

/-- Port p leaves UP or its bring-up: nothing is known of its neighbour any more. -/
def Dev.glkDown (d : Dev) (p st : Nat) : Dev :=
  ((d.glkState p st).setFlag (F.GLKp_STAT_NBR_VALID p) false).updGlkPort p (fun x => { x with mark := none, delays := [], echo := none }) |>.updGlkRx p (fun _ => glkRx0)

/-- An enabled port of a rigged device leaves DOWN for LOCK (R308). -/
def Dev.glkWake (d : Dev) (p : Nat) : Dev :=
  if d.rigged && d.bit F.GLK_CTRL_PORT_EN p && d.get (F.GLKp_STAT_STATE p) == 0 then d.glkState p 1 else d

/-- GLK_CTRL.PORT_EN of port p is written (R308): DISABLED from any state, and back to DOWN. -/
def Dev.glkEnable (d : Dev) (p : Nat) (on : Bool) : Dev :=
  if on then if d.get (F.GLKp_STAT_STATE p) == 6 then (d.glkState p 0).glkWake p else d
  else if d.get (F.GLKp_STAT_STATE p) == 5 then ((d.glkDown p 6).sendRoute).reroute
  else d.glkDown p 6

/-- The frame that port p is receiving when it loses block lock is dropped and counted (R299, GLKp_DROPS of R316). -/
def Dev.rxLoss (d : Dev) (p : Nat) : Dev := if (d.glkRx p).frame.isSome then d.bump (F.GLKp_DROPS_COUNT p) else d

/-- NEIGHBOUR_LOST (R306): 1 block lock, 2 markers, 3 HELLO. The loss of the upstream port also records its change (R303). -/
def Dev.nbrLost (d : Dev) (p cause : Nat) : Dev :=
  if d.glkUp p then
    let d0 := if cause == 1 then d.rxLoss p else d
    let d1 := (((d0.setFlag (F.GLKp_STAT_LOST p) true).bump (F.GLKp_LOSSES_COUNT p)).bump F.GLK_REROUTES_COUNT).raise 0x0701 0x07 2 p cause
      d.tick.toNat
    let d2 := if decide (d.glk.up = some p) then d1.raise 0x0701 0x07 2 p 4 d.tick.toNat else d1
    ((d2.glkDown p 0).sendRoute).reroute
  else d

/-- NEIGHBOUR_LOST (R306). -/
def execNeighbourLost (p : Gp) (cause : LostCause) (s : State) : Host.Outcome State Fault Refusal :=
  .next (s.onDev (fun d => d.nbrLost p.val (match cause with | .blockLock => 1 | .markers => 2 | .hello => 3)))

/-- 256 delay measurements agree within 0.5 ns (R308): round trips within 1 ns, in 1/16 ns. -/
def delaysAgree (l : List Nat) : Bool :=
  match l with
  | [] => false
  | a :: t => l.length == 256 && decide (t.foldl max a - t.foldl min a ≤ 16)

/-- The link delay in 1/16 ns: half the mean of the round trips (R309), rounded to nearest. -/
def meanDelay (l : List Nat) : Nat := (fracRne (frac (l.foldl (· + ·) 0 : Nat) (2 * l.length))).toNat

/-- GLK_PORT_STATE_ADVANCE (R308). -/
def Dev.glkAdvance (d : Dev) (p : Nat) : Dev :=
  match d.get (F.GLKp_STAT_STATE p) with
  | 0 => d.glkWake p
  | 1 => d.glkState p 2
  | 2 => d.glkState p 3
  | 4 =>
    let l := (d.glkPort p).delays
    if delaysAgree l then
      let d1 := (d.glkState p 5).put (F.GLKp_DELAY_DELAY p) (meanDelay l)
      ((d1.raise 0x0700 0x07 0 (pair8 p (d.get (F.GLKp_STAT_NBR_NODE p))) (meanDelay l) d.tick.toNat).sendRoute).reroute
    else d
  | _ => d

/-- GLK_PORT_STATE_ADVANCE (R308). -/
def execGlkPortStateAdvance (p : Gp) (s : State) : Host.Outcome State Fault Refusal := .next (s.onDev (fun d => d.glkAdvance p.val))

/-- GLK_PORT_STATE_TIMEOUT (R308): a bring-up state that has lasted 100 ms. -/
def Dev.glkTimeout (d : Dev) (p : Nat) : Dev :=
  let st := d.get (F.GLKp_STAT_STATE p)
  if decide (1 ≤ st) && decide (st ≤ 4) && decide (100000000 ≤ elapsed64 d.time (d.glkPort p).since) then d.glkDown p 0 else d

/-- GLK_PORT_STATE_TIMEOUT (R308). -/
def execGlkPortStateTimeout (p : Gp) (s : State) : Host.Outcome State Fault Refusal := .next (s.onDev (fun d => d.glkTimeout p.val))

/-- HELLO_RECEIVED (R308, R309). -/
def Dev.helloIn (d : Dev) (p : Nat) (h : Hello) : Dev :=
  let st := d.get (F.GLKp_STAT_STATE p)
  if !(st == 3 || st == 4 || st == 5) then d
  else if h.node.val == d.node then
    if d.flag F.GLK_STAT_NODE_CONFLICT then d
    else ((d.setFlag F.GLK_STAT_NODE_CONFLICT true).raise 0x0703 0x07 4 p h.node.val h.imgId.toNat).attn .link
  else
    let d0 := d.updGlkPort p (fun x => { x with echo := some (h.tick, h.ofs) })
    let d1 := ((d0.put (F.GLKp_STAT_NBR_NODE p) h.node.val).put (F.GLKp_STAT_NBR_PORT p) h.port.val).setFlag (F.GLKp_STAT_NBR_VALID p) true
    let d2 := if st == 3 then (d1.glkState p 4).updGlkPort p (fun x => { x with delays := [] }) else d1
    match h.rtt with
    | none => d2
    | some r =>
      let l := (r :: (d2.glkPort p).delays).take 256
      let d3 := d2.updGlkPort p (fun x => { x with delays := l })
      if st == 5 then d3.put (F.GLKp_DELAY_DELAY p) (meanDelay l) else d3

/-- HELLO_RECEIVED (R309). -/
def execHelloReceived (p : Gp) (h : Hello) (s : State) : Host.Outcome State Fault Refusal := .next (s.onDev (fun d => d.helloIn p.val h))

/-! ## Markers (R302, R303) -/

/-- A marker pair is valid (R302): within 20 ns of its expected arrival, both lanes agreeing, its counter in step with the last valid one.
The arrival is judged against the edge of a device of the same tick domain: before a device has joined, its edges are not aligned, and it
has to read the marker to join (R297; log entry 138). -/
def Dev.markValid (d : Dev) (p : Nat) (m : Marker) : Bool :=
  m.agree && (decide (d.glk.root ≠ some m.root.val) || decide ((d.markErr p m).natAbs ≤ 320)) && match (d.glkPort p).mark with
    | some (x, at_) => m.counter == x.counter + (d.tick - at_)
    | none => true

/-- The upstream port is given up (R303): the next one is taken, with a 0x0701 event of cause 4. -/
def Dev.changeUp (d : Dev) (p : Nat) : Dev := (d.raise 0x0701 0x07 2 p 4 d.tick.toNat).judgeRole false

/-- GLK_MARKER (R302, R303). The filter behind GLK_PHASE is not stated: its value is free. -/
def Dev.markerIn (d : Dev) (p : Nat) (m : Marker) : Dev :=
  if d.glkUp p then
    if d.markValid p m then
      let d1 := d.updGlkPort p (fun x => { x with bad := 0, mark := some (m, d.tick) })
      let d2 := if decide (d.glk.up = some p) then d1.free.2.put F.GLK_PHASE_ERR d1.free.1 else d1
      d2.judgeRole false
    else
      let d1 := d.updGlkPort p (fun x => { x with bad := x.bad + 1 })
      if decide (d.glk.up = some p) && (d1.glkPort p).bad == 3 then d1.changeUp p else d1
  else d

/-- GLK_MARKER (R302). -/
def execGlkMarker (p : Gp) (m : Marker) (s : State) : Host.Outcome State Fault Refusal := .next (s.onDev (fun d => d.markerIn p.val m))

/-! ## Frames (R300) -/

/-- The message types of R304. -/
def glkTypes : List Nat := [0x01, 0x02, 0x05, 0x10, 0x11, 0x12, 0x13, 0x14, 0x15, 0x16, 0x17, 0x18, 0x19, 0x1A, 0x1B, 0x20, 0x30]

/-- The class of a message type, which sets the order of transmission at each port (R304). -/
def glkClass (type : Nat) : Nat :=
  if type == 0x05 || type == 0x20 then 2
  else if type == 0x13 || type == 0x18 then 3
  else if type == 0x01 || type == 0x02 then 4
  else if type == 0x30 then 5
  else 1

/-- The order in which a port transmits messages that wait together: by class, and within a class as they came (R304). -/
def glkOrder (l : List GlkMsg) : List GlkMsg := [1, 2, 3, 4, 5].flatMap (fun c => l.filter (fun m => glkClass m.type == c))

/-- A frame leaves through a port with one hop less. -/
def Dev.forward (d : Dev) (q : Nat) (f : GlkFrame) : Dev :=
  { d with glk := { d.glk with fwd := d.glk.fwd ++ [(q, { f with ttl := f.ttl - 1 })] } }

/-- How many floods of a source and type are recognised. -/
def seenMax : Nat := 64

/-- A flooded frame (R300): forwarded once by each node. -/
def Dev.floodIn (d : Dev) (p : Nat) (f : GlkFrame) : Dev :=
  let k := f.src.toNat * 256 + f.type.toNat
  let seen : List Nat := tget [] d.glk.seen k
  if f.src.toNat == d.node || seen.contains f.seq.toNat then d
  else
    let d1 := { d with glk := { d.glk with seen := tput d.glk.seen k ((f.seq.toNat :: seen).take seenMax) } }
    if f.ttl.toNat ≤ 1 then d1.bump (F.GLKp_DROPS_COUNT p)
    else (d.glkUps.filter (· != p)).foldl (fun d q => d.forward q f) d1

/-- A frame that port p has received whole (R300): checked, kept, forwarded, flooded or dropped. What a message for this node does is the
row of that message. -/
def Dev.frameIn (d : Dev) (p : Nat) (f : GlkFrame) (crcOk : Bool) : Dev :=
  let st := d.get (F.GLKp_STAT_STATE p)
  if st != 5 && !(f.type == 1 && (st == 3 || st == 4)) then d
  else if !crcOk then d.bump (F.GLKp_CRC_ERR_COUNT p)
  else if !(glkTypes.contains f.type.toNat) then d.bump (F.GLKp_DROPS_COUNT p)
  else if f.type == 1 || f.dst.toNat == d.node then d
  else if f.dst == 0xFF then d.floodIn p f
  else if f.ttl.toNat ≤ 1 then d.bump (F.GLKp_DROPS_COUNT p)
  else match d.nextHop f.dst.toNat with
    | some q => d.forward q f
    | none => d

/-- A block in error on port p (R299): counted where the port holds block lock; the frame being received is discarded. Where it makes 64 of
1,024 on its lane, block lock is lost, and with it the neighbour (R306) or the bring-up. -/
def Dev.blockError (d : Dev) (p : Nat) : Dev :=
  let st := d.get (F.GLKp_STAT_STATE p)
  if decide (2 ≤ st) && decide (st ≤ 5) then
    let d1 := d.bump (F.GLKp_BLK_ERR_COUNT p)
    if (d1.glkRx p).lost then (if st == 5 then d1.nbrLost p 1 else (d1.rxLoss p).glkDown p 0)
    else d1.updGlkRx p (fun x => { x with frame := none })
  else d

/-- One block (R299, R300). -/
def Dev.blockIn (d : Dev) (p : Nat) (b : GlkBlock) : Dev :=
  let d1 := d.updGlkRx p (fun x => x.count b)
  if blockBad b then d1.blockError p
  else
    let r := (d1.glkRx p).take b
    let d2 := d1.updGlkRx p (fun _ => r.1)
    match r.2 with
    | some (f, ok) => d2.frameIn p f ok
    | none => d2

/-- GLK_FRAME_RECEIVED (R299, R300): the blocks that a port receives, at least one, in the order of their stripes. -/
def execGlkFrameReceived (p : Gp) (b : GlkBlock) (more : List GlkBlock) (s : State) : Host.Outcome State Fault Refusal :=
  .next (s.onDev (fun d => (b :: more).foldl (fun d b => d.blockIn p.val b) d))

/-! ## TIME, OVERLAP and DIGEST -/

/-- TIME_RECEIVED (R296, R305, R313): what a root says of its time is kept; a MEMBER takes that of the root it follows, and a stepped one is
recorded; a root that hears of a lower one tests the conditions of R297. -/
def Dev.timeIn (d : Dev) (t : TimeMsg) : Dev :=
  let rt : RootTime := { tick := t.tick, time := t.time, valid := t.valid }
  let d1 := { d with glk := { d.glk with rootTimes := tput d.glk.rootTimes t.src.val rt } }
  if t.src.val == d.node then d
  else if d.get F.GLK_STAT_ROLE == 2 && decide (d.glk.root = some t.src.val) then
    let new := rt.at_ d.tick + BitVec.ofNat 64 (250 * d.sub.val)
    let d2 := ({ d1 with time := new }).setFlag F.PTP_STAT_TIME_VALID t.valid
    if t.stepped then
      (d2.raise 0x0723 0x08 2 (d.time.toNat / 2 ^ 32) d.time.toNat (trunc 32 (new - d.time).toInt)).setFlag F.PTP_STAT_STEPPED true
    else d2
  else (d1.meetRoot t.src.val rt).judgeRole false

/-- TIME_RECEIVED (R296). -/
def execTimeReceived (t : TimeMsg) (s : State) : Host.Outcome State Fault Refusal := .next (s.onDev (fun d => d.timeIn t))

/-- OVERLAP_RECEIVED (R249, R305): the latest state of a node's beams. -/
def execOverlapReceived (o : Overlap) (s : State) : Host.Outcome State Fault Refusal :=
  .next (s.onDev (fun d => if o.node.val == d.node then d
    else { d with glk := { d.glk with overlaps := tput d.glk.overlaps o.node.val (o.bedNo, o.ports.map (·.toNat)) } }))

/-- One received digest record (R307). -/
def Dev.digestIn (d : Dev) (src : Nat) (r : DigestRec) : Dev :=
  (d.bump F.GLK_DIGEST_RX_COUNT).raise 0x0710 0x07 0 (pair8 src r.sev.toNat) r.code.toNat r.seq.toNat

/-- DIGEST_RECEIVED (R307). -/
def execDigestReceived (src : Node) (recs : List DigestRec) (s : State) : Host.Outcome State Fault Refusal :=
  .next (s.onDev (fun d => recs.foldl (fun d r => d.digestIn src.val r) d))

/-! ## Periodic messages (R304) -/

/-- HELLO (R305), with the echo of the last HELLO received: the low halves of its T-tick and time. The part of the time since the T-tick
edge that lies within a P-tick is a free value, as is the echo before the first HELLO. -/
def Dev.sendHello (d : Dev) (p : Nat) : Dev :=
  let st := d.get (F.GLKp_STAT_STATE p)
  if st == 3 || st == 4 || st == 5 then
    let f := d.free
    f.2.send 0x01 (d.get (F.GLKp_STAT_NBR_NODE p)) (leBytes 1 d.node ++ leBytes 1 p ++ leBytes 2 0 ++ leBytes 4 d.tick.toNat ++
      leBytes 4 (4000 * d.sub.val + f.1 % 4000) ++ (match (d.glkPort p).echo with
        | some x => leBytes 2 x.1.toNat ++ leBytes 2 x.2.toNat
        | none => leBytes 4 (f.1 / 4000)) ++ leBytes 4 (d.get F.RIG_ID_IMG_ID))
  else d

/-- OVERLAP (R305): STATE, SHED and TAKING of every port. -/
def Dev.sendOverlap (d : Dev) : Dev :=
  d.flood 0x20 (leBytes 1 d.node ++ leBytes 3 0 ++ leBytes 4 (if d.flag F.BED_CUR_VALID then d.get F.BED_CUR_NO_BED_NO else 0) ++
    (upTo 32).flatMap (fun p => leBytes 1 (d.get (F.HND_Pn_STAT_STATE p) + 8 * d.get (F.HND_Pn_STAT_SHED p) +
      32 * b2n (d.flag (F.HND_Pn_STAT_TAKING p)))))

/-- The record of a digested event: from the ring, or from the last-gasp bank. -/
def Dev.digestRec (d : Dev) (r : DigestRec) : List Byte :=
  match (d.ringFind r.seq).or (d.evr.bank.find? (fun x => x.seq == r.seq)) with
  | some x => recBytes x
  | none => List.replicate 32 0

/-- DIGEST (R307): at most once per 1 ms, at most 30 records; the excess is counted and recorded once. -/
def Dev.sendDigest (d : Dev) : Dev :=
  if decide (1000000 ≤ elapsed64 d.time d.glk.digestAt) then
    let l := d.glk.digests.take 30
    let lost := d.glk.digests.length - 30
    let d1 := { d with glk := { d.glk with digests := [], digestAt := d.time, digestTick := d.tick } }
    let d2 := if l.isEmpty then d1
      else (d1.bump F.GLK_DIGEST_TX_COUNT l.length).flood 0x30 (leBytes 1 l.length ++ leBytes 7 0 ++ l.flatMap d.digestRec)
    if lost == 0 then d2
    else (d2.bump F.GLK_DIGEST_LOST_COUNT lost).raise 0x0708 0x07 2 lost d.glk.digestTick.toNat 0
  else d

/-- HO_KEEP (R304). -/
def Dev.sendKeep (d : Dev) (x : Nat) : Dev :=
  match tfind d.hnd.out x with
  | some o => if o.granted then d.send 0x17 o.node (leBytes 4 x) else d
  | none => d

/-- GLK_PERIODIC_SEND (R304): a message that falls due is sent; nothing is sent without a node number or with no port up. -/
def Dev.glkSendDue (d : Dev) (m : GlkPeriodic) : Dev :=
  if !(d.rigged) then d
  else match m with
    | .hello p => d.sendHello p.val
    | .route => if d.glkUps.isEmpty then d else d.sendRoute
    | .time => if d.get F.GLK_STAT_ROLE == 1 then d.sendTime false else d
    | .overlap => if d.glkUps.isEmpty then d else d.sendOverlap
    | .digest => d.sendDigest
    | .keep x => d.sendKeep x.toNat

/-- GLK_PERIODIC_SEND (R304). -/
def execGlkPeriodicSend (m : GlkPeriodic) (s : State) : Host.Outcome State Fault Refusal := .next (s.onDev (fun d => d.glkSendDue m))

end Sys2Proof.Machine
end

