-- ==== Sys2Proof/Machine/Supervisor.lean ====
section
/-! DEFINITION. The supervisor's lockstep and restarts (01_architecture.md R26), the inter-die bridge (R25, 09_handoff.md R269) and the GPF
event inputs (02_rigging.md R55). -/

namespace Sys2Proof.Machine

/-- An event of the system range 0x00xx. The spec gives these events neither the low byte of their code nor parameters: both are free
values. -/
def Dev.raiseSystem (d : Dev) (src sev : Nat) : Dev :=
  let c := d.free
  let p := c.2.free
  let q := p.2.free
  let r := q.2.free
  r.2.raise (c.1 % 256) src sev (p.1 % 2 ^ 32) (q.1 % 2 ^ 32) (r.1 % 2 ^ 32)

/-- One hour in ns. -/
def oneHour : Nat := 3600000000000

/-- A lockstep mismatch (R26): the supervisor restarts from ROM, or stays stopped after a second one within 1 h of the first. -/
def Dev.supMismatch (d : Dev) : Dev :=
  if d.sys.sup == .halted then d
  else
    let again := match d.sys.lastMismatch with
      | some t => decide ((elapsed64 d.time t) ≤ oneHour)
      | none => false
    let d1 := (d.raiseSystem 0x00 4).attn .supervisor
    if again then ({ d1 with sys := { d1.sys with sup := .halted } }).put F.HST_STAT_PHASE 5
    else { d1 with sys := { d1.sys with sup := .restarting, lastMismatch := some d.time } }

/-- LOCKSTEP_MISMATCH (R26). -/
def execLockstepMismatch (s : State) : Host.Outcome State Fault Refusal := .next (s.onDev (fun d => d.supMismatch))

/-- SUPERVISOR_RESTART_DONE (R26): held commits and commands proceed. -/
def Dev.restartDone (d : Dev) : Dev :=
  if d.sys.sup == .restarting then { d with sys := { d.sys with sup := .running } } else d

/-- SUPERVISOR_RESTART_DONE (R26). -/
def execSupervisorRestartDone (s : State) : Host.Outcome State Fault Refusal := .next (s.onDev (fun d => d.restartDone))

/-! ## The bridge (R25) -/

/-- BRIDGE_FLIT_DISCARD (R25): not retried, counted and recorded; its samples are missing in the P-tick that would have used them. -/
def Dev.flitDiscard (d : Dev) (toCore : Bool) (chans : List Nat) : Dev :=
  let d1 := { d with sys := { d.sys with flits := d.sys.flits + 1, lost := if toCore then d.sys.lost ++ chans else d.sys.lost } }
  d1.raise 0x0810 0x0E 2 (b2n toCore) d1.sys.flits d1.tick.toNat

/-- BRIDGE_FLIT_DISCARD (R25). -/
def execBridgeFlitDiscard (toCore : Bool) (chans : List Chan) (s : State) : Host.Outcome State Fault Refusal :=
  .next (s.onDev (fun d => d.flitDiscard toCore (chans.map (·.val))))

/-- BRIDGE_SILENCE (R25): the edge die clamps the laser DACs, drives every EMIT_EN low and turns the LED lines off until the next full
reset. -/
def Dev.edgeSilence (d : Dev) : Dev :=
  let d1 := ({ d with sys := { d.sys with edgeSilent := true } }).ledClear
  (upTo 32).foldl (fun d p =>
    let d1 := d.updPrt p (fun x => { x with edges := x.edges.filter (fun e => !e.2), dac := 0, gate := false })
    d1.emitBit p) d1

/-- BRIDGE_SILENCE (R25). -/
def execBridgeSilence (s : State) : Host.Outcome State Fault Refusal := .next (s.onDev (fun d => d.edgeSilence))

/-- CONTROL_DIE_BRIDGE_SILENCE (R269): HO_MARK is sent no more and no beam of this device is left in service; running paths with a standby
copy are left to their standby nodes, and the others are taken over. -/
def Dev.coreSilence (d : Dev) (m : Dram) : Dev :=
  if d.sys.ctrlSilent then d
  else
    let ports := portsInUse (d.sections false)
    let d1 := { d with sys := { d.sys with ctrlSilent := true } }
    let d2 := ports.foldl (fun d p =>
      let d1 := if d.get (F.HND_Pn_STAT_STATE p) == 0 then d.put (F.HND_Pn_STAT_STATE p) (if (d.runOf p).isSome then 1 else 2) else d
      (d1.blankPort p).returnQueue p) d1
    ports.foldl (fun d p => d.deviceHand m p none d.tick) d2

/-- CONTROL_DIE_BRIDGE_SILENCE (R269). -/
def execControlDieBridgeSilence (s : State) : Host.Outcome State Fault Refusal := .next (s.runDev (fun d m => d.coreSilence m))

/-! ## Event inputs (R55) -/

/-- GPF_EVENT_INPUT (R55): a rising edge on a pin that the live PINS section makes an event input. The spec gives the event no severity. -/
def Dev.gpfInput (d : Dev) (g : Nat) : Dev :=
  let f := pinFn (d.sections false) g
  if d.rigged && decide (0x40 ≤ f) && decide (f ≤ 0x4F) then
    let v := d.free
    v.2.raiseSystem 0x00 (v.1 % 6)
  else d

/-- GPF_EVENT_INPUT (R55). -/
def execGpfEventInput (g : Gpf) (s : State) : Host.Outcome State Fault Refusal := .next (s.onDev (fun d => d.gpfInput g.val))

end Sys2Proof.Machine
end

