-- ==== Sys2Proof/Machine/Memory.lean ====
section
/-! DEFINITION. The DRAM controller and the memory scrubs (12_memory.md R318 to R337): training and retraining, requests by class and
age, self-refresh, uncorrectable errors, and the responses of the SRAM regions. -/

namespace Sys2Proof.Machine

/-! ## Training and retraining (R324 to R327) -/

/-- MT/s of a SPEED code (R338). -/
def speedRate : Nat → Nat
  | 0 => 4800 | 1 => 5200 | 2 => 5600 | 3 => 6000 | _ => 6400

/-- DDR_TRAINING_DONE (R324): the channel is UP, or LOST after a step failed three times. -/
def Dev.trainingDone (d : Dev) (c : Nat) (r : TrainResult) : Dev :=
  if d.get (F.DDR_CHc_STAT_STATE c) != 1 then d
  else match r.failStep with
  | some k => (d.raise 0x0801 0x05 4 c k 3).channelLost c 1
  | none =>
    let d1 := ((((((d.put (F.DDR_CHc_STAT_STATE c) 2).put (F.DDR_CHc_STAT_SPEED c) r.speed.val).setFlag (F.DDR_CHc_STAT_RDIMM c) r.rdimm).setFlag
      (F.DDR_CHc_STAT_WIDTH c) r.x8).setFlag (F.DDR_CHc_STAT_RANKS c) r.tworanks).put (F.DDR_CHc_STAT_CAP c) r.capGb).updCh c
        (fun x => { x with lastReq := d.time, zqAt := d.time, checkAt := d.time })
    d1.raise 0x0800 0x05 0 c (speedRate r.speed.val) r.ms

/-- DDR_TRAINING_DONE (R324). -/
def execDdrTrainingDone (c : Ch) (r : TrainResult) (s : State) : Host.Outcome State Fault Refusal :=
  .next (s.onDev (fun d => d.trainingDone c.val r))

/-- A pause (R326): no exposure-class request waits, and the prefetch queues are full enough; in IDLE the first suffices. -/
def Dev.ddrPause (d : Dev) : Bool := !(d.ddr.waiting.any (fun w => w.cls == 0)) && (d.get F.BED_STAT_PHASE == 0 || d.queuesFull)

/-- A retraining check of channel c is due (R325): a device's temperature has moved 5 °C, or RT_PERIOD ms have passed since the last one. -/
def Dev.checkDue (d : Dev) (c : Nat) (moved : Bool) : Bool :=
  moved || decide (d.get F.DDR_CTRL_RT_PERIOD * 1000000 ≤ elapsed64 d.time (tget ddrCh0 d.ddr.ch c).checkAt)

/-- RETRAIN_CHECK (R325, R327): where one is due, a sequence begins. `drift` is the largest drift of a lane in
1/64 UI: one step for each 1/64 UI by which it exceeds 1/64 UI, after the reading step and before two ZQ steps every 128 ms. -/
def Dev.retrainCheck (d : Dev) (c : Nat) (moved : Bool) (drift : Nat) : Dev :=
  if d.get (F.DDR_CHc_STAT_STATE c) != 2 || !d.background || !(d.checkDue c moved) then d
  else
    let x := tget ddrCh0 d.ddr.ch c
    if d.flag F.DDR_CTRL_FIXED then
      if d.ddrPause && decide (8 < drift) then
        let d1 := d.setFlag F.DDR_STAT_DRIFT true
        if x.driftNoted then d1
        else
          let lane := d1.free
          (lane.2.raise 0x0807 0x05 2 c (lane.1 % 2 ^ 32) drift).updCh c (fun x => { x with driftNoted := true, checkAt := d.time })
      else d
    else if 0 < x.rtLeft then d
    else
      let zq := decide (128000000 ≤ elapsed64 d.time x.zqAt)
      (d.rtBegin c (1 + (drift - 1) + 2 * b2n zq)).updCh c (fun x => { x with zqAt := if zq then d.time else x.zqAt, checkAt := d.time })

/-- RETRAIN_CHECK (R325): the period or a temperature move has brought it about. -/
def execRetrainCheck (c : Ch) (moved : Bool) (drift : Nat) (s : State) : Host.Outcome State Fault Refusal :=
  .next (s.onDev (fun d => d.retrainCheck c.val moved drift))

/-- Both monitors read within the windows of R367: the core voltage in µV, the reference clock in parts per 10⁹. -/
def monitorsGood (coreUv : Nat) (clkPpb : Int) : Bool :=
  decide (727500 ≤ coreUv) && decide (coreUv ≤ 772500) && decide (-50000 ≤ clkPpb) && decide (clkPpb ≤ 50000)

/-- RETRAIN_STEP (R325, R326): in a pause, at least 10 µs after the channel's last step, with both monitors in their windows (R29). A step that fails three times loses the channel
(R334). -/
def Dev.retrainStep (d : Dev) (c : Nat) (ok : Bool) (coreUv : Nat) (clkPpb : Int) : Dev :=
  let x := tget ddrCh0 d.ddr.ch c
  let spaced := match x.lastStep with
    | some t => decide (10000 ≤ elapsed64 d.time t)
    | none => true
  if d.get (F.DDR_CHc_STAT_STATE c) == 2 && d.background && !(d.flag F.DDR_CTRL_FIXED) && decide (0 < x.rtLeft) && d.ddrPause && spaced &&
      monitorsGood coreUv clkPpb then
    if ok then
      (d.bump (F.DDR_CHc_RT_STEPS_COUNT c)).updCh c (fun x => { x with
        lastStep := some d.time, rtLeft := x.rtLeft - 1, rtWait := if x.rtLeft ≤ 1 then none else some d.time, rtNoted := false })
    else d.channelLost c 1
  else d

/-- RETRAIN_STEP (R326). -/
def execRetrainStep (c : Ch) (ok : Bool) (coreUv : Nat) (clkPpb : Int) (s : State) : Host.Outcome State Fault Refusal :=
  .next (s.onDev (fun d => d.retrainStep c.val ok coreUv clkPpb))

/-- RETRAIN_LATE (R326): a step has waited longer than 1 s; it goes on waiting. -/
def Dev.retrainLate (d : Dev) (c : Nat) : Dev :=
  let x := tget ddrCh0 d.ddr.ch c
  match x.rtWait with
  | none => d
  | some t =>
    if !x.rtNoted && decide (1000000000 ≤ elapsed64 d.time t) then
      (((d.setFlag F.DDR_STAT_RT_LATE true).bump (F.DDR_CHc_RT_DEFER_COUNT c)).raise 0x0806 0x05 2 c x.rtLeft d.tick.toNat).updCh c
        (fun x => { x with rtNoted := true })
    else d

/-- RETRAIN_LATE (R326). -/
def execRetrainLate (c : Ch) (s : State) : Host.Outcome State Fault Refusal := .next (s.onDev (fun d => d.retrainLate c.val))

/-! ## Requests (R320, R328, R333) -/

/-- The class of a source code of R436 (R328). -/
def srcClass (src : Nat) : Option Nat :=
  if src ≤ 0x23 || (0x30 ≤ src && src ≤ 0x34) then some 0
  else if (0x40 ≤ src && src ≤ 0x44) || src == 0x61 then some 1
  else if 0x48 ≤ src && src ≤ 0x50 then some 2
  else if 0x58 ≤ src && src ≤ 0x5B then some 3
  else if src == 0x60 then some 4
  else none

/-- The address is held twice and both channels stand: an error in one copy is restored from the other (R333). -/
def Dev.twoCopies (d : Dev) (a : Nat) : Bool := decide (d.homes a = [0, 1]) && !(d.chLost 0) && !(d.chLost 1)

/-- The 64 bytes of the access that holds address a hold an uncorrectable error without a good copy. -/
def Dram.spoil (m : Dram) (a : Nat) : Dram :=
  let base := a / 64 * 64
  { m with poison := m.poison.filter (fun p => decide (p < base) || decide (base + 64 ≤ p)) ++ (upTo 64).map (base + ·) }

/-- An error met by a read of address a (R320, R333). -/
def State.eccRead (s : State) (src a : Nat) (ecc : Ecc) : State :=
  let c := s.dev.serving a
  match ecc with
  | .clean => s
  | .corrected => s.onDev (fun d => (d.bump (F.DDR_CHc_CE_COUNT c)).setFlag F.DDR_STAT_CE true)
  | .uncorrectable =>
    if s.dev.twoCopies a then s.onDev (fun d => (d.noteUe c (d.chanOfs a)).raise 0x0803 0x05 1 c (a % 2 ^ 32) (a / 2 ^ 32))
    else { s with mem := s.mem.spoil a, dev := s.dev.raiseLostRead src a }

/-- What FENCE keeps of a waiting write that has been served (R330): one dropped under R334 counts for the FENCE that covers it, and otherwise for
the next one. `before` holds the sources kept before it. -/
def Ddr.fenceDrop (x : Ddr) (id : Nat) (before : List Nat) : Ddr :=
  let covered := x.fence.any (fun f => f.ids.contains id) && !x.dropped.isEmpty
  { x with
    fence := x.fence.map (fun f => { f with dropped := f.dropped || covered })
    dropped := if covered then before else before ++ x.dropped.filter (fun y => !(before.contains y)) }

/-- A waiting request is served (R328). -/
def State.serve (s : State) (w : DdrWait) (ecc : Ecc) : State :=
  let a := w.req.addr.toNat
  match w.req.wr with
  | some bs =>
    let s0 := s.onDev (fun d => { d with ddr := { d.ddr with dropped := [] } })
    let r := if w.cls == 1 && decide (w.req.src ≤ 0x44) then s0.hostWrite w.req.src a bs else s0.dramWrite w.req.src a bs
    r.1.onDev (fun d => { d with ddr := d.ddr.fenceDrop w.id s.dev.ddr.dropped })
  | none =>
    if s.dev.beyond a w.req.len then s.onDev (fun d => d.raiseBeyond w.req.src a)
    else if s.dev.gone a then s.onDev (fun d => d.raiseLostRead w.req.src a)
    else
      let s1 := (s.onDev (fun d => d.touch (d.serving a))).eccRead w.req.src a ecc
      s1.onDev (fun d => d.lossCheck)

/-- The request served next (R328): the highest class, and the oldest within it. -/
def nextReq : List DdrWait → Option DdrWait
  | [] => none
  | w :: t => match nextReq t with
    | some x => if x.cls < w.cls then some x else some w
    | none => some w

/-- The ECC outcome of an access's data. -/
def dramEndEcc : DramEnd → Ecc
  | .corrected => .corrected
  | .uncorrectable => .uncorrectable
  | _ => .clean

/-- The cause for which the way an access ended loses its channel (R334): 3 CA parity, 4 no response. -/
def dramEndLoses : DramEnd → Option Nat
  | .caParity => some 3
  | .noResponse => some 4
  | _ => none

/-- A waiting request leaves the queue and is served; where the access ends in a loss of the channel that serves it, it is handled as R334 handles
a request to a LOST channel. -/
def State.serveNext (s : State) (w : DdrWait) (e : DramEnd) : State :=
  let s1 := s.onDev (fun d => { d with ddr := { d.ddr with waiting := d.ddr.waiting.filter (fun x => x.id != w.id) } })
  match dramEndLoses e with
  | some cause => (s1.onDev (fun d => d.channelLost (d.serving w.req.addr.toNat) cause)).serve w (dramEndEcc e)
  | none => s1.serve w (dramEndEcc e)

/-- DRAM_REQUEST (R328): a request joins those that wait, or the next one is served. -/
def State.dramRequest (s : State) (r : Option DramReq) (e : DramEnd) : State :=
  match r with
  | some q => match srcClass q.src with
    | some cls => s.onDev (fun d => { d with ddr := { d.ddr with
        nextId := d.ddr.nextId + 1, waiting := d.ddr.waiting ++ [⟨d.ddr.nextId, q, cls, d.time⟩] } })
    | none => s
  | none => match nextReq s.dev.ddr.waiting with
    | some w => s.serveNext w e
    | none => s

/-- DRAM_REQUEST (R328). -/
def execDramRequest (r : Option DramReq) (e : DramEnd) (s : State) : Host.Outcome State Fault Refusal := .next (s.dramRequest r e)

/-- The promotion age of a class in ns (R328). -/
def promotionAge : Nat → Option Nat
  | 2 => some 20000 | 3 => some 100000 | 4 => some 1000000 | _ => none

/-- REQUEST_PROMOTION (R328): every request that has waited longer than its class's age rises by one class and keeps its age. -/
def Dev.promote (d : Dev) : Dev :=
  { d with ddr := { d.ddr with waiting := d.ddr.waiting.map (fun w => match promotionAge w.cls with
    | some t => if t < elapsed64 d.time w.since then { w with cls := w.cls - 1 } else w
    | none => w) } }

/-- REQUEST_PROMOTION (R328). -/
def execRequestPromotion (s : State) : Host.Outcome State Fault Refusal := .next (s.onDev (fun d => d.promote))

/-! ## Self-refresh (R331, R332) -/

/-- A request of classes 0 to 3 waits for channel c. -/
def Dev.chWaits (d : Dev) (c : Nat) : Bool := d.ddr.waiting.any (fun w => decide (w.cls < 4) && (d.homes w.req.addr.toNat).contains c)

/-- No bed is in progress: the Control Bar is IDLE and no bed is latched, EXPOSING or RETIRING (R331). -/
def Dev.noBeds (d : Dev) : Bool :=
  d.get F.BED_STAT_PHASE == 0 && d.bar.latched.isNone && (upTo 16).all (fun n => d.get (F.BED_BUFn_STAT_STATE n) != 4 &&
    d.get (F.BED_BUFn_STAT_STATE n) != 5)

/-- SELF_REFRESH_ENTRY (R331). -/
def Dev.srEnter (d : Dev) (c : Nat) : Dev :=
  let idle := (elapsed64 d.time (tget ddrCh0 d.ddr.ch c).lastReq)
  if d.flag F.DDR_CTRL_SR_EN && d.get (F.DDR_CHc_STAT_STATE c) == 2 && d.noBeds && !(d.chWaits c) &&
      decide (d.get F.DDR_SR_IDLE_US * 1000 ≤ idle) && !(d.flag F.BED_CTRL_RUN && d.flag F.BED_NEXT_COMMITTED) then
    ((d.put (F.DDR_CHc_STAT_STATE c) 4).bumpWrap (F.DDR_CHc_SR_ENTRIES_COUNT c)).updCh c (fun x => { x with srSince := some d.time })
  else d

/-- SELF_REFRESH_ENTRY (R331). -/
def execSelfRefreshEntry (c : Ch) (s : State) : Host.Outcome State Fault Refusal := .next (s.onDev (fun d => d.srEnter c.val))

/-- Bytes of one channel, the device area included. -/
def Dev.capBytes (d : Dev) (c : Nat) : Nat := d.get (F.DDR_CHc_STAT_CAP c) * 2 ^ 30

/-- The patrol scrub moves on by n bytes over channel 0 and then channel 1; a pass ends after both (R335). -/
def Dev.scrubMove (d : Dev) (n : Nat) : Dev :=
  let all := d.capBytes 0 + d.capBytes 1
  if d.ddr.scrubAt + n < all then { d with ddr := { d.ddr with scrubAt := d.ddr.scrubAt + n } }
  else if all == 0 then d
  else ({ d with ddr := { d.ddr with scrubAt := (d.ddr.scrubAt + n) % all } }).bumpWrap F.DDR_SCRUB_PASS_COUNT

/-- The bytes of channel c due in 100 ms for a pass in 24 h (R332, R335), in accesses of 64 bytes. -/
def Dev.scrubShare (d : Dev) (c : Nat) : Nat := (d.capBytes c + 864000 * 64 - 1) / (864000 * 64) * 64

/-- SELF_REFRESH_SCRUB_WAKE (R332): the channel scrubs the share due and enters self-refresh again. -/
def Dev.srWake (d : Dev) (c : Nat) : Dev :=
  if d.get (F.DDR_CHc_STAT_STATE c) == 4 then (d.scrubMove (d.scrubShare c)).bumpWrap (F.DDR_CHc_SR_ENTRIES_COUNT c) else d

/-- SELF_REFRESH_SCRUB_WAKE (R332). -/
def execSelfRefreshScrubWake (c : Ch) (s : State) : Host.Outcome State Fault Refusal := .next (s.onDev (fun d => d.srWake c.val))

/-! ## The patrol scrubs (R335, R336) -/

/-- The device address at offset o of channel c; none in the device area (R321). -/
def Dev.addrAt (d : Dev) (c o : Nat) : Option Nat :=
  if d.chanBytes ≤ o then none else if c == 0 || o < d.mirrorBytes then some o else some (o + d.chanBytes - d.mirrorBytes)

/-- DRAM_SCRUB_STEP (R335): the next 64 bytes of a channel that is not LOST are read. -/
def State.scrubStep (s : State) (ecc : Ecc) : State :=
  let d := s.dev
  let c := if d.ddr.scrubAt < d.capBytes 0 then 0 else 1
  let o := if d.ddr.scrubAt < d.capBytes 0 then d.ddr.scrubAt else d.ddr.scrubAt - d.capBytes 0
  let st := d.get (F.DDR_CHc_STAT_STATE c)
  if !d.background || decide (st < 2) then s
  else if st == 5 then s.onDev (fun d => d.scrubMove (d.capBytes c - o))
  else
    let s1 := match d.addrAt c o, ecc with
      | _, .clean => s
      | _, .corrected => s.onDev (fun d => (d.bump (F.DDR_CHc_CE_COUNT c)).setFlag F.DDR_STAT_CE true)
      | some a, .uncorrectable =>
        if d.twoCopies a then s.onDev (fun d => (d.noteUe c o).raise 0x0803 0x05 1 c (a % 2 ^ 32) (a / 2 ^ 32))
        else { s with mem := s.mem.spoil a, dev := s.dev.raiseLostRead 0x60 a }
      | none, .uncorrectable => s.onDev (fun d =>
          let d1 := d.noteUe c o
          if d.chLost (1 - c) then d1.raise 0x0804 0x05 3 0x60 (o % 2 ^ 32) (o / 2 ^ 32)
          else d1.raise 0x0803 0x05 1 c (o % 2 ^ 32) (o / 2 ^ 32))
    (s1.onDev (fun d => d.scrubMove 64)).onDev (fun d => d.lossCheck)

/-- DRAM_SCRUB_STEP (R335). -/
def execDramScrubStep (ecc : Ecc) (s : State) : Host.Outcome State Fault Refusal := .next (s.scrubStep ecc)

/-- The responses that fail a pair, fault an axis or restart the supervisor (R337). -/
def sramSevere : SramRegion → Bool
  | .prefetch _ => true | .loopState _ => true | .axisState _ => true | .supervisor => true | _ => false

/-- The regions whose words have another copy (R336). -/
def sramCopied : SramRegion → Bool
  | .correction _ => true | .psetBank _ => true | .loopTables _ => true | .tileSet => true | .pathWindow => true | .staging => true
  | .rigging => true | .axisTables _ => true | _ => false

/-- A running path on port p is interrupted and resumed by the same beam, as for a bad frame (R154, R336). -/
def Dev.sramInterrupt (d : Dev) (m : Dram) (p : Nat) : Dev :=
  match d.runOf p with
  | some r => if r.intr.isSome then d else d.interrupt m p r d.tick
  | none => d

/-- The correction image of port p is lost (R336): NOGRID, and the port is out of service until CORR_LOAD gives it a new one. -/
def Dev.corrGone (d : Dev) (m : Dram) (p : Nat) : Dev :=
  let d1 := ((d.cutPath m p).setFlag (F.BEAMn_TSTAT_NOGRID p) true)
  ((({ d1 with corr := tdel d1.corr p }).returnQueue p).coverGone m p).portBits p

/-- The ports whose running path uses set i of parameter bank b. -/
def Dev.setUsers (d : Dev) (m : Dram) (b i : Nat) : List Nat :=
  d.runningPorts.filter (fun p => match d.runOf p with
    | some r => match r.key with
      | .bed n _ _ => (match d.bed? n with
        | some x => x.bank == some b
        | none => false) && (match d.segOf m r.key ((d.engOf p).cutPoint r).seg with
        | .ok s => s.pset == i
        | _ => false)
      | .inc _ => false
    | none => false)

/-- The response of an SRAM region to an uncorrectable error (R336). Word addresses count within the region from a multiple of its size. -/
def Dev.sramResponse (d : Dev) (m : Dram) (r : SramRegion) (addr : Nat) (sourceOk : Bool) : Dev :=
  match r with
  | .prefetch k => d.pairFail m k.val .sram
  | .loopState k => d.pairFail m k.val .sram
  | .correction p => if sourceOk then d.sramInterrupt m p.val else d.corrGone m p.val
  | .loopTables p => if sourceOk then d.sramInterrupt m p.val else d
  | .psetBank b =>
    let i := addr % 65536 / 16
    if sourceOk then (d.setUsers m b.val i).foldl (fun d p => d.sramInterrupt m p) d
    else { d with bar := { d.bar with beds := d.bar.beds.map (fun (x : Nat × Bed) =>
      (x.1, if x.2.bank == some b.val then { x.2 with badSets := x.2.badSets ++ [i] } else x.2)) } }
  | .camera c => d.updCam c.val (fun x => { x with frames := x.frames.map (fun (y : Nat × CamFrame) => (y.1, { y.2 with damaged := true })) })
  | .axisState a => d.axisFault a.val 3
  | .compareState k => d.setFlag (F.QE_CMPk_STAT_ARMED k.val) false
  | .eventRing p =>
    if d.pageRetired p.val then d
    else
      let x := d.retirePage p.val [512 * p.val + addr % 2048 / 4]
      x.1.intake (pageEvent x.1 p.val x.2.1 x.2.2)
  | .supervisor => d.supMismatch
  | .tileSet => d
  | .pathWindow => d
  | .staging => d
  | .rigging => d
  | .hoBuffers => d
  | .axisTables _ => d

/-- SRAM_SCRUB_STEP (R336), while the scrub does not pause (R26, R28). The spec gives the region's code in event 0x0805 no values: a free
value. -/
def Dev.sramScrub (d : Dev) (m : Dram) (r : SramRegion) (addr : Nat) (ecc : Ecc) (sourceOk : Bool) : Dev :=
  match d.background, ecc with
  | false, _ => d
  | _, .clean => d
  | _, .corrected => d.bump F.DDR_SRAM_CE_COUNT
  | _, .uncorrectable =>
    let v := d.free
    let d1 := ((v.2.bump F.DDR_SRAM_UE_COUNT).put F.DDR_SRAM_UE_ADDR_ADDR addr).setFlag F.DDR_STAT_SRAM_UE true
    (d1.raise 0x0805 0x06 (if sramSevere r then 4 else 3) (v.1 % 2 ^ 32) addr (b2n (sramCopied r && sourceOk))).sramResponse m r addr sourceOk

/-- SRAM_SCRUB_STEP (R336). -/
def execSramScrubStep (r : SramRegion) (addr : BitVec 24) (ecc : Ecc) (sourceOk : Bool) (s : State) : Host.Outcome State Fault Refusal :=
  .next (s.runDev (fun d m => d.sramScrub m r addr.toNat ecc sourceOk))

end Sys2Proof.Machine
end

