-- ==== Sys2Proof/Machine/Pins.lean ====
section
/-! DEFINITION. The ends of pin pulses (02_rigging.md R55, 10_encoders_axes.md R284), boundary scan and the states of the pins
(17_electrical_package.md R428, R420). -/

namespace Sys2Proof.Machine

/-- PIN_PULSE_END (R284): the pin falls once its pulse has reached its end. -/
def Dev.pulseEnd (d : Dev) (g : Nat) : Dev :=
  match tfind d.pins g with
  | some t => if later64 t d.time then d else { d with pins := tdel d.pins g }
  | none => d

/-- PIN_PULSE_END (R284). -/
def execPinPulseEnd (g : Gpf) (s : State) : Host.Outcome State Fault Refusal := .next (s.onDev (fun d => d.pulseEnd g.val))

/-! ## Boundary scan (R428) -/

/-- The next state of the test access port controller for a level of TMS. -/
def TapState.next : TapState → Bool → TapState
  | .reset, t => if t then .reset else .idle
  | .idle, t => if t then .selDr else .idle
  | .selDr, t => if t then .selIr else .capDr
  | .capDr, t => if t then .ex1Dr else .shDr
  | .shDr, t => if t then .ex1Dr else .shDr
  | .ex1Dr, t => if t then .updDr else .pauseDr
  | .pauseDr, t => if t then .ex2Dr else .pauseDr
  | .ex2Dr, t => if t then .updDr else .shDr
  | .updDr, t => if t then .selDr else .idle
  | .selIr, t => if t then .reset else .capIr
  | .capIr, t => if t then .ex1Ir else .shIr
  | .shIr, t => if t then .ex1Ir else .shIr
  | .ex1Ir, t => if t then .updIr else .pauseIr
  | .pauseIr, t => if t then .ex2Ir else .pauseIr
  | .ex2Ir, t => if t then .updIr else .shIr
  | .updIr, t => if t then .selDr else .idle

/-- IDCODE of the ordering code (R428). -/
def Variant.idcode : Variant → Word
  | .ax32 => 0xBA3209CB#32
  | .ax16 => 0xBA1609CB#32

/-- The data register that the instruction in force selects: 1 the identification, 2 the boundary cells, 0 the bypass bit. EXTEST acts as
BYPASS unless RESET_N is low; any code outside the table acts as BYPASS. -/
def Dev.tapReg (d : Dev) : Nat :=
  if d.tap.ir == 0x01#8 then 1
  else if d.tap.ir == 0x02#8 || (d.tap.ir == 0x00#8 && d.sys.resetLow) then 2
  else 0

/-- Capture and shift at the rising edge of TCK. The boundary cells, and the upper bits of a captured instruction, are free values. -/
def Dev.tapRise (d : Dev) (tdi : Bool) : Dev :=
  let v := d.free
  match d.tap.st with
  | .capIr => { v.2 with tap := { d.tap with irShift := BitVec.ofNat 8 (4 * v.1 + 1) } }
  | .shIr => { d with tap := { d.tap with irShift := d.tap.irShift >>> 1 ||| BitVec.ofNat 8 (128 * b2n tdi) } }
  | .capDr => match d.tapReg with
    | 1 => { d with tap := { d.tap with dr := d.variant.idcode } }
    | 2 => { v.2 with tap := { d.tap with dr := BitVec.ofNat 32 (v.1 % 2) } }
    | _ => { d with tap := { d.tap with dr := 0 } }
  | .shDr => match d.tapReg with
    | 1 => { d with tap := { d.tap with dr := d.tap.dr >>> 1 ||| BitVec.ofNat 32 (2 ^ 31 * b2n tdi) } }
    | 2 => { v.2 with tap := { d.tap with dr := BitVec.ofNat 32 (v.1 % 2) } }
    | _ => { d with tap := { d.tap with dr := BitVec.ofNat 32 (b2n tdi) } }
  | _ => d

/-- The falling edge of TCK in state st: a shifted instruction comes into force in Update-IR, Test-Logic-Reset selects IDCODE, and TDO is driven
only while shifting. -/
def Tap.fall (t : Tap) (st : TapState) : Tap :=
  { t with
    st := st
    ir := match st with
      | .updIr => t.irShift
      | .reset => 0x01#8
      | _ => t.ir
    tdo := match st with
      | .shIr => some (t.irShift.getLsbD 0)
      | .shDr => some (t.dr.getLsbD 0)
      | _ => none }

/-- EMIT_ENn is held low and the DAC clamps stay closed while EXTEST, CLAMP or HIGHZ is in force (R428). -/
def Dev.tapHold (d : Dev) : Dev :=
  if d.tapForce then (upTo 32).foldl (fun d p => (d.updPrt p (fun x => { x with dac := 0 })).emitBit p) d else d

/-- BOUNDARY_SCAN_TCK (R428): one cycle of TCK; TRST_N low holds the port in its reset state. -/
def Dev.tapClock (d : Dev) (tms tdi trstN resetN : Bool) : Dev :=
  let d1 := { d with sys := { d.sys with resetLow := !resetN } }
  let d2 := if trstN then
      let st := d1.tap.st.next tms
      let r := d1.tapRise tdi
      { r with tap := Tap.fall r.tap st }
    else { d1 with tap := Tap.fall d1.tap .reset }
  d2.tapHold

/-- BOUNDARY_SCAN_TCK (R428). -/
def execBoundaryScanTck (tms tdi trstN resetN : Bool) (s : State) : Host.Outcome State Fault Refusal :=
  .next (s.onDev (fun d => d.tapClock tms tdi trstN resetN))

/-! ## The states of the pins (R420) -/

/-- The pin groups of R420. -/
inductive PinGroup where
  | slo | sli | mod | emitEn | dac | lsrOk | bref | pd | tin | hrdy | pcie | glk | eth | ddr | qspi | gpf | encoder | axdac | axref | ledLine | ledCol
  | camera
  deriving DecidableEq, Repr

/-- What a pin group shows: the entries of R420. `asRule k` is the running state, which R<k> gives. -/
inductive PinState where
  | highZ | highZUnterminated | resetLow | clamped | input | electricalIdle | transmitterOff
  | idleClockStopped | idle | terminated | low | converted | linkUp | linkDown | working | trained | driven | notCounted | codeZero | off
  | receiverIdle
  | asRule (k : Nat)
  deriving DecidableEq, Repr

/-- The state of a group that has no power, or that the ordering code leaves out. -/
def PinGroup.unpowered : PinGroup → PinState
  | .dac => .clamped
  | .lsrOk | .bref | .pd | .tin | .encoder => .input
  | .pcie => .electricalIdle
  | .glk | .eth => .transmitterOff
  | _ => .highZ

/-- The state of a group in reset; `kept` says that the reset keeps the PCIe link (R406). -/
def PinGroup.inReset (kept : Bool) : PinGroup → PinState
  | .sli => .highZUnterminated
  | .ddr => .resetLow
  | .pcie => if kept then .linkUp else .electricalIdle
  | g => g.unpowered

/-- The state of a group of a device without a rigging. -/
def PinGroup.unrigged : PinGroup → PinState
  | .slo => .idleClockStopped
  | .sli => .terminated
  | .mod => .idle
  | .emitEn | .hrdy => .low
  | .dac => .clamped
  | .lsrOk | .bref | .pd | .tin => .converted
  | .pcie => .linkUp
  | .glk => .linkDown
  | .eth => .working
  | .ddr => .trained
  | .qspi | .axref => .driven
  | .gpf => .highZ
  | .encoder => .notCounted
  | .axdac => .codeZero
  | .ledLine | .ledCol => .off
  | .camera => .receiverIdle

/-- The state of a group of a running device. -/
def PinGroup.running : PinGroup → PinState
  | .slo => .asRule 151
  | .sli => .asRule 156
  | .mod => .asRule 161
  | .emitEn => .asRule 159
  | .dac => .asRule 164
  | .lsrOk | .bref | .pd | .tin => .converted
  | .hrdy => .asRule 398
  | .pcie => .linkUp
  | .glk => .asRule 308
  | .eth => .asRule 317
  | .ddr => .trained
  | .qspi => .driven
  | .gpf => .asRule 55
  | .encoder => .asRule 273
  | .axdac | .axref => .asRule 286
  | .ledLine | .ledCol => .asRule 357
  | .camera => .asRule 230

/-- The ordering code leaves out pin k of the group: ports 16 to 31, photodiode channels and temperature inputs 32 to 63 of the AX16-F29E. -/
def Variant.noPin (v : Variant) (g : PinGroup) (k : Nat) : Bool :=
  match g with
  | .slo | .sli | .mod | .emitEn | .dac | .lsrOk | .bref => decide (v.ports ≤ k)
  | .pd | .tin => v == .ax16 && decide (32 ≤ k) && decide (k < 64)
  | _ => false

/-- The state of pin k of group g (R420). -/
def Dev.pinState (d : Dev) (g : PinGroup) (k : Nat) : PinState :=
  if d.variant.noPin g k then g.unpowered
  else if d.get F.HST_STAT_PHASE < 2 then g.inReset (d.get F.HST_RESET_CAUSE_CAUSE == 4 || d.get F.HST_RESET_CAUSE_CAUSE == 5)
  else if d.rigged then g.running
  else g.unrigged

end Sys2Proof.Machine
end

