-- ==== Sys2Proof/Machine/Ptp.lean ====
section
/-! DEFINITION. Network time: the PTP servo, the loss and return of a master, steps and slews (11_link_and_time.md R310 to R314, R317). -/

namespace Sys2Proof.Machine

/-- Ethernet port e carries PTP (R310): PTP runs, the port is enabled, and an ordinary clock uses ETH0 only. -/
def Dev.ptpOn (d : Dev) (e : Nat) : Bool :=
  d.flag F.PTP_CTRL_EN && d.flag (F.PTPp_CFG_PEN e) && (e == 0 || d.flag F.PTP_CTRL_BC)

/-- The last offset from the master. -/
def Dev.putOffset (d : Dev) (o : Int) : Dev :=
  (d.put F.PTP_OFS_LO_NS (trunc 32 o)).put F.PTP_OFS_HI_NS (trunc 64 o / 2 ^ 32)

/-- The last offset from the master, as a number. -/
def Dev.offset (d : Dev) : Int := sext 64 (d.get F.PTP_OFS_LO_NS + d.get F.PTP_OFS_HI_NS * 2 ^ 32)

/-- A step of −o is decided (R313): it is taken at the next T-tick, and the servo acquires. -/
def Dev.decideStep (d : Dev) (o : Int) : Dev :=
  { d.put F.PTP_STAT_STATE 1 with ptp := { d.ptp with step := some o, run := 0, first := none } }

/-- A frequency limited to ±PTP_SLEW_MAX. -/
def Dev.slewLimit (d : Dev) (f : Word) : Word :=
  let m := f32OfInt (d.get F.PTP_SLEW_MAX_PPB)
  f32Clamp (f32Negate m) m f

/-- The servo takes an offset (R312). -/
def Dev.servo (d : Dev) (o : Int) : Dev :=
  let x := f32OfInt o
  let i := f32Add d.ptp.i (f32Mul (d.getW F.PTP_KI_VAL) x)
  let f := d.slewLimit (f32Sub d.ptp.fHold (f32Add (f32Mul (d.getW F.PTP_KP_VAL) x) i))
  let run := if o.natAbs ≤ 100 then d.ptp.run + 1 else 0
  let d1 := { d.put F.PTP_FREQ_VAL f.toNat with ptp := { d.ptp with i := i, run := run, first := none } }
  match d.get F.PTP_STAT_STATE with
  | 2 =>
    let recent := d.ptp.fs.filter (fun (y : DWord × Word) => decide (elapsed64 d.time y.1 < 16000000000))
    { d1 with ptp := { d1.ptp with fs := recent ++ [(d.time, f)] } }
  | 1 =>
    if 16 ≤ run then
      ({ d1.put F.PTP_STAT_STATE 2 with ptp := { d1.ptp with fHold := f, fs := [(d.time, f)] } }).raise 0x0720 0x08 1
        (trunc 32 (f32ToInt f)) (trunc 32 o) d.tick.toNat
    else d1
  | _ => d1.put F.PTP_STAT_STATE 1

/-- The mean frequency of the last 16 s; the one in force where none was kept (R312). -/
def Dev.meanFreq (d : Dev) : Word :=
  let l := (d.ptp.fs.filter (fun (y : DWord × Word) => decide (elapsed64 d.time y.1 < 16000000000))).map (·.2)
  if l.isEmpty then d.getW F.PTP_FREQ_VAL else f32Div (l.foldl f32Add (f32Zero false)) (f32OfInt l.length)

/-- The middle of four offsets: the mean of the two that are neither the least nor the greatest, rounded to nearest. -/
def median4 (l : List Int) : Int :=
  fracRne (frac (l.sum - l.foldl min (l.headD 0) - l.foldl max (l.headD 0)) 2)

/-- A first offset in native mode (R313): slewed out within PTP_STEP_THR, refused beyond it. -/
def Dev.firstOffset (d : Dev) (o : Int) : Dev :=
  let d1 := d.putOffset o
  if o.natAbs ≤ d.get F.PTP_STEP_THR_NS then (d1.put F.PTP_STAT_STATE 1).servo o
  else
    let d2 := { (d1.setFlag F.PTP_STAT_JUMP_REFUSED true).put F.PTP_STAT_STATE 5 with ptp := { d1.ptp with first := none } }
    (d2.raise 0x0722 0x08 3 (trunc 32 o) (trunc 64 o / 2 ^ 32) d.tick.toNat).attn .time

/-- An offset from a master that has just been chosen or heard again (R312, R313). -/
def Dev.offerOffset (d : Dev) (l : List Int) (o : Int) : Dev :=
  if d.flag F.PTP_CTRL_COMPAT then d.decideStep o
  else
    let l1 := l ++ [o]
    if l1.length < 4 then { d with ptp := { d.ptp with first := some l1 } } else d.firstOffset (median4 l1)

/-- A change of grandmaster (R312) returns the servo to ACQUIRE. -/
def Dev.newMaster (d : Dev) (e : Nat) (gm : DWord) : Dev :=
  let hi := gm.toNat / 2 ^ 32
  let lo := gm.toNat % 2 ^ 32
  if d.get F.PTP_GM_HI_ID == hi && d.get F.PTP_GM_LO_ID == lo then d
  else
    let d1 := ((d.put F.PTP_GM_HI_ID hi).put F.PTP_GM_LO_ID lo).raise 0x0724 0x08 1 hi lo e
    if d.get F.PTP_STAT_STATE == 6 then d1
    else { d1.put F.PTP_STAT_STATE 1 with ptp := { d1.ptp with run := 0, first := some [] } }

/-- The offset from master in ns, of a Sync on port e (R311): its arrival less its origin and corrections, in 1/16 ns, with the port's ingress
latency, asymmetry and mean path delay. -/
def Dev.syncOffset (d : Dev) (e : Nat) (raw : Int) : Int :=
  fracRne (frac (raw + d.get (F.PTPp_ING_LAT_LAT e) - d.getI (F.PTPp_ASYM_ASYM e) - d.get (F.PTPp_MPD_MPD e)) 16)

/-- The mean path delay in 1/16 ns of an exchange on port e (R311): half the sum of both ways, with the port's ingress and egress latency. -/
def Dev.pathDelay (d : Dev) (e : Nat) (sum : Int) : Nat :=
  trunc 32 ((sum + d.get (F.PTPp_ING_LAT_LAT e) - d.get (F.PTPp_EGR_LAT_LAT e)) / 2)

/-- PTP_SYNC (R312, R313). On a MEMBER the servo does not run. -/
def Dev.ptpSync (d : Dev) (e : Nat) (raw : Int) (gm : DWord) : Dev :=
  if !(d.ptpOn e) then d
  else
    let o := d.syncOffset e raw
    let d1 := d.newMaster e gm
    let st := d1.get F.PTP_STAT_STATE
    if st == 6 then d1
    else
      let d2 := d1.putOffset o
      if !(d.flag F.PTP_STAT_TIME_VALID) then if d.ptp.step.isSome then d2 else d2.decideStep o
      else match d1.ptp.first, st with
        | some l, _ => d2.offerOffset l o
        | none, 5 => d2
        | none, 3 => d2.offerOffset [] o
        | none, 4 => d2.offerOffset [] o
        | none, 0 => d2.offerOffset [] o
        | none, _ => d2.servo o

/-- PTP_SYNC (R312). -/
def execPtpSync (e : Eth) (raw : Int) (gm : DWord) (s : State) : Host.Outcome State Fault Refusal :=
  .next (s.onDev (fun d => d.ptpSync e.val raw gm))

/-- PTP_MASTER_LOST (R313). -/
def Dev.masterLost (d : Dev) : Dev :=
  let st := d.get F.PTP_STAT_STATE
  if d.flag F.PTP_CTRL_EN && (st == 1 || st == 2 || st == 5) then
    let compat := d.flag F.PTP_CTRL_COMPAT
    let f := if compat then d.getW F.PTP_FREQ_VAL else d.meanFreq
    let d1 := { d with ptp := { d.ptp with first := none, run := 0 } }
    (((d1.put F.PTP_STAT_STATE (if compat then 4 else 3)).put F.PTP_FREQ_VAL f.toNat).setFlag F.PTP_STAT_MASTER_LOST true).raise 0x0721
      0x08 2 (b2n compat) (trunc 32 (f32ToInt f)) d.tick.toNat
  else d

/-- PTP_MASTER_LOST (R313). -/
def execPtpMasterLost (s : State) : Host.Outcome State Fault Refusal := .next (s.onDev (fun d => d.masterLost))

/-- The state that an Announce brings a port to: 9 SLAVE of a better clock, else 6 MASTER, or 4 LISTENING under SLAVE_ONLY. -/
def Dev.announce (d : Dev) (e : Nat) (gm : DWord) (better : Bool) : Dev :=
  if better then (d.newMaster e gm).put (F.PTPp_STAT_PSTATE e) 9
  else d.put (F.PTPp_STAT_PSTATE e) (if d.flag F.PTP_CTRL_SLAVE_ONLY then 4 else 6)

/-- The message that port e sends now (R310, R311, R317), with the ingress timestamp of the request that it answers. -/
def Dev.ptpSentNow (d : Dev) (e : Nat) (m : PtpKind) (received : Option Nat) : PtpSent :=
  { port := e, msg := m, stamp := d.time.toNat * 16 + d.get (F.PTPp_EGR_LAT_LAT e)
    domain := d.get F.PTP_DOMAIN_DOMAIN
    transport := d.get F.PTP_CTRL_TRANSPORT
    oneStep := d.flag F.PTP_CTRL_ONESTEP
    interval := match m with
      | .sync => some (d.getI F.PTP_INTV_SYNC_LOG)
      | .announce => some (d.getI F.PTP_INTV_ANN_LOG)
      | .pdelayReq => some (d.getI F.PTP_INTV_PDELAY_LOG)
      | _ => none
    clock := if decide (m = .announce) then some (d.get F.PTP_DOMAIN_PRIO1, d.get F.PTP_DOMAIN_CLASS, d.get F.PTP_DOMAIN_PRIO2) else none
    received := received }

/-- What follows a message of a two-step port and carries its egress timestamp (R310). -/
def PtpKind.followed : PtpKind → Option PtpKind
  | .sync => some .followUp
  | .pdelayResp => some .pdelayFollowUp
  | _ => none

/-- Port e transmits a message, and under two-step what follows it (R310). -/
def Dev.ptpPut (d : Dev) (e : Nat) (m : PtpKind) (received : Option Nat) : Dev :=
  let more := if d.flag F.PTP_CTRL_ONESTEP then [] else m.followed.toList.map (fun k => d.ptpSentNow e k received)
  { d with ptp := { d.ptp with sent := d.ptp.sent ++ d.ptpSentNow e m received :: more } }

/-- The message of an interval. -/
def ptpOutKind : PtpOut → PtpKind
  | .sync => .sync | .announce => .announce | .delayReq => .delayReq | .pdelayReq => .pdelayReq

/-- PTP_MESSAGE (R310): used, answered or discarded. A master answers a Delay_Req under E2E, and every port a Pdelay_Req under P2P. -/
def Dev.ptpMsg (d : Dev) (e : Nat) (m : PtpMsg) : Dev :=
  match m with
  | .nonPtp => if d.flag (F.PTPp_CFG_PEN e) then d.bump (F.PTPp_RX_OTHER_COUNT e) else d
  | .announce gm better => if d.ptpOn e then d.announce e gm better else d
  | .delayResp v => if d.ptpOn e && !(d.flag F.PTP_CTRL_P2P) then d.put (F.PTPp_MPD_MPD e) (d.pathDelay e v) else d
  | .pdelayResp v => if d.ptpOn e && d.flag F.PTP_CTRL_P2P then d.put (F.PTPp_MPD_MPD e) (d.pathDelay e v) else d
  | .delayReq raw =>
    if d.ptpOn e && !(d.flag F.PTP_CTRL_P2P) && d.get (F.PTPp_STAT_PSTATE e) == 6 then d.ptpPut e .delayResp (some (raw + d.get (F.PTPp_ING_LAT_LAT e)))
    else d
  | .pdelayReq raw =>
    if d.ptpOn e && d.flag F.PTP_CTRL_P2P then d.ptpPut e .pdelayResp (some (raw + d.get (F.PTPp_ING_LAT_LAT e))) else d
  | .request => d
  | .followUp => d
  | .management => d

/-- PTP_MESSAGE (R310). -/
def execPtpMessage (e : Eth) (m : PtpMsg) (s : State) : Host.Outcome State Fault Refusal := .next (s.onDev (fun d => d.ptpMsg e.val m))

/-- PHASE_SLEW_DONE (R313): the tick edges lie on whole microseconds of internal time again. -/
def Dev.slewEnd (d : Dev) : Dev :=
  if d.flag F.PTP_STAT_PHASE_SLEW then
    { d.setFlag F.PTP_STAT_PHASE_SLEW false with time := d.time - BitVec.ofInt 64 d.ptp.rem, ptp := { d.ptp with rem := 0 } }
  else d

/-- PHASE_SLEW_DONE (R313). -/
def execPhaseSlewDone (s : State) : Host.Outcome State Fault Refusal := .next (s.onDev (fun d => d.slewEnd))

/-- The root that a DETACHED device failed to join (R297), as far as its time is known: the lowest that a port leads to, with its T-tick
counter, or else the lowest below this node whose TIME was heard. -/
def Dev.failedRoot (d : Dev) : Option (RootTime × Word) :=
  let led := d.glkUps.filterMap (fun p => (d.markOf p).bind (fun x =>
    if x.1.apart || x.1.root.val == d.node then none else (tfind d.glk.rootTimes x.1.root.val).map (fun t => (x.1.root.val, t, d.rootTick x.1 x.2))))
  match lowestOf (led.map (·.1)) with
  | some r => (led.find? (fun x => x.1 == r)).map (·.2)
  | none => (d.glk.rootTimes.find? (fun (x : Nat × RootTime) => decide (x.1 < d.node) && d.reaches x.1)).map (fun x => (x.2, d.tick))

/-- PTP_CTRL.ACCEPT (R314): a DETACHED device takes the time of the root that it failed to join and tests the conditions again; in
REFUSING the step is taken. -/
def Dev.accept (d : Dev) : Dev :=
  if d.get F.GLK_STAT_ROLE == 3 then
    match d.failedRoot with
    | none => d
    | some (t, tick) => (d.timeStep (t.at_ tick - d.edgeTime).toInt).retestJoin
  else if d.get F.PTP_STAT_STATE == 5 then d.decideStep d.offset
  else d

/-- PTP_SNAP.SNAP (R317): the snapshot registers are latched together. Internal time is the PTP time modulo 2⁶⁴ ns (R311). -/
def Dev.snapshot (d : Dev) : Dev :=
  let t := d.time.toNat
  let sec := t / 1000000000
  let d1 := ((d.put F.PTP_SNAP_SEC_LO_SEC sec).put F.PTP_SNAP_SEC_HI_SEC (sec / 2 ^ 32)).put F.PTP_SNAP_NS_NS (t % 1000000000)
  ((d1.put F.PTP_SNAP_TICK_TICK d.tick.toNat).put F.PTP_SNAP_INT_LO_NS t).put F.PTP_SNAP_INT_HI_NS (t / 2 ^ 32)

/-- The states of the ports where the protocol starts or stops (R317): a port that takes part listens (4), or is faulty (2) with its link down;
one that takes no part reads 0. -/
def Dev.ptpPorts (d : Dev) : Dev :=
  [0, 1].foldl (fun d e => d.put (F.PTPp_STAT_PSTATE e) (if d.ptpOn e then (if d.flag (F.PTPp_STAT_LINK e) then 4 else 2) else 0)) d

/-- PTP_CTRL.EN is written: its ports start or stop; 0 stops the protocol, and a MEMBER goes on following its root. -/
def Dev.ptpEnable (d : Dev) (on : Bool) : Dev :=
  let d1 := (d.setFlag F.PTP_CTRL_EN on).ptpPorts
  if on then d1
  else
    let d2 := { d1 with ptp := { d1.ptp with first := none, run := 0, fs := [] } }
    if d.get F.PTP_STAT_STATE == 6 then d2 else d2.put F.PTP_STAT_STATE 0

/-- PTP_PERIODIC_SEND (R310): Sync and Announce from a master, Delay_Req from a slave under E2E, Pdelay_Req under P2P; with the egress
timestamp of R311. -/
def Dev.ptpSend (d : Dev) (e : Nat) (m : PtpOut) : Dev :=
  let st := d.get (F.PTPp_STAT_PSTATE e)
  let due := match m with
    | .sync => st == 6
    | .announce => st == 6
    | .delayReq => st == 9 && !(d.flag F.PTP_CTRL_P2P)
    | .pdelayReq => d.flag F.PTP_CTRL_P2P
  if d.ptpOn e && d.flag (F.PTPp_STAT_LINK e) && due then d.ptpPut e (ptpOutKind m) none else d

/-- PTP_PERIODIC_SEND (R310). -/
def execPtpPeriodicSend (e : Eth) (m : PtpOut) (s : State) : Host.Outcome State Fault Refusal :=
  .next (s.onDev (fun d => d.ptpSend e.val m))

/-- ETH_LINK_CHANGE (R317): a port that comes up listens (4), one that goes down is faulty (2). -/
def Dev.ethLink (d : Dev) (e : Nat) (up : Bool) : Dev :=
  let d1 := d.setFlag (F.PTPp_STAT_LINK e) up
  if d.ptpOn e then d1.put (F.PTPp_STAT_PSTATE e) (if up then 4 else 2) else d1

/-- ETH_LINK_CHANGE (R317). -/
def execEthLinkChange (e : Eth) (up : Bool) (s : State) : Host.Outcome State Fault Refusal := .next (s.onDev (fun d => d.ethLink e.val up))

end Sys2Proof.Machine
end

