-- ==== Sys2Proof/Machine/Startup.lean ====
section
/-! DEFINITION. Resets and start-up (16_host_startup.md R406 to R412): HST_RESET, the full reset from each source, and the
phases of start-up that are rows of the table. -/

namespace Sys2Proof.Machine

/-! ## HST_RESET (R410) -/

/-- HST_RESET is accepted (R410): every beam is blanked, the mailbox stays closed, and the command waits in its lane for its record to
be persisted. -/
def Dev.resetAccept (d : Dev) (tag : Word) : Dev :=
  let d1 := (upTo 32).foldl (fun d p => d.blankPort p) d
  let i := d1.hst.queue.findIdx (fun c => c.op == 0x02 && c.tag == tag)
  { d1 with hst := { d1.hst with
      free := false
      resetWait := some (tag, d.time)
      queue := d1.hst.queue.eraseIdx i
      running := tput d1.hst.running (laneIx .ctrl) ⟨0, 0x02, tag, [0x02#32, tag, 0x0000A5A5#32], none⟩ } }

/-- HST_RESET (R410): PARAM with another key; it is executed while HALTED too (R401). -/
def State.hstReset (s : State) (tag key : Word) : State :=
  if s.dev.mayRun .ctrl 0x02 tag then
    if key == 0x0000A5A5#32 then s.onDev (fun d => d.resetAccept tag)
    else s.onDev (fun d => d.finish .ctrl 0x02 tag Res.param.code 0)
  else s

/-- HST_RESET (R410). -/
def execHstReset (tag key : Word) (s : State) : Host.Outcome State Fault Refusal := .next (s.hstReset tag key)

/-! ## The full reset (R406 to R408) -/

/-- The code of a reset cause (R406). -/
def ResetCause.code : ResetCause → Nat
  | .power => 1 | .pin => 2 | .perst => 3 | .flr => 4 | .command => 5 | .brownout => 6

/-- One second in nanoseconds. -/
def oneSecond : Nat := 1000000000

/-- Every event up to time t has been persisted (R410, R384): none waits in the intake FIFO, and no record in the ring or the last-gasp
bank lacks its MARK in flash. -/
def Dev.persistedTo (d : Dev) (t : DWord) : Bool :=
  d.evr.fifo.all (fun e => later64 e.time t) && d.unpersisted.all (fun r => later64 r.ev.time t)

/-- The wait of HST_RESET is over (R410): its record is persisted, 1 s has passed, or persistence is off or the flash has failed. -/
def Dev.resetReady (d : Dev) : Bool :=
  match d.hst.resetWait with
  | none => false
  | some (_, t) => d.persistedTo t || decide (oneSecond ≤ elapsed64 d.time t) || d.persistOff

/-- The reset from this source happens now: at once, but for HST_RESET, which waits under R410. -/
def Dev.resetDue (d : Dev) (c : ResetCause) : Bool :=
  match c with
  | .command => d.resetReady
  | _ => true

/-- The slots of the rigging flash after a reset: where power fails while one is being programmed, that one fails R57 (R63). -/
def Dev.slotsKept (d : Dev) (c : ResetCause) : Table (List Byte) :=
  match d.rig.prog, c with
  | some i, .power => tdel d.rig.slots i
  | some i, .brownout => tdel d.rig.slots i
  | _, _ => d.rig.slots

/-- The device after a full reset (R406): every block at its reset value, but HST_RESET_CAUSE (R408), what lies in the flash devices
(log flash, rigging slots, calibration store), the ordering code, the test access port (R428), which power-on alone resets, and the model's
counter of free values. -/
def Dev.afterReset (d : Dev) (c : ResetCause) : Dev :=
  let r := Dev.reset
  { r with
    variant := d.variant
    freeCtr := d.freeCtr
    regs := regPut r.regs F.HST_RESET_CAUSE_CAUSE.key (ResetCause.code c) F.HST_RESET_CAUSE_CAUSE.reset
    logFlash := d.logFlash
    evr := { r.evr with nextSeq := d.logFlash.nextSeq }
    rig := { r.rig with slots := d.slotsKept c }
    sns := { r.sns with
      store := d.sns.store
      storeSeq := d.sns.storeSeq
      older := d.sns.older
      spots := d.sns.spots.map (fun (x : Nat × SpotPort) => (x.1, { spot0 with stored := x.2.stored })) }
    sys := { r.sys with resetLow := d.sys.resetLow, phaseBefore := d.get F.HST_STAT_PHASE }
    tap := if decide (c = .power) then r.tap else d.tap }

/-- FULL_RESET (R406): DRAM contents are not defined after it (R84); the model reads every byte as one that nothing has written
(log entry 6). -/
def State.fullReset (s : State) (c : ResetCause) : State :=
  if s.dev.resetDue c then { s with mem := { cells := [], poison := [] }, dev := s.dev.afterReset c } else s

/-- FULL_RESET (R406). -/
def execFullReset (c : ResetCause) (s : State) : Host.Outcome State Fault Refusal := .next (s.fullReset c)

/-! ## Start-up (R411, R412) -/

/-- STARTUP_BOOT (R219, R411): the phases BOOT and then TRAIN; the calibration store is read, power-up calibration begins with the
measurements that it takes, DRAM training begins on both channels, and the rigging flash is read, which STATE shows as LOADING (R69). -/
def Dev.startupBoot (d : Dev) (cal : List CalMeas) (bad : List (Fin 2 × Word)) : Dev :=
  if d.get F.HST_STAT_PHASE == 0 then
    (((((d.storeRead bad).calBegin cal).put (F.DDR_CHc_STAT_STATE 0) 1).put (F.DDR_CHc_STAT_STATE 1) 1).put F.RIG_STAT_STATE 1).put F.HST_STAT_PHASE 2
  else d

/-- STARTUP_BOOT (R411). -/
def execStartupBoot (cal : List CalMeas) (bad : List (Fin 2 × Word)) (s : State) : Host.Outcome State Fault Refusal :=
  .next (s.onDev (fun d => d.startupBoot cal bad))

/-- STARTUP_READY (R411): once power-up calibration has ended, the phase is READY and the mailbox opens; HALTED if the supervisor has
stopped (R26). -/
def Dev.startupReady (d : Dev) : Dev :=
  if d.get F.HST_STAT_PHASE == 3 && d.flag F.SNS_STAT_CAL_DONE then
    { d.put F.HST_STAT_PHASE (if decide (d.sys.sup = .halted) then 5 else 4) with hst := { d.hst with free := d.hst.resetWait.isNone } }
  else d

/-- STARTUP_READY (R411). -/
def execStartupReady (s : State) : Host.Outcome State Fault Refusal := .next (s.onDev (fun d => d.startupReady))

end Sys2Proof.Machine
end

