-- ==== Sys2Proof/Machine/RegWrite.lean ====
section
/-! DEFINITION. Writes of BAR0 registers (00_scope.md R3, R11 to R20, R433): which register an address holds, how a write is
judged as a whole, where each field lands, and what each register does when it is written. -/

namespace Sys2Proof.Machine

/-! ## Which register (R11 to R13) -/

/-- A register of the map with the indices of one of its places. -/
structure RegHit where
  spec : RegSpec
  i : Nat
  j : Nat
  deriving DecidableEq, Repr

/-- The indices at which a register array holds address a. -/
def RegSpec.indexAt (r : RegSpec) (a : Nat) : Option (Nat × Nat) :=
  if a < r.base then none
  else
    let o := a - r.base
    let i := if r.stride == 0 then 0 else o / r.stride
    let rest := o - i * r.stride
    let j := if r.stride2 == 0 then 0 else rest / r.stride2
    if i < r.count && j < r.count2 && i * r.stride + j * r.stride2 == o then some (i, j) else none

/-- The register that address a holds, among these. -/
def regFind (a : Nat) : List RegSpec → Option RegHit
  | [] => none
  | r :: t =>
    match r.indexAt a with
    | some (i, j) => some ⟨r, i, j⟩
    | none => regFind a t

/-- The register is the one (or the array) to which field F, taken at index 0, belongs. -/
def RegHit.holds (h : RegHit) (F : Fld) : Bool := h.spec.base == F.addr

/-- The beam port to which the register belongs (R17): a port's own registers and those of its channels 2n and 2n + 1. -/
def RegHit.port (h : RegHit) : Option Nat :=
  match h.spec.owner with
  | .port => some h.i
  | .chan => some (h.i / 2)
  | _ => none

/-- On the AX16 the register belongs to a disabled port, channel, input or pair (R3). -/
def Dev.regAbsent (d : Dev) (h : RegHit) : Bool :=
  decide (d.variant = .ax16) &&
  match h.spec.owner with
  | .port => decide (16 ≤ h.i)
  | .chan => decide (32 ≤ h.i)
  | .tin => decide (32 ≤ h.i) && decide (h.i < 64)
  | .device => h.holds (F.ENG_PAIRk_STATE 0) && decide (18 ≤ h.i)

/-- A field of the map at address a. -/
def FieldSpec.fld (f : FieldSpec) (a : Nat) : Fld := ⟨a, f.lsb, f.width, f.reset⟩

/-- The bits of a written word that belong to the field. -/
def FieldSpec.bits (f : FieldSpec) (v : Nat) : Nat := v / 2 ^ f.lsb % 2 ^ f.width

/-! ## What a register reads as (R14, R19) -/

/-- HST_ID (R414), with the ordering code's number of ports and Device ID (R2, R394). -/
def Dev.hstId (d : Dev) : Nat :=
  match d.variant with
  | .ax32 => 0xB0 + 0x20 * 2 ^ 8 + 0xA320 * 2 ^ 16
  | .ax16 => 0xB0 + 0x10 * 2 ^ 8 + 0xA160 * 2 ^ 16

/-- Fields of a register, each in its place; a WO field reads zero (R14). -/
def Dev.readFields (d : Dev) (a : Nat) (l : List FieldSpec) : Nat :=
  (l.map (fun f => if decide (f.access = .wo) then 0 else d.get (f.fld a) * 2 ^ f.lsb)).foldl (· + ·) 0

/-- The value of the register at address a: the live value of each field (R19); zero where no register lies (R12) and for a disabled
beam of the AX16, but for HND_Pn_STAT, which reads UNASSIGNED (R3). -/
def Dev.readReg (d : Dev) (a : Nat) : Nat :=
  match regFind a regSpecs with
  | none => 0
  | some h =>
    if d.regAbsent h then (if h.holds (F.HND_Pn_STAT_STATE 0) then 5 else 0)
    else if h.holds F.HST_STAT_PHASE then d.hstStat
    else if h.holds F.HST_ATTN_HOLD_COND then d.attnHold
    else if h.holds F.HST_MBX_STAT_FREE then b2n d.hst.free
    else if h.holds F.HST_ID_REV then d.hstId
    else if h.holds F.HST_CPL0_TAG then d.cplWord 0
    else if h.holds F.HST_CPL1_INFO then d.cplWord 1
    else if h.holds F.HST_CPL2_VAL_LO then d.cplWord 2
    else if h.holds F.HST_CPL3_VAL_HI then d.cplWord 3
    else if h.holds F.HST_CPL_COUNT_COUNT then d.hst.cpl.length
    else if h.holds (F.EVR_WINw_DATA 0) then (d.winWord h.i).toNat
    else if h.holds (F.EVR_LGw_DATA 0) then (d.bankWord h.i).toNat
    else d.readFields a h.spec.fields

/-! ## How a write is judged (R14, R433) -/

/-- A field takes writes. -/
def Access.writable : Access → Bool
  | .ro => false
  | _ => true

/-- A value meets a field's check. -/
def Check.ok : Check → Nat → Bool
  | .any, _ => true
  | .le hi, v => decide (v ≤ hi)
  | .range lo hi, v => decide (lo ≤ v) && decide (v ≤ hi)
  | .multOf k, v => v % k == 0
  | .pow2 lo hi, v => decide (lo ≤ v) && decide (v ≤ hi) && (upTo 32).any (fun k => 2 ^ k == v)
  | .signed w low high, v => decide (-(Int.ofNat low) ≤ sext w v) && decide (sext w v ≤ Int.ofNat high)
  | .f32 r, v => f32Accept r (BitVec.ofNat 32 v)

/-- The Control Bar is IDLE (R96). -/
def Dev.barIdle (d : Dev) : Bool := d.get F.BED_STAT_PHASE == 0

/-- Buffer n is FREE with no open pending (R83). -/
def Dev.bufStopped (d : Dev) (n : Nat) : Bool := d.get (F.BED_BUFn_STAT_STATE n) == 0 && !(d.flag (F.BED_BUFn_STAT_PEND n))

/-- The block that uses the register's RWL fields is stopped, as the chapter of the register says: R83 buffers, R116 the Control Bar,
R209 captures, R239 receivers, R293 compare units and axes, R317 PTP, R324 and R338 DRAM, R393 telemetry, R414 DMA channels. -/
def Dev.rwlStopped (d : Dev) (h : RegHit) : Bool :=
  if h.holds (F.BED_BUFn_BASE_BASE 0) || h.holds (F.BED_BUFn_SIZE_SIZE 0) then d.bufStopped h.i
  else if h.holds F.BED_QREC_BASE_BASE || h.holds F.BED_QREC_SIZE_SIZE || h.holds F.DDR_CTRL_FIXED then d.barIdle
  else if h.holds (F.LOOPn_CAP_BASE_BASE 0) || h.holds (F.LOOPn_CAP_LEN_LEN 0) then !(d.flag (F.LOOPn_STAT_CAP_BUSY h.i))
  else if decide (0x200000 ≤ h.spec.base) && decide (h.spec.base < 0x240000) then !(d.flag (F.CAMm_CTRL_EN h.i))
  else if h.holds (F.QE_CMPk_CTRL_SRC 0) then !(d.flag (F.QE_CMPk_CTRL_ARM h.i))
  else if decide (0x2E0800 ≤ h.spec.base) && decide (h.spec.base < 0x300000) then !(d.flag (F.AXSa_CTRL_EN h.i))
  else if decide (0x2A0000 ≤ h.spec.base) && decide (h.spec.base < 0x2C0000) then !(d.flag F.PTP_CTRL_EN)
  else if h.holds F.DDR_MIRROR_SIZE then d.barIdle && (upTo 16).all d.bufStopped
  else if h.holds F.TEL_BASE_BASE || h.holds F.TEL_SIZE_SIZE then !(d.flag F.TEL_CTRL_EN)
  else !(d.flag (F.HST_DMAc_CTRL_EN h.i)) && (tfind d.hst.dma h.i).isNone

/-- The write is refused for one field (R433): out of its range, or an RWL field changed while its block runs, or effect RIG. -/
def Dev.fieldRefused (d : Dev) (h : RegHit) (a v : Nat) (f : FieldSpec) : Bool :=
  match f.access with
  | .rw => decide (f.effect = .rig) || !(f.check.ok (f.bits v))
  | .rwl => !(f.check.ok (f.bits v)) || (f.bits v != d.get (f.fld a) && !(d.rwlStopped h))
  | _ => false

/-- The thresholds of an input satisfy WARN ≤ THROTTLE < SHUTDOWN (R343). -/
def thresholdsOk (warn throttle shutdown : Nat) : Bool :=
  decide (sext 16 warn ≤ sext 16 throttle) && decide (sext 16 throttle < sext 16 shutdown)

/-- The range of P1 or P2 for a front-end type (R340): lowest and highest binary32. -/
def tempRange (type : Nat) (second : Bool) : Option (Word × Word) :=
  match type, second with
  | 1, false => some (0x3F666666#32, 0x3F8CCCCD#32)
  | 1, true => some (0x00000000#32, 0x42C80000#32)
  | 2, false => some (0x42C80000#32, 0x49742400#32)
  | 2, true => some (0x447A0000#32, 0x461C4000#32)
  | _, _ => none

/-- A value of P1 or P2 of input t lies outside its range (R340, R354). -/
def Dev.tempRefused (d : Dev) (t : Nat) (second : Bool) (v : Nat) : Bool :=
  match tempRange (tempType (d.sections false) t) second with
  | some (lo, hi) => !(f32Le lo (BitVec.ofNat 32 v) && f32Le (BitVec.ofNat 32 v) hi)
  | none => false

/-- A read index of N or above is refused (R437). -/
def Dev.readIndexRefused (d : Dev) (r : Ring) (v : Nat) : Bool := decide (d.ringLen r ≤ v)

/-- The field's value as last written: the value that waits in a shadow, or the live one (R19). -/
def Dev.written (d : Dev) (F : Fld) : Nat :=
  match d.shadow.find? (fun e => decide (e.fld = F)) with
  | some e => e.value
  | none => d.get F

/-- The write is refused by a rule of its own: R437 read indices, R321 DDR_MIRROR, R343 and R340 temperature inputs, R286 an axis without
a usable input, R277 and R278 encoder inputs, R261 an open fault entry. -/
def Dev.ruleRefused (d : Dev) (h : RegHit) (v : Nat) : Bool :=
  if h.holds F.BED_QREC_RD_INDEX then d.readIndexRefused qrecRing v
  else if h.holds (F.CAMm_FEAT_RD_INDEX 0) then d.readIndexRefused (featRing h.i) v
  else if h.holds F.TEL_RD_INDEX then d.readIndexRefused telRing v
  else if h.holds F.DDR_MIRROR_SIZE then
    decide (max (d.get (F.DDR_CHc_STAT_CAP 0)) (d.get (F.DDR_CHc_STAT_CAP 1)) < v % 64 + 2) && v % 64 != d.get F.DDR_MIRROR_SIZE
  else if h.holds (F.THM_INt_WT_WARN 0) then !(thresholdsOk (v % 2 ^ 16) (v / 2 ^ 16) (d.get (F.THM_INt_SD_SHUTDOWN h.i)))
  else if h.holds (F.THM_INt_SD_SHUTDOWN 0) then
    !(thresholdsOk (d.get (F.THM_INt_WT_WARN h.i)) (d.get (F.THM_INt_WT_THROTTLE h.i)) (v % 2 ^ 16))
  else if h.holds (F.THM_INt_P1_VAL 0) then d.tempRefused h.i false v
  else if h.holds (F.THM_INt_P2_VAL 0) then d.tempRefused h.i true v
  else if h.holds (F.AXSa_CTRL_EN 0) then bitAt v 0 && !(d.axisMay h.i)
  else if h.holds (F.QEe_CTRL_FILT 0) then
    (bitAt v 4 && d.flag (F.QEe_ERR_LINE_NOW h.i)) ||
    (d.encInUse h.i && (bitAt v 3 || bitAt v 2 != d.flag (F.QEe_CTRL_ZHOME h.i)))
  else if h.holds F.HND_FT_VALID0_VALID then openBits d 0 v
  else if h.holds F.HND_FT_VALID1_VALID then openBits d 1 v
  else false
where
  /-- The word has a 1 in the place of an open entry. -/
  openBits (d : Dev) (w v : Nat) : Bool :=
    (upTo 32).any (fun i => bitAt v i && d.ftValid (32 * w + i) && !(d.flag (F.HND_FTk_INFO_RESOLVED (32 * w + i))))

/-- The write is refused as a whole (R14, R433, R3). -/
def Dev.writeRefused (d : Dev) (h : RegHit) (a v : Nat) : Bool :=
  d.regAbsent h || !(h.spec.fields.any (fun f => f.access.writable)) || h.spec.fields.any (d.fieldRefused h a v) || d.ruleRefused h v

/-! ## Where a write lands (R16 to R19) -/

/-- Port p has a running path (R18, R247): a tick point of it has been produced and its last one has not. -/
def Dev.onPath (d : Dev) (p : Nat) : Bool :=
  match d.runOf p with
  | none => false
  | some r => (match (d.engOf p).hist.head? with
      | some t => t.key == some r.key
      | none => false) && !(r.planned && decide (snapF r.planT ≤ r.k))

/-- The block that uses a field of this effect is stopped, so that the value lands at once (R18). -/
def Dev.effectStopped (d : Dev) (port : Option Nat) (e : Effect) : Bool :=
  match e with
  | .seg | .path | .tile =>
    match port with
    | some p => !(d.onPath p)
    | none => !(d.runningPorts.any d.onPath)
  | .bed => d.barIdle
  | _ => true

/-- A value written to a field goes live at once, or waits in its shadow for the effect point; a later write replaces an earlier one
(R16, R18, R19). -/
def Dev.land (d : Dev) (port : Option Nat) (F : Fld) (e : Effect) (w : Nat) : Dev :=
  if d.effectStopped port e then
    ({ d with shadow := d.shadow.filter (fun x => decide (x.fld ≠ F)),
              oldViews := d.oldViews.filter (fun x => decide (x.fld ≠ F)) }).put F w
  else { d with shadow := shadowPut d.shadow ⟨F, e, port, w⟩ }

/-- Fields whose new value is placed by their own block: the enables of a receiver, an axis, PTP and lighting, a compare value (R282),
and the fault table's bits (R261). -/
def RegHit.ownPlace (h : RegHit) (f : FieldSpec) : Bool :=
  (h.holds (F.CAMm_CTRL_EN 0) && f.lsb == 0) || (h.holds (F.AXSa_CTRL_EN 0) && f.lsb == 0) || (h.holds F.PTP_CTRL_EN && f.lsb == 0) ||
  (h.holds F.LED_CTRL_EN && f.lsb == 0) || h.holds (F.QE_CMPk_VAL_VAL 0) || h.holds F.HND_FT_VALID0_VALID || h.holds F.HND_FT_VALID1_VALID

/-- A W1S bit that is a state and not only an action: a Yo-yo run armed (R204), a transfer asked for (R359). -/
def RegHit.stays (h : RegHit) : Bool := h.holds (F.LOOPn_YY_CTRL_ARM 0) || h.holds F.LED_CTRL_APPLY

/-- One field takes its part of the written word. -/
def Dev.applyField (d : Dev) (h : RegHit) (a v : Nat) (f : FieldSpec) : Dev :=
  let g := f.fld a
  let w := f.bits v
  if h.ownPlace f then d
  else match f.access with
  | .rw | .rwl => d.land h.port g f.effect w
  | .w1c => d.put g (d.get g - (d.get g &&& w))
  | .w1s => if w != 0 && h.holds (F.LOOPn_YY_CTRL_ARM 0) then d.land h.port g f.effect 1 else d
  | _ => d

/-- What a field of the written register holds, shadow or live (R20). -/
def Dev.noted (d : Dev) (h : RegHit) (a : Nat) (f : FieldSpec) : Nat :=
  if h.holds (F.QE_CMPk_VAL_VAL 0) then
    match (d.cmpOf h.i).value with
    | some v => v.toNat
    | none => d.get (f.fld a)
  else d.written (f.fld a)

/-- What the field holds after the write. -/
def Dev.notedAfter (d : Dev) (h : RegHit) (a v : Nat) (f : FieldSpec) : Nat :=
  let old := d.noted h a f
  match f.access with
  | .rw | .rwl => f.bits v
  | .w1c => old - (old &&& f.bits v)
  | .w1s => if h.stays then old ||| f.bits v else old
  | _ => old

/-- A field list as one word. -/
def packFields (l : List FieldSpec) (value : FieldSpec → Nat) : Nat := (l.map (fun f => value f * 2 ^ f.lsb)).foldl (· + ·) 0

/-- A write that changes a shadow or a live value of the register is recorded once as 0x0110, with the address, the old and the new value
(R20, R415); `before` is the device as the write found it. -/
def Dev.noteWrite (d before : Dev) (h : RegHit) (a v : Nat) : Dev :=
  let l := h.spec.fields
  let old := packFields l (before.noted h a)
  let new := packFields l (before.notedAfter h a v)
  if old == new then d else d.raise 0x0110 0x01 0 a old new

/-! ## What a written register does -/

/-- A ring whose base or size has changed starts anew (R437). -/
def Dev.ringReplaced (d old : Dev) (r : Ring) : Dev :=
  if d.get r.base == old.get r.base && d.get r.size == old.get r.size then d else (d.put r.wr 0).put r.rd 0

/-- BED_CTRL.RUN was written (R102, R331). -/
def Dev.runWritten (d old : Dev) : Dev :=
  if d.flag F.BED_CTRL_RUN then (if old.flag F.BED_CTRL_RUN then d else d.wakeDram) else d.idleCheck

/-- HOLDOUT is live on port p (R259). -/
def Dev.holdOut (d old : Dev) (m : Dram) (p : Nat) : Dev :=
  if d.flag (F.HND_Pn_CTRL_HOLDOUT p) && !(old.flag (F.HND_Pn_CTRL_HOLDOUT p)) then ((d.returnQueue p).coverGone m p).portBits p else d

/-- CAMm_TRIG was written (R234): the period counts from the T-tick at which MODE becomes 1; FIRE is ignored in MODE 0. -/
def Dev.trigWritten (d old : Dev) (m v : Nat) : Dev :=
  let mode := d.get (F.CAMm_TRIG_MODE m)
  let d1 := if mode == 1 && old.get (F.CAMm_TRIG_MODE m) != 1 then d.updCam m (fun c => { c with modeAt := d.tick }) else d
  if bitAt v 2 && mode != 0 then d1.updCam m (fun c => { c with fire := some d1.tick }) else d1

/-- QE_CMPk_CTRL was written (R281): ARM from 0 to 1 asks for ARMED, which COMPARE_VALUE_LIVE sets; ARM 0 disarms; a new source that is
lost shows in SRC_LOST. -/
def Dev.cmpWritten (d old : Dev) (k : Nat) : Dev :=
  let e := d.get (F.QE_CMPk_CTRL_SRC k)
  let d1 := if e == old.get (F.QE_CMPk_CTRL_SRC k) then d else d.setFlag (F.QE_CMPk_STAT_SRC_LOST k) (d.flag (F.QEe_ERR_LOST e))
  match old.flag (F.QE_CMPk_CTRL_ARM k), d.flag (F.QE_CMPk_CTRL_ARM k) with
  | false, true => d1.updCmp k (fun u => { u with arm := true })
  | true, false => (d1.updCmp k (fun u => { u with arm := false })).setFlag (F.QE_CMPk_STAT_ARMED k) false
  | _, _ => d1

/-- QEe_CTRL was written: PRESET (R278) and REARM (R277). -/
def Dev.encWritten (d : Dev) (m : Dram) (e v : Nat) : Dev :=
  let d1 := if bitAt v 3 then d.encPreset m e else d
  if bitAt v 4 then d1.encRearm m e else d1

/-- AXSa_CTRL was written: EN (R286), then GO, STOP and BNDGO (R287), in the order of their bits. -/
def Dev.axisWritten (d : Dev) (a v : Nat) : Dev :=
  let d1 := d.axisEnable a (bitAt v 0)
  let d2 := if bitAt v 1 then d1.axisGo a else d1
  let d3 := if bitAt v 2 then d2.axisStop a else d2
  if bitAt v 3 then d3.axisArm a else d3

/-- GLK_CTRL was written: ports enabled and disabled (R308), and the right to become root (R296). -/
def Dev.glkWritten (d old : Dev) : Dev :=
  let d1 := (upTo 4).foldl (fun d p =>
    let on := d.bit F.GLK_CTRL_PORT_EN p
    if on == old.bit F.GLK_CTRL_PORT_EN p then d else d.glkEnable p on) d
  if d1.flag F.GLK_CTRL_ROOT_EN == old.flag F.GLK_CTRL_ROOT_EN then d1 else d1.judgeRole false

/-- PTP_CTRL was written: EN and ACCEPT (R314). -/
def Dev.ptpWritten (d : Dev) (v : Nat) : Dev :=
  let d1 := if bitAt v 0 == d.flag F.PTP_CTRL_EN then d else d.ptpEnable (bitAt v 0)
  if bitAt v 8 then d1.accept else d1

/-- LED_CTRL was written: EN and APPLY (R359). -/
def Dev.ledWritten (d : Dev) (v : Nat) : Dev :=
  let d1 := d.ledEnable (bitAt v 0)
  if bitAt v 1 then d1.ledApply else d1

/-- EVR_CTRL was written: FREEZE (R383) and NEXT (R382). -/
def Dev.evrWritten (d : Dev) (v : Nat) : Dev :=
  let d1 := if bitAt v 0 then d.freeze else d.unfreeze false
  if bitAt v 1 then (d1.put F.EVR_CURSOR_SEQ (d1.get F.EVR_CURSOR_SEQ + 8)).loadWindow else d1

/-- The effect that the register's own chapter gives a write of it. -/
def Dev.afterWrite (d old : Dev) (m : Dram) (h : RegHit) (v : Nat) : Dev :=
  if h.holds F.BED_CTRL_RUN then d.runWritten old
  else if h.holds F.BED_QREC_BASE_BASE || h.holds F.BED_QREC_SIZE_SIZE then d.ringReplaced old qrecRing
  else if h.holds (F.CAMm_FEAT_BASE_BASE 0) || h.holds (F.CAMm_FEAT_SIZE_SIZE 0) then d.ringReplaced old (featRing h.i)
  else if h.holds F.TEL_BASE_BASE || h.holds F.TEL_SIZE_SIZE then d.ringReplaced old telRing
  else if h.holds (F.HND_Pn_CTRL_HOLDOUT 0) then d.holdOut old m h.i
  else if h.holds (F.LOOPn_CAP_CTRL_START 0) then (if bitAt v 0 then d.capStart h.i else d)
  else if h.holds (F.SNS_CHc_CFG_RANGE 0) then d.rangeLive old
  else if h.holds (F.CAMm_CTRL_EN 0) then d.camEnable h.i (bitAt v 0)
  else if h.holds (F.CAMm_TRIG_MODE 0) then d.trigWritten old h.i v
  else if h.holds F.HND_FT_VALID0_VALID then d.ftRelease 0 v
  else if h.holds F.HND_FT_VALID1_VALID then d.ftRelease 1 v
  else if h.holds (F.QEe_CTRL_FILT 0) then d.encWritten m h.i v
  else if h.holds (F.QE_CMPk_CTRL_SRC 0) then d.cmpWritten old h.i
  else if h.holds (F.QE_CMPk_VAL_VAL 0) then d.updCmp h.i (fun u => { u with value := some (BitVec.ofNat 32 v) })
  else if h.holds (F.AXSa_CTRL_EN 0) then d.axisWritten h.i v
  else if h.holds F.GLK_CTRL_PORT_EN then d.glkWritten old
  else if h.holds F.PTP_CTRL_EN then d.ptpWritten v
  else if h.holds F.PTP_SNAP_SNAP then (if bitAt v 0 then d.snapshot else d)
  else if h.holds (F.THM_INt_P1_VAL 0) || h.holds (F.THM_INt_P2_VAL 0) then d.updThmIn h.i (fun x => { x with prev := none })
  else if h.holds F.LED_CTRL_EN then d.ledWritten v
  else if h.holds F.EVR_CTRL_FREEZE then d.evrWritten v
  else if h.holds F.EVR_CURSOR_SEQ then d.loadWindow
  else d

/-! ## The write -/

/-- A refused write changes nothing and is recorded once as 0x0E03: address, value written, live value (R433). -/
def Dev.refuseWrite (d : Dev) (a v : Nat) : Dev := d.raise 0x0E03 0x01 2 a v (d.readReg a)

/-- Address a is a register of an encoder input that holds its reset values (R273): a write of it has no effect. -/
def Dev.encHeldAt (d : Dev) (a : Nat) : Bool := 0x2E0000 ≤ a && a < 0x2E0200 && d.encHeld ((a - 0x2E0000) / 0x40)

/-- Address a is a register of a temperature input of type 0x00, which holds its reset values (R339): a write of it has no effect. -/
def Dev.tempHeldAt (d : Dev) (a : Nat) : Bool :=
  0x300100 ≤ a && a < 0x300B00 && d.rigged && tempType (d.sections false) ((a - 0x300100) / 0x20) == 0

/-- A write that nothing refuses (R433): every writable field takes its part together, the write is recorded, and the register acts. A
W1C bit is cleared before what the write itself raises, so that a bit that hardware sets in the same cycle remains set (R15; log
entry 114). -/
def Dev.acceptWrite (d : Dev) (m : Dram) (h : RegHit) (a v : Nat) : Dev :=
  if d.encHeldAt a || d.tempHeldAt a then d
  else ((h.spec.fields.foldl (fun d f => d.applyField h a v f) d).noteWrite d h a v).afterWrite d m h v

/-- A host write of v to BAR0 address a (R11 to R20, R433): misaligned, unoccupied, a mailbox word, the completion pop, or a register
that is judged as a whole. -/
def Dev.regWrite (d : Dev) (m : Dram) (a v : Nat) : Dev :=
  if a % 4 != 0 then d.badAccess a 4 true
  else match regFind a regSpecs with
  | none => d.raise 0x0E02 0x01 2 a v 0
  | some h =>
    if h.holds (F.HST_MBXw_WORD 0) then
      if h.i == 15 then d.mbxSubmit (BitVec.ofNat 32 v) else d.mbxWrite h.i (BitVec.ofNat 32 v)
    else if h.holds F.HST_CPL_POP_POP then d.cplPop (BitVec.ofNat 32 v)
    else if d.writeRefused h a v then d.refuseWrite a v
    else d.acceptWrite m h a v

/-- A host write of a register, with the DRAM writes it causes. -/
def State.regWrite (s : State) (a : Nat) (v : Word) : State := s.runDev (fun d m => d.regWrite m a v.toNat)

/-- REGISTER_WRITE (R433). -/
def execRegisterWrite (addr v : Word) (s : State) : Host.Outcome State Fault Refusal := .next (s.regWrite addr.toNat v)

/-- DMA_HEAD_WRITE (R396): HST_DMAc_HEAD of channel c. -/
def execDmaHeadWrite (c : Dma) (v : Word) (s : State) : Host.Outcome State Fault Refusal :=
  .next (s.regWrite (F.HST_DMAc_HEAD_INDEX c.val).addr v)

/-- LOOPN_YY_ARM (R204): a write of LOOPn_YY_CTRL. -/
def execLoopnYyArm (p : Port) (v : Word) (s : State) : Host.Outcome State Fault Refusal :=
  .next (s.regWrite (F.LOOPn_YY_CTRL_ARM p.val).addr v)

/-- LOOPN_CAP_START (R207): a write of LOOPn_CAP_CTRL. -/
def execLoopnCapStart (p : Port) (v : Word) (s : State) : Host.Outcome State Fault Refusal :=
  .next (s.regWrite (F.LOOPn_CAP_CTRL_START p.val).addr v)

/-- CAMM_TRIG_FIRE (R234): a write of CAMm_TRIG. -/
def execCammTrigFire (m : Cam) (v : Word) (s : State) : Host.Outcome State Fault Refusal :=
  .next (s.regWrite (F.CAMm_TRIG_FIRE m.val).addr v)

/-- HND_FT_RELEASE (R261): a write of HND_FT_VALID0, or of HND_FT_VALID1. -/
def execHndFtRelease (hi : Bool) (v : Word) (s : State) : Host.Outcome State Fault Refusal :=
  .next (s.regWrite (if hi then F.HND_FT_VALID1_VALID.addr else F.HND_FT_VALID0_VALID.addr) v)

/-- PTP_ACCEPT (R314): a write of PTP_CTRL. -/
def execPtpAccept (v : Word) (s : State) : Host.Outcome State Fault Refusal := .next (s.regWrite F.PTP_CTRL_ACCEPT.addr v)

/-- PTP_SNAP (R317): a write of PTP_SNAP. -/
def execPtpSnap (v : Word) (s : State) : Host.Outcome State Fault Refusal := .next (s.regWrite F.PTP_SNAP_SNAP.addr v)

/-- LED_APPLY (R359): a write of LED_CTRL. -/
def execLedApply (v : Word) (s : State) : Host.Outcome State Fault Refusal := .next (s.regWrite F.LED_CTRL_APPLY.addr v)

/-- LED_EN_WRITE (R359): a write of LED_CTRL. -/
def execLedEnWrite (v : Word) (s : State) : Host.Outcome State Fault Refusal := .next (s.regWrite F.LED_CTRL_EN.addr v)

/-- QEE_PRESET (R278): a write of QEe_CTRL. -/
def execQeePreset (e : Sys2Proof.Enc) (v : Word) (s : State) : Host.Outcome State Fault Refusal :=
  .next (s.regWrite (F.QEe_CTRL_PRESET e.val).addr v)

/-- QEE_REARM (R277): a write of QEe_CTRL. -/
def execQeeRearm (e : Sys2Proof.Enc) (v : Word) (s : State) : Host.Outcome State Fault Refusal :=
  .next (s.regWrite (F.QEe_CTRL_REARM e.val).addr v)

/-- AXSA_EN_WRITE (R286): a write of AXSa_CTRL. -/
def execAxsaEnWrite (a : Axis) (v : Word) (s : State) : Host.Outcome State Fault Refusal :=
  .next (s.regWrite (F.AXSa_CTRL_EN a.val).addr v)

/-- AXSA_GO (R287): a write of AXSa_CTRL. -/
def execAxsaGo (a : Axis) (v : Word) (s : State) : Host.Outcome State Fault Refusal :=
  .next (s.regWrite (F.AXSa_CTRL_GO a.val).addr v)

/-- AXSA_STOP (R287): a write of AXSa_CTRL. -/
def execAxsaStop (a : Axis) (v : Word) (s : State) : Host.Outcome State Fault Refusal :=
  .next (s.regWrite (F.AXSa_CTRL_STOP a.val).addr v)

/-- AXSA_BNDGO (R287): a write of AXSa_CTRL. -/
def execAxsaBndgo (a : Axis) (v : Word) (s : State) : Host.Outcome State Fault Refusal :=
  .next (s.regWrite (F.AXSa_CTRL_BNDGO a.val).addr v)

/-- EVR_CURSOR_WRITE (R382): a write of EVR_CURSOR. -/
def execEvrCursorWrite (v : Word) (s : State) : Host.Outcome State Fault Refusal := .next (s.regWrite F.EVR_CURSOR_SEQ.addr v)

/-- EVR_NEXT (R382): a write of EVR_CTRL. -/
def execEvrNext (v : Word) (s : State) : Host.Outcome State Fault Refusal := .next (s.regWrite F.EVR_CTRL_NEXT.addr v)

/-- EVR_FREEZE_WRITE (R383): a write of EVR_CTRL. -/
def execEvrFreezeWrite (v : Word) (s : State) : Host.Outcome State Fault Refusal := .next (s.regWrite F.EVR_CTRL_FREEZE.addr v)

end Sys2Proof.Machine
end

