-- ==== Sys2Proof/Machine/RigLoad.lean ====
section
/-! DEFINITION. Loading a rigging (02_rigging.md R45 to R66, 03_bed_data.md R92): the mailbox commands, the image that start-up takes from the
rigging flash, and what applying a full image does to every block. -/

namespace Sys2Proof.Machine

/-! ## Applying a full image (R45 to R56, R64, R92) -/

/-- Every register from address lo up to hi returns to its reset value. -/
def Dev.clearRegs (d : Dev) (lo hi : Nat) : Dev :=
  { d with regs := d.regs.filter (fun x => decide (x.1 < lo * 32) || decide (hi * 32 ≤ x.1)),
           shadow := d.shadow.filter (fun e => decide (e.fld.addr < lo) || decide (hi ≤ e.fld.addr)) }

/-- READY buffers return to FILLING, or FILLING and READY ones to FREE where mirroring changes, with a 0x0227 event each (R92). -/
def Dev.buffersBack (d : Dev) (mirrorMoved : Bool) : Dev :=
  (upTo 16).foldl (fun d n =>
    let st := d.get (F.BED_BUFn_STAT_STATE n)
    let g := d.get (F.BED_BUFn_GEN_GEN n)
    if mirrorMoved && (st == 1 || st == 2) then (d.raise 0x0227 0x03 1 n g 0).bufFree n
    else if st == 2 then (d.put (F.BED_BUFn_STAT_STATE n) 1).raise 0x0227 0x03 1 n g 1
    else d) d

/-- FABRIC routes the pairs (R46, R169): a FAILED pair stays FAILED. -/
def Dev.fabricApply (d : Dev) (l : List Section) : Dev :=
  let d1 := (upTo 36).foldl (fun d k =>
    let b := fabricOf l k
    if d.get (F.ENG_PAIRk_STATE k) == 4 then d
    else (d.put (F.ENG_PAIRk_STATE k) (if b == 0xFF then 0 else if b == 0xFE then 2 else 1)).put (F.ENG_PAIRk_PORT k) (if b < 32 then b else 0)) d
  d1.countSpares

/-- The pair that drives port p. -/
def Dev.pairOf (d : Dev) (p : Nat) : Option Nat :=
  (upTo 36).find? (fun k => d.get (F.ENG_PAIRk_STATE k) == 1 && d.get (F.ENG_PAIRk_PORT k) == p)

/-- The outputs of a port that FABRIC does not assign are driven idle (R151, R164). -/
def Dev.outputsIdle (d : Dev) (p : Nat) : Dev :=
  (d.updPrt p (fun x => { x with frame := [], xy2 := (0, 0), gate := false, edges := [], mod := 0, dac := 0 })).updEng p
    (fun e => { e with pre := [] })

/-- Port p after a rigging load: its pair, its hand-off state (R264), its link (R151, R158), its latency item (R214), what reads zero on a port
without an inbound frame (R141). `old` is the set before. -/
def Dev.portApply (d : Dev) (old l : List Section) (p : Nat) : Dev :=
  let mine := Machine.assigned l p
  let pair := d.pairOf p
  let d1 := (d.setFlag (F.BEAMn_PSTAT_ATTACHED p) (mine && pair.isSome)).put (F.BEAMn_PAIR_PAIR p) (match mine, pair with
    | true, some k => k
    | _, _ => 0x3F)
  let d2 := (d1.put (F.HND_Pn_STAT_STATE p) (if !mine then 5 else if d1.get (F.HND_Pn_STAT_STATE p) == 5 then (if (d1.prtOf p).dead then 4 else 0)
    else d1.get (F.HND_Pn_STAT_STATE p))).setFlag (F.BEAMn_TSTAT_XY2 p) (mine && isXY2 l p)
  let train := mine && !(isXY2 l p)
  let trained := Machine.assigned old p && !(isXY2 old p)
  let d3 := if train && trained then d2
    else { d2 with sns := { d2.sns with latSettled := d2.sns.latSettled.filter (· != p) } }
  let d4 := if train then d3
    else (((d3.put (F.BEAMn_LAT_TICKS p) 0).put (F.BEAMn_FE_MAX_X_FE p) 0).put (F.BEAMn_FE_MAX_Y_FE p) 0).updPrt p (fun x => { x with frame := [] })
  let d5 := if !mine then (d4.outputsIdle p).linkTo p 0
    else if isXY2 l p then d4.linkTo p 4
    else if trained && d4.get (F.BEAMn_PSTAT_LINK p) != 0 then d4
    else d4.linkClock p
  if mine && pair.isNone && d5.get (F.HND_Pn_STAT_STATE p) != 4 then d5.routeSpare p else d5.portBits p

/-- Temperature inputs (R339, R340): an input of type 0x00 holds its reset values; the others take P1 and P2 by their type. -/
def Dev.sensorApply (d : Dev) (l : List Section) : Dev :=
  (upTo 80).foldl (fun d t =>
    match tempType l t with
    | 1 => ((d.put (F.THM_INt_P1_VAL t) 0x3F810625).put (F.THM_INt_P2_VAL t) 0).updThmIn t (fun x => { x with prev := none })
    | 2 => ((d.put (F.THM_INt_P1_VAL t) 0x461C4000).put (F.THM_INt_P2_VAL t) 0x4556B000).updThmIn t (fun x => { x with prev := none })
    | _ => { d.clearRegs (0x300100 + 0x20 * t) (0x300120 + 0x20 * t) with thm := { d.thm with ins := tdel d.thm.ins t } }) d

/-- A beam that a load leaves without a sensor is neither blind nor at a level (R344, R351). -/
def Dev.beamBare (d : Dev) (l : List Section) (p : Nat) : Dev :=
  if tempType l (2 * p) == 0 && tempType l (2 * p + 1) == 0 then
    { ((((d.put (F.THM_Pn_STAT_LEVEL p) 0).setFlag (F.THM_Pn_STAT_SINGLE p) false).setFlag (F.THM_Pn_STAT_BLIND p) false).put
      (F.THM_Pn_STAT_BLIND_S p) 0).put (F.HND_Pn_STAT_SHED p) 0 with
      thm := { d.thm with beams := (tfind d.thm.beams p).elim d.thm.beams (fun b => tput d.thm.beams p { b with blindAt := none }) } }
  else d

/-- An encoder input of role 0x00 holds its reset values (R273); it is lost no longer, nor is it to the compare units on it (R285). -/
def Dev.encClear (d : Dev) (e : Nat) : Dev :=
  let d1 := (d.cmpsOn e).foldl (fun d k => d.setFlag (F.QE_CMPk_STAT_SRC_LOST k) false) d
  { d1.clearRegs (0x2E0000 + 0x40 * e) (0x2E0040 + 0x40 * e) with encs := tdel d1.encs e }

/-- Encoder inputs of role 0x00 hold their reset values (R273); an axis whose feedback input is gone is disabled. -/
def Dev.encoderApply (d : Dev) (l : List Section) : Dev :=
  let d1 := (upTo 8).foldl (fun d e => if encRole l e == 0 then d.encClear e else d) d
  (upTo 4).foldl (fun d a => if d.flag (F.AXSa_CTRL_EN a) && (axisInput l a).isNone then d.axisOff a else d) d1

/-- A full image goes live (R63, R64). `source` is 1 slot A, 2 slot B, 3 PCIe. The first load after a reset changes no mirroring, since none
was in force before it: buffers that were FILLING go on (R92; log entry 129). -/
def Dev.rigApply (d : Dev) (x : Staged) : Dev :=
  let old := d.rig.live
  let l := x.secs
  let d1 := (d.raise 0x0100 0x02 0 x.imgId.toNat x.generation.toNat x.toolVer.toNat).rigDiff old l true
  let d2 := { d1 with rig := { d1.rig with live := l, prev := none, armed := none, latched := none, staged := none }, pins := [] }
  let d3 := (((((d2.put F.RIG_STAT_STATE 2).put F.RIG_STAT_SOURCE x.source).put F.RIG_ID_IMG_ID x.imgId.toNat).put F.RIG_GEN_GENERATION
    x.generation.toNat).put F.RIG_CRC_IMG_CRC x.imgCrc.toNat).put F.RIG_PATCH_CODE_LEN (patchLen l)
  let d4 := ((d3.oldSetBit).setFlag F.DDR_STAT_MIRROR (mirrorOf l)).put F.GLK_NODE_NODE (nodeOf l)
  let d5 := (d4.buffersBack (!old.isEmpty && mirrorOf old != mirrorOf l)).fabricApply l
  let d6 := (upTo d5.variant.ports).foldl (fun d p => d.portApply old l p) d5
  let d7 := (((upTo d6.variant.ports).foldl (fun d p => d.beamBare l p) (d6.sensorApply l)).rangeLive d).encoderApply l
  let d8 := if d7.flag F.LED_CTRL_EN then d7
    else ({ d7 with led := { d7.led with light := d7.lightNow } }).setFlag F.LED_STAT_FITTED (byteAt d7.lightNow 0 != 0)
  let d9 := (upTo d8.variant.ports).foldl (fun d p => d.updLoop p (fun e => { e.start with loop := payOf l 0x30 p })) d8
  ((upTo 4).foldl (fun d p => d.glkWake p) d9).reachBits.judgeRole false

/-! ## The commands (R62, R63) -/

/-- The conditions of RUNNING (R63). -/
def Dev.rigRunning (d : Dev) : Bool :=
  d.rigged && (d.get F.BED_STAT_PHASE != 0 || (upTo 16).any (fun n => [3, 4, 5].contains (d.get (F.BED_BUFn_STAT_STATE n))))

/-- A rigging command of the other lane runs still: its completion has not been placed yet (R401, R403; log entry 118). -/
def Dev.rigRuns (d : Dev) (l : Lane) : Bool :=
  (match l with
   | .flash => tget [] d.hst.finished (laneIx .load)
   | _ => tget [] d.hst.finished (laneIx .flash)).any (fun c => !c.dup && (c.op == 0x10 || c.op == 0x11 || c.op == 0x13))

/-- For a command of lane l (R63): a swap is armed or latched, or another rigging command runs. -/
def Dev.rigBusy (d : Dev) (l : Lane) : Bool := d.rig.armed.isSome || d.rig.latched.isSome || d.rig.staged.isSome || d.rigRuns l

/-- The image that a command offers: at most 4 MB is copied to the staging area; an unreadable one offers nothing. -/
def State.stage (s : State) (addr : DWord) (len : Word) : State × List Byte :=
  let r := s.imageRead addr.toNat (min len.toNat 4194304)
  (r.1, if r.2.2 then r.2.1 else [])

/-- A checked full image with its header values. -/
def stagedOf (secs : List Section) (img : List Byte) (source back : Nat) (tag : Word) : Staged :=
  { secs := secs, imgId := f32At img 0x10, generation := f32At img 0x14, toolVer := f32At img 0x1C,
    imgCrc := f32At img (leAt img 8 4 - 4), source := source, back := back, tag := tag }

/-- RIG_LOAD (R63): RUNNING, then BUSY; the check; the image waits to be applied, with STATE LOADING. -/
def State.rigLoad (s : State) (tag : Word) (addr : DWord) (len : Word) : State × Option (Res × DWord) :=
  if !(aligned16 addr) then (s, some (.param, 0))
  else if s.dev.rigRunning then (s, some (.running, 0))
  else if s.dev.rigBusy .load then (s, some (.busy, 0))
  else
    let r := s.stage addr len
    match rigValidate s.dev.variant.ports 0 r.1.dev.rig.live r.2 with
    | .error e => (r.1.onDev (fun d => d.rigRefuse e 2 r.2), some (.refused, 0))
    | .ok secs =>
      let back := r.1.dev.get F.RIG_STAT_STATE
      (r.1.onDev (fun d => ({ d with rig := { d.rig with staged := some (stagedOf secs r.2 3 back tag) } }).put F.RIG_STAT_STATE 1), none)

/-- RIG_LOAD (R63). -/
def execRigLoad (tag : Word) (addr : DWord) (len : Word) (s : State) : Host.Outcome State Fault Refusal :=
  .next (s.commandStart .load 0x10 tag [0x10#32, tag, addr.setWidth 32, (addr >>> 32).setWidth 32, len] (fun s => s.rigLoad tag addr len))

/-- RIG_IMAGE_APPLY (R63): once no seal runs, the conditions of RUNNING are judged again and the image applied. While the supervisor
restarts the image waits in the staging area: the check is repeated after the restart, with the same result, and the command completes
late (R65). -/
def Dev.imageApply (d : Dev) : Dev :=
  match d.rig.staged with
  | none => d
  | some x =>
    if d.bar.sealing.isSome || decide (d.sys.sup ≠ .running) then d
    else
      let d1 := d.put F.RIG_STAT_STATE x.back
      let was := { d1 with rig := { d1.rig with staged := none } }
      if was.rigRunning then was.finish .load 0x10 x.tag Res.running.code 0
      else (was.rigApply x).finish .load 0x10 x.tag Res.ok.code 0

/-- RIG_IMAGE_APPLY (R63). -/
def execRigImageApply (s : State) : Host.Outcome State Fault Refusal := .next (s.onDev (fun d => d.imageApply))

/-- A checked swap is armed, or goes live at once while the Control Bar is IDLE (R66). -/
def Dev.swapArm (d : Dev) (w : Swap) : Dev × Res :=
  if d.get F.BED_STAT_PHASE == 0 then ((d.swapLive w false).retestJoin, .ok)
  else
    let d1 := (({ d with rig := { d.rig with armed := some w, armTick := d.tick } }).put F.RIG_STAT_STATE 3).put F.RIG_SWAP_ID_IMG_ID w.imgId.toNat
    (if d1.lateWindow then d1.setFlag F.RIG_STAT_LATE true else d1, .armed)

/-- RIG_SWAP (R63, R66). -/
def State.rigSwap (s : State) (addr : DWord) (len : Word) : State × Res × DWord :=
  if !(aligned16 addr) then (s, .param, 0)
  else if s.dev.rigBusy .load then (s, .busy, 0)
  else
    let r := s.stage addr len
    match rigValidate s.dev.variant.ports 1 r.1.dev.rig.live r.2 with
    | .error e => (r.1.onDev (fun d => d.rigRefuse e 3 r.2), .refused, 0)
    | .ok secs =>
      let w := r.1.dev.swapArm ⟨f32At r.2 0x10, secs⟩
      ({ r.1 with dev := w.1 }, w.2, 0)

/-- RIG_SWAP (R66). -/
def execRigSwap (tag : Word) (addr : DWord) (len : Word) (s : State) : Host.Outcome State Fault Refusal :=
  .next (s.command .load 0x11 tag (fun s => s.rigSwap addr len))

/-- RIG_CANCEL (R63): LATCHED after the swap has been latched, NONE with no swap armed. -/
def Dev.rigCancel (d : Dev) : Dev × Res :=
  if d.rig.latched.isSome then (d, .latched)
  else match d.rig.armed with
  | some _ =>
    ((({ d with rig := { d.rig with armed := none } }).put F.RIG_STAT_STATE 2).put F.RIG_SWAP_ID_IMG_ID d.rig.prevSwap.toNat, .ok)
  | none => (d, .none)

/-- RIG_CANCEL (R63). -/
def execRigCancel (tag : Word) (s : State) : Host.Outcome State Fault Refusal :=
  .next (s.command .ctrl 0x12 tag (fun s => ({ s with dev := s.dev.rigCancel.1 }, s.dev.rigCancel.2, 0)))

/-- RIG_PROGRAM (R62, R63): the slot counts as being written until the command completes. `good` says that the read-back agreed. Where it did not, what the slot holds is open: the image or nothing that
passes. -/
def State.rigProgram (s : State) (addr : DWord) (len slot : Word) (good : Bool) : State × Res × DWord :=
  if !(aligned16 addr) || decide (1 < slot.toNat) then (s, .param, 0)
  else if s.dev.rigBusy .flash then (s, .busy, 0)
  else
    let r := s.stage addr len
    match rigValidate s.dev.variant.ports 0 r.1.dev.rig.live r.2 with
    | .error e => (r.1.onDev (fun d => d.rigRefuse e 4 r.2), .refused, 0)
    | .ok _ =>
      let img := r.2.take (leAt r.2 8 4)
      let keep := fun (d : Dev) (b : List Byte) => { d with rig := { d.rig with slots := tput d.rig.slots slot.toNat b, prog := some slot.toNat } }
      if good then (r.1.onDev (fun d => keep d img), .ok, 0)
      else (r.1.onDev (fun d => keep d.free.2 (if d.free.1 % 2 == 0 then img else [])), .flashFail, 0)

/-- RIG_PROGRAM (R62). -/
def execRigProgram (tag : Word) (addr : DWord) (len slot : Word) (good : Bool) (s : State) : Host.Outcome State Fault Refusal :=
  .next (s.command .flash 0x13 tag (fun s => s.rigProgram addr len slot good))

/-! ## Start-up (R60, R411) -/

/-- A slot's image as the checks leave it. -/
def Dev.slotCheck (d : Dev) (i : Nat) : Except RigErr (List Section) := rigValidate d.variant.ports 0 [] (tget [] d.rig.slots i)

/-- The image of slot i goes live. -/
def Dev.slotApply (d : Dev) (i : Nat) (secs : List Section) : Dev := d.rigApply (stagedOf secs (tget [] d.rig.slots i) (i + 1) 0 0)

/-- Only slot i passes (R60): FALLBACK and 0x0106, with the check that refused the other. -/
def Dev.slotOnly (d : Dev) (i : Nat) (secs : List Section) (e : RigErr) : Dev :=
  let img := tget [] d.rig.slots i
  (((d.rigRefuse e (1 - i) (tget [] d.rig.slots (1 - i))).slotApply i secs).setFlag F.RIG_STAT_FALLBACK true).raise 0x0106 0x02 2 (i + 1) e.check
    (leAt img 0x14 4)

/-- RIG_FLASH_LOAD (R60, R411): the passing slot with the later GENERATION is loaded, slot A where they are equal; with none the device stays
UNRIGGED, with attention RIGGING. STATE, LOADING since the boot (R69), shows the outcome. PHASE becomes CALIBRATE. -/
def Dev.flashLoad (d : Dev) : Dev :=
  if d.get F.HST_STAT_PHASE != 2 || d.rigged then d
  else
    let d1 := match d.slotCheck 0, d.slotCheck 1 with
      | .ok a, .ok b =>
        if later32 (f32At (tget [] d.rig.slots 1) 0x14) (f32At (tget [] d.rig.slots 0) 0x14) then d.slotApply 1 b else d.slotApply 0 a
      | .ok a, .error e => d.slotOnly 0 a e
      | .error e, .ok b => d.slotOnly 1 b e
      | .error e, .error f => (((d.rigRefuse e 0 (tget [] d.rig.slots 0)).rigRefuse f 1 (tget [] d.rig.slots 1)).put F.RIG_STAT_STATE 0).attn .rigging
    d1.put F.HST_STAT_PHASE 3

/-- RIG_FLASH_LOAD (R60). -/
def execRigFlashLoad (s : State) : Host.Outcome State Fault Refusal := .next (s.onDev (fun d => d.flashLoad))

end Sys2Proof.Machine
end

