-- ==== Sys2Proof/Machine/SelfTest.lean ====
section
/-! DEFINITION. Self-test slices (15_selftest_recorder.md R366 to R372) and the periodic telemetry records (R388, R389). -/

namespace Sys2Proof.Machine

/-! ## Targets (R366, R372) -/

/-- Type and target index of a slice, as BIST_LAST gives them (R391). -/
def Slice.codes : Slice → Nat × Nat
  | .pairLogic k => (1, k.val)
  | .loopLogic k => (2, k.val)
  | .pd c => (3, c.val)
  | .dac p => (4, p.val)
  | .temp t => (5, t.val)
  | .sdcmp p b => (6, 2 * p.val + b2n b)
  | .enc e => (7, e.val)

/-- Planned length of a slice in cycles of its clock (R366). -/
def Slice.planned : Slice → Nat
  | .pairLogic _ => 65536
  | .loopLogic _ => 32768
  | .pd _ => 8192
  | .dac _ => 16384
  | .temp _ => 60800
  | .sdcmp _ _ => 5760
  | .enc _ => 20480

/-- Types 0x1 and 0x2 form the digital group (R367). -/
def Slice.digital : Slice → Bool
  | .pairLogic _ => true
  | .loopLogic _ => true
  | _ => false

/-- The rotation of the digital group (R372). -/
def digTargets : List Slice := (List.finRange 36).flatMap (fun k => [Slice.pairLogic k, Slice.loopLogic k])

/-- The rotation of the analogue group (R372). -/
def anaTargets : List Slice :=
  (List.finRange 64).map Slice.pd ++ (List.finRange 32).map Slice.dac ++ (List.finRange 80).map Slice.temp ++
  (List.finRange 32).flatMap (fun p => [Slice.sdcmp p false, Slice.sdcmp p true]) ++ (List.finRange 8).map Slice.enc

/-- The rotation of a slice's group. -/
def groupTargets (dig : Bool) : List Slice := if dig then digTargets else anaTargets

/-- A target is not disabled under R3. -/
def Dev.sliceFitted (d : Dev) (t : Slice) : Bool :=
  let n := d.variant.ports
  match t with
  | .pairLogic k => n == 32 || decide (k.val < 18)
  | .loopLogic k => n == 32 || decide (k.val < 18)
  | .pd c => decide (c.val < 2 * n)
  | .dac p => decide (p.val < n)
  | .temp i => decide (i.val < 2 * n) || decide (64 ≤ i.val)
  | .sdcmp p _ => decide (p.val < n)
  | .enc _ => true

/-- The port has no running path and none dealt or to be taken over, its gate is closed, and it does not spot (R367). -/
def Dev.portQuiet (d : Dev) (p : Nat) : Bool :=
  (d.runOf p).isNone && (d.engOf p).queue.isEmpty && (d.tkoFor p).isNone && !(d.prtOf p).gate && !(d.gateNow p) && (tfind d.sns.obs p).isNone

/-- A pair is SPARE, or its port is quiet; a pair that is UNUSED or FAILED takes no slice (R367). -/
def Dev.pairRests (d : Dev) (k : Nat) : Bool :=
  let st := d.get (F.ENG_PAIRk_STATE k)
  st != 0 && st != 4 && (st == 2 || d.portQuiet (d.get (F.ENG_PAIRk_PORT k)))

/-- The conditions of R367 on the target, as the state shows them. When the next conversion of a temperature input falls is not held: a slice
of type 0x5 or 0x6 is started only where it is far enough away. -/
def Dev.sliceMay (d : Dev) (t : Slice) : Bool :=
  d.sliceFitted t && d.background && d.flag (if Slice.digital t then F.BIST_CTRL_DEN else F.BIST_CTRL_AEN) &&
  (match t with
   | .pairLogic k => d.pairRests k.val
   | .loopLogic k => d.pairRests k.val
   | .pd c => d.portQuiet (c.val / 2)
   | .dac p => d.portQuiet p.val
   | .temp _ => true
   | .sdcmp _ _ => true
   | .enc e => !(d.encInUse e.val))

/-- The rotation may pass this target over without the state showing why (R367, R372). -/
def Slice.byTime : Slice → Bool
  | .temp _ => true
  | .sdcmp _ _ => true
  | _ => false

/-- The place of a group's rotation. -/
def Dev.sliceAt (d : Dev) (dig : Bool) : Nat := if dig then d.bist.digAt else d.bist.anaAt

/-- The targets of a group in the order in which they are taken: those taken again, then the rotation (R370 to R372). -/
def Dev.sliceOrder (d : Dev) (dig : Bool) : List Slice :=
  let l := groupTargets dig
  d.bist.again.filter (fun t => Slice.digital t == dig) ++ l.drop (d.sliceAt dig) ++ l.take (d.sliceAt dig)

/-- Every target ahead of t in its group fails its conditions. -/
def Dev.sliceTurn (d : Dev) (t : Slice) : Bool :=
  let l := d.sliceOrder (Slice.digital t)
  l.contains t && (l.takeWhile (fun x => decide (x ≠ t))).all (fun x => Slice.byTime x || !(d.sliceMay x))

/-! ## Starts and skips (R367) -/

/-- The slice that runs in a group. -/
def Dev.groupRun (d : Dev) (dig : Bool) : Option Slice := if dig then d.bist.dig else d.bist.ana

/-- The slice that runs in a group becomes s. -/
def Dev.setGroup (d : Dev) (dig : Bool) (s : Option Slice) : Dev :=
  if dig then ({ d with bist := { d.bist with dig := s } }).setFlag F.BIST_STAT_DRUN s.isSome
  else ({ d with bist := { d.bist with ana := s } }).setFlag F.BIST_STAT_ARUN s.isSome

/-- A due slice is skipped (R367): counted, and recorded at most once per 1 s. -/
def Dev.sliceSkip (d : Dev) (coreUv : Nat) (clkPpb : Int) : Dev :=
  let d1 := (d.bump F.BIST_SKIPPED_COUNT).setFlag F.BIST_STAT_SKIP true
  let n := d.bist.skips + 1
  let due := match d.bist.skipAt with
    | some t => decide (1000000000 ≤ elapsed64 d.time t)
    | none => true
  if due then ({ d1 with bist := { d1.bist with skips := 0, skipAt := some d.time } }).raise 0x0C02 0x0B 1 n (coreUv / 1000)
    (trunc 32 (clkPpb / 1000))
  else { d1 with bist := { d1.bist with skips := n } }

/-- The target leaves the list of those taken again, or the rotation passes on behind it. -/
def Dev.sliceTaken (d : Dev) (t : Slice) : Dev :=
  if d.bist.again.contains t then { d with bist := { d.bist with again := d.bist.again.filter (fun x => decide (x ≠ t)) } }
  else
    let l := groupTargets (Slice.digital t)
    let i := ((l.takeWhile (fun x => decide (x ≠ t))).length + 1) % l.length
    if Slice.digital t then { d with bist := { d.bist with digAt := i } } else { d with bist := { d.bist with anaAt := i } }

/-- SLICE_START (R367): the target whose turn it is; skipped where only a monitor is outside its window. -/
def Dev.sliceStart (d : Dev) (t : Slice) (coreUv : Nat) (clkPpb : Int) : Dev :=
  if (d.groupRun (Slice.digital t)).isNone && d.sliceMay t && d.sliceTurn t then
    if monitorsGood coreUv clkPpb then (d.sliceTaken t).setGroup (Slice.digital t) (some t) else d.sliceSkip coreUv clkPpb
  else d

/-- SLICE_START (R367). -/
def execSliceStart (t : Slice) (coreUv : Nat) (clkPpb : Int) (s : State) : Host.Outcome State Fault Refusal :=
  .next (s.onDev (fun d => d.sliceStart t coreUv clkPpb))

/-! ## Results (R370, R371) -/

/-- An output looped back lies within 0.1 % of full scale of the correction table (R366): the code that the table of R218 gives for that output is the
code that was driven. -/
def Dev.dacNear (d : Dev) (p : Nat) (code : Int) (out : Meas) : Bool :=
  let w := (clampI 0 65535 (fracRne (fracMul (measVal out) (fracI 65535)))).toNat
  decide (((d.dacCode p w : Int) - code).natAbs * 1000 ≤ 65535)

/-- Two values differ by no more than a tolerance. -/
def fracWithin (a b tol : Frac) : Bool := fracLe (fracAbs (fracSub a b)) tol

/-- The check of a slice holds (R366). A photodiode's offset is compared with the live one, its reading at 50 % of full scale with what the live
offset and GCAL predict, a DAC's outputs with the live table, the internal reference with the live correction (log entry 146). -/
def Dev.sliceHolds (d : Dev) (t : Slice) (c : SliceCheck) : Bool :=
  match t, c with
  | .pairLogic _, .signature got rom => got == rom
  | .loopLogic _, .signature got rom => got == rom
  | .pd k, .pd dark half =>
    let ofs := frac (d.get (F.SNS_CHc_OFS_OFS k.val)) 16
    let mid := frac 65535 2
    fracWithin (measVal dark) ofs (fracI 16) &&
      fracWithin (fracMul (fracSub (measVal half) ofs) (fracOfF32 (d.getW (F.SNS_CHc_GCAL_VAL k.val)))) mid (fracMul mid (frac 1 100))
  | .dac p, .dac low mid high => d.dacNear p.val 0 low && d.dacNear p.val 32768 mid && d.dacNear p.val 65535 high
  | .temp i, .temp fix => fracWithin (measVal fix) (frac (tget 0 d.sns.tempFix i.val) 16) (fracI 1)
  | .sdcmp _ _, .comparator above below => above.1 && above.2 && !below.1 && !below.2
  | .enc _, .enc moved illegal => moved == 0 && illegal == 0
  | _, _ => false

/-- The state restored after the slice is the one saved before it (R368). -/
def sliceRestored (r : SliceResult) : Bool := r.saved == r.restored

/-- The bit that BIST_FAIL_PAIR0, BIST_FAIL_PAIR1 or BIST_FAIL_CMP holds for a target. -/
def Dev.failBit (d : Dev) (t : Slice) (b : Bool) : Dev :=
  match t with
  | .pairLogic k => if k.val < 32 then d.setBit F.BIST_FAIL_PAIR0_PAIRS k.val b else d.setBit F.BIST_FAIL_PAIR1_PAIRS (k.val - 32) b
  | .loopLogic k => if k.val < 32 then d.setBit F.BIST_FAIL_PAIR0_PAIRS k.val b else d.setBit F.BIST_FAIL_PAIR1_PAIRS (k.val - 32) b
  | .sdcmp p c => d.setBit (if c then F.BIST_FAIL_CMP1_CMP else F.BIST_FAIL_CMP0_CMP) p.val b
  | _ => d

/-- The slice stops and BIST_LAST takes its result: 1 PASS, 2 FAIL, 3 INCOMPLETE. -/
def Dev.sliceStop (d : Dev) (t : Slice) (res : Nat) : Dev :=
  (((d.setGroup (Slice.digital t) none).put F.BIST_LAST_TYPE (Slice.codes t).1).put F.BIST_LAST_TARGET (Slice.codes t).2).put F.BIST_LAST_RESULT res

/-- Every target that a slice can run on has a PASS or FAIL since the round began (R372). -/
def Dev.roundDone (d : Dev) : Bool :=
  (digTargets ++ anaTargets).all (fun t => d.bist.done.contains t || !(d.sliceFitted t) || (match t with
    | .pairLogic k => d.get (F.ENG_PAIRk_STATE k.val) == 0 || d.get (F.ENG_PAIRk_STATE k.val) == 4
    | .loopLogic k => d.get (F.ENG_PAIRk_STATE k.val) == 0 || d.get (F.ENG_PAIRk_STATE k.val) == 4
    | _ => false))

/-- A PASS or FAIL counts for the round, which ends with the last one (R372). -/
def Dev.roundNote (d : Dev) (t : Slice) (failed : Bool) : Dev :=
  let d1 := { d with bist := { d.bist with
    done := if d.bist.done.contains t then d.bist.done else d.bist.done ++ [t], fails := d.bist.fails + b2n failed } }
  if d1.roundDone then
    let ms := (elapsed64 d1.time d1.bist.roundAt) / 1000000
    let d2 := (d1.put F.BIST_ROUND_MS ms).raise 0x0C03 0x0B 0 ms d1.bist.fails d1.bist.incs
    { d2 with bist := { d2.bist with done := [], fails := 0, incs := 0, roundAt := d2.time } }
  else d1

/-- The 0x0C00 event of a FAIL (R371). -/
def Dev.failEvent (d : Dev) (t : Slice) (sev : Nat) (r : SliceResult) : Dev :=
  d.raise 0x0C00 0x0B sev ((Slice.codes t).1 + 16 * (Slice.codes t).2) r.value.toNat (b2n (!sliceRestored r))

/-- A comparator has failed twice in a row, or both of a beam have (R371): the latch is set and the beam handled as under R347. The input and
the reading of its event are free values. -/
def Dev.cmpLatch (d : Dev) (m : Dram) (p : Nat) : Dev :=
  let d1 := d.updThmBeam p (fun b => { b with cmp := [0, 1] })
  if d1.flag (F.THM_Pn_STAT_LATCH p) then d1
  else
    let a := d1.free
    let b := a.2.free
    let d2 := (b.2.latchSet p none).bump F.THM_SHUTDOWNS_COUNT
    (d2.raise 0x0A02 0x09 5 p (a.1 % 2 ^ 32) (b.1 % 2 ^ 32)).portFault m p 5 (2 ^ 11) 5 d2.tick

/-- A FAIL (R371). -/
def Dev.sliceFail (d : Dev) (m : Dram) (t : Slice) (r : SliceResult) : Dev :=
  let twice := d.bist.failed.contains t
  let d1 := ((d.sliceStop t 2).bump F.BIST_FAILS_COUNT).setFlag F.BIST_STAT_FAIL true
  let d2 := { d1 with bist := { d1.bist with failed := if twice then d1.bist.failed else d1.bist.failed ++ [t] } }
  let d3 := match t with
    | .pairLogic k => ((d2.failBit t true).failEvent t 4 r).pairFail m k.val .slice
    | .loopLogic k => ((d2.failBit t true).failEvent t 4 r).pairFail m k.val .slice
    | .sdcmp p c =>
      let e := (d2.failBit t true).failEvent t 3 r
      if twice || d.bist.failed.contains (.sdcmp p (!c)) then e.cmpLatch m p.val else e
    | _ =>
      if twice then (d2.setFlag F.BIST_STAT_AFAIL true).failEvent t 3 r
      else { d2 with bist := { d2.bist with again := d2.bist.again ++ [t] } }
  d3.roundNote t true

/-- A PASS (R370, R371). -/
def Dev.slicePass (d : Dev) (t : Slice) : Dev :=
  let d1 := ((d.sliceStop t 1).bump F.BIST_PASS_COUNT).failBit t false
  let d2 := { d1 with bist := { d1.bist with failed := d1.bist.failed.filter (fun x => decide (x ≠ t)) } }
  let d3 := match t with
    | .sdcmp p c => d2.updThmBeam p.val (fun b => { b with cmp := b.cmp.filter (· != b2n c) })
    | _ => d2
  d3.roundNote t false

/-- An INCOMPLETE (R370): counted, and its target is taken again ahead of the rotation. -/
def Dev.sliceIncomplete (d : Dev) (t : Slice) (cycles cause : Nat) : Dev :=
  let d1 := ((d.sliceStop t 3).bump F.BIST_INCOMPLETE_COUNT).setFlag F.BIST_STAT_INCOMP true
  ({ d1 with bist := { d1.bist with again := d1.bist.again ++ [t], incs := d1.bist.incs + 1 } }).raise 0x0C01 0x0B 0
    ((Slice.codes t).1 + 16 * (Slice.codes t).2) cycles cause

/-- SLICE_END (R370): the cycle counter is judged before the check and the restore. The cause of a counter that differs at the slice's own end is
a free value. -/
def Dev.sliceEnd (d : Dev) (m : Dram) (t : Slice) (r : SliceResult) : Dev :=
  if d.groupRun (Slice.digital t) != some t then d
  else if r.cycles != Slice.planned t then
    let v := d.free
    v.2.sliceIncomplete t r.cycles (v.1 % 2 ^ 32)
  else if d.sliceHolds t r.check && sliceRestored r then d.slicePass t
  else d.sliceFail m t r

/-- SLICE_END (R370). -/
def execSliceEnd (t : Slice) (r : SliceResult) (s : State) : Host.Outcome State Fault Refusal :=
  .next (s.runDev (fun d m => d.sliceEnd m t r))

/-- The cause of 0x0C01 (R390). -/
def SliceCause.code : SliceCause → Nat
  | .path => 1
  | .monitor => 2
  | .target => 3

/-- SLICE_ABORT (R369, R370): a slice that is stopped before its planned length is INCOMPLETE. -/
def Dev.sliceAbort (d : Dev) (t : Slice) (cause : SliceCause) (cycles : Nat) : Dev :=
  if d.groupRun (Slice.digital t) == some t && cycles != Slice.planned t then d.sliceIncomplete t cycles (SliceCause.code cause) else d

/-- SLICE_ABORT (R369). -/
def execSliceAbort (t : Slice) (cause : SliceCause) (cycles : Nat) (s : State) : Host.Outcome State Fault Refusal :=
  .next (s.onDev (fun d => d.sliceAbort t cause cycles))

/-! ## Telemetry (R388, R389) -/

/-- The reading of a temperature input; 0x8000 where it is not converted (R389). -/
def Dev.telTemp (d : Dev) (t : Nat) : List Byte := leBytes 2 (if d.flag (F.THM_INt_VAL_VALID t) then d.get (F.THM_INt_VAL_TEMP t) else 0x8000)

/-- A count over a period, saturated to n bytes. -/
def telCount (n now before : Nat) : List Byte := leBytes n (min (now - before) (2 ^ (8 * n) - 1))

/-- The PORT record of port p (R389). -/
def Dev.telPort (d : Dev) (p : Nat) : Dev :=
  let x := tget telPort0 d.tel.ports p
  let body := [F.LOOPn_WCNT_SCHED_COUNT p, F.LOOPn_WCNT_MP_COUNT p, F.LOOPn_WCNT_CAP_COUNT p, F.LOOPn_WCNT_SRC_COUNT p,
      F.LOOPn_WCNT_OTHER_COUNT p].flatMap (fun f => leBytes 4 (d.get f)) ++
    d.telTemp (2 * p) ++ d.telTemp (2 * p + 1) ++ leBytes 2 (d.get (F.BEAMn_HEAD_TEMP p)) ++
    leBytes 1 (d.get (F.HND_Pn_STAT_STATE p) + 8 * d.get (F.HND_Pn_STAT_TAKING p) + 16 * d.get (F.HND_Pn_STAT_SHED p)) ++
    leBytes 1 (d.get (F.LOOPn_STAT_MP_LOST p) + 2 * d.get (F.LOOPn_STAT_SRC_LOST p) + 4 * d.get (F.LOOPn_STAT_MP_RAMP p) +
      8 * d.get (F.LOOPn_STAT_SRC_RAMP p)) ++
    telCount 2 (d.get (F.BEAMn_SL_BAD_COUNT p)) x.bad ++ telCount 2 (d.get (F.BEAMn_SL_MISS_COUNT p)) x.miss ++
    leBytes 4 (f32OfFr (d.joules p x.pwr)).toNat ++ leBytes 4 ((d.get (F.HND_Pn_DEALT_COUNT p) + 2 ^ 32 - x.dealt) % 2 ^ 32) ++
    leBytes 1 (d.get (F.BEAMn_SL_EYE_WIDTH_A p)) ++ leBytes 1 (d.get (F.BEAMn_SL_EYE_WIDTH_B p)) ++ leBytes 2 0
  let y : TelPort := { pwr := 0, dealt := d.get (F.HND_Pn_DEALT_COUNT p), bad := d.get (F.BEAMn_SL_BAD_COUNT p),
                       miss := d.get (F.BEAMn_SL_MISS_COUNT p) }
  let d1 := d.telRecord 1 p body
  { d1 with tel := { d1.tel with ports := tput d1.tel.ports p y } }

/-- The DEVICE record (R389). -/
def Dev.telDevice (d : Dev) : Dev :=
  let ce := d.get (F.DDR_CHc_CE_COUNT 0) + d.get (F.DDR_CHc_CE_COUNT 1)
  let body := leBytes 2 (d.get F.THM_DIE_CTRL_T) ++ leBytes 2 (d.get F.THM_DIE_EDGE_T) ++
    (upTo 16).flatMap (fun i => d.telTemp (64 + i)) ++ leBytes 4 (d.get F.GLK_PHASE_ERR) ++ leBytes 1 (d.get F.PTP_STAT_STATE) ++
    leBytes 1 (d.get F.GLK_STAT_ROLE) ++ telCount 2 ce d.tel.ce
  let d1 := d.telRecord 3 0xFF body
  { d1 with tel := { d1.tel with ce := ce } }

/-- TEL_PERIOD (R388): a PORT record for every port of the live FABRIC, and a DEVICE record. Telemetry pauses with the supervisor (R26). -/
def Dev.telPeriod (d : Dev) : Dev :=
  if d.background then ((portsInUse (d.sections false)).foldl (fun d p => d.telPort p) d).telDevice else d

/-- TEL_PERIOD (R388). -/
def execTelPeriod (s : State) : Host.Outcome State Fault Refusal := .next (s.runDev (fun d _ => d.telPeriod))

end Sys2Proof.Machine
end

