-- ==== Sys2Proof/Machine/Dispatch.lean ====
section
/-! DEFINITION. Which meaning each command has: one arm for each constructor of `Instr`. -/

namespace Sys2Proof.Machine

def exec (i : Instr) (s : State) : Host.Outcome State Fault Refusal :=
  match i with
  | .nop tag => Sys2Proof.Machine.execNop tag s
  | .hstReset tag key => Sys2Proof.Machine.execHstReset tag key s
  | .fence tag mask => Sys2Proof.Machine.execFence tag mask s
  | .fenceDrained => Sys2Proof.Machine.execFenceDrained s
  | .rigLoad tag addr len => Sys2Proof.Machine.execRigLoad tag addr len s
  | .rigImageApply => Sys2Proof.Machine.execRigImageApply s
  | .rigSwap tag addr len => Sys2Proof.Machine.execRigSwap tag addr len s
  | .rigCancel tag => Sys2Proof.Machine.execRigCancel tag s
  | .rigProgram tag addr len slot good => Sys2Proof.Machine.execRigProgram tag addr len slot good s
  | .rigFlashLoad => Sys2Proof.Machine.execRigFlashLoad s
  | .bufOpen tag n g => Sys2Proof.Machine.execBufOpen tag n g s
  | .bufSeal tag n g => Sys2Proof.Machine.execBufSeal tag n g s
  | .sealCheck => Sys2Proof.Machine.execSealCheck s
  | .bufDiscard tag n g => Sys2Proof.Machine.execBufDiscard tag n g s
  | .bufferRelease n => Sys2Proof.Machine.execBufferRelease n s
  | .coverCheck tag n g addr => Sys2Proof.Machine.execCoverCheck tag n g addr s
  | .bedCommit tag n g => Sys2Proof.Machine.execBedCommit tag n g s
  | .bedUncommit tag => Sys2Proof.Machine.execBedUncommit tag s
  | .bedAbort tag => Sys2Proof.Machine.execBedAbort tag s
  | .bedRecoated tag => Sys2Proof.Machine.execBedRecoated tag s
  | .corrLoad tag port addr len => Sys2Proof.Machine.execCorrLoad tag port addr len s
  | .loopLoad tag addr len => Sys2Proof.Machine.execLoopLoad tag addr len s
  | .axsLoad tag addr len => Sys2Proof.Machine.execAxsLoad tag addr len s
  | .logFetch tag start count addr => Sys2Proof.Machine.execLogFetch tag start count addr s
  | .mailboxWordWrite w v => Sys2Proof.Machine.execMailboxWordWrite w v s
  | .mailboxSubmit v => Sys2Proof.Machine.execMailboxSubmit v s
  | .commandComplete lane => Sys2Proof.Machine.execCommandComplete lane s
  | .hstCplPop v => Sys2Proof.Machine.execHstCplPop v s
  | .registerWrite addr v => Sys2Proof.Machine.execRegisterWrite addr v s
  | .bar0BadAccess addr size write => Sys2Proof.Machine.execBar0BadAccess addr size write s
  | .bar2Read off len => Sys2Proof.Machine.execBar2Read off len s
  | .bar2Write off data => Sys2Proof.Machine.execBar2Write off data s
  | .dmaHeadWrite c v => Sys2Proof.Machine.execDmaHeadWrite c v s
  | .dmaDescriptor c desc host => Sys2Proof.Machine.execDmaDescriptor c desc host s
  | .dmaDescriptorDone c => Sys2Proof.Machine.execDmaDescriptorDone c s
  | .fullReset cause => Sys2Proof.Machine.execFullReset cause s
  | .startupBoot cal bad => Sys2Proof.Machine.execStartupBoot cal bad s
  | .startupReady => Sys2Proof.Machine.execStartupReady s
  | .lockstepMismatch => Sys2Proof.Machine.execLockstepMismatch s
  | .supervisorRestartDone => Sys2Proof.Machine.execSupervisorRestartDone s
  | .bridgeFlitDiscard toCore chans => Sys2Proof.Machine.execBridgeFlitDiscard toCore chans s
  | .bridgeSilence => Sys2Proof.Machine.execBridgeSilence s
  | .controlDieBridgeSilence => Sys2Proof.Machine.execControlDieBridgeSilence s
  | .gpfEventInput g => Sys2Proof.Machine.execGpfEventInput g s
  | .commitHorizon => Sys2Proof.Machine.execCommitHorizon s
  | .prescan => Sys2Proof.Machine.execPrescan s
  | .bedBoundary => Sys2Proof.Machine.execBedBoundary s
  | .pairStart tile => Sys2Proof.Machine.execPairStart tile s
  | .prefetchUnderrun p => Sys2Proof.Machine.execPrefetchUnderrun p s
  | .remainderRequeue => Sys2Proof.Machine.execRemainderRequeue s
  | .verifyDone n tile => Sys2Proof.Machine.execVerifyDone n tile s
  | .qrecWrite n tile => Sys2Proof.Machine.execQrecWrite n tile s
  | .dealPath => Sys2Proof.Machine.execDealPath s
  | .tTick => Sys2Proof.Machine.execTTick s
  | .holdEnd p => Sys2Proof.Machine.execHoldEnd p s
  | .syncTimeout p => Sys2Proof.Machine.execSyncTimeout p s
  | .inboundFrame p bytes inWindow => Sys2Proof.Machine.execInboundFrame p bytes inWindow s
  | .missingFrame p => Sys2Proof.Machine.execMissingFrame p s
  | .slStartBitsSeen p => Sys2Proof.Machine.execSlStartBitsSeen p s
  | .slAlignDone p phA wA phB wB => Sys2Proof.Machine.execSlAlignDone p phA wA phB wB s
  | .slMeasureDone p m => Sys2Proof.Machine.execSlMeasureDone p m s
  | .slFaultExpire p => Sys2Proof.Machine.execSlFaultExpire p s
  | .slStartupTimeout p => Sys2Proof.Machine.execSlStartupTimeout p s
  | .laserSourceFault p => Sys2Proof.Machine.execLaserSourceFault p s
  | .pairFailure k cause => Sys2Proof.Machine.execPairFailure k cause s
  | .attachCheckDone k ok => Sys2Proof.Machine.execAttachCheckDone k ok s
  | .pTick samples => Sys2Proof.Machine.execPTick samples s
  | .rampEnd p b => Sys2Proof.Machine.execRampEnd p b s
  | .feedbackReentry p b => Sys2Proof.Machine.execFeedbackReentry p b s
  | .loopnYyArm p v => Sys2Proof.Machine.execLoopnYyArm p v s
  | .yoyoRunEnd p => Sys2Proof.Machine.execYoyoRunEnd p s
  | .loopnCapStart p v => Sys2Proof.Machine.execLoopnCapStart p v s
  | .captureEnd p => Sys2Proof.Machine.execCaptureEnd p s
  | .calibrationEnd => Sys2Proof.Machine.execCalibrationEnd s
  | .slewDone item => Sys2Proof.Machine.execSlewDone item s
  | .offsetTraceEstimate c => Sys2Proof.Machine.execOffsetTraceEstimate c s
  | .gainTraceEstimate c => Sys2Proof.Machine.execGainTraceEstimate c s
  | .stitchStoreWrite p => Sys2Proof.Machine.execStitchStoreWrite p s
  | .spotObservationStart p => Sys2Proof.Machine.execSpotObservationStart p s
  | .spotObservationComplete p => Sys2Proof.Machine.execSpotObservationComplete p s
  | .stitchSlewDone p => Sys2Proof.Machine.execStitchSlewDone p s
  | .camFrameStart m h => Sys2Proof.Machine.execCamFrameStart m h s
  | .camFrameEnd m h => Sys2Proof.Machine.execCamFrameEnd m h s
  | .camLinkTimeout m => Sys2Proof.Machine.execCamLinkTimeout m s
  | .camTrigger m => Sys2Proof.Machine.execCamTrigger m s
  | .cammTrigFire m v => Sys2Proof.Machine.execCammTrigFire m v s
  | .takeoverStart p => Sys2Proof.Machine.execTakeoverStart p s
  | .hndFtRelease hi v => Sys2Proof.Machine.execHndFtRelease hi v s
  | .shedStep p => Sys2Proof.Machine.execShedStep p s
  | .hoReqReceived src m => Sys2Proof.Machine.execHoReqReceived src m s
  | .hoGrantReceived src xid case start => Sys2Proof.Machine.execHoGrantReceived src xid case start s
  | .hoDenyReceived src xid reason => Sys2Proof.Machine.execHoDenyReceived src xid reason s
  | .hoGrantTimeout xid => Sys2Proof.Machine.execHoGrantTimeout xid s
  | .hoDataReceived src xid b => Sys2Proof.Machine.execHoDataReceived src xid b s
  | .hoProgReceived src xid seg segTick x y => Sys2Proof.Machine.execHoProgReceived src xid seg segTick x y s
  | .hoDoneReceived src m => Sys2Proof.Machine.execHoDoneReceived src m s
  | .hoAbortReceived src xid reason => Sys2Proof.Machine.execHoAbortReceived src xid reason s
  | .hoKeepReceived src xid => Sys2Proof.Machine.execHoKeepReceived src xid s
  | .ownerSilenceTimeout xid => Sys2Proof.Machine.execOwnerSilenceTimeout xid s
  | .remoteCoverLost xid => Sys2Proof.Machine.execRemoteCoverLost xid s
  | .hoStbyReceived src xid b => Sys2Proof.Machine.execHoStbyReceived src xid b s
  | .hoMarkReceived src xid seg segTick x y nHit hit => Sys2Proof.Machine.execHoMarkReceived src xid seg segTick x y nHit hit s
  | .hoStbyEndReceived src xid reason => Sys2Proof.Machine.execHoStbyEndReceived src xid reason s
  | .orphanTakeover xid => Sys2Proof.Machine.execOrphanTakeover xid s
  | .hoOrphanedReceived src xid cover seg => Sys2Proof.Machine.execHoOrphanedReceived src xid cover seg s
  | .glkFrameReceived p b more => Sys2Proof.Machine.execGlkFrameReceived p b more s
  | .glkMarker p m => Sys2Proof.Machine.execGlkMarker p m s
  | .neighbourLost p cause => Sys2Proof.Machine.execNeighbourLost p cause s
  | .helloReceived p h => Sys2Proof.Machine.execHelloReceived p h s
  | .routeReceived r => Sys2Proof.Machine.execRouteReceived r s
  | .timeReceived t => Sys2Proof.Machine.execTimeReceived t s
  | .overlapReceived o => Sys2Proof.Machine.execOverlapReceived o s
  | .digestReceived src recs => Sys2Proof.Machine.execDigestReceived src recs s
  | .glkPeriodicSend m => Sys2Proof.Machine.execGlkPeriodicSend m s
  | .glkPortStateAdvance p => Sys2Proof.Machine.execGlkPortStateAdvance p s
  | .glkPortStateTimeout p => Sys2Proof.Machine.execGlkPortStateTimeout p s
  | .ptpSync e raw gm => Sys2Proof.Machine.execPtpSync e raw gm s
  | .ptpMessage e m => Sys2Proof.Machine.execPtpMessage e m s
  | .ptpMasterLost => Sys2Proof.Machine.execPtpMasterLost s
  | .phaseSlewDone => Sys2Proof.Machine.execPhaseSlewDone s
  | .ptpAccept v => Sys2Proof.Machine.execPtpAccept v s
  | .ptpSnap v => Sys2Proof.Machine.execPtpSnap v s
  | .ddrTrainingDone c r => Sys2Proof.Machine.execDdrTrainingDone c r s
  | .retrainCheck c moved drift => Sys2Proof.Machine.execRetrainCheck c moved drift s
  | .retrainStep c ok coreUv clkPpb => Sys2Proof.Machine.execRetrainStep c ok coreUv clkPpb s
  | .retrainLate c => Sys2Proof.Machine.execRetrainLate c s
  | .dramRequest r e => Sys2Proof.Machine.execDramRequest r e s
  | .requestPromotion => Sys2Proof.Machine.execRequestPromotion s
  | .selfRefreshEntry c => Sys2Proof.Machine.execSelfRefreshEntry c s
  | .selfRefreshScrubWake c => Sys2Proof.Machine.execSelfRefreshScrubWake c s
  | .dramScrubStep ecc => Sys2Proof.Machine.execDramScrubStep ecc s
  | .sramScrubStep r addr ecc sourceOk => Sys2Proof.Machine.execSramScrubStep r addr ecc sourceOk s
  | .tempConversion t raw => Sys2Proof.Machine.execTempConversion t raw s
  | .shutdownReport p => Sys2Proof.Machine.execShutdownReport p s
  | .latchRelease p => Sys2Proof.Machine.execLatchRelease p s
  | .sensorRestore t => Sys2Proof.Machine.execSensorRestore t s
  | .blindLimitExpire p => Sys2Proof.Machine.execBlindLimitExpire p s
  | .dieTempRead d sensor reading => Sys2Proof.Machine.execDieTempRead d sensor reading s
  | .ledFrameStart => Sys2Proof.Machine.execLedFrameStart s
  | .ledLineSlot l weak ovr => Sys2Proof.Machine.execLedLineSlot l weak ovr s
  | .ledApply v => Sys2Proof.Machine.execLedApply v s
  | .ledEnWrite v => Sys2Proof.Machine.execLedEnWrite v s
  | .qeSample e n a b z lines => Sys2Proof.Machine.execQeSample e n a b z lines s
  | .qeMovingTimeout e => Sys2Proof.Machine.execQeMovingTimeout e s
  | .qeePreset e v => Sys2Proof.Machine.execQeePreset e v s
  | .qeeRearm e v => Sys2Proof.Machine.execQeeRearm e v s
  | .compareValueLive k => Sys2Proof.Machine.execCompareValueLive k s
  | .axsaEnWrite a v => Sys2Proof.Machine.execAxsaEnWrite a v s
  | .axsaGo a v => Sys2Proof.Machine.execAxsaGo a v s
  | .axsaStop a v => Sys2Proof.Machine.execAxsaStop a v s
  | .axsaBndgo a v => Sys2Proof.Machine.execAxsaBndgo a v s
  | .axisUpdate a => Sys2Proof.Machine.execAxisUpdate a s
  | .sliceStart t coreUv clkPpb => Sys2Proof.Machine.execSliceStart t coreUv clkPpb s
  | .sliceEnd t r => Sys2Proof.Machine.execSliceEnd t r s
  | .sliceAbort t cause cycles => Sys2Proof.Machine.execSliceAbort t cause cycles s
  | .eventRaise code src sev p1 p2 p3 => Sys2Proof.Machine.execEventRaise code src sev p1 p2 p3 s
  | .evrRingWrite w => Sys2Proof.Machine.execEvrRingWrite w s
  | .flashPersist o => Sys2Proof.Machine.execFlashPersist o s
  | .logFlashScan answers => Sys2Proof.Machine.execLogFlashScan answers s
  | .evrCursorWrite v => Sys2Proof.Machine.execEvrCursorWrite v s
  | .evrNext v => Sys2Proof.Machine.execEvrNext v s
  | .evrFreezeWrite v => Sys2Proof.Machine.execEvrFreezeWrite v s
  | .freezeExpire => Sys2Proof.Machine.execFreezeExpire s
  | .telPeriod => Sys2Proof.Machine.execTelPeriod s
  | .lsrOkChange p level => Sys2Proof.Machine.execLsrOkChange p level s
  | .camLongPacket m vc hdr dt payload crcOk => Sys2Proof.Machine.execCamLongPacket m vc hdr dt payload crcOk s
  | .pinPulseEnd g => Sys2Proof.Machine.execPinPulseEnd g s
  | .ptpPeriodicSend e m => Sys2Proof.Machine.execPtpPeriodicSend e m s
  | .ethLinkChange e up => Sys2Proof.Machine.execEthLinkChange e up s
  | .boundaryScanTck tms tdi trstN resetN => Sys2Proof.Machine.execBoundaryScanTck tms tdi trstN resetN s

end Sys2Proof.Machine
end

