-- ==== Sys2Proof/Safety.lean ====
section
/-! DEFINITION. What a safe run of the block is, and the words in which claims say what a command leaves alone. -/

namespace Sys2Proof.Safety

open Sys2Proof.Machine

/-- An outcome is a next state. -/
def completes (o : Host.Outcome State Fault Refusal) : Bool :=
  match o with
  | .next _ => true
  | .fault _ => false
  | .refused _ => false

/-- The invariant of a safe state: DRAM is in canonical form. -/
def Inv (s : State) : Prop := s.mem.wf = true

/-- Every register field outside `fs` reads as before. -/
def regsKeep (fs : List Fld) (d d' : Dev) : Prop := ∀ G : Fld, G.key ∉ fs.map Fld.key → d'.get G = d.get G

/-- The register fields that recording an event may change (R376 to R381): the counters and flags of the recorder and the
latched attention causes. -/
def recFlds : List Fld :=
  [F.EVR_MERGES_COUNT, F.EVR_DROPS_COUNT, F.EVR_STAT_DROP, F.EVR_STAT_LASTGASP, F.EVR_STAT_LG_COUNT, F.EVR_LG_LOST_COUNT,
   F.EVR_HEAD_SEQ, F.HST_ATTN_CAUSE]

/-- Only register fields of `fs` changed: nothing else of the device, no byte of DRAM, no waiting command. -/
def onlyRegs (fs : List Fld) (s t : State) : Prop :=
  t = { s with dev := { s.dev with regs := t.dev.regs } } ∧ regsKeep fs s.dev t.dev

/-- Only register fields of `fs` changed, and the recorder took in what was raised: nothing else of the device, no byte of
DRAM, no waiting command. -/
def onlyRegsRec (fs : List Fld) (s t : State) : Prop :=
  t = { s with dev := { s.dev with regs := t.dev.regs, evr := t.dev.evr } } ∧ regsKeep (recFlds ++ fs) s.dev t.dev

/-- The recorder stands as it does when device d records one event now (R376): code, SOURCE, severity and parameters. -/
def recorded (d d' : Dev) (code src sev p1 p2 p3 : Nat) : Prop := d'.evr = (d.raise code src sev p1 p2 p3).evr

end Sys2Proof.Safety
end

