-- ==== Sys2Proof/Certificates/Slice0/Obligations.lean ====
section
/-! DEFINITION. The statements for the provers, in the order of the chapters of the spec. -/

open Sys2Proof Sys2Proof.Machine Sys2Proof.Safety

/-! ## The queue, reset and the invariant -/

/-- A step runs the command at the front of the queue with the rest of the queue; with no command waiting the block idles (log
entry 1). -/
def Obligations.StepRunsFrontCommand : Prop :=
  (∀ (c : Instr) (rest : List Instr) (s : State), step { s with pending := c :: rest } = exec c { s with pending := rest }) ∧
  (∀ s : State, s.pending = [] → step s = .next s)

/-- What reset leaves (R406, R411, R412): start-up phase RESET, no rigging, Control Bar IDLE, every buffer FREE, every engine
position 0 (log entry 8), the recorder empty, a closed mailbox with nothing waiting and HRDY low, and memory in canonical form that
reads 0 (log entry 6). The pins show the states of R420 in reset: EMIT_EN and HRDY high-impedance, the DACs clamped, the lighting lines high-impedance. -/
def Obligations.ResetState : Prop :=
  Inv State.reset ∧ State.reset.pending = [] ∧ State.reset.dev.get F.HST_STAT_PHASE = 0 ∧
  State.reset.dev.get F.RIG_STAT_STATE = 0 ∧ State.reset.dev.get F.BED_STAT_PHASE = 0 ∧
  (∀ n : Fin 16, State.reset.dev.get (F.BED_BUFn_STAT_STATE n.val) = 0) ∧
  State.reset.dev.evr.fifo = [] ∧ State.reset.dev.evr.slots = [] ∧ State.reset.dev.evr.bank = [] ∧
  State.reset.dev.hst.free = false ∧ State.reset.dev.hst.queue = [] ∧ State.reset.dev.hst.cpl = [] ∧
  (∀ a : Nat, State.reset.mem.read a = 0) ∧ State.reset.dev.hrdy = false ∧
  (∀ p : Nat, (State.reset.dev.engOf p).x = 0 ∧ (State.reset.dev.engOf p).y = 0 ∧ (State.reset.dev.engOf p).f = 0) ∧
  (∀ k : Nat, k < 32 → State.reset.dev.pinState .emitEn k = .highZ ∧ State.reset.dev.pinState .dac k = .clamped) ∧
  State.reset.dev.pinState .hrdy 0 = .highZ ∧ (∀ k : Nat, State.reset.dev.pinState .ledLine k = .highZ)

/-- Every step from a state whose DRAM is in canonical form gives such a state. -/
def Obligations.StepKeepsMemoryCanonical : Prop := ∀ s t : State, Inv s → step s = .next t → Inv t

/-- No command stops the block, and no command touches the commands that wait. -/
def Obligations.ExecAnswersAndKeepsQueue : Prop :=
  ∀ (i : Instr) (s : State), ∃ t : State, exec i s = .next t ∧ t.pending = s.pending

/-! ## The mailbox (R400 to R405) -/

/-- Mailbox words below 15 (R400): with FREE 1 the word is kept and nothing else changes; with FREE 0 the write is dropped and
recorded as 0x0E04.
The write of word 15 (R400): it is recorded once as 0x0111; with room in the queue the contents move to it, every mailbox word
reads zero and FREE is 1 again; with 16 commands before it FREE stays 0 and the words stay. With FREE 0 it is dropped as 0x0E04.
A duplicate is not executed again (R402): a submitted command whose tag is remembered with a result completes with that result
and DUP; the queue is as before. -/
def Obligations.MailboxWordsSubmissionsDuplicates : Prop :=
  (∀ (w : Fin 15) (v : Word) (s : State),
     (s.dev.hst.free = true → ∃ t : State, exec (.mailboxWordWrite w v) s = .next t ∧ t.dev.hst.word w.val = v ∧
       (∀ j : Nat, j ≠ w.val → t.dev.hst.word j = s.dev.hst.word j) ∧
       t = { s with dev := { s.dev with hst := { s.dev.hst with mbx := t.dev.hst.mbx } } }) ∧
     (s.dev.hst.free = false → ∃ t : State, exec (.mailboxWordWrite w v) s = .next t ∧ onlyRegsRec [] s t ∧
       recorded s.dev t.dev 0x0E04 0x01 2 w.val v.toNat 0)) ∧
  (∀ (v : Word) (s : State),
     let words := (upTo 15).map s.dev.hst.word ++ [v]
     let op := (s.dev.hst.word 0).toNat % 256
     let tag := s.dev.hst.word 1
     (s.dev.hst.free = true → s.dev.hst.resetWait = none → s.dev.hst.known 0 tag = none → s.dev.hst.queued < 16 →
       ∃ t : State, exec (.mailboxSubmit v) s = .next t ∧
         t.dev.hst = { s.dev.hst with
           mbx := [], free := true, queue := s.dev.hst.queue ++ [⟨0, op, tag, words, mbxVerdict words⟩],
           remembered := rememberPut s.dev.hst.remembered ⟨0, tag, none⟩ } ∧
         (∀ j : Nat, t.dev.hst.word j = 0) ∧ recorded s.dev t.dev 0x0111 0x01 0 op tag.toNat (s.dev.hst.word 2).toNat ∧
         t = { s with dev := { s.dev with regs := t.dev.regs, evr := t.dev.evr, hst := t.dev.hst } } ∧
         regsKeep recFlds s.dev t.dev) ∧
     (s.dev.hst.free = true → s.dev.hst.known 0 tag = none → s.dev.hst.queued = 16 →
       ∃ t : State, exec (.mailboxSubmit v) s = .next t ∧ t.dev.hst.free = false ∧ t.dev.hst.queue = s.dev.hst.queue ∧
         t.dev.hst.word 15 = v ∧ (∀ j : Nat, j ≠ 15 → t.dev.hst.word j = s.dev.hst.word j) ∧
         recorded s.dev t.dev 0x0111 0x01 0 op tag.toNat (s.dev.hst.word 2).toNat) ∧
     (s.dev.hst.free = false → ∃ t : State, exec (.mailboxSubmit v) s = .next t ∧ onlyRegsRec [] s t ∧
       recorded s.dev t.dev 0x0E04 0x01 2 15 v.toNat 0)) ∧
  (∀ (v : Word) (s : State) (r : Remembered) (res : Nat) (val : DWord),
     s.dev.hst.free = true → s.dev.hst.resetWait = none → s.dev.hst.queued < 16 →
     s.dev.hst.known 0 (s.dev.hst.word 1) = some r → r.done = some (res, val) →
     ∃ t : State, exec (.mailboxSubmit v) s = .next t ∧ t.dev.hst.queue = s.dev.hst.queue ∧
       t.dev.hst.running = s.dev.hst.running ∧ t.dev.hst.free = true ∧
       tget [] t.dev.hst.finished (laneIx (opLane ((s.dev.hst.word 0).toNat % 256))) =
         tget [] s.dev.hst.finished (laneIx (opLane ((s.dev.hst.word 0).toNat % 256))) ++
           [⟨s.dev.hst.word 1, (s.dev.hst.word 0).toNat % 256, res, true, val⟩])

/-- Lane, opcode and tag of a mailbox command row (R405). -/
def mailboxRow : Instr → Option (Lane × Nat × Word)
  | .nop tag => some (.ctrl, 0x01, tag)
  | .hstReset tag _ => some (.ctrl, 0x02, tag)
  | .fence tag _ => some (.ctrl, 0x03, tag)
  | .rigLoad tag _ _ => some (.load, 0x10, tag)
  | .rigSwap tag _ _ => some (.load, 0x11, tag)
  | .rigCancel tag => some (.ctrl, 0x12, tag)
  | .rigProgram tag _ _ _ _ => some (.flash, 0x13, tag)
  | .bufOpen tag _ _ => some (.buf, 0x20, tag)
  | .bufDiscard tag _ _ => some (.buf, 0x22, tag)
  | .coverCheck tag _ _ _ => some (.buf, 0x23, tag)
  | .bedCommit tag _ _ => some (.ctrl, 0x30, tag)
  | .bedUncommit tag => some (.ctrl, 0x31, tag)
  | .bedAbort tag => some (.ctrl, 0x32, tag)
  | .bedRecoated tag => some (.ctrl, 0x33, tag)
  | .corrLoad tag _ _ _ => some (.load, 0x40, tag)
  | .loopLoad tag _ _ => some (.load, 0x41, tag)
  | .axsLoad tag _ _ => some (.load, 0x42, tag)
  | .logFetch tag _ _ _ => some (.flash, 0x50, tag)
  | _ => none

/-- A mailbox command with a parameter out of its range (R404). -/
def badParam : Instr → Bool
  | .rigLoad _ addr _ => !(aligned16 addr)
  | .rigSwap _ addr _ => !(aligned16 addr)
  | .rigProgram _ addr _ slot _ => !(aligned16 addr) || decide (1 < slot.toNat)
  | .bufOpen _ n _ => decide (16 ≤ n.toNat)
  | .bufDiscard _ n _ => decide (16 ≤ n.toNat)
  | .coverCheck _ n _ addr => decide (16 ≤ n.toNat) || !(aligned16 addr)
  | .bedCommit _ n _ => decide (16 ≤ n.toNat)
  | .corrLoad _ port addr _ => !(aligned16 addr) || decide (31 < port.toNat)
  | .loopLoad _ addr _ => !(aligned16 addr)
  | .axsLoad _ addr _ => !(aligned16 addr)
  | .logFetch _ _ _ addr => !(aligned16 addr)
  | _ => false

/-- Commands of one lane run one at a time, in order (R401): while another command runs in its lane or
waits there for the completion queue (R403, log entry 142), or the supervisor restarts, a mailbox command has no effect yet; while HALTED every command but NOP and HST_RESET completes STATE. A parameter out of its range
(a buffer above 15, an address that is no multiple of 16, a slot above 1, a port above 31) completes PARAM and changes nothing (R404). -/
def Obligations.LanesHoldCommands : Prop :=
  ∀ (i : Instr) (l : Lane) (op : Nat) (tag : Word) (s : State), mailboxRow i = some (l, op, tag) →
    ((s.dev.sys.sup = .restarting ∨ (tfind s.dev.hst.running (laneIx l)).isSome ∨ tget [] s.dev.hst.finished (laneIx l) ≠ []) →
      exec i s = .next s) ∧
    (s.dev.mayRun l op tag = true → s.dev.sys.sup = .halted → op ≠ 0x01 → op ≠ 0x02 →
      exec i s = .next (s.onDev (fun d => d.finish l op tag Res.state.code 0))) ∧
    (s.dev.mayRun l op tag = true → s.dev.sys.sup ≠ .halted → badParam i = true →
      exec i s = .next (s.onDev (fun d => d.finish l op tag Res.param.code 0)))

/-- Completions (R403): a finished command of a lane enters the completion queue behind the others; with 32 completions there it
waits in its lane; POP removes the head.
A finished command (R402, R403): it leaves its lane, its completion waits behind those of its lane, its result is remembered under
its source and tag, and nothing of the device outside the host interface changes; a command that stood first of the queue leaves it.
NOP completes OK with HST_STAT (R405), FENCE with a bit above 4 completes PARAM; otherwise FENCE covers every write of its sources
that waits, and those dropped under R334 that no FENCE has covered before it (log entry 141), and goes on running; FENCE_DRAINED
completes it OK, or DROPPED, once none of them waits (R330). -/
def Obligations.CompletionsAndFinishedCommands : Prop :=
  ((∀ (l : Lane) (s : State) (c : Completion) (rest : List Completion),
     tget [] s.dev.hst.finished (laneIx l) = c :: rest → tfind s.dev.hst.mbx 15 = none →
     (s.dev.hst.cpl.length < 32 → ∃ t : State, exec (.commandComplete l) s = .next t ∧ t.dev.hst.cpl = s.dev.hst.cpl ++ [c] ∧
       tget [] t.dev.hst.finished (laneIx l) = rest ∧
       t = { s with dev := { s.dev with hst := { s.dev.hst with cpl := t.dev.hst.cpl, finished := t.dev.hst.finished },
                                        rig := { s.dev.rig with prog := t.dev.rig.prog } } } ∧
       t.dev.rig.prog = (if c.op = 0x13 ∧ c.dup = false then none else s.dev.rig.prog)) ∧
     (32 ≤ s.dev.hst.cpl.length → exec (.commandComplete l) s = .next s)) ∧
   (∀ (v : Word) (s : State),
     (v.toNat % 2 = 1 → exec (.hstCplPop v) s =
       .next { s with dev := { s.dev with hst := { s.dev.hst with cpl := s.dev.hst.cpl.drop 1 } } }) ∧
     (v.toNat % 2 = 0 → exec (.hstCplPop v) s = .next s))) ∧
  (∀ (d : Dev) (l : Lane) (op : Nat) (tag : Word) (res : Nat) (val : DWord),
     d.hst.dupWait.filter (fun c => c.tag == tag) = [] →
     tget [] (d.finish l op tag res val).hst.finished (laneIx l) =
       tget [] d.hst.finished (laneIx l) ++ [⟨tag, op, res, false, val⟩] ∧
     tfind (d.finish l op tag res val).hst.running (laneIx l) = none ∧
     (∀ r ∈ (d.finish l op tag res val).hst.remembered, r.src = 0 → r.tag = tag → r.done = some (res, val)) ∧
     (∀ (c : Cmd) (q : List Cmd), d.hst.queue = c :: q → c.op = op → c.tag = tag → (d.finish l op tag res val).hst.queue = q) ∧
     d.finish l op tag res val = { d with hst := (d.finish l op tag res val).hst }) ∧
  ((∀ (tag : Word) (s : State), s.dev.mayRun .ctrl 0x01 tag = true →
     exec (.nop tag) s = .next (s.onDev (fun d => d.finish .ctrl 0x01 tag Res.ok.code (BitVec.ofNat 64 d.hstStat)))) ∧
   (∀ (tag mask : Word) (s : State), s.dev.mayRun .ctrl 0x03 tag = true → s.dev.sys.sup ≠ .halted →
     (32 ≤ mask.toNat → exec (.fence tag mask) s = .next (s.onDev (fun d => d.finish .ctrl 0x03 tag Res.param.code 0))) ∧
     (mask.toNat < 32 → ∃ t : State, exec (.fence tag mask) s = .next t ∧
       t.dev.ddr.fence = some ⟨tag, (s.dev.ddr.waiting.filter (fenceCovers mask.toNat)).map (·.id),
         s.dev.ddr.dropped.any (fun x => bitAt mask.toNat (x - 0x40))⟩ ∧
       t.dev.ddr.dropped = s.dev.ddr.dropped.filter (fun x => !(bitAt mask.toNat (x - 0x40))) ∧
       (t.dev.laneCmd .ctrl).isSome = true ∧
       t = { s with dev := { s.dev with
         ddr := { s.dev.ddr with fence := t.dev.ddr.fence, dropped := t.dev.ddr.dropped },
         hst := { s.dev.hst with queue := t.dev.hst.queue, running := t.dev.hst.running } } })) ∧
   (∀ (s : State) (f : FenceRun), s.dev.ddr.fence = some f →
     (s.dev.ddr.waiting.any (fun w => f.ids.contains w.id) = true → exec .fenceDrained s = .next s) ∧
     (s.dev.ddr.waiting.any (fun w => f.ids.contains w.id) = false →
       exec .fenceDrained s = .next (s.onDev (fun d => ({ d with ddr := { d.ddr with fence := none } }).finish .ctrl 0x03 f.tag
         (if f.dropped then Res.dropped.code else Res.ok.code) 0)))))

/-! ## BAR0, BAR2, DMA (R11, R86, R395 to R397) -/

/-- BAR0_BAD_ACCESS has no effect beyond its 0x0E01 record (R11).
A BAR2 write (R86, R321, R395): at device address WIN.BASE × 256 MB + offset, inside the space, in no buffer that refuses writes and in
a channel that is present, exactly its bytes change; beyond the space nothing is written and 0x0E00 is recorded; of a write that meets a
buffer that refuses writes, the bytes in such a buffer are dropped and the others land, and one that lies in one page lands nowhere; a BAR2 read
gives the bytes of its range, zeros beyond the space, and changes no byte of DRAM. -/
def Obligations.BadAccessAndWindow : Prop :=
  (∀ (addr : Word) (size : Nat) (write : Bool) (s : State), ∃ t : State, exec (.bar0BadAccess addr size write) s = .next t ∧
     t.dev.hst.bar0 = (if write then s.dev.hst.bar0 else some 0) ∧
     onlyRegsRec [] (s.onDev (fun d => { d with hst := { d.hst with bar0 := t.dev.hst.bar0 } })) t ∧ recorded s.dev t.dev 0x0E01 0x01 2 addr.toNat size (b2n write)) ∧
  (∀ (off : BitVec 28) (s : State),
     let a := s.dev.get F.HST_WIN_BASE * 2 ^ 28 + off.toNat
     (∀ data : List Byte, s.dev.beyond a data.length = false → s.dev.lockedBuf 0x44 a data.length = none → s.dev.goneAt a data.length = none →
       ∃ t : State, exec (.bar2Write off data) s = .next t ∧
         (∀ k : Nat, t.mem.read k = if a ≤ k ∧ k < a + data.length then data.getD (k - a) 0 else s.mem.read k)) ∧
     (∀ data : List Byte, s.dev.beyond a data.length = true →
       ∃ t : State, exec (.bar2Write off data) s = .next t ∧ t.mem = s.mem ∧ onlyRegsRec [] s t ∧
         recorded s.dev t.dev 0x0E00 0x01 2 0x44 (a % 2 ^ 32) (a / 2 ^ 32)) ∧
     (∀ (data : List Byte) (n : Nat), s.dev.beyond a data.length = false → s.dev.lockedBuf 0x44 a data.length = some n →
       ∃ t : State, exec (.bar2Write off data) s = .next t ∧ t.dev.get (F.BED_BUFn_STAT_DROPPED n) = 1 ∧
         (∀ k : Nat, (k < a ∨ a + data.length ≤ k ∨ (s.dev.lockedBuf 0x44 k 1).isSome) → t.mem.read k = s.mem.read k) ∧
         (∀ k : Nat, a ≤ k → k < a + data.length → s.dev.lockedBuf 0x44 k 1 = none → s.dev.gone k = false →
           t.mem.read k = data.getD (k - a) 0) ∧
         (0 < data.length → a % 4096 + data.length ≤ 4096 → t.mem = s.mem ∧
           t.dev.get (F.BED_BUFn_DROPS_COUNT n) = min (s.dev.get (F.BED_BUFn_DROPS_COUNT n) + 1) 0xFFFFFFFF)) ∧
     (∀ len : Nat, s.dev.beyond a len = false → s.dev.goneAt a len = none → s.mem.poisoned a len = false →
       ∃ t : State, exec (.bar2Read off len) s = .next t ∧ t.mem = s.mem ∧ t.dev.hst.bar2 = s.mem.readBytes a len ∧
         t.dev.hst.bar2Poison = false) ∧
     (∀ len : Nat, s.dev.beyond a len = true →
       ∃ t : State, exec (.bar2Read off len) s = .next t ∧ t.mem = s.mem ∧ t.dev.hst.bar2 = List.replicate len 0 ∧
         t.dev.hst.bar2Poison = false))

/-- A DMA channel (R396, R397): a descriptor that breaks a format rule moves nothing and gets status FORMAT; a good descriptor from
host memory to a device address lands its bytes there and nowhere else with status OK.
A finished descriptor (R396, R397): TAIL advances by one round the ring, RUN clears, a status other than OK sets ERR and records
0x0E20, NOTIFY latches attention DMA, and a seal that waits for the channel's queued transfers waits for one less (R91); nothing
else changes. -/
def Obligations.DmaDescriptors : Prop :=
  (∀ (c : Dma) (desc : List Byte) (s : State), s.dev.dmaTakes c.val = true →
     ((dmaParse desc).wellFormed = false → ∀ host : Option (List Byte),
       ∃ t : State, exec (.dmaDescriptor c desc host) s = .next t ∧ t.mem = s.mem ∧
         t.dev.get (F.HST_DMAc_STAT_RUN c.val) = 1 ∧
         (∃ j : DmaJob, tfind t.dev.hst.dma c.val = some j ∧ j.status = 0x07 ∧ j.bytes = 0 ∧
           j.index = s.dev.get (F.HST_DMAc_TAIL_INDEX c.val))) ∧
     (∀ bytes : List Byte, (dmaParse desc).wellFormed = true → (dmaParse desc).kind = 0 → bytes.length = (dmaParse desc).len →
       s.dev.beyond (dmaParse desc).dev (dmaParse desc).len = false →
       s.dev.lockedBuf (0x40 + c.val) (dmaParse desc).dev (dmaParse desc).len = none →
       s.dev.goneAt (dmaParse desc).dev (dmaParse desc).len = none →
       ∃ t : State, exec (.dmaDescriptor c desc (some bytes)) s = .next t ∧
         (∀ k : Nat, t.mem.read k = if (dmaParse desc).dev ≤ k ∧ k < (dmaParse desc).dev + bytes.length
           then bytes.getD (k - (dmaParse desc).dev) 0 else s.mem.read k) ∧
         (∃ j : DmaJob, tfind t.dev.hst.dma c.val = some j ∧ j.status = 0x01 ∧ j.bytes = (dmaParse desc).len))) ∧
  (∀ (c : Dma) (s : State) (j : DmaJob), tfind s.dev.hst.dma c.val = some j → j.index < s.dev.get (F.HST_DMAc_RING_SIZE_SIZE c.val) →
     s.dev.get (F.HST_DMAc_RING_SIZE_SIZE c.val) ≤ 4096 →
     ∃ t : State, exec (.dmaDescriptorDone c) s = .next t ∧
       t.dev.get (F.HST_DMAc_TAIL_INDEX c.val) = (j.index + 1) % s.dev.get (F.HST_DMAc_RING_SIZE_SIZE c.val) ∧
       t.dev.get (F.HST_DMAc_STAT_RUN c.val) = 0 ∧ tfind t.dev.hst.dma c.val = none ∧
       tfind t.dev.hst.dmaStatus c.val = some (j.index, j.status) ∧
       (j.status = 1 → t.dev.get (F.HST_DMAc_STAT_ERR c.val) = s.dev.get (F.HST_DMAc_STAT_ERR c.val) ∧ t.dev.evr = s.dev.evr) ∧
       (j.status ≠ 1 → t.dev.get (F.HST_DMAc_STAT_ERR c.val) = 1 ∧ recorded s.dev t.dev 0x0E20 0x01 2 c.val j.index j.status) ∧
       (j.notify = true → bitAt (t.dev.get F.HST_ATTN_CAUSE) 14 = true) ∧
       t = { s with dev := { s.dev with regs := t.dev.regs, evr := t.dev.evr, hst := t.dev.hst, bar := t.dev.bar } } ∧
       t.dev.bar = { s.dev.bar with sealing := s.dev.bar.sealing.map (fun r => { r with left := r.left.modify c.val (· - 1) }) } ∧
       regsKeep (recFlds ++ [F.HST_DMAc_TAIL_INDEX c.val, F.HST_DMAc_STAT_RUN c.val, F.HST_DMAc_STAT_ERR c.val]) s.dev t.dev)

/-! ## Resets, start-up, the supervisor, the bridge (R25, R26, R55, R269, R406 to R412) -/

/-- A full reset (R406, R408, R84): every register but HST_RESET_CAUSE returns to its reset value, HST_RESET_CAUSE holds the cause; every
block's state is that of reset, the flash devices keep what they hold (log entry 7), but for a rigging slot that a power failure interrupts
in its programming, which holds nothing that passes (R63), and no byte of DRAM is
listed any more (log entry 6). HST_RESET whose wait is not over resets nothing yet (R410). -/
def Obligations.FullResetReturnsEverything : Prop :=
  (∀ (c : ResetCause) (s : State), (c = .command → s.dev.resetReady = true) →
    ∃ t : State, exec (.fullReset c) s = .next t ∧ t.dev.get F.HST_RESET_CAUSE_CAUSE = Machine.ResetCause.code c ∧
      (∀ G : Fld, G.key ≠ F.HST_RESET_CAUSE_CAUSE.key → t.dev.get G = G.reset) ∧
      t.dev.tick = Dev.reset.tick ∧ t.dev.time = Dev.reset.time ∧ t.dev.shadow = [] ∧ t.dev.hst = Dev.reset.hst ∧
      t.dev.bar = Dev.reset.bar ∧ t.dev.eng = Dev.reset.eng ∧ t.dev.prt = Dev.reset.prt ∧ t.dev.loops = Dev.reset.loops ∧
      t.dev.hnd = Dev.reset.hnd ∧ t.dev.glk = Dev.reset.glk ∧ t.dev.ddr = Dev.reset.ddr ∧ t.dev.rig.live = [] ∧
      t.dev.evr.fifo = [] ∧ t.dev.evr.slots = [] ∧ t.dev.evr.bank = [] ∧
      t.dev.logFlash = s.dev.logFlash ∧ (s.dev.rig.prog = none ∨ (c ≠ .power ∧ c ≠ .brownout) → t.dev.rig.slots = s.dev.rig.slots) ∧
      (∀ i : Nat, s.dev.rig.prog = some i → c = .power ∨ c = .brownout → tfind t.dev.rig.slots i = none ∧
        ∀ j : Nat, j ≠ i → tfind t.dev.rig.slots j = tfind s.dev.rig.slots j) ∧ t.dev.sns.store = s.dev.sns.store ∧ t.dev.sns.older = s.dev.sns.older ∧
      (∀ a : Nat, t.mem.read a = 0) ∧ t.pending = s.pending) ∧
  (∀ s : State, s.dev.resetReady = false → exec (.fullReset .command) s = .next s)

/-- HST_RESET (R410): with another key it completes PARAM and resets nothing; with the key every beam is blanked, the mailbox stays closed
and the command waits for its record.
Start-up phases (R219, R411, R412): BOOT leads to TRAIN with both DRAM channels in training; a copy of the calibration store that
fails its CRC sets STORE_BAD, and the other one is used; once calibration has ended CALIBRATE leads to
READY, or HALTED if the supervisor is stopped, and FREE is 1; in any other phase neither has an effect. -/
def Obligations.ResetsAndStartup : Prop :=
  (∀ (tag key : Word) (s : State), s.dev.mayRun .ctrl 0x02 tag = true →
     (key ≠ 0x0000A5A5#32 →
       exec (.hstReset tag key) s = .next (s.onDev (fun d => d.finish .ctrl 0x02 tag Res.param.code 0))) ∧
     (key = 0x0000A5A5#32 → ∃ t : State, exec (.hstReset tag key) s = .next t ∧ t.dev.hst.free = false ∧
       t.dev.hst.resetWait = some (tag, s.dev.time) ∧ t.dev.hst.cpl = s.dev.hst.cpl ∧ t.dev.hst.finished = s.dev.hst.finished ∧
       (∀ p : Fin 32, t.dev.get (F.BEAMn_PSTAT_EMIT p.val) = 0 ∧ (t.dev.prtOf p.val).gate = false ∧
         (t.dev.prtOf p.val).blank = true) ∧
       t.mem = s.mem ∧ t.dev.evr = s.dev.evr)) ∧
  ((∀ (cal : List CalMeas) (bad : List (Fin 2 × Word)) (s : State), s.dev.get F.HST_STAT_PHASE = 0 →
     let fails := fun (n : Nat) => bad.any (fun x => x.1.val == n)
     let now := s.dev.sns.storeSeq.toNat % 2
     ∃ t : State, exec (.startupBoot cal bad) s = .next t ∧ t.dev.get F.HST_STAT_PHASE = 2 ∧ t.dev.get F.RIG_STAT_STATE = 1 ∧
       t.dev.get (F.DDR_CHc_STAT_STATE 0) = 1 ∧ t.dev.get (F.DDR_CHc_STAT_STATE 1) = 1 ∧ t.mem = s.mem ∧
       t.dev.get F.SNS_STAT_STORE_BAD = (if bad = [] then s.dev.get F.SNS_STAT_STORE_BAD else 1) ∧
       t.dev.sns.store = (if fails now = false then s.dev.sns.store else if fails (1 - now) = false then s.dev.sns.older.items else [])) ∧
   (∀ (cal : List CalMeas) (bad : List (Fin 2 × Word)) (s : State), s.dev.get F.HST_STAT_PHASE ≠ 0 →
     exec (.startupBoot cal bad) s = .next s) ∧
   (∀ s : State, s.dev.get F.HST_STAT_PHASE = 3 → s.dev.get F.SNS_STAT_CAL_DONE = 1 → s.dev.hst.resetWait = none →
     ∃ t : State, exec .startupReady s = .next t ∧
       t.dev.get F.HST_STAT_PHASE = (if s.dev.sys.sup = .halted then 5 else 4) ∧ t.dev.hst.free = true ∧
       t = { s with dev := { s.dev with regs := t.dev.regs, hst := { s.dev.hst with free := true } } } ∧
       regsKeep [F.HST_STAT_PHASE] s.dev t.dev) ∧
   (∀ s : State, s.dev.get F.HST_STAT_PHASE ≠ 3 ∨ s.dev.get F.SNS_STAT_CAL_DONE = 0 → exec .startupReady s = .next s))

/-- The supervisor (R26): the first lockstep mismatch makes it restart, a second one within 1 h stops it (PHASE 5 HALTED); each records one
event of severity 4 of the range 0x00xx (its low byte and parameters are free, log entry 4) and latches attention SUPERVISOR. The end of a
restart sets it running again and changes nothing else. -/
def Obligations.SupervisorRestartsOrHalts : Prop :=
  (∀ s : State, s.dev.sys.sup ≠ .halted →
    ∃ (t : State) (code p1 p2 p3 : Nat), exec .lockstepMismatch s = .next t ∧ code < 256 ∧
      recorded s.dev t.dev code 0x00 4 p1 p2 p3 ∧ bitAt (t.dev.get F.HST_ATTN_CAUSE) 11 = true ∧
      (s.dev.sys.lastMismatch = none → t.dev.sys.sup = .restarting ∧ t.dev.sys.lastMismatch = some s.dev.time ∧
        t.dev.get F.HST_STAT_PHASE = s.dev.get F.HST_STAT_PHASE) ∧
      (∀ u : DWord, s.dev.sys.lastMismatch = some u → oneHour < elapsed64 s.dev.time u → t.dev.sys.sup = .restarting) ∧
      (∀ u : DWord, s.dev.sys.lastMismatch = some u → (elapsed64 s.dev.time u) ≤ oneHour →
        t.dev.sys.sup = .halted ∧ t.dev.get F.HST_STAT_PHASE = 5) ∧
      t = { s with dev := { s.dev with regs := t.dev.regs, evr := t.dev.evr, freeCtr := t.dev.freeCtr, sys := t.dev.sys } } ∧
      regsKeep (recFlds ++ [F.HST_STAT_PHASE]) s.dev t.dev) ∧
  (∀ s : State, s.dev.sys.sup = .restarting →
    exec .supervisorRestartDone s = .next { s with dev := { s.dev with sys := { s.dev.sys with sup := .running } } }) ∧
  (∀ s : State, s.dev.sys.sup ≠ .restarting → exec .supervisorRestartDone s = .next s)

/-- The bridge (R25): a discarded flit is counted and recorded, and the channels whose samples it carried towards the control die are missing
in the coming P-tick, nothing else; a silent bridge turns every gate and every LED line off and
clamps every laser DAC to 0, and holds that until a full reset.
The control die's side of a silent bridge (R269): it is noted once, and with no port in the rigging nothing else changes; a GPF event input
of the live rigging records one event of the range 0x00xx (R55; low byte, severity and parameters are free), any other pin
nothing. -/
def Obligations.BridgeFailuresAndSilence : Prop :=
  ((∀ (toCore : Bool) (chans : List Chan) (s : State), ∃ t : State, exec (.bridgeFlitDiscard toCore chans) s = .next t ∧
     t.dev.sys = { s.dev.sys with flits := s.dev.sys.flits + 1,
                                  lost := if toCore then s.dev.sys.lost ++ chans.map (·.val) else s.dev.sys.lost } ∧
     recorded s.dev t.dev 0x0810 0x0E 2 (b2n toCore) (s.dev.sys.flits + 1) s.dev.tick.toNat ∧
     t = { s with dev := { s.dev with regs := t.dev.regs, evr := t.dev.evr, sys := t.dev.sys } } ∧ regsKeep recFlds s.dev t.dev) ∧
   (∀ s : State, ∃ t : State, exec .bridgeSilence s = .next t ∧ t.dev.sys.edgeSilent = true ∧ t.dev.get F.LED_CTRL_EN = 0 ∧
     t.dev.led.drive = none ∧
     (∀ p : Fin 32, t.dev.get (F.BEAMn_PSTAT_EMIT p.val) = 0 ∧ (t.dev.prtOf p.val).gate = false ∧ (t.dev.prtOf p.val).dac = 0) ∧
     t.mem = s.mem ∧ t.dev.evr = s.dev.evr ∧ t.dev.hst = s.dev.hst)) ∧
  ((∀ s : State, s.dev.sys.ctrlSilent = true → exec .controlDieBridgeSilence s = .next s.settled) ∧
   (∀ s : State, s.dev.sys.ctrlSilent = false → portsInUse (s.dev.sections false) = [] →
     exec .controlDieBridgeSilence s =
       .next (s.settled.onDev (fun d => { d with sys := { d.sys with ctrlSilent := true } }))) ∧
   (∀ (g : Gpf) (s : State), s.dev.rigged = true → 0x40 ≤ pinFn (s.dev.sections false) g.val →
     pinFn (s.dev.sections false) g.val ≤ 0x4F →
     ∃ (t : State) (code sev p1 p2 p3 : Nat), exec (.gpfEventInput g) s = .next t ∧ code < 256 ∧ sev < 6 ∧
       recorded s.dev t.dev code 0x00 sev p1 p2 p3 ∧
       t = { s with dev := { s.dev with regs := t.dev.regs, evr := t.dev.evr, freeCtr := t.dev.freeCtr } } ∧
       regsKeep recFlds s.dev t.dev) ∧
   (∀ (g : Gpf) (s : State), (s.dev.rigged = false ∨ pinFn (s.dev.sections false) g.val < 0x40) →
     exec (.gpfEventInput g) s = .next s))

/-! ## Bed buffers (R83 to R92) -/

/-- BUF_OPEN (R87 to R90, R404): the results in the order PARAM, STALE, BUSY, RANGE, DEFERRED, each but DEFERRED and OK changing
nothing; OK puts a FREE buffer into FILLING in generation g; DEFERRED keeps g pending and records 0x0221.
BUF_DISCARD (R87 to R90): the pending open of g is cancelled; a FILLING or READY buffer in generation g with
no pending open becomes FREE, another generation is STALE and a later state STATE; BUFFER_RELEASE (R85): a RETIRING buffer whose bed nothing
needs any more becomes FREE (stated without a pending open); in any other state the row does nothing. -/
def Obligations.BuffersOpenAndDiscard : Prop :=
  (∀ (tag n g : Word) (s : State), s.dev.mayRun .buf 0x20 tag = true → s.dev.sys.sup ≠ .halted →
     let k := n.toNat
     let answer := fun (r : Res) => exec (.bufOpen tag n g) s = .next (s.onDev (fun d => d.finish .buf 0x20 tag r.code 0))
     (16 ≤ k → answer .param) ∧
     (k < 16 → s.dev.genNew k g = false → answer .stale) ∧
     (k < 16 → s.dev.genNew k g = true → s.dev.get (F.BED_BUFn_STAT_PEND k) = 1 → answer .busy) ∧
     (k < 16 → s.dev.genNew k g = true → s.dev.get (F.BED_BUFn_STAT_PEND k) = 0 → s.dev.badPlacement k = true → answer .range) ∧
     (k < 16 → s.dev.genNew k g = true → s.dev.get (F.BED_BUFn_STAT_PEND k) = 0 → s.dev.badPlacement k = false →
       s.dev.get (F.BED_BUFn_STAT_STATE k) ≠ 0 →
       ∃ d : Dev, exec (.bufOpen tag n g) s = .next { s with dev := d.finish .buf 0x20 tag Res.deferred.code 0 } ∧
         d.get (F.BED_BUFn_STAT_PEND k) = 1 ∧ d.get (F.BED_BUFn_PEND_GEN_GEN k) = g.toNat ∧
         recorded s.dev d 0x0221 0x03 0 k g.toNat (s.dev.get (F.BED_BUFn_STAT_STATE k)) ∧
         d = { s.dev with regs := d.regs, evr := d.evr } ∧
         regsKeep (recFlds ++ [F.BED_BUFn_STAT_PEND k, F.BED_BUFn_PEND_GEN_GEN k]) s.dev d) ∧
     (k < 16 → s.dev.genNew k g = true → s.dev.get (F.BED_BUFn_STAT_PEND k) = 0 → s.dev.badPlacement k = false →
       s.dev.get (F.BED_BUFn_STAT_STATE k) = 0 →
       ∃ d : Dev, exec (.bufOpen tag n g) s = .next { s with dev := d.finish .buf 0x20 tag Res.ok.code 0 } ∧
         d.get (F.BED_BUFn_STAT_STATE k) = 1 ∧ d.get (F.BED_BUFn_GEN_GEN k) = g.toNat ∧ d.get (F.BED_BUFn_ERR_CHECK k) = 0 ∧
         d.get (F.BED_BUFn_DROPS_COUNT k) = 0 ∧ d = { s.dev with regs := d.regs } ∧
         regsKeep [F.BED_BUFn_STAT_STATE k, F.BED_BUFn_GEN_GEN k, F.BED_BUFn_ERR_CHECK k, F.BED_BUFn_ERR_INDEX k,
           F.BED_BUFn_DROPS_COUNT k] s.dev d)) ∧
  ((∀ (tag n g : Word) (s : State), s.dev.mayRun .buf 0x22 tag = true → s.dev.sys.sup ≠ .halted → n.toNat < 16 →
     s.dev.get (F.BED_BUFn_STAT_SEALING n.toNat) = 0 →
     (s.dev.get (F.BED_BUFn_STAT_PEND n.toNat) = 1 → s.dev.getW (F.BED_BUFn_PEND_GEN_GEN n.toNat) = g →
       ∃ d : Dev, exec (.bufDiscard tag n g) s = .next { s with dev := d.finish .buf 0x22 tag Res.ok.code 0 } ∧
         d.get (F.BED_BUFn_STAT_PEND n.toNat) = 0 ∧ d.get (F.BED_BUFn_PEND_GEN_GEN n.toNat) = 0 ∧ d = { s.dev with regs := d.regs } ∧
         regsKeep [F.BED_BUFn_STAT_PEND n.toNat, F.BED_BUFn_PEND_GEN_GEN n.toNat] s.dev d) ∧
     (s.dev.get (F.BED_BUFn_STAT_PEND n.toNat) = 0 → s.dev.genIs n.toNat g = false →
       exec (.bufDiscard tag n g) s = .next (s.onDev (fun d => d.finish .buf 0x22 tag Res.stale.code 0))) ∧
     (s.dev.get (F.BED_BUFn_STAT_PEND n.toNat) = 0 → s.dev.genIs n.toNat g = true →
       s.dev.get (F.BED_BUFn_STAT_STATE n.toNat) = 1 ∨ s.dev.get (F.BED_BUFn_STAT_STATE n.toNat) = 2 →
       ∃ d : Dev, exec (.bufDiscard tag n g) s = .next { s with dev := d.finish .buf 0x22 tag Res.ok.code 0 } ∧
         d.get (F.BED_BUFn_STAT_STATE n.toNat) = 0 ∧ d = { s.dev with regs := d.regs } ∧
         regsKeep [F.BED_BUFn_STAT_STATE n.toNat] s.dev d) ∧
     (s.dev.get (F.BED_BUFn_STAT_PEND n.toNat) = 0 → s.dev.genIs n.toNat g = true →
       3 ≤ s.dev.get (F.BED_BUFn_STAT_STATE n.toNat) →
       exec (.bufDiscard tag n g) s = .next (s.onDev (fun d => d.finish .buf 0x22 tag Res.state.code 0)))) ∧
   (∀ (n : Buf) (s : State), s.dev.get (F.BED_BUFn_STAT_STATE n.val) ≠ 5 → exec (.bufferRelease n) s = .next s) ∧
   (∀ (n : Buf) (s : State) (b : Bed), s.dev.get (F.BED_BUFn_STAT_STATE n.val) = 5 → s.dev.bed? n.val = some b →
     s.dev.bedBusy n.val = false → b.verified = true → b.allRecorded = true → s.dev.get (F.BED_BUFn_STAT_PEND n.val) = 0 →
     ∃ t : State, exec (.bufferRelease n) s = .next t ∧ t.dev.get (F.BED_BUFn_STAT_STATE n.val) = 0 ∧
       t.dev.bed? n.val = none ∧ t.dev.bar.cur ≠ some n.val ∧ t.dev.bar.old ≠ some n.val ∧
       t = { s with dev := { s.dev with regs := t.dev.regs, bar := t.dev.bar } } ∧
       regsKeep [F.BED_BUFn_STAT_STATE n.val] s.dev t.dev))

/-- BUF_SEAL (R63, R89, R91): it waits while an image is to be applied; PARAM, STALE, BUSY, STATE in this order change nothing; on a FILLING buffer
in its generation the seal starts and runs in its lane, waiting for as many descriptors of each channel as stand queued then; SEAL_CHECK: with every queued
transfer done, a bed that fails a check leaves the buffer FILLING with the cause in BED_BUFn_ERR, 0x0224 and REFUSED; a good bed
makes it READY with its BED_NO, 0x0223 and OK.
COVER_CHECK (R270): on a READY buffer in its generation it writes one entry of 8 bytes for each uncoverable path and completes OK with
their number (stated for none and for one); otherwise STALE or STATE, changing nothing. -/
def Obligations.BuffersSealAndCover : Prop :=
  ((∀ (tag n g : Word) (s : State), s.dev.rig.staged.isSome = true → exec (.bufSeal tag n g) s = .next s) ∧
   (∀ (tag n g : Word) (s : State), s.dev.mayRun .buf 0x21 tag = true → s.dev.sys.sup ≠ .halted → s.dev.rig.staged = none →
     (16 ≤ n.toNat → exec (.bufSeal tag n g) s = .next (s.onDev (fun d => d.finish .buf 0x21 tag Res.param.code 0))) ∧
     (n.toNat < 16 → s.dev.genIs n.toNat g = false →
       exec (.bufSeal tag n g) s = .next (s.onDev (fun d => d.finish .buf 0x21 tag Res.stale.code 0))) ∧
     (n.toNat < 16 → s.dev.genIs n.toNat g = true → s.dev.get (F.BED_BUFn_STAT_SEALING n.toNat) ≠ 0 →
       exec (.bufSeal tag n g) s = .next (s.onDev (fun d => d.finish .buf 0x21 tag Res.busy.code 0)))) ∧
   (∀ (tag n g : Word) (s : State), s.dev.mayRun .buf 0x21 tag = true → s.dev.sys.sup ≠ .halted → s.dev.rig.staged = none →
     n.toNat < 16 → s.dev.genIs n.toNat g = true → s.dev.get (F.BED_BUFn_STAT_SEALING n.toNat) = 0 →
     (s.dev.get (F.BED_BUFn_STAT_STATE n.toNat) ≠ 1 →
       exec (.bufSeal tag n g) s = .next (s.onDev (fun d => d.finish .buf 0x21 tag Res.state.code 0))) ∧
     (s.dev.get (F.BED_BUFn_STAT_STATE n.toNat) = 1 → ∃ t : State, exec (.bufSeal tag n g) s = .next t ∧
       t.dev.get (F.BED_BUFn_STAT_SEALING n.toNat) = 1 ∧ t.dev.bufWritable n.toNat = false ∧
       t.dev.bar.sealing = some ⟨n.toNat, g.toNat, tag, (upTo 4).map s.dev.dmaQueued⟩ ∧
       (t.dev.laneCmd .buf).isSome = true ∧ regsKeep [F.BED_BUFn_STAT_SEALING n.toNat] s.dev t.dev ∧ t.mem = s.mem ∧
       t.dev.evr = s.dev.evr)) ∧
   (∀ (s : State) (r : SealRun), s.dev.bar.sealing = some r → r.buf < 16 → (∀ c, c < 4 → s.dev.sealAwaits c = false) →
     (∀ (c i : Nat), s.dev.sealChecks s.mem r.buf r.gen = .error (c, i) →
       ∃ d : Dev, exec .sealCheck s =
           .next { s with dev := d.finish .buf 0x21 r.tag Res.refused.code (BitVec.ofNat 64 (c + 256 * i)) } ∧
         d.get (F.BED_BUFn_STAT_SEALING r.buf) = 0 ∧ d.get (F.BED_BUFn_ERR_CHECK r.buf) = c % 256 ∧
         d.get (F.BED_BUFn_ERR_INDEX r.buf) = i % 2 ^ 24 ∧
         d.get (F.BED_BUFn_STAT_STATE r.buf) = s.dev.get (F.BED_BUFn_STAT_STATE r.buf) ∧ d.bar.sealing = none) ∧
     (∀ h : BedHdr, s.dev.sealChecks s.mem r.buf r.gen = .ok h →
       ∃ d : Dev, exec .sealCheck s = .next { s with dev := d.finish .buf 0x21 r.tag Res.ok.code 0 } ∧
         d.get (F.BED_BUFn_STAT_SEALING r.buf) = 0 ∧ d.get (F.BED_BUFn_STAT_STATE r.buf) = 2 ∧
         d.get (F.BED_BUFn_BED_NO_BED_NO r.buf) = h.bedNo % 2 ^ 32 ∧ recorded s.dev d 0x0223 0x03 0 r.buf r.gen h.bedNo ∧
         d = { s.dev with regs := d.regs, evr := d.evr, bar := { s.dev.bar with sealing := none } } ∧
         regsKeep (recFlds ++ [F.BED_BUFn_STAT_SEALING r.buf, F.BED_BUFn_STAT_STATE r.buf, F.BED_BUFn_BED_NO_BED_NO r.buf])
           s.dev d))) ∧
  (∀ (tag n g : Word) (addr : DWord) (s : State), s.dev.mayRun .buf 0x23 tag = true → s.dev.sys.sup ≠ .halted → n.toNat < 16 →
     aligned16 addr = true →
     (s.dev.genIs n.toNat g = false →
       exec (.coverCheck tag n g addr) s = .next (s.onDev (fun d => d.finish .buf 0x23 tag Res.stale.code 0))) ∧
     (s.dev.genIs n.toNat g = true → s.dev.get (F.BED_BUFn_STAT_STATE n.toNat) ≠ 2 →
       exec (.coverCheck tag n g addr) s = .next (s.onDev (fun d => d.finish .buf 0x23 tag Res.state.code 0))) ∧
     (s.dev.genIs n.toNat g = true → s.dev.get (F.BED_BUFn_STAT_STATE n.toNat) = 2 →
       s.dev.uncoverable s.mem n.toNat = [] →
       exec (.coverCheck tag n g addr) s = .next (s.onDev (fun d => d.finish .buf 0x23 tag Res.ok.code 0))) ∧
     (∀ x : Nat × Nat, s.dev.genIs n.toNat g = true → s.dev.get (F.BED_BUFn_STAT_STATE n.toNat) = 2 →
       s.dev.uncoverable s.mem n.toNat = [x] → s.dev.beyond addr.toNat 8 = false → s.dev.goneAt addr.toNat 8 = none →
       ∃ t : State, exec (.coverCheck tag n g addr) s =
           .next (t.onDev (fun d => d.finish .buf 0x23 tag Res.ok.code 1)) ∧
         (∀ k : Nat, t.mem.read k = if addr.toNat ≤ k ∧ k < addr.toNat + 8 then (coverEntryBytes x).getD (k - addr.toNat) 0
           else s.mem.read k)))

/-! ## The bed cycle (R96 to R116) -/

/-- BED_COMMIT and BED_UNCOMMIT (R98, R99): the results in the order PARAM, UNRIGGED, STALE, BUSY, STATE; a READY buffer becomes
COMMITTED and named in BED_NEXT, OK, or HELD with BED_STAT.LATE in the late window; BED_UNCOMMIT returns it to READY, or answers
LATCHED or NONE.
BED_ABORT and BED_RECOATED (R100, R102, R104): BED_ABORT blanks the beam of every port in use, clears RUN, records 0x020F and completes
OK (stated with no bed in the device and no path running, in PRE or RECOAT, where the phase goes on); outside RECOAT, BED_RECOATED
completes NOT_RECOAT and changes nothing; in RECOAT with no bed latched before and RUN set the Control Bar enters STARVED with its
flag, 0x0204 with the number of the last current bed, and attention STARVE. -/
def Obligations.BedsCommitAbortRecoat : Prop :=
  ((∀ (tag n g : Word) (s : State), s.dev.mayRun .ctrl 0x30 tag = true → s.dev.sys.sup ≠ .halted →
     let k := n.toNat
     let answer := fun (r : Res) => exec (.bedCommit tag n g) s = .next (s.onDev (fun d => d.finish .ctrl 0x30 tag r.code 0))
     (16 ≤ k → answer .param) ∧
     (k < 16 → s.dev.rigged = false → answer .unrigged) ∧
     (k < 16 → s.dev.rigged = true → s.dev.genIs k g = false → answer .stale) ∧
     (k < 16 → s.dev.rigged = true → s.dev.genIs k g = true → s.dev.get F.BED_NEXT_COMMITTED = 1 → answer .busy) ∧
     (k < 16 → s.dev.rigged = true → s.dev.genIs k g = true → s.dev.get F.BED_NEXT_COMMITTED = 0 →
       s.dev.get (F.BED_BUFn_STAT_STATE k) ≠ 2 → answer .state) ∧
     (k < 16 → s.dev.rigged = true → s.dev.genIs k g = true → s.dev.get F.BED_NEXT_COMMITTED = 0 →
       s.dev.get (F.BED_BUFn_STAT_STATE k) = 2 →
       ∃ d : Dev, exec (.bedCommit tag n g) s =
           .next { s with dev := (d.finish .ctrl 0x30 tag (if s.dev.lateWindow then Res.held.code else Res.ok.code) 0) } ∧
         d.get (F.BED_BUFn_STAT_STATE k) = 3 ∧ d.get F.BED_NEXT_BUF = k ∧ d.get F.BED_NEXT_COMMITTED = 1 ∧
         d.get F.BED_NEXT_HELD = b2n s.dev.lateWindow ∧ d.bar.commitTick = s.dev.tick ∧
         (s.dev.lateWindow = true → d.get F.BED_STAT_LATE = 1) ∧
         (s.dev.lateWindow = false → d.get F.BED_STAT_LATE = s.dev.get F.BED_STAT_LATE) ∧ d.evr = s.dev.evr ∧ d.eng = s.dev.eng)) ∧
   (∀ (tag : Word) (s : State), s.dev.mayRun .ctrl 0x31 tag = true → s.dev.sys.sup ≠ .halted →
     (∀ n : Nat, s.dev.committedBuf = some n → n < 16 → ∃ d : Dev, exec (.bedUncommit tag) s =
         .next { s with dev := d.finish .ctrl 0x31 tag Res.ok.code 0 } ∧
       d.get (F.BED_BUFn_STAT_STATE n) = 2 ∧ d.get F.BED_NEXT_COMMITTED = 0 ∧ d = { s.dev with regs := d.regs }) ∧
     (s.dev.committedBuf = none → exec (.bedUncommit tag) s = .next (s.onDev (fun d => d.finish .ctrl 0x31 tag
       (if s.dev.bar.latched.isSome then Res.latched.code else Res.none.code) 0))))) ∧
  ((∀ (tag : Word) (s : State), s.dev.mayRun .ctrl 0x32 tag = true → s.dev.sys.sup ≠ .halted → s.dev.bar.beds = [] →
     s.dev.bar.latched = none → s.dev.runningPorts = [] → (s.dev.get F.BED_STAT_PHASE = 2 ∨ s.dev.get F.BED_STAT_PHASE = 3) →
     ∃ d : Dev, exec (.bedAbort tag) s = .next { s with dev := d.finish .ctrl 0x32 tag Res.ok.code 0 } ∧
       d.get F.BED_CTRL_RUN = 0 ∧ d.get F.BED_STAT_PHASE = s.dev.get F.BED_STAT_PHASE ∧
       recorded s.dev d 0x020F 0x03 3 0 (if s.dev.get F.BED_CUR_VALID = 0 then 0 else s.dev.get F.BED_CUR_NO_BED_NO)
         s.dev.tick.toNat ∧
       (∀ p ∈ portsInUse (s.dev.sections false), p < 32 → d.get (F.BEAMn_PSTAT_EMIT p) = 0 ∧ (d.prtOf p).gate = false) ∧
       d = { s.dev with regs := d.regs, evr := d.evr, prt := d.prt, eng := d.eng } ∧
       regsKeep (recFlds ++ F.BED_CTRL_RUN :: (upTo 32).map F.BEAMn_PSTAT_EMIT) s.dev d) ∧
   (∀ (tag : Word) (s : State), s.dev.mayRun .ctrl 0x33 tag = true → s.dev.sys.sup ≠ .halted →
     (s.dev.get F.BED_STAT_PHASE ≠ 3 →
       exec (.bedRecoated tag) s = .next (s.onDev (fun d => d.finish .ctrl 0x33 tag Res.notRecoat.code 0))) ∧
     (s.dev.get F.BED_STAT_PHASE = 3 → s.dev.bar.cur = none → s.dev.bar.old = none → s.dev.get F.BED_CUR_VALID = 0 →
       s.dev.get F.BED_CTRL_RUN = 1 →
       ∃ d : Dev, exec (.bedRecoated tag) s = .next { s with dev := d.finish .ctrl 0x33 tag Res.ok.code 0 } ∧
         d.get F.BED_STAT_PHASE = 4 ∧ d.get F.BED_STAT_STARVE = 1 ∧ bitAt (d.get F.HST_ATTN_CAUSE) 12 = true ∧
         recorded s.dev d 0x0204 0x03 2 s.dev.bar.oldNo.toNat s.dev.tick.toNat 0 ∧ d = { s.dev with regs := d.regs, evr := d.evr } ∧
         regsKeep (recFlds ++ [F.BED_STAT_PHASE, F.BED_STAT_STARVE]) s.dev d)))

/-- The commit horizon (R97, R99, R101): where none is due nothing changes; at a horizon the phase is PRE and BED_HZN_TICK the present
T-tick; a bed committed on an earlier T-tick that can be latched is latched, and with it a swap armed on an earlier T-tick; one that
cannot stays COMMITTED with LATE.
The bed boundary (R96, R103): before 64 T-ticks have passed since the horizon nothing happens; from a horizon taken in EXPOSE the phase
becomes RECOAT on the T-tick that BED_BND_TICK holds (stated where the recoater encoder is not lost, no swap is latched and no written field waits), the latched bed is current and none is latched. -/
def Obligations.HorizonAndBoundary : Prop :=
  (∀ s : State,
     (s.dev.horizonDue = false → exec .commitHorizon s = .next s) ∧
     (s.dev.horizonDue = true → s.dev.committedBuf = none → ∃ t : State, exec .commitHorizon s = .next t ∧
       t.dev.get F.BED_STAT_PHASE = 2 ∧ t.dev.get F.BED_HZN_TICK_TICK = s.dev.tick.toNat ∧
       t = { s with dev := { s.dev with regs := t.dev.regs, bar := { s.dev.bar with hznFrom := s.dev.get F.BED_STAT_PHASE } } } ∧
       regsKeep [F.BED_STAT_PHASE, F.BED_HZN_TICK_TICK] s.dev t.dev) ∧
     (∀ n : Nat, s.dev.horizonDue = true → s.dev.committedBuf = some n → s.dev.latchable = some n →
       ∃ t : State, exec .commitHorizon s = .next t ∧ t.dev.get F.BED_STAT_PHASE = 2 ∧
         t.dev.get F.BED_HZN_TICK_TICK = s.dev.tick.toNat ∧ t.dev.bar.latched = some n ∧ t.dev.get F.BED_NEXT_COMMITTED = 0 ∧
         t.dev.get F.BED_NEXT_LATCHED = 1 ∧ (t.dev.bed? n).isSome = true ∧
         t.dev.rig.armed = (if s.dev.armedBefore.isSome then none else s.dev.rig.armed) ∧
         t.dev.rig.latched = s.dev.armedBefore.or s.dev.rig.latched ∧ t.mem = s.mem) ∧
     (∀ n : Nat, s.dev.horizonDue = true → s.dev.committedBuf = some n → n < 16 → s.dev.latchable = none →
       ∃ t : State, exec .commitHorizon s = .next t ∧ t.dev.get F.BED_STAT_PHASE = 2 ∧ t.dev.get F.BED_STAT_LATE = 1 ∧
         t.dev.get F.BED_NEXT_COMMITTED = 1 ∧ t.dev.get F.BED_NEXT_BUF = n ∧ t.dev.bar.latched = s.dev.bar.latched ∧
         t.dev.bar.beds = s.dev.bar.beds)) ∧
  (∀ s : State,
     ((s.dev.get F.BED_STAT_PHASE ≠ 2 ∨ (elapsed32 s.dev.tick (s.dev.getW F.BED_HZN_TICK_TICK)) < 64) →
       exec .bedBoundary s = .next s.settled) ∧
     (s.dev.get F.BED_STAT_PHASE = 2 → 64 ≤ elapsed32 s.dev.tick (s.dev.getW F.BED_HZN_TICK_TICK) → s.dev.bar.hznFrom = 1 →
       s.dev.sys.sup ≠ .halted → s.dev.rig.latched = none → s.dev.shadow = [] → (∀ e : Nat, encWith (s.dev.sections false) 1 = some e → s.dev.get (F.QEe_ERR_LOST e) = 0) →
       ∃ t : State, exec .bedBoundary s = .next t ∧ t.dev.get F.BED_STAT_PHASE = 3 ∧
         t.dev.get F.BED_BND_TICK_TICK = s.dev.tick.toNat ∧ t.dev.bar.cur = s.dev.bar.latched ∧ t.dev.bar.latched = none ∧
         t.dev.get F.BED_CUR_VALID = b2n s.dev.bar.latched.isSome))

/-- The pre-scan (R242): with every bed scanned nothing happens; a bed that is not yet scanned is scanned afterwards, and each tile has its paths
with box, duration and whether a cover could expose them; HND_UNCOV_PATHS counts those that none could, and 0x0610 is recorded for a tile
with such a path (stated for a bed of no tile and of one tile, without uncorrectable errors and with every cover listed). Dealing (R245): a path
with a beam that takes it and has room joins that beam's queue as dealt, unless it waits for the paths of the partner tile; with nothing
to deal nothing happens.
Paired tiles (R108): once both engines wait at their ORIGINs, or one waits and the partner's path has ended without that start, both tiles
go on to their next pair of paths; remainders whose COOL_TIME
has passed join the pool in class 3 and no other path changes (R110). -/
def Obligations.PrescanDealAndPairedStart : Prop :=
  ((∀ s : State, s.dev.bar.beds.find? (fun (x : Nat × Bed) => !x.2.scanned) = none → exec .prescan s = .next s) ∧
   (∀ (s : State) (n : Nat) (b : Bed), s.dev.bar.beds = [(n, b)] → b.scanned = false → b.tiles = [] → n < 16 →
     s.dev.get (F.BED_BUFn_STAT_STATE n) ≠ 4 →
     ∃ t : State, exec .prescan s = .next t ∧ (t.dev.bed? n).map (fun b => b.scanned) = some true ∧
       t.dev.get F.HND_UNCOV_PATHS_COUNT = 0 ∧ regsKeep [F.HND_UNCOV_PATHS_COUNT] s.dev t.dev ∧ t.mem = s.mem ∧
       t.dev.evr = s.dev.evr) ∧
   (∀ (s : State) (n i : Nat) (b : Bed) (x : TileSt), s.dev.bar.beds = [(n, b)] → b.scanned = false → b.tiles = [(i, x)] →
     x.scanned = false → n < 16 → x.rcd.lead < 32 → s.dev.get (F.BED_BUFn_STAT_STATE n) ≠ 4 → s.mem.poison = [] →
     (∀ c ∈ x.rcd.named, coverListed (s.dev.scanSections n) x.rcd.lead c = true) →
     let k := PKey.bed n i 0
     let paths := (splitPaths (s.dev.segOf s.mem k) x.rcd.first x.rcd.count x.rcd.first).map
       (scanPath (s.dev.segOf s.mem k) (s.dev.setOf k) (s.dev.get (F.BEAMn_PROF_JOIN_ANG x.rcd.lead)) (s.dev.scanSections n) x.rcd)
     let bad := (paths.filter (fun q => !q.coverable)).length
     ∃ t : State, exec .prescan s = .next t ∧ t.dev.tile? n i = some { x with scanned := true, paths := paths } ∧
       (t.dev.bed? n).map (fun b => b.scanned) = some true ∧ t.dev.get F.HND_UNCOV_PATHS_COUNT = min bad 0xFFFFFFFF ∧ t.mem = s.mem ∧
       (bad = 0 → t.dev.evr = s.dev.evr) ∧ (bad ≠ 0 → recorded s.dev t.dev 0x0610 0x04 0 i bad b.bedNo.toNat) ∧
       regsKeep (recFlds ++ [F.HND_UNCOV_PATHS_COUNT]) s.dev t.dev) ∧
   (∀ s : State, s.dev.dealOrder = [] → exec .dealPath s = .next s) ∧
   (∀ (s : State) (k : PKey) (rest : List PKey) (q : PathSt) (b : Nat), s.dev.dealOrder = k :: rest → s.dev.path? k = some q →
     s.dev.extraWaits k = false → s.dev.eligible s.mem k q ≠ [] → s.dev.dealBeam s.mem k q (s.dev.eligible s.mem k q) = some b →
     (s.dev.engOf b).queue.length < s.dev.view b F.HND_CTRL_DEPTH → b < 32 →
     ∃ t : State, exec .dealPath s = .next t ∧ (t.dev.engOf b).queue = (s.dev.engOf b).queue ++ [k] ∧
       t.dev.path? k = some { q with st := .dealt b } ∧
       t.dev.get (F.HND_Pn_DEALT_COUNT b) = (s.dev.get (F.HND_Pn_DEALT_COUNT b) + 1) % 2 ^ 32 ∧ t.mem = s.mem ∧
       t.dev.evr = s.dev.evr)) ∧
  ((∀ (tile : BitVec 16) (s : State) (n p q : Nat) (x y : TileSt), s.dev.bar.old = none → s.dev.bar.cur = some n →
     s.dev.tile? n tile.toNat = some x → x.paired = true → x.rcd.partner ≠ tile.toNat → s.dev.tile? n x.rcd.partner = some y →
     s.dev.pairWaits (.bed n tile.toNat x.pairIx) = some p → s.dev.pairWaits (.bed n x.rcd.partner x.pairIx) = some q → p ≠ q →
     ∃ t : State, exec (.pairStart tile) s = .next t ∧ t.dev.tile? n tile.toNat = some { x with pairIx := x.pairIx + 1 } ∧
       t.dev.tile? n x.rcd.partner = some { y with pairIx := y.pairIx + 1 } ∧
       (∀ r : Run, s.dev.runOf p = some r → (t.dev.runOf p).map (fun r => r.planT) = some (fracI (r.k + 1))) ∧
       (∀ r : Run, s.dev.runOf q = some r → (t.dev.runOf q).map (fun r => r.planT) = some (fracI (r.k + 1))) ∧
       t.mem = s.mem ∧ t.dev.evr = s.dev.evr) ∧
   (∀ (tile : BitVec 16) (s : State) (n p : Nat) (x y : TileSt), s.dev.bar.old = none → s.dev.bar.cur = some n →
     s.dev.tile? n tile.toNat = some x → x.paired = true → x.rcd.partner ≠ tile.toNat → s.dev.tile? n x.rcd.partner = some y →
     s.dev.pairWaits (.bed n tile.toNat x.pairIx) = some p → s.dev.pairWaits (.bed n x.rcd.partner x.pairIx) = none →
     s.dev.pathOver (.bed n x.rcd.partner x.pairIx) = true →
     ∃ t : State, exec (.pairStart tile) s = .next t ∧ t.dev.tile? n tile.toNat = some { x with pairIx := x.pairIx + 1 } ∧
       t.dev.tile? n x.rcd.partner = some { y with pairIx := y.pairIx + 1 } ∧
       (∀ r : Run, s.dev.runOf p = some r → (t.dev.runOf p).map (fun r => r.planT) = some (fracI (r.k + 1))) ∧
       t.mem = s.mem ∧ t.dev.evr = s.dev.evr) ∧
   (∀ s : State, ∃ t : State, exec .remainderRequeue s = .next t ∧
     (∀ k : PKey, t.dev.path? k = (s.dev.path? k).map (requeued s.dev.tick)) ∧ t.dev.regs = s.dev.regs ∧ t.mem = s.mem ∧
     t.dev.evr = s.dev.evr ∧ t.dev.eng = s.dev.eng))

/-- An underrun (R110): on a port without a running path nothing happens; a path with fewer than five underruns leaves its engine at the
tick point it has reached, counted and flagged, and its beam is dark (stated for a path of an unpaired tile without a standby copy). -/
def Obligations.UnderrunInterrupts : Prop :=
  ∀ (p : Port) (s : State),
    (s.dev.runOf p.val = none → exec (.prefetchUnderrun p) s = .next s.settled) ∧
    (∀ (r : Run) (q : PathSt) (n tl i : Nat) (x : TileSt), s.dev.runOf p.val = some r → r.key = .bed n tl i →
      s.dev.path? r.key = some q → s.dev.tile? n tl = some x → x.paired = false → s.dev.hnd.stbyOut = [] → q.underruns < 4 →
      ∃ t : State, exec (.prefetchUnderrun p) s = .next t ∧ t.dev.runOf p.val = none ∧ t.dev.get F.BED_STAT_UNDERRUN = 1 ∧
        t.dev.get F.BED_UNDERRUNS_COUNT = min (s.dev.get F.BED_UNDERRUNS_COUNT + 1) 0xFFFFFFFF ∧
        t.dev.get (F.BEAMn_PSTAT_EMIT p.val) = 0 ∧
        (t.dev.path? r.key).map (fun q => q.underruns) = some (q.underruns + 1) ∧
        (t.dev.path? r.key).map (fun q => q.cls) = some 3 ∧ t.mem = s.mem)

/-- Verification (R113): a finished, checked tile takes the CRC-32C of its exposure stream; equal to the expected one it passes, else it
fails with 0x020B, and with VHOLD the Control Bar holds.
Quality records (R114, R115, R437): the record of the tile that finished first lands in the ring at WR, WR moves on by one, and the tile
is recorded; any other tile waits. -/
def Obligations.TilesVerifiedQualityRecords : Prop :=
  (∀ (n : Buf) (tile : BitVec 16) (s : State) (x : TileSt), s.dev.tile? n.val tile.toNat = some x → x.endT.isSome = true →
     x.rcd.expCrc ≠ 0 → x.crc = none → s.dev.tileStream s.mem n.val tile.toNat x.rcd ≠ [] →
     let c := crc32c (s.dev.tileStream s.mem n.val tile.toNat x.rcd)
     ∃ t : State, exec (.verifyDone n tile) s = .next t ∧ (t.dev.tile? n.val tile.toNat).map (fun y => y.crc) = some (some c) ∧
       (c = x.rcd.expCrc → t.dev.get F.BED_VPASS_COUNT = min (s.dev.get F.BED_VPASS_COUNT + 1) 0xFFFFFFFF ∧
         t.dev.evr = s.dev.evr ∧ regsKeep [F.BED_VPASS_COUNT] s.dev t.dev) ∧
       (c ≠ x.rcd.expCrc → t.dev.get F.BED_VFAIL_COUNT = min (s.dev.get F.BED_VFAIL_COUNT + 1) 0xFFFFFFFF ∧
         t.dev.get F.BED_STAT_VFAIL = 1 ∧ recorded s.dev t.dev 0x020B 0x03 3 tile.toNat x.rcd.expCrc.toNat c.toNat ∧
         (s.dev.get F.BED_CTRL_VHOLD = 1 → t.dev.get F.BED_CTRL_HOLD = 1) ∧
         regsKeep (recFlds ++ [F.BED_VFAIL_COUNT, F.BED_STAT_VFAIL, F.BED_CTRL_HOLD]) s.dev t.dev) ∧
       t.mem = s.mem) ∧
  (∀ (n : Buf) (tile : BitVec 16) (s : State) (rest : List (Nat × Nat)) (x : TileSt),
     s.dev.tile? n.val tile.toNat = some x →
     (s.dev.bar.finishOrder = [] → exec (.qrecWrite n tile) s = .next s.settled) ∧
     (s.dev.bar.finishOrder = (n.val, tile.toNat) :: rest → x.rcd.expCrc = 0 → s.dev.tileOut n.val tile.toNat = false →
       0 < s.dev.ringLen qrecRing → s.dev.ringFull qrecRing = false → overBudget x (s.dev.tileEnergy x) = false →
       let a := s.dev.get F.BED_QREC_BASE_BASE * 4096 + s.dev.get F.BED_QREC_WR_INDEX * 64
       let b := qrecBytes (BitVec.ofNat 32 (s.dev.keyBedNo (.bed n.val tile.toNat 0))) tile.toNat x (s.dev.tileEnergy x)
       let rec64 := b ++ leBytes 4 (crc32c b).toNat
       s.dev.beyond a rec64.length = false → s.dev.goneAt a rec64.length = none →
       ∃ t : State, exec (.qrecWrite n tile) s = .next t ∧ t.dev.bar.finishOrder = rest ∧
         t.dev.get F.BED_QREC_WR_INDEX = (s.dev.get F.BED_QREC_WR_INDEX + 1) % s.dev.ringLen qrecRing % 2 ^ 32 ∧
         (t.dev.tile? n.val tile.toNat).map (fun y => y.recorded) = some true ∧
         (∀ k : Nat, t.mem.read k = if a ≤ k ∧ k < a + rec64.length then rec64.getD (k - a) 0 else s.mem.read k)))

/-! ## The rigging (R57 to R66) -/

/-- RIG_LOAD (R63): RUNNING before BUSY; an image that fails its check completes REFUSED with RIG_ERR and 0x0102; one that passes waits to be
applied, with STATE LOADING, and nothing of the live set changes.
RIG_IMAGE_APPLY (R63): it waits for a running seal; the conditions of RUNNING are judged again; else the image is live and RIG_LOAD
completes OK. RIG_FLASH_LOAD (R60): the one slot that passes is live with FALLBACK; of two the later generation, slot A where they are
equal; with none the device stays UNRIGGED with attention RIGGING; PHASE becomes CALIBRATE. -/
def Obligations.RiggingImages : Prop :=
  (∀ (tag : Word) (addr : DWord) (len : Word) (s : State), s.dev.mayRun .load 0x10 tag = true → s.dev.sys.sup ≠ .halted →
     aligned16 addr = true →
     let r := s.stage addr len
     let x := rigValidate s.dev.variant.ports 0 r.1.dev.rig.live r.2
     (s.dev.rigRunning = true →
       exec (.rigLoad tag addr len) s = .next (s.onDev (fun d => d.finish .load 0x10 tag Res.running.code 0))) ∧
     (s.dev.rigRunning = false → s.dev.rigBusy .load = true →
       exec (.rigLoad tag addr len) s = .next (s.onDev (fun d => d.finish .load 0x10 tag Res.busy.code 0))) ∧
     (∀ e : RigErr, s.dev.rigRunning = false → s.dev.rigBusy .load = false → x = .error e →
       ∃ d : Dev, exec (.rigLoad tag addr len) s = .next { r.1 with dev := d.finish .load 0x10 tag Res.refused.code 0 } ∧
         d.get F.RIG_ERR_CHECK = e.check % 256 ∧ d.get F.RIG_ERR_SECTION = e.sect % 1024 ∧
         d.get F.RIG_ERR_OFFSET_OFFSET = e.offset % 2 ^ 32 ∧ d.get F.RIG_STAT_REFUSED = 1 ∧
         d = { r.1.dev with regs := d.regs, evr := d.evr } ∧
         regsKeep (recFlds ++ [F.RIG_ERR_CHECK, F.RIG_ERR_SECTION, F.RIG_ERR_OFFSET_OFFSET, F.RIG_STAT_REFUSED]) r.1.dev d) ∧
     (∀ secs : List Section, s.dev.rigRunning = false → s.dev.rigBusy .load = false → x = .ok secs →
       ∃ t : State, exec (.rigLoad tag addr len) s = .next t ∧
         t.dev.rig = { r.1.dev.rig with staged := some (stagedOf secs r.2 3 (r.1.dev.get F.RIG_STAT_STATE) tag) } ∧
         t.dev.get F.RIG_STAT_STATE = 1 ∧ (t.dev.laneCmd .load).isSome = true ∧ t.mem = r.1.mem ∧
         regsKeep [F.RIG_STAT_STATE] r.1.dev t.dev)) ∧
  ((∀ s : State, s.dev.rig.staged = none ∨ s.dev.bar.sealing.isSome = true ∨ s.dev.sys.sup ≠ .running → exec .rigImageApply s = .next s) ∧
   (∀ (s : State) (x : Staged), s.dev.rig.staged = some x → s.dev.bar.sealing = none → s.dev.sys.sup = .running →
     let was := { s.dev.put F.RIG_STAT_STATE x.back with rig := { s.dev.rig with staged := none } }
     (was.rigRunning = true →
       exec .rigImageApply s = .next { s with dev := was.finish .load 0x10 x.tag Res.running.code 0 }) ∧
     (was.rigRunning = false → ∃ d : Dev,
       exec .rigImageApply s = .next { s with dev := d.finish .load 0x10 x.tag Res.ok.code 0 } ∧
       d.rig.live = x.secs ∧ d.rig.staged = none ∧ d.rig.slots = s.dev.rig.slots)) ∧
   (∀ s : State, s.dev.get F.HST_STAT_PHASE ≠ 2 ∨ s.dev.rigged = true → exec .rigFlashLoad s = .next s) ∧
   (∀ s : State, s.dev.get F.HST_STAT_PHASE = 2 → s.dev.rigged = false →
     (∀ e f : RigErr, s.dev.slotCheck 0 = .error e → s.dev.slotCheck 1 = .error f →
       ∃ t : State, exec .rigFlashLoad s = .next t ∧ t.dev.rig = s.dev.rig ∧ t.dev.rigged = false ∧
         t.dev.get F.HST_STAT_PHASE = 3 ∧ bitAt (t.dev.get F.HST_ATTN_CAUSE) 13 = true) ∧
     (∀ (l : List Section) (e : RigErr), s.dev.slotCheck 0 = .ok l → s.dev.slotCheck 1 = .error e →
       ∃ t : State, exec .rigFlashLoad s = .next t ∧ t.dev.rig.live = l ∧ t.dev.get F.RIG_STAT_FALLBACK = 1 ∧
         t.dev.get F.HST_STAT_PHASE = 3) ∧
     (∀ (l : List Section) (e : RigErr), s.dev.slotCheck 0 = .error e → s.dev.slotCheck 1 = .ok l →
       ∃ t : State, exec .rigFlashLoad s = .next t ∧ t.dev.rig.live = l ∧ t.dev.get F.RIG_STAT_FALLBACK = 1 ∧
         t.dev.get F.HST_STAT_PHASE = 3) ∧
     (∀ a b : List Section, s.dev.slotCheck 0 = .ok a → s.dev.slotCheck 1 = .ok b →
       ∃ t : State, exec .rigFlashLoad s = .next t ∧ t.dev.get F.HST_STAT_PHASE = 3 ∧
         t.dev.rig.live = (if later32 (f32At (tget [] s.dev.rig.slots 1) 0x14) (f32At (tget [] s.dev.rig.slots 0) 0x14) then b
           else a))))

/-- RIG_SWAP and RIG_CANCEL (R63, R66): while the Control Bar runs a checked swap is armed, with RIG_STAT.LATE in the late window, and
completes ARMED; in IDLE it is live at once and completes OK; RIG_CANCEL takes back an armed swap, and completes LATCHED or NONE otherwise.
RIG_PROGRAM (R62, R63): a checked image whose read-back agrees stands in its slot, the other slot and the live set are as before, OK;
where the read-back differs the result is FLASH_FAIL and the live set is as before (what the slot holds is free). -/
def Obligations.SwapsAndSlots : Prop :=
  ((∀ (tag : Word) (addr : DWord) (len : Word) (s : State) (secs : List Section), s.dev.mayRun .load 0x11 tag = true →
     s.dev.sys.sup ≠ .halted → aligned16 addr = true → s.dev.rigBusy .load = false →
     let r := s.stage addr len
     rigValidate s.dev.variant.ports 1 r.1.dev.rig.live r.2 = .ok secs →
     (r.1.dev.get F.BED_STAT_PHASE ≠ 0 →
       ∃ d : Dev, exec (.rigSwap tag addr len) s = .next { r.1 with dev := d.finish .load 0x11 tag Res.armed.code 0 } ∧
         d.rig = { r.1.dev.rig with armed := some ⟨f32At r.2 0x10, secs⟩, armTick := r.1.dev.tick } ∧ d.get F.RIG_STAT_STATE = 3 ∧
         d.get F.RIG_SWAP_ID_IMG_ID = (f32At r.2 0x10).toNat ∧ (r.1.dev.lateWindow = true → d.get F.RIG_STAT_LATE = 1) ∧
         d.evr = r.1.dev.evr ∧ regsKeep [F.RIG_STAT_STATE, F.RIG_SWAP_ID_IMG_ID, F.RIG_STAT_LATE] r.1.dev d) ∧
     (r.1.dev.get F.BED_STAT_PHASE = 0 →
       ∃ d : Dev, exec (.rigSwap tag addr len) s = .next { r.1 with dev := d.finish .load 0x11 tag Res.ok.code 0 } ∧
         d.rig.live = swapSet r.1.dev.rig.live secs ∧ d.rig.armed = none ∧ d.get F.RIG_STAT_STATE = 2)) ∧
   (∀ (tag : Word) (s : State), s.dev.mayRun .ctrl 0x12 tag = true → s.dev.sys.sup ≠ .halted →
     (s.dev.rig.latched.isSome = true →
       exec (.rigCancel tag) s = .next (s.onDev (fun d => d.finish .ctrl 0x12 tag Res.latched.code 0))) ∧
     (s.dev.rig.latched = none → s.dev.rig.armed = none →
       exec (.rigCancel tag) s = .next (s.onDev (fun d => d.finish .ctrl 0x12 tag Res.none.code 0))) ∧
     (∀ w : Swap, s.dev.rig.latched = none → s.dev.rig.armed = some w →
       ∃ d : Dev, exec (.rigCancel tag) s = .next { s with dev := d.finish .ctrl 0x12 tag Res.ok.code 0 } ∧
         d = { s.dev with regs := d.regs, rig := { s.dev.rig with armed := none } } ∧ d.get F.RIG_STAT_STATE = 2 ∧
         regsKeep [F.RIG_STAT_STATE, F.RIG_SWAP_ID_IMG_ID] s.dev d))) ∧
  (∀ (tag : Word) (addr : DWord) (len slot : Word) (s : State) (secs : List Section), s.dev.mayRun .flash 0x13 tag = true →
     s.dev.sys.sup ≠ .halted → aligned16 addr = true → slot.toNat ≤ 1 → s.dev.rigBusy .flash = false →
     let r := s.stage addr len
     rigValidate s.dev.variant.ports 0 r.1.dev.rig.live r.2 = .ok secs →
     (∃ d : Dev, exec (.rigProgram tag addr len slot true) s = .next { r.1 with dev := d.finish .flash 0x13 tag Res.ok.code 0 } ∧
       d.rig.live = r.1.dev.rig.live ∧ tfind d.rig.slots slot.toNat = some (r.2.take (leAt r.2 8 4)) ∧
       (∀ k : Nat, k ≠ slot.toNat → tfind d.rig.slots k = tfind r.1.dev.rig.slots k) ∧ d.regs = r.1.dev.regs) ∧
     (∃ d : Dev, exec (.rigProgram tag addr len slot false) s =
         .next { r.1 with dev := d.finish .flash 0x13 tag Res.flashFail.code 0 } ∧
       d.rig.live = r.1.dev.rig.live ∧
       (∀ k : Nat, k ≠ slot.toNat → tfind d.rig.slots k = tfind r.1.dev.rig.slots k) ∧ d.regs = r.1.dev.regs))

/-! ## Table images and the log (R135, R203, R291, R387) -/

/-- CORR_LOAD, LOOP_LOAD and AXS_LOAD complete UNRIGGED on a device without a rigging (R135, R203, R291), and a refused image changes no
table: it is recorded as 0x0303, 0x0403 or 0x0913 with the failing offset.
Accepted table images: CORR_LOAD makes the image the port's correction and BEAMn_CORR_ID its identifier (R135); LOOP_LOAD of a port
table on an engine without a running path is live at once under its TABLE_ID (R199, R203); AXS_LOAD on an axis at rest is live at once (R291).
Each records its event and completes OK. -/
def Obligations.TableImages : Prop :=
  (∀ (tag port : Word) (addr : DWord) (len : Word) (s : State), s.dev.sys.sup ≠ .halted → aligned16 addr = true →
     (s.dev.mayRun .load 0x40 tag = true → port.toNat ≤ 31 → s.dev.rigged = false →
       exec (.corrLoad tag port addr len) s = .next (s.onDev (fun d => d.finish .load 0x40 tag Res.unrigged.code 0))) ∧
     (s.dev.mayRun .load 0x40 tag = true → port.toNat ≤ 31 → s.dev.rigged = true → s.dev.get F.BED_STAT_PHASE ≠ 0 →
       s.dev.inService port.toNat = true →
       exec (.corrLoad tag port addr len) s = .next (s.onDev (fun d => d.finish .load 0x40 tag Res.running.code 0))) ∧
     (s.dev.mayRun .load 0x41 tag = true → s.dev.rigged = false →
       exec (.loopLoad tag addr len) s = .next (s.onDev (fun d => d.finish .load 0x41 tag Res.unrigged.code 0))) ∧
     (s.dev.mayRun .load 0x42 tag = true → s.dev.rigged = false →
       exec (.axsLoad tag addr len) s = .next (s.onDev (fun d => d.finish .load 0x42 tag Res.unrigged.code 0))) ∧
     (let r := s.imageRead addr.toNat (min len.toNat 4416)
      let a := byteAt r.2.1 6
      ∀ o : Nat, s.dev.mayRun .load 0x42 tag = true → s.dev.rigged = true → a ≤ 3 →
       badAxisImage r.2.1 len.toNat (!r.2.2) = some o →
       exec (.axsLoad tag addr len) s = .next (r.1.onDev (fun d =>
         (d.raise 0x0913 (srcAxis a) 2 a o (f32At r.2.1 8).toNat).finish .load 0x42 tag Res.refused.code 0))) ∧
     (let r := s.imageRead addr.toNat (min len.toNat (64 + corrPayLen))
      let p := port.toNat
      ∀ o : Nat, s.dev.mayRun .load 0x40 tag = true → s.dev.rigged = true → p ≤ 31 → s.dev.get F.BED_STAT_PHASE = 0 →
       badCorrImage (r.1.dev.sections false) p r.2.1 len.toNat (!r.2.2) = some o →
       exec (.corrLoad tag port addr len) s = .next (r.1.onDev (fun d =>
         (d.raise 0x0303 (srcPort p) 2 p o (leAt r.2.1 0x14 4)).finish .load 0x40 tag Res.refused.code 0))) ∧
     (let r := s.imageRead addr.toNat (min len.toNat 65600)
      let kind := byteAt r.2.1 6
      let p := byteAt r.2.1 7
      s.dev.mayRun .load 0x41 tag = true → s.dev.rigged = true → kind = 1 → p ≤ 31 →
       (∀ w : Word × List Byte, (r.1.dev.loopOfPort p).pend = some w →
         exec (.loopLoad tag addr len) s = .next (r.1.onDev (fun d => d.finish .load 0x41 tag Res.busy.code 0))) ∧
       (∀ o : Nat, (r.1.dev.loopOfPort p).pend = none → badLoopImage (r.1.dev.sections false) r.2.1 len.toNat (!r.2.2) = some o →
         exec (.loopLoad tag addr len) s = .next (r.1.onDev (fun d =>
           (d.raise 0x0403 (srcPort p) 2 (pair8 1 p) o (f32At r.2.1 8).toNat).finish .load 0x41 tag Res.refused.code 0))))) ∧
  (∀ (tag port : Word) (addr : DWord) (len : Word) (s : State), s.dev.sys.sup ≠ .halted → aligned16 addr = true →
     s.dev.rigged = true →
     (let r := s.imageRead addr.toNat (min len.toNat (64 + corrPayLen))
      let p := port.toNat
      s.dev.mayRun .load 0x40 tag = true → p ≤ 31 → s.dev.get F.BED_STAT_PHASE = 0 →
       badCorrImage (r.1.dev.sections false) p r.2.1 len.toNat (!r.2.2) = none →
       ∃ d : Dev, exec (.corrLoad tag port addr len) s = .next { r.1 with dev := d.finish .load 0x40 tag Res.ok.code 0 } ∧
         (tfind d.corr p).map (fun c => c.payload) = some (r.2.1.drop 64) ∧
         d.get (F.BEAMn_CORR_ID_CORR_ID p) = leAt r.2.1 0x14 4 % 2 ^ 32 ∧ d.get (F.BEAMn_TSTAT_NOGRID p) = 0 ∧
         recorded r.1.dev d 0x0302 (srcPort p) 1 p (r.1.dev.get (F.BEAMn_CORR_ID_CORR_ID p)) (leAt r.2.1 0x14 4)) ∧
     (let r := s.imageRead addr.toNat (min len.toNat 65600)
      let p := byteAt r.2.1 7
      s.dev.mayRun .load 0x41 tag = true → byteAt r.2.1 6 = 1 → p ≤ 31 → (r.1.dev.loopOfPort p).pend = none →
       badLoopImage (r.1.dev.sections false) r.2.1 len.toNat (!r.2.2) = none → r.1.dev.runOf p = none →
       ∃ d : Dev, exec (.loopLoad tag addr len) s = .next { r.1 with dev := d.finish .load 0x41 tag Res.ok.code 0 } ∧
         (d.loopOfPort p).tab = r.2.1.drop 64 ∧ (d.loopOfPort p).pend = none ∧
         d.get (F.LOOPn_TABLE_ID_TABLE_ID p) = (f32At r.2.1 8).toNat ∧
         recorded r.1.dev d 0x0402 (srcPort p) 1 (pair8 1 p) (r.1.dev.get (F.LOOPn_TABLE_ID_TABLE_ID p)) (f32At r.2.1 8).toNat) ∧
     (let r := s.imageRead addr.toNat (min len.toNat 4416)
      let a := byteAt r.2.1 6
      s.dev.mayRun .load 0x42 tag = true → badAxisImage r.2.1 len.toNat (!r.2.2) = none → a ≤ 3 →
       (r.1.dev.get (F.AXSa_STAT_STATE a) = 2 →
         exec (.axsLoad tag addr len) s = .next (r.1.onDev (fun d => d.finish .load 0x42 tag Res.busy.code 0))) ∧
       (r.1.dev.get (F.AXSa_STAT_STATE a) ≠ 2 →
         ∃ d : Dev, exec (.axsLoad tag addr len) s = .next { r.1 with dev := d.finish .load 0x42 tag Res.ok.code 0 } ∧
           (d.axsOf a).tab = r.2.1.drop 64 ∧ d.get (F.AXSa_TABLE_ID_TABLE_ID a) = (f32At r.2.1 8).toNat ∧
           recorded r.1.dev d 0x0912 (srcAxis a) 1 a (r.1.dev.get (F.AXSa_TABLE_ID_TABLE_ID a)) (f32At r.2.1 8).toNat)))

/-! ## Trajectory and beam ports (R117 to R172) -/

/-- A T-tick (R117, R311): the T-tick counter rises by 1, internal time by 1,000 ns, and P-tick 0 comes next. Stated where no port is in use,
and where one Stringline port in UP is in use with no path, no observation, no takeover and nothing else on the device that moves with time: its engine
stays where it is, its port repeats its last command with the new tick, and its gate stays closed.
Holds and SYNCs (R73, R121, R122): without a running path neither row does anything; a hold or settle that is over by the next T-tick is
left; a SYNC whose timeout runs out ends its path, sets SYNC_TIMEOUT in the tile's record, counts the rest of the path as not exposed and
records 0x0229 (stated where another path of the tile goes on, and without takeovers and standby copies); before, or with no timeout, it
waits on. -/
def Obligations.TTicksHoldsAndSyncs : Prop :=
  (∀ s : State, s.dev.ptp.step = none → s.dev.sns.slews = [] → s.dev.sns.spots = [] → s.dev.thm.beams = [] → s.dev.ddr.ch = [] →
     pinWith (s.dev.sections false) 0x31 = none →
     (portsInUse (s.dev.sections false) = [] → ∃ t : State, exec .tTick s = .next t ∧ t.dev.tick = s.dev.tick + 1 ∧
       t.dev.time = s.dev.time + 1000 ∧ t.dev.sub = 0 ∧ t.dev.regs = s.dev.regs ∧ t.dev.evr = s.dev.evr ∧ t.mem = s.mem ∧
       t.dev.eng = s.dev.eng ∧ t.dev.prt = s.dev.prt ∧ t.dev.hst = s.dev.hst ∧ t.dev.bar = s.dev.bar) ∧
     (∀ p : Nat, p < 32 → portsInUse (s.dev.sections false) = [p] → s.dev.runOf p = none → (s.dev.engOf p).queue = [] →
       tfind s.dev.sns.obs p = none → s.dev.hnd.tko = [] → s.dev.xy2 p = false → s.dev.get (F.BEAMn_PSTAT_LINK p) = 4 → (s.dev.prtOf p).gate = false →
       ∃ t : State, exec .tTick s = .next t ∧ t.dev.tick = s.dev.tick + 1 ∧ t.dev.time = s.dev.time + 1000 ∧ t.dev.sub = 0 ∧
         (t.dev.prtOf p).frame = slFrame (s.dev.lastCmd p) (s.dev.tick + 1) ∧ (t.dev.engOf p).x = (s.dev.engOf p).x ∧
         (t.dev.engOf p).y = (s.dev.engOf p).y ∧ (t.dev.engOf p).f = (s.dev.engOf p).f ∧ t.dev.runOf p = none ∧
         t.dev.get (F.BEAMn_PSTAT_EMIT p) = 0 ∧ t.dev.evr = s.dev.evr ∧ t.mem = s.mem)) ∧
  ((∀ (p : Port) (s : State), s.dev.runOf p.val = none →
     exec (.holdEnd p) s = .next s ∧ exec (.syncTimeout p) s = .next s.settled) ∧
   (∀ (p : Port) (s : State) (r : Run) (mv : Move), s.dev.runOf p.val = some r → r.moveAt? r.k = some mv → mv.kind = .hold →
     fracLe (fracAdd mv.t0 mv.dt) (fracI (r.k + 1)) = true →
     ∃ t : State, exec (.holdEnd p) s = .next t ∧ t.dev.runOf p.val = some (r.trim (r.k + 1)) ∧
       (∀ q : Nat, q ≠ p.val → t.dev.engOf q = s.dev.engOf q) ∧
       t = { s with dev := { s.dev with regs := t.dev.regs, eng := t.dev.eng } } ∧
       regsKeep [F.BEAMn_TSTAT_STATE p.val, F.BEAMn_PSTAT_EMIT p.val] s.dev t.dev) ∧
   (∀ (p : Port) (s : State) (r : Run) (mv : Move) (g : Seg) (n tl i j : Nat) (x : TileSt) (a b : PathSt), s.dev.runOf p.val = some r →
     r.key = .bed n tl i → r.moveAt? r.k = some mv → mv.kind = .sync → s.dev.segOf s.mem r.key mv.seg = .ok g → g.vel ≠ 0 →
     s.dev.hnd.stbyOut = [] → s.dev.hnd.tko = [] → s.dev.tile? n tl = some x → x.paths[i]? = some a → j ≠ i → x.paths[j]? = some b →
     b.st ≠ .ended → snapF mv.t0 + 10 * g.vel ≤ r.k →
     ∃ t : State, exec (.syncTimeout p) s = .next t ∧ t.dev.runOf p.val = none ∧ t.dev.get (F.BEAMn_PSTAT_EMIT p.val) = 0 ∧
       t.dev.evr = (s.dev.raiseSeg (s.dev.segTag s.mem r.key mv.seg) 0x0229 0x03 2 (tl + 65536 * p.val) mv.seg (r.last - mv.seg)).evr ∧
       (t.dev.tile? n tl).map (fun y => bitAt y.flags 11) = some true ∧
       (t.dev.tile? n tl).map (fun y => y.notExp) =
         some (x.notExp + s.dev.countExpose s.mem r.key mv.seg (a.first + a.count - mv.seg)) ∧
       (t.dev.path? r.key).map (fun y => y.st) = some .ended ∧
       (∀ q : Nat, q ≠ p.val → t.dev.engOf q = s.dev.engOf q)) ∧
   (∀ (p : Port) (s : State) (r : Run) (mv : Move) (g : Seg), s.dev.runOf p.val = some r → r.moveAt? r.k = some mv → mv.kind = .sync →
     s.dev.segOf s.mem r.key mv.seg = .ok g → (g.vel = 0 ∨ r.k < snapF mv.t0 + 10 * g.vel) →
     exec (.syncTimeout p) s = .next s.settled))

/-- Stringline start-up (R151, R152): CLOCK leads to ALIGN on start bits, ALIGN to MEASURE when both lanes have a run of at least 4 steps, FAULT
back to CLOCK; a start-up that takes too long sets TFAIL, is recorded once as 0x0311 and begins again; in any other state the rows do nothing.
MEASURE (R152, R216): with the head ready and two passes that agree on a round trip of 1 to 32 T-ticks the link is UP with that latency
and its bit offset; unequal passes of one frame, a head that is not ready or a link in another state change nothing. -/
def Obligations.LinkStartAndLatency : Prop :=
  (∀ (p : Port) (s : State),
     let l := s.dev.get (F.BEAMn_PSTAT_LINK p.val)
     let shown := [F.BEAMn_PSTAT_LINK p.val, F.BEAMn_TSTAT_STATE p.val, F.BEAMn_PSTAT_EMIT p.val]
     let eye := [F.BEAMn_SL_EYE_PHASE_A p.val, F.BEAMn_SL_EYE_WIDTH_A p.val, F.BEAMn_SL_EYE_PHASE_B p.val, F.BEAMn_SL_EYE_WIDTH_B p.val]
     (l = 1 → ∃ t : State, exec (.slStartBitsSeen p) s = .next t ∧ t.dev.get (F.BEAMn_PSTAT_LINK p.val) = 2 ∧ onlyRegs shown s t) ∧
     (l ≠ 1 → exec (.slStartBitsSeen p) s = .next s) ∧
     (∀ phA wA phB wB : Fin 16, l = 2 → 4 ≤ wA.val → 4 ≤ wB.val → ∃ t : State, exec (.slAlignDone p phA wA phB wB) s = .next t ∧
       t.dev.get (F.BEAMn_PSTAT_LINK p.val) = 3 ∧ t.dev.get (F.BEAMn_SL_EYE_PHASE_A p.val) = phA.val ∧
       t.dev.get (F.BEAMn_SL_EYE_WIDTH_A p.val) = wA.val ∧ t.dev.get (F.BEAMn_SL_EYE_PHASE_B p.val) = phB.val ∧
       t.dev.get (F.BEAMn_SL_EYE_WIDTH_B p.val) = wB.val ∧ onlyRegs (shown ++ eye) s t) ∧
     (∀ phA wA phB wB : Fin 16, l ≠ 2 ∨ wA.val < 4 ∨ wB.val < 4 → exec (.slAlignDone p phA wA phB wB) s = .next s) ∧
     (l = 5 → ∃ t : State, exec (.slFaultExpire p) s = .next t ∧ t.dev.get (F.BEAMn_PSTAT_LINK p.val) = 1 ∧
       (t.dev.prtOf p.val).linkSince = s.dev.time ∧ regsKeep shown s.dev t.dev ∧ t.mem = s.mem ∧ t.dev.evr = s.dev.evr) ∧
     (l ≠ 5 → exec (.slFaultExpire p) s = .next s) ∧
     (1 ≤ l → l ≤ 3 → ∃ t : State, exec (.slStartupTimeout p) s = .next t ∧ t.dev.get (F.BEAMn_PSTAT_LINK p.val) = 1 ∧
       t.dev.get (F.BEAMn_PSTAT_TFAIL p.val) = 1 ∧
       (s.dev.get (F.BEAMn_PSTAT_TFAIL p.val) = 0 → recorded s.dev t.dev 0x0311 (srcPort p.val) 2 p.val l 0) ∧
       (s.dev.get (F.BEAMn_PSTAT_TFAIL p.val) = 1 → t.dev.evr = s.dev.evr) ∧ t.mem = s.mem) ∧
     (l = 0 ∨ 4 ≤ l → exec (.slStartupTimeout p) s = .next s)) ∧
  (∀ (p : Port) (m : SlMeasure) (s : State),
     (s.dev.get (F.BEAMn_PSTAT_LINK p.val) = 3 → m.equal = true → m.ready = true → m.t1 = m.t2 → 1 ≤ m.t1 → m.t1 ≤ 32 →
       ∃ t : State, exec (.slMeasureDone p m) s = .next t ∧ t.dev.get (F.BEAMn_PSTAT_LINK p.val) = 4 ∧
         t.dev.get (F.BEAMn_LAT_TICKS p.val) = m.t1 ∧ t.dev.get (F.BEAMn_SL_EYE_OFFSET p.val) = m.offset.toNat ∧
         t.dev.get (F.BEAMn_PSTAT_READY p.val) = 1 ∧ t.dev.sns.latSettled.contains p.val = true ∧ t.mem = s.mem) ∧
     (s.dev.get (F.BEAMn_PSTAT_LINK p.val) ≠ 3 ∨ m.equal = false ∨ m.ready = false → exec (.slMeasureDone p m) s = .next s))

/-- Inbound frames (R137, R148, R153): judged only on a Stringline port in UP, in the window and once in a T-tick; a good frame on a port
without a running path gives its status, temperature and actual position and ends a run of bad ones; a bad one and a missing one are
counted, and before the third in a row nothing else happens to a port without a running path. -/
def Obligations.FramesJudged : Prop :=
  ∀ (p : Port) (bytes : List Byte) (s : State),
    let f := slParse bytes
    let bad := !f.crcOk || f.seq != (s.dev.tick - BitVec.ofNat 32 (s.dev.get (F.BEAMn_LAT_TICKS p.val))).toNat % 256 || f.cmdErr || !f.ready
    (s.dev.get (F.BEAMn_PSTAT_LINK p.val) ≠ 4 → exec (.missingFrame p) s = .next s.settled) ∧
    (s.dev.get (F.BEAMn_PSTAT_LINK p.val) ≠ 4 → s.dev.get (F.BEAMn_PSTAT_LINK p.val) ≠ 3 →
      exec (.inboundFrame p bytes true) s = .next s.settled) ∧
    (s.dev.get (F.BEAMn_PSTAT_LINK p.val) = 4 → exec (.inboundFrame p bytes false) s = .next s.settled) ∧
    (s.dev.get (F.BEAMn_PSTAT_LINK p.val) = 4 → s.dev.xy2 p.val = false → (s.dev.prtOf p.val).judged ≠ some s.dev.tick →
      s.dev.runOf p.val = none →
      (bad = false → f.fault = false → s.dev.get (F.BEAMn_FE_LIMIT_LIMIT p.val) = 0 →
        ∃ t : State, exec (.inboundFrame p bytes true) s = .next t ∧ (t.dev.prtOf p.val).actX = f.x ∧
          (t.dev.prtOf p.val).actY = f.y ∧ (t.dev.prtOf p.val).actZ = f.z ∧ (t.dev.prtOf p.val).badRun = 0 ∧
          (t.dev.prtOf p.val).judged = some s.dev.tick ∧ t.dev.get (F.BEAMn_HEAD_STATUS p.val) = f.status % 65536 ∧
          t.dev.get (F.BEAMn_HEAD_TEMP p.val) = f.temp % 65536 ∧ t.dev.evr = s.dev.evr ∧ t.mem = s.mem) ∧
      (bad = true → f.crcOk = false ∨ f.fault = false → (s.dev.prtOf p.val).badRun < 2 →
        ∃ t : State, exec (.inboundFrame p bytes true) s = .next t ∧
          t.dev.get (F.BEAMn_SL_BAD_COUNT p.val) = min (s.dev.get (F.BEAMn_SL_BAD_COUNT p.val) + 1) 0xFFFFFFFF ∧
          (t.dev.prtOf p.val).badRun = (s.dev.prtOf p.val).badRun + 1 ∧ t.dev.evr = s.dev.evr ∧ t.mem = s.mem ∧
          regsKeep [F.BEAMn_SL_BAD_COUNT p.val] s.dev t.dev) ∧
      ((s.dev.prtOf p.val).badRun < 2 → ∃ t : State, exec (.missingFrame p) s = .next t ∧
          t.dev.get (F.BEAMn_SL_MISS_COUNT p.val) = min (s.dev.get (F.BEAMn_SL_MISS_COUNT p.val) + 1) 0xFFFFFFFF ∧
          (t.dev.prtOf p.val).badRun = (s.dev.prtOf p.val).badRun + 1 ∧ t.dev.evr = s.dev.evr ∧ t.mem = s.mem ∧
          regsKeep [F.BEAMn_SL_MISS_COUNT p.val] s.dev t.dev))

/-- The laser source (R159, R166): an edge of LSR_OKn starts its times again, a low level holds EMIT_EN low at once; a source that stays low for
LSR_FILT µs, 0 taken as 1, is a fault of its port: LFAULT, LSR_OK 0, the beam dark and out of service (stated for a port that is in service
with no path and no takeover); before that, and while it is ready, nothing changes; on a port not in use, and once its fault has been
declared, LSR_OK alone follows it. -/
def Obligations.LaserSource : Prop :=
  ∀ (p : Port) (s : State),
    (∀ level : Bool, (s.dev.prtOf p.val).lsr = level → exec (.lsrOkChange p level) s = .next s) ∧
    (∀ level : Bool, (s.dev.prtOf p.val).lsr ≠ level → ∃ t : State, exec (.lsrOkChange p level) s = .next t ∧
      (t.dev.prtOf p.val).lsr = level ∧ (t.dev.prtOf p.val).lsrSince = s.dev.time ∧
      (level = false → t.dev.get (F.BEAMn_PSTAT_EMIT p.val) = 0 ∧
        t.dev.get (F.BEAMn_PSTAT_LSR_OK p.val) = s.dev.get (F.BEAMn_PSTAT_LSR_OK p.val)) ∧
      (level = true → t.dev.get (F.BEAMn_PSTAT_LSR_OK p.val) = 1) ∧ t.dev.evr = s.dev.evr ∧ t.mem = s.mem ∧
      regsKeep [F.BEAMn_PSTAT_EMIT p.val, F.BEAMn_PSTAT_LSR_OK p.val] s.dev t.dev) ∧
    let low := elapsed64 s.dev.time (s.dev.prtOf p.val).lsrSince
    let filt := 1000 * max 1 (s.dev.get (F.BEAMn_PCTRL_LSR_FILT p.val))
    ((s.dev.prtOf p.val).lsr = true ∨ low < filt → exec (.laserSourceFault p) s = .next s.settled) ∧
    ((s.dev.prtOf p.val).lsr = false → filt ≤ low → s.dev.assigned p.val = false ∨ (s.dev.prtOf p.val).lsrDone = true →
      ∃ t : State, exec (.laserSourceFault p) s = .next t ∧ t.dev.get (F.BEAMn_PSTAT_LSR_OK p.val) = 0 ∧
        onlyRegs [F.BEAMn_PSTAT_LSR_OK p.val] s.settled t) ∧
    (s.dev.assigned p.val = true → (s.dev.prtOf p.val).lsr = false → filt ≤ low → (s.dev.prtOf p.val).lsrDone = false →
      (s.dev.prtOf p.val).classes = [] → s.dev.get (F.HND_Pn_STAT_STATE p.val) = 0 → s.dev.runOf p.val = none → s.dev.hnd.tko = [] →
      ∃ t : State, exec (.laserSourceFault p) s = .next t ∧ t.dev.get (F.BEAMn_PSTAT_LFAULT p.val) = 1 ∧
        t.dev.get (F.BEAMn_PSTAT_LSR_OK p.val) = 0 ∧ t.dev.get (F.HND_Pn_STAT_STATE p.val) = 2 ∧
        t.dev.get (F.BEAMn_PSTAT_EMIT p.val) = 0 ∧ (t.dev.prtOf p.val).classes = [1] ∧ (t.dev.engOf p.val).queue = [] ∧
        t.mem = s.mem)

/-- Engine pairs (R170): a failed SPARE pair is FAILED with its cause and 0x0316; a failed ACTIVE pair is detached, its port (stated where
it is in service with no path, no takeover runs and no other port has lost its pair in this T-tick) goes out of service, and the lowest SPARE pair begins its attach check on it, or with none
left the port is RETIRED; an UNASSIGNED or FAILED pair changes nothing.
An attach check (R170): it makes the pair ACTIVE on its port, with 0x0317, or FAILED with cause 4 and 0x0316, the next SPARE pair then
being tried; a pair that is not attaching changes nothing. -/
def Obligations.PairsFailAndAttach : Prop :=
  (∀ (k : Pair) (cause : PairCause) (s : State),
     let st := s.dev.get (F.ENG_PAIRk_STATE k.val)
     let p := s.dev.get (F.ENG_PAIRk_PORT k.val)
     (st = 0 ∨ 4 ≤ st → exec (.pairFailure k cause) s = .next s.settled) ∧
     (st = 2 → ∃ t : State, exec (.pairFailure k cause) s = .next t ∧ t.dev.get (F.ENG_PAIRk_STATE k.val) = 4 ∧
       t.dev.get (F.ENG_PAIRk_CAUSE k.val) = (pairCodes cause).1 ∧
       recorded s.dev t.dev 0x0316 (0x60 + k.val) 4 k.val 0xFF (pairCodes cause).1 ∧
       regsKeep (recFlds ++ [F.ENG_PAIRk_STATE k.val, F.ENG_PAIRk_CAUSE k.val, F.ENG_SPARES_COUNT]) s.dev t.dev ∧ t.mem = s.mem) ∧
     (st = 1 → p < 32 → s.dev.get (F.HND_Pn_STAT_STATE p) = 0 → s.dev.runOf p = none → s.dev.hnd.tko = [] → s.dev.routedNow = [] →
       ∃ t : State, exec (.pairFailure k cause) s = .next t ∧ t.dev.get (F.ENG_PAIRk_STATE k.val) = 4 ∧
         t.dev.get (F.ENG_PAIRk_CAUSE k.val) = (pairCodes cause).1 ∧ t.dev.get (F.BEAMn_PSTAT_ATTACHED p) = 0 ∧
         (∀ j : Nat, (upTo 36).find? (fun j => s.dev.get (F.ENG_PAIRk_STATE j) == 2) = some j →
           t.dev.get (F.ENG_PAIRk_STATE j) = 3 ∧ t.dev.get (F.ENG_PAIRk_PORT j) = p ∧ t.dev.get (F.HND_Pn_STAT_STATE p) = 2) ∧
         ((upTo 36).find? (fun j => s.dev.get (F.ENG_PAIRk_STATE j) == 2) = none → t.dev.get (F.HND_Pn_STAT_STATE p) = 3) ∧
         t.mem = s.mem)) ∧
  (∀ (k : Pair) (s : State),
     let p := s.dev.get (F.ENG_PAIRk_PORT k.val)
     (∀ ok : Bool, s.dev.get (F.ENG_PAIRk_STATE k.val) ≠ 3 → exec (.attachCheckDone k ok) s = .next s) ∧
     (s.dev.get (F.ENG_PAIRk_STATE k.val) = 3 → p < 32 → s.dev.get (F.HND_Pn_STAT_STATE p) ≠ 2 →
       ∃ t : State, exec (.attachCheckDone k true) s = .next t ∧ t.dev.get (F.ENG_PAIRk_STATE k.val) = 1 ∧
         t.dev.get (F.BEAMn_PAIR_PAIR p) = k.val ∧ t.dev.get (F.BEAMn_PSTAT_ATTACHED p) = 1 ∧
         t.dev.get F.ENG_ATTACHES_COUNT = min (s.dev.get F.ENG_ATTACHES_COUNT + 1) 0xFFFFFFFF ∧
         recorded s.dev t.dev 0x0317 (0x60 + k.val) 1 k.val p 0 ∧ t.mem = s.mem ∧
         regsKeep (recFlds ++ [F.ENG_PAIRk_STATE k.val, F.BEAMn_PAIR_PAIR p, F.BEAMn_PSTAT_ATTACHED p, F.ENG_ATTACHES_COUNT,
           F.BEAMn_TSTAT_STATE p, F.BEAMn_PSTAT_EMIT p]) s.dev t.dev) ∧
     (∀ j : Nat, s.dev.get (F.ENG_PAIRk_STATE k.val) = 3 → p < 32 → s.dev.entryOf p = none → (∀ x ∈ s.dev.routedNow, x.1 = k.val) →
       (upTo 36).find? (fun j => s.dev.get (F.ENG_PAIRk_STATE j) == 2) = some j →
       ∃ t : State, exec (.attachCheckDone k false) s = .next t ∧ t.dev.get (F.ENG_PAIRk_STATE k.val) = 4 ∧
         t.dev.get (F.ENG_PAIRk_CAUSE k.val) = 4 ∧ t.dev.get (F.ENG_PAIRk_STATE j) = 3 ∧ t.dev.get (F.ENG_PAIRk_PORT j) = p ∧
         recorded s.dev t.dev 0x0316 (0x60 + k.val) 4 k.val p 4 ∧ t.mem = s.mem ∧
         regsKeep (recFlds ++ [F.ENG_PAIRk_STATE k.val, F.ENG_PAIRk_CAUSE k.val, F.ENG_PAIRk_STATE j, F.ENG_PAIRk_PORT j,
           F.ENG_SPARES_COUNT]) s.dev t.dev))

/-! ## Power loops (R173 to R209) -/

/-- Power selection (R189, R190): the winner is a candidate, no candidate lies below it, and no candidate before it in descriptor order is
as low; in a P-tick that does not emit the power word is 0 and nobody wins, and the blocks' integrators stay (R189). -/
def Obligations.MinSelectAndDarkTicks : Prop :=
  (∀ (cs pre post : List Cand) (w : Cand), minSelect cs = some w → (∀ y ∈ cs, f32IsNaN y.m = false) →
    w ∈ cs ∧ (∀ y ∈ cs, f32Lt y.m w.m = false) ∧
    (cs = pre ++ w :: post → w ∉ pre → ∀ y ∈ pre, f32Lt w.m y.m = true)) ∧
  (∀ cs : List Cand, cs ≠ [] → (minSelect cs).isSome = true) ∧
  (∀ (l : LoopEng) (c : PCtx), c.emit = false → (l.pstep c).pwr = 0 ∧ (l.pstep c).win = none ∧ (l.pstep c).l.emit = false ∧
    (l.pstep c).l.emit1 = l.emit ∧ (l.pstep c).l.u1 = l.u ∧ (l.pstep c).l.melt.i = l.melt.i ∧ (l.pstep c).l.src.i = l.src.i ∧
    (l.pstep c).l.gateRun = 0)

/-- The register fields in which P-ticks show the samples of the photodiode channels (R238). -/
def pdFlds : List Fld := (upTo 64).flatMap (fun c => [F.SNS_CHc_STAT_MISS c, F.SNS_CHc_RAW_CODE c, F.SNS_CHc_STAT_SAT c])

/-- A P-tick (R173, R32): the next P-tick of the T-tick comes next, and the T-tick counter and internal time stay. Stated where no port is in use
(the listed channels alone show their samples), for a port without an engine pair, whose frame carries no power and whose blocks stay as they
are, and for a port with one whose gate stays closed and whose loop has no descriptor and waits for nothing: LOOPn_WIN shows no winner and
the frame carries no power. -/
def Obligations.PTickRuns : Prop :=
  ∀ (l : List PdSample) (s : State),
    (portsInUse (s.dev.sections false) = [] → ∃ t : State, exec (.pTick l) s = .next t ∧ t.dev.sub = s.dev.sub + 1 ∧
      t = { s with dev := { s.dev with regs := t.dev.regs, sub := t.dev.sub, prt := t.dev.prt, sys := { s.dev.sys with lost := [] },
                                       wq := [] } } ∧
      (l = [] → t.dev.regs = s.dev.regs) ∧ regsKeep pdFlds s.dev t.dev ∧ (s.dev.sub.val < 3 → t.dev.prt = s.dev.prt)) ∧
    (∀ p : Nat, p < 32 → portsInUse (s.dev.sections false) = [p] → s.dev.get (F.BEAMn_PSTAT_ATTACHED p) = 0 →
      ∃ t : State, exec (.pTick l) s = .next t ∧ t.dev.sub = s.dev.sub + 1 ∧ t.dev.tick = s.dev.tick ∧ t.dev.time = s.dev.time ∧
        (t.dev.prtOf p).fcnt = (s.dev.prtOf p).fcnt + 1 ∧
        (t.dev.prtOf p).mod = (if hasMod (s.dev.sections false) p
          then modFrame 0 false (s.dev.inService p) (s.dev.prtOf p).fcnt.val else 0) ∧
        t.dev.get (F.LOOPn_WIN_PWR p) = 0 ∧ t.dev.get (F.LOOPn_WIN_CLASS p) = 7 ∧ (t.dev.loopOfPort p).emit = false ∧
        t.dev.eng = s.dev.eng ∧ t.pending = s.pending ∧
        ((s.dev.loopOfPort p).melt.ramp = none → (s.dev.loopOfPort p).src.ramp = none → (s.dev.loopOfPort p).melt.lost = false →
          (s.dev.loopOfPort p).src.lost = false → (s.dev.loopOfPort p).yy = none → (s.dev.loopOfPort p).cap ≠ .running →
          (t.dev.loopOfPort p).melt = (s.dev.loopOfPort p).melt ∧ (t.dev.loopOfPort p).src = (s.dev.loopOfPort p).src ∧
          t.dev.evr = s.dev.evr ∧ t.mem = s.mem)) ∧
    (∀ p : Nat, p < 32 → portsInUse (s.dev.sections false) = [p] → s.dev.get (F.BEAMn_PSTAT_ATTACHED p) ≠ 0 →
      (s.dev.loopOfPort p).descs = [] → (s.dev.loopOfPort p).melt.ramp = none → (s.dev.loopOfPort p).src.ramp = none →
      (s.dev.loopOfPort p).melt.lost = false → (s.dev.loopOfPort p).src.lost = false → (s.dev.loopOfPort p).yy = none →
      (s.dev.loopOfPort p).cap ≠ .running → s.dev.gateIn p s.dev.sub.val = false →
      ∃ t : State, exec (.pTick l) s = .next t ∧ t.dev.sub = s.dev.sub + 1 ∧ t.dev.get (F.LOOPn_WIN_PWR p) = 0 ∧
        t.dev.get (F.LOOPn_WIN_CLASS p) = 7 ∧ (t.dev.loopOfPort p).u1 = (s.dev.loopOfPort p).u ∧
        (t.dev.loopOfPort p).emit = false ∧ (t.dev.prtOf p).fcnt = (s.dev.prtOf p).fcnt + 1 ∧
        (t.dev.prtOf p).mod = (if hasMod (s.dev.sections false) p
          then modFrame 0 false (s.dev.inService p) (s.dev.prtOf p).fcnt.val else 0) ∧
        t.dev.evr = s.dev.evr ∧ t.mem = s.mem ∧ t.pending = s.pending)

/-- The ends that a loop engine reaches (R194, R195, R204, R207): a ramp after its 800th P-tick; the re-entry of a lost block after 256 valid
P-ticks, with 0x0401; a Yo-yo run after its length, with 0x0406; a capture with all its records, with 0x0407 and
attention CAPTURE. Before that, none of the rows does anything. -/
def Obligations.LoopBlocksAndRunsEnd : Prop :=
  (∀ (p : Port) (b : LoopBlk) (s : State),
    let only := fun (t : State) => t = { s with dev := { s.dev with regs := t.dev.regs, loops := t.dev.loops } } ∧
      regsKeep [F.LOOPn_STAT_MP_RAMP p.val, F.LOOPn_STAT_SRC_RAMP p.val] s.dev t.dev
    (∀ k : Nat, ((s.dev.loopOfPort p.val).blk b).ramp = some k → 799 ≤ k → ∃ t : State, exec (.rampEnd p b) s = .next t ∧
      ((t.dev.loopOfPort p.val).blk b).ramp = none ∧ t.dev.get (blkRamp b p.val) = 0 ∧ only t) ∧
    (∀ k : Nat, ((s.dev.loopOfPort p.val).blk b).ramp = some k → k < 799 → exec (.rampEnd p b) s = .next s) ∧
    (((s.dev.loopOfPort p.val).blk b).ramp = none → exec (.rampEnd p b) s = .next s)) ∧
  (∀ (p : Port) (b : LoopBlk) (s : State),
    let x := (s.dev.loopOfPort p.val).blk b
    (x.lost = true → 256 ≤ x.valid → ∃ t : State, exec (.feedbackReentry p b) s = .next t ∧
      ((t.dev.loopOfPort p.val).blk b).lost = false ∧ ((t.dev.loopOfPort p.val).blk b).ramp = none ∧
      ((s.dev.loopOfPort p.val).emit1 = false → ((t.dev.loopOfPort p.val).blk b).i = f32Zero false) ∧
      t.dev.get (blkLost b p.val) = 0 ∧ t.dev.get (blkCause b p.val) = 0 ∧
      recorded s.dev t.dev 0x0401 (srcPort p.val) 1 ((s.dev.loopOfPort p.val).portBlk p.val b) x.valid
        (s.dev.get (F.LOOPn_WIN_PWR p.val)) ∧
      t = { s with dev := { s.dev with regs := t.dev.regs, loops := t.dev.loops, evr := t.dev.evr } } ∧
      regsKeep (recFlds ++ [F.LOOPn_STAT_MP_RAMP p.val, F.LOOPn_STAT_SRC_RAMP p.val, blkLost b p.val, blkCause b p.val]) s.dev t.dev) ∧
    (x.lost = false ∨ x.valid < 256 → exec (.feedbackReentry p b) s = .next s)) ∧
  (∀ (p : Port) (s : State),
    (∀ r : YyRun, (s.dev.loopOfPort p.val).yy = some r → s.dev.get (F.LOOPn_YY_LEN_LEN p.val) ≤ r.k →
      ∃ t : State, exec (.yoyoRunEnd p) s = .next t ∧ (t.dev.loopOfPort p.val).yy = none ∧
        t.dev.get (F.LOOPn_STAT_YY_RUN p.val) = 0 ∧ t.dev.get (F.LOOPn_YY_CTRL_ARM p.val) = 0 ∧
        recorded s.dev t.dev 0x0406 (srcPort p.val) 0 (pair8 p.val (s.dev.get (F.LOOPn_YY_CTRL_MODE p.val))) 1 s.dev.tick.toNat ∧
        t = { s with dev := { s.dev with regs := t.dev.regs, loops := t.dev.loops, evr := t.dev.evr } } ∧
        regsKeep (recFlds ++ [F.LOOPn_STAT_YY_RUN p.val, F.LOOPn_YY_CTRL_ARM p.val]) s.dev t.dev) ∧
    (∀ r : YyRun, (s.dev.loopOfPort p.val).yy = some r → r.k < s.dev.get (F.LOOPn_YY_LEN_LEN p.val) →
      exec (.yoyoRunEnd p) s = .next s) ∧
    ((s.dev.loopOfPort p.val).yy = none → exec (.yoyoRunEnd p) s = .next s) ∧
    ((s.dev.loopOfPort p.val).cap = .running → s.dev.get (F.LOOPn_CAP_LEN_LEN p.val) ≤ s.dev.get (F.LOOPn_CAP_WR_COUNT p.val) →
      ∃ t : State, exec (.captureEnd p) s = .next t ∧ (t.dev.loopOfPort p.val).cap = .idle ∧
        t.dev.get (F.LOOPn_STAT_CAP_BUSY p.val) = 0 ∧ t.dev.get (F.LOOPn_STAT_CAP_DONE p.val) = 1 ∧
        bitAt (t.dev.get F.HST_ATTN_CAUSE) 4 = true ∧
        recorded s.dev t.dev 0x0407 (srcPort p.val) 0 p.val (s.dev.get (F.LOOPn_CAP_WR_COUNT p.val)) s.dev.tick.toNat ∧
        t = { s with dev := { s.dev with regs := t.dev.regs, loops := t.dev.loops, evr := t.dev.evr } } ∧
        regsKeep (recFlds ++ [F.LOOPn_STAT_CAP_BUSY p.val, F.LOOPn_STAT_CAP_DONE p.val]) s.dev t.dev) ∧
    ((s.dev.loopOfPort p.val).cap ≠ .running ∨ s.dev.get (F.LOOPn_CAP_WR_COUNT p.val) < s.dev.get (F.LOOPn_CAP_LEN_LEN p.val) →
      exec (.captureEnd p) s = .next s))

/-! ## Writes of registers (R11 to R20, R433) -/

/-- A register write (R11, R12, R18, R20, R433): misaligned, 0x0E01; at an address that holds no register, 0x0E02; to a register without a
writable field, 0x0E03 with its live value; each changes nothing else. An accepted one lands: HST_WIN at once, with 0x0110 where the
value changes; HST_ATTN clears the bits written 1; SNS_DARK_WAIT, of effect BED, at once while the Control Bar is IDLE and
otherwise in its shadow. -/
def Obligations.RegisterWriteJudged : Prop :=
  ∀ (v : Word) (s : State),
    (∀ a : Word, a.toNat % 4 ≠ 0 → ∃ t : State, exec (.registerWrite a v) s = .next t ∧ onlyRegsRec [] s.settled t ∧
      recorded s.dev t.dev 0x0E01 0x01 2 a.toNat 4 1) ∧
    (∀ a : Word, a.toNat % 4 = 0 → (regFind a.toNat regSpecs).isNone = true → ∃ t : State, exec (.registerWrite a v) s = .next t ∧
      onlyRegsRec [] s.settled t ∧ recorded s.dev t.dev 0x0E02 0x01 2 a.toNat v.toNat 0) ∧
    (∀ (a : Word) (h : RegHit), a.toNat % 4 = 0 → regFind a.toNat regSpecs = some h → h.holds (F.HST_MBXw_WORD 0) = false →
      h.holds F.HST_CPL_POP_POP = false → h.spec.fields.all (fun f => !f.access.writable) = true →
      ∃ t : State, exec (.registerWrite a v) s = .next t ∧ onlyRegsRec [] s.settled t ∧
        recorded s.dev t.dev 0x0E03 0x01 2 a.toNat v.toNat (s.settled.dev.readReg a.toNat)) ∧
    (s.dev.shadow = [] → s.dev.oldViews = [] →
      (∃ t : State, exec (.registerWrite 0x10 v) s = .next t ∧ t.dev.get F.HST_WIN_BASE = v.toNat % 256 ∧
        (s.dev.get F.HST_WIN_BASE ≠ v.toNat % 256 → recorded s.dev t.dev 0x0110 0x01 0 0x10 (s.dev.get F.HST_WIN_BASE) (v.toNat % 256)) ∧
        (s.dev.get F.HST_WIN_BASE = v.toNat % 256 → t.dev.evr = s.dev.evr) ∧ onlyRegsRec [F.HST_WIN_BASE] s.settled t) ∧
      (∃ t : State, exec (.registerWrite 0x4 v) s = .next t ∧ onlyRegsRec [] s.settled t ∧
        (s.dev.get F.HST_ATTN_CAUSE < 2 ^ 15 → s.dev.get F.HST_ATTN_CAUSE &&& v.toNat % 2 ^ 15 = 0 →
          t.dev.get F.HST_ATTN_CAUSE = s.dev.get F.HST_ATTN_CAUSE ∧ t.dev.evr = s.dev.evr) ∧
        (s.dev.get F.HST_ATTN_CAUSE = v.toNat % 2 ^ 15 → s.dev.evr.fifo = [] → t.dev.get F.HST_ATTN_CAUSE = 0)) ∧
      (s.dev.get F.BED_STAT_PHASE = 0 → ∃ t : State, exec (.registerWrite 0x1C0018 v) s = .next t ∧
        t.dev.get F.SNS_DARK_WAIT_WAIT = v.toNat % 65536 ∧ onlyRegsRec [F.SNS_DARK_WAIT_WAIT] s.settled t) ∧
      (s.dev.get F.BED_STAT_PHASE ≠ 0 → ∃ t : State, exec (.registerWrite 0x1C0018 v) s = .next t ∧
        t.dev.get F.SNS_DARK_WAIT_WAIT = s.dev.get F.SNS_DARK_WAIT_WAIT ∧
        t.dev.shadow = [⟨F.SNS_DARK_WAIT_WAIT, .bed, none, v.toNat % 65536⟩] ∧
        t = { s with dev := { s.dev with regs := t.dev.regs, evr := t.dev.evr, shadow := t.dev.shadow, wq := [] } } ∧
        regsKeep recFlds s.dev t.dev))

/-- Writes of a DMA head, of a port's Yo-yo and capture registers and of a camera trigger (R396, R204, R207, R234): the head lands; while no
path of the port runs (from its first to its last tick point) MODE, POINT and CAPSYNC land and ARM is set, while one runs ARM waits in its
shadow for the PATH boundary; START makes a capture wait for the next Yo-yo run or start; FIRE is noted in any mode but 0. On the AX16 stated for the
ports that it has.
Writes of the recorder's and the clock's registers (R382, R383, R317, R314): the cursor, and NEXT by 8, load the window with the records
of their sequences; FREEZE takes and releases the ring; SNAP latches internal time and T-tick together; ACCEPT in REFUSING decides the step
of the refused offset. -/
def Obligations.HostAndRecorderRowsWrite : Prop :=
  ((∀ (c : Dma) (v : Word) (s : State), s.dev.shadow = [] → s.dev.oldViews = [] →
     ∃ t : State, exec (.dmaHeadWrite c v) s = .next t ∧ t.dev.get (F.HST_DMAc_HEAD_INDEX c.val) = v.toNat % 4096 ∧
       onlyRegsRec [F.HST_DMAc_HEAD_INDEX c.val] s.settled t) ∧
   (∀ (p : Port) (v : Word) (s : State), (s.dev.variant = .ax32 ∨ p.val < 16) → s.dev.shadow = [] → s.dev.oldViews = [] →
     v.toNat % 8 ≤ 4 → v.toNat / 8 % 4 ≤ 2 →
     (s.dev.onPath p.val = false → ∃ t : State, exec (.loopnYyArm p v) s = .next t ∧
       t.dev.get (F.LOOPn_YY_CTRL_MODE p.val) = v.toNat % 8 ∧ t.dev.get (F.LOOPn_YY_CTRL_POINT p.val) = v.toNat / 8 % 4 ∧
       t.dev.get (F.LOOPn_YY_CTRL_CAPSYNC p.val) = v.toNat / 64 % 2 ∧
       t.dev.get (F.LOOPn_YY_CTRL_ARM p.val) =
         (if v.toNat / 32 % 2 = 1 then 1 else s.dev.get (F.LOOPn_YY_CTRL_ARM p.val)) ∧
       onlyRegsRec [F.LOOPn_YY_CTRL_MODE p.val, F.LOOPn_YY_CTRL_POINT p.val, F.LOOPn_YY_CTRL_CAPSYNC p.val,
         F.LOOPn_YY_CTRL_ARM p.val] s.settled t) ∧
     (s.dev.onPath p.val = true → v.toNat / 32 % 2 = 1 → ∃ t : State, exec (.loopnYyArm p v) s = .next t ∧
       t.dev.get (F.LOOPn_YY_CTRL_ARM p.val) = s.dev.get (F.LOOPn_YY_CTRL_ARM p.val) ∧
       t.dev.get (F.LOOPn_YY_CTRL_MODE p.val) = s.dev.get (F.LOOPn_YY_CTRL_MODE p.val) ∧
       t.dev.shadow.find? (fun e => decide (e.fld = F.LOOPn_YY_CTRL_ARM p.val)) =
         some ⟨F.LOOPn_YY_CTRL_ARM p.val, .path, some p.val, 1⟩ ∧ t.mem = s.mem)) ∧
   (∀ (p : Port) (v : Word) (s : State), (s.dev.variant = .ax32 ∨ p.val < 16) →
     (v.toNat % 2 = 1 → (s.dev.loopOfPort p.val).cap ≠ .running → ∃ t : State, exec (.loopnCapStart p v) s = .next t ∧
       (t.dev.loopOfPort p.val).cap = (if s.dev.get (F.LOOPn_YY_CTRL_CAPSYNC p.val) = 0 then CapState.running else CapState.waiting) ∧
       t.dev.get (F.LOOPn_STAT_CAP_BUSY p.val) = 1 ∧ t.dev.get (F.LOOPn_CAP_WR_COUNT p.val) = 0 ∧
       t = { s with dev := { s.dev with regs := t.dev.regs, loops := t.dev.loops, wq := [] } } ∧
       regsKeep [F.LOOPn_STAT_CAP_BUSY p.val, F.LOOPn_CAP_WR_COUNT p.val] s.dev t.dev) ∧
     (v.toNat % 2 = 0 ∨ (s.dev.loopOfPort p.val).cap = .running → exec (.loopnCapStart p v) s = .next s.settled)) ∧
   (∀ (m : Cam) (v : Word) (s : State), s.dev.shadow = [] → s.dev.oldViews = [] →
     ∃ t : State, exec (.cammTrigFire m v) s = .next t ∧ t.dev.get (F.CAMm_TRIG_MODE m.val) = v.toNat % 4 ∧
       t.dev.get (F.CAMm_TRIG_WIDTH m.val) = v.toNat / 256 % 256 ∧
       (t.dev.cam m.val).fire = (if v.toNat / 4 % 2 = 1 ∧ v.toNat % 4 ≠ 0 then some s.dev.tick else (s.dev.cam m.val).fire) ∧
       t.mem = s.mem ∧ regsKeep (recFlds ++ [F.CAMm_TRIG_MODE m.val, F.CAMm_TRIG_WIDTH m.val]) s.dev t.dev)) ∧
  ((∀ (v : Word) (s : State), s.dev.shadow = [] → s.dev.oldViews = [] →
     (∃ t : State, exec (.evrCursorWrite v) s = .next t ∧ t.dev.get F.EVR_CURSOR_SEQ = v.toNat ∧
       (∀ r : Nat, r < 8 → t.dev.evr.win.getD r none = s.dev.ringFind (v + BitVec.ofNat 32 r)) ∧ t.dev.evr.slots = s.dev.evr.slots ∧
       t = { s with dev := { s.dev with regs := t.dev.regs, evr := t.dev.evr, wq := [] } } ∧
       regsKeep (recFlds ++ [F.EVR_CURSOR_SEQ]) s.dev t.dev) ∧
     (v.toNat / 2 % 2 = 1 → ∃ t : State, exec (.evrNext v) s = .next t ∧
       t.dev.getW F.EVR_CURSOR_SEQ = s.dev.getW F.EVR_CURSOR_SEQ + 8 ∧
       (∀ r : Nat, r < 8 → t.dev.evr.win.getD r none = s.dev.ringFind (s.dev.getW F.EVR_CURSOR_SEQ + 8 + BitVec.ofNat 32 r)) ∧
       t.dev.evr.slots = s.dev.evr.slots ∧ t.mem = s.mem) ∧
     (s.dev.get F.EVR_STAT_FROZEN < 2 → ∃ t : State, exec (.evrFreezeWrite v) s = .next t ∧ t.dev.get F.EVR_STAT_FROZEN = v.toNat % 2 ∧
       t.dev.get F.EVR_CTRL_FREEZE = v.toNat % 2 ∧ t.dev.get F.EVR_CTRL_PERSIST = v.toNat / 4 % 2 ∧
       (v.toNat % 2 = 1 → s.dev.get F.EVR_STAT_FROZEN = 0 → t.dev.evr.freezeAt = s.dev.time) ∧
       t.dev.evr.slots = s.dev.evr.slots ∧ t.mem = s.mem)) ∧
   (∀ (v : Word) (s : State),
     (v.toNat % 2 = 1 → ∃ t : State, exec (.ptpSnap v) s = .next t ∧
       t.dev.get F.PTP_SNAP_SEC_LO_SEC = s.dev.time.toNat / 1000000000 % 2 ^ 32 ∧
       t.dev.get F.PTP_SNAP_NS_NS = s.dev.time.toNat % 1000000000 ∧ t.dev.get F.PTP_SNAP_TICK_TICK = s.dev.tick.toNat ∧
       t.dev.get F.PTP_SNAP_INT_LO_NS = s.dev.time.toNat % 2 ^ 32 ∧ t.dev.get F.PTP_SNAP_INT_HI_NS = s.dev.time.toNat / 2 ^ 32 ∧
       onlyRegs [F.PTP_SNAP_SEC_LO_SEC, F.PTP_SNAP_SEC_HI_SEC, F.PTP_SNAP_NS_NS, F.PTP_SNAP_TICK_TICK, F.PTP_SNAP_INT_LO_NS,
         F.PTP_SNAP_INT_HI_NS] s.settled t) ∧
     (v.toNat % 2 = 0 → exec (.ptpSnap v) s = .next s.settled)) ∧
   (∀ (v : Word) (s : State), s.dev.shadow = [] → s.dev.oldViews = [] → s.dev.get F.GLK_STAT_ROLE ≠ 3 →
     s.dev.get F.PTP_CTRL_EN = 1 → v.toNat % 2 = 1 → v.toNat / 2 % 2 = s.dev.get F.PTP_CTRL_COMPAT →
     v.toNat / 4 % 2 = s.dev.get F.PTP_CTRL_BC → v.toNat / 8 % 2 = s.dev.get F.PTP_CTRL_ONESTEP →
     v.toNat / 16 % 2 = s.dev.get F.PTP_CTRL_P2P → v.toNat / 32 % 4 = s.dev.get F.PTP_CTRL_TRANSPORT →
     s.dev.get F.PTP_CTRL_TRANSPORT ≤ 2 → v.toNat / 128 % 2 = s.dev.get F.PTP_CTRL_SLAVE_ONLY → v.toNat / 256 % 2 = 1 →
     (s.dev.get F.PTP_STAT_STATE = 5 → ∃ t : State, exec (.ptpAccept v) s = .next t ∧ t.dev.ptp.step = some s.dev.offset ∧
       t.dev.get F.PTP_STAT_STATE = 1 ∧ t.dev.evr = s.dev.evr ∧ regsKeep [F.PTP_STAT_STATE] s.dev t.dev ∧ t.mem = s.mem) ∧
     (s.dev.get F.PTP_STAT_STATE ≠ 5 → ∃ t : State, exec (.ptpAccept v) s = .next t ∧ regsKeep [] s.dev t.dev ∧
       t.dev.ptp = s.dev.ptp ∧ t.dev.evr = s.dev.evr ∧ t.mem = s.mem)))

/-- Writes of lighting, encoder and axis registers and of the fault table's release bits (R359, R277, R278, R286, R287, R261). LED_CTRL.EN 0 turns
every line off, EN from 0 to 1 starts frames at the next T-tick; APPLY asks for a transfer. PRESET of an input that is not in use sets
its count, REARM without a line fault ends its loss with 0x0902 (stated where no compare unit judges); an input of role 0x00 holds its reset
values, so neither does anything there. EN 1 makes an axis hold
its present position, EN 0 stops it; GO latches target and limits, STOP cancels them, BNDGO arms. A released resolved entry is free. -/
def Obligations.DriveRowsWrite : Prop :=
  (∀ (v : Word) (s : State), s.dev.shadow = [] → s.dev.oldViews = [] →
    (v.toNat % 2 = 0 → ∃ t : State, exec (.ledEnWrite v) s = .next t ∧ t.dev.get F.LED_CTRL_EN = 0 ∧ t.dev.get F.LED_STAT_RUN = 0 ∧
      t.dev.led.drive = none ∧ t.dev.led.frame = none ∧ t.mem = s.mem ∧
      regsKeep (recFlds ++ [F.LED_CTRL_EN, F.LED_STAT_RUN, F.LED_CTRL_APPLY, F.LED_STAT_PEND]) s.dev t.dev) ∧
    (v.toNat % 2 = 1 → s.dev.get F.LED_CTRL_EN = 0 → ∃ t : State, exec (.ledEnWrite v) s = .next t ∧ t.dev.get F.LED_CTRL_EN = 1 ∧
      t.dev.led.enAt = some s.dev.tick ∧ t.dev.led.trips = [] ∧ t.dev.led.drive = s.dev.led.drive ∧ t.mem = s.mem ∧
      regsKeep (recFlds ++ [F.LED_CTRL_EN, F.LED_CTRL_APPLY, F.LED_STAT_PEND]) s.dev t.dev) ∧
    (v.toNat / 2 % 2 = 1 → ∃ t : State, exec (.ledApply v) s = .next t ∧ t.dev.get F.LED_CTRL_APPLY = 1 ∧
      t.dev.get F.LED_STAT_PEND = 1 ∧ t.mem = s.mem ∧
      regsKeep (recFlds ++ [F.LED_CTRL_EN, F.LED_STAT_RUN, F.LED_CTRL_APPLY, F.LED_STAT_PEND]) s.dev t.dev)) ∧
  (∀ (e : Sys2Proof.Enc) (v : Word) (s : State), s.dev.encHeld e.val = true → s.dev.encInUse e.val = false →
    (v.toNat / 16 % 2 = 0 ∨ s.dev.get (F.QEe_ERR_LINE_NOW e.val) = 0) →
    exec (.qeePreset e v) s = .next s.settled ∧ exec (.qeeRearm e v) s = .next s.settled) ∧
  (∀ (e : Sys2Proof.Enc) (v : Word) (s : State), s.dev.shadow = [] → s.dev.oldViews = [] → s.dev.encHeld e.val = false →
    s.dev.encInUse e.val = false →
    (∀ k : Nat, k ∈ s.dev.cmpsOn e.val → s.dev.get (F.QE_CMPk_STAT_ARMED k) = 0) →
    (v.toNat / 8 % 2 = 1 → v.toNat / 16 % 2 = 0 → ∃ t : State, exec (.qeePreset e v) s = .next t ∧
      t.dev.getW (F.QEe_COUNT_COUNT e.val) = s.dev.getW (F.QEe_PRESET_VAL e.val) ∧
      t.dev.get (F.QEe_CTRL_FILT e.val) = v.toNat % 4 ∧ t.dev.get (F.QEe_CTRL_ZHOME e.val) = v.toNat / 4 % 2 ∧
      (t.dev.encOf e.val).edge = none ∧ t.mem = s.mem ∧
      regsKeep (recFlds ++ [F.QEe_COUNT_COUNT e.val, F.QEe_CTRL_FILT e.val, F.QEe_CTRL_ZHOME e.val]) s.dev t.dev) ∧
    (v.toNat / 8 % 2 = 0 → v.toNat / 16 % 2 = 1 → s.dev.get (F.QEe_ERR_LINE_NOW e.val) = 0 → s.dev.cmpsOn e.val = [] →
      s.dev.get (F.QEe_ERR_LOST e.val) = 1 → ∃ t : State, exec (.qeeRearm e v) s = .next t ∧
      t.dev.get (F.QEe_ERR_LOST e.val) = 0 ∧ (t.dev.encOf e.val).ill = [] ∧
      (v.toNat % 4 = s.dev.get (F.QEe_CTRL_FILT e.val) → v.toNat / 4 % 2 = s.dev.get (F.QEe_CTRL_ZHOME e.val) →
        recorded s.dev t.dev 0x0902 (srcEnc e.val) 1 e.val (s.dev.count e.val).toNat s.dev.tick.toNat) ∧ t.mem = s.mem ∧
      regsKeep (recFlds ++ [F.QEe_ERR_LOST e.val, F.QEe_CTRL_FILT e.val, F.QEe_CTRL_ZHOME e.val]) s.dev t.dev)) ∧
  (∀ (a : Axis) (v : Word) (s : State),
    let own := [F.AXSa_CTRL_EN a.val, F.AXSa_STAT_STATE a.val, F.AXSa_STAT_BNDARM a.val, F.AXSa_STAT_SAT a.val, F.AXSa_OUT_CODE a.val,
      F.AXSa_REF_POS a.val]
    (v.toNat % 2 = 0 → ∃ t : State, exec (.axsaEnWrite a v) s = .next t ∧ t.dev.get (F.AXSa_CTRL_EN a.val) = 0 ∧
      t.dev.get (F.AXSa_STAT_STATE a.val) = 0 ∧ t.dev.get (F.AXSa_OUT_CODE a.val) = 0 ∧ (t.dev.axsOf a.val).move = none ∧
      (t.dev.axsOf a.val).next = none ∧ t.mem = s.mem ∧ regsKeep (recFlds ++ own) s.dev t.dev) ∧
    (∀ e : Nat, v.toNat = 1 → s.dev.rigged = true → axisInput (s.dev.sections false) a.val = some e →
      s.dev.get (F.QEe_ERR_LOST e) = 0 → s.dev.get (F.AXSa_CTRL_EN a.val) = 0 →
      ∃ t : State, exec (.axsaEnWrite a v) s = .next t ∧ t.dev.get (F.AXSa_CTRL_EN a.val) = 1 ∧
        t.dev.get (F.AXSa_STAT_STATE a.val) = 1 ∧ (t.dev.axsOf a.val).ref = (s.dev.count e).toInt * 2 ^ 32 ∧
        (t.dev.axsOf a.val).move = none ∧ (t.dev.axsOf a.val).tab = (s.dev.axsOf a.val).tab ∧ t.mem = s.mem ∧
        regsKeep (recFlds ++ own) s.dev t.dev) ∧
    (∀ e : Nat, s.dev.rigged = true → axisInput (s.dev.sections false) a.val = some e → s.dev.get (F.QEe_ERR_LOST e) = 0 →
      s.dev.get (F.AXSa_CTRL_EN a.val) = 1 → s.dev.get (F.AXSa_STAT_STATE a.val) ≠ 3 → s.dev.shadow = [] →
      (v.toNat = 3 → ∃ t : State, exec (.axsaGo a v) s = .next t ∧ (t.dev.axsOf a.val).next = some
          ⟨s.dev.getI (F.AXSa_TGT_POS a.val), s.dev.getW (F.AXSa_VMAX_VAL a.val), s.dev.getW (F.AXSa_AMAX_VAL a.val)⟩ ∧
        (t.dev.axsOf a.val).move = (s.dev.axsOf a.val).move ∧ t.dev.get (F.AXSa_STAT_BNDARM a.val) = 0 ∧
        t = { s with dev := { s.dev with regs := t.dev.regs, axs := t.dev.axs, wq := [] } } ∧
        regsKeep [F.AXSa_STAT_BNDARM a.val] s.dev t.dev) ∧
      (v.toNat = 5 → ∃ t : State, exec (.axsaStop a v) s = .next t ∧ (t.dev.axsOf a.val).next = none ∧
        (t.dev.axsOf a.val).stop = (s.dev.axsOf a.val).move.isSome ∧ t.dev.get (F.AXSa_STAT_BNDARM a.val) = 0 ∧
        t = { s with dev := { s.dev with regs := t.dev.regs, axs := t.dev.axs, wq := [] } } ∧
        regsKeep [F.AXSa_STAT_BNDARM a.val] s.dev t.dev) ∧
      (v.toNat = 9 → ∃ t : State, exec (.axsaBndgo a v) s = .next t ∧ t.dev.get (F.AXSa_STAT_BNDARM a.val) = 1 ∧
        onlyRegs [F.AXSa_STAT_BNDARM a.val] s.settled t))) ∧
  (∀ (hi : Bool) (k : Nat) (s : State), k < 32 → s.dev.ftValid (32 * b2n hi + k) = true →
    s.dev.get (F.HND_FTk_INFO_RESOLVED (32 * b2n hi + k)) = 1 →
    ∃ t : State, exec (.hndFtRelease hi (BitVec.ofNat 32 (2 ^ k))) s = .next t ∧ t.dev.ftValid (32 * b2n hi + k) = false ∧
      (∀ j : Nat, j < 64 → j ≠ 32 * b2n hi + k → t.dev.ftValid j = s.dev.ftValid j) ∧
      t.dev.get (F.HND_FTk_INFO_CLASS (32 * b2n hi + k)) = 0 ∧ t.dev.get (F.HND_FTk_CAUSE_CAUSE (32 * b2n hi + k)) = 0 ∧
      t.dev.hnd.order = s.dev.hnd.order.filter (· != 32 * b2n hi + k) ∧ t.mem = s.mem) ∧
  (∀ (hi : Bool) (k : Nat) (s : State), k < 32 → s.dev.ftValid (32 * b2n hi + k) = true →
    s.dev.get (F.HND_FTk_INFO_RESOLVED (32 * b2n hi + k)) = 0 →
    ∃ t : State, exec (.hndFtRelease hi (BitVec.ofNat 32 (2 ^ k))) s = .next t ∧ onlyRegsRec [] s.settled t ∧
      recorded s.dev t.dev 0x0E03 0x01 2 (if hi then F.HND_FT_VALID1_VALID.addr else F.HND_FT_VALID0_VALID.addr) (2 ^ k)
        (s.settled.dev.readReg (if hi then F.HND_FT_VALID1_VALID.addr else F.HND_FT_VALID0_VALID.addr)))

/-! ## Sensing, calibration, cameras (R210 to R239) -/

/-- The calibration run ends (R214, R219): CAL_RUN falls, CAL_DONE rises with the time in ms, and 0x0500 is recorded (stated where no
accepted value differs from the stored one); with no run it does nothing. A slew that is due ends at its new value and leaves the list
of slews (stated for an offset), one that is not due goes on.
Traced estimates (R220 to R222): below 16,384 dark samples no offset estimate is formed, below 65,536 no gain estimate; a first estimate is
only kept, and the histogram begins again; an offset estimate within 4 codes of the one before is applied: a slew to their mean begins and 0x0508 is recorded, or, beyond 64
codes from the power-up value, the channel is UNSURE with 0x0509. -/
def Obligations.CalibrationAndTraces : Prop :=
  ((∀ s : State, s.dev.get F.SNS_STAT_CAL_RUN = 0 → exec .calibrationEnd s = .next s) ∧
   (∀ s : State, s.dev.get F.SNS_STAT_CAL_RUN ≠ 0 → s.dev.sns.accepted = [] →
     ∃ t : State, exec .calibrationEnd s = .next t ∧ t.dev.get F.SNS_STAT_CAL_RUN = 0 ∧ t.dev.get F.SNS_STAT_CAL_DONE = 1 ∧
       t.dev.sns = { s.dev.sns with settled := true } ∧
       t.dev.get F.SNS_CAL_TIME_MS = (elapsed64 s.dev.time s.dev.sns.calAt) / 1000000 % 2 ^ F.SNS_CAL_TIME_MS.width ∧
       recorded s.dev t.dev 0x0500 0x0D 0 ((elapsed64 s.dev.time s.dev.sns.calAt) / 1000000) s.dev.sns.unsures s.dev.sns.thirds ∧
       t = { s with dev := { s.dev with regs := t.dev.regs, evr := t.dev.evr, sns := t.dev.sns } } ∧
       regsKeep (recFlds ++ [F.SNS_STAT_CAL_RUN, F.SNS_STAT_CAL_DONE, F.SNS_CAL_TIME_MS] ++
         (upTo 32).flatMap (fun p => [F.BEAMn_TSTAT_STATE p, F.BEAMn_PSTAT_EMIT p])) s.dev t.dev) ∧
   (∀ (c : Chan) (r : Fin 4) (s : State) (old new : Frac) (start : Word),
     (s.dev.sns.slews = [⟨.ofs c.val, [old], [new], start⟩] → slewTicks ≤ elapsed32 s.dev.tick start →
       ∃ t : State, exec (.slewDone (.pdOffset c r)) s = .next t ∧ t.dev.sns.slews = [] ∧
         t.dev.get (F.SNS_CHc_OFS_OFS c.val) = (fracRne new).toNat % 2 ^ 20 ∧ t.dev.get (F.SNS_CHc_STAT_OFS_SLEW c.val) = 0 ∧
         t = { s with dev := { s.dev with regs := t.dev.regs, sns := { s.dev.sns with slews := [] } } } ∧
         regsKeep [F.SNS_CHc_OFS_OFS c.val, F.SNS_CHc_STAT_OFS_SLEW c.val] s.dev t.dev) ∧
     (s.dev.sns.slews = [⟨.ofs c.val, [old], [new], start⟩] → (elapsed32 s.dev.tick start) < slewTicks →
       exec (.slewDone (.pdOffset c r)) s = .next s))) ∧
  (∀ (c : Chan) (s : State),
     let t0 := tget trace0 s.dev.sns.traces c.val
     (t0.n < 16384 → exec (.offsetTraceEstimate c) s = .next s) ∧
     (t0.gn < 65536 → exec (.gainTraceEstimate c) s = .next s) ∧
     (∀ e : Frac, 16384 ≤ t0.n → s.dev.ofsEstimate c.val t0 = some e → t0.ofs = none →
       ∃ t : State, exec (.offsetTraceEstimate c) s = .next t ∧
         tget trace0 t.dev.sns.traces c.val = { t0 with bins := [], n := 0, outside := 0, ofs := some e } ∧
         t.dev.regs = s.dev.regs ∧ t.dev.evr = s.dev.evr ∧ t.dev.sns.slews = s.dev.sns.slews ∧ t.mem = s.mem) ∧
     (∀ e p : Frac, 16384 ≤ t0.n → s.dev.ofsEstimate c.val t0 = some e → t0.ofs = some p → fracLe (fracAbs (fracSub e p)) (fracI 4) = true →
       let new := fracRne (fracMul (fracAdd e p) (fracI 8))
       ((new - s.dev.powerOfs c.val).natAbs ≤ 1024 → ∃ t : State, exec (.offsetTraceEstimate c) s = .next t ∧
         (∃ x : Slew, x ∈ t.dev.sns.slews ∧ x.kind = .ofs c.val ∧ x.new = [fracI new] ∧ x.start = s.dev.tick) ∧
         t.dev.get (F.SNS_CHc_STAT_OFS_SLEW c.val) = 1 ∧ t.dev.get (F.SNS_CHc_STAT_UNSURE c.val) = 0 ∧
         recorded s.dev t.dev 0x0508 0x0D 0 c.val (s.dev.get (F.SNS_CHc_OFS_OFS c.val)) (trunc 32 new) ∧ t.mem = s.mem) ∧
       (1024 < (new - s.dev.powerOfs c.val).natAbs → ∃ t : State, exec (.offsetTraceEstimate c) s = .next t ∧
         t.dev.sns.slews = s.dev.sns.slews ∧ t.dev.get F.SNS_STAT_TRACE_REF = 1 ∧ t.dev.get (F.SNS_CHc_STAT_UNSURE c.val) = 1 ∧
         recorded s.dev t.dev 0x0509 0x0D 2 c.val (trunc 32 (s.dev.powerOfs c.val)) (trunc 32 new) ∧ t.mem = s.mem)) ∧
     (65536 ≤ t0.gn → t0.trim = none → ∃ t : State, exec (.gainTraceEstimate c) s = .next t ∧
       (tget trace0 t.dev.sns.traces c.val).gn = 0 ∧ (tget trace0 t.dev.sns.traces c.val).trim.isSome = true ∧
       t.dev.regs = s.dev.regs ∧ t.dev.evr = s.dev.evr ∧ t.dev.sns.slews = s.dev.sns.slews ∧ t.mem = s.mem))

/-- Spotting and the stored stitch (R219, R224 to R229): an observation starts only where its port may observe a stroke of its parent, and then at its
first T-tick; one that has not lasted to its end goes on, a complete one ends and its port looks for a stroke again, a discarded one
keeping nothing; a target that has been reached is set exactly, with 0x0514; a target unlike the stored one is written to the other copy of the store, with 0x0503, at most once in 10 min. -/
def Obligations.SpottingRows : Prop :=
  ∀ (p : Port) (s : State),
    ((s.dev.mayObserve p.val = false → exec (.spotObservationStart p) s = .next s) ∧
     (∀ (k : PKey) (seg : Nat) (dx dy : Int), s.dev.mayObserve p.val = true → s.dev.inService (s.dev.get (F.SNS_Pn_SPOT_PARENT p.val)) = true →
      s.dev.strokeOf s.mem p.val (s.dev.get (F.SNS_Pn_SPOT_PARENT p.val)) = some (k, seg, dx, dy) →
      ∃ t : State, exec (.spotObservationStart p) s = .next t ∧ t.dev.get (F.SNS_Pn_SPOT_STATE p.val) = 2 ∧
        (∃ o : SpotObs, tfind t.dev.sns.obs p.val = some o ∧ o.parent = s.dev.get (F.SNS_Pn_SPOT_PARENT p.val) ∧ o.key = k ∧
          o.seg = seg ∧ o.dx = dx ∧ o.dy = dy ∧ o.k = 0 ∧ o.bad = false) ∧
        t = { s with dev := { s.dev with regs := t.dev.regs, sns := { s.dev.sns with obs := t.dev.sns.obs } } } ∧
        regsKeep [F.SNS_Pn_SPOT_STATE p.val] s.dev t.dev)) ∧
    ((tfind s.dev.sns.obs p.val = none → exec (.spotObservationComplete p) s = .next s) ∧
     (∀ o : SpotObs, tfind s.dev.sns.obs p.val = some o →
      (o.k < obsTicks → exec (.spotObservationComplete p) s = .next s) ∧
      (obsTicks ≤ o.k → (s.dev.spotOf p.val).kept = [] →
        let found := (spotReduce o.roll.acc (s.dev.get F.SNS_SPOT_STEP_STEP) (s.dev.getW F.SNS_SPOT_W_VAL)
          (s.dev.getW F.SNS_SPOT_MINCORR_VAL)).isSome
        ∃ t : State, exec (.spotObservationComplete p) s = .next t ∧ tfind t.dev.sns.obs p.val = none ∧
          t.dev.get (F.SNS_Pn_SPOT_STATE p.val) = 1 ∧ (t.dev.spotOf p.val).kept.length = b2n found ∧
          t.dev.get (F.SNS_Pn_OBS_COUNT p.val) = (if found then
            min (s.dev.get (F.SNS_Pn_OBS_COUNT p.val) + 1) (2 ^ (F.SNS_Pn_OBS_COUNT p.val).width - 1)
            else s.dev.get (F.SNS_Pn_OBS_COUNT p.val)) ∧
          (t.dev.spotOf p.val).est = (s.dev.spotOf p.val).est ∧
          t = { s with dev := { s.dev with regs := t.dev.regs, sns := t.dev.sns } } ∧
          regsKeep [F.SNS_Pn_SPOT_STATE p.val, F.SNS_Pn_OBS_COUNT p.val] s.dev t.dev))) ∧
    (((s.dev.spotOf p.val).slew = none → exec (.stitchSlewDone p) s = .next s) ∧
     (∀ x y : Int, (s.dev.spotOf p.val).slew = some (x, y) → stitchAt x y (s.dev.stitchTgt p.val).1 (s.dev.stitchTgt p.val).2
        ((elapsed32 s.dev.tick (s.dev.spotOf p.val).slewAt) / 2) = s.dev.stitchTgt p.val →
      ∃ t : State, exec (.stitchSlewDone p) s = .next t ∧ t.dev.stitchNow p.val = s.dev.stitchTgt p.val ∧
        (t.dev.spotOf p.val).slew = none ∧ t.dev.get (F.SNS_Pn_SPOT_STATE p.val) = 1 ∧
        recorded s.dev t.dev 0x0514 0x0D 0 p.val (trunc 32 (s.dev.stitchTgt p.val).1) (trunc 32 (s.dev.stitchTgt p.val).2) ∧
        t = { s with dev := { s.dev with regs := t.dev.regs, evr := t.dev.evr, sns := t.dev.sns } } ∧
        regsKeep (recFlds ++ [F.BEAMn_STITCH_X_OFS p.val, F.BEAMn_STITCH_Y_OFS p.val, F.SNS_Pn_SPOT_STATE p.val]) s.dev t.dev)) ∧
    ((s.dev.stitchTgt p.val = (s.dev.spotOf p.val).stored → exec (.stitchStoreWrite p) s = .next s) ∧
     (∀ u : DWord, (s.dev.spotOf p.val).storedAt = some u → (elapsed64 s.dev.time u) < 600000000000 →
      exec (.stitchStoreWrite p) s = .next s) ∧
     (s.dev.stitchTgt p.val ≠ (s.dev.spotOf p.val).stored →
      ((s.dev.spotOf p.val).storedAt = none ∨ ∃ u : DWord, (s.dev.spotOf p.val).storedAt = some u ∧ 600000000000 ≤ elapsed64 s.dev.time u) →
      ∃ t : State, exec (.stitchStoreWrite p) s = .next t ∧ (t.dev.spotOf p.val).stored = s.dev.stitchTgt p.val ∧
        (t.dev.spotOf p.val).storedAt = some s.dev.time ∧ t.dev.sns.storeSeq = s.dev.sns.storeSeq + 1 ∧
        t.dev.sns.store = s.dev.sns.store ∧ t.dev.sns.older.seq = s.dev.sns.storeSeq ∧ t.dev.sns.older.items = s.dev.sns.store ∧
        t = { s with dev := { s.dev with regs := t.dev.regs, evr := t.dev.evr, sns := t.dev.sns } } ∧ regsKeep recFlds s.dev t.dev))

/-- Camera frames (R230, R232, R233): a frame start that the receiver takes latches its settings, raises LINK and, after a loss of the link,
records 0x0521; a long packet of the chosen type adds its line, one of another type is only counted, as is every packet with a bad header, and a corrected
header beside what the packet does; the end of a
frame counts it and, with a feature ring that has room and lies in DRAM that is present, writes its 32-byte record there (stated without capture,
and for a frame whose means the spec gives); what a receiver does not take changes nothing.
Camera links and triggers (R234, R236, R361): a second without a frame start lowers LINK, sets TIMEOUT and records 0x0520 once; a due
trigger, periodic, locked to lighting frames or a FIRE that waits, is remembered for the next frame and drives its pin for its width;
otherwise neither row does anything. -/
def Obligations.CamerasFramesAndTriggers : Prop :=
  (∀ (m : Cam) (vc : Fin 4) (s : State),
     (∀ hdr : HdrEcc, s.dev.get (F.CAMm_CTRL_EN m.val) = 0 →
       exec (.camFrameStart m ⟨vc, hdr⟩) s = .next s ∧ exec (.camFrameEnd m ⟨vc, hdr⟩) s = .next s.settled) ∧
     (s.dev.get (F.CAMm_CTRL_EN m.val) ≠ 0 →
       (∃ t : State, exec (.camFrameStart m ⟨vc, .bad⟩) s = .next t ∧ t.dev.get (F.CAMm_HDR_ERR_UNCORR m.val) =
         min (s.dev.get (F.CAMm_HDR_ERR_UNCORR m.val) + 1) (2 ^ (F.CAMm_HDR_ERR_UNCORR m.val).width - 1) ∧
         onlyRegs [F.CAMm_HDR_ERR_UNCORR m.val] s t) ∧
       (∃ t : State, exec (.camFrameEnd m ⟨vc, .bad⟩) s = .next t ∧ t.dev.get (F.CAMm_HDR_ERR_UNCORR m.val) =
         min (s.dev.get (F.CAMm_HDR_ERR_UNCORR m.val) + 1) (2 ^ (F.CAMm_HDR_ERR_UNCORR m.val).width - 1) ∧
         onlyRegs [F.CAMm_HDR_ERR_UNCORR m.val] s.settled t) ∧
       (s.dev.camTakes m.val vc.val = false → ∃ t : State, exec (.camFrameStart m ⟨vc, .corrected⟩) s = .next t ∧
         t.dev.get (F.CAMm_HDR_ERR_CORR m.val) =
           min (s.dev.get (F.CAMm_HDR_ERR_CORR m.val) + 1) (2 ^ (F.CAMm_HDR_ERR_CORR m.val).width - 1) ∧
         onlyRegs [F.CAMm_HDR_ERR_CORR m.val] s t)) ∧
     (s.dev.camTakes m.val vc.val = false → exec (.camFrameStart m ⟨vc, .clean⟩) s = .next s) ∧
     (s.dev.camTakes m.val vc.val = true → ∃ t : State, exec (.camFrameStart m ⟨vc, .clean⟩) s = .next t ∧
       (∃ f : CamFrame, tfind (t.dev.cam m.val).frames vc.val = some f ∧ f.time = s.dev.time ∧ f.tick = s.dev.tick ∧
         f.dt = s.dev.get (F.CAMm_CTRL_DT m.val) ∧ f.thr = s.dev.get (F.CAMm_THRESH_THR m.val) ∧
         f.x0 = s.dev.get (F.CAMm_ROI_XY_X0 m.val) ∧ f.y0 = s.dev.get (F.CAMm_ROI_XY_Y0 m.val) ∧
         f.w = s.dev.get (F.CAMm_ROI_WH_W m.val) ∧ f.h = s.dev.get (F.CAMm_ROI_WH_H m.val) ∧ f.line = 0 ∧ f.area = 0 ∧
         f.damaged = false ∧ f.triggered = (s.dev.cam m.val).trig ∧ f.raw = []) ∧
       t.dev.get (F.CAMm_STAT_LINK m.val) = 1 ∧ (t.dev.cam m.val).last = s.dev.time ∧ (t.dev.cam m.val).lost = false ∧
       ((s.dev.cam m.val).lost = false → t.dev.evr = s.dev.evr) ∧
       ((s.dev.cam m.val).lost = true →
         recorded s.dev t.dev 0x0521 (srcCam m.val) 1 m.val (s.dev.get (F.CAMm_FRAMES_COUNT m.val)) s.dev.tick.toNat) ∧
       t = { s with dev := { s.dev with regs := t.dev.regs, evr := t.dev.evr, sns := t.dev.sns } } ∧
       regsKeep (recFlds ++ [F.CAMm_STAT_LINK m.val]) s.dev t.dev) ∧
     (∀ (dt : Byte) (pay : List Byte) (ok : Bool),
       (∀ hdr : HdrEcc, s.dev.get (F.CAMm_CTRL_EN m.val) = 0 → exec (.camLongPacket m vc hdr dt pay ok) s = .next s) ∧
       (s.dev.get (F.CAMm_CTRL_EN m.val) ≠ 0 → ∃ t : State, exec (.camLongPacket m vc .bad dt pay ok) s = .next t ∧
         t.dev.get (F.CAMm_HDR_ERR_UNCORR m.val) = min (s.dev.get (F.CAMm_HDR_ERR_UNCORR m.val) + 1)
           (2 ^ (F.CAMm_HDR_ERR_UNCORR m.val).width - 1) ∧ onlyRegs [F.CAMm_HDR_ERR_UNCORR m.val] s t) ∧
       (s.dev.camTakes m.val vc.val = true → dt.toNat ≠ camType (s.dev.get (F.CAMm_CTRL_DT m.val)) →
         ∃ t : State, exec (.camLongPacket m vc .clean dt pay ok) s = .next t ∧ onlyRegs [F.CAMm_CRC_ERR_COUNT m.val] s t ∧
           t.dev.get (F.CAMm_CRC_ERR_COUNT m.val) = min (s.dev.get (F.CAMm_CRC_ERR_COUNT m.val) + 1)
             (2 ^ (F.CAMm_CRC_ERR_COUNT m.val).width - 1)) ∧
       (∀ f : CamFrame, s.dev.camTakes m.val vc.val = true → dt.toNat = camType (s.dev.get (F.CAMm_CTRL_DT m.val)) →
         tfind (s.dev.cam m.val).frames vc.val = some f → ∃ t : State, exec (.camLongPacket m vc .clean dt pay ok) s = .next t ∧
           tfind (t.dev.cam m.val).frames vc.val = some (f.takeLine pay ok) ∧
           (∀ k : Nat, k ≠ m.val → t.dev.cam k = s.dev.cam k) ∧
           t = { s with dev := { s.dev with regs := t.dev.regs, sns := t.dev.sns } } ∧
           regsKeep [F.CAMm_CRC_ERR_COUNT m.val] s.dev t.dev)) ∧
     (tfind (s.dev.cam m.val).frames vc.val = none → exec (.camFrameEnd m ⟨vc, .clean⟩) s = .next s.settled) ∧
     (∀ f : CamFrame, s.dev.get (F.CAMm_CTRL_EN m.val) ≠ 0 → tfind (s.dev.cam m.val).frames vc.val = some f → f.cap = false →
       (f.area = 0 ∨ f.sw ≠ 0) →
       let a := s.dev.get (F.CAMm_FEAT_BASE_BASE m.val) * 4096 + s.dev.get (F.CAMm_FEAT_WR_INDEX m.val) * 32
       let n := s.dev.ringLen (featRing m.val)
       (n = 0 → ∃ t : State, exec (.camFrameEnd m ⟨vc, .clean⟩) s = .next t ∧ tfind (t.dev.cam m.val).frames vc.val = none ∧
         t.dev.getW (F.CAMm_FRAMES_COUNT m.val) = s.dev.getW (F.CAMm_FRAMES_COUNT m.val) + 1 ∧ t.mem = s.mem ∧ t.dev.evr = s.dev.evr ∧
         regsKeep [F.CAMm_FRAMES_COUNT m.val, F.CAMm_STAT_DAMAGED m.val] s.dev t.dev) ∧
       (0 < n → n ≤ 2 ^ (F.CAMm_FEAT_WR_INDEX m.val).width → s.dev.ringFull (featRing m.val) = false → s.dev.beyond a 32 = false →
         s.dev.goneAt a 32 = none → ∃ t : State, exec (.camFrameEnd m ⟨vc, .clean⟩) s = .next t ∧ tfind (t.dev.cam m.val).frames vc.val = none ∧
           t.dev.get (F.CAMm_FEAT_WR_INDEX m.val) = (s.dev.get (F.CAMm_FEAT_WR_INDEX m.val) + 1) % n ∧
           (∀ k : Nat, t.mem.read k = if a ≤ k ∧ k < a + 32 then (f.record m.val vc.val false false 0 0 0).getD (k - a) 0
             else s.mem.read k)))) ∧
  (∀ (m : Cam) (s : State),
     (s.dev.get (F.CAMm_CTRL_EN m.val) = 0 ∨ (s.dev.cam m.val).lost = true ∨ (elapsed64 s.dev.time (s.dev.cam m.val).last) < 1000000000 →
       exec (.camLinkTimeout m) s = .next s) ∧
     (s.dev.get (F.CAMm_CTRL_EN m.val) ≠ 0 → (s.dev.cam m.val).lost = false →
       1000000000 ≤ elapsed64 s.dev.time (s.dev.cam m.val).last → ∃ t : State, exec (.camLinkTimeout m) s = .next t ∧
         t.dev.get (F.CAMm_STAT_LINK m.val) = 0 ∧ t.dev.get (F.CAMm_STAT_TIMEOUT m.val) = 1 ∧ (t.dev.cam m.val).lost = true ∧
         recorded s.dev t.dev 0x0520 (srcCam m.val) 2 m.val (s.dev.get (F.CAMm_FRAMES_COUNT m.val)) s.dev.tick.toNat ∧
         t = { s with dev := { s.dev with regs := t.dev.regs, evr := t.dev.evr, sns := t.dev.sns } } ∧
         regsKeep (recFlds ++ [F.CAMm_STAT_LINK m.val, F.CAMm_STAT_TIMEOUT m.val]) s.dev t.dev) ∧
     (s.dev.camDue m.val = false → s.dev.camFired m.val = false → exec (.camTrigger m) s = .next s) ∧
     (s.dev.camDue m.val = true ∨ s.dev.camFired m.val = true → ∃ t : State, exec (.camTrigger m) s = .next t ∧
       (t.dev.cam m.val).trig = true ∧ (s.dev.camFired m.val = true → (t.dev.cam m.val).fire = none) ∧
       (∀ g : Nat, pinWith (s.dev.sections false) (0x20 + m.val) = some g → tfind s.dev.pins g = none →
         tfind t.dev.pins g =
           some (s.dev.time + BitVec.ofNat 64 (1000 * max 1 (s.dev.get (F.CAMm_TRIG_WIDTH m.val))))) ∧
       (pinWith (s.dev.sections false) (0x20 + m.val) = none → t.dev.pins = s.dev.pins) ∧
       t = { s with dev := { s.dev with sns := t.dev.sns, pins := t.dev.pins } }))

/-! ## Hand-off (R240 to R272) -/

/-- Hand-off within the device and on the taking device (R247, R252, R253, R258, R266, R267, R345): a chosen cover in service and without a path, whose queue holds the
remainder's first segment, starts it, with TAKING, once it has passed the boundaries of its port (stated where HOLDOUT does not become live
there); without a takeover, with a path, or out of service, only the port's prefetch queue is filled; a beam held at THROTTLE for its step rises by one shed level, with 0x060D (stated without a path on it); a request is denied
with its reason, or its remainder is taken in, counted, and granted in case IDLE on a beam without a path (stated where it displaces no other takeover, R254); streamed segments and parameter sets join the
remainder; HO_KEEP renews it; HO_ABORT, or the owner's silence, ends it, as nothing else does. -/
def Obligations.RemaindersTaken : Prop :=
  (∀ (p : Port) (s : State),
    (s.dev.tkoFor p.val = none ∨ s.dev.inService p.val = false ∨ (s.dev.runOf p.val).isSome = true →
      (∃ t : State, exec (.takeoverStart p) s = .next t ∧ t.dev.hnd = s.dev.hnd ∧ (∀ q : Nat, t.dev.runOf q = s.dev.runOf q) ∧
        t.mem = s.mem ∧ t.pending = s.pending) ∧
      (s.settled.dev.prefetch s.mem p.val = s.settled.dev → exec (.takeoverStart p) s = .next s.settled)) ∧
    (let d0 := s.settled.dev.prefetch s.mem p.val
     ∀ (i : Nat) (x : Takeover) (r : Run), d0.tkoFor p.val = some i → tfind d0.hnd.tko i = some x → d0.runOf p.val = none →
      d0.inService p.val = true → d0.segReady s.mem x.key x.rp.seg = true → d0.holdComes p.val = false →
      let d1 := (d0.pathBoundaries s.mem p.val x.key).updEng p.val (fun e => { e with prevC := none })
      d1.tkoFor p.val = some i → tfind d1.hnd.tko i = some x → d1.runOf p.val = none → d1.inService p.val = true →
      d1.segReady s.mem x.key x.rp.seg = true →
      ((d1.updPath x.key (fun q => { q with resume := some x.rp })).beginRun s.mem p.val x.key true).runOf p.val = some r →
      ∃ t : State, exec (.takeoverStart p) s = .next t ∧ t.dev.runOf p.val = some r ∧ t.dev.get (F.HND_Pn_STAT_TAKING p.val) = 1 ∧
        t.pending = s.pending) ∧
    (s.dev.get (F.THM_Pn_STAT_BLIND p.val) = 0 → 2 ≤ s.dev.get (F.THM_Pn_STAT_LEVEL p.val) → 1 ≤ s.dev.get (F.HND_Pn_STAT_SHED p.val) →
      s.dev.get (F.HND_Pn_STAT_SHED p.val) < 3 → s.dev.runOf p.val = none →
      max 1 (s.dev.get (F.THM_Pn_CFG_STEP p.val)) * 1000000000 ≤ elapsed64 s.dev.time (s.dev.thmBeam p.val).step →
      ∃ t : State, exec (.shedStep p) s = .next t ∧ t.dev.get (F.HND_Pn_STAT_SHED p.val) = s.dev.get (F.HND_Pn_STAT_SHED p.val) + 1 ∧
        recorded s.dev t.dev 0x060D 0x04 2 p.val (s.dev.get (F.HND_Pn_STAT_SHED p.val)) (s.dev.get (F.HND_Pn_STAT_SHED p.val) + 1) ∧
        (t.dev.engOf p.val).queue = [] ∧ t.mem = s.mem ∧ regsKeep (recFlds ++ [F.HND_Pn_STAT_SHED p.val]) s.dev t.dev) ∧
    (s.dev.get (F.THM_Pn_STAT_BLIND p.val) ≠ 0 ∨ s.dev.get (F.THM_Pn_STAT_LEVEL p.val) < 2 ∨ s.dev.get (F.HND_Pn_STAT_SHED p.val) = 0 ∨
      3 ≤ s.dev.get (F.HND_Pn_STAT_SHED p.val) → exec (.shedStep p) s = .next s.settled)) ∧
  (∀ (src : Node) (m : HoReq) (s : State),
    ((tfind s.dev.hnd.inc m.xid.toNat).isSome = true → exec (.hoReqReceived src m) s = .next s) ∧
    (∀ c : Nat, tfind s.dev.hnd.inc m.xid.toNat = none → s.dev.denyReason src.val m (s.dev.reqTko m) = some c →
      ∃ t : State, exec (.hoReqReceived src m) s = .next t ∧
        t.dev.glk.tx = s.dev.glk.tx ++ [⟨0x12, some src.val, tget 0 s.dev.glk.seqs 0x12, leBytes 4 m.xid.toNat ++ leBytes 4 c⟩] ∧
        t = { s with dev := { s.dev with glk := { s.dev.glk with tx := t.dev.glk.tx, seqs := t.dev.glk.seqs } } }) ∧
    (tfind s.dev.hnd.inc m.xid.toNat = none → s.dev.denyReason src.val m (s.dev.reqTko m) = none → s.dev.runOf m.cover.val = none →
      s.dev.displaced s.dev.hnd.nextTko m.cover.val = [] →
      ∃ (t : State) (h : HoIn), exec (.hoReqReceived src m) s = .next t ∧ tfind t.dev.hnd.inc m.xid.toNat = some h ∧
        h.node = src.val ∧ h.lead = m.lead.val ∧ h.port = m.cover.val ∧ h.path.resume = some (reqPoint m) ∧
        t.dev.glk.tx = s.dev.glk.tx ++ [⟨0x11, some src.val, tget 0 s.dev.glk.seqs 0x11,
          leBytes 4 m.xid.toNat ++ leBytes 4 0 ++ leBytes 4 1⟩] ∧
        t.dev.get F.HND_REMOTE_IN_COUNT = min (s.dev.get F.HND_REMOTE_IN_COUNT + 1) (2 ^ F.HND_REMOTE_IN_COUNT.width - 1) ∧
        t.mem = s.mem ∧ regsKeep (recFlds ++ [F.HND_REMOTE_IN_COUNT]) s.dev t.dev)) ∧
  (∀ (src : Node) (xid : Word) (s : State),
    (∀ b : HoBody, tfind s.dev.hnd.inc xid.toNat = none →
      exec (.hoDataReceived src xid b) s = .next { s with dev := { s.dev with freeCtr := s.dev.freeCtr + 1 } }) ∧
    (∀ h : HoIn, tfind s.dev.hnd.inc xid.toNat = some h → h.node = src.val →
      (∀ (first : Nat) (recs : List (List Byte)), ∃ (t : State) (h' : HoIn), exec (.hoDataReceived src xid (.segs first recs)) s = .next t ∧
        tfind t.dev.hnd.inc xid.toNat = some h' ∧ h'.segs = putAll h.segs first recs ∧ h'.psets = h.psets ∧ h'.heard = s.dev.time ∧
        t.dev.regs = s.dev.regs ∧ t.dev.evr = s.dev.evr ∧ t.mem = s.mem) ∧
      (∀ (first : Nat) (sets : List (List Byte)), ∃ (t : State) (h' : HoIn), exec (.hoDataReceived src xid (.psets first sets)) s = .next t ∧
        tfind t.dev.hnd.inc xid.toNat = some h' ∧ h' = { h with psets := putAll h.psets first sets, heard := s.dev.time } ∧
        t.dev.regs = s.dev.regs ∧ t.dev.evr = s.dev.evr ∧ t.mem = s.mem) ∧
      (∃ t : State, exec (.hoKeepReceived src xid) s = .next t ∧
        tfind t.dev.hnd.inc xid.toNat = some { h with heard := s.dev.time } ∧
        t = { s with dev := { s.dev with hnd := { s.dev.hnd with inc := t.dev.hnd.inc } } }) ∧
      (∀ reason : Byte, h.orphan = false → ∃ t : State, exec (.hoAbortReceived src xid reason) s = .next t ∧
        tfind t.dev.hnd.inc xid.toNat = none ∧ t.mem = s.mem ∧ t.pending = s.pending) ∧
      (h.orphan = false → ∃ t : State, exec (.ownerSilenceTimeout xid) s = .next t ∧
        tfind t.dev.hnd.inc xid.toNat = none ∧ t.mem = s.mem ∧ t.pending = s.pending)) ∧
    (∀ reason : Byte, tfind s.dev.hnd.inc xid.toNat = none → exec (.hoAbortReceived src xid reason) s = .next s ∧
      exec (.ownerSilenceTimeout xid) s = .next s ∧ exec (.hoKeepReceived src xid) s = .next s))

/-- The owning device (R255, R265, R267): a grant is counted and the remainder streamed to the node that gave it; a progress report is the confirmed
point; HO_DONE ends the exchange; a denial, the absence of a grant, and the loss of a cover that was granted, with 0x060C, end it as well, and where a
takeover waits for it the failed cover is not asked again (stated while RUN is set); a message that names no exchange of its sender changes
nothing. -/
def Obligations.RemaindersOwned : Prop :=
  ∀ (src : Node) (xid : Word) (s : State),
    (s.dev.outOf src.val xid.toNat = none →
      (∀ (c : Fin 4) (start : Word), exec (.hoGrantReceived src xid c start) s = .next s) ∧
      (∀ a b x y : Word, exec (.hoProgReceived src xid a b x y) s = .next s) ∧
      (∀ reason : Byte, reason ≠ 7 → exec (.hoDenyReceived src xid reason) s = .next s) ∧
      (∀ m : HoDone, m.xid = xid → exec (.hoDoneReceived src m) s = .next s)) ∧
    (tfind s.dev.hnd.out xid.toNat = none → exec (.hoGrantTimeout xid) s = .next s ∧ exec (.remoteCoverLost xid) s = .next s) ∧
    (∀ (o : HoOut) (i : Nat) (x : Takeover) (q : PathSt) (c : Fin 4) (start : Word), s.dev.outOf src.val xid.toNat = some o →
      o.granted = false → s.dev.tkoOf o.key = some i → tfind s.dev.hnd.tko i = some x → s.dev.path? o.key = some q →
      ∃ t : State, exec (.hoGrantReceived src xid c start) s = .next t ∧
        tfind t.dev.hnd.out xid.toNat = some { o with granted := true, heard := s.dev.time, sent := q.first + q.count } ∧
        t.dev.get F.HND_REMOTE_OUT_COUNT = min (s.dev.get F.HND_REMOTE_OUT_COUNT + 1) (2 ^ F.HND_REMOTE_OUT_COUNT.width - 1) ∧
        recorded s.dev t.dev 0x0601 0x04 1 (pair8 (x.lead.getD 0xFF) (entryNo x.entry)) (pair8 o.node o.port) (pair8 c.val start.toNat) ∧
        t = { s with dev := { s.dev with
          regs := t.dev.regs, evr := t.dev.evr, glk := { s.dev.glk with tx := t.dev.glk.tx, seqs := t.dev.glk.seqs },
          hnd := { s.dev.hnd with out := t.dev.hnd.out } } } ∧
        regsKeep (recFlds ++ [F.HND_REMOTE_OUT_COUNT]) s.dev t.dev) ∧
    (∀ (o : HoOut) (a b x y : Word), s.dev.outOf src.val xid.toNat = some o → o.granted = true → o.started = true →
      ∃ t : State, exec (.hoProgReceived src xid a b x y) s = .next t ∧
        tfind t.dev.hnd.out xid.toNat = some { o with
          heard := s.dev.time, conf := { o.conf with seg := a.toNat, cnt := b.toNat, x := ptFix x, y := ptFix y, hold := 0 } } ∧
        t = { s with dev := { s.dev with hnd := { s.dev.hnd with out := t.dev.hnd.out } } }) ∧
    (∀ (o : HoOut) (m : HoDone), s.dev.outOf src.val xid.toNat = some o → m.xid = xid → m.aborted = false →
      s.dev.get F.BED_CTRL_RUN ≠ 0 → ∃ t : State, exec (.hoDoneReceived src m) s = .next t ∧ tfind t.dev.hnd.out xid.toNat = none ∧
        t.mem = s.mem ∧ t.pending = s.pending) ∧
    (∀ o : HoOut, tfind s.dev.hnd.out xid.toNat = some o → o.granted = false → s.dev.tkoOf o.key = none →
      exec (.hoGrantTimeout xid) s = .next (s.onDev (fun d => d.dropOut xid.toNat)) ∧
      (∀ reason : Byte, o.node = src.val → reason ≠ 7 →
        exec (.hoDenyReceived src xid reason) s = .next (s.onDev (fun d => d.dropOut xid.toNat)))) ∧
    (∀ (o : HoOut) (i : Nat), tfind s.dev.hnd.out xid.toNat = some o → s.dev.tkoOf o.key = some i → (tfind s.dev.hnd.tko i).isSome = true →
      s.dev.get F.BED_CTRL_RUN ≠ 0 →
      (o.granted = false → ∃ t : State, exec (.hoGrantTimeout xid) s = .next t ∧ t.mem = s.mem ∧
        (∀ x : Takeover, tfind t.dev.hnd.tko i = some x → (o.node, o.port) ∈ x.tried)) ∧
      (∀ reason : Byte, o.granted = false → o.node = src.val → reason ≠ 7 → ∃ t : State, exec (.hoDenyReceived src xid reason) s = .next t ∧
        t.mem = s.mem ∧ (∀ x : Takeover, tfind t.dev.hnd.tko i = some x → (o.node, o.port) ∈ x.tried)) ∧
      (o.granted = true → ∃ t : State, exec (.remoteCoverLost xid) s = .next t ∧ t.mem = s.mem ∧
        (∀ x : Takeover, tfind t.dev.hnd.tko i = some x → (o.node, o.port) ∈ x.tried))) ∧
    (∀ o : HoOut, tfind s.dev.hnd.out xid.toNat = some o → o.granted = true → s.dev.tkoOf o.key = none →
      ∃ t : State, exec (.remoteCoverLost xid) s = .next t ∧ tfind t.dev.hnd.out xid.toNat = none ∧
        t.dev.evr = (s.dev.raiseSeg (s.dev.segTag s.mem o.key o.conf.seg) 0x060C 0x04 4 (pair8 o.node o.port) (s.dev.tileNo o.key)
          o.conf.seg).evr ∧
        onlyRegsRec [] { s with dev := { s.dev with hnd := { s.dev.hnd with out := t.dev.hnd.out } } } t)

/-- Standby copies and orphans (R268, R269): a header opens a copy while fewer than 1,024 are kept and is denied with reason 7 otherwise; segments, parameter sets and
marks join it; HO_STBY_END discards it; an orphan whose copy is not complete is discarded with 0x0612, one that a cover can take is announced to its owner; an owner that
still runs the path blanks the beam and ends it (stated while RUN is set). -/
def Obligations.StandbyCopies : Prop :=
  ∀ (src : Node) (xid : Word) (s : State),
    (∀ h : StbyHdr,
      (s.dev.hnd.stby.length < 1024 → ∃ t : State, exec (.hoStbyReceived src xid (.header h)) s = .next t ∧
        tfind t.dev.hnd.stby xid.toNat = some ⟨src.val, h, [], [], none, s.dev.time⟩ ∧
        (∀ k : Nat, k ≠ xid.toNat → tfind t.dev.hnd.stby k = tfind s.dev.hnd.stby k) ∧
        t = { s with dev := { s.dev with hnd := { s.dev.hnd with stby := t.dev.hnd.stby } } }) ∧
      (1024 ≤ s.dev.hnd.stby.length → tfind s.dev.hnd.stby xid.toNat = none →
        ∃ t : State, exec (.hoStbyReceived src xid (.header h)) s = .next t ∧
          t.dev.glk.tx = s.dev.glk.tx ++ [⟨0x12, some src.val, tget 0 s.dev.glk.seqs 0x12, leBytes 4 xid.toNat ++ leBytes 4 7⟩] ∧
          t = { s with dev := { s.dev with glk := { s.dev.glk with tx := t.dev.glk.tx, seqs := t.dev.glk.seqs } } })) ∧
    (tfind s.dev.hnd.stby xid.toNat = none →
      (∀ b : HoBody, exec (.hoStbyReceived src xid (.body b)) s = .next s) ∧
      (∀ (a b x y n : Word) (hit : Bool), exec (.hoMarkReceived src xid a b x y n hit) s = .next s) ∧
      (∀ reason : Byte, exec (.hoStbyEndReceived src xid reason) s = .next s) ∧ exec (.orphanTakeover xid) s = .next s) ∧
    (∀ c : Standby, tfind s.dev.hnd.stby xid.toNat = some c → c.node = src.val →
      (∀ (first : Nat) (recs : List (List Byte)), ∃ t : State, exec (.hoStbyReceived src xid (.body (.segs first recs))) s = .next t ∧
        tfind t.dev.hnd.stby xid.toNat = some { c with segs := putAll c.segs first recs, heard := s.dev.time } ∧
        t = { s with dev := { s.dev with hnd := { s.dev.hnd with stby := t.dev.hnd.stby } } }) ∧
      (∀ (a b x y n : Word) (hit : Bool), ∃ t : State, exec (.hoMarkReceived src xid a b x y n hit) s = .next t ∧
        tfind t.dev.hnd.stby xid.toNat = some { c with
          heard := s.dev.time, mark := some ⟨a.toNat, b.toNat, ptFix x, ptFix y, 0, 0, if hit then some (n, a.toNat) else none⟩ } ∧
        t = { s with dev := { s.dev with hnd := { s.dev.hnd with stby := t.dev.hnd.stby } } }) ∧
      (∀ reason : Byte, ∃ t : State, exec (.hoStbyEndReceived src xid reason) s = .next t ∧ tfind t.dev.hnd.stby xid.toNat = none ∧
        (∀ k : Nat, k ≠ xid.toNat → tfind t.dev.hnd.stby k = tfind s.dev.hnd.stby k) ∧
        t = { s with dev := { s.dev with hnd := { s.dev.hnd with stby := t.dev.hnd.stby } } })) ∧
    (∀ c : Standby, tfind s.dev.hnd.stby xid.toNat = some c →
      (c.complete = false ∨ s.dev.orphanCover s.mem xid.toNat c = none →
        ∃ t : State, exec (.orphanTakeover xid) s = .next t ∧ tfind t.dev.hnd.stby xid.toNat = none ∧
        recorded s.dev t.dev 0x0612 0x04 4 (c.node + 256 * c.hdr.lead.val + 65536 * 0xFF + 2 ^ 24 * 3) c.hdr.bedNo.toNat c.hdr.tile.toNat ∧
        onlyRegsRec [] { s with dev := s.dev.stbyTaken xid.toNat } t) ∧
      (∀ cv : Nat × Nat, s.dev.orphanCover s.mem xid.toNat c = some cv →
        ∃ (t : State) (q : Nat), exec (.orphanTakeover xid) s = .next t ∧ tfind t.dev.hnd.stby xid.toNat = none ∧
          t.dev.glk.tx.getLast? =
            some ⟨0x1B, some c.node, q, leBytes 4 xid.toNat ++ leBytes 4 cv.2 ++ leBytes 4 c.startPt.seg⟩ ∧
          t.mem = s.mem ∧ t.pending = s.pending)) ∧
    ((tfind s.dev.hnd.stbyOut xid.toNat = none → ∀ (cover : Port) (seg : Word), exec (.hoOrphanedReceived src xid cover seg) s = .next s) ∧
     (∀ (o : StbyOut) (q : PathSt) (p : Nat) (cover : Port) (seg : Word), tfind s.dev.hnd.stbyOut xid.toNat = some o → o.node = src.val →
      s.dev.path? o.key = some q → q.st = .running p → (s.dev.runOf p).isSome = true → p < 32 → s.dev.get F.BED_CTRL_RUN ≠ 0 →
      ∃ t : State, exec (.hoOrphanedReceived src xid cover seg) s = .next t ∧ t.dev.runOf p = none ∧
        t.dev.get (F.BEAMn_PSTAT_EMIT p) = 0 ∧ t.mem = s.mem ∧ t.pending = s.pending))

/-! ## Gorwin Link and network time (R296 to R317) -/

/-- Frames and markers at a Gorwin Link port (R299, R300, R302, R303). A block in error is counted, in the states that hold block lock (log entry
81), and discards the frame being received; where it makes 64 of 1,024 on its lane the port goes DOWN, which of an UP port is the loss of its
neighbour. The blocks of a whole frame, put on the lanes from either of them (R299, R300): a port that is not UP takes none but a HELLO in its
bring-up; a bad checksum, an unknown type, or no hop left is counted; a frame for this node is left to its message's row; one for another
node leaves with one hop less by the next hop, or is dropped where there is no route. A port that is not UP takes no marker; an invalid one is
counted, a valid one is kept and ends a run of invalid ones (stated for a port that is not upstream, and where the role is not judged because
another port that is UP has not had a valid marker yet). -/
def Obligations.GlkFramesAndMarkers : Prop :=
  (∀ (p : Gp) (b : GlkBlock) (s : State), blockBad b = true →
    let st := s.dev.get (F.GLKp_STAT_STATE p.val)
    let gone := ((s.dev.glkRx p.val).count b).lost
    let held := fun (t : State) => (∀ q : Nat, q ≠ p.val → t.dev.glkRx q = s.dev.glkRx q) ∧
      t = { s with dev := { s.dev with regs := t.dev.regs, glk := { s.dev.glk with rxs := t.dev.glk.rxs } } }
    (2 ≤ st → st ≤ 5 → gone = false → ∃ t : State, exec (.glkFrameReceived p b []) s = .next t ∧ held t ∧
      (t.dev.glkRx p.val).frame = none ∧ regsKeep [F.GLKp_BLK_ERR_COUNT p.val] s.dev t.dev ∧
      t.dev.get (F.GLKp_BLK_ERR_COUNT p.val) =
        min (s.dev.get (F.GLKp_BLK_ERR_COUNT p.val) + 1) (2 ^ (F.GLKp_BLK_ERR_COUNT p.val).width - 1)) ∧
    (2 ≤ st → st ≤ 5 → gone = true → ∃ t : State, exec (.glkFrameReceived p b []) s = .next t ∧
      t.dev.get (F.GLKp_STAT_STATE p.val) = 0 ∧ t.dev.get (F.GLKp_STAT_NBR_VALID p.val) = 0 ∧ t.dev.glkRx p.val = glkRx0 ∧
      (st = 5 → t.dev.get (F.GLKp_STAT_LOST p.val) = 1) ∧ t.mem = s.mem) ∧
    (st < 2 ∨ 5 < st → ∃ t : State, exec (.glkFrameReceived p b []) s = .next t ∧ held t ∧ t.dev.regs = s.dev.regs)) ∧
  (∀ (p : Gp) (f : GlkFrame) (crc : Word) (l : Fin 2) (s : State), f.payload.length % 8 = 0 → f.payload.length ≤ 1008 →
    let st := s.dev.get (F.GLKp_STAT_STATE p.val)
    let start : GlkBlock := ⟨l, (frameStart f).1, (frameStart f).2⟩
    let rest := onLanes (l + 1) (frameRest f crc)
    let took := fun (t : State) => (t.dev.glkRx p.val).frame = none ∧ (∀ q : Nat, q ≠ p.val → t.dev.glkRx q = s.dev.glkRx q) ∧
      t = { s with dev := { s.dev with regs := t.dev.regs, glk := { s.dev.glk with rxs := t.dev.glk.rxs, fwd := t.dev.glk.fwd } } }
    let dropped := fun (t : State) => took t ∧ t.dev.glk.fwd = s.dev.glk.fwd ∧ regsKeep [F.GLKp_DROPS_COUNT p.val] s.dev t.dev ∧
      t.dev.get (F.GLKp_DROPS_COUNT p.val) = min (s.dev.get (F.GLKp_DROPS_COUNT p.val) + 1) (2 ^ (F.GLKp_DROPS_COUNT p.val).width - 1)
    let quiet := fun (t : State) => took t ∧ t.dev.glk.fwd = s.dev.glk.fwd ∧ t.dev.regs = s.dev.regs
    (st ≠ 5 → f.type ≠ 1 → ∃ t : State, exec (.glkFrameReceived p start rest) s = .next t ∧ quiet t) ∧
    (st = 5 →
      (crc ≠ frameCrc f → ∃ t : State, exec (.glkFrameReceived p start rest) s = .next t ∧ took t ∧ t.dev.glk.fwd = s.dev.glk.fwd ∧
        regsKeep [F.GLKp_CRC_ERR_COUNT p.val] s.dev t.dev ∧
        t.dev.get (F.GLKp_CRC_ERR_COUNT p.val) = min (s.dev.get (F.GLKp_CRC_ERR_COUNT p.val) + 1)
          (2 ^ (F.GLKp_CRC_ERR_COUNT p.val).width - 1)) ∧
      (crc = frameCrc f →
        (f.type.toNat ∉ glkTypes → ∃ t : State, exec (.glkFrameReceived p start rest) s = .next t ∧ dropped t) ∧
        (f.type.toNat ∈ glkTypes → f.dst.toNat = s.dev.node →
          ∃ t : State, exec (.glkFrameReceived p start rest) s = .next t ∧ quiet t) ∧
        (f.type.toNat ∈ glkTypes → f.type ≠ 1 → f.dst.toNat ≠ s.dev.node → f.dst ≠ 0xFF →
          (f.ttl.toNat ≤ 1 → ∃ t : State, exec (.glkFrameReceived p start rest) s = .next t ∧ dropped t) ∧
          (∀ q : Nat, 2 ≤ f.ttl.toNat → s.dev.nextHop f.dst.toNat = some q →
            ∃ t : State, exec (.glkFrameReceived p start rest) s = .next t ∧ took t ∧ t.dev.regs = s.dev.regs ∧
              t.dev.glk.fwd = s.dev.glk.fwd ++ [(q, { f with ttl := f.ttl - 1 })]) ∧
          (2 ≤ f.ttl.toNat → s.dev.nextHop f.dst.toNat = none →
            ∃ t : State, exec (.glkFrameReceived p start rest) s = .next t ∧ quiet t))))) ∧
  (∀ (p : Gp) (m : Marker) (s : State),
    (s.dev.get (F.GLKp_STAT_STATE p.val) ≠ 5 → exec (.glkMarker p m) s = .next s) ∧
    (s.dev.get (F.GLKp_STAT_STATE p.val) = 5 → s.dev.glk.up ≠ some p.val →
      (s.dev.markValid p.val m = false → ∃ t : State, exec (.glkMarker p m) s = .next t ∧
        (t.dev.glkPort p.val).bad = (s.dev.glkPort p.val).bad + 1 ∧ (t.dev.glkPort p.val).mark = (s.dev.glkPort p.val).mark ∧
        t = { s with dev := { s.dev with glk := { s.dev.glk with ports := t.dev.glk.ports } } }) ∧
      (∀ q : Nat, s.dev.markValid p.val m = true → s.dev.rigged = true → s.dev.get F.GLK_STAT_ROLE ≠ 2 → q < 4 → q ≠ p.val →
        s.dev.get (F.GLKp_STAT_STATE q) = 5 → (s.dev.glkPort q).mark = none → ∃ t : State, exec (.glkMarker p m) s = .next t ∧
        (t.dev.glkPort p.val).bad = 0 ∧ (t.dev.glkPort p.val).mark = some (m, s.dev.tick) ∧ t.dev.glkPort q = s.dev.glkPort q ∧
        t = { s with dev := { s.dev with glk := { s.dev.glk with ports := t.dev.glk.ports } } })))

/-- States of Gorwin Link ports (R306, R308, R309): an enabled port of a rigged device leaves DOWN for LOCK, LOCK leads to ALIGN and ALIGN to HELLO; a HELLO
there shows the neighbour and leads to DELAY, from which 256 measurements that agree lead to UP with their mean delay; a bring-up state that
lasts 100 ms, or the loss of the neighbour of a port that is UP, leads back to DOWN with nothing known of the neighbour; a HELLO with this device's own
node number is a NODE_CONFLICT, recorded once as 0x0703; anything else changes nothing. -/
def Obligations.GlkPortStates : Prop :=
  ∀ (p : Gp) (s : State),
    let st := s.dev.get (F.GLKp_STAT_STATE p.val)
    (st = 0 → s.dev.rigged = true → s.dev.bit F.GLK_CTRL_PORT_EN p.val = true → ∃ t : State, exec (.glkPortStateAdvance p) s = .next t ∧
      t.dev.get (F.GLKp_STAT_STATE p.val) = 1 ∧ (t.dev.glkPort p.val).since = s.dev.time ∧ t.mem = s.mem ∧
      regsKeep [F.GLKp_STAT_STATE p.val] s.dev t.dev) ∧
    (st = 0 → s.dev.bit F.GLK_CTRL_PORT_EN p.val = false → exec (.glkPortStateAdvance p) s = .next s) ∧
    (st = 1 ∨ st = 2 → ∃ t : State, exec (.glkPortStateAdvance p) s = .next t ∧ t.dev.get (F.GLKp_STAT_STATE p.val) = st + 1 ∧
      (t.dev.glkPort p.val).since = s.dev.time ∧ t.mem = s.mem ∧ regsKeep [F.GLKp_STAT_STATE p.val] s.dev t.dev) ∧
    (st = 4 → delaysAgree (s.dev.glkPort p.val).delays = true → ∃ t : State, exec (.glkPortStateAdvance p) s = .next t ∧
      t.dev.get (F.GLKp_STAT_STATE p.val) = 5 ∧
      t.dev.get (F.GLKp_DELAY_DELAY p.val) = meanDelay (s.dev.glkPort p.val).delays % 2 ^ 24 ∧ t.mem = s.mem) ∧
    ((st = 4 ∧ delaysAgree (s.dev.glkPort p.val).delays = false) ∨ st = 3 ∨ 5 ≤ st → exec (.glkPortStateAdvance p) s = .next s) ∧
    (1 ≤ st → st ≤ 4 → 100000000 ≤ elapsed64 s.dev.time (s.dev.glkPort p.val).since →
      ∃ t : State, exec (.glkPortStateTimeout p) s = .next t ∧ t.dev.get (F.GLKp_STAT_STATE p.val) = 0 ∧
        t.dev.get (F.GLKp_STAT_NBR_VALID p.val) = 0 ∧ (t.dev.glkPort p.val).mark = none ∧ t.mem = s.mem ∧
        t.dev.evr = s.dev.evr ∧ regsKeep [F.GLKp_STAT_STATE p.val, F.GLKp_STAT_NBR_VALID p.val] s.dev t.dev) ∧
    (st = 0 ∨ 5 ≤ st ∨ (elapsed64 s.dev.time (s.dev.glkPort p.val).since) < 100000000 → exec (.glkPortStateTimeout p) s = .next s) ∧
    (∀ cause : LostCause, (st ≠ 5 → exec (.neighbourLost p cause) s = .next s) ∧
      (st = 5 → ∃ t : State, exec (.neighbourLost p cause) s = .next t ∧ t.dev.get (F.GLKp_STAT_STATE p.val) = 0 ∧
        t.dev.get (F.GLKp_STAT_LOST p.val) = 1 ∧ t.dev.get (F.GLKp_STAT_NBR_VALID p.val) = 0 ∧
        (t.dev.glkPort p.val).mark = none ∧ t.mem = s.mem)) ∧
    (∀ h : Hello,
      (st ≠ 3 → st ≠ 4 → st ≠ 5 → exec (.helloReceived p h) s = .next s) ∧
      (st = 3 ∨ st = 4 ∨ st = 5 → h.node.val = s.dev.node → s.dev.get F.GLK_STAT_NODE_CONFLICT = 0 →
        ∃ t : State, exec (.helloReceived p h) s = .next t ∧ t.dev.get F.GLK_STAT_NODE_CONFLICT = 1 ∧
          bitAt (t.dev.get F.HST_ATTN_CAUSE) 6 = true ∧ recorded s.dev t.dev 0x0703 0x07 4 p.val h.node.val h.imgId.toNat ∧
          onlyRegsRec [F.GLK_STAT_NODE_CONFLICT] s t) ∧
      (st = 3 → h.node.val ≠ s.dev.node → ∃ t : State, exec (.helloReceived p h) s = .next t ∧
        t.dev.get (F.GLKp_STAT_STATE p.val) = 4 ∧ t.dev.get (F.GLKp_STAT_NBR_NODE p.val) = h.node.val ∧
        t.dev.get (F.GLKp_STAT_NBR_PORT p.val) = h.port.val ∧ t.dev.get (F.GLKp_STAT_NBR_VALID p.val) = 1 ∧
        (t.dev.glkPort p.val).delays = h.rtt.toList ∧ (t.dev.glkPort p.val).echo = some (h.tick, h.ofs) ∧ t.mem = s.mem ∧ t.dev.evr = s.dev.evr ∧
        regsKeep [F.GLKp_STAT_STATE p.val, F.GLKp_STAT_NBR_NODE p.val, F.GLKp_STAT_NBR_PORT p.val, F.GLKp_STAT_NBR_VALID p.val]
          s.dev t.dev))

/-- Messages between nodes (R249, R296, R304 to R307): a ROUTE of another node enters the table of routes; a TIME is kept as its sender's, and that of the root that a
MEMBER follows gives it the internal time and its validity; an OVERLAP replaces what is known of a node's beams; each DIGEST record is counted and recorded as 0x0710; a periodic
message that falls due joins what leaves at the T-tick, and nothing is sent by a device without a rigging, nor ROUTE and OVERLAP with no
port UP, nor TIME by a device that is not the root. -/
def Obligations.GlkMessages : Prop :=
  (∀ (r : Route) (s : State),
    (s.dev.rigged = false ∨ r.node.val = s.dev.node → exec (.routeReceived r) s = .next s) ∧
    (s.dev.rigged = true → r.node.val ≠ s.dev.node → ∃ t : State, exec (.routeReceived r) s = .next t ∧
      tfind t.dev.glk.routes r.node.val = some (r.nbr.filterMap (fun x => x.map (fun (y : Node × Gp) => y.1.val))) ∧
      (∀ p : Nat, p < 4 → t.dev.get (F.GLKp_STAT_STATE p) = s.dev.get (F.GLKp_STAT_STATE p)) ∧ t.mem = s.mem)) ∧
  (∀ (m : TimeMsg) (s : State),
    (s.dev.get F.GLK_STAT_ROLE = 2 → s.dev.glk.root = some m.src.val → m.src.val ≠ s.dev.node →
      ∃ t : State, exec (.timeReceived m) s = .next t ∧ tfind t.dev.glk.rootTimes m.src.val = some ⟨m.tick, m.time, m.valid⟩ ∧
      t.dev.time = m.time + BitVec.ofInt 64 ((s.dev.tick - m.tick).toInt * 1000) + BitVec.ofNat 64 (250 * s.dev.sub.val) ∧
      t.dev.get F.PTP_STAT_TIME_VALID = b2n m.valid ∧ t.dev.tick = s.dev.tick ∧
      (m.stepped = true → t.dev.get F.PTP_STAT_STEPPED = 1) ∧ (m.stepped = false → t.dev.evr = s.dev.evr) ∧ t.mem = s.mem ∧
      regsKeep (recFlds ++ [F.PTP_STAT_TIME_VALID, F.PTP_STAT_STEPPED]) s.dev t.dev) ∧
    (m.src.val = s.dev.node ∨ (s.dev.get F.GLK_STAT_ROLE = 0 ∧ s.dev.glkUps = []) → ∃ t : State, exec (.timeReceived m) s = .next t ∧
      tfind t.dev.glk.rootTimes m.src.val = some ⟨m.tick, m.time, m.valid⟩ ∧
      t = { s with dev := { s.dev with glk := { s.dev.glk with rootTimes := t.dev.glk.rootTimes } } })) ∧
  (∀ (o : Overlap) (s : State),
    (o.node.val = s.dev.node → exec (.overlapReceived o) s = .next s) ∧
    (o.node.val ≠ s.dev.node → ∃ t : State, exec (.overlapReceived o) s = .next t ∧
      tfind t.dev.glk.overlaps o.node.val = some (o.bedNo, o.ports.map (·.toNat)) ∧
      (∀ k : Nat, k ≠ o.node.val → tfind t.dev.glk.overlaps k = tfind s.dev.glk.overlaps k) ∧
      t = { s with dev := { s.dev with glk := { s.dev.glk with overlaps := t.dev.glk.overlaps } } })) ∧
  (∀ (src : Node) (recs : List DigestRec) (s : State), s.dev.get F.GLK_DIGEST_RX_COUNT < 2 ^ 32 →
    ∃ t : State, exec (.digestReceived src recs) s = .next t ∧
      t.dev.get F.GLK_DIGEST_RX_COUNT = min (s.dev.get F.GLK_DIGEST_RX_COUNT + recs.length) (2 ^ 32 - 1) ∧
      (∀ r : DigestRec, recs = [r] → recorded s.dev t.dev 0x0710 0x07 0 (pair8 src.val r.sev.toNat) r.code.toNat r.seq.toNat) ∧
      onlyRegsRec [F.GLK_DIGEST_RX_COUNT] s t) ∧
  (∀ s : State,
    (∀ m : GlkPeriodic, s.dev.rigged = false → exec (.glkPeriodicSend m) s = .next s) ∧
    (s.dev.glkUps = [] → exec (.glkPeriodicSend .route) s = .next s ∧ exec (.glkPeriodicSend .overlap) s = .next s) ∧
    (s.dev.get F.GLK_STAT_ROLE ≠ 1 → exec (.glkPeriodicSend .time) s = .next s) ∧
    (s.dev.rigged = true →
      (s.dev.glkUps ≠ [] → ∃ (t : State) (data : List Byte), exec (.glkPeriodicSend .route) s = .next t ∧
        t.dev.glk.tx = s.dev.glk.tx ++ [⟨0x02, none, tget 0 s.dev.glk.seqs 0x02, data⟩] ∧
        t = { s with dev := { s.dev with glk := { s.dev.glk with tx := t.dev.glk.tx, seqs := t.dev.glk.seqs } } }) ∧
      (s.dev.get F.GLK_STAT_ROLE = 1 → ∃ t : State, exec (.glkPeriodicSend .time) s = .next t ∧
        t.dev.glk.tx = s.dev.glk.tx ++ [⟨0x05, none, tget 0 s.dev.glk.seqs 0x05, leBytes 4 s.dev.tick.toNat ++
          leBytes 8 s.dev.edgeTime.toNat ++ leBytes 1 (s.dev.get F.PTP_STAT_STATE) ++
          leBytes 1 (b2n (s.dev.flag F.PTP_STAT_TIME_VALID) + 2 * b2n false)⟩] ∧
        t = { s with dev := { s.dev with glk := { s.dev.glk with tx := t.dev.glk.tx, seqs := t.dev.glk.seqs } } }) ∧
      (∀ (x : Word) (o : HoOut), tfind s.dev.hnd.out x.toNat = some o → o.granted = true →
        ∃ t : State, exec (.glkPeriodicSend (.keep x)) s = .next t ∧
          t.dev.glk.tx = s.dev.glk.tx ++ [⟨0x17, some o.node, tget 0 s.dev.glk.seqs 0x17, leBytes 4 x.toNat⟩] ∧
          t = { s with dev := { s.dev with glk := { s.dev.glk with tx := t.dev.glk.tx, seqs := t.dev.glk.seqs } } })))

/-- Network time (R310 to R313, R317): an offset from the same master moves the servo of a LOCKED clock and leaves it LOCKED; the first one of
a clock without valid time decides a step; a lost master leaves HOLDOVER, or FREE_RUN under COMPAT, with 0x0721; a phase slew ends with
internal time at the edges again; an Ethernet port that comes up listens and one that goes down is faulty; responses give the mean path delay and
requests are answered with their ingress timestamp; a master's messages leave with their egress timestamp, a two-step Sync with its Follow_Up; what a port without PTP receives, or is not due to send, changes nothing. -/
def Obligations.PtpRows : Prop :=
  (∀ (e : Eth) (raw : Int) (gm : DWord) (s : State),
    let o := s.dev.syncOffset e.val raw
    (s.dev.ptpOn e.val = false → exec (.ptpSync e raw gm) s = .next s) ∧
    (s.dev.ptpOn e.val = true → s.dev.get F.PTP_GM_HI_ID = gm.toNat / 2 ^ 32 → s.dev.get F.PTP_GM_LO_ID = gm.toNat % 2 ^ 32 →
      (s.dev.get F.PTP_STAT_STATE = 6 → exec (.ptpSync e raw gm) s = .next s) ∧
      (s.dev.get F.PTP_STAT_STATE = 2 → s.dev.get F.PTP_STAT_TIME_VALID = 1 → s.dev.ptp.first = none →
        ∃ t : State, exec (.ptpSync e raw gm) s = .next t ∧ t.dev.get F.PTP_STAT_STATE = 2 ∧
          t.dev.get F.PTP_OFS_LO_NS = trunc 32 o ∧ t.dev.ptp.i = f32Add s.dev.ptp.i (f32Mul (s.dev.getW F.PTP_KI_VAL) (f32OfInt o)) ∧
          t.dev.get F.PTP_FREQ_VAL = (s.dev.slewLimit (f32Sub s.dev.ptp.fHold
            (f32Add (f32Mul (s.dev.getW F.PTP_KP_VAL) (f32OfInt o)) t.dev.ptp.i))).toNat ∧
          t.dev.ptp.run = (if o.natAbs ≤ 100 then s.dev.ptp.run + 1 else 0) ∧ t.dev.evr = s.dev.evr ∧ t.dev.time = s.dev.time ∧
          t = { s with dev := { s.dev with regs := t.dev.regs, ptp := t.dev.ptp } } ∧
          regsKeep [F.PTP_OFS_LO_NS, F.PTP_OFS_HI_NS, F.PTP_FREQ_VAL] s.dev t.dev) ∧
      (s.dev.get F.PTP_STAT_STATE ≠ 6 → s.dev.get F.PTP_STAT_TIME_VALID = 0 → s.dev.ptp.step = none →
        ∃ t : State, exec (.ptpSync e raw gm) s = .next t ∧ t.dev.ptp.step = some o ∧ t.dev.get F.PTP_STAT_STATE = 1 ∧
          t.dev.time = s.dev.time ∧ t.dev.evr = s.dev.evr ∧ regsKeep [F.PTP_OFS_LO_NS, F.PTP_OFS_HI_NS, F.PTP_STAT_STATE] s.dev t.dev))) ∧
  (∀ (e : Eth) (s : State),
    (∀ (mine other : Int → PtpMsg) (v : Int), s.dev.ptpOn e.val = true →
      (mine, other) = (if s.dev.get F.PTP_CTRL_P2P = 0 then (PtpMsg.delayResp, PtpMsg.pdelayResp) else (PtpMsg.pdelayResp, PtpMsg.delayResp)) →
      (∃ t : State, exec (.ptpMessage e (mine v)) s = .next t ∧
        (t.dev.get (F.PTPp_MPD_MPD e.val) : Int) =
          (v + s.dev.get (F.PTPp_ING_LAT_LAT e.val) - s.dev.get (F.PTPp_EGR_LAT_LAT e.val)) / 2 % 2 ^ 32 ∧
        onlyRegs [F.PTPp_MPD_MPD e.val] s t) ∧ exec (.ptpMessage e (other v)) s = .next s) ∧
    (s.dev.get (F.PTPp_CFG_PEN e.val) = 1 → ∃ t : State, exec (.ptpMessage e .nonPtp) s = .next t ∧
      t.dev.get (F.PTPp_RX_OTHER_COUNT e.val) = min (s.dev.get (F.PTPp_RX_OTHER_COUNT e.val) + 1)
        (2 ^ (F.PTPp_RX_OTHER_COUNT e.val).width - 1) ∧ onlyRegs [F.PTPp_RX_OTHER_COUNT e.val] s t) ∧
    (∀ raw : Nat, s.dev.ptpOn e.val = true →
      (s.dev.get F.PTP_CTRL_P2P = 0 → s.dev.get (F.PTPp_STAT_PSTATE e.val) = 6 →
        exec (.ptpMessage e (.delayReq raw)) s = .next { s with dev := { s.dev with ptp := { s.dev.ptp with
          sent := s.dev.ptp.sent ++ [s.dev.ptpSentNow e.val .delayResp (some (raw + s.dev.get (F.PTPp_ING_LAT_LAT e.val)))] } } }) ∧
      (s.dev.get F.PTP_CTRL_P2P ≠ 0 → s.dev.get F.PTP_CTRL_ONESTEP ≠ 0 →
        exec (.ptpMessage e (.pdelayReq raw)) s = .next { s with dev := { s.dev with ptp := { s.dev.ptp with
          sent := s.dev.ptp.sent ++ [s.dev.ptpSentNow e.val .pdelayResp (some (raw + s.dev.get (F.PTPp_ING_LAT_LAT e.val)))] } } })) ∧
    (exec (.ptpMessage e .request) s = .next s ∧ exec (.ptpMessage e .management) s = .next s)) ∧
  (∀ s : State,
    let st := s.dev.get F.PTP_STAT_STATE
    (s.dev.get F.PTP_CTRL_EN = 0 ∨ st = 0 ∨ st = 3 ∨ st = 4 ∨ 6 ≤ st → exec .ptpMasterLost s = .next s) ∧
    (s.dev.get F.PTP_CTRL_EN = 1 → st = 1 ∨ st = 2 ∨ st = 5 → ∃ t : State, exec .ptpMasterLost s = .next t ∧
      t.dev.get F.PTP_STAT_STATE = (if s.dev.get F.PTP_CTRL_COMPAT = 0 then 3 else 4) ∧ t.dev.get F.PTP_STAT_MASTER_LOST = 1 ∧
      (s.dev.get F.PTP_CTRL_COMPAT ≠ 0 → t.dev.getW F.PTP_FREQ_VAL = s.dev.getW F.PTP_FREQ_VAL) ∧
      t.dev.ptp = { s.dev.ptp with first := none, run := 0 } ∧
      onlyRegsRec [F.PTP_STAT_STATE, F.PTP_STAT_MASTER_LOST, F.PTP_FREQ_VAL]
        { s with dev := { s.dev with ptp := t.dev.ptp } } t) ∧
    (s.dev.get F.PTP_STAT_PHASE_SLEW = 0 → exec .phaseSlewDone s = .next s) ∧
    (s.dev.get F.PTP_STAT_PHASE_SLEW ≠ 0 → ∃ t : State, exec .phaseSlewDone s = .next t ∧ t.dev.get F.PTP_STAT_PHASE_SLEW = 0 ∧
      t.dev.time = s.dev.time - BitVec.ofInt 64 s.dev.ptp.rem ∧ t.dev.ptp = { s.dev.ptp with rem := 0 } ∧ t.dev.tick = s.dev.tick ∧
      t.mem = s.mem ∧ t.dev.evr = s.dev.evr ∧ regsKeep [F.PTP_STAT_PHASE_SLEW] s.dev t.dev)) ∧
  (∀ (e : Eth) (up : Bool) (s : State), ∃ t : State, exec (.ethLinkChange e up) s = .next t ∧
    t.dev.get (F.PTPp_STAT_LINK e.val) = b2n up ∧
    (s.dev.ptpOn e.val = true → t.dev.get (F.PTPp_STAT_PSTATE e.val) = if up then 4 else 2) ∧
    (s.dev.ptpOn e.val = false → t.dev.get (F.PTPp_STAT_PSTATE e.val) = s.dev.get (F.PTPp_STAT_PSTATE e.val)) ∧
    onlyRegs [F.PTPp_STAT_LINK e.val, F.PTPp_STAT_PSTATE e.val] s t) ∧
  (∀ (e : Eth) (m : PtpOut) (s : State),
    (s.dev.ptpOn e.val = false ∨ s.dev.get (F.PTPp_STAT_LINK e.val) = 0 → exec (.ptpPeriodicSend e m) s = .next s) ∧
    (s.dev.ptpOn e.val = true → s.dev.get (F.PTPp_STAT_LINK e.val) = 1 → s.dev.get (F.PTPp_STAT_PSTATE e.val) = 6 →
      m = .sync ∨ m = .announce →
      let out : PtpSent := {
          port := e.val
          msg := Sys2Proof.Machine.ptpOutKind m
          stamp := s.dev.time.toNat * 16 + s.dev.get (F.PTPp_EGR_LAT_LAT e.val)
          domain := s.dev.get F.PTP_DOMAIN_DOMAIN
          transport := s.dev.get F.PTP_CTRL_TRANSPORT
          oneStep := s.dev.flag F.PTP_CTRL_ONESTEP
          interval := some (s.dev.getI (if m = .sync then F.PTP_INTV_SYNC_LOG else F.PTP_INTV_ANN_LOG))
          clock := if m = .announce then
            some (s.dev.get F.PTP_DOMAIN_PRIO1, s.dev.get F.PTP_DOMAIN_CLASS, s.dev.get F.PTP_DOMAIN_PRIO2) else none }
      exec (.ptpPeriodicSend e m) s = .next { s with dev := { s.dev with ptp := { s.dev.ptp with
        sent := s.dev.ptp.sent ++ (if m = .sync ∧ s.dev.get F.PTP_CTRL_ONESTEP = 0 then [out, { out with msg := .followUp, interval := none }]
          else [out]) } } }))

/-! ## The DRAM controller and the scrubs (R320 to R336) -/

/-- Channel training and retraining (R29, R324 to R326, R334). A channel in training comes UP with what training found, and 0x0800 is recorded; a
step that failed three times, in training or retraining, makes it LOST. A check of a channel that is UP, due after RT_PERIOD or a move of the
temperature, begins a sequence: the reading step, one step for each 1/64 UI by which the drift exceeds 1/64 UI, and two ZQ steps where 128 ms
have passed; one that is not due begins none. A step runs in a pause (no exposure-class request waits, and outside IDLE the prefetch queues are full enough), 10 µs after the last, with both monitors in their windows, and is counted; one that has waited 1 s is late, once. No row acts in another state
of the channel. -/
def Obligations.ChannelTrainingAndRetraining : Prop :=
  ∀ (c : Ch) (s : State),
    let st := s.dev.get (F.DDR_CHc_STAT_STATE c.val)
    let x := tget ddrCh0 s.dev.ddr.ch c.val
    (∀ r : TrainResult, st = 1 → r.failStep = none → ∃ t : State, exec (.ddrTrainingDone c r) s = .next t ∧
      t.dev.get (F.DDR_CHc_STAT_STATE c.val) = 2 ∧ t.dev.get (F.DDR_CHc_STAT_SPEED c.val) = r.speed.val ∧
      t.dev.get (F.DDR_CHc_STAT_RDIMM c.val) = b2n r.rdimm ∧ t.dev.get (F.DDR_CHc_STAT_WIDTH c.val) = b2n r.x8 ∧
      t.dev.get (F.DDR_CHc_STAT_RANKS c.val) = b2n r.tworanks ∧
      t.dev.get (F.DDR_CHc_STAT_CAP c.val) = r.capGb % 2 ^ (F.DDR_CHc_STAT_CAP c.val).width ∧
      recorded s.dev t.dev 0x0800 0x05 0 c.val (speedRate r.speed.val) r.ms ∧
      t = { s with dev := { s.dev with regs := t.dev.regs, evr := t.dev.evr, ddr := t.dev.ddr } } ∧
      regsKeep (recFlds ++ [F.DDR_CHc_STAT_STATE c.val, F.DDR_CHc_STAT_SPEED c.val, F.DDR_CHc_STAT_RDIMM c.val, F.DDR_CHc_STAT_WIDTH c.val,
        F.DDR_CHc_STAT_RANKS c.val, F.DDR_CHc_STAT_CAP c.val]) s.dev t.dev) ∧
    (∀ (r : TrainResult) (k : Nat), st = 1 → r.failStep = some k → ∃ t : State, exec (.ddrTrainingDone c r) s = .next t ∧
      t.dev.get (F.DDR_CHc_STAT_STATE c.val) = 5 ∧ t.dev.get F.DDR_STAT_LOST = 1 ∧ bitAt (t.dev.get F.HST_ATTN_CAUSE) 8 = true ∧
      t.mem = s.mem) ∧
    (∀ r : TrainResult, st ≠ 1 → exec (.ddrTrainingDone c r) s = .next s) ∧
    (∀ (moved : Bool) (drift : Nat), st = 2 → s.dev.sys.sup = .running → s.dev.get F.DDR_CTRL_FIXED = 0 → x.rtLeft = 0 →
      moved = true ∨ s.dev.get F.DDR_CTRL_RT_PERIOD * 1000000 ≤ elapsed64 s.dev.time x.checkAt →
      ∃ t : State, exec (.retrainCheck c moved drift) s = .next t ∧
        t = { s with dev := { s.dev with ddr := { s.dev.ddr with ch := t.dev.ddr.ch } } } ∧
        tget ddrCh0 t.dev.ddr.ch c.val = { x with
          rtLeft := 1 + (drift - 1) + (if 128000000 ≤ elapsed64 s.dev.time x.zqAt then 2 else 0)
          rtWait := some s.dev.time
          rtNoted := false
          zqAt := if 128000000 ≤ elapsed64 s.dev.time x.zqAt then s.dev.time else x.zqAt
          checkAt := s.dev.time } ∧
        (∀ e : Nat, e ≠ c.val → tget ddrCh0 t.dev.ddr.ch e = tget ddrCh0 s.dev.ddr.ch e)) ∧
    (∀ drift : Nat, elapsed64 s.dev.time x.checkAt < s.dev.get F.DDR_CTRL_RT_PERIOD * 1000000 →
      exec (.retrainCheck c false drift) s = .next s) ∧
    (∀ (moved : Bool) (drift : Nat), st ≠ 2 → exec (.retrainCheck c moved drift) s = .next s) ∧
    (st = 2 → s.dev.sys.sup = .running → s.dev.get F.DDR_CTRL_FIXED = 0 → 0 < x.rtLeft → (∀ w ∈ s.dev.ddr.waiting, w.cls ≠ 0) →
      s.dev.get F.BED_STAT_PHASE = 0 ∨ s.dev.queuesFull = true →
      (∀ u : DWord, x.lastStep = some u → 10000 ≤ elapsed64 s.dev.time u) →
      ∀ (uv : Nat) (ppb : Int), 727500 ≤ uv → uv ≤ 772500 → -50000 ≤ ppb → ppb ≤ 50000 →
      (∃ t : State, exec (.retrainStep c true uv ppb) s = .next t ∧
        t.dev.get (F.DDR_CHc_RT_STEPS_COUNT c.val) =
          min (s.dev.get (F.DDR_CHc_RT_STEPS_COUNT c.val) + 1) (2 ^ (F.DDR_CHc_RT_STEPS_COUNT c.val).width - 1) ∧
        tget ddrCh0 t.dev.ddr.ch c.val = { x with
          lastStep := some s.dev.time
          rtLeft := x.rtLeft - 1
          rtWait := if x.rtLeft = 1 then none else some s.dev.time
          rtNoted := false } ∧
        t = { s with dev := { s.dev with regs := t.dev.regs, ddr := t.dev.ddr } } ∧
        regsKeep [F.DDR_CHc_RT_STEPS_COUNT c.val] s.dev t.dev) ∧
      (∃ t : State, exec (.retrainStep c false uv ppb) s = .next t ∧ t.dev.get (F.DDR_CHc_STAT_STATE c.val) = 5 ∧
        t.dev.get F.DDR_STAT_LOST = 1 ∧ t.mem = s.mem)) ∧
    (∀ (ok : Bool) (uv : Nat) (ppb : Int), st ≠ 2 ∨ x.rtLeft = 0 ∨ (∃ w ∈ s.dev.ddr.waiting, w.cls = 0) ∨
      (s.dev.get F.BED_STAT_PHASE ≠ 0 ∧ s.dev.queuesFull = false) ∨
      uv < 727500 ∨ 772500 < uv ∨ ppb < -50000 ∨ 50000 < ppb → exec (.retrainStep c ok uv ppb) s = .next s) ∧
    (∀ u : DWord, x.rtWait = some u → x.rtNoted = false → 1000000000 ≤ elapsed64 s.dev.time u →
      ∃ t : State, exec (.retrainLate c) s = .next t ∧ t.dev.get F.DDR_STAT_RT_LATE = 1 ∧
        t.dev.get (F.DDR_CHc_RT_DEFER_COUNT c.val) =
          min (s.dev.get (F.DDR_CHc_RT_DEFER_COUNT c.val) + 1) (2 ^ (F.DDR_CHc_RT_DEFER_COUNT c.val).width - 1) ∧
        recorded s.dev t.dev 0x0806 0x05 2 c.val x.rtLeft s.dev.tick.toNat ∧
        tget ddrCh0 t.dev.ddr.ch c.val = { x with rtNoted := true } ∧
        t = { s with dev := { s.dev with regs := t.dev.regs, evr := t.dev.evr, ddr := t.dev.ddr } } ∧
        regsKeep (recFlds ++ [F.DDR_STAT_RT_LATE, F.DDR_CHc_RT_DEFER_COUNT c.val]) s.dev t.dev) ∧
    (x.rtWait = none ∨ x.rtNoted = true → exec (.retrainLate c) s = .next s)

/-- The fixed mode of the DRAM controller (R327): no retraining step is taken; a check that is due, in a pause, and
finds a lane more than 8/64 UI away sets DRIFT and records 0x0807 once per channel (the lane of its parameter is free, log entry 4); a smaller
drift, or no pause, changes nothing. -/
def Obligations.FixedModeOnlyReports : Prop :=
  ∀ (c : Ch) (s : State), s.dev.get F.DDR_CTRL_FIXED ≠ 0 →
    (∀ (ok : Bool) (uv : Nat) (ppb : Int), exec (.retrainStep c ok uv ppb) s = .next s) ∧
    (∀ (moved : Bool) (drift : Nat), drift ≤ 8 ∨ s.dev.ddrPause = false ∨ s.dev.checkDue c.val moved = false →
      exec (.retrainCheck c moved drift) s = .next s) ∧
    (∀ (moved : Bool) (drift : Nat), s.dev.get (F.DDR_CHc_STAT_STATE c.val) = 2 → s.dev.sys.sup = .running →
      (∀ w ∈ s.dev.ddr.waiting, w.cls ≠ 0) → s.dev.get F.BED_STAT_PHASE = 0 ∨ s.dev.queuesFull = true →
      moved = true ∨ s.dev.get F.DDR_CTRL_RT_PERIOD * 1000000 ≤ elapsed64 s.dev.time (tget ddrCh0 s.dev.ddr.ch c.val).checkAt → 8 < drift →
      ∃ (t : State) (lane : Nat), exec (.retrainCheck c moved drift) s = .next t ∧ t.dev.get F.DDR_STAT_DRIFT = 1 ∧
        (tget ddrCh0 t.dev.ddr.ch c.val).driftNoted = true ∧
        ((tget ddrCh0 s.dev.ddr.ch c.val).driftNoted = true → t.dev.evr = s.dev.evr) ∧
        ((tget ddrCh0 s.dev.ddr.ch c.val).driftNoted = false → recorded s.dev t.dev 0x0807 0x05 2 c.val lane drift) ∧
        (∀ e : Nat, e ≠ c.val → tget ddrCh0 t.dev.ddr.ch e = tget ddrCh0 s.dev.ddr.ch e) ∧
        t = { s with dev := { s.dev with regs := t.dev.regs, evr := t.dev.evr, freeCtr := t.dev.freeCtr, ddr := t.dev.ddr } } ∧
        regsKeep (recFlds ++ [F.DDR_STAT_DRIFT]) s.dev t.dev)

/-- Requests to the DRAM controller (R328): a request of a listed source joins those that wait with its class; the next one served is of the
highest class, and the oldest within it: a write lands, a read changes no byte, and an uncorrectable error spoils the access unless the
address is held twice (R333); an access that ends in a CA parity alert or without an answer loses the channel that serves it (R334); a request that has waited longer than its class's age rises by one class and keeps its age. -/
def Obligations.DramRequestsServed : Prop :=
  (∀ (q : DramReq) (e : DramEnd) (cls : Nat) (s : State), srcClass q.src = some cls →
    ∃ t : State, exec (.dramRequest (some q) e) s = .next t ∧ t = { s with dev := { s.dev with ddr := t.dev.ddr } } ∧
      t.dev.ddr = { s.dev.ddr with
        nextId := s.dev.ddr.nextId + 1
        waiting := s.dev.ddr.waiting ++ [⟨s.dev.ddr.nextId, q, cls, s.dev.time⟩] }) ∧
  (∀ (q : DramReq) (e : DramEnd) (s : State), srcClass q.src = none → exec (.dramRequest (some q) e) s = .next s) ∧
  (∀ (e : DramEnd) (s : State), s.dev.ddr.waiting = [] → exec (.dramRequest none e) s = .next s) ∧
  (∀ (e : DramEnd) (pre post : List DdrWait) (w : DdrWait) (s : State), s.dev.ddr.waiting = pre ++ w :: post →
    (∀ y ∈ pre, w.cls < y.cls) → (∀ y ∈ post, w.cls ≤ y.cls) → (∀ y ∈ pre ++ post, y.id ≠ w.id) →
    (∀ bs : List Byte, w.req.wr = some bs → w.cls ≠ 1 → e ≠ .caParity → e ≠ .noResponse → s.dev.beyond w.req.addr.toNat bs.length = false →
      s.dev.goneAt w.req.addr.toNat bs.length = none → ∃ t : State, exec (.dramRequest none e) s = .next t ∧
        t.dev.ddr.waiting = pre ++ post ∧ t.mem = s.mem.writeBytes w.req.addr.toNat bs ∧ t.dev.evr = s.dev.evr) ∧
    (w.req.wr = none → s.dev.beyond w.req.addr.toNat w.req.len = false → s.dev.goneAt w.req.addr.toNat w.req.len = none →
      (e ≠ .uncorrectable → ∃ t : State, exec (.dramRequest none e) s = .next t ∧ t.dev.ddr.waiting = pre ++ post ∧
        t.mem = s.mem) ∧
      (e = .uncorrectable → ∃ t : State, exec (.dramRequest none e) s = .next t ∧ t.dev.ddr.waiting = pre ++ post ∧
        t.dev.get F.DDR_STAT_UE = 1 ∧
        (s.dev.twoCopies w.req.addr.toNat = true → t.mem = s.mem) ∧
        (s.dev.twoCopies w.req.addr.toNat = false → t.mem = s.mem.spoil w.req.addr.toNat))) ∧
    (e = .caParity ∨ e = .noResponse → s.dev.get (F.DDR_CHc_STAT_STATE (s.dev.serving w.req.addr.toNat)) ≠ 5 →
      ∃ t : State, exec (.dramRequest none e) s = .next t ∧ t.dev.ddr.waiting = pre ++ post ∧
        t.dev.get (F.DDR_CHc_STAT_STATE (s.dev.serving w.req.addr.toNat)) = 5 ∧ t.dev.get F.DDR_STAT_LOST = 1 ∧
        bitAt (t.dev.get F.HST_ATTN_CAUSE) 8 = true)) ∧
  (∀ s : State, ∃ t : State, exec .requestPromotion s = .next t ∧
    t = { s with dev := { s.dev with ddr := { s.dev.ddr with waiting := t.dev.ddr.waiting } } } ∧
    t.dev.ddr.waiting.length = s.dev.ddr.waiting.length ∧
    ∀ (i : Nat) (w : DdrWait), s.dev.ddr.waiting[i]? = some w → t.dev.ddr.waiting[i]? = some { w with
      cls := if (w.cls = 2 ∧ 20000 < elapsed64 s.dev.time w.since) ∨ (w.cls = 3 ∧ 100000 < elapsed64 s.dev.time w.since) ∨
         (w.cls = 4 ∧ 1000000 < elapsed64 s.dev.time w.since) then w.cls - 1 else w.cls })

/-- Self-refresh and the scrubs (R331, R332, R335, R336). An idle channel enters self-refresh, counted, and there a wake scrubs the share due. A patrol
step of a channel that works moves on by 64 bytes, counts a corrected error, and spoils no byte that is held twice. An error in the on-chip SRAM is
counted; an uncorrectable one is shown and recorded as 0x0805 (the region's code is free, log entry 4), and the region's own response follows: a
compare unit disarms, a pair fails, the supervisor restarts, the others of those named change nothing more. -/
def Obligations.SelfRefreshAndScrubs : Prop :=
  (∀ (c : Ch) (s : State), s.dev.get F.DDR_CTRL_SR_EN ≠ 0 → s.dev.get (F.DDR_CHc_STAT_STATE c.val) = 2 → s.dev.noBeds = true →
    s.dev.chWaits c.val = false → s.dev.get F.BED_CTRL_RUN = 0 →
    s.dev.get F.DDR_SR_IDLE_US * 1000 ≤ elapsed64 s.dev.time (tget ddrCh0 s.dev.ddr.ch c.val).lastReq →
    ∃ t : State, exec (.selfRefreshEntry c) s = .next t ∧ t.dev.get (F.DDR_CHc_STAT_STATE c.val) = 4 ∧
      t.dev.get (F.DDR_CHc_SR_ENTRIES_COUNT c.val) =
        (s.dev.get (F.DDR_CHc_SR_ENTRIES_COUNT c.val) + 1) % 2 ^ (F.DDR_CHc_SR_ENTRIES_COUNT c.val).width ∧
      (tget ddrCh0 t.dev.ddr.ch c.val).srSince = some s.dev.time ∧
      t = { s with dev := { s.dev with regs := t.dev.regs, ddr := { s.dev.ddr with ch := t.dev.ddr.ch } } } ∧
      regsKeep [F.DDR_CHc_STAT_STATE c.val, F.DDR_CHc_SR_ENTRIES_COUNT c.val] s.dev t.dev) ∧
  (∀ (c : Ch) (s : State), s.dev.get F.DDR_CTRL_SR_EN = 0 ∨ s.dev.get (F.DDR_CHc_STAT_STATE c.val) ≠ 2 ∨ s.dev.noBeds = false ∨
    s.dev.chWaits c.val = true → exec (.selfRefreshEntry c) s = .next s) ∧
  (∀ (c : Ch) (s : State), let all := s.dev.capBytes 0 + s.dev.capBytes 1
    (s.dev.get (F.DDR_CHc_STAT_STATE c.val) = 4 → 0 < all → ∃ t : State, exec (.selfRefreshScrubWake c) s = .next t ∧
      t.dev.ddr.scrubAt = (s.dev.ddr.scrubAt + s.dev.scrubShare c.val) % all ∧
      t.dev.get (F.DDR_CHc_STAT_STATE c.val) = 4 ∧
      t.dev.get (F.DDR_CHc_SR_ENTRIES_COUNT c.val) =
        (s.dev.get (F.DDR_CHc_SR_ENTRIES_COUNT c.val) + 1) % 2 ^ (F.DDR_CHc_SR_ENTRIES_COUNT c.val).width ∧
      t.mem = s.mem ∧ regsKeep [F.DDR_SCRUB_PASS_COUNT, F.DDR_CHc_SR_ENTRIES_COUNT c.val] s.dev t.dev) ∧
    (s.dev.get (F.DDR_CHc_STAT_STATE c.val) ≠ 4 → exec (.selfRefreshScrubWake c) s = .next s)) ∧
  (∀ (ecc : Ecc) (s : State),
    let all := s.dev.capBytes 0 + s.dev.capBytes 1
    let c := if s.dev.ddr.scrubAt < s.dev.capBytes 0 then 0 else 1
    let o := if s.dev.ddr.scrubAt < s.dev.capBytes 0 then s.dev.ddr.scrubAt else s.dev.ddr.scrubAt - s.dev.capBytes 0
    let st := s.dev.get (F.DDR_CHc_STAT_STATE c)
    (s.dev.sys.sup = .running → 2 ≤ st → st ≠ 5 → 0 < all → ∃ t : State, exec (.dramScrubStep ecc) s = .next t ∧
      t.dev.ddr.scrubAt = (s.dev.ddr.scrubAt + 64) % all ∧
      (ecc ≠ .uncorrectable → t.mem = s.mem) ∧
      (ecc = .corrected → t.dev.get F.DDR_STAT_CE = 1 ∧
        t.dev.get (F.DDR_CHc_CE_COUNT c) = min (s.dev.get (F.DDR_CHc_CE_COUNT c) + 1) (2 ^ (F.DDR_CHc_CE_COUNT c).width - 1)) ∧
      (ecc = .uncorrectable → t.dev.get F.DDR_STAT_UE = 1 ∧
        ∀ a : Nat, s.dev.addrAt c o = some a →
          (s.dev.twoCopies a = true → t.mem = s.mem) ∧ (s.dev.twoCopies a = false → t.mem = s.mem.spoil a))) ∧
    (s.dev.sys.sup ≠ .running ∨ st < 2 → exec (.dramScrubStep ecc) s = .next s)) ∧
  (∀ (r : SramRegion) (addr : BitVec 24) (ecc : Ecc) (ok : Bool) (s : State), s.dev.sys.sup ≠ .running →
    exec (.sramScrubStep r addr ecc ok) s = .next s.settled) ∧
  (∀ (r : SramRegion) (addr : BitVec 24) (ok : Bool) (s : State), s.dev.sys.sup = .running →
    exec (.sramScrubStep r addr .clean ok) s = .next s.settled ∧
    (∃ t : State, exec (.sramScrubStep r addr .corrected ok) s = .next t ∧ onlyRegs [F.DDR_SRAM_CE_COUNT] s.settled t ∧
      t.dev.get F.DDR_SRAM_CE_COUNT = min (s.dev.get F.DDR_SRAM_CE_COUNT + 1) (2 ^ F.DDR_SRAM_CE_COUNT.width - 1)) ∧
    (∃ (u : State) (code : Nat),
      u.dev.get F.DDR_SRAM_UE_COUNT = min (s.dev.get F.DDR_SRAM_UE_COUNT + 1) (2 ^ F.DDR_SRAM_UE_COUNT.width - 1) ∧
      u.dev.get F.DDR_SRAM_UE_ADDR_ADDR = addr.toNat % 2 ^ F.DDR_SRAM_UE_ADDR_ADDR.width ∧ u.dev.get F.DDR_STAT_SRAM_UE = 1 ∧
      recorded s.dev u.dev 0x0805 0x06 (if sramSevere r then 4 else 3) code addr.toNat (b2n (sramCopied r && ok)) ∧
      u = { s.settled with dev := { s.settled.dev with regs := u.dev.regs, evr := u.dev.evr, freeCtr := u.dev.freeCtr } } ∧
      regsKeep (recFlds ++ [F.DDR_SRAM_UE_COUNT, F.DDR_SRAM_UE_ADDR_ADDR, F.DDR_STAT_SRAM_UE]) s.dev u.dev ∧
      (r ∈ [SramRegion.tileSet, .pathWindow, .staging, .rigging, .hoBuffers] → exec (.sramScrubStep r addr .uncorrectable ok) s = .next u) ∧
      (∀ k : Cmp, r = .compareState k → ∃ t : State, exec (.sramScrubStep r addr .uncorrectable ok) s = .next t ∧
        t.dev.get (F.QE_CMPk_STAT_ARMED k.val) = 0 ∧ onlyRegs [F.QE_CMPk_STAT_ARMED k.val] u t) ∧
      (∀ k : Pair, r = .prefetch k ∨ r = .loopState k →
        exec (.sramScrubStep r addr .uncorrectable ok) s = exec (.pairFailure k .sram) u) ∧
      (r = .supervisor → exec (.sramScrubStep r addr .uncorrectable ok) s = exec .lockstepMismatch u)))

/-! ## Temperatures (R339 to R352) -/

/-- A failed sensor comes back after 10 s without a cause (R350); the latch of a beam is released once it has cooled for 10 s, its shutdown is
reported, no die shutdown holds and its comparators have passed (R348, R371); each changes nothing before.
The report of a hardware shutdown (R347) counts it and puts the port out of service; a beam that has been blind for 60 s has its latch set and is
handled in the same way (R351) (both stated for a port in service without a path or a takeover, and for one that is out already); nothing
happens where neither holds. -/
def Obligations.SensorsLatchesAndShutdowns : Prop :=
  ((∀ (t : TIn) (s : State),
     (s.dev.get (F.THM_INt_VAL_FAILED t.val) = 0 ∨ elapsed64 s.dev.time (s.dev.thmIn t.val).bad < 10000000000 →
       exec (.sensorRestore t) s = .next s.settled) ∧
     (s.dev.get (F.THM_INt_VAL_FAILED t.val) ≠ 0 → 10000000000 ≤ elapsed64 s.dev.time (s.dev.thmIn t.val).bad → 64 ≤ t.val →
       ∃ u : State, exec (.sensorRestore t) s = .next u ∧ u.dev.get (F.THM_INt_VAL_FAILED t.val) = 0 ∧
         u.dev.get (F.THM_INt_VAL_FCAUSE t.val) = 0 ∧ (u.dev.thmIn t.val).good = s.dev.getI (F.THM_INt_VAL_TEMP t.val) ∧
         u.dev.getI (F.THM_INt_VAL_TEMP t.val) = s.dev.getI (F.THM_INt_VAL_TEMP t.val) ∧ u.mem = s.mem)) ∧
   (∀ (p : Port) (s : State),
     (s.dev.get (F.THM_Pn_STAT_LATCH p.val) = 0 ∨ (s.dev.thmBeam p.val).report.isSome = true ∨ s.dev.beamCool p.val = false ∨
       s.dev.get F.THM_STAT_DIE_SD ≠ 0 ∨ (s.dev.thmBeam p.val).cmp ≠ [] → exec (.latchRelease p) s = .next s) ∧
     (s.dev.get (F.THM_Pn_STAT_LATCH p.val) ≠ 0 → (s.dev.thmBeam p.val).report = none → s.dev.get F.THM_STAT_DIE_SD = 0 →
       (s.dev.thmBeam p.val).cmp = [] →
       (∃ u : DWord, (s.dev.thmBeam p.val).cool = some u ∧ 10000000000 ≤ elapsed64 s.dev.time u) →
       ∃ t : State, exec (.latchRelease p) s = .next t ∧ t.dev.get (F.THM_Pn_STAT_LATCH p.val) = 0 ∧
         t.dev.get (F.THM_Pn_STAT_REENTRY p.val) = 1 ∧ (t.dev.prtOf p.val).shut = false ∧
         recorded s.dev t.dev 0x0A03 0x09 1 p.val (trunc 32 (s.dev.beamTemp p.val)) s.dev.tick.toNat ∧
         t = { s with dev := { s.dev with regs := t.dev.regs, evr := t.dev.evr, prt := t.dev.prt } } ∧
         regsKeep (recFlds ++ [F.THM_Pn_STAT_LATCH p.val, F.THM_Pn_STAT_REENTRY p.val, F.BEAMn_TSTAT_STATE p.val,
           F.BEAMn_PSTAT_EMIT p.val]) s.dev t.dev))) ∧
  (∀ (p : Port) (s : State),
     let st := s.dev.get (F.HND_Pn_STAT_STATE p.val)
     ((s.dev.thmBeam p.val).report = none ∨ s.dev.sys.ctrlSilent = true → exec (.shutdownReport p) s = .next s.settled) ∧
     (∀ r : ThmReport, (s.dev.thmBeam p.val).report = some r → s.dev.sys.ctrlSilent = false → (st = 0 ∨ st = 2) →
       s.dev.runOf p.val = none → s.dev.hnd.tko = [] →
       ∃ t : State, exec (.shutdownReport p) s = .next t ∧ (t.dev.thmBeam p.val).report = none ∧
         t.dev.get F.THM_SHUTDOWNS_COUNT = min (s.dev.get F.THM_SHUTDOWNS_COUNT + 1) (2 ^ F.THM_SHUTDOWNS_COUNT.width - 1) ∧
         t.dev.get (F.HND_Pn_STAT_STATE p.val) = 2 ∧ t.dev.get (F.BEAMn_PSTAT_EMIT p.val) = 0 ∧
         (t.dev.prtOf p.val).blank = true ∧ t.mem = s.mem) ∧
     ((s.dev.thmBeam p.val).blindAt = none ∨
       (∃ u : DWord, (s.dev.thmBeam p.val).blindAt = some u ∧ elapsed64 s.dev.time u < 60000000000) →
       exec (.blindLimitExpire p) s = .next s.settled) ∧
     (∀ u : DWord, (s.dev.thmBeam p.val).blindAt = some u → 60000000000 ≤ elapsed64 s.dev.time u → (st = 0 ∨ st = 2) →
       s.dev.runOf p.val = none → s.dev.hnd.tko = [] → s.dev.get (F.THM_Pn_STAT_LATCH p.val) = 0 →
       ∃ t : State, exec (.blindLimitExpire p) s = .next t ∧ (t.dev.thmBeam p.val).blindAt = none ∧
         t.dev.get (F.THM_Pn_STAT_BLIND_S p.val) = 60 ∧ t.dev.get (F.THM_Pn_STAT_LATCH p.val) = 1 ∧
         t.dev.get F.THM_SHUTDOWNS_COUNT = min (s.dev.get F.THM_SHUTDOWNS_COUNT + 1) (2 ^ F.THM_SHUTDOWNS_COUNT.width - 1) ∧
         t.dev.get (F.HND_Pn_STAT_STATE p.val) = 2 ∧ t.dev.get (F.BEAMn_PSTAT_EMIT p.val) = 0 ∧
         (t.dev.prtOf p.val).shut = true ∧ t.mem = s.mem))

/-- A conversion of a temperature input (R339, R340, R342, R346, R349): an input not in use is not converted; TEMP takes the reading and VALID is set; a
cause of failure marks a sensor FAILED with its cause (stated for the device inputs 64 to 79 and without bed lighting, of which nothing else
depends), and a failed one stays so; else LEVEL follows the thresholds with their hysteresis; a beam sensor that reaches SHUTDOWN sets the beam's latch,
and its gate is closed at once (stated for a beam already held at THROTTLE, so that its shed level does not move); comparators that disagree
on it outside a slice both count as FAIL (R366, R371).
A die temperature (R352): THM_DIE shows the higher valid reading of the die; a reading outside −64 to 200 °C is ignored and recorded once as
0x0A0A; DIE_HOT is set from 115 °C, with 0x0A08 and attention THERMAL, and holds until below 110 °C (stated below the shutdown at 130 °C). -/
def Obligations.TemperaturesConverted : Prop :=
  (∀ (t : TIn) (raw : TempRaw) (s : State),
     let x := s.dev.tempReading t.val raw
     let cause := tempCause raw.pinmV (s.dev.thmIn t.val).prev x
     let old := s.dev.get (F.THM_INt_VAL_LEVEL t.val)
     let failed := s.dev.get (F.THM_INt_VAL_FAILED t.val)
     let p := t.val / 2
     (s.dev.tempUse t.val = false → exec (.tempConversion t raw) s = .next s.settled) ∧
     (s.dev.tempUse t.val = true → failed ≠ 0 → ∃ u : State, exec (.tempConversion t raw) s = .next u ∧
       u.dev.getI (F.THM_INt_VAL_TEMP t.val) = x ∧ u.dev.get (F.THM_INt_VAL_VALID t.val) = 1 ∧
       (u.dev.thmIn t.val).prev = some x ∧ (u.dev.thmIn t.val).bad = (if cause = 0 then (s.dev.thmIn t.val).bad else s.dev.time) ∧
       u = { s.settled with dev := { s.settled.dev with regs := u.dev.regs, thm := { s.dev.thm with ins := u.dev.thm.ins } } } ∧
       regsKeep [F.THM_INt_VAL_TEMP t.val, F.THM_INt_VAL_VALID t.val] s.dev u.dev) ∧
     (s.dev.tempUse t.val = true → failed = 0 → 64 ≤ t.val → cause ≠ 0 → s.dev.get F.LED_STAT_FITTED = 0 →
       ∃ u : State, exec (.tempConversion t raw) s = .next u ∧
       u.dev.getI (F.THM_INt_VAL_TEMP t.val) = x ∧ u.dev.get (F.THM_INt_VAL_FAILED t.val) = 1 ∧
       u.dev.get (F.THM_INt_VAL_FCAUSE t.val) = cause ∧ u.dev.get F.THM_STAT_SFAIL = 1 ∧ bitAt (u.dev.get F.HST_ATTN_CAUSE) 9 = true ∧
       u.dev.get (F.THM_INt_FAILS_COUNT t.val) =
         min (s.dev.get (F.THM_INt_FAILS_COUNT t.val) + 1) (2 ^ (F.THM_INt_FAILS_COUNT t.val).width - 1) ∧
       recorded s.dev u.dev 0x0A04 0x09 3 t.val cause (trunc 32 (s.dev.thmIn t.val).good) ∧
       u.dev.get (F.THM_INt_VAL_LEVEL t.val) = old ∧ u.mem = s.mem) ∧
     (s.dev.tempUse t.val = true → failed = 0 → 64 ≤ t.val → cause = 0 → ∃ u : State, exec (.tempConversion t raw) s = .next u ∧
       u.dev.getI (F.THM_INt_VAL_TEMP t.val) = x ∧ u.dev.get (F.THM_INt_VAL_VALID t.val) = 1 ∧ (u.dev.thmIn t.val).good = x ∧
       (let reach := fun (k : Nat) (thr hys : Int) => decide (thr ≤ x) || (decide (k ≤ old) && decide (thr - hys ≤ x))
        u.dev.get (F.THM_INt_VAL_LEVEL t.val) =
         if reach 3 (s.dev.getI (F.THM_INt_SD_SHUTDOWN t.val)) (s.dev.get (F.THM_INt_HYS_SD_HYS t.val)) then 3
         else if reach 2 (s.dev.getI (F.THM_INt_WT_THROTTLE t.val)) (s.dev.get (F.THM_INt_HYS_THR_HYS t.val)) then 2
         else if reach 1 (s.dev.getI (F.THM_INt_WT_WARN t.val)) (s.dev.get (F.THM_INt_HYS_WARN_HYS t.val)) then 1 else 0) ∧
       u.mem = s.mem ∧
       regsKeep (recFlds ++ [F.THM_INt_VAL_TEMP t.val, F.THM_INt_VAL_VALID t.val, F.THM_INt_VAL_LEVEL t.val, F.THM_STAT_WARN, F.THM_STAT_THROTTLE,
         F.THM_STAT_SHUTDOWN]) s.dev u.dev) ∧
     (s.dev.tempUse t.val = true → failed = 0 → t.val < 64 → cause = 0 → s.dev.getI (F.THM_INt_SD_SHUTDOWN t.val) ≤ x →
       s.dev.get (F.THM_Pn_STAT_BLIND p) = 0 → 2 ≤ s.dev.get (F.THM_Pn_STAT_LEVEL p) → s.dev.get (F.THM_Pn_STAT_LATCH p) = 0 →
       (∀ o : Nat, o / 2 = p → s.dev.get (F.THM_INt_VAL_LEVEL o) ≤ 3) →
       ∃ u : State, exec (.tempConversion t raw) s = .next u ∧
       u.dev.getI (F.THM_INt_VAL_TEMP t.val) = x ∧ u.dev.get (F.THM_INt_VAL_LEVEL t.val) = 3 ∧ u.dev.get (F.THM_Pn_STAT_LEVEL p) = 3 ∧
       u.dev.get (F.THM_Pn_STAT_LATCH p) = 1 ∧ u.dev.get F.THM_STAT_SHUTDOWN = 1 ∧ u.dev.get (F.BEAMn_PSTAT_EMIT p) = 0 ∧
       (u.dev.prtOf p).shut = true ∧ (u.dev.thmBeam p).report = some { input := t.val, reading := x, tick := s.dev.tick } ∧
       u.dev.get (F.HND_Pn_STAT_SHED p) = s.dev.get (F.HND_Pn_STAT_SHED p) ∧ u.mem = s.mem ∧
       (raw.odd = true → s.dev.cmpSlice p = false → (u.dev.thmBeam p).cmp = [0, 1] ∧ bitAt (u.dev.get F.BIST_FAIL_CMP0_CMP) p = true ∧
         bitAt (u.dev.get F.BIST_FAIL_CMP1_CMP) p = true))) ∧
  (∀ (die : Die) (k : Fin 2) (reading : BitVec 16) (s : State),
     let n := match die with | .control => 0 | .edge => 1
     let f := match die with | .control => F.THM_DIE_CTRL_T | .edge => F.THM_DIE_EDGE_T
     let x := reading.toInt
     (-1024 ≤ x → x < 2080 →
       (∀ o : Int, tfind s.dev.thm.die (2 * n + (1 - k.val)) = some o → o < 2080 ∧ -1024 ≤ o) →
       ∃ t : State, exec (.dieTempRead die k reading) s = .next t ∧
       (let v := match tfind s.dev.thm.die (2 * n + (1 - k.val)) with | some o => max x o | none => x
        t.dev.getI f = v ∧ tfind t.dev.thm.die (2 * n + k.val) = some x ∧
        (s.dev.thm.hot.contains n = false → 1840 ≤ v → t.dev.get F.THM_STAT_DIE_HOT = 1 ∧ t.dev.thm.hot = s.dev.thm.hot ++ [n] ∧
          bitAt (t.dev.get F.HST_ATTN_CAUSE) 9 = true ∧ recorded s.dev t.dev 0x0A08 0x09 2 n (trunc 32 v) s.dev.tick.toNat) ∧
        (s.dev.thm.hot = [n] → v < 1760 → t.dev.get F.THM_STAT_DIE_HOT = 0) ∧
        (s.dev.thm.hot.contains n = true → 1760 ≤ v → t.dev.get F.THM_STAT_DIE_HOT = 1 ∧ t.dev.evr = s.dev.evr)) ∧
       t = { s.settled with dev := { s.settled.dev with regs := t.dev.regs, evr := t.dev.evr, thm := t.dev.thm } } ∧
       regsKeep (recFlds ++ [f, F.THM_STAT_DIE_HOT, F.THM_STAT_DIE_SD]) s.dev t.dev) ∧
     (3200 < x → s.dev.thm.ignored.contains (2 * n + k.val) = false → s.dev.thm.ignored.contains (2 * n + (1 - k.val)) = false →
       tfind s.dev.thm.die (2 * n + (1 - k.val)) = none →
       ∃ t : State, exec (.dieTempRead die k reading) s = .next t ∧ tfind t.dev.thm.die (2 * n + k.val) = none ∧
       t.dev.thm.ignored = s.dev.thm.ignored ++ [2 * n + k.val] ∧
       recorded s.dev t.dev 0x0A0A 0x09 2 (pair8 n k.val) (trunc 32 x) s.dev.tick.toNat ∧
       t.dev.get f = s.dev.get f ∧ t.dev.get F.THM_STAT_DIE_HOT = s.dev.get F.THM_STAT_DIE_HOT ∧ t.mem = s.mem))

/-! ## Bed lighting (R355 to R362) -/

/-- Bed lighting (R355, R356, R359, R362): a frame that is due starts the scan anew and is counted, and copies every staging value where one was asked
for; with EN 0, an unrigged device or a silent bridge none starts. In its slot a used line that has not tripped in four frames drives its columns with
their codes, an overcurrent turns it off and is recorded, a column that cannot hold its current is noted; out of its slot nothing happens. -/
def Obligations.LightingFrameAndLines : Prop :=
  (∀ s : State, s.dev.get F.LED_CTRL_EN = 0 ∨ s.dev.rigged = false ∨ s.dev.sys.edgeSilent = true → exec .ledFrameStart s = .next s) ∧
  (∀ s : State, s.dev.get F.LED_CTRL_EN ≠ 0 → s.dev.rigged = true → s.dev.sys.edgeSilent = false → byteAt s.dev.lightNow 0 ≠ 0 →
    ((∃ k u, s.dev.led.frame = some (k, u) ∧ 500 ≤ elapsed32 s.dev.tick k) ∨
     (s.dev.led.frame = none ∧ ∃ k, s.dev.led.enAt = some k ∧ s.dev.tick ≠ k)) →
    ∃ t : State, exec .ledFrameStart s = .next t ∧ t.dev.get F.LED_STAT_RUN = 1 ∧ t.dev.get F.LED_STAT_FITTED = 1 ∧
      t.dev.led.frame = some (s.dev.tick, s.dev.time) ∧ t.dev.led.begun = true ∧ t.dev.led.drive = none ∧ t.dev.led.enAt = none ∧
      t.dev.led.light = s.dev.lightNow ∧
      t.dev.get F.LED_FRAME_COUNT = (if s.dev.led.begun then (s.dev.get F.LED_FRAME_COUNT + 1) % 2 ^ F.LED_FRAME_COUNT.width
        else s.dev.get F.LED_FRAME_COUNT) ∧
      (s.dev.get F.LED_CTRL_APPLY ≠ 0 ∨ s.dev.led.enAt.isSome = true →
        t.dev.get F.LED_CTRL_APPLY = 0 ∧ t.dev.get F.LED_STAT_PEND = 0 ∧
        t.dev.get F.LED_FRAME_APPLIED = t.dev.get F.LED_FRAME_COUNT % 2 ^ F.LED_FRAME_APPLIED.width ∧
        (∀ l c : Nat, l < 16 → c < 24 → tget 0 t.dev.led.ints (24 * l + c) = s.dev.get (F.LED_INTl_c_INT l c)) ∧
        (∀ g k : Nat, g < 4 → k < 16 → tget 0 t.dev.led.comps (16 * g + k) = s.dev.getW (F.LED_COMPg_k_VAL g k))) ∧
      (s.dev.get F.LED_CTRL_APPLY = 0 → s.dev.led.enAt = none →
        t.dev.led.ints = s.dev.led.ints ∧ t.dev.led.comps = s.dev.led.comps) ∧
      t = { s with dev := { s.dev with regs := t.dev.regs, evr := t.dev.evr, led := t.dev.led } }) ∧
  (∀ (l : Fin 16) (weak : BitVec 24) (ovr : Bool) (s : State),
    (s.dev.led.frame = none → exec (.ledLineSlot l weak ovr) s = .next s) ∧
    (∀ k u, s.dev.led.frame = some (k, u) →
      ((elapsed64 s.dev.time u) / 31250 ≠ l.val → exec (.ledLineSlot l weak ovr) s = .next s) ∧
      ((elapsed64 s.dev.time u) / 31250 = l.val →
        (byteAt s.dev.led.light 0 ≤ l.val ∨ 4 ≤ tget 0 s.dev.led.trips l.val →
          exec (.ledLineSlot l weak ovr) s = .next { s with dev := { s.dev with led := { s.dev.led with drive := none } } }) ∧
        (l.val < byteAt s.dev.led.light 0 → tget 0 s.dev.led.trips l.val < 4 → ∃ t : State, exec (.ledLineSlot l weak ovr) s = .next t ∧
          (∀ c : Nat, c < 24 → bitAt (t.dev.get F.LED_COL_FLT_COLS) c =
            (bitAt (s.dev.get F.LED_COL_FLT_COLS) c || (bitAt weak.toNat c && s.dev.ledColumn c))) ∧
          (ovr = true → t.dev.led.drive = none ∧ tget 0 t.dev.led.trips l.val = tget 0 s.dev.led.trips l.val + 1 ∧
            bitAt (t.dev.get F.LED_LINE_FLT_LINES) l.val = true ∧
            (weak = 0 → recorded s.dev t.dev 0x0B02 0x0A 2 l.val (tget 0 s.dev.led.trips l.val + 1) s.dev.tick.toNat)) ∧
          (ovr = false → tget 0 t.dev.led.trips l.val = 0 ∧ (weak = 0 → t.dev.evr = s.dev.evr) ∧
            ∃ codes : List Nat, t.dev.led.drive = some (l.val, codes) ∧ codes.length = 24 ∧
              ∀ c : Nat, c < 24 → codes[c]? = some (s.dev.ledCode l.val c)) ∧
          t = { s with dev := { s.dev with regs := t.dev.regs, evr := t.dev.evr, led := t.dev.led } } ∧
          regsKeep (recFlds ++ [F.LED_COL_FLT_COLS, F.LED_LINE_FLT_LINES]) s.dev t.dev))))

/-! ## Encoders, compare units, axes (R273 to R290) -/

/-- Samples of an encoder (R273 to R279): an input whose role counts nothing is left alone; one edge of A or B that the filter passes moves the count by one in
the direction of the quadrature, INVERT changing it, and shows the direction; a change of both lines at once is illegal, is counted and
recorded as 0x0900, and leaves the count (stated for one sample without filter, with no edge of Z and no line fault, no armed unit on the
input, and no recoat watching it). With no edge within 2²⁴ samples MOVING and the velocity go to 0.
A compare value or an arming becomes live (R282): the value still ahead of the count in the direction of travel waits there; one already
reached is noted as CMP_BEHIND with 0x0908 and, without CATCHUP, stays, whether or not the unit's source is lost. With nothing waiting
nothing changes. -/
def Obligations.EncodersAndCompareUnits : Prop :=
  (∀ (e : Sys2Proof.Enc) (s : State),
     let en := s.dev.encOf e.val
     let c := s.dev.count e.val
     let inv := encInvert (s.dev.sections false) e.val
     (∀ (n : Nat) (a b z : Bool) (lines : BitVec 3), s.dev.encCounts e.val = false →
       exec (.qeSample e n a b z lines) s = .next s.settled) ∧
     (∀ a b : Bool, s.dev.encCounts e.val = true → s.dev.get (F.QEe_CTRL_FILT e.val) = 0 →
       (∀ k : Nat, k < 8 → s.dev.get (F.QE_CMPk_CTRL_SRC k) = e.val → s.dev.get (F.QE_CMPk_STAT_ARMED k) = 0) →
       s.dev.get F.BED_STAT_PHASE ≠ 3 →
       ((a ≠ en.a ∧ b = en.b) ∨ (a = en.a ∧ b ≠ en.b) →
         ∃ t : State, exec (.qeSample e 1 a b en.z 0) s = .next t ∧
           (let down := if a = en.a then ((b != en.a) != inv) else ((a == en.b) != inv)
            t.dev.count e.val = (if down then c - 1 else c + 1) ∧ t.dev.get (F.QEe_STAT_DIR e.val) = b2n down ∧
            (t.dev.encOf e.val).edge = some down) ∧
           t.dev.get (F.QEe_STAT_MOVING e.val) = 1 ∧ (t.dev.encOf e.val).clock = en.clock + 1 ∧ t.mem = s.mem ∧
           t.dev.evr = s.dev.evr ∧
           regsKeep [F.QEe_COUNT_COUNT e.val, F.QEe_STAT_DIR e.val, F.QEe_STAT_MOVING e.val, F.QEe_STAT_PVALID e.val, F.QEe_VEL_VAL e.val,
             F.QEe_PERIOD_SAMPLES e.val, F.QEe_ERR_LINE_NOW e.val] s.dev t.dev) ∧
       (a ≠ en.a → b ≠ en.b → en.ill.length < 15 →
         ∃ t : State, exec (.qeSample e 1 a b en.z 0) s = .next t ∧ t.dev.count e.val = c ∧
           t.dev.get (F.QEe_ERR_ILLEGAL e.val) = 1 ∧
           t.dev.get (F.QEe_ILLEGAL_COUNT e.val) =
             min (s.dev.get (F.QEe_ILLEGAL_COUNT e.val) + 1) (2 ^ (F.QEe_ILLEGAL_COUNT e.val).width - 1) ∧
           recorded s.dev t.dev 0x0900 (0x10 + e.val) 2 e.val c.toNat s.dev.tick.toNat ∧ t.mem = s.mem)) ∧
     (s.dev.get (F.QEe_STAT_MOVING e.val) ≠ 0 → 2 ^ 24 ≤ en.clock - en.last → ∃ t : State, exec (.qeMovingTimeout e) s = .next t ∧
       t.dev.get (F.QEe_STAT_MOVING e.val) = 0 ∧ t.dev.get (F.QEe_STAT_PVALID e.val) = 0 ∧ t.dev.get (F.QEe_VEL_VAL e.val) = 0 ∧
       t = { s with dev := { s.dev with regs := t.dev.regs, encs := t.dev.encs } } ∧
       regsKeep [F.QEe_STAT_MOVING e.val, F.QEe_STAT_PVALID e.val, F.QEe_VEL_VAL e.val] s.dev t.dev) ∧
     (s.dev.get (F.QEe_STAT_MOVING e.val) = 0 ∨ en.clock - en.last < 2 ^ 24 → exec (.qeMovingTimeout e) s = .next s)) ∧
  (∀ (k : Cmp) (s : State),
     let u := s.dev.cmpOf k.val
     let v := u.value.getD (s.dev.getW (F.QE_CMPk_VAL_VAL k.val))
     let gap := along (s.dev.cmpDown k.val) (v - s.dev.count (s.dev.get (F.QE_CMPk_CTRL_SRC k.val))).toInt
     (u.value = none → u.arm = false → exec (.compareValueLive k) s = .next s.settled) ∧
     ((u.value.isSome = true ∨ u.arm = true) →
       (0 < gap → ∃ t : State, exec (.compareValueLive k) s = .next t ∧
         t.dev.getW (F.QE_CMPk_VAL_VAL k.val) = v ∧ (u.arm = true → t.dev.get (F.QE_CMPk_STAT_ARMED k.val) = 1) ∧
         (u.arm = false → t.dev.get (F.QE_CMPk_STAT_ARMED k.val) = s.dev.get (F.QE_CMPk_STAT_ARMED k.val)) ∧
         t.dev.cmpOf k.val = { value := none, arm := false } ∧
         t = { s.settled with dev := { s.settled.dev with regs := t.dev.regs, cmps := t.dev.cmps } } ∧
         regsKeep [F.QE_CMPk_VAL_VAL k.val, F.QE_CMPk_STAT_ARMED k.val] s.dev t.dev) ∧
       (gap ≤ 0 → s.dev.get (F.QE_CMPk_CTRL_CATCHUP k.val) = 0 →
         ∃ t : State, exec (.compareValueLive k) s = .next t ∧ t.dev.get (F.QE_CMPk_STAT_CMP_BEHIND k.val) = 1 ∧
         t.dev.getW (F.QE_CMPk_VAL_VAL k.val) = v ∧
         recorded s.dev t.dev 0x0908 (0x18 + k.val) 1 k.val v.toNat
           (s.dev.count (s.dev.get (F.QE_CMPk_CTRL_SRC k.val))).toNat ∧
         t.dev.cmpOf k.val = { value := none, arm := false } ∧
         t = { s.settled with dev := { s.settled.dev with regs := t.dev.regs, evr := t.dev.evr, cmps := t.dev.cmps } })))

/-- An axis update (R288, R290): none before RATE T-ticks have passed or while EN is 0; in FAULT the code is 0; an axis at rest with a loop law that stays
in range puts out its code and shows reference and following error; a NaN or an infinity, or the fourth update over the
limit, is a FAULT with its cause, and the code stays until the next update. -/
def Obligations.AxisUpdates : Prop :=
  ∀ (a : Axis) (s : State),
    let x := s.dev.axsOf a.val
    let en := s.dev.get (F.AXSa_CTRL_EN a.val)
    let due := s.dev.get (F.AXSa_RATE_TICKS a.val) ≤ elapsed32 s.dev.tick x.last
    (en = 0 ∨ ¬due → exec (.axisUpdate a) s = .next s) ∧
    (en ≠ 0 → due → s.dev.get (F.AXSa_STAT_STATE a.val) = 3 → ∃ t : State, exec (.axisUpdate a) s = .next t ∧
      t.dev.get (F.AXSa_OUT_CODE a.val) = 0 ∧ t.dev.axsOf a.val = { x with last := s.dev.tick } ∧
      t = { s with dev := { s.dev with regs := t.dev.regs, axs := t.dev.axs } } ∧ regsKeep [F.AXSa_OUT_CODE a.val] s.dev t.dev) ∧
    (∀ e : Nat, en ≠ 0 → due → s.dev.get (F.AXSa_STAT_STATE a.val) ≠ 3 → axisInput (s.dev.sections false) a.val = some e →
      x.move = none → x.next = none →
      (let o := s.dev.axisLaw a.val x (s.dev.count e).toInt
       let n := s.dev.axisOver a.val x o.e
       ∃ t : State, exec (.axisUpdate a) s = .next t ∧ t.mem = s.mem ∧
        t.dev.getI (F.AXSa_REF_POS a.val) = sext 32 (trunc 32 (x.ref / 2 ^ 32)) ∧
        (t.dev.axsOf a.val).ref = x.ref ∧ (t.dev.axsOf a.val).last = s.dev.tick ∧ (t.dev.axsOf a.val).feRun = n ∧
        (o.bad = false → n < 4 → t.dev.get (F.AXSa_STAT_STATE a.val) = 1 ∧
          t.dev.get (F.AXSa_OUT_CODE a.val) = trunc (F.AXSa_OUT_CODE a.val).width o.code ∧ (t.dev.axsOf a.val).i = o.i ∧
          t.dev.evr = s.dev.evr) ∧
        (o.bad = false → 4 ≤ n → t.dev.get (F.AXSa_STAT_STATE a.val) = 3 ∧ t.dev.get (F.AXSa_STAT_FE_EXC a.val) = 1 ∧
          bitAt (t.dev.get F.HST_ATTN_CAUSE) 5 = true ∧
          recorded s.dev t.dev 0x0910 (0x20 + a.val) 3 a.val 1 (t.dev.get (F.AXSa_REF_POS a.val))) ∧
        (o.bad = true → t.dev.get (F.AXSa_STAT_STATE a.val) = 3 ∧ t.dev.get (F.AXSa_STAT_NUMERIC a.val) = 1 ∧
          (t.dev.axsOf a.val).i = x.i ∧ t.dev.get (F.AXSa_OUT_CODE a.val) = s.dev.get (F.AXSa_OUT_CODE a.val))))

/-! ## Self-test, telemetry (R366 to R372, R388) -/

/-- Self-test slices (R366 to R371). The slice whose turn it is starts in its group if its conditions hold, or is skipped and counted where only a monitor is outside
its window. A slice that ends with another cycle count, or is aborted, is INCOMPLETE, counted, and taken again; one that passes is counted as PASS;
an analogue target that fails for the first time is counted and taken again; a SPARE pair that fails is FAILED. Each leaves its group free and shows its type, target and result. A
slice that does not run cannot end. -/
def Obligations.SlicesStartAndEnd : Prop :=
  ∀ (x : Slice) (s : State),
    let dig := Slice.digital x
    (∀ (uv : Nat) (ppb : Int),
      (s.dev.groupRun dig ≠ none ∨ s.dev.sliceMay x = false ∨ s.dev.sliceTurn x = false → exec (.sliceStart x uv ppb) s = .next s) ∧
      (s.dev.groupRun dig = none → s.dev.sliceMay x = true → s.dev.sliceTurn x = true →
        (727500 ≤ uv ∧ uv ≤ 772500 ∧ -50000 ≤ ppb ∧ ppb ≤ 50000 → ∃ t : State, exec (.sliceStart x uv ppb) s = .next t ∧
          t.dev.groupRun dig = some x ∧ t.dev.get (if dig then F.BIST_STAT_DRUN else F.BIST_STAT_ARUN) = 1 ∧
          t = { s with dev := { s.dev with regs := t.dev.regs, bist := t.dev.bist } } ∧
          regsKeep [if dig then F.BIST_STAT_DRUN else F.BIST_STAT_ARUN] s.dev t.dev) ∧
        (uv < 727500 ∨ 772500 < uv ∨ ppb < -50000 ∨ 50000 < ppb → ∃ t : State, exec (.sliceStart x uv ppb) s = .next t ∧
          t.dev.groupRun dig = none ∧ t.dev.get F.BIST_STAT_SKIP = 1 ∧
          t.dev.get F.BIST_SKIPPED_COUNT = min (s.dev.get F.BIST_SKIPPED_COUNT + 1) (2 ^ F.BIST_SKIPPED_COUNT.width - 1) ∧
          (s.dev.bist.skipAt = none → recorded s.dev t.dev 0x0C02 0x0B 1 (s.dev.bist.skips + 1) (uv / 1000) (trunc 32 (ppb / 1000))) ∧
          t = { s with dev := { s.dev with regs := t.dev.regs, evr := t.dev.evr, bist := t.dev.bist } } ∧
          regsKeep (recFlds ++ [F.BIST_STAT_SKIP, F.BIST_SKIPPED_COUNT]) s.dev t.dev))) ∧
    (∀ r : SliceResult, s.dev.groupRun dig ≠ some x → exec (.sliceEnd x r) s = .next s.settled) ∧
    (∀ (cause : SliceCause) (n : Nat), s.dev.groupRun dig ≠ some x ∨ n = Slice.planned x → exec (.sliceAbort x cause n) s = .next s) ∧
    (s.dev.groupRun dig = some x →
      (∀ (cause : SliceCause) (n : Nat), n ≠ Slice.planned x → ∃ t : State, exec (.sliceAbort x cause n) s = .next t ∧
        t.dev.groupRun dig = none ∧ t.dev.bist.again = s.dev.bist.again ++ [x] ∧ t.dev.get F.BIST_LAST_RESULT = 3 ∧
        t.dev.get F.BIST_LAST_TYPE = (Slice.codes x).1 ∧ t.dev.get F.BIST_LAST_TARGET = (Slice.codes x).2 ∧
        t.dev.get F.BIST_INCOMPLETE_COUNT = min (s.dev.get F.BIST_INCOMPLETE_COUNT + 1) (2 ^ F.BIST_INCOMPLETE_COUNT.width - 1) ∧
        recorded s.dev t.dev 0x0C01 0x0B 0 ((Slice.codes x).1 + 16 * (Slice.codes x).2) n (SliceCause.code cause) ∧
        t = { s with dev := { s.dev with regs := t.dev.regs, evr := t.dev.evr, bist := t.dev.bist } }) ∧
      (∀ r : SliceResult, r.cycles ≠ Slice.planned x → ∃ t : State, exec (.sliceEnd x r) s = .next t ∧
        t.dev.groupRun dig = none ∧ t.dev.bist.again = s.dev.bist.again ++ [x] ∧ t.dev.get F.BIST_LAST_RESULT = 3 ∧ t.mem = s.mem) ∧
      (∀ r : SliceResult, r.cycles = Slice.planned x → s.dev.sliceHolds x r.check = true → r.saved = r.restored →
        ∃ t : State, exec (.sliceEnd x r) s = .next t ∧ t.dev.groupRun dig = none ∧ t.dev.bist.again = s.dev.bist.again ∧
        t.dev.get F.BIST_LAST_RESULT = 1 ∧ t.dev.get F.BIST_LAST_TYPE = (Slice.codes x).1 ∧
        t.dev.get F.BIST_LAST_TARGET = (Slice.codes x).2 ∧
        t.dev.get F.BIST_PASS_COUNT = min (s.dev.get F.BIST_PASS_COUNT + 1) (2 ^ F.BIST_PASS_COUNT.width - 1) ∧ t.mem = s.mem) ∧
      (∀ r : SliceResult, r.cycles = Slice.planned x → (s.dev.sliceHolds x r.check = false ∨ r.saved ≠ r.restored) →
        ((∃ c, x = .pd c) ∨ (∃ p, x = .dac p) ∨ (∃ i, x = .temp i) ∨ (∃ e, x = .enc e)) → s.dev.bist.failed.contains x = false →
        ∃ t : State, exec (.sliceEnd x r) s = .next t ∧ t.dev.groupRun dig = none ∧ t.dev.bist.again = s.dev.bist.again ++ [x] ∧
        t.dev.bist.failed = s.dev.bist.failed ++ [x] ∧ t.dev.get F.BIST_LAST_RESULT = 2 ∧ t.dev.get F.BIST_STAT_FAIL = 1 ∧
        t.dev.get F.BIST_FAILS_COUNT = min (s.dev.get F.BIST_FAILS_COUNT + 1) (2 ^ F.BIST_FAILS_COUNT.width - 1) ∧ t.mem = s.mem) ∧
      (∀ (r : SliceResult) (k : Pair), r.cycles = Slice.planned x → (s.dev.sliceHolds x r.check = false ∨ r.saved ≠ r.restored) →
        (x = .pairLogic k ∨ x = .loopLogic k) → s.dev.get (F.ENG_PAIRk_STATE k.val) = 2 →
        ∃ t : State, exec (.sliceEnd x r) s = .next t ∧ t.dev.groupRun dig = none ∧ t.dev.get (F.ENG_PAIRk_STATE k.val) = 4 ∧
        t.dev.get F.BIST_LAST_RESULT = 2 ∧ t.dev.get F.BIST_STAT_FAIL = 1 ∧ t.mem = s.mem))

/-- Periodic telemetry (R26, R388, R389, R437): it pauses while the supervisor does not run; with telemetry off no record is written. With it on, whatever the
ring holds, one record is formed for each port of the rigging and one for the device, each with its number in the sequence. Where the ring has room for
them and lies in DRAM that is present, they land in it in this order from WR on, which moves past them: 64 bytes each, with internal time, type (1 PORT, 3
DEVICE), port or 0xFF, the sequence number, and the CRC-32C of what stands before it. With no port in the rigging the DEVICE record is the only one. -/
def Obligations.TelemetryPeriods : Prop :=
  (∀ s : State, s.dev.sys.sup ≠ .running → exec .telPeriod s = .next s.settled) ∧
  (∀ s : State, s.dev.sys.sup = .running → s.dev.get F.TEL_CTRL_EN = 0 → ∃ t : State, exec .telPeriod s = .next t ∧
    t = { s.settled with dev := { s.settled.dev with tel := t.dev.tel } } ∧ t.dev.tel.seq = s.dev.tel.seq) ∧
  (∀ s : State, s.dev.sys.sup = .running → s.dev.get F.TEL_CTRL_EN ≠ 0 →
    let ports := portsInUse (s.dev.sections false)
    let k := ports.length + 1
    let n := s.dev.ringLen telRing
    let wr := s.dev.get F.TEL_WR_INDEX
    let slot := fun (i : Nat) => s.dev.get F.TEL_BASE_BASE * 4096 + i * 64
    (∃ t : State, exec .telPeriod s = .next t ∧ t.dev.tel.seq = s.dev.tel.seq + BitVec.ofNat 32 k ∧ t.dev.time = s.dev.time ∧
      t.dev.tick = s.dev.tick ∧ t.pending = s.pending) ∧
    (0 < n → wr < n → (∀ j : Nat, j < k → (wr + j + 1) % n ≠ s.dev.get F.TEL_RD_INDEX) →
      (∀ i : Nat, i < n → s.dev.beyond (slot i) 64 = false ∧ s.dev.goneAt (slot i) 64 = none) →
      ∃ (t : State) (recs : List (List Byte)), exec .telPeriod s = .next t ∧ recs.length = k ∧
        (∀ (j : Nat) (r : List Byte), recs[j]? = some r → r.length = 64 ∧
          r.take 16 = leBytes 8 s.dev.time.toNat ++ leBytes 1 (if j < ports.length then 1 else 3) ++ leBytes 1 (ports.getD j 0xFF) ++
            leBytes 2 0 ++ leBytes 4 (s.dev.tel.seq + BitVec.ofNat 32 j).toNat ∧
          r.drop 60 = leBytes 4 (crc32c (r.take 60)).toNat) ∧
        t.mem = (upTo k).foldl (fun m j => m.writeBytes (slot ((wr + j) % n)) (recs.getD j [])) s.mem ∧
        t.dev.get F.TEL_WR_INDEX = (wr + k) % n ∧ t.dev.get F.TEL_RD_INDEX = s.dev.get F.TEL_RD_INDEX ∧
        t.dev.evr = s.dev.evr ∧ t.pending = s.pending)) ∧
  (∀ s : State, s.dev.sys.sup = .running → s.dev.get F.TEL_CTRL_EN ≠ 0 → portsInUse (s.dev.sections false) = [] →
    (let n := s.dev.get F.TEL_SIZE_SIZE * 64
     let a := s.dev.get F.TEL_BASE_BASE * 4096 + s.dev.get F.TEL_WR_INDEX * 64
     0 < n → (s.dev.get F.TEL_WR_INDEX + 1) % n ≠ s.dev.get F.TEL_RD_INDEX → s.dev.beyond a 64 = false →
     s.dev.goneAt a 64 = none → ∃ (t : State) (data : List Byte), exec .telPeriod s = .next t ∧ data.length = 64 ∧ t.mem = s.mem.writeBytes a data ∧
      t.dev.get F.TEL_WR_INDEX = (s.dev.get F.TEL_WR_INDEX + 1) % n % 2 ^ F.TEL_WR_INDEX.width ∧
      t.dev.get F.TEL_RD_INDEX = s.dev.get F.TEL_RD_INDEX ∧ t.dev.tel.seq = s.dev.tel.seq + 1 ∧ t.dev.evr = s.dev.evr ∧
      t.pending = s.pending))

/-! ## The event recorder (R373 to R386), pins and boundary scan (R284, R428) -/

/-- An event that is raised (R376 to R378) is merged into the oldest entry of the FIFO with its CODE, SOURCE and SEV that may take it, full or not, which
counts it and keeps its TIME and parameters; an event of the 0x01xx range, of severity 5 or a LOST record never is; else it enters the FIFO; with
the FIFO full and nothing of lower severity in it, it is dropped and counted, unless it is of severity 5; with a lower one in it, one of those is dropped for it. -/
def Obligations.EventsEnterTheFifo : Prop :=
  ∀ (code : BitVec 16) (src sev : Byte) (p1 p2 p3 : Word) (s : State),
    let e : Event := { time := s.dev.time, code := code, src := src, sev := sev, p1 := p1, p2 := p2, p3 := p3, count := 1 }
    let takes := fun (y : Event) => y.code = code ∧ y.src = src ∧ y.sev = sev ∧ y.count < 65535 ∧ code.toNat / 256 ≠ 1 ∧ sev ≠ 5 ∧
      code ≠ 0x0D01#16
    (∀ (pre post : List Event) (x : Event), s.dev.evr.fifo = pre ++ x :: post → (∀ y ∈ pre, ¬takes y) → takes x →
      ∃ t : State, exec (.eventRaise code src sev p1 p2 p3) s = .next t ∧
        t.dev.evr.fifo = pre ++ { x with count := x.count + 1 } :: post ∧
        t.dev.get F.EVR_MERGES_COUNT = min (s.dev.get F.EVR_MERGES_COUNT + 1) (2 ^ F.EVR_MERGES_COUNT.width - 1) ∧
        t = { s with dev := { s.dev with regs := t.dev.regs, evr := { s.dev.evr with fifo := t.dev.evr.fifo } } } ∧
        regsKeep [F.EVR_MERGES_COUNT] s.dev t.dev) ∧
    ((∀ y ∈ s.dev.evr.fifo, ¬takes y) → s.dev.evr.fifo.length < 128 → exec (.eventRaise code src sev p1 p2 p3) s =
      .next { s with dev := { s.dev with evr := { s.dev.evr with fifo := s.dev.evr.fifo ++ [e] } } }) ∧
    ((∀ y ∈ s.dev.evr.fifo, ¬takes y) → 128 ≤ s.dev.evr.fifo.length → sev ≠ 5 →
      (∀ y ∈ s.dev.evr.fifo, y.code ≠ 0x0D01#16 → sev.toNat ≤ y.sev.toNat) → sev.toNat ≤ 6 →
      ∃ t : State, exec (.eventRaise code src sev p1 p2 p3) s = .next t ∧ t.dev.evr.fifo = s.dev.evr.fifo ∧
        t.dev.get F.EVR_STAT_DROP = 1 ∧
        t.dev.get F.EVR_DROPS_COUNT = min (s.dev.get F.EVR_DROPS_COUNT + 1) (2 ^ F.EVR_DROPS_COUNT.width - 1) ∧
        t.dev.evr.slots = s.dev.evr.slots ∧ t.dev.evr.bank = s.dev.evr.bank ∧ t.mem = s.mem) ∧
    ((∀ y ∈ s.dev.evr.fifo, ¬takes y) → 128 ≤ s.dev.evr.fifo.length →
      (∃ y ∈ s.dev.evr.fifo, y.code ≠ 0x0D01#16 ∧ y.sev.toNat < sev.toNat) →
      ∃ t : State, exec (.eventRaise code src sev p1 p2 p3) s = .next t ∧ t.dev.evr.fifo.length = s.dev.evr.fifo.length ∧
        t.dev.evr.fifo.getLast? = some e ∧ t.dev.get F.EVR_STAT_DROP = 1 ∧ t.mem = s.mem)

/-- A full reset shows its cause in HST_RESET_CAUSE, POWER as 1 (R406, R408); the end of the start-up scan of the log flash, which makes the recorder ready (or finds
the flash failed), records the reset as 0x0E30 with the cause and the PHASE before it, once (stated from an empty FIFO, as after reset). -/
def Obligations.ResetCauseShownAndRecorded : Prop :=
  (∀ (c : ResetCause) (s : State), (c = .command → s.dev.resetReady = true) → ∃ t : State, exec (.fullReset c) s = .next t ∧
    t.dev.get F.HST_RESET_CAUSE_CAUSE = (match c with | .power => 1 | .pin => 2 | .perst => 3 | .flr => 4 | .command => 5 | .brownout => 6) ∧
    t.dev.get F.EVR_STAT_FLASH_READY = 0 ∧ t.dev.evr.fifo = []) ∧
  (∀ (ans : Bool) (s : State), s.dev.get F.EVR_STAT_FLASH_READY = 0 → s.dev.get F.EVR_STAT_FLASH_FAIL = 0 → s.dev.evr.fifo = [] →
    ∃ (t : State) (first last : Event), exec (.logFlashScan ans) s = .next t ∧ t.dev.evr.fifo = [first, last] ∧
      first.code = (if ans then 0x0D07#16 else 0x0D06#16) ∧
      last = { time := s.dev.time, code := 0x0E30#16, src := 0x01#8, sev := 0#8,
               p1 := BitVec.ofNat 32 (s.dev.get F.HST_RESET_CAUSE_CAUSE), p2 := BitVec.ofNat 32 s.dev.sys.phaseBefore, p3 := 0,
               count := 1 } ∧
      t.dev.get F.HST_RESET_CAUSE_CAUSE = s.dev.get F.HST_RESET_CAUSE_CAUSE ∧ exec (.logFlashScan ans) t = .next t)

/-- The ring (R375, R376, R379, R381, R383): the oldest entry of the FIFO goes to the next usable slot with the next SEQ, which HEAD shows; it waits where a healthy page
has no usable slot, and goes to the last-gasp bank where no page is healthy; nothing is written from an empty FIFO. A freeze
that expires ends with 0x0D04. -/
def Obligations.RingTakesTheOldest : Prop :=
  (∀ (w : RingOutcome) (s : State), s.dev.evr.fifo = [] → exec (.evrRingWrite w) s = .next s) ∧
  (∀ (w : RingOutcome) (s : State), s.dev.get F.EVR_PAGES_RETIRED ≠ 0xFFFF → s.dev.nextSlot = none → exec (.evrRingWrite w) s = .next s) ∧
  (∀ (e : Event) (l : List Event) (i : Nat) (s : State), s.dev.evr.fifo = e :: l → s.dev.evr.drops.all (· == 0) = true →
    s.dev.get F.EVR_PAGES_RETIRED ≠ 0xFFFF → s.dev.nextSlot = some i →
    ∃ t : State, exec (.evrRingWrite .good) s = .next t ∧ t.dev.evr.fifo = l ∧
      tfind t.dev.evr.slots i = some { ev := e, seq := s.dev.evr.nextSeq, persisted := false } ∧
      t.dev.evr.nextSeq = s.dev.evr.nextSeq + 1 ∧ t.dev.get F.EVR_HEAD_SEQ = s.dev.evr.nextSeq.toNat ∧
      t.dev.evr.wr = (i + 1) % 8192 ∧ t.dev.evr.bank = s.dev.evr.bank ∧
      regsKeep [F.EVR_HEAD_SEQ, F.EVR_OLDEST_SEQ] s.dev t.dev ∧ t.mem = s.mem) ∧
  (∀ (w : RingOutcome) (e : Event) (l : List Event) (s : State), s.dev.evr.fifo = e :: l → s.dev.evr.drops.all (· == 0) = true →
    s.dev.get F.EVR_PAGES_RETIRED = 0xFFFF → s.dev.get F.EVR_STAT_LASTGASP ≠ 0 → s.dev.evr.bank.length < 8 →
    ∃ t : State, exec (.evrRingWrite w) s = .next t ∧ t.dev.evr.fifo = l ∧
      t.dev.evr.bank = s.dev.evr.bank ++ [{ ev := e, seq := s.dev.evr.nextSeq, persisted := false }] ∧
      t.dev.evr.nextSeq = s.dev.evr.nextSeq + 1 ∧ t.dev.evr.slots = s.dev.evr.slots ∧ t.mem = s.mem) ∧
  (∀ s : State, s.dev.get F.EVR_STAT_FROZEN ≠ 0 → ∃ t : State, exec .freezeExpire s = .next t ∧
    t.dev.get F.EVR_STAT_FROZEN = 0 ∧ t.dev.get F.EVR_CTRL_FREEZE = 0 ∧
    recorded s.dev t.dev 0x0D04 0x0C 0 1 ((elapsed64 s.dev.time s.dev.evr.freezeAt) / 1000) 0 ∧
    onlyRegsRec [F.EVR_STAT_FROZEN, F.EVR_CTRL_FREEZE] s t) ∧
  (∀ s : State, s.dev.get F.EVR_STAT_FROZEN = 0 → exec .freezeExpire s = .next s)

/-- LOG_FETCH (R387): a count of 0 or above 65,536 completes PARAM; otherwise the records from the starting sequence are written in SEQ order
and their number is the value; RANGE gives the oldest SEQ where the start is older; with the flash failed FLASH_FAIL.
The log flash (R384 to R386): while persistence runs the eight earliest records not yet persisted go to the current sector and are marked; a flash that
does not answer has failed, with 0x0D06 and attention RECORDER; nothing is persisted where it is off or has failed. The start-up
scan ends with READY where the flash answers and with FAIL where it does not, once. -/
def Obligations.LogFlashPersistsAndFetches : Prop :=
  (∀ (tag start count : Word) (addr : DWord) (s : State), s.dev.mayRun .flash 0x50 tag = true → s.dev.sys.sup ≠ .halted →
     aligned16 addr = true →
     let grp := recordsFrom s.dev.logRecords start count.toNat
     let answer := fun (r : Res) (v : DWord) => exec (.logFetch tag start count addr) s =
       .next ((s.writeRecs 0x5B addr.toNat grp).onDev (fun d => d.finish .flash 0x50 tag r.code v))
     (count = 0 ∨ 65536 < count.toNat →
       exec (.logFetch tag start count addr) s = .next (s.onDev (fun d => d.finish .flash 0x50 tag Res.param.code 0))) ∧
     (count ≠ 0 → count.toNat ≤ 65536 → s.dev.get F.EVR_STAT_FLASH_FAIL = 1 → answer .flashFail (BitVec.ofNat 64 grp.length)) ∧
     (∀ q : Word, count ≠ 0 → count.toNat ≤ 65536 → s.dev.get F.EVR_STAT_FLASH_FAIL = 0 →
       oldestSeq s.dev.logRecords = some q →
       (later32 q start = true → answer .range (BitVec.ofNat 64 q.toNat)) ∧
       (later32 q start = false → answer .ok (BitVec.ofNat 64 grp.length))) ∧
     (∀ r : Rec, grp = [r] → s.dev.beyond addr.toNat 32 = false → s.dev.goneAt addr.toNat 32 = none →
       ∀ k : Nat, (s.writeRecs 0x5B addr.toNat grp).mem.read k =
         if addr.toNat ≤ k ∧ k < addr.toNat + 32 then (recBytes r).getD (k - addr.toNat) 0 else s.mem.read k)) ∧
  ((∀ (o : FlashOutcome) (s : State), s.dev.get F.EVR_CTRL_PERSIST = 0 ∨ s.dev.get F.EVR_STAT_FLASH_READY = 0 ∨
     s.dev.get F.EVR_STAT_FLASH_FAIL ≠ 0 ∨ s.dev.sys.sup ≠ .running ∨ earliest 8 s.dev.unpersisted = [] →
     exec (.flashPersist o) s = .next s) ∧
   (∀ s : State, s.dev.get F.EVR_CTRL_PERSIST ≠ 0 → s.dev.get F.EVR_STAT_FLASH_READY ≠ 0 → s.dev.get F.EVR_STAT_FLASH_FAIL = 0 →
     s.dev.sys.sup = .running → earliest 8 s.dev.unpersisted ≠ [] →
     (∃ t : State, exec (.flashPersist .noAnswer) s = .next t ∧ t.dev.get F.EVR_STAT_FLASH_FAIL = 1 ∧
       recorded s.dev t.dev 0x0D06 0x0C 3 1 s.dev.logFlash.retiredCount (s.dev.get F.EVR_PERSIST_SEQ) ∧
       bitAt (t.dev.get F.HST_ATTN_CAUSE) 10 = true ∧ onlyRegsRec [F.EVR_STAT_FLASH_FAIL] s t) ∧
     (s.dev.logFlash.needSector = false → (s.dev.logFlash.sector s.dev.logFlash.cur).recs.length + 8 ≤ 2047 →
       ∃ t : State, exec (.flashPersist .good) s = .next t ∧
         (t.dev.logFlash.sector s.dev.logFlash.cur).recs = (s.dev.logFlash.sector s.dev.logFlash.cur).recs ++
           (earliest 8 s.dev.unpersisted).map (fun r => { r with persisted := true }) ∧
         (∀ i r, (i, r) ∈ s.dev.evr.slots → (∃ g ∈ earliest 8 s.dev.unpersisted, g.seq = r.seq) →
           (i, { r with persisted := true }) ∈ t.dev.evr.slots) ∧
         t.dev.evr.fifo = s.dev.evr.fifo ∧ t.mem = s.mem ∧
         regsKeep [F.EVR_PERSIST_SEQ, F.EVR_FLASH_OLDEST_SEQ] s.dev t.dev)) ∧
   (∀ (ans : Bool) (s : State), s.dev.get F.EVR_STAT_FLASH_READY ≠ 0 ∨ s.dev.get F.EVR_STAT_FLASH_FAIL ≠ 0 →
     exec (.logFlashScan ans) s = .next s) ∧
   (∀ s : State, s.dev.get F.EVR_STAT_FLASH_READY = 0 → s.dev.get F.EVR_STAT_FLASH_FAIL = 0 →
     (∃ t : State, exec (.logFlashScan true) s = .next t ∧ t.dev.get F.EVR_STAT_FLASH_READY = 1 ∧ t.dev.get F.EVR_STAT_FLASH_FAIL = 0 ∧
       (∀ q : Word, newestSeq s.dev.logFlash.recs = some q → t.dev.get F.EVR_PERSIST_SEQ = q.toNat) ∧
       t.dev.logFlash = s.dev.logFlash ∧ t.mem = s.mem) ∧
     (∃ t : State, exec (.logFlashScan false) s = .next t ∧ t.dev.get F.EVR_STAT_FLASH_READY = 0 ∧
       t.dev.get F.EVR_STAT_FLASH_FAIL = 1 ∧ bitAt (t.dev.get F.HST_ATTN_CAUSE) 10 = true ∧ t.mem = s.mem)))

/-- Pins and boundary scan (R284, R428): a pulse that has reached its end leaves the pin low, no other pin changes; the boundary-scan port follows the states of its controller, TRST_N
resets it to IDCODE, Update-IR brings the shifted instruction into force, and while EXTEST, HIGHZ or CLAMP is in force with RESET_N low
every EMIT_EN is low and every laser DAC is at 0. -/
def Obligations.PinsAndBoundaryScan : Prop :=
  (∀ (g : Gpf) (u : DWord) (s : State), tfind s.dev.pins g.val = some u →
    (later64 u s.dev.time = true → exec (.pinPulseEnd g) s = .next s) ∧
    (later64 u s.dev.time = false → ∃ t : State, exec (.pinPulseEnd g) s = .next t ∧ tfind t.dev.pins g.val = none ∧
      (∀ h : Nat, h ≠ g.val → tfind t.dev.pins h = tfind s.dev.pins h) ∧ t = { s with dev := { s.dev with pins := t.dev.pins } })) ∧
  (∀ (g : Gpf) (s : State), tfind s.dev.pins g.val = none → exec (.pinPulseEnd g) s = .next s) ∧
  (∀ (tms tdi resetN : Bool) (s : State), exec (.boundaryScanTck tms tdi false resetN) s = .next { s with dev := { s.dev with
    sys := { s.dev.sys with resetLow := !resetN }
    tap := { s.dev.tap with st := .reset, ir := 0x01#8, tdo := none } } }) ∧
  (∀ (tms tdi resetN : Bool) (s : State), ∃ t : State, exec (.boundaryScanTck tms tdi true resetN) s = .next t ∧
    t.dev.tap.st = s.dev.tap.st.next tms ∧ t.dev.sys.resetLow = !resetN ∧
    (s.dev.tap.st.next tms = .reset → t.dev.tap.ir = 0x01#8) ∧
    (s.dev.tap.st.next tms = .updIr → t.dev.tap.ir = s.dev.tap.irShift) ∧
    (s.dev.tap.st.next tms ≠ .reset → s.dev.tap.st.next tms ≠ .updIr → t.dev.tap.ir = s.dev.tap.ir) ∧
    (t.dev.tap.ir ∈ [0x00#8, 0x08#8, 0x09#8] → resetN = false →
      ∀ p : Fin 32, t.dev.get (F.BEAMn_PSTAT_EMIT p.val) = 0 ∧ (t.dev.prtOf p.val).dac = 0) ∧
    (resetN = true → t = { s with dev := { s.dev with
      sys := { s.dev.sys with resetLow := false }
      tap := t.dev.tap
      freeCtr := t.dev.freeCtr } }) ∧
    t.mem = s.mem ∧ t.dev.evr = s.dev.evr)
end

