-- ==== Sys2Proof/Laws/State.lean ====
section
/-! SUPPORT. What the smallest updates of the state leave: one lemma per field and update. -/

namespace Sys2Proof.Machine

/-! ## The state -/

@[simp] theorem State.onDev_dev (s : State) (f : Dev → Dev) : (s.onDev f).dev = f s.dev := rfl
@[simp] theorem State.onDev_mem (s : State) (f : Dev → Dev) : (s.onDev f).mem = s.mem := rfl
@[simp] theorem State.onDev_pending (s : State) (f : Dev → Dev) : (s.onDev f).pending = s.pending := rfl
theorem State.onDev_onDev (s : State) (f g : Dev → Dev) : (s.onDev f).onDev g = s.onDev (fun d => g (f d)) := rfl

/-! ## Setting a register field changes the register list only -/

@[simp] theorem Dev.put_variant (d : Dev) (F : Fld) (v : Nat) : (d.put F v).variant = d.variant := rfl
@[simp] theorem Dev.put_freeCtr (d : Dev) (F : Fld) (v : Nat) : (d.put F v).freeCtr = d.freeCtr := rfl
@[simp] theorem Dev.put_tick (d : Dev) (F : Fld) (v : Nat) : (d.put F v).tick = d.tick := rfl
@[simp] theorem Dev.put_sub (d : Dev) (F : Fld) (v : Nat) : (d.put F v).sub = d.sub := rfl
@[simp] theorem Dev.put_time (d : Dev) (F : Fld) (v : Nat) : (d.put F v).time = d.time := rfl
@[simp] theorem Dev.put_shadow (d : Dev) (F : Fld) (v : Nat) : (d.put F v).shadow = d.shadow := rfl
@[simp] theorem Dev.put_oldViews (d : Dev) (F : Fld) (v : Nat) : (d.put F v).oldViews = d.oldViews := rfl
@[simp] theorem Dev.put_sys (d : Dev) (F : Fld) (v : Nat) : (d.put F v).sys = d.sys := rfl
@[simp] theorem Dev.put_evr (d : Dev) (F : Fld) (v : Nat) : (d.put F v).evr = d.evr := rfl
@[simp] theorem Dev.put_logFlash (d : Dev) (F : Fld) (v : Nat) : (d.put F v).logFlash = d.logFlash := rfl
@[simp] theorem Dev.put_hst (d : Dev) (F : Fld) (v : Nat) : (d.put F v).hst = d.hst := rfl
@[simp] theorem Dev.put_rig (d : Dev) (F : Fld) (v : Nat) : (d.put F v).rig = d.rig := rfl
@[simp] theorem Dev.put_bar (d : Dev) (F : Fld) (v : Nat) : (d.put F v).bar = d.bar := rfl
@[simp] theorem Dev.put_eng (d : Dev) (F : Fld) (v : Nat) : (d.put F v).eng = d.eng := rfl
@[simp] theorem Dev.put_corr (d : Dev) (F : Fld) (v : Nat) : (d.put F v).corr = d.corr := rfl
@[simp] theorem Dev.put_prt (d : Dev) (F : Fld) (v : Nat) : (d.put F v).prt = d.prt := rfl
@[simp] theorem Dev.put_loops (d : Dev) (F : Fld) (v : Nat) : (d.put F v).loops = d.loops := rfl
@[simp] theorem Dev.put_ffPend (d : Dev) (F : Fld) (v : Nat) : (d.put F v).ffPend = d.ffPend := rfl
@[simp] theorem Dev.put_sns (d : Dev) (F : Fld) (v : Nat) : (d.put F v).sns = d.sns := rfl
@[simp] theorem Dev.put_hnd (d : Dev) (F : Fld) (v : Nat) : (d.put F v).hnd = d.hnd := rfl
@[simp] theorem Dev.put_encs (d : Dev) (F : Fld) (v : Nat) : (d.put F v).encs = d.encs := rfl
@[simp] theorem Dev.put_cmps (d : Dev) (F : Fld) (v : Nat) : (d.put F v).cmps = d.cmps := rfl
@[simp] theorem Dev.put_axs (d : Dev) (F : Fld) (v : Nat) : (d.put F v).axs = d.axs := rfl
@[simp] theorem Dev.put_glk (d : Dev) (F : Fld) (v : Nat) : (d.put F v).glk = d.glk := rfl
@[simp] theorem Dev.put_ptp (d : Dev) (F : Fld) (v : Nat) : (d.put F v).ptp = d.ptp := rfl
@[simp] theorem Dev.put_ddr (d : Dev) (F : Fld) (v : Nat) : (d.put F v).ddr = d.ddr := rfl
@[simp] theorem Dev.put_thm (d : Dev) (F : Fld) (v : Nat) : (d.put F v).thm = d.thm := rfl
@[simp] theorem Dev.put_led (d : Dev) (F : Fld) (v : Nat) : (d.put F v).led = d.led := rfl
@[simp] theorem Dev.put_bist (d : Dev) (F : Fld) (v : Nat) : (d.put F v).bist = d.bist := rfl
@[simp] theorem Dev.put_tel (d : Dev) (F : Fld) (v : Nat) : (d.put F v).tel = d.tel := rfl
@[simp] theorem Dev.put_wq (d : Dev) (F : Fld) (v : Nat) : (d.put F v).wq = d.wq := rfl
@[simp] theorem Dev.put_tap (d : Dev) (F : Fld) (v : Nat) : (d.put F v).tap = d.tap := rfl
@[simp] theorem Dev.put_pins (d : Dev) (F : Fld) (v : Nat) : (d.put F v).pins = d.pins := rfl

/-! ## The other register operations are `put` -/

@[simp] theorem Dev.setFlag_eq (d : Dev) (F : Fld) (b : Bool) : d.setFlag F b = d.put F (b2n b) := rfl
@[simp] theorem Dev.putI_eq (d : Dev) (F : Fld) (v : Int) : d.putI F v = d.put F (trunc F.width v) := rfl
@[simp] theorem Dev.bump_eq (d : Dev) (F : Fld) (n : Nat) : d.bump F n = d.put F (min (d.get F + n) (2 ^ F.width - 1)) := rfl
@[simp] theorem Dev.bumpWrap_eq (d : Dev) (F : Fld) (n : Nat) : d.bumpWrap F n = d.put F (d.get F + n) := rfl
@[simp] theorem Dev.setBit_eq (d : Dev) (F : Fld) (k : Nat) (b : Bool) : d.setBit F k b = d.put F (bitPut (d.get F) k b) := rfl
@[simp] theorem Dev.attn_eq (d : Dev) (a : Attn) :
    d.attn a = d.put F.HST_ATTN_CAUSE (bitPut (d.get F.HST_ATTN_CAUSE) a.bit true) := rfl
@[simp] theorem Dev.flag_eq (d : Dev) (F : Fld) : d.flag F = (d.get F != 0) := rfl
@[simp] theorem Dev.getI_eq (d : Dev) (F : Fld) : d.getI F = sext F.width (d.get F) := rfl
@[simp] theorem Dev.getW_eq (d : Dev) (F : Fld) : d.getW F = BitVec.ofNat 32 (d.get F) := rfl

end Sys2Proof.Machine
end

