-- ==== Sys2Proof/Laws/Regs.lean ====
section
/-! SUPPORT. Reading a register field after setting one, and reading a table after setting an entry. -/

namespace Sys2Proof.Machine

/-! ## The register list -/

theorem regGet_del_ne (l : List (Nat × Nat)) (k j r : Nat) (h : j ≠ k) : regGet (regDel l j) k r = regGet l k r := by
  induction l with
  | nil => rfl
  | cons x t ih =>
    obtain ⟨i, w⟩ := x
    by_cases hi : i = j
    · subst hi; simp [regDel, regGet, ih, h]
    · simp [regDel, regGet, ih, hi]

theorem regGet_del_self (l : List (Nat × Nat)) (k r : Nat) : regGet (regDel l k) k r = r := by
  induction l with
  | nil => rfl
  | cons x t ih =>
    obtain ⟨i, w⟩ := x
    by_cases hi : i = k
    · simp [regDel, hi, ih]
    · simp [regDel, regGet, hi, ih]

theorem regGet_put_self (l : List (Nat × Nat)) (k v r : Nat) : regGet (regPut l k v r) k r = v := by
  induction l with
  | nil => by_cases hv : v = r <;> simp [regPut, regGet, hv]
  | cons x t ih =>
    obtain ⟨i, w⟩ := x
    by_cases hi : i = k
    · simp [regPut, hi, ih]
    · by_cases hl : k < i
      · by_cases hv : v = r
        · simp [regPut, regGet, hi, hl, hv, regGet_del_self]
        · simp [regPut, regGet, hi, hl, hv]
      · simp [regPut, regGet, hi, hl, ih]

theorem regGet_put_ne (l : List (Nat × Nat)) (j k v r r' : Nat) (h : j ≠ k) :
    regGet (regPut l j v r) k r' = regGet l k r' := by
  induction l with
  | nil => by_cases hv : v = r <;> simp [regPut, regGet, hv, h]
  | cons x t ih =>
    obtain ⟨i, w⟩ := x
    by_cases hi : i = j
    · subst hi; simp [regPut, regGet, ih, h]
    · by_cases hl : j < i
      · by_cases hv : v = r <;> simp [regPut, regGet, hi, hl, hv, h, regGet_del_ne]
      · simp [regPut, regGet, hi, hl, ih]

/-! ## Fields -/

/-- A field just set reads as the value, cut to its width. -/
@[simp] theorem Dev.get_put_self (d : Dev) (F : Fld) (v : Nat) : (d.put F v).get F = v % 2 ^ F.width :=
  regGet_put_self d.regs F.key _ F.reset

/-- Setting a field leaves every field at another place alone. -/
theorem Dev.get_put_ne (d : Dev) (F G : Fld) (v : Nat) (h : F.key ≠ G.key) : (d.put F v).get G = d.get G :=
  regGet_put_ne d.regs F.key G.key _ F.reset G.reset h

/-- A field reads the same in devices with the same register list. -/
theorem Dev.get_congr {d d' : Dev} (F : Fld) (h : d.regs = d'.regs) : d.get F = d'.get F := by
  simp [Dev.get, h]

/-! ## Tables -/

@[simp] theorem tget_tput_self {α : Type} (x : α) (t : Table α) (k : Nat) (v : α) : tget x (tput t k v) k = v := by
  induction t with
  | nil => simp [tput, tget]
  | cons e t ih =>
    obtain ⟨i, a⟩ := e
    by_cases h : k = i
    · simp [tput, tget, h]
    · by_cases hl : k < i
      · simp [tput, tget, h, hl]
      · have h' : ¬ i = k := fun q => h q.symm
        simp [tput, tget, h, hl, h', ih]

/-- Setting an entry twice is setting it once. -/
@[simp] theorem tput_tput_self {α : Type} (t : Table α) (k : Nat) (v w : α) : tput (tput t k v) k w = tput t k w := by
  induction t with
  | nil => simp [tput]
  | cons x t ih =>
    obtain ⟨i, a⟩ := x
    by_cases h : k = i
    · simp [tput, h]
    · by_cases hl : k < i
      · simp [tput, h, hl]
      · simp [tput, h, hl, ih]

theorem tget_tput_ne {α : Type} (x : α) (t : Table α) (j k : Nat) (v : α) (hn : j ≠ k) :
    tget x (tput t j v) k = tget x t k := by
  induction t with
  | nil => simp [tput, tget, hn]
  | cons e t ih =>
    obtain ⟨i, a⟩ := e
    by_cases h : j = i
    · subst h; simp [tput, tget, hn]
    · by_cases hl : j < i
      · simp [tput, tget, h, hl, hn]
      · simp [tput, tget, h, hl, ih]

@[simp] theorem tfind_tput_self {α : Type} (t : Table α) (k : Nat) (v : α) : tfind (tput t k v) k = some v := by
  induction t with
  | nil => simp [tput, tfind]
  | cons e t ih =>
    obtain ⟨i, a⟩ := e
    by_cases h : k = i
    · simp [tput, tfind, h]
    · by_cases hl : k < i
      · simp [tput, tfind, h, hl]
      · have h' : ¬ i = k := fun q => h q.symm
        simp [tput, tfind, h, hl, h', ih]

theorem tfind_tput_ne {α : Type} (t : Table α) (j k : Nat) (v : α) (hn : j ≠ k) :
    tfind (tput t j v) k = tfind t k := by
  induction t with
  | nil => simp [tput, tfind, hn]
  | cons e t ih =>
    obtain ⟨i, a⟩ := e
    by_cases h : j = i
    · subst h; simp [tput, tfind, hn]
    · by_cases hl : j < i
      · simp [tput, tfind, h, hl, hn]
      · simp [tput, tfind, h, hl, ih]

theorem tfind_tdel_ne {α : Type} (t : Table α) (j k : Nat) (hn : j ≠ k) : tfind (tdel t j) k = tfind t k := by
  induction t with
  | nil => rfl
  | cons e t ih =>
    obtain ⟨i, a⟩ := e
    by_cases h : i = j
    · subst h; simp [tdel, tfind, hn, ih]
    · simp [tdel, tfind, h, ih]

@[simp] theorem tfind_tdel_self {α : Type} (t : Table α) (k : Nat) : tfind (tdel t k) k = none := by
  induction t with
  | nil => rfl
  | cons e t ih =>
    obtain ⟨i, a⟩ := e
    by_cases h : i = k
    · simp [tdel, h, ih]
    · simp [tdel, tfind, h, ih]

end Sys2Proof.Machine
end

