-- ==== Sys2Proof/Laws/Memory.lean ====
section
/-! SUPPORT. DRAM: reading after writing, writing elsewhere, and the canonical form that every write keeps. -/

namespace Sys2Proof.Machine

theorem cellGet_del_ne (l : List Host.Cell) (a j : Nat) (h : j ≠ a) : cellGet (cellDel l j) a = cellGet l a := by
  induction l with
  | nil => rfl
  | cons x t ih =>
    obtain ⟨i, c⟩ := x
    by_cases hi : i = j
    · subst hi; simp [cellDel, cellGet, ih, h]
    · simp [cellDel, cellGet, ih, hi]

theorem cellGet_del_self (l : List Host.Cell) (a : Nat) : cellGet (cellDel l a) a = 0 := by
  induction l with
  | nil => rfl
  | cons x t ih =>
    obtain ⟨i, c⟩ := x
    by_cases hi : i = a
    · simp [cellDel, hi, ih]
    · simp [cellDel, cellGet, hi, ih]

/-- A byte just written reads back. -/
theorem cellGet_put_self (l : List Host.Cell) (a : Nat) (b : Byte) : cellGet (cellPut l a b) a = b := by
  induction l with
  | nil => by_cases hb : b = 0#8 <;> simp [cellPut, cellGet, hb]
  | cons x t ih =>
    obtain ⟨i, c⟩ := x
    by_cases hi : i = a
    · simp [cellPut, hi, ih]
    · by_cases hl : a < i
      · by_cases hb : b = 0#8
        · simp [cellPut, cellGet, hi, hl, hb, cellGet_del_self]
        · simp [cellPut, cellGet, hi, hl, hb]
      · simp [cellPut, cellGet, hi, hl, ih]

/-- A write leaves every other byte alone. -/
theorem cellGet_put_ne (l : List Host.Cell) (j a : Nat) (b : Byte) (h : j ≠ a) :
    cellGet (cellPut l j b) a = cellGet l a := by
  induction l with
  | nil => by_cases hb : b = 0#8 <;> simp [cellPut, cellGet, hb, h]
  | cons x t ih =>
    obtain ⟨i, c⟩ := x
    by_cases hi : i = j
    · subst hi; simp [cellPut, cellGet, ih, h]
    · by_cases hl : j < i
      · by_cases hb : b = 0#8 <;> simp [cellPut, cellGet, hi, hl, hb, h, cellGet_del_ne]
      · simp [cellPut, cellGet, hi, hl, ih]

/-- A range just written reads back byte by byte, and every byte outside it is as before. -/
theorem cellGet_puts (bs : List Byte) : ∀ (l : List Host.Cell) (j a : Nat),
    cellGet (cellsPut l j bs) a = if j ≤ a ∧ a < j + bs.length then bs.getD (a - j) 0 else cellGet l a := by
  induction bs with
  | nil => intro l j a; simp [cellsPut]
  | cons b bs ih =>
    intro l j a
    rw [cellsPut, ih]
    by_cases h : a = j
    · subst h; simp [cellGet_put_self]
    · rw [cellGet_put_ne _ _ _ _ (fun q => h q.symm)]
      by_cases hin : j + 1 ≤ a ∧ a < j + 1 + bs.length
      · have h2 : j ≤ a ∧ a < j + (b :: bs).length := by simp; omega
        rw [if_pos hin, if_pos h2]
        have h3 : a - j = (a - (j + 1)) + 1 := by omega
        rw [h3]; rfl
      · have h2 : ¬ (j ≤ a ∧ a < j + (b :: bs).length) := by simp; omega
        rw [if_neg hin, if_neg h2]

/-! ## The canonical form -/

/-- The addresses of a list in canonical form above b stay above any lower bound. -/
theorem cellsAbove_mono (l : List Host.Cell) (b b' : Nat) (h : b' ≤ b) (hl : cellsAbove b l = true) :
    cellsAbove b' l = true := by
  cases l with
  | nil => rfl
  | cons x t =>
    obtain ⟨i, c⟩ := x
    simp [cellsAbove] at hl ⊢
    exact ⟨⟨by omega, hl.1.2⟩, hl.2⟩

/-- An address at or below the bound is not in the list. -/
theorem cellDel_above (l : List Host.Cell) (b a : Nat) (h : a ≤ b) (hl : cellsAbove b l = true) : cellDel l a = l := by
  induction l generalizing b with
  | nil => rfl
  | cons x t ih =>
    obtain ⟨i, c⟩ := x
    simp [cellsAbove] at hl
    have hi : ¬ i = a := by omega
    simp [cellDel, hi, ih i (by omega) hl.2]

theorem cellPut_fresh (l : List Host.Cell) (b a : Nat) (v : Byte) (h : a ≤ b) (hl : cellsAbove b l = true) :
    cellPut l a v = if v = 0#8 then l else (a, v) :: l := by
  cases l with
  | nil => by_cases hv : v = 0#8 <;> simp [cellPut, hv]
  | cons x t =>
    obtain ⟨i, c⟩ := x
    have hl' := hl
    simp [cellsAbove] at hl
    have hi : ¬ i = a := by omega
    have ha : a < i := by omega
    have hd := cellDel_above t i a (by omega) hl.2
    by_cases hv : v = 0#8 <;> simp [cellPut, hi, ha, hv, hd]

theorem cellPut_above (l : List Host.Cell) (b a : Nat) (v : Byte) (h : b < a) (hl : cellsAbove b l = true) :
    cellsAbove b (cellPut l a v) = true := by
  induction l generalizing b with
  | nil => by_cases hv : v = 0#8 <;> simp [cellPut, hv, cellsAbove, h]
  | cons x t ih =>
    obtain ⟨i, c⟩ := x
    simp [cellsAbove] at hl
    by_cases hi : i = a
    · subst hi
      simp only [cellPut, beq_self_eq_true, if_true]
      rw [cellPut_fresh t i i v (Nat.le_refl i) hl.2]
      by_cases hv : v = 0#8
      · simpa [hv] using cellsAbove_mono t i b (by omega) hl.2
      · simp [hv, cellsAbove, h, hl.2]
    · by_cases ha : a < i
      · have hd := cellDel_above t i a (by omega) hl.2
        by_cases hv : v = 0#8
        · simp [cellPut, hi, ha, hv, hd, cellsAbove, hl]
        · simp [cellPut, hi, ha, hv, hd, cellsAbove, hl, h]
      · have h2 : i < a := by omega
        simp [cellPut, hi, ha, cellsAbove, hl, ih i h2 hl.2]

theorem Dram.wf_nil (p : List Nat) : (Dram.mk [] p).wf = true := rfl

/-- Writing one byte keeps the canonical form. -/
theorem Dram.wf_cellPut (l : List Host.Cell) (p p' : List Nat) (a : Nat) (v : Byte) (h : (Dram.mk l p).wf = true) :
    (Dram.mk (cellPut l a v) p').wf = true := by
  cases l with
  | nil => by_cases hv : v = 0#8 <;> simp [cellPut, hv, Dram.wf, cellsAbove]
  | cons x t =>
    obtain ⟨i, c⟩ := x
    simp [Dram.wf] at h
    by_cases hi : i = a
    · subst hi
      simp only [cellPut, beq_self_eq_true, if_true]
      rw [cellPut_fresh t i i v (Nat.le_refl i) h.2]
      by_cases hv : v = 0#8
      · simp only [hv, if_true]
        cases t with
        | nil => rfl
        | cons y u =>
          obtain ⟨j, e⟩ := y
          have := h.2
          simp [cellsAbove] at this
          simp [Dram.wf, this]
      · simp [hv, Dram.wf, h.2]
    · by_cases ha : a < i
      · have hd := cellDel_above t i a (by omega) h.2
        by_cases hv : v = 0#8
        · simp [cellPut, hi, ha, hv, hd, Dram.wf, h]
        · simp [cellPut, hi, ha, hv, hd, Dram.wf, cellsAbove, h]
      · have h2 : i < a := by omega
        simp [cellPut, hi, ha, Dram.wf, h, cellPut_above t i a v h2 h.2]

/-- Writing a range keeps the canonical form. -/
theorem Dram.wf_cellsPut (bs : List Byte) : ∀ (l : List Host.Cell) (p p' : List Nat) (a : Nat),
    (Dram.mk l p).wf = true → (Dram.mk (cellsPut l a bs) p').wf = true := by
  induction bs with
  | nil => intro l p p' a h; exact h
  | cons b bs ih => intro l p p' a h; exact ih _ p' p' _ (Dram.wf_cellPut l p p' a b h)

theorem Dram.wf_poison (m : Dram) (p : List Nat) : ({ m with poison := p } : Dram).wf = m.wf := rfl

theorem Dram.writeBytes_wf (m : Dram) (a : Nat) (bs : List Byte) (h : m.wf = true) : (m.writeBytes a bs).wf = true :=
  Dram.wf_cellsPut bs m.cells m.poison _ a h

/-- What a byte reads as after a write of a range. -/
theorem Dram.writeBytes_read (m : Dram) (a k : Nat) (bs : List Byte) :
    (m.writeBytes a bs).read k = if a ≤ k ∧ k < a + bs.length then bs.getD (k - a) 0 else m.read k :=
  cellGet_puts bs m.cells a k

end Sys2Proof.Machine
end

