-- ==== Sys2Proof/Laws/Images.lean ====
section
/-! SUPPORT. Reading an image from DRAM, check codes and values of payloads that are mostly zero, and what passing the checks of a seal
takes. -/

namespace Sys2Proof.Machine

/-! ## Reading -/

/-- Bytes that were just written are read back. -/
theorem Dram.readBytes_writeBytes (m : Dram) (a : Nat) (bs : List Byte) : (m.writeBytes a bs).readBytes a bs.length = bs := by
  have g : ∀ (l : List Host.Cell) (n a : Nat), cellsGet l a n = (List.range n).map (fun k => cellGet l (a + k)) := by
    intro l n
    induction n with
    | zero => intro a; rfl
    | succ n ih =>
      intro a
      rw [cellsGet, ih, List.range_succ_eq_map, List.map_cons, List.map_map]
      simp only [Nat.add_zero, List.cons.injEq, true_and]
      exact List.map_congr_left (fun k _ => by simp only [Function.comp]; congr 1; omega)
  unfold Dram.readBytes
  rw [g]
  apply List.ext_getElem
  · simp
  · intro i h1 h2
    have e := Dram.writeBytes_read m a (a + i) bs
    unfold Dram.read at e
    simp only [List.getElem_map, List.getElem_range]
    rw [e, if_pos (by omega)]
    simp [List.getD, h2]

/-- Two reads in a row. -/
theorem cellsGet_add (m : List Host.Cell) (k : Nat) : ∀ a n, cellsGet m a (n + k) = cellsGet m a n ++ cellsGet m (a + n) k := by
  intro a n
  induction n generalizing a with
  | zero => simp [cellsGet]
  | succ n ih =>
    rw [show n + 1 + k = (n + k) + 1 by omega]
    simp only [cellsGet, ih, List.cons_append]
    rw [show a + 1 + n = a + (n + 1) by omega]

theorem cellGet_none (m : List Host.Cell) (a : Nat) (h : ∀ c ∈ m, c.1 ≠ a) : cellGet m a = 0 := by
  induction m with
  | nil => rfl
  | cons c t ih =>
    have h1 := h c (by simp)
    have h2 := ih (fun c hc => h c (by simp [hc]))
    obtain ⟨i, b⟩ := c
    simp [cellGet, h2, h1]

/-- A range of which no address is listed reads as zeros. -/
theorem cellsGet_none (m : List Host.Cell) (n : Nat) : ∀ a, (m.all (fun c => decide (c.1 < a) || decide (a + n ≤ c.1))) = true →
    cellsGet m a n = List.replicate n 0 := by
  induction n with
  | zero => intro a _; rfl
  | succ n ih =>
    intro a h
    simp only [List.all_eq_true, Bool.or_eq_true, decide_eq_true_eq] at h
    rw [cellsGet, cellGet_none m a (fun c hc => by have := h c hc; omega), ih (a + 1), List.replicate_succ]
    simp only [List.all_eq_true, Bool.or_eq_true, decide_eq_true_eq]
    intro c hc
    have := h c hc
    omega

/-- An image that DRAM holds without error is read as it is. -/
theorem State.imageRead_good (s : State) (a n : Nat) (h : badRead s.dev s.mem a n = false) :
    s.imageRead a n = (s.onDev (fun d => d.touch (d.serving a)), s.mem.readBytes a n, true) := by
  have k := h
  simp only [badRead, Bool.or_eq_false_iff] at k
  simp [State.imageRead, h, State.dramRead, k.1.1, k.1.2, k.2]

/-! ## Payloads -/

theorem crc32cBytes_zero (n : Nat) : (List.replicate n (0 : Byte)).foldl crc32cByte 0 = 0 := by
  induction n with
  | zero => rfl
  | succ n ih => rw [List.replicate_succ, List.foldl_cons]; exact ih

/-- A payload whose first bytes clear the check register, with zeros behind them. -/
theorem crc32c_cleared (pre : List Byte) (n : Nat) (h : pre.foldl crc32cByte 0xFFFFFFFF = 0) :
    crc32c (pre ++ List.replicate n 0) = 0xFFFFFFFF#32 := by
  unfold crc32c
  rw [List.foldl_append, h, crc32cBytes_zero]
  rfl

theorem leNat_zero (n : Nat) : leNat (List.replicate n 0) = 0 := by
  induction n with
  | zero => rfl
  | succ n ih => rw [List.replicate_succ, leNat, ih]; rfl

/-- A value among the zeros of a payload is 0.0. -/
theorem f32At_zero (pre : List Byte) (n o : Nat) (h : pre.length ≤ o) : f32At (pre ++ List.replicate n 0) o = 0#32 := by
  unfold f32At leAt sliceB
  rw [List.drop_append, List.drop_eq_nil_of_le h, List.nil_append, List.drop_replicate, List.take_replicate, leNat_zero]

theorem find_none (n : Nat) (p : Nat → Bool) (h : ∀ i, i < n → p i = false) : (upTo n).find? p = none := by
  simp only [List.find?_eq_none, List.mem_range]
  intro i hi
  simp [h i hi]

/-- The word at place j of equal words, with other bytes before and behind. -/
theorem f32At_words (pre w post : List Byte) (n j : Nat) (hw : w.length = 4) (hj : j < n) :
    f32At (pre ++ (List.replicate n w).flatten ++ post) (pre.length + 4 * j) = f32At w 0 := by
  have k : ∀ (n j : Nat), j < n → (((List.replicate n w).flatten ++ post).drop (4 * j)).take 4 = w := by
    intro n
    induction n with
    | zero => intro j h; omega
    | succ n ih =>
      intro j h
      rw [List.replicate_succ, List.flatten_cons, List.append_assoc]
      cases j with
      | zero => simp [← hw]
      | succ j =>
        rw [show 4 * (j + 1) = w.length + 4 * j by omega, List.drop_length_add_append]
        exact ih j (by omega)
  unfold f32At leAt sliceB
  rw [List.append_assoc, List.drop_length_add_append, k n j hj, List.drop_zero, List.take_of_length_le (by omega)]

/-! ## Seals (R91) -/

/-- A bed that passes every check of R91. -/
theorem sealChecks_ok {d : Dev} {m : Dram} {n gen a len : Nat} {bs : List Byte} {h : BedHdr} {ps : List _} {ts : Tiles}
    (h1 : d.bufBase n = a) (h2 : d.bufLen n = len) (h3 : m.readBytes a 4096 = bs) (h4 : hdrOfBytes bs = h)
    (h5 : badRead d m a 4096 = false) (h6 : sealHdr h gen len false = none)
    (p1 : (badRead d m (a + h.psetOff) (h.psets * 128) || (crc32c (m.readBytes (a + h.psetOff) (h.psets * 128))).toNat != h.psetCrc) = false)
    (p2 : (badRead d m (a + h.tileOff) (h.tiles * 48) || (crc32c (m.readBytes (a + h.tileOff) (h.tiles * 48))).toNat != h.tileCrc) = false)
    (p3 : (badRead d m (a + h.segOff) (h.segs * 16) || (crc32c (m.readBytes (a + h.segOff) (h.segs * 16))).toNat != h.segCrc) = false)
    (p4 : (upTo h.psets).map (fun i => psetOfBytes (m.readBytes (a + h.psetOff + 128 * i) 128)) = ps)
    (p5 : ps.findIdx? (fun p => p.bad) = none)
    (p6 : (upTo h.tiles).map (fun t => (t, tileOfBytes (m.readBytes (a + h.tileOff + 48 * t) 48))) = ts)
    (p7 : sealTiles (d.sections false) h (fun i => segOfBytes (m.readBytes (a + h.segOff + 16 * i) 16)) ts = none)
    (p8 : sealSegs ps (ts.map (fun x => x.2.first + x.2.count - 1)) (fun i => segOfBytes (m.readBytes (a + h.segOff + 16 * i) 16)) h.segs 0
      ⟨true, 0, 0, 0⟩ = none) : d.sealChecks m n gen = .ok h := by
  unfold Dev.sealChecks
  dsimp only
  rw [h1, h2, h3, h5, h4, h6]
  dsimp only
  simp only [p1, p2, p3, p4, p5, p6, p7, p8, Bool.false_eq_true, if_false]

end Sys2Proof.Machine
end

