-- ==== Sys2Proof/Laws/Link.lean ====
section
/-! SUPPORT. What Gorwin Link's line coding does: the descrambler undoes the scrambler, and the blocks of a frame, received on their lanes,
are that frame with whether its checksum holds. -/

namespace Sys2Proof.Machine

/-! ## The scrambler (R299) -/

/-- A receiver that has heard the same bits as the sender has sent reads what was scrambled. -/
theorem descramble_scramble : ∀ h l : List Bool, descramble h (scramble h l) = l := by
  intro h l
  induction l generalizing h with
  | nil => rfl
  | cons b t ih =>
    simp only [scramble, descramble, ih, List.cons.injEq, and_true]
    cases b <;> cases h.getD 38 false <;> cases h.getD 57 false <;> rfl

/-! ## The bytes of a frame (R300) -/

/-- A payload of whole blocks is not filled. -/
theorem padBlocks_whole {l : List Byte} (h : l.length % 8 = 0) : padBlocks l = l := by
  simp [padBlocks, h]

/-- Whole blocks of bytes, put together again, are the bytes; each is of eight bytes. -/
theorem eights_flatten : ∀ (n : Nat) (l : List Byte), l.length = 8 * n → (eights l).flatten = l ∧ (eights l).length = n := by
  intro n
  induction n with
  | zero => intro l h; rw [List.length_eq_zero_iff.mp h]; exact ⟨rfl, rfl⟩
  | succ n ih =>
    intro l h
    match l, h with
    | a :: b :: c :: d :: e :: f :: g :: k :: t, h =>
      have := ih t (by simp only [List.length_cons] at h; omega)
      simp [eights, this.1, this.2]

theorem leNat_leBytes : ∀ n v : Nat, leNat (leBytes n v) = v % 256 ^ n := by
  intro n
  induction n with
  | zero => intro v; simp [leBytes, leNat, Nat.mod_one]
  | succ n ih =>
    intro v
    have e : (256 : Nat) ^ (n + 1) = 256 * 256 ^ n := by rw [Nat.pow_succ, Nat.mul_comm]
    rw [e, Nat.mod_mul, ← ih]
    rfl

/-- The header bytes of a frame give it back. -/
theorem glkFrameOf_head (f : GlkFrame) (n : Nat) (data : List Byte) : glkFrameOf (frameHead f n) data = { f with payload := data } := by
  have : BitVec.ofNat 16 (leAt (frameHead f n) 5 2) = f.seq := by
    change BitVec.ofNat 16 (leNat (leBytes 2 f.seq.toNat)) = f.seq
    rw [leNat_leBytes]
    apply BitVec.eq_of_toNat_eq
    have := f.seq.isLt
    simp only [BitVec.toNat_ofNat]
    omega
  unfold glkFrameOf
  rw [this]
  rfl

/-- The checksum in the last block of a frame. -/
theorem crc_block (crc : Word) : leAt (leBytes 4 crc.toNat ++ leBytes 4 0) 0 4 = crc.toNat := by
  change leNat (leBytes 4 crc.toNat) = crc.toNat
  rw [leNat_leBytes]
  exact Nat.mod_eq_of_lt crc.isLt

/-! ## The blocks of a frame as a port receives them (R299, R300) -/

@[simp] theorem Dev.glkRx_updGlkRx (d : Dev) (p : Nat) (f : GlkRx → GlkRx) : (d.updGlkRx p f).glkRx p = f (d.glkRx p) :=
  tget_tput_self _ _ _ _
theorem Dev.glkRx_updGlkRx_ne (d : Dev) (p q : Nat) (f : GlkRx → GlkRx) (h : p ≠ q) : (d.updGlkRx p f).glkRx q = d.glkRx q :=
  tget_tput_ne _ _ _ _ _ h
@[simp] theorem Dev.updGlkRx_twice (d : Dev) (p : Nat) (f g : GlkRx → GlkRx) :
    (d.updGlkRx p f).updGlkRx p g = d.updGlkRx p (fun x => g (f x)) := by
  simp only [Dev.updGlkRx, Dev.glkRx, tget_tput_self, tput_tput_self]

/-- A good block of a port only changes its receiver, where it completes no frame. -/
theorem Dev.blockIn_part (d : Dev) (p : Nat) (b : GlkBlock) (hb : blockBad b = false)
    (h : (((d.glkRx p).count b).take b).2 = none) : d.blockIn p b = d.updGlkRx p (fun x => ((x.count b).take b).1) := by
  have hr : (((d.updGlkRx p (fun x => x.count b)).glkRx p).take b).2 = none := by rw [Dev.glkRx_updGlkRx]; exact h
  unfold Dev.blockIn
  simp only [hb, Bool.false_eq_true, if_false, hr]
  simp only [Dev.glkRx_updGlkRx, Dev.updGlkRx_twice]
  rfl

theorem GlkRx.count_frame (x : GlkRx) (b : GlkBlock) : (x.count b).frame = x.frame := by
  unfold GlkRx.count
  split <;> rfl

/-- Blocks before others take the lanes that they take alone. -/
theorem onLanes_append : ∀ (a b : List (BitVec 2 × List Byte)) (l : Fin 2), ∃ k : Fin 2, onLanes l (a ++ b) = onLanes l a ++ onLanes k b := by
  intro a b
  induction a with
  | nil => exact fun l => ⟨l, rfl⟩
  | cons x a ih =>
    intro l
    obtain ⟨k, h⟩ := ih (l + 1)
    exact ⟨k, by simp only [List.cons_append, onLanes, h]⟩

/-- A data block that is not the last of a frame. -/
theorem GlkRx.take_data {x : GlkRx} {r : GlkPart} (l : Fin 2) (b : List Byte) (h : x.frame = some r) (hl : 1 < r.left) :
    ((x.count ⟨l, 1, b⟩).take ⟨l, 1, b⟩).1.frame = some { r with data := r.data ++ b, left := r.left - 1 } ∧
      ((x.count ⟨l, 1, b⟩).take ⟨l, 1, b⟩).2 = none := by
  have hx := GlkRx.count_frame x ⟨l, 1, b⟩
  rw [h] at hx
  unfold GlkRx.take
  simp only [hx, beq_self_eq_true, if_true, if_neg (Nat.not_le.mpr hl), and_self]

/-- The data blocks before the last of a frame join it, and change nothing but the port's receiver. -/
theorem Dev.blocks_data (p : Nat) : ∀ (data : List (List Byte)) (d : Dev) (x0 : GlkRx) (l : Fin 2) (r : GlkPart),
    x0.frame = some r → data.length < r.left →
    ∃ x : GlkRx, x.frame = some { r with data := r.data ++ data.flatten, left := r.left - data.length } ∧
      (onLanes l (data.map (fun b => ((1 : BitVec 2), b)))).foldl (fun d b => d.blockIn p b) (d.updGlkRx p (fun _ => x0)) =
        d.updGlkRx p (fun _ => x) := by
  intro data
  induction data with
  | nil => exact fun d x0 l r h _ => ⟨x0, by simpa using h, rfl⟩
  | cons b t ih =>
    intro d x0 l r h hl
    simp only [List.length_cons] at hl
    have ht := GlkRx.take_data l b h (by omega)
    obtain ⟨x, hx, he⟩ := ih d ((x0.count ⟨l, 1, b⟩).take ⟨l, 1, b⟩).1 (l + 1) _ ht.1 (by dsimp only; omega)
    refine ⟨x, ?_, ?_⟩
    · rw [hx]
      simp only [List.append_assoc, List.flatten_cons, List.length_cons]
      congr 2
      omega
    · rw [List.map_cons, onLanes, List.foldl_cons, Dev.blockIn_part _ _ _ rfl (by rw [Dev.glkRx_updGlkRx]; exact ht.2),
        Dev.updGlkRx_twice]
      exact he

/-- The blocks of a frame of whole data blocks (R300): the port's receiver is free again, and the frame is received with whether its checksum
holds. -/
theorem Dev.blocks_frame (d : Dev) (p : Nat) (f : GlkFrame) (crc : Word) (l : Fin 2) (h8 : f.payload.length % 8 = 0)
    (hm : f.payload.length ≤ 1008) :
    ∃ x : GlkRx, x.frame = none ∧ (onLanes l (frameBlocks f crc)).foldl (fun d b => d.blockIn p b) d =
      (d.updGlkRx p (fun _ => x)).frameIn p f (decide (crc = frameCrc f)) := by
  obtain ⟨n, hn⟩ : ∃ n, f.payload.length = 8 * n := ⟨f.payload.length / 8, by omega⟩
  obtain ⟨hflat, hlen⟩ := eights_flatten n f.payload hn
  have hpad := padBlocks_whole h8
  obtain ⟨k, hk⟩ := onLanes_append ((2, (0x66 : Byte) :: frameHead f (n + 1)) :: (eights f.payload).map (fun b => ((1 : BitVec 2), b)))
    [(1, leBytes 4 crc.toNat ++ leBytes 4 0)] l
  have hw : frameBlocks f crc = (2, (0x66 : Byte) :: frameHead f (n + 1)) :: (eights f.payload).map (fun b => ((1 : BitVec 2), b)) ++
      [(1, leBytes 4 crc.toNat ++ leBytes 4 0)] := by simp only [frameBlocks, frameStart, frameRest, hpad, hlen, List.cons_append]
  rw [hw, hk, List.foldl_append, onLanes, List.foldl_cons]
  -- the FRAME_START
  let b0 : GlkBlock := ⟨l, 2, (0x66 : Byte) :: frameHead f (n + 1)⟩
  let r0 : GlkPart := { head := frameHead f (n + 1), data := [], left := n + 1 }
  have hn5 : byteAt ((0x66 : Byte) :: frameHead f (n + 1)) 5 = n + 1 := by
    change (BitVec.ofNat 8 (n + 1)).toNat = n + 1
    simp only [BitVec.toNat_ofNat]
    omega
  have ht0 : (((d.glkRx p).count b0).take b0).1.frame = some r0 ∧ (((d.glkRx p).count b0).take b0).2 = none := by
    have e2 : ((2 : BitVec 2) == 1) = false := rfl
    have e3 : (byteAt ((0x66 : Byte) :: frameHead f (n + 1)) 0 == 0x2D) = false := rfl
    have e4 : (byteAt ((0x66 : Byte) :: frameHead f (n + 1)) 0 == 0x66) = true := rfl
    have e5 : (decide (1 ≤ n + 1) && decide (n + 1 ≤ 127)) = true := by simp; omega
    unfold GlkRx.take
    simp only [b0, e2, e3, e4, hn5, e5, Bool.false_eq_true, if_false, if_true, and_true]
    rfl
  rw [Dev.blockIn_part d p b0 rfl ht0.2]
  have hc : d.updGlkRx p (fun x => ((x.count b0).take b0).1) = d.updGlkRx p (fun _ => (((d.glkRx p).count b0).take b0).1) := rfl
  rw [hc]
  obtain ⟨x, hx, he⟩ := Dev.blocks_data p (eights f.payload) d (((d.glkRx p).count b0).take b0).1 (l + 1) r0 ht0.1
    (by simp only [r0, hlen]; omega)
  rw [he]
  -- the last block
  let b1 : GlkBlock := ⟨k, 1, leBytes 4 crc.toNat ++ leBytes 4 0⟩
  have hx1 : (x.count b1).frame = some { head := frameHead f (n + 1), data := f.payload, left := 1 } := by
    rw [GlkRx.count_frame, hx]
    simp only [r0, hlen, hflat, List.nil_append, Nat.add_sub_cancel_left]
  have ht1 : (x.count b1).take b1 = ({ x.count b1 with frame := none }, some (f, decide (crc = frameCrc f))) := by
    unfold GlkRx.take
    simp only [b1] at hx1
    simp only [b1, hx1, beq_self_eq_true, if_true, le_refl, glkFrameOf_head, crc_block]
    congr 3
    rw [show frameCrc f = crc32c (frameHead f (n + 1) ++ f.payload) by simp only [frameCrc, hpad, hlen]]
    rw [Bool.eq_iff_iff]
    simp only [beq_iff_eq, decide_eq_true_eq]
    exact ⟨fun h => (BitVec.eq_of_toNat_eq h).symm, fun h => by rw [h]⟩
  refine ⟨{ x.count b1 with frame := none }, rfl, ?_⟩
  simp only [onLanes, List.foldl_cons, List.foldl_nil]
  change (d.updGlkRx p (fun _ => x)).blockIn p b1 = _
  unfold Dev.blockIn
  simp only [show blockBad b1 = false from rfl, Bool.false_eq_true, if_false, Dev.updGlkRx_twice, Dev.glkRx_updGlkRx, ht1]

end Sys2Proof.Machine
end

