-- ==== Sys2Proof/Laws/Recorder.lean ====
section
/-! SUPPORT. What recording an event can do: it changes the recorder and the register fields of the recorder, and
nothing else. -/

namespace Sys2Proof.Machine

open Sys2Proof.Safety

/-- A device differs from d in its recorder and its register list only. -/
def Dev.recOnly (d d' : Dev) : Prop :=
  d' = { d with regs := d'.regs, evr := d'.evr } ∧ regsKeep recFlds d d'

theorem Dev.recOnly_refl (d : Dev) : d.recOnly d := ⟨rfl, fun _ _ => rfl⟩

theorem Dev.recOnly_trans {a b c : Dev} (h : a.recOnly b) (k : b.recOnly c) : a.recOnly c := by
  refine ⟨?_, fun G hG => (k.2 G hG).trans (h.2 G hG)⟩
  have h1 := h.1
  have k1 := k.1
  rw [h1] at k1
  exact k1

theorem Dev.recOnly_put (d : Dev) (F : Fld) (v : Nat) (h : F ∈ recFlds) : d.recOnly (d.put F v) :=
  ⟨rfl, fun G hG => Dev.get_put_ne d F G v (fun q => hG (q ▸ List.mem_map_of_mem h))⟩

theorem Dev.recOnly_evr (d : Dev) (e : Evr) : d.recOnly { d with evr := e } := ⟨rfl, fun _ _ => rfl⟩

theorem Dev.recOnly_countDrop (d : Dev) (sev : Nat) : d.recOnly (d.countDrop sev) := by
  unfold Dev.countDrop
  exact Dev.recOnly_trans (Dev.recOnly_trans (d.recOnly_evr _) (Dev.recOnly_put _ _ _ (by simp [recFlds])))
    (Dev.recOnly_put _ _ _ (by simp [recFlds]))

theorem Dev.recOnly_bankAdd (d : Dev) (e : Event) : d.recOnly (d.bankAdd e) := by
  unfold Dev.bankAdd
  split
  · exact Dev.recOnly_trans (Dev.recOnly_trans (d.recOnly_evr _) (Dev.recOnly_put _ _ _ (by simp [recFlds])))
      (Dev.recOnly_put _ _ _ (by simp [recFlds]))
  · exact Dev.recOnly_put _ _ _ (by simp [recFlds])

theorem Dev.recOnly_toBank (d : Dev) (e : Event) (c : Nat) : d.recOnly (d.toBank e c) := by
  unfold Dev.toBank
  split
  · exact d.recOnly_bankAdd e
  · exact Dev.recOnly_trans (Dev.recOnly_trans (Dev.recOnly_trans (d.recOnly_bankAdd e)
      (Dev.recOnly_put _ _ _ (by simp [recFlds]))) (Dev.recOnly_bankAdd _ _)) (Dev.recOnly_put _ _ _ (by simp [recFlds]))

theorem Dev.recOnly_intake (d : Dev) (e : Event) : d.recOnly (d.intake e) := by
  unfold Dev.intake
  split
  · exact Dev.recOnly_trans (d.recOnly_evr _) (Dev.recOnly_put _ _ _ (by simp [recFlds]))
  · split
    · exact d.recOnly_evr _
    · dsimp only
      split
      · exact Dev.recOnly_trans (d.recOnly_countDrop _) (Dev.recOnly_evr _ _)
      · split
        · exact d.recOnly_toBank e 3
        · exact d.recOnly_countDrop _

/-- Raising an event changes the recorder and the recorder's register fields, and nothing else. -/
theorem Dev.recOnly_raise (d : Dev) (code src sev p1 p2 p3 : Nat) : d.recOnly (d.raise code src sev p1 p2 p3) :=
  d.recOnly_intake _

/-- A register field outside the recorder's reads as before after an event. -/
theorem Dev.get_raise (d : Dev) (code src sev p1 p2 p3 : Nat) (G : Fld) (h : G.key ∉ recFlds.map Fld.key) :
    (d.raise code src sev p1 p2 p3).get G = d.get G := (d.recOnly_raise code src sev p1 p2 p3).2 G h

/-- What an event does to the recorder depends on the recorder, the time and LASTGASP alone. -/
theorem Dev.raise_evr_congr (d d' : Dev) (code src sev p1 p2 p3 : Nat) (he : d.evr = d'.evr) (ht : d.time = d'.time)
    (hl : d.get F.EVR_STAT_LASTGASP = d'.get F.EVR_STAT_LASTGASP) :
    (d.raise code src sev p1 p2 p3).evr = (d'.raise code src sev p1 p2 p3).evr := by
  have hb : ∀ (x y : Dev) (e : Event), x.evr = y.evr → (x.bankAdd e).evr = (y.bankAdd e).evr := by
    intro x y e h
    unfold Dev.bankAdd
    rw [h]
    split
    · rfl
    · simpa using h
  unfold Dev.raise Dev.intake
  rw [← ht, ← he]
  split
  · rfl
  · split
    · rfl
    · dsimp only
      split
      · simp [Dev.countDrop, he, ht]
      · split
        · unfold Dev.toBank
          simp only [Dev.flag_eq, hl, ← ht, ← he]
          split
          · exact hb _ _ _ he
          · simp only [Dev.attn_eq, Dev.put_evr]
            apply hb
            simpa using hb _ _ _ he
        · simp [Dev.countDrop, he, ht]

@[simp] theorem Dev.put_raise_evr (d : Dev) (G : Fld) (v code src sev p1 p2 p3 : Nat)
    (h : G.key ≠ F.EVR_STAT_LASTGASP.key) :
    ((d.put G v).raise code src sev p1 p2 p3).evr = (d.raise code src sev p1 p2 p3).evr :=
  Dev.raise_evr_congr _ _ _ _ _ _ _ _ rfl rfl (Dev.get_put_ne d G _ v h)

/-! ## What an event leaves alone, field by field -/

@[simp] theorem Dev.raise_variant (d : Dev) (c a b x y z : Nat) : (d.raise c a b x y z).variant = d.variant := by
  rw [(d.recOnly_raise c a b x y z).1]
@[simp] theorem Dev.raise_freeCtr (d : Dev) (c a b x y z : Nat) : (d.raise c a b x y z).freeCtr = d.freeCtr := by
  rw [(d.recOnly_raise c a b x y z).1]
@[simp] theorem Dev.raise_tick (d : Dev) (c a b x y z : Nat) : (d.raise c a b x y z).tick = d.tick := by
  rw [(d.recOnly_raise c a b x y z).1]
@[simp] theorem Dev.raise_sub (d : Dev) (c a b x y z : Nat) : (d.raise c a b x y z).sub = d.sub := by
  rw [(d.recOnly_raise c a b x y z).1]
@[simp] theorem Dev.raise_time (d : Dev) (c a b x y z : Nat) : (d.raise c a b x y z).time = d.time := by
  rw [(d.recOnly_raise c a b x y z).1]
@[simp] theorem Dev.raise_shadow (d : Dev) (c a b x y z : Nat) : (d.raise c a b x y z).shadow = d.shadow := by
  rw [(d.recOnly_raise c a b x y z).1]
@[simp] theorem Dev.raise_oldViews (d : Dev) (c a b x y z : Nat) : (d.raise c a b x y z).oldViews = d.oldViews := by
  rw [(d.recOnly_raise c a b x y z).1]
@[simp] theorem Dev.raise_sys (d : Dev) (c a b x y z : Nat) : (d.raise c a b x y z).sys = d.sys := by
  rw [(d.recOnly_raise c a b x y z).1]
@[simp] theorem Dev.raise_logFlash (d : Dev) (c a b x y z : Nat) : (d.raise c a b x y z).logFlash = d.logFlash := by
  rw [(d.recOnly_raise c a b x y z).1]
@[simp] theorem Dev.raise_hst (d : Dev) (c a b x y z : Nat) : (d.raise c a b x y z).hst = d.hst := by
  rw [(d.recOnly_raise c a b x y z).1]
@[simp] theorem Dev.raise_rig (d : Dev) (c a b x y z : Nat) : (d.raise c a b x y z).rig = d.rig := by
  rw [(d.recOnly_raise c a b x y z).1]
@[simp] theorem Dev.raise_bar (d : Dev) (c a b x y z : Nat) : (d.raise c a b x y z).bar = d.bar := by
  rw [(d.recOnly_raise c a b x y z).1]
@[simp] theorem Dev.raise_eng (d : Dev) (c a b x y z : Nat) : (d.raise c a b x y z).eng = d.eng := by
  rw [(d.recOnly_raise c a b x y z).1]
@[simp] theorem Dev.raise_corr (d : Dev) (c a b x y z : Nat) : (d.raise c a b x y z).corr = d.corr := by
  rw [(d.recOnly_raise c a b x y z).1]
@[simp] theorem Dev.raise_prt (d : Dev) (c a b x y z : Nat) : (d.raise c a b x y z).prt = d.prt := by
  rw [(d.recOnly_raise c a b x y z).1]
@[simp] theorem Dev.raise_loops (d : Dev) (c a b x y z : Nat) : (d.raise c a b x y z).loops = d.loops := by
  rw [(d.recOnly_raise c a b x y z).1]
@[simp] theorem Dev.raise_ffPend (d : Dev) (c a b x y z : Nat) : (d.raise c a b x y z).ffPend = d.ffPend := by
  rw [(d.recOnly_raise c a b x y z).1]
@[simp] theorem Dev.raise_sns (d : Dev) (c a b x y z : Nat) : (d.raise c a b x y z).sns = d.sns := by
  rw [(d.recOnly_raise c a b x y z).1]
@[simp] theorem Dev.raise_hnd (d : Dev) (c a b x y z : Nat) : (d.raise c a b x y z).hnd = d.hnd := by
  rw [(d.recOnly_raise c a b x y z).1]
@[simp] theorem Dev.raise_encs (d : Dev) (c a b x y z : Nat) : (d.raise c a b x y z).encs = d.encs := by
  rw [(d.recOnly_raise c a b x y z).1]
@[simp] theorem Dev.raise_cmps (d : Dev) (c a b x y z : Nat) : (d.raise c a b x y z).cmps = d.cmps := by
  rw [(d.recOnly_raise c a b x y z).1]
@[simp] theorem Dev.raise_axs (d : Dev) (c a b x y z : Nat) : (d.raise c a b x y z).axs = d.axs := by
  rw [(d.recOnly_raise c a b x y z).1]
@[simp] theorem Dev.raise_glk (d : Dev) (c a b x y z : Nat) : (d.raise c a b x y z).glk = d.glk := by
  rw [(d.recOnly_raise c a b x y z).1]
@[simp] theorem Dev.raise_ptp (d : Dev) (c a b x y z : Nat) : (d.raise c a b x y z).ptp = d.ptp := by
  rw [(d.recOnly_raise c a b x y z).1]
@[simp] theorem Dev.raise_ddr (d : Dev) (c a b x y z : Nat) : (d.raise c a b x y z).ddr = d.ddr := by
  rw [(d.recOnly_raise c a b x y z).1]
@[simp] theorem Dev.raise_thm (d : Dev) (c a b x y z : Nat) : (d.raise c a b x y z).thm = d.thm := by
  rw [(d.recOnly_raise c a b x y z).1]
@[simp] theorem Dev.raise_led (d : Dev) (c a b x y z : Nat) : (d.raise c a b x y z).led = d.led := by
  rw [(d.recOnly_raise c a b x y z).1]
@[simp] theorem Dev.raise_bist (d : Dev) (c a b x y z : Nat) : (d.raise c a b x y z).bist = d.bist := by
  rw [(d.recOnly_raise c a b x y z).1]
@[simp] theorem Dev.raise_tel (d : Dev) (c a b x y z : Nat) : (d.raise c a b x y z).tel = d.tel := by
  rw [(d.recOnly_raise c a b x y z).1]
@[simp] theorem Dev.raise_wq (d : Dev) (c a b x y z : Nat) : (d.raise c a b x y z).wq = d.wq := by
  rw [(d.recOnly_raise c a b x y z).1]
@[simp] theorem Dev.raise_tap (d : Dev) (c a b x y z : Nat) : (d.raise c a b x y z).tap = d.tap := by
  rw [(d.recOnly_raise c a b x y z).1]
@[simp] theorem Dev.raise_pins (d : Dev) (c a b x y z : Nat) : (d.raise c a b x y z).pins = d.pins := by
  rw [(d.recOnly_raise c a b x y z).1]

/-- The device after an event is the device before it but for the recorder and the register list. -/
theorem Dev.raise_eq (d : Dev) (c a b x y z : Nat) :
    d.raise c a b x y z = { d with regs := (d.raise c a b x y z).regs, evr := (d.raise c a b x y z).evr } :=
  (d.recOnly_raise c a b x y z).1

theorem State.onDev_raise_onlyRegsRec (s : State) (fs : List Fld) (c a b x y z : Nat) :
    onlyRegsRec fs s (s.onDev (fun d => d.raise c a b x y z)) := by
  refine ⟨?_, fun G hG => Dev.get_raise _ _ _ _ _ _ _ G (fun h => hG (by simp at h ⊢; exact Or.inl h))⟩
  show State.mk _ _ _ = State.mk _ _ _
  congr 1
  exact Dev.raise_eq _ _ _ _ _ _ _

end Sys2Proof.Machine
end

