-- ==== Sys2Proof/Laws/Mailbox.lean ====
section
/-! SUPPORT. What the shared operations of the mailbox can do (16_host_startup.md R400 to R403): accepting a submission, running a command in
its lane, finishing it. -/

namespace Sys2Proof.Machine

open Sys2Proof.Safety

@[simp] theorem tget_tdel_self {α : Type} (x : α) (t : Table α) (k : Nat) : tget x (tdel t k) k = x := by
  induction t with
  | nil => rfl
  | cons e t ih =>
    obtain ⟨i, a⟩ := e
    by_cases h : i = k
    · simp [tdel, h, ih]
    · simp [tdel, tget, h, ih]

/-! ## What register operations keep, put together -/

theorem regsKeep_refl (fs : List Fld) (d : Dev) : regsKeep fs d d := fun _ _ => rfl

theorem regsKeep_trans {fs : List Fld} {a b c : Dev} (h : regsKeep fs a b) (k : regsKeep fs b c) : regsKeep fs a c :=
  fun G hG => (k G hG).trans (h G hG)

theorem regsKeep_mono {fs gs : List Fld} {a b : Dev} (h : regsKeep fs a b) (hs : ∀ F ∈ fs, F ∈ gs) : regsKeep gs a b :=
  fun G hG => h G (fun q => hG (by
    obtain ⟨F, hF, e⟩ := List.mem_map.mp q
    exact List.mem_map.mpr ⟨F, hs F hF, e⟩))

theorem regsKeep_put {fs : List Fld} (d : Dev) (F : Fld) (v : Nat) (h : F ∈ fs) : regsKeep fs d (d.put F v) :=
  fun G hG => Dev.get_put_ne d F G v (fun q => hG (q ▸ List.mem_map_of_mem h))

theorem regsKeep_of_regs {fs : List Fld} {d d' : Dev} (h : d'.regs = d.regs) : regsKeep fs d d' := fun G _ => Dev.get_congr G h

theorem regsKeep_raise {fs : List Fld} (d : Dev) (c a b x y z : Nat) (h : ∀ F ∈ recFlds, F ∈ fs) :
    regsKeep fs d (d.raise c a b x y z) := regsKeep_mono (d.recOnly_raise c a b x y z).2 h

/-! ## Submissions (R400, R402) -/

/-- A submission moves to the queue while it has room: the mailbox is empty and free again. -/
theorem Dev.mbxMove_queues (d : Dev) (h15 : (tfind d.hst.mbx 15).isSome = true) (hf : d.hst.free = false)
    (hr : d.hst.resetWait = none) (hq : d.hst.queued < 16) (hk : d.hst.known 0 (d.hst.word 1) = none) :
    d.mbxMove = { d with hst := { d.hst with
      mbx := []
      free := true
      queue := d.hst.queue ++ [⟨0, (d.hst.word 0).toNat % 256, d.hst.word 1, (upTo 16).map d.hst.word, mbxVerdict ((upTo 16).map d.hst.word)⟩]
      remembered := rememberPut d.hst.remembered ⟨0, d.hst.word 1, none⟩ } } := by
  have e0 : ((upTo 16).map d.hst.word).getD 0 0 = d.hst.word 0 := rfl
  have e1 : ((upTo 16).map d.hst.word).getD 1 0 = d.hst.word 1 := rfl
  simp only [Dev.mbxMove, e0, e1, h15, hf, hr, hq, hk]
  rfl

/-- Without a written word 15, with the mailbox free, or with the queue full, nothing moves. -/
theorem Dev.mbxMove_waits (d : Dev) (h : (tfind d.hst.mbx 15).isSome = false ∨ d.hst.free = true ∨ 16 ≤ d.hst.queued) : d.mbxMove = d := by
  unfold Dev.mbxMove
  rw [if_neg]
  rcases h with h | h | h
  · simp [h]
  · simp [h]
  · simp [Nat.not_lt.mpr h]

/-! ## Finished commands (R402, R403) -/

/-- Finishing a command changes the host interface, and records an event for each duplicate that waited for it. -/
theorem Dev.finishDup_frame (d : Dev) (c : Cmd) (res : Nat) (val : DWord) :
    d.finishDup c res val = { d with
      regs := (d.finishDup c res val).regs
      evr := (d.finishDup c res val).evr
      hst := d.hst.addFinished (opLane c.op) ⟨c.tag, c.op, res, true, val⟩ } ∧ regsKeep recFlds d (d.finishDup c res val) := by
  refine ⟨?_, fun G hG => ?_⟩
  · unfold Dev.finishDup Dev.raiseDup
    conv => lhs; rw [Dev.raise_eq]
  · unfold Dev.finishDup Dev.raiseDup
    exact (Dev.get_raise _ _ _ _ _ _ _ G hG)

theorem Dev.finishDups_frame (l : List Cmd) (res : Nat) (val : DWord) : ∀ d : Dev,
    let d' := l.foldl (fun (d : Dev) c => d.finishDup c res val) d
    d' = { d with regs := d'.regs, evr := d'.evr, hst := d'.hst } ∧ regsKeep recFlds d d' := by
  induction l with
  | nil => intro d; exact ⟨rfl, fun _ _ => rfl⟩
  | cons c l ih =>
    intro d
    obtain ⟨h1, k1⟩ := d.finishDup_frame c res val
    rw [List.foldl_cons]
    generalize d.finishDup c res val = e at h1 k1
    obtain ⟨h2, k2⟩ := ih e
    refine ⟨?_, regsKeep_trans k1 k2⟩
    generalize List.foldl (fun (d : Dev) c => d.finishDup c res val) e l = x at h2
    rw [h2, h1]

/-- A command that finishes changes the host interface alone, beside the events of its duplicates. -/
theorem Dev.finish_frame (d : Dev) (l : Lane) (op : Nat) (tag : Word) (res : Nat) (val : DWord) :
    let d' := d.finish l op tag res val
    d' = { d with regs := d'.regs, evr := d'.evr, hst := d'.hst } ∧ regsKeep recFlds d d' := by
  unfold Dev.finish
  exact Dev.finishDups_frame _ res val _

/-- Without a duplicate waiting for it, a command that finishes records nothing. -/
theorem Dev.finish_noDup (d : Dev) (l : Lane) (op : Nat) (tag : Word) (res : Nat) (val : DWord)
    (h : d.hst.dupWait.filter (fun c => c.tag == tag) = []) :
    d.finish l op tag res val = { d with hst := (d.finish l op tag res val).hst } := by
  unfold Dev.finish
  simp only [h, List.foldl_nil]

/-! ## Commands in their lanes (R401) -/

/-- A command that may not run now has no effect. -/
theorem State.command_waits (s : State) (l : Lane) (op : Nat) (tag : Word) (body : State → State × Res × DWord)
    (h : s.dev.mayRun l op tag = false) : s.command l op tag body = s := by
  simp [State.command, h]

/-- A command that may run while HALTED, but for NOP and HST_RESET, completes STATE. -/
theorem State.command_halted (s : State) (l : Lane) (op : Nat) (tag : Word) (body : State → State × Res × DWord)
    (h : s.dev.mayRun l op tag = true) (hs : s.dev.sys.sup = .halted) (h1 : op ≠ 1) (h2 : op ≠ 2) :
    s.command l op tag body = s.onDev (fun d => d.finish l op tag Res.state.code 0) := by
  simp [State.command, h, hs, h1, h2]

/-- A command that may run has its body's effect, and finishes with its result. -/
theorem State.command_runs (s : State) (l : Lane) (op : Nat) (tag : Word) (body : State → State × Res × DWord)
    (h : s.dev.mayRun l op tag = true) (hs : s.dev.sys.sup ≠ .halted) :
    s.command l op tag body = (body s).1.onDev (fun d => d.finish l op tag (body s).2.1.code (body s).2.2) := by
  simp [State.command, h, hs]

/-- A command whose body keeps the queue of waiting commands keeps it. -/
theorem State.command_pending (s : State) (l : Lane) (op : Nat) (tag : Word) (body : State → State × Res × DWord)
    (h : (body s).1.pending = s.pending) : (s.command l op tag body).pending = s.pending := by
  unfold State.command
  split
  · split
    · rfl
    · exact h
  · rfl

/-- A command whose body keeps the canonical form of DRAM keeps it. -/
theorem State.command_wf (s : State) (l : Lane) (op : Nat) (tag : Word) (body : State → State × Res × DWord)
    (hs : s.mem.wf = true) (h : (body s).1.mem.wf = true) : (s.command l op tag body).mem.wf = true := by
  unfold State.command
  split
  · split
    · exact hs
    · exact h
  · exact hs

end Sys2Proof.Machine
end

