-- ==== Sys2Proof/Laws/Queue.lean ====
section
/-! SUPPORT. What a row's effect on the device and its DRAM writes can do to the queue of waiting commands and to memory: nothing to the queue,
and memory keeps its canonical form. -/

namespace Sys2Proof.Machine

/-- One part of a write leaves the waiting commands alone. -/
@[simp] theorem State.writePart_pending (src : Nat) (s : State) (x : Nat × List Byte) : (State.writePart src s x).pending = s.pending := by
  unfold State.writePart
  split <;> rfl

/-- One part of a write keeps memory's canonical form. -/
theorem State.writePart_wf (src : Nat) (s : State) (x : Nat × List Byte) (h : s.mem.wf = true) : (State.writePart src s x).mem.wf = true := by
  unfold State.writePart
  split
  · exact h
  · exact Dram.writeBytes_wf s.mem x.1 x.2 h

/-- One part of a write changes no byte outside its range. -/
theorem State.writePart_read (src k : Nat) (s : State) (x : Nat × List Byte) (h : ¬(x.1 ≤ k ∧ k < x.1 + x.2.length)) :
    (State.writePart src s x).mem.read k = s.mem.read k := by
  unfold State.writePart
  split
  · rfl
  · dsimp only
    rw [Dram.writeBytes_read, if_neg h]

/-- The parts of a write, one after the other, leave the waiting commands alone. -/
theorem State.writeParts_pending (src : Nat) (l : List (Nat × List Byte)) : ∀ s : State,
    (l.foldl (State.writePart src) s).pending = s.pending := by
  induction l with
  | nil => exact fun _ => rfl
  | cons x l ih => intro s; rw [List.foldl_cons, ih, State.writePart_pending]

/-- The parts of a write, one after the other, keep memory's canonical form. -/
theorem State.writeParts_wf (src : Nat) (l : List (Nat × List Byte)) : ∀ s : State, s.mem.wf = true →
    (l.foldl (State.writePart src) s).mem.wf = true := by
  induction l with
  | nil => exact fun _ h => h
  | cons x l ih => intro s h; rw [List.foldl_cons]; exact ih _ (State.writePart_wf src s x h)

/-- The parts of a write, one after the other, change no byte outside their ranges. -/
theorem State.writeParts_read (src k : Nat) (l : List (Nat × List Byte)) : ∀ s : State,
    (∀ x ∈ l, ¬(x.1 ≤ k ∧ k < x.1 + x.2.length)) → (l.foldl (State.writePart src) s).mem.read k = s.mem.read k := by
  induction l with
  | nil => exact fun _ _ => rfl
  | cons x l ih =>
    intro s h
    rw [List.foldl_cons, ih _ (fun y hy => h y (List.mem_cons_of_mem x hy)), State.writePart_read src k s x (h x (List.mem_cons_self ..))]

/-- A part cut off a write lies within it. -/
theorem cutAt_within {c : Nat} {x y : Nat × List Byte} (h : y ∈ cutAt c x) : x.1 ≤ y.1 ∧ y.1 + y.2.length ≤ x.1 + x.2.length := by
  unfold cutAt at h
  split at h
  · rename_i hc
    simp only [Bool.and_eq_true, decide_eq_true_eq] at hc
    simp only [List.mem_cons, List.not_mem_nil, or_false] at h
    (obtain rfl | rfl := h <;> simp)
    omega
  · simp only [List.mem_cons, List.not_mem_nil, or_false] at h
    subst h
    exact ⟨Nat.le_refl _, Nat.le_refl _⟩

/-- The parts of a write lie within it. -/
theorem cutAll_within {cs : List Nat} {x y : Nat × List Byte} (h : y ∈ cutAll cs x) : x.1 ≤ y.1 ∧ y.1 + y.2.length ≤ x.1 + x.2.length := by
  have key : ∀ (cs : List Nat) (l : List (Nat × List Byte)),
      (∀ y ∈ l, x.1 ≤ y.1 ∧ y.1 + y.2.length ≤ x.1 + x.2.length) →
      ∀ y ∈ cs.foldl (fun l c => l.flatMap (cutAt c)) l, x.1 ≤ y.1 ∧ y.1 + y.2.length ≤ x.1 + x.2.length := by
    intro cs
    induction cs with
    | nil => exact fun _ hl => hl
    | cons c cs ih =>
      intro l hl
      refine ih _ (fun y hy => ?_)
      obtain ⟨z, hz, hy⟩ := List.mem_flatMap.mp hy
      have h1 := hl z hz
      have h2 := cutAt_within hy
      omega
  exact key cs [x] (fun y hy => by rw [List.mem_singleton.mp hy]; exact ⟨Nat.le_refl _, Nat.le_refl _⟩) y h

/-- A DRAM write of a block leaves the waiting commands alone. -/
@[simp] theorem State.dramWrite_pending (s : State) (src a : Nat) (bs : List Byte) :
    (s.dramWrite src a bs).1.pending = s.pending := by
  unfold State.dramWrite
  split
  · rfl
  · split
    · exact State.writeParts_pending src _ s
    · rfl

/-- A DRAM write of a block keeps memory's canonical form. -/
theorem State.dramWrite_wf (s : State) (src a : Nat) (bs : List Byte) (h : s.mem.wf = true) :
    (s.dramWrite src a bs).1.mem.wf = true := by
  unfold State.dramWrite
  split
  · exact h
  · split
    · exact State.writeParts_wf src _ s h
    · exact Dram.writeBytes_wf s.mem a bs h

/-- A DRAM write of a block changes no byte outside its range. -/
theorem State.dramWrite_read (s : State) (src a k : Nat) (bs : List Byte) (h : ¬(a ≤ k ∧ k < a + bs.length)) :
    (s.dramWrite src a bs).1.mem.read k = s.mem.read k := by
  unfold State.dramWrite
  split
  · rfl
  · split
    · exact State.writeParts_read src k _ s (fun x hx hk => h (by have := cutAll_within hx; dsimp only at this; omega))
    · dsimp only
      rw [Dram.writeBytes_read, if_neg h]

/-- Queued DRAM writes, one after the other, leave the waiting commands alone. -/
theorem State.writes_pending (l : List MemWr) : ∀ t : State,
    (l.foldl (fun s w => (s.dramWrite w.src w.addr w.data).1) t).pending = t.pending := by
  induction l with
  | nil => exact fun _ => rfl
  | cons w l ih => intro t; rw [List.foldl_cons, ih, State.dramWrite_pending]

/-- Queued DRAM writes, one after the other, keep memory's canonical form. -/
theorem State.writes_wf (l : List MemWr) : ∀ t : State, t.mem.wf = true →
    (l.foldl (fun s w => (s.dramWrite w.src w.addr w.data).1) t).mem.wf = true := by
  induction l with
  | nil => exact fun _ ht => ht
  | cons w l ih =>
    intro t ht
    rw [List.foldl_cons]
    exact ih _ (State.dramWrite_wf t w.src w.addr w.data ht)

/-- The writes of a row leave the waiting commands alone. -/
@[simp] theorem State.flushWr_pending (s : State) : s.flushWr.pending = s.pending :=
  State.writes_pending s.dev.wq (s.onDev (fun d => { d with wq := [] }))

/-- The writes of a row keep memory's canonical form. -/
theorem State.flushWr_wf (s : State) (h : s.mem.wf = true) : s.flushWr.mem.wf = true := by
  have e : (s.onDev (fun d => { d with wq := [] })).mem = s.mem := rfl
  exact State.writes_wf s.dev.wq _ (e ▸ h)

@[simp] theorem State.runDev_pending (s : State) (f : Dev → Dram → Dev) : (s.runDev f).pending = s.pending :=
  State.flushWr_pending (s.settled.onDev (fun d => f d s.mem))

theorem State.runDev_wf (s : State) (f : Dev → Dram → Dev) (h : s.mem.wf = true) : (s.runDev f).mem.wf = true := by
  have e : (s.settled.onDev (fun d => f d s.mem)).mem = s.mem := rfl
  exact State.flushWr_wf _ (e ▸ h)

/-- A row that forms no DRAM write changes the device alone. -/
theorem State.runDev_noWrites (s : State) (f : Dev → Dram → Dev) (h : (f s.settled.dev s.mem).wq = []) :
    s.runDev f = { s with dev := f s.settled.dev s.mem } := by
  have k : ∀ d : Dev, d.wq = [] → State.flushWr { s with dev := d } = { s with dev := d } := by
    intro d hd
    unfold State.flushWr State.onDev
    dsimp only
    rw [hd, List.foldl_nil, ← hd]
  exact k (f s.settled.dev s.mem) h

end Sys2Proof.Machine
end

