-- ==== Sys2Proof/Machine/Package.lean ====
section
/-! DEFINITION. The ball field: its rows, its regions, and the blocks of the beam ports with their supply balls (17_electrical_package.md R416 to
R418). -/

namespace Sys2Proof.Machine

/-- The letters of a row (R416): I, O, Q, R, S, X and Z are not used. -/
def ballLetters : List String := ["A", "B", "C", "D", "E", "F", "G", "H", "J", "K", "L", "M", "N", "P", "T", "U", "V", "W", "Y"]

/-- The 54 rows in the order of R416. -/
def ballRows : List String :=
  ballLetters ++ ballLetters.map (fun c => "A" ++ c) ++ (ballLetters.take 16).map (fun c => "B" ++ c)

/-- The pins of a beam port (R418). -/
inductive BeamPin where
  | sloClkP | sloClkN | sloDatP | sloDatN | emitEn | sliAP | sliAN | lsrOk | sliBP | sliBN | modP | modN | bref | dacP | dacN | pdRtn
  | pd0 | pd1 | tin0P | tin0N | tin1P | tin1N | vss1 | vss4
  deriving DecidableEq, Repr

/-- The block of a beam port (R418): eight rows of three balls. -/
def beamBlock : List (List BeamPin) :=
  [[.sloClkP, .sloClkN, .vss1], [.sloDatP, .sloDatN, .emitEn], [.sliAP, .sliAN, .lsrOk], [.sliBP, .sliBN, .vss4],
   [.modP, .modN, .bref], [.dacP, .dacN, .pdRtn], [.pd0, .pd1, .tin0P], [.tin0N, .tin1P, .tin1N]]

/-- The ball of a pin of port n (R418): its row, from AU or BE, and its column. -/
def portBall (n : Nat) (x : BeamPin) : Option (String × Nat) :=
  let m := n % 16
  let r := beamBlock.findIdx (fun l => l.contains x)
  let c := ((beamBlock.getD r []).findIdx (· == x))
  (ballRows[(if n < 16 then 34 else 42) + r]?).map (fun s => (s, (if m < 8 then 3 * m + 1 else 3 * m + 7) + c))

/-- The supply rails (R422). -/
inductive Rail where
  | core | sram | vddq | io | ana | edge | hv
  deriving DecidableEq, Repr

/-- The rail of the supply ball in a beam band's row 1 to 8 and column 25 to 30 (R418): 16 balls of VDD_IO, then 16 of VDD_EDGE, then 16 of
VDD_ANA, row by row. -/
def bandSupply (row col : Nat) : Option Rail :=
  if row < 1 || 8 < row || col < 25 || 30 < col then none
  else some (match (6 * (row - 1) + (col - 25)) / 16 with
    | 0 => .io
    | 1 => .edge
    | _ => .ana)

/-- A region of the ball field (R417): its rows by their place in ballRows and its columns by number, both ends included, the balls that
signals occupy, its supply balls and its VSS balls. -/
structure BallRegion where
  name : String
  rowLo : Nat
  rowHi : Nat
  colLo : Nat
  colHi : Nat
  signals : Nat
  supply : List (Rail × Nat)
  vss : Nat
  deriving DecidableEq, Repr

/-- How many balls a region has. -/
def BallRegion.balls (r : BallRegion) : Nat := (r.rowHi + 1 - r.rowLo) * (r.colHi + 1 - r.colLo)

/-- The regions of R417. -/
def ballRegions : List BallRegion :=
  [⟨"1a DDR channel 0", 0, 7, 1, 27, 160, [(.vddq, 24)], 32⟩,
   ⟨"1b DDR channel 1", 0, 7, 28, 54, 160, [(.vddq, 24)], 32⟩,
   ⟨"2a PCIe and HRDY", 8, 12, 1, 27, 36, [(.ana, 8), (.edge, 1)], 90⟩,
   ⟨"2b Gorwin Link and Ethernet", 8, 12, 28, 54, 40, [(.ana, 8)], 87⟩,
   ⟨"3a Cameras", 13, 33, 1, 8, 80, [(.ana, 12)], 76⟩,
   ⟨"3b System and GPF", 13, 33, 47, 54, 63, [(.io, 16)], 89⟩,
   ⟨"4 Core supply", 13, 33, 9, 46, 0, [(.core, 300), (.sram, 60)], 438⟩,
   ⟨"5a Beam ports 0 to 15", 34, 41, 1, 54, 352, [(.io, 16), (.edge, 16), (.ana, 16)], 32⟩,
   ⟨"5b Beam ports 16 to 31", 42, 49, 1, 54, 352, [(.io, 16), (.edge, 16), (.ana, 16)], 32⟩,
   ⟨"5c General edge pins", 50, 53, 1, 54, 127, [(.hv, 24), (.edge, 8)], 57⟩]

/-- The region in which a ball lies (R417). -/
def regionOf (row col : Nat) : Option BallRegion :=
  ballRegions.find? (fun r => decide (r.rowLo ≤ row ∧ row ≤ r.rowHi ∧ r.colLo ≤ col ∧ col ≤ r.colHi))

end Sys2Proof.Machine
end

