-- ==== Sys2Proof/Machine/Electrical.lean ====
section
/-! DEFINITION. The figures of 17_electrical_package.md as tables and predicates: signal groups (R419), unpowered pins (R421), supply rails and
their monitors (R422 to R424), ratings (R425), DC and AC limits (R426, R427), heat (R429), package, board and ordering (R430 to R432). They are
conditions on the rows that the sender sends (RESET, BOARD_POWER and the like); no command computes with them (log entry 112). -/

namespace Sys2Proof.Machine

/-! ## Figures -/

/-- The units of the figures. -/
inductive ElUnit where
  | uV | mV | uA | mA | ohm | pF | nF | code | hundredthPct | ppm | ps | ns | Hz | dB | uC | mm100 | newton | gram
  deriving DecidableEq, Repr

/-- A row of a table of limits: what it is of, its unit, and its minimum, typical value and maximum where the table gives them. -/
structure Limit where
  item : String
  what : String
  unit : ElUnit
  min : Option Int
  typ : Option Int
  max : Option Int
  deriving DecidableEq, Repr

/-- A value lies within a limit. -/
def Limit.holds (l : Limit) (x : Int) : Bool := l.min.all (fun a => decide (a ≤ x)) && l.max.all (fun b => decide (x ≤ b))

/-! ## Signals (R419, R421) -/

/-- A group of signals outside the beam ports (R419): its region, its signals and how many balls they take. -/
structure SigGroup where
  region : String
  name : String
  signals : String
  balls : Nat
  level : String
  deriving DecidableEq, Repr

/-- The signal groups of R419. -/
def sigGroups : List SigGroup :=
  [⟨"1a", "DDR channel 0", "DQ 80, DQS pairs 20, CA 14 and CS_N 2 and CK pair and ALERT_N per subchannel, DRAM_RESET_N, DDR0_CAL", 160, "JESD79-5, VDDQ"⟩,
   ⟨"1b", "DDR channel 1", "DQ 80, DQS pairs 20, CA 14 and CS_N 2 and CK pair and ALERT_N per subchannel, DRAM_RESET_N, DDR1_CAL", 160, "JESD79-5, VDDQ"⟩,
   ⟨"2a", "PCIe", "PET pairs 0 to 7, PER pairs 0 to 7, PCIE_REFCLK pair, PERST_N", 35, "PCIe Base 4.0; PERST_N 3.3 V, VDD_EDGE"⟩,
   ⟨"2a", "HRDY", "HRDY", 1, "3.3 V push-pull, VDD_EDGE"⟩,
   ⟨"2b", "Gorwin Link", "GLKp_TX and GLKp_RX pairs of 4 ports and 2 lanes", 32, "25.78125 Gb/s SerDes, VDD_ANA and VDD_CORE"⟩,
   ⟨"2b", "Ethernet", "ETHp_TX and ETHp_RX pairs of 2 ports", 8, "1000BASE-X or 10GBASE-R SerDes"⟩,
   ⟨"3a", "Cameras", "CAMm_CLK pair and CAMm_D pairs 0 to 3 of 8 cameras", 80, "D-PHY receiver, VDD_ANA"⟩,
   ⟨"3b", "Reference and reset", "REFCLK, RESET_N, TEST_EN", 3, "1.8 V LVCMOS, VDD_IO"⟩,
   ⟨"3b", "QSPI", "QSPI_SCLK, QSPI_CS0_N, QSPI_CS1_N, QSPI_IO0 to 3", 7, "1.8 V LVCMOS"⟩,
   ⟨"3b", "Boundary scan", "TCK, TMS, TDI, TDO, TRST_N", 5, "1.8 V LVCMOS"⟩,
   ⟨"3b", "General function", "GPF0 to GPF47", 48, "1.8 V LVCMOS"⟩,
   ⟨"5c", "General temperature inputs", "TIN64 to TIN79 pairs", 32, "Analogue, VDD_ANA"⟩,
   ⟨"5c", "Encoders", "QEe_A, QEe_B and QEe_Z pairs of 8 inputs", 48, "RS-422 receiver, VDD_HV"⟩,
   ⟨"5c", "Auxiliary axes", "AXDAC0 to AXDAC3, AXREF", 5, "Analogue, VDD_ANA"⟩,
   ⟨"5c", "Lighting", "LED_LINE0 to 15, LED_COL0 to 23, LED_ISNS pair", 42, "6 V tolerant, VDD_HV"⟩]

/-- The balls that the signals of a region take. -/
def regionSignals (r : String) : Nat := (sigGroups.filter (fun g => g.region == r)).foldl (fun n g => n + g.balls) 0

/-- What a pin draws while a rail is absent, and what a DAC leg shows behind its closed clamp into 1 kΩ or more (R421). -/
def unpoweredLimits : List Limit :=
  [⟨"Input or high-impedance output", "current, any rail absent", .uA, none, none, some 10⟩,
   ⟨"DACn leg", "voltage, clamp closed", .mV, none, none, some 50⟩]

/-! ## Supply rails (R422 to R424) -/

/-- A rail (R422): voltages in µV, currents in mA, noise in mV peak to peak where the table gives a figure (VDDQ follows JESD79-5). -/
structure RailSpec where
  name : String
  nominal : Int
  opLo : Int
  opHi : Int
  monLo : Int
  monHi : Int
  maxMa : Nat
  typMa : Nat
  noiseMv : Option Nat
  deriving DecidableEq, Repr

/-- The rails of R422. -/
def Rail.spec : Rail → RailSpec
  | .core => ⟨"VDD_CORE", 750000, 727500, 772500, 700000, 800000, 62000, 36000, some 10⟩
  | .sram => ⟨"VDD_SRAM", 800000, 776000, 824000, 745000, 855000, 8000, 3500, some 10⟩
  | .vddq => ⟨"VDDQ", 1100000, 1067000, 1133000, 1030000, 1170000, 6000, 2500, none⟩
  | .io => ⟨"VDD_IO", 1800000, 1710000, 1890000, 1650000, 1950000, 3000, 900, some 30⟩
  | .ana => ⟨"VDD_ANA", 1800000, 1746000, 1854000, 1680000, 1920000, 2000, 800, some 5⟩
  | .edge => ⟨"VDD_EDGE", 3300000, 3135000, 3465000, 3050000, 3550000, 2000, 600, some 30⟩
  | .hv => ⟨"VDD_HV", 5000000, 4750000, 5250000, 4600000, 5400000, 500, 80, some 50⟩

/-- The rails in the table's order. -/
def rails : List Rail := [.core, .sram, .vddq, .io, .ana, .edge, .hv]

/-- A rail is valid: it lies within its operating range (R422). -/
def Rail.valid (r : Rail) (uv : Int) : Bool := decide (r.spec.opLo ≤ uv ∧ uv ≤ r.spec.opHi)

/-- A rail lies within its monitor window (R422). -/
def Rail.watched (r : Rail) (uv : Int) : Bool := decide (r.spec.monLo ≤ uv ∧ uv ≤ r.spec.monHi)

/-- The brownout reset acts: a rail has been outside its monitor window for more than 10 µs (R406, R422). -/
def Rail.brownout (r : Rail) (uv : Int) (ns : Nat) : Bool := !r.watched uv && decide (10000 < ns)

/-- The load step of VDD_CORE within which it stays in its operating range (R422): mA and ns. -/
def coreLoadStep : Nat × Nat := (25000, 2000)

/-- A rail's rise from 10 % to 90 % takes 0.2 ms to 50 ms (R423). -/
def rampOk (us : Nat) : Bool := decide (200 ≤ us ∧ us ≤ 50000)

/-- The board may release RESET_N: every rail has been valid for 1 ms, and REFCLK has run for that time (R423); times in µs. -/
def releaseOk (validUs : Rail → Nat) (refclkUs : Nat) : Bool := rails.all (fun r => decide (1000 ≤ validUs r)) && decide (1000 ≤ refclkUs)

/-- A low pulse of RESET_N of ns nanoseconds resets, or is ignored (R427); between the two limits the table says neither. -/
def resetPulse (ns : Nat) : Option Bool := if 10000 ≤ ns then some true else if ns ≤ 1000 then some false else none

/-- The most that the control die, the edge die and the whole package dissipate, in mW (R424). -/
def powerLimits : Nat × Nat × Nat := (46000, 9000, 58000)

/-- The typical power of a rail with 32 beams exposing, in mW (R424). -/
def Rail.typMw (r : Rail) : Nat := r.spec.nominal.toNat * r.spec.typMa / 1000000

/-- The typical power of the package, in mW (R424). -/
def typicalMw : Nat := rails.foldl (fun n r => n + r.typMw) 0

/-- What a column sink dissipates, in µW: its current in mA times the voltage at its ball in mV (R424). It counts towards the edge die's limit. -/
def sinkUw (ma mv : Nat) : Nat := ma * mv

/-! ## Ratings and limits (R425 to R427) -/

/-- The absolute maximum ratings (R425). They hold in every power state. -/
def ratings : List Limit :=
  [⟨"VDD_CORE", "voltage", .mV, some (-300), none, some 900⟩,
   ⟨"VDD_SRAM", "voltage", .mV, some (-300), none, some 950⟩,
   ⟨"VDDQ", "voltage", .mV, some (-300), none, some 1400⟩,
   ⟨"VDD_IO, VDD_ANA", "voltage", .mV, some (-300), none, some 2200⟩,
   ⟨"VDD_EDGE", "voltage", .mV, some (-300), none, some 4000⟩,
   ⟨"VDD_HV", "voltage", .mV, some (-300), none, some 6000⟩,
   ⟨"1.8 V LVCMOS, LVDS, PDc, PD_RTNn, BREFn, TINt, DACn, AXDACa, AXREF", "voltage", .mV, some (-300), none, some 2200⟩,
   ⟨"EMIT_ENn, LSR_OKn, HRDY, PERST_N", "voltage", .mV, some (-500), none, some 5500⟩,
   ⟨"QEe lines", "voltage", .mV, some (-1000), none, some 6000⟩,
   ⟨"LED_LINEl, LED_COLc, LED_ISNS", "voltage", .mV, some (-300), none, some 6500⟩,
   ⟨"Any signal pin", "injected current", .mA, some (-10), none, some 10⟩,
   ⟨"Any pin but SerDes and D-PHY", "ESD, human-body model", .mV, some (-2000000), none, some 2000000⟩,
   ⟨"SerDes and D-PHY pins", "ESD, human-body model", .mV, some (-1000000), none, some 1000000⟩,
   ⟨"Any pin", "ESD, charged-device model", .mV, some (-250000), none, some 250000⟩,
   ⟨"Junction", "temperature", .uC, none, none, some 150000000⟩,
   ⟨"Storage", "temperature", .uC, some (-55000000), none, some 125000000⟩]

/-- The outputs that stand a short to VSS or to each other without end (R425). -/
def shortProof : List String := ["DACn", "AXDACa", "AXREF"]

/-- DC limits of the digital pins (R426). -/
def dcDigital : List Limit :=
  [⟨"LVDS outputs", "differential output, 100 Ω load", .mV, some 250, some 350, some 450⟩,
   ⟨"LVDS outputs", "offset voltage", .mV, some 1125, some 1200, some 1375⟩,
   ⟨"LVDS inputs", "differential input", .mV, some 100, none, some 600⟩,
   ⟨"LVDS inputs", "common-mode input", .mV, some 300, none, some 1600⟩,
   ⟨"LVDS inputs", "internal termination, differential", .ohm, some 85, some 100, some 115⟩,
   ⟨"EMIT_ENn, HRDY", "output high at -8 mA", .mV, some 2900, none, none⟩,
   ⟨"EMIT_ENn, HRDY", "output low at +8 mA", .mV, none, none, some 400⟩,
   ⟨"LSR_OKn, PERST_N", "input high", .mV, some 2000, none, none⟩,
   ⟨"LSR_OKn, PERST_N", "input low", .mV, none, none, some 800⟩,
   ⟨"1.8 V LVCMOS", "input high", .mV, some 1170, none, none⟩,
   ⟨"1.8 V LVCMOS", "input low", .mV, none, none, some 630⟩,
   ⟨"1.8 V LVCMOS", "output high at -4 mA", .mV, some 1350, none, none⟩,
   ⟨"1.8 V LVCMOS", "output low at +4 mA", .mV, none, none, some 450⟩,
   ⟨"TMS, TDI", "internal pull-up", .ohm, none, some 50000, none⟩,
   ⟨"QEe lines", "differential threshold", .mV, some (-200), none, some 200⟩,
   ⟨"QEe lines", "hysteresis", .mV, none, some 50, none⟩,
   ⟨"QEe lines", "common-mode input", .mV, some (-500), none, some 5500⟩,
   ⟨"QEe lines", "input resistance, each line", .ohm, some 12000, none, none⟩,
   ⟨"LED_LINEl", "sink current at 0.4 V", .mA, some 10, none, none⟩,
   ⟨"All inputs and high-impedance outputs", "leakage", .uA, none, none, some 10⟩]

/-- DC limits of the analogue pins (R426). -/
def dcAnalogue : List Limit :=
  [⟨"DACn", "common-mode voltage", .mV, some 980, some 1000, some 1020⟩,
   ⟨"DACn", "differential output", .mV, some 0, none, some 2000⟩,
   ⟨"DACn", "load, differential", .ohm, some 1000, none, none⟩,
   ⟨"DACn", "load capacitance", .pF, none, none, some 100⟩,
   ⟨"DACn", "gain error after calibration, of full scale", .hundredthPct, some (-10), none, some 10⟩,
   ⟨"PDc", "input voltage", .mV, some 880, some 900, some 920⟩,
   ⟨"PDc", "source capacitance, RANGE 3", .pF, none, none, some 200⟩,
   ⟨"PDc", "noise, dark, RANGE 2, rms", .code, none, some 3, none⟩,
   ⟨"PD_RTNn", "guard voltage, at most 1 mA drawn", .mV, some 880, some 900, some 920⟩,
   ⟨"BREFn", "input", .mV, some 0, none, some 2000⟩,
   ⟨"BREFn", "input resistance", .ohm, some 100000, none, none⟩,
   ⟨"TINt remote diode", "excitation currents 10, 50 and 100 µA", .hundredthPct, some (-200), none, some 200⟩,
   ⟨"TINt remote diode", "accuracy, calibrated and with its ideality set", .uC, some (-500000), none, some 500000⟩,
   ⟨"TINt remote diode", "capacitance", .pF, none, none, some 2200⟩,
   ⟨"TINt thermistor", "internal reference", .ohm, some 9990, some 10000, some 10010⟩,
   ⟨"TINt thermistor", "measurable resistance", .ohm, some 10, none, some 150000⟩,
   ⟨"AXDACa", "output", .mV, some 250, none, some 2750⟩,
   ⟨"AXDACa", "error at the ball", .mV, some (-2), none, some 2⟩,
   ⟨"AXDACa", "load", .ohm, some 10000, none, none⟩,
   ⟨"AXREF", "voltage, at most 1 mA drawn", .mV, some 1497, some 1500, some 1503⟩,
   ⟨"LED_COLc", "sink current", .mA, some 0, none, some 100⟩,
   ⟨"LED_COLc", "accuracy, of setting", .hundredthPct, some (-300), none, some 300⟩,
   ⟨"LED_COLc", "accuracy, added", .uA, some (-500), none, some 500⟩,
   ⟨"LED_COLc", "compliance at 100 mA", .mV, some 500, none, some 6000⟩,
   ⟨"LED_ISNS", "differential", .mV, some 0, none, some 200⟩,
   ⟨"LED_ISNS", "line trip threshold, 0.050 Ω sense", .mV, none, some 130, none⟩]

/-- The voltage at an AXDACa ball for a code, in µV (R426): AXREF at its typical value plus code / 32,767 of 1.250 V. -/
def axdacUv (code : Int) : Frac := fracAdd (fracI 1500000) (frac (code * 1250000) 32767)

/-- The output of the board's axis buffer for a code, in µV: the difference from AXREF times the gain of 8 (R286, R426, R431). -/
def axisBufferUv (code : Int) : Frac := fracMul (fracI 8) (fracSub (axdacUv code) (fracI 1500000))

/-- AC limits (R427). -/
def acLimits : List Limit :=
  [⟨"REFCLK", "frequency", .Hz, some 24999500, some 25000000, some 25000500⟩,
   ⟨"REFCLK", "phase jitter, 12 kHz to 5 MHz, rms", .ps, none, none, some 1⟩,
   ⟨"REFCLK", "duty cycle", .hundredthPct, some 4500, none, some 5500⟩,
   ⟨"PCIE_REFCLK", "frequency, HCSL to PCIe Base 4.0", .Hz, none, some 100000000, none⟩,
   ⟨"RESET_N", "low pulse that resets", .ns, some 10000, none, none⟩,
   ⟨"RESET_N", "low pulse that is ignored", .ns, none, none, some 1000⟩,
   ⟨"SLO_CLKn", "frequency", .Hz, none, some 100000000, none⟩,
   ⟨"SLO_CLKn", "duty cycle", .hundredthPct, some 4500, none, some 5500⟩,
   ⟨"SLO_CLKn", "rise and fall", .ps, some 300, none, some 1000⟩,
   ⟨"SLO_DATn", "transition from SLO_CLKn falling edge", .ps, some (-500), none, some 500⟩,
   ⟨"SLI lanes", "arrival window", .ns, some 0, none, some 400⟩,
   ⟨"SLI lanes", "eye width at the balls", .ps, some 2500, none, none⟩,
   ⟨"MODn", "unit interval", .ns, none, some 5, none⟩,
   ⟨"MODn", "total jitter, peak to peak", .ps, none, none, some 250⟩,
   ⟨"EMIT_ENn", "rise and fall", .ps, some 1000, none, some 3000⟩,
   ⟨"EMIT_ENn", "edge placement error", .ps, some (-500), none, some 500⟩,
   ⟨"EMIT_ENn", "skew between ports of one device", .ps, none, none, some 2000⟩,
   ⟨"DACn", "settling to 0.1 % of full scale", .ns, none, none, some 150⟩,
   ⟨"QEe lines", "count rate", .Hz, none, none, some 50000000⟩,
   ⟨"QEe lines", "separation of A and B edges", .ns, some 20, none, none⟩,
   ⟨"GPF outputs", "rise and fall", .ps, none, none, some 2000⟩,
   ⟨"QSPI", "SCLK", .Hz, none, none, some 104000000⟩,
   ⟨"QSPI", "output valid after SCLK falling", .ps, some 1000, none, some 6000⟩,
   ⟨"QSPI", "input setup at SCLK rising", .ps, some 2000, none, none⟩,
   ⟨"QSPI", "input hold at SCLK rising", .ps, some 1500, none, none⟩,
   ⟨"TCK", "frequency", .Hz, none, none, some 25000000⟩,
   ⟨"HRDY", "rise and fall into 30 pF", .ns, none, none, some 5⟩,
   ⟨"Gorwin Link", "line rate, from 25.78125 Gb/s", .ppm, some (-100), some 0, some 100⟩,
   ⟨"Gorwin Link", "transmit differential swing, peak to peak", .mV, some 800, none, some 1200⟩,
   ⟨"Gorwin Link", "channel loss at 12.89 GHz", .dB, none, none, some 25⟩]

/-- The bit error ratio of a Gorwin Link before the frame CRC is at most one in this many bits (R427). -/
def glkErrorRatio : Nat := 10 ^ 12

/-! ## Heat (R429) -/

/-- The case temperature in operation (R429). -/
def caseLimit : Limit := ⟨"Case", "temperature", .uC, some (-40000000), none, some 105000000⟩

/-- The junction of a die, in µ°C, at a case temperature, from its power in mW and its thermal resistance to the lid in m°C/W (R429). -/
def junctionUc (caseUc : Int) (mw mcPerW : Nat) : Int := caseUc + ((mw * mcPerW : Nat) : Int)

/-- The thermal resistances to the lid of the control die and of the edge die, in m°C/W (R429). -/
def thetaJC : Nat × Nat := (200, 1000)

/-- The case, in µ°C, with a heat sink of the given resistance in m°C/W from lid to air (R429). -/
def caseUc (airUc : Int) (mw mcPerW : Nat) : Int := airUc + ((mw * mcPerW : Nat) : Int)

/-- The largest resistance lid to air, in °C/W, that holds the case at its limit with the package at its power limit (R429). -/
def sinkMax (airC : Int) : Frac := fracDiv (fracSub (fracI 105) (fracI airC)) (fracI 58)

/-! ## Package, board and ordering (R430 to R432) -/

/-- The package's figures (R430); lengths in 0.01 mm, temperatures in µ°C. -/
def packageData : List Limit :=
  [⟨"Body", "each side", .mm100, some 5490, some 5500, some 5510⟩,
   ⟨"Height", "seating plane to lid top", .mm100, some 365, some 385, some 405⟩,
   ⟨"Balls", "pitch", .mm100, none, some 100, none⟩,
   ⟨"A1", "centre from the body centre on each axis", .mm100, none, some 2650, none⟩,
   ⟨"Balls", "diameter", .mm100, none, some 60, none⟩,
   ⟨"Balls", "height", .mm100, none, some 40, none⟩,
   ⟨"Balls", "coplanarity", .mm100, none, none, some 20⟩,
   ⟨"Lid", "flatness", .mm100, none, none, some 5⟩,
   ⟨"Lid", "static load, evenly spread", .newton, none, none, some 300⟩,
   ⟨"Package", "peak reflow", .uC, none, none, some 250000000⟩,
   ⟨"Package", "mass", .gram, none, some 28, none⟩]

/-- The package's properties that are no figures (R430). -/
def packageNotes : List (String × String) :=
  [("Ball alloy", "SAC305, lead-free"), ("Moisture sensitivity", "Level 3 of J-STD-020"),
   ("Marking", "Ordering code, silicon revision, date and lot code; A1 marked by a dot on the lid")]

/-- The board's parts (R431). -/
def boardParts : List Limit :=
  [⟨"EMIT_ENn, LSR_OKn, HRDY", "pull-down", .ohm, some 9500, some 10000, some 10500⟩,
   ⟨"EMIT_ENn", "voltage while undriven", .mV, none, none, some 100⟩,
   ⟨"QEe pairs", "termination at the device", .ohm, none, some 120, none⟩,
   ⟨"LVDS pairs", "differential impedance", .ohm, none, some 100, none⟩,
   ⟨"SLO_CLKn, SLO_DATn", "routing skew", .ps, some (-300), none, some 300⟩,
   ⟨"Gorwin Link and Ethernet transmitters", "series capacitance", .nF, none, some 100, none⟩,
   ⟨"LED lamp supply", "voltage", .mV, none, none, some 6000⟩,
   ⟨"LED sense resistor", "tolerance about 0.050 Ω", .hundredthPct, some (-100), none, some 100⟩,
   ⟨"LED column sinks", "voltage at full current", .mV, some 500, none, some 1200⟩,
   ⟨"Axis buffer", "gain error", .hundredthPct, some (-10), none, some 10⟩]

/-- What the board ties and pulls (R431): true high, false low. -/
def boardTies : List (String × Bool) :=
  [("EMIT_ENn", false), ("LSR_OKn", false), ("HRDY", false), ("DRAM_RESET_N", false), ("QSPI_CS0_N", true), ("QSPI_CS1_N", true),
   ("TRST_N", false), ("TCK", false), ("TEST_EN", false)]

/-- The longest cable of a Stringline head that should be used, and the longest Gorwin Link, in m (R431). -/
def cableLimits : Nat × Nat := (20, 5)

/-- The ordering code (R432): F29 the package of 2,916 balls, E the case range. -/
def Variant.orderCode : Variant → String
  | .ax32 => "AX32-F29E"
  | .ax16 => "AX16-F29E"

/-- The silicon revision and the packing of both codes (R432). -/
def orderNotes : String × String := ("B0", "Tray of 10, dry-packed")

end Sys2Proof.Machine
end

