-- ==== Sys2Proof/WellFormed.lean ====
section
/-! DEFINITION. Which commands are well formed: operands whose sizes the spec bounds and whose types do not
bound them already. -/

namespace Sys2Proof

/-- A configuration of R318: x4 devices in an RDIMM or on the board, one rank, 32 GB; x8 devices on the board, of 16 Gb in one or two ranks, of
24 Gb or of 32 Gb in one. -/
def TrainResult.supported (r : TrainResult) : Bool :=
  if r.x8 then !r.rdimm && [(false, 16), (true, 32), (false, 24), (false, 32)].contains (r.tworanks, r.capGb)
  else !r.tworanks && r.capGb == 32

/-- The check belongs to the slice's type (R366). -/
def Slice.checks : Slice → SliceCheck → Bool
  | .pairLogic _, .signature _ _ => true
  | .loopLogic _, .signature _ _ => true
  | .pd _, .pd _ _ => true
  | .dac _, .dac _ _ _ => true
  | .temp _, .temp _ => true
  | .sdcmp _ _, .comparator _ _ => true
  | .enc _, .enc _ _ => true
  | _, _ => false

/-- One of the 16 mailbox words, one of the 64 Gorwin Link nodes and the like are bounded by their types; the checks here
bound the lists: the payload lengths of frames, the records of messages, the samples of a P-tick. -/
def Instr.wf : Instr → Bool
  -- a Stringline frame of an inbound link has 9 bytes at most (R148)
  | .inboundFrame _ bytes _ => decide (bytes.length ≤ 32)
  -- a BAR2 access moves at least one byte and stays in the 256 MB window (R395)
  | .bar2Read off len => decide (0 < len) && decide (off.toNat + len ≤ 2 ^ 28)
  | .bar2Write off data => decide (0 < data.length) && decide (off.toNat + data.length ≤ 2 ^ 28)
  -- a BAR0 access of another size or alignment than a naturally aligned word (R11)
  | .bar0BadAccess addr size _ => decide (size ≠ 4) || decide (addr.toNat % 4 ≠ 0)
  -- a DMA descriptor is 32 bytes (R396)
  | .dmaDescriptor _ desc _ => decide (desc.length = 32)
  -- a block of Gorwin Link has eight bytes after its sync header (R299)
  | .glkFrameReceived _ b more => (b :: more).all (fun b => b.bytes.length == 8)
  -- a P-tick brings at most one pair of samples for each channel (R211)
  | .pTick samples => (samples.map (fun x => x.chan)).Pairwise (· ≠ ·)
  -- a calibration measurement has one value, and that of DAC linearity one at each of 17 codes (R215)
  | .startupBoot cal _ => cal.all (fun m => [m.a, m.b, m.c].all (fun l => l.length == m.item.points))
  -- training finds one of the supported configurations (R318)
  | .ddrTrainingDone _ r => r.failStep.isSome || r.supported
  -- a slice is judged by the check of its own type (R366)
  | .sliceEnd t r => t.checks r.check
  | _ => true

end Sys2Proof
end

