-- ==== Sys2Proof/Tests/Slice0.lean ====
section
/-! SUPPORT. Tests of the model: values that the spec itself gives, the checks of WellFormed, and for each statement with hypotheses a
witness that every clause's hypotheses are met together by a concrete state and operands. The expected values of the first part are the
spec's own check values and worked examples; a witness expects no result. -/

namespace Sys2Proof.Tests

open Sys2Proof Sys2Proof.Machine Sys2Proof.Safety

set_option maxRecDepth 20000
set_option Elab.async false

/-! ## Values that the spec gives -/

/-- The ASCII digits "123456789". -/
def digits : List Byte := [0x31#8, 0x32#8, 0x33#8, 0x34#8, 0x35#8, 0x36#8, 0x37#8, 0x38#8, 0x39#8]

/-- The check value of R40. -/
theorem test_crc32c_check : crc32c digits = 0xE3069283#32 := by decide +kernel

/-- The check value of R146. -/
theorem test_crc8_check : crc8 digits = 0xDF#8 := by decide +kernel

/-- The check value of R162: PWR 0x8000, GATE 1, ARMED 1, FCNT 0. -/
theorem test_crc4_check : crc4Go 20 (0x8000 * 16 + 8 + 4) 0 = 2 := by decide

/-- The worked example of R157. -/
theorem test_xy2_word : xy2Word (-1234567) = 27945 := by decide +kernel

/-- The worked example of R7: T-tick 0x100 is later than 0xFFFFFF00. -/
theorem test_later_wraps : later32 0x100#32 0xFFFFFF00#32 = true := by decide

/-- The worked examples of R418. -/
theorem test_ball_emit : portBall 21 .emitEn = some ("BF", 18) := by decide +kernel
theorem test_ball_mod : portBall 12 .modP = some ("BA", 43) := by decide +kernel

/-- The totals of R417. -/
theorem test_ball_regions : ballRegions.all (fun r => r.balls == r.signals + r.supply.foldl (fun n x => n + x.2) 0 + r.vss) = true ∧
    ballRegions.foldl (fun n r => n + r.balls) 0 = 2916 ∧ ballRegions.foldl (fun n r => n + r.signals) 0 = 1370 := by decide

/-- The groups of R419 fill the signals that R417 gives region 3b and region 5c. -/
theorem test_signal_groups : regionSignals "3b" = 63 ∧ regionSignals "5c" = 127 := by decide

/-- The total of R424's table, the worked figures of R429 and the full-scale output of R426. -/
theorem test_power_and_heat : typicalMw = 37990 ∧ junctionUc 105000000 46000 200 = 114200000 ∧ caseUc 45000000 38000 800 = 75400000 ∧
    axdacUv 32767 = fracI 2750000 := by decide +kernel

/-- No word of the opcode table's kind spells a command: its rows give no bits. -/
theorem test_no_table_word : decodeTableWord 32 0 = none := by decide

/-! ## WellFormed refuses ill-formed commands -/

theorem test_wf_inbound : (Instr.inboundFrame 3 (List.replicate 33 0#8) true).wf = false := by decide
theorem test_wf_read : (Instr.bar2Read 0xFFFFFFF#28 2).wf = false := by decide
theorem test_wf_write : (Instr.bar2Write 0xFFFFFFF#28 [1#8, 2#8]).wf = false := by decide
theorem test_wf_access : (Instr.bar0BadAccess 8#32 4 true).wf = false := by decide
theorem test_wf_descriptor : (Instr.dmaDescriptor 1 (List.replicate 31 0#8) none).wf = false := by decide
theorem test_wf_glk : (Instr.glkFrameReceived 1 ⟨0, 1, List.replicate 8 0#8⟩ [⟨1, 1, List.replicate 7 0#8⟩]).wf = false := by decide
theorem test_wf_samples : (Instr.pTick [⟨4, 1, 2, false, false⟩, ⟨4, 3, 4, false, false⟩]).wf = false := by decide
theorem test_wf_slice : (Instr.sliceEnd (.pd 5) ⟨8192, .enc 0 0, 0, 0, 0⟩).wf = false := by decide
theorem test_wf_training : (Instr.ddrTrainingDone 0 ⟨none, 0, false, true, true, 48, 5⟩).wf = false := by decide
theorem test_wf_accepts : (Instr.bar2Write 0xFFFFFFE#28 [1#8, 2#8]).wf = true := by decide

/-! ## The states of the witnesses -/

/-- The state with register fields set. -/
def withRegs (l : List (Fld × Nat)) (s : State) : State := l.foldl (fun s x => s.onDev (fun d => d.put x.1 x.2)) s

/-- Reset with the host interface changed. -/
def hst0 (f : Hst → Hst) : State := State.reset.onDev (fun d => { d with hst := f d.hst })

/-- Reset with the supervisor in a state. -/
def sup0 (x : SupState) : State := State.reset.onDev (fun d => { d with sys := { d.sys with sup := x } })

/-- A command of the mailbox. -/
def cmd0 : Cmd := ⟨0, 0x01, 7, [], none⟩

/-- A completion. -/
def cpl0 : Completion := ⟨7, 1, 0, false, 0⟩

def wFree : State := hst0 (fun h => { h with free := true })
def wSubmit : State := hst0 (fun h => { h with free := true, mbx := [(0, 0x20), (1, 7), (2, 3)] })
def wQueueFull : State := hst0 (fun h => { h with free := true, queue := List.replicate 16 cmd0, mbx := [(0, 1), (1, 7)] })
def wKnown : State := hst0 (fun h => { h with free := true, mbx := [(0, 1), (1, 7)], remembered := [⟨0, 7, some (0, 3)⟩] })
def wRunning : State := hst0 (fun h => { h with running := [(laneIx .ctrl, cmd0)] })
def wDone : State := hst0 (fun h => { h with finished := [(laneIx .ctrl, [cpl0])] })
def wDoneFull : State := hst0 (fun h => { h with finished := [(laneIx .ctrl, [cpl0])], cpl := List.replicate 32 cpl0 })
def wFence : State := State.reset.onDev (fun d => { d with ddr := { d.ddr with fence := some ⟨7, [1], true⟩ } })
def wFenceWaits : State := wFence.onDev (fun d => { d with ddr := { d.ddr with waiting := [⟨1, ⟨0x44, 0, some [], 0⟩, 1, 0⟩] } })

/-- Reset with the device changed. -/
def dev0 (f : Dev → Dev) : State := State.reset.onDev f

/-- Reset with both DRAM channels UP, 2 GB of device addresses. -/
def wDram : State := withRegs [(F.DDR_CHc_STAT_STATE 0, 2), (F.DDR_CHc_STAT_STATE 1, 2), (F.DDR_CHc_STAT_CAP 0, 2), (F.DDR_CHc_STAT_CAP 1, 2)] State.reset

/-- A section of the live rigging. -/
def sect (t i : Nat) (pay : List Byte) : Section := ⟨t, 0, i, pay, 0⟩

/-- A state with a live rigging. -/
def rig (l : List Section) (s : State) : State :=
  withRegs [(F.RIG_STAT_STATE, 2)] (s.onDev (fun d => { d with rig := { d.rig with live := l } }))

/-- FABRIC with pair k on port k for k below n. -/
def fabric (n : Nat) : Section := sect 0x10 0xFF ((upTo 36).map (fun k => if k < n then BitVec.ofNat 8 k else 0xFF#8))

/-- ENCODER with one input. -/
def encSect (role axis flags : Byte) : Section := sect 0x40 0xFF [role, axis, flags, 0, 0, 0, 0x20, 0x41]

def wLocked : State := withRegs [(F.BED_BUFn_BASE_BASE 3, 0), (F.BED_BUFn_SIZE_SIZE 3, 1)] wDram
def wPoison : State := { wDram with mem := { cells := [(5, 0x11#8)], poison := [5] } }
def wDma : State := withRegs [(F.HST_DMAc_CTRL_EN 2, 1), (F.HST_DMAc_HEAD_INDEX 2, 1)] wDram
def descBad : List Byte := List.replicate 32 0xFF#8
def descGood : List Byte := leBytes 8 0x1000 ++ leBytes 8 0x40 ++ leBytes 4 16 ++ List.replicate 12 0#8
def wDmaDone (st : Nat) : State := withRegs [(F.HST_DMAc_RING_SIZE_SIZE 3, 4), (F.HST_DMAc_STAT_RUN 3, 1)]
  (hst0 (fun h => { h with dma := [(3, ⟨0, 3, true, st, 16⟩)] }))
def wResetWait : State := hst0 (fun h => { h with resetWait := some (7, 0) })
def wResetBusy : State := withRegs [(F.EVR_CTRL_PERSIST, 1)] (wResetWait.onDev (fun d => d.raise 0x0111 0x01 0 2 7 0))
def wCal : State := withRegs [(F.HST_STAT_PHASE, 3), (F.SNS_STAT_CAL_DONE, 1)] State.reset
def wMis (t : DWord) : State := dev0 (fun d => { d with time := 3600000000000#64, sys := { d.sys with lastMismatch := some t } })
def wSilent : State := dev0 (fun d => { d with sys := { d.sys with ctrlSilent := true } })
def wGpf : State := rig [sect 0x60 0xFF [0x40#8, 0x10#8]] State.reset

/-- A filling, ready or other state of buffer 2 in generation 5, placed at 4 KB, size 4 KB. -/
def wBuf (st : Nat) (l : List (Fld × Nat)) : State :=
  withRegs ([(F.BED_BUFn_BASE_BASE 2, 1), (F.BED_BUFn_SIZE_SIZE 2, 1), (F.BED_BUFn_STAT_STATE 2, st), (F.BED_BUFn_GEN_GEN 2, 5)] ++ l) wDram
def wBed0 : Bed := {
  buf := 2, gen := 5, bedNo := 9, tileCount := 0, segCount := 0, stripeCount := 0, segOff := 0, bank := some 0, psets := [],
  badSets := [], lostSets := [], chase := false, stripes := 0, oldSet := false, scanned := true, tiles := [] }
def withBed (b : Bed) (s : State) : State := s.onDev (fun d => { d with bar := { d.bar with beds := [(2, b)] } })
def wSealing : State := (wBuf 1 [(F.BED_BUFn_STAT_SEALING 2, 1)]).onDev (fun d => { d with bar := { d.bar with sealing := some (SealRun.mk 2 5 7 [0, 0, 0, 0]) } })
def wRig1 (s : State) : State := rig [fabric 1] s
def barTick (x : Word) (s : State) : State := s.onDev (fun d => { d with bar := { d.bar with commitTick := x } })
/-- A bed of one tile, one path, two segments and one parameter set, as the spec lays it out (R70 to R82). -/
def psetImg : List Byte := leBytes 4 1 ++ leBytes 4 0x42C80000 ++ leBytes 4 0x447A0000 ++ leBytes 4 0x44FA0000 ++ leBytes 4 0x49742400 ++
  leBytes 4 0x4CBEBC20 ++ List.replicate 20 0#8 ++ leBytes 2 0xFFFF ++ List.replicate 82 0#8
def tileImg : List Byte := leBytes 8 0 ++ leBytes 4 100 ++ leBytes 4 100 ++ leBytes 4 0 ++ leBytes 4 2 ++ leBytes 4 0 ++ List.replicate 6 0xFF#8 ++
  List.replicate 14 0#8
def segImg : List Byte := leBytes 12 0 ++ leBytes 4 2 ++ leBytes 8 1000 ++ leBytes 4 0 ++ leBytes 4 0x50
def hdrImg : List Byte := leBytes 4 0x44425841 ++ leBytes 2 1 ++ leBytes 2 4096 ++ leBytes 4 9 ++ leBytes 4 5 ++ leBytes 4 8224 ++ leBytes 4 0 ++
  leBytes 4 1 ++ leBytes 4 2 ++ leBytes 2 1 ++ leBytes 2 0 ++ leBytes 4 4096 ++ leBytes 4 4224 ++ leBytes 4 8192 ++
  leBytes 4 3800836720 ++ leBytes 4 3784091727 ++ leBytes 4 1111992660
/-- The cells of bytes from an address, zeros left out. -/
def cellsOf (a : Nat) : List Byte → List Host.Cell
  | [] => []
  | b :: l => if b == 0 then cellsOf (a + 1) l else (a, b) :: cellsOf (a + 1) l
def bedMem : Dram := { cells := cellsOf 4096 hdrImg ++ cellsOf 8188 (leBytes 4 2550261440) ++ cellsOf 8192 psetImg ++ cellsOf 8320 tileImg ++ cellsOf 12288 segImg, poison := [] }
/-- The bed in buffer 2, generation 5. -/
def wImg (st : Nat) (l : List (Fld × Nat)) : State := { wRig1 (wBuf st ((F.BED_BUFn_SIZE_SIZE 2, 3) :: l)) with mem := bedMem }
def wSealGood : State := (wImg 1 [(F.BED_BUFn_STAT_SEALING 2, 1)]).onDev (fun d => { d with bar := { d.bar with sealing := some (SealRun.mk 2 5 7 [0, 0, 0, 0]) } })
/-- The live sections of a device with port 0: pair 0 on it, a Stringline head with MOD, a square field. -/
def secs0 : List Section := [fabric 1, sect 0x11 0 (leBytes 4 0x100 ++ leBytes 4 0x447A0000),
  sect 0x20 0 (leBytes 16 4 ++ leBytes 4 0xFFFF0000 ++ leBytes 4 0xFFFF0000 ++ leBytes 4 0x10000 ++ leBytes 4 0xFFFF0000 ++
    leBytes 4 0x10000 ++ leBytes 4 0x10000 ++ leBytes 4 0xFFFF0000 ++ leBytes 4 0x10000)]
/-- Port 0 in service, nothing running. -/
def wPort : State := (withRegs [(F.BEAMn_PSTAT_ATTACHED 0, 1), (F.BEAMn_PSTAT_LINK 0, 4), (F.HND_Pn_STAT_STATE 0, 0), (F.ENG_PAIRk_STATE 0, 1),
  (F.BEAMn_TSTAT_NOGRID 0, 0), (F.BEAMn_PAIR_PAIR 0, 0), (F.BEAMn_LAT_TICKS 0, 8)] (rig secs0 State.reset)).onDev (fun d => { d with
    sns := { d.sns with
      settled := true
      latSettled := [0] } })
def path0 (st : PStat) : PathSt := {
  first := 0, count := 2, box := ⟨0, 0, 100, 100⟩, dur := 1000, coverable := true, st := st, resume := none, cls := 0, underruns := 0,
  interrupts := 0, beam := none }
def tile0 (f : TileSt → TileSt) : TileSt := f {
  rcd := tileOfBytes tileImg, scanned := true, released := true, paths := [path0 .fresh], startT := none, endT := none, pwr := [],
  remoteE := [], wins := [0, 0, 0, 0, 0], notExp := 0, handoffs := 0, loopLost := 0, underruns := 0, flags := 0, paired := false,
  pairIx := 0, crc := none, recorded := false }
def bed1 (l : List (Nat × TileSt)) : Bed := { wBed0 with
  tileCount := 1
  segCount := 2
  stripeCount := 1
  segOff := 8192
  psets := [psetOfBytes psetImg]
  tiles := l }
/-- Port 0 in service, the bed in buffer 2 current and exposing with these tiles. -/
def wExp (l : List (Nat × TileSt)) : State :=
  let s := (withRegs [(F.BED_STAT_PHASE, 4), (F.BED_BUFn_BASE_BASE 2, 1), (F.BED_BUFn_SIZE_SIZE 2, 3), (F.BED_BUFn_STAT_STATE 2, 4),
    (F.BED_BUFn_GEN_GEN 2, 5), (F.DDR_CHc_STAT_STATE 0, 2), (F.DDR_CHc_STAT_STATE 1, 2), (F.DDR_CHc_STAT_CAP 0, 2),
    (F.DDR_CHc_STAT_CAP 1, 2), (F.HND_CTRL_DEPTH, 2)] wPort).onDev (fun d => { d with bar := { d.bar with
      beds := [(2, bed1 l)]
      cur := some 2 } })
  { s with mem := bedMem }
/-- A path waiting at its ORIGIN with its partner. -/
def runWait (k : PKey) : Run :=
  let m : Move := {
    kind := .pairWait, on := false, seg := 0, x0 := 0, y0 := 0, x1 := 0, y1 := 0, f0 := 0, f1 := 0, t0 := fracI 0, dt := fracI 100,
    len := fracI 0, v0 := fracI 0, vp := fracI 0, v1 := fracI 0, acc := fracI 1, jerk := fracI 1, segT0 := fracI 0 }
  { key := k, k := 3, startTick := 0, moves := [m], planT := fracI 100, next := 1, last := 2, bx := 0, by_ := 0, bf := 0, px := 0, py := 0,
    vel := fracI 0, stroke := none, settle := 0, planned := false, edges := [], lit := none, openSeg := none, hit := none, taking := false,
    arrived := true, resume := none, conf := none, intr := none, yield := false, lostSeg := none, shed := false }
def withRun (p : Nat) (r : Run) (s : State) : State := s.onDev (fun d => d.updEng p (fun e => { e with run := some r }))
def wPair : State :=
  let t (x : Nat) (p : Nat) : TileSt := tile0 (fun t => { t with
    rcd := { t.rcd with partner := x }
    paired := true
    paths := [path0 (.running p), path0 .fresh] })
  withRun 1 (runWait (.bed 2 1 0)) (withRun 0 (runWait (.bed 2 0 0)) (wExp [(0, t 1 0), (1, t 0 1)]))
def runTile : TileSt := tile0 (fun t => { t with paths := [path0 (.running 0)] })
/-- Port 0 has sent a tick point of the path it runs. -/
def wOnPath : State := (withRun 0 (runWait (.bed 2 0 0)) State.reset).onDev (fun d => d.updEng 0 (fun e => { e with hist := [{
  tick := 0, seg := 0, cnt := 0, x := 0, y := 0, f := 0, p2x := 0, p2y := 0, cx := 0, cy := 0, v := 0, q := none, key := some (.bed 2 0 0),
  hold := 0, sent := true }] }))
/-- As wPair, where the partner's path has ended without its start. -/
def wPairOver : State :=
  let t (x : Nat) (st : PStat) : TileSt := tile0 (fun t => { t with
    rcd := { t.rcd with partner := x }
    paired := true
    paths := [path0 st, path0 .fresh] })
  withRun 0 (runWait (.bed 2 0 0)) (wExp [(0, t 1 (.running 0)), (1, t 0 .ended)])
/-- A tile that no scan has split into paths yet, in a sealed bed. -/
def scanTile : TileSt := tile0 (fun t => { t with
  scanned := false
  paths := [] })
def wUnscanned : State := withBed { bed1 [(0, scanTile)] with scanned := false } (wImg 3 [])
/-- A section of a rigging image (R43). -/
def secImg (t cls inst : Nat) (pay : List Byte) : List Byte :=
  leBytes 2 t ++ leBytes 1 cls ++ leBytes 1 inst ++ leBytes 4 pay.length ++ leBytes 4 1 ++ leBytes 4 (crc32c pay).toNat ++ pay
/-- A rigging image (R41, R42). -/
def rigImg (kind n : Nat) (body : List Byte) : List Byte :=
  let h := leBytes 4 0x47525841 ++ leBytes 2 1 ++ leBytes 2 64 ++ leBytes 4 (80 + body.length) ++ leBytes 2 n ++ leBytes 2 kind ++
    leBytes 4 0x1234 ++ leBytes 4 7 ++ leBytes 2 0xB0 ++ leBytes 34 0
  let a := h ++ leBytes 4 (crc32c h).toNat ++ body ++ leBytes 12 0
  a ++ leBytes 4 (crc32c a).toNat
/-- A full image without a port in use. -/
def rigFull : List Byte := rigImg 0 6 (secImg 0x01 0 0xFF (List.replicate 16 0#8) ++
  secImg 0x10 0 0xFF (List.replicate 36 0xFF#8 ++ leBytes 12 0) ++ secImg 0x31 0 0xFF (List.replicate 240 0#8) ++
  secImg 0x40 0 0xFF (List.replicate 64 0#8) ++ secImg 0x50 0 0xFF (List.replicate 48 0#8) ++
  secImg 0x60 0 0xFF (List.replicate 48 0#8))
/-- A swap image that carries a note. -/
def rigSwapImg : List Byte := rigImg 1 1 (secImg 0xF0 1 0xFF (List.replicate 16 0x41#8))
/-- The sections of the full image, live. -/
def liveFull : List Section := [sect 0x01 0xFF (List.replicate 16 0#8), sect 0x10 0xFF (List.replicate 36 0xFF#8 ++ leBytes 12 0),
  sect 0x31 0xFF (List.replicate 240 0#8), sect 0x40 0xFF (List.replicate 64 0#8), sect 0x50 0xFF (List.replicate 48 0#8),
  sect 0x60 0xFF (List.replicate 48 0#8)]
/-- Both DRAM channels up and an image at address 0. -/
def wImgAt (img : List Byte) (s : State) : State :=
  { withRegs [(F.DDR_CHc_STAT_STATE 0, 2), (F.DDR_CHc_STAT_STATE 1, 2), (F.DDR_CHc_STAT_CAP 0, 2), (F.DDR_CHc_STAT_CAP 1, 2)] s with
    mem := { cells := cellsOf 0 img, poison := [] } }
/-- An image that passed its check waits to be applied. -/
def wStaged (s : State) : State := s.onDev (fun d => { d with rig := { d.rig with
  staged := some (stagedOf liveFull rigFull 3 2 7) } })
/-- Start-up with these flash slots. -/
def wSlots (l : List (Nat × List Byte)) : State := withRegs [(F.HST_STAT_PHASE, 2)] (State.reset.onDev (fun d => { d with rig := { d.rig with
  slots := l } }))
def errOf (x : Except RigErr (List Section)) : RigErr := match x with | .error e => e | .ok _ => ⟨0, 0, 0⟩
def okB (x : Except RigErr (List Section)) : Bool := match x with | .error _ => false | .ok _ => true
def okOf (x : Except RigErr (List Section)) : List Section := match x with | .error _ => [] | .ok l => l
def wArmed : State := withRegs [(F.RIG_STAT_STATE, 3)] (dev0 (fun d => { d with rig := { d.rig with armed := some ⟨1, []⟩ } }))
def wRigged : State := wImgAt [] (rig secs0 State.reset)
/-- An image of the axis tables, all zero (R291). -/
def axsImg : List Byte :=
  let h := leBytes 4 0x54415841 ++ leBytes 2 1 ++ leBytes 2 0 ++ leBytes 4 9 ++ leBytes 4 4352 ++ leBytes 4 (crc32c (List.replicate 4352 0#8)).toNat ++
    leBytes 40 0
  h ++ leBytes 4 (crc32c h).toNat
def wLoopPend : State := (wImgAt (leBytes 6 0 ++ leBytes 2 1) wRigged).onDev (fun d => d.updLoop 0 (fun l => { l with pend := some (5, []) }))
def runMv (k : PKey) (mk : MvKind) : Run :=
  let m : Move := {
    kind := mk, on := false, seg := 0, x0 := 0, y0 := 0, x1 := 0, y1 := 0, f0 := 0, f1 := 0, t0 := fracI 0, dt := fracI 4,
    len := fracI 0, v0 := fracI 0, vp := fracI 0, v1 := fracI 0, acc := fracI 1, jerk := fracI 1, segT0 := fracI 0 }
  { runWait k with moves := [m] }
def loop0s (f : LoopEng → LoopEng) (s : State) : State := s.onDev (fun d => d.updLoop 0 f)
def goodFrame : List Byte := leBytes 3 5 ++ leBytes 3 6 ++ leBytes 3 7 ++ leBytes 2 (0x100 + 0xF8) ++ leBytes 2 300
def goodIn : List Byte := goodFrame ++ [crc8 goodFrame]
def wLsr (f : Prt → Prt) : State := wPort.onDev (fun d => d.updPrt 0 f)
def wPairSt (l : List (Fld × Nat)) : State := withRegs l State.reset
def psync : List Byte := leBytes 6 0 ++ leBytes 2 50 ++ leBytes 4 0 ++ leBytes 4 0xA
/-- Port 0 holds at a SYNC of a path whose tile has another path. -/
def tileSync : TileSt := tile0 (fun t => { t with paths := [path0 (.running 0), path0 .fresh] })
def wSyncAt (r : Run) : State :=
  let s := withRun 0 r (wExp [(0, tileSync)])
  { s with mem := { cells := cellsOf 12288 psync, poison := [] } }
def wSync : State := wSyncAt (runMv (.bed 2 0 0) .sync)
/-- The SYNC's timeout of 500 T-ticks has passed. -/
def wSyncLate : State := wSyncAt { runMv (.bed 2 0 0) .sync with k := 600 }
/-- Encoder input 0 feeds axis 1 back. -/
def wAxis : State := rig [encSect 3 1 0] State.reset
/-- Encoder input 3 counts. -/
def wEnc (l : List (Fld × Nat)) (f : Sys2Proof.Machine.Enc → Sys2Proof.Machine.Enc) : State :=
  (withRegs ((F.QEe_CTRL_FILT 3, 0) :: l) (rig [sect 0x40 0xFF (List.replicate 24 0#8 ++ [3#8, 1, 0, 0, 0, 0, 0x20, 0x41])] State.reset)).onDev (fun d => d.updEnc 3 f)
def wLostEnc : State := wEnc ((F.QEe_ERR_LOST 3, 1) :: (List.range 8).map (fun k => (F.QE_CMPk_CTRL_SRC k, 5))) id
def wTrace (f : Trace → Trace) : State := dev0 (fun d => d.updTrace 3 f)
def tr0 : Trace := { bins := [(128, 16384)], n := 16384, outside := 0, ofs := none, gbins := [(256, 65536)], gn := 65536, trim := none }
def estOf (t : Trace) : Frac := (State.reset.dev.ofsEstimate 3 t).getD (fracI 0)
def obs0 (k : Nat) : SpotObs := { parent := 0, key := .bed 2 0 0, seg := 1, dx := 5, dy := 0, k := k, sweeps := 32, acc := [], sweep := [], bad := false }
def wObs (k : Nat) : State := withRegs [(F.SNS_Pn_SPOT_STATE 1, 2)] (dev0 (fun d => { d with sns := { d.sns with obs := [(1, obs0 k)] } }))
def wSpot (f : SpotPort → SpotPort) : State := dev0 (fun d => d.updSpot 1 f)
def wTraceFar : State := (wTrace (fun _ => { tr0 with ofs := some (estOf tr0) })).onDev (fun d => { d with sns := { d.sns with
  pdOfs := [(12, 60000), (13, 60000), (14, 60000), (15, 60000)] } })
def square0 : List Byte := leBytes 16 4 ++ leBytes 4 0xFFFF0000 ++ leBytes 4 0xFFFF0000 ++ leBytes 4 0x10000 ++ leBytes 4 0xFFFF0000 ++
    leBytes 4 0x10000 ++ leBytes 4 0x10000 ++ leBytes 4 0xFFFF0000 ++ leBytes 4 0x10000
/-- Ports 0 and 1 in service; port 1 may observe a long stroke of port 0. -/
def wStroke : State :=
  let r : Run := runMv (.bed 2 0 0) .expose
  let m := r.moves.map (fun (m : Move) => { m with
    t0 := fracI 3
    dt := fracI 1100 })
  let s := (withRun 0 { r with moves := m } (wExp [(0, runTile)])).onDev (fun d => { d with
    rig := { d.rig with live := d.rig.live ++ [sect 0x11 1 (leBytes 4 0x100 ++ leBytes 4 0x447A0000), sect 0x20 1 square0,
      sect 0x31 0xFF [0#8, 0#8, 1#8]] }
    sns := { d.sns with latSettled := [0, 1] } })
  withRegs [(F.BEAMn_PSTAT_ATTACHED 1, 1), (F.BEAMn_PSTAT_LINK 1, 4), (F.HND_Pn_STAT_STATE 1, 0), (F.BEAMn_TSTAT_NOGRID 1, 0),
    (F.SNS_CTRL_SPOT_EN, 1), (F.SNS_CTRL_REF_PORT, 5), (F.SNS_Pn_SPOT_NOPARENT 1, 0), (F.SNS_Pn_SPOT_PARENT 1, 0)] s
/-- Receiver 2 enabled, on virtual channel 1, and its trigger on pin 9. -/
def wCam (f : CamRx → CamRx) (l : List (Fld × Nat)) : State :=
  (withRegs ([(F.CAMm_CTRL_EN 2, 1), (F.CAMm_CTRL_DT 2, 0)] ++ l) (rig [sect 0x31 0xFF (List.replicate 229 0#8 ++ [2#8]),
    sect 0x60 0xFF (List.replicate 9 0#8 ++ [0x22#8])] wDram)).onDev (fun d => d.updCam 2 f)
def frame0 : CamFrame := {
  time := 0, tick := 0, dt := 0, thr := 0, x0 := 0, y0 := 0, w := 8, h := 8, fw := 8, fh := 8, cap := false, line := 0, area := 0, peak := 0,
  sw := 0, sx := 0, sy := 0, damaged := false, triggered := false, port := none, tile := none, raw := [] }
def wFrame (l : List (Fld × Nat)) : State := wCam (fun c => { c with frames := [(1, frame0)] }) l
def hit0 : ResumePt := { seg := 0, cnt := 0, x := 0, y := 0, f := 0, hold := 0, hit := none }
def tko0 : Takeover := {
  lead := some 3, entry := some 2, key := .bed 2 0 0, rp := hit0, detect := 0, covers := [(0xFF, 0)], tried := [],
  cover := some (.loc 0 0 0), started := false }
/-- A path of the bed waits for a cover. -/
def tileTko : TileSt := tile0 (fun t => { t with paths := [{ path0 .takeover with
    resume := some hit0
    beam := some 0 }] })
def wTko : State := (wExp [(0, tileTko)]).onDev (fun d => { d with hnd := { d.hnd with tko := [(4, tko0)] } })
/-- The run with which port 0 begins that remainder. -/
def wTkoRun : Run :=
  let d0 := wTko.settled.dev.prefetch wTko.mem 0
  let d1 := (d0.pathBoundaries wTko.mem 0 tko0.key).updEng 0 (fun e => { e with prevC := none })
  (((d1.updPath tko0.key (fun q => { q with resume := some tko0.rp })).beginRun wTko.mem 0 tko0.key true).runOf 0).getD (runWait (.bed 2 0 0))
def req0 : HoReq := {
  xid := 77, lead := 5, cover := 0, syncHit := true, bedNo := 9, tile := 4, seg := 2, segTick := 6, x := 10, y := 20,
  box := ⟨0, 0, 100, 100⟩, dur := 50, nHit := 3, detect := 0 }
/-- Port 0 may take remainders of port 5 of node 6. -/
def wCover : State := wPort.onDev (fun d => { d with rig := { d.rig with live := d.rig.live ++
  [sect 0x21 0 ([1#8] ++ leBytes 15 0 ++ [6#8, 5, 0, 0])] } })
def hoIn0 : HoIn := {
  node := 6, lead := 5, port := 0, bedNo := 9, tile := 4, segs := [], psets := [], base := (0, 0, 0),
  path := incPath 2 openCount ⟨0, 0, 100, 100⟩ 50 hit0, pwr := 0, wins := [0, 0, 0, 0, 0], notExp := 0, loopLost := 0, heard := 0,
  progTick := 0, orphan := false, covers := [] }
def wInc : State := wPort.onDev (fun d => { d with hnd := { d.hnd with inc := [(77, hoIn0)] } })
def hoOut0 : HoOut := {
  node := 6, port := 5, key := .bed 2 0 0, granted := false, started := false, sent := 0, conf := hit0, heard := 0, asked := 0 }
/-- An exchange about the path that waits for a cover. -/
def wOut (f : HoOut → HoOut) : State := wTko.onDev (fun d => { d with hnd := { d.hnd with
  out := [(77, f hoOut0)]
  tko := [(4, { tko0 with
    covers := [(6, 5)]
    cover := some (.rem 6 5 77) })] } })
def wOutRun (f : HoOut → HoOut) : State := withRegs [(F.BED_CTRL_RUN, 1)] (wOut f)
def wOutLone (f : HoOut → HoOut) : State := dev0 (fun d => { d with hnd := { d.hnd with out := [(77, f hoOut0)] } })
def done0 : HoDone := { xid := 77, aborted := false, seg := 5, segTick := 0, energy := 0, wins := [], notExposed := 0, loopLost := 0 }
def stbyHdr0 : StbyHdr := {
  bedNo := 9, tile := 4, lead := 5, first := 2, count := 2, box := ⟨0, 0, 100, 100⟩, covers := [0#16] }
def stby0 : Standby := ⟨6, stbyHdr0, [], [], none, 0⟩
def wStby (c : Standby) (s : State) : State := s.onDev (fun d => { d with hnd := { d.hnd with stby := [(77, c)] } })
/-- Standby copies at their limit. -/
def wStbyFull : State := dev0 (fun d => { d with hnd := { d.hnd with stby := (List.range 1024).map (fun x => (x, stby0)) } })
/-- A complete copy of a path, with a mark, that port 0 may take. -/
def stbyFull : Standby := ⟨6, stbyHdr0, [(2, leBytes 12 0 ++ leBytes 4 0x22), (3, leBytes 8 1000 ++ leBytes 4 0 ++ leBytes 4 0x70)], [(0, psetImg)], none, 0⟩
def wOrphan : State := wStby stbyFull wPort
def wOwner : State :=
  let s := withRun 0 (runWait (.bed 2 0 0)) (withRegs [(F.BED_CTRL_RUN, 1)] (wExp [(0, runTile)]))
  s.onDev (fun d => { d with hnd := { d.hnd with stbyOut := [(77, ⟨6, .bed 2 0 0⟩)] } })
/-- Gorwin Link port 1 in a state, on a device that holds a rigging with node 0. -/
def wGlk (st : Nat) (l : List (Fld × Nat)) : State := withRegs ([(F.GLKp_STAT_STATE 1, st)] ++ l) wRigged
def gfr0 : GlkFrame := { type := 0x10, dst := 6, src := 0, ttl := 2, seq := 0, payload := leBytes 8 5 }
def gfrBad : GlkFrame := { gfr0 with type := 0x44 }
def gfrOwn : GlkFrame := { gfr0 with dst := 0 }
def gfrOld : GlkFrame := { gfr0 with ttl := 1 }
/-- A member of the timing domain of node 4. -/
def wMember : State := (withRegs [(F.GLK_STAT_ROLE, 2)] wRigged).onDev (fun d => { d with glk := { d.glk with root := some 4 } })
/-- A block with a sync header that none has. -/
def badBlk : GlkBlock := ⟨0, 3, leBytes 8 0⟩
/-- Lane 0 of port 1 is one bad block short of losing its lock. -/
def wLock : State := (wGlk 5 []).onDev (fun d => { d with glk := { d.glk with rxs := [(1, { glkRx0 with
  seen0 := 63
  errs0 := (List.range 63).reverse })] } })
def mark0 : Marker := {
  counter := 9, root := 0, timeValid := true, compat := false, hops := 0, holdover := false, apart := false, launch := 0, phase := 0,
  agree := true }
def wGlkAt (f : GlkPort → GlkPort) (s : State) : State := s.onDev (fun d => d.updGlkPort 1 f)
/-- PTP in a state on Ethernet port 0. -/
def wPtp (st : Nat) (l : List (Fld × Nat)) : State :=
  withRegs ([(F.PTP_CTRL_EN, 1), (F.PTPp_CFG_PEN 0, 1), (F.PTP_STAT_STATE, st), (F.PTP_CTRL_P2P, 0)] ++ l) State.reset
def train0 : TrainResult := { failStep := none, speed := 4, rdimm := true, x8 := false, tworanks := true, capGb := 8, ms := 40 }
/-- DRAM channel 1 in a state. -/
def wCh (st : Nat) (f : DdrCh → DdrCh) : State := (withRegs [(F.DDR_CHc_STAT_STATE 1, st), (F.DDR_CTRL_FIXED, 0)] State.reset).onDev (fun d => { d with
  sys := { d.sys with sup := .running }
  ddr := { d.ddr with ch := tput d.ddr.ch 1 (f (tget ddrCh0 d.ddr.ch 1)) } })
def wFixed (st : Nat) : State := (wCh st id).onDev (fun d => d.put F.DDR_CTRL_FIXED 1)
def req1 (wr : Option (List Byte)) (n : Nat) : DramReq := ⟨0x44, 0x1000, wr, n⟩
/-- Three requests wait; the second is the next one. -/
def wReqs (wr : Option (List Byte)) (n : Nat) : State := wDram.onDev (fun d => { d with ddr := { d.ddr with
  waiting := [⟨1, req1 none 4, 4, 0⟩, ⟨2, req1 wr n, 2, 0⟩, ⟨3, req1 none 4, 2, 0⟩] } })
def wRun (s : State) : State := s.onDev (fun d => { d with sys := { d.sys with sup := .running } })
def wIdleCh (l : List (Fld × Nat)) : State := (withRegs ([(F.DDR_CTRL_SR_EN, 1), (F.DDR_SR_IDLE_US, 1)] ++ l) wDram).onDev (fun d => { d with
  time := 1000 })
/-- Inputs 0 and 70 are remote diodes. -/
def sensImg : List Byte := List.replicate 64 0#8 ++ [1#8] ++ List.replicate 139 0#8 ++ [1#8] ++ List.replicate 35 0#8
def wThm (l : List (Fld × Nat)) (f : Dev → Dev) : State := (withRegs l (rig [sect 0x31 0xFF sensImg] State.reset)).onDev f
def report0 : ThmReport := { input := 6, reading := 1600, tick := 0 }
def wLight (l : List (Fld × Nat)) (f : Led → Led) : State :=
  (withRegs l (rig [sect 0x50 0xFF (2#8 :: List.replicate 47 0#8)] State.reset)).onDev (fun d => { d with led := f { d.led with
    light := 2#8 :: List.replicate 47 0#8 } })
def wCmp (l : List (Fld × Nat)) (f : CmpU → CmpU) : State := (withRegs l State.reset).onDev (fun d => d.updCmp 5 f)
/-- Axis 1 is enabled, and input 0 feeds it back. -/
def wAxs (l : List (Fld × Nat)) (f : Axs → Axs) : State :=
  (withRegs ([(F.AXSa_CTRL_EN 1, 1), (F.AXSa_RATE_TICKS 1, 1), (F.AXSa_STAT_STATE 1, 1)] ++ l) wAxis).onDev (fun d => ({ d with tick := 9 }).updAxs 1 f)
def wBist (l : List (Fld × Nat)) (f : Bist → Bist) : State := (withRegs l State.reset).onDev (fun d => { d with bist := f d.bist })
def sres (n : Nat) (ok : Bool) : SliceResult := ⟨n, .pd ⟨2048, 1⟩ ⟨69631, 2⟩, 7, if ok then 7 else 8, 0⟩
def wTel : State := withRegs [(F.TEL_CTRL_EN, 1), (F.TEL_SIZE_SIZE, 1), (F.TEL_BASE_BASE, 1)] (rig [fabric 0] wDram)
def ev0 (sev : Byte) : Event := { time := 0, code := 0x0603#16, src := 4, sev := sev, p1 := 0, p2 := 0, p3 := 0, count := 1 }
def wFifo (l : List Event) : State := dev0 (fun d => { d with evr := { d.evr with fifo := l } })
def rec0 : Rec := { ev := ev0 2, seq := 5, persisted := false }
def wSlot (l : List (Fld × Nat)) : State := (withRegs l wDram).onDev (fun d => { d with evr := { d.evr with slots := [(0, rec0)] } })
def wPin (u : DWord) : State := dev0 (fun d => { d with pins := [(9, u)] })
def cand (i : Nat) (m : Word) : Cand := ⟨i, 1, m⟩
def pd0 : PdVal := ⟨0, 0, false, false, false⟩
def dark0 : PCtx := { tick := 0, emit := false, q := none, v := 0, eu := fracI 0, ev := fracI 0, rated := 0, v1 := pd0, v2 := pd0, vc := pd0, mpOff := false, yyPoint := 0, yy := 0 }
def wFlash : State := (wSlot [(F.EVR_CTRL_PERSIST, 1), (F.EVR_STAT_FLASH_READY, 1)]).onDev (fun d => { d with logFlash := {
  sectors := [(0, { seq := 1, erases := 1, first := 1, live := true, retired := false, recs := [rec0] })]
  cur := 0 } })

def st1 := hst0 (fun h => { h with queue := [cmd0] })
def st2 := wBuf 1 [(F.BED_BUFn_STAT_PEND 2, 1)]
def st3 := wBuf 1 []
def st4 := wBuf 0 []
def st5 := wBuf 1 [(F.BED_BUFn_STAT_PEND 2, 1), (F.BED_BUFn_PEND_GEN_GEN 2, 6)]
def st6 := wBuf 2 []
def st7 := wBuf 3 []
def st8 := wBuf 4 []
def st9 := withBed wBed0 (wBuf 5 [])
def st10 := wImg 2 []
def st11 := wRig1 (wBuf 2 [])
def st12 := wRig1 (wBuf 2 [(F.BED_NEXT_COMMITTED, 1)])
def st13 := wRig1 (wBuf 1 [])
def st14 := wRig1 (wBuf 2 [(F.BED_STAT_PHASE, 2)])
def st15 := wBuf 3 [(F.BED_NEXT_COMMITTED, 1), (F.BED_NEXT_BUF, 2)]
def st16 := wRig1 (withRegs [(F.BED_STAT_PHASE, 3)] State.reset)
def st17 := withRegs [(F.BED_STAT_PHASE, 3), (F.BED_CTRL_RUN, 1)] State.reset
def st18 := withRegs [(F.BED_STAT_PHASE, 1), (F.BED_CTRL_RUN, 1)] State.reset
def st19 := (barTick 5 (wBuf 3 [(F.BED_STAT_PHASE, 4), (F.BED_NEXT_COMMITTED, 1), (F.BED_NEXT_BUF, 2)])).onDev (fun d => { d with tick := 9 })
def st20 := wBuf 3 [(F.BED_STAT_PHASE, 1), (F.BED_CTRL_RUN, 1), (F.BED_NEXT_COMMITTED, 1), (F.BED_NEXT_BUF, 2)]
def st21 := (withBed { wBed0 with scanned := false } (wBuf 4 [(F.BED_STAT_PHASE, 2)])).onDev (fun d => { d with tick := 64, bar := { d.bar with hznFrom := 1, latched := some 2 } })
def st22 := withBed { wBed0 with scanned := false } (wBuf 3 [])
def st23 := wExp [(0, tile0 id)]
def st24 := tile0 (fun t => { t with
    rcd := { t.rcd with partner := 1 }
    paired := true
    paths := [path0 (.running 0), path0 .fresh] })
def st25 := tile0 (fun t => { t with
    rcd := { t.rcd with partner := 0 }
    paired := true
    paths := [path0 (.running 1), path0 .fresh] })
def st26 := tile0 (fun t => { t with
    rcd := { t.rcd with partner := 0 }
    paired := true
    paths := [path0 .ended, path0 .fresh] })
def st28 := withRun 0 (runWait (.bed 2 0 0)) (wExp [(0, runTile)])
def st29 := withRegs [(F.BED_CTRL_VHOLD, 1)] (wExp [(0, tile0 (fun t => { t with
    endT := some 0
    rcd := { t.rcd with expCrc := 1 } }))])
def st30 := tile0 (fun t => { t with
    endT := some 0
    rcd := { t.rcd with expCrc := 1 } })
def st31 := (withRegs [(F.BED_QREC_SIZE_SIZE, 4), (F.BED_QREC_BASE_BASE, 9)] (wExp [(0, tile0 (fun t => { t with endT := some 0 }))])).onDev (fun d => { d with bar := { d.bar with finishOrder := [(2, 0)] } })
def st32 := tile0 (fun t => { t with endT := some 0 })
def st33 := rig liveFull (withRegs [(F.BED_STAT_PHASE, 2)] State.reset)
def st34 := wStaged (wRun (rig liveFull (withRegs [(F.BED_STAT_PHASE, 2)] State.reset)))
def st35 := wSlots []
def st36 := wSlots [(0, rigFull)]
def st37 := wSlots [(1, rigFull)]
def st38 := wSlots [(0, rigFull), (1, rigFull)]
def st39 := wImgAt [] State.reset
def st41 := dev0 (fun d => { d with rig := { d.rig with latched := some ⟨1, []⟩ } })
def st42 := withRegs [(F.BED_STAT_PHASE, 2)] wPort
def st43 := wImgAt axsImg (withRegs [(F.AXSa_STAT_STATE 0, 2)] wRigged)
def st44 := Move.mk .hold false 0 0 0 0 0 0 0 (fracI 0) (fracI 4) (fracI 0) (fracI 0) (fracI 0) (fracI 0) (fracI 1) (fracI 1) (fracI 0) []
def st45 := withRegs [(F.BEAMn_PSTAT_LINK 3, 1)] State.reset
def st46 := withRegs [(F.BEAMn_PSTAT_LINK 3, 2)] State.reset
def st47 := withRegs [(F.BEAMn_PSTAT_LINK 3, 5)] State.reset
def st48 := withRegs [(F.BEAMn_PSTAT_LINK 3, 3)] State.reset
def st49 := withRegs [(F.BEAMn_PSTAT_LINK 3, 3), (F.BEAMn_PSTAT_TFAIL 3, 1)] State.reset
def st50 := wLsr (fun x => { x with lsr := true })
def st51 := (wLsr (fun x => { x with lsrDone := true })).onDev (fun d => { d with time := 2000000000 })
def st52 := wPort.onDev (fun d => { d with time := 2000000000 })
def st53 := wPairSt [(F.ENG_PAIRk_STATE 5, 2)]
def st54 := withRegs [(F.ENG_PAIRk_STATE 33, 2)] wPort
def st55 := withRegs [(F.ENG_PAIRk_STATE 5, 3), (F.ENG_PAIRk_PORT 5, 7)] State.reset
def st56 := withRegs [(F.ENG_PAIRk_STATE 5, 3), (F.ENG_PAIRk_PORT 5, 7), (F.ENG_PAIRk_STATE 35, 2)] State.reset
def st57 := withRegs [(F.BEAMn_PSTAT_ATTACHED 0, 0)] wPort
def st58 := loop0s (fun l => { l with melt := { l.melt with ramp := some 799 } }) State.reset
def st59 := loop0s (fun l => { l with src := { l.src with ramp := some 798 } }) State.reset
def st60 := loop0s (fun l => { l with melt := { l.melt with
    lost := true
    valid := 256
    i := 5 } }) State.reset
def st61 := withRegs [(F.LOOPn_YY_LEN_LEN 0, 9), (F.LOOPn_STAT_YY_RUN 0, 1)] (loop0s (fun l => { l with yy := some ⟨9, 0, 0, 0⟩ }) State.reset)
def st62 := withRegs [(F.LOOPn_YY_LEN_LEN 0, 10)] (loop0s (fun l => { l with yy := some ⟨9, 0, 0, 0⟩ }) State.reset)
def st63 := withRegs [(F.LOOPn_CAP_LEN_LEN 0, 4), (F.LOOPn_CAP_WR_COUNT 0, 4)] (loop0s (fun l => { l with cap := .running }) State.reset)
def st64 := Move.mk .sync false 0 0 0 0 0 0 0 (fracI 0) (fracI 4) (fracI 0) (fracI 0) (fracI 0) (fracI 0) (fracI 1) (fracI 1) (fracI 0) []
def st65 := (regFind 0 regSpecs).getD ⟨⟨"", 0, 0, 0, 0, 0, .device, []⟩, 0, 0⟩
def st66 := withRegs [(F.HST_ATTN_CAUSE, 5)] State.reset
def st67 := withRegs [(F.BED_STAT_PHASE, 2)] State.reset
def st68 := withRegs [(F.PTP_CTRL_EN, 1), (F.PTP_STAT_STATE, 5), (F.PTP_CTRL_TRANSPORT, 0), (F.PTP_CTRL_COMPAT, 0), (F.PTP_CTRL_BC, 0), (F.PTP_CTRL_ONESTEP, 0), (F.PTP_CTRL_P2P, 0), (F.PTP_CTRL_SLAVE_ONLY, 0)] State.reset
def st69 := withRegs [(F.PTP_CTRL_EN, 1), (F.PTP_STAT_STATE, 2), (F.PTP_CTRL_TRANSPORT, 0), (F.PTP_CTRL_COMPAT, 0), (F.PTP_CTRL_BC, 0), (F.PTP_CTRL_ONESTEP, 0), (F.PTP_CTRL_P2P, 0), (F.PTP_CTRL_SLAVE_ONLY, 0)] State.reset
def st70 := wEnc [] id
def st71 := wEnc [(F.QEe_PRESET_VAL 3, 77)] id
def st72 := withRegs [(F.AXSa_CTRL_EN 1, 1), (F.AXSa_STAT_STATE 1, 1)] wAxis
def st73 := withRegs [(F.HND_FT_VALID1_VALID, 2 ^ 31), (F.HND_FTk_INFO_RESOLVED 63, 1)] State.reset
def st74 := withRegs [(F.HND_FT_VALID1_VALID, 2 ^ 31)] State.reset
def st75 := withRegs [(F.SNS_STAT_CAL_RUN, 1)] State.reset
def st76 := dev0 (fun d => { d with tick := 100000, sns := { d.sns with slews := [⟨.ofs 3, [fracI 5], [fracI 9], 0⟩] } })
def st77 := dev0 (fun d => { d with sns := { d.sns with slews := [⟨.ofs 3, [fracI 5], [fracI 9], 0⟩] } })
def st78 := wTrace (fun _ => tr0)
def st79 := wTrace (fun _ => { tr0 with ofs := some (estOf tr0) })
def st80 := wSpot (fun x => { x with slew := some (0, 0) })
def st81 := wSpot (fun x => { x with storedAt := some 0 })
def st82 := wSpot (fun x => { x with stored := (1, 1) })
def st83 := wCam id []
def st84 := wCam (fun c => { c with lost := true }) []
def st85 := wFrame []
def st86 := wFrame [(F.CAMm_FEAT_SIZE_SIZE 2, 1), (F.CAMm_FEAT_BASE_BASE 2, 1)]
def st87 := (wCam id []).onDev (fun d => { d with time := 1000000000 })
def st88 := wCam id [(F.CAMm_TRIG_MODE 2, 1), (F.CAMm_TRIG_PER_PERIOD 2, 1)]
def st89 := (withRegs [(F.THM_Pn_STAT_LEVEL 0, 2), (F.HND_Pn_STAT_SHED 0, 1), (F.THM_Pn_CFG_STEP 0, 1)] wPort).onDev (fun d => { d with time := 1000000000 })
def st90 := wOut (fun o => { o with granted := true, started := true })
def st91 := wOutRun (fun o => { o with granted := true })
def st92 := wOutLone (fun o => { o with granted := true })
def st93 := wGlk 3 []
def st94 := wGlk 1 []
def st95 := wGlk 5 []
def st96 := wGlk 5 [(F.GLKp_STAT_STATE 2, 5), (F.GLKp_STAT_NBR_NODE 2, 6)]
def st97 := wGlk 5 [(F.GLKp_STAT_NBR_NODE 1, 9)]
def st98 := wGlk 5 [(F.GLKp_STAT_STATE 2, 5), (F.GLK_STAT_ROLE, 1)]
def st99 := wGlk 0 [(F.GLK_CTRL_PORT_EN, 2)]
def st100 := wGlk 0 [(F.GLK_CTRL_PORT_EN, 0)]
def st101 := wGlk 2 []
def st102 := wGlkAt (fun x => { x with delays := List.replicate 256 800 }) (wGlk 4 [])
def st103 := wGlk 4 []
def st104 := (wGlk 4 []).onDev (fun d => { d with time := 100000000 })
def st105 := wGlk 5 [(F.GLK_STAT_ROLE, 1)]
def st106 := rig secs0 (wOutLone (fun o => { o with granted := true }))
def st107 := wPtp 6 []
def st108 := wPtp 2 [(F.PTP_STAT_TIME_VALID, 1)]
def st109 := wPtp 1 [(F.PTP_STAT_TIME_VALID, 0)]
def st110 := wPtp 1 []
def st111 := wPtp 1 [(F.PTP_CTRL_P2P, 1)]
def st112 := wPtp 2 [(F.PTPp_STAT_PSTATE 0, 6)]
def st113 := wPtp 2 [(F.PTP_CTRL_P2P, 1), (F.PTP_CTRL_ONESTEP, 1)]
def st114 := wPtp 2 [(F.PTP_CTRL_COMPAT, 1)]
def st115 := wPtp 2 [(F.PTP_STAT_PHASE_SLEW, 1)]
def st117 := wPtp 2 [(F.PTPp_STAT_LINK 0, 1), (F.PTPp_STAT_PSTATE 0, 6)]
def st118 := (wCh 2 id).onDev (fun d => d.put F.DDR_CTRL_RT_PERIOD 1)
def st119 := wCh 2 (fun x => { x with rtLeft := 1 })
def st120 := (wCh 2 (fun x => { x with rtWait := some 0 })).onDev (fun d => { d with time := 1000000000 })
def st121 := wReqs (some [1#8, 2#8]) 2
def st122 := wIdleCh []
def st123 := wIdleCh [(F.DDR_CHc_STAT_STATE 1, 4)]
def st124 := wThm [(F.THM_INt_VAL_FAILED 70, 1), (F.THM_INt_VAL_TEMP 70, 400)] (fun d => { d with time := 10000000000 })
def st125 := wThm [(F.THM_Pn_STAT_LATCH 3, 1)] (fun d => ({ d with time := 10000000000 }).updThmBeam 3 (fun b => { b with cool := some 0 }))
def st126 := wThm [(F.HND_Pn_STAT_STATE 3, 2)] (fun d => d.updThmBeam 3 (fun b => { b with report := some report0 }))
def st127 := wPort.onDev (fun d => d.updThmBeam 0 (fun b => { b with report := some report0 }))
def st128 := wThm [(F.HND_Pn_STAT_STATE 3, 2)] (fun d => ({ d with time := 60000000000 }).updThmBeam 3 (fun b => { b with blindAt := some 0 }))
def st129 := wThm [(F.THM_INt_VAL_FAILED 70, 1)] id
def st130 := wThm [(F.THM_INt_VAL_FAILED 70, 0)] id
def st131 := wThm [] id
def st133 := wLight [(F.LED_CTRL_EN, 1), (F.LED_CTRL_APPLY, 1)] (fun l => { l with frame := some (0xFFFFFE0C, 0), begun := true })
def st134 := wLight [] (fun l => { l with frame := some (0, 0) })
def st135 := wLight [] (fun l => { l with frame := some (0, 0xFFFFFFFFFFFF0BDC) })
def st136 := wLight [] (fun l => { l with frame := some (0, 0xFFFFFFFFFFFF85EE) })
def st137 := wEnc [(F.QEe_COUNT_COUNT 3, 0xFFFFFFFF)] id
def st138 := wEnc [(F.QEe_STAT_MOVING 3, 1)] (fun e => { e with clock := 16777216 })
def st139 := wCmp [] (fun c => { c with arm := true, value := some 1 })
def st140 := wCmp [] (fun c => { c with arm := true, value := some 0 })
def st141 := wAxs [(F.AXSa_STAT_STATE 1, 3)] id
def st142 := wAxs [] id
def st143 := wAxs [(F.AXSa_KP_VAL 1, 0x7F800000)] (fun x => { x with ref := 2 ^ 40 })
def st144 := wAxs [(F.AXSa_FE_LIM_LIM 1, 1)] (fun x => { x with ref := 2 ^ 40, feRun := 3 })
def st145 := wBist [] (fun b => { b with ana := some (.enc 7) })
def st146 := wBist [(F.BIST_CTRL_DEN, 1), (F.ENG_PAIRk_STATE 0, 2)] id
def st147 := wBist [] (fun b => { b with ana := some (.pd 5) })
def st148 := wBist [(F.ENG_PAIRk_STATE 35, 2)] (fun b => { b with dig := some (.pairLogic 35) })
def st149 := rig [fabric 1] wTel
def st150 := wFifo [ev0 1, ev0 2, ev0 2]
def st151 := wFifo [ev0 1]
def st152 := wFifo [ev0 2, ev0 1]
def st153 := withRegs [(F.EVR_PAGES_RETIRED, 0xFFFF), (F.EVR_STAT_LASTGASP, 1)] (wFifo [ev0 2])
def st154 := withRegs [(F.EVR_STAT_FROZEN, 1)] State.reset
def st155 := wSlot [(F.EVR_STAT_FLASH_FAIL, 1)]
def st156 := wSlot [(F.EVR_STAT_FLASH_FAIL, 0)]
def st157 := wSlot [(F.EVR_CTRL_PERSIST, 1), (F.EVR_STAT_FLASH_READY, 1)]
def st158 := withRegs [(F.EVR_STAT_FLASH_READY, 1)] State.reset


/-! ## Witnesses: the hypotheses of each statement's clauses are met together -/

/-- A check that fails with e, judged by evaluation. -/
theorem eqErr {a b : Type} [DecidableEq a] {x : Except a b} {e : a} (h : (match x with | .error y => decide (y = e) | .ok _ => false) = true) :
    x = .error e := by
  cases x with
  | error y => exact congrArg Except.error (of_decide_eq_true h)
  | ok _ => cases h

/-- A check that passes with y, judged by evaluation. -/
theorem eqOk {a b : Type} [DecidableEq b] {x : Except a b} {y : b} (h : (match x with | .ok z => decide (z = y) | .error _ => false) = true) :
    x = .ok y := by
  cases x with
  | ok z => exact congrArg Except.ok (of_decide_eq_true h)
  | error _ => cases h

/-- A rigging check that passes, with what it gives. -/
theorem eqOkOf {x : Except RigErr (List Section)} (h : okB x = true) : x = .ok (okOf x) := by
  cases x with
  | ok z => rfl
  | error _ => cases h

theorem wit_MailboxWordsSubmissionsDuplicates :
    wFree.dev.hst.free = true ∧
    State.reset.dev.hst.free = false ∧
    (wSubmit.dev.hst.free = true ∧ wSubmit.dev.hst.resetWait = none ∧ wSubmit.dev.hst.known 0 (wSubmit.dev.hst.word 1) = none ∧ wSubmit.dev.hst.queued < 16) ∧
    (wQueueFull.dev.hst.free = true ∧ wQueueFull.dev.hst.known 0 (wQueueFull.dev.hst.word 1) = none ∧ wQueueFull.dev.hst.queued = 16) ∧
    (wKnown.dev.hst.free = true ∧ wKnown.dev.hst.resetWait = none ∧ wKnown.dev.hst.queued < 16 ∧ wKnown.dev.hst.known 0 (wKnown.dev.hst.word 1) = some (Remembered.mk 0 (7 : Word) (some (0, (3 : DWord)))) ∧ (Remembered.mk 0 (7 : Word) (some (0, (3 : DWord)))).done = some (0, (3 : DWord))) := by
  decide +kernel

theorem wit_LanesHoldCommands :
    (mailboxRow (Instr.rigCancel (7 : Word)) = some (Lane.ctrl, 18, (7 : Word)) ∧ (sup0 SupState.restarting).dev.sys.sup = SupState.restarting) ∧
    ((tfind wRunning.dev.hst.running (laneIx Lane.ctrl)).isSome = true ∨ tget [] wRunning.dev.hst.finished (laneIx Lane.ctrl) ≠ []) ∧
    ((sup0 SupState.halted).dev.mayRun Lane.ctrl 18 (7 : Word) = true ∧ (sup0 SupState.halted).dev.sys.sup = SupState.halted) ∧
    (mailboxRow (Instr.bufDiscard (7 : Word) (16 : Word) (0 : Word)) = some (Lane.buf, 34, (7 : Word)) ∧ State.reset.dev.mayRun Lane.buf 34 (7 : Word) = true ∧ State.reset.dev.sys.sup ≠ SupState.halted ∧ badParam (Instr.bufDiscard (7 : Word) (16 : Word) (0 : Word)) = true) := by
  decide +kernel

theorem wit_CompletionsAndFinishedCommands :
    (tget [] wDone.dev.hst.finished (laneIx Lane.ctrl) = [cpl0] ∧ tfind wDone.dev.hst.mbx 15 = none ∧ wDone.dev.hst.cpl.length < 32) ∧
    (tget [] wDoneFull.dev.hst.finished (laneIx Lane.ctrl) = [cpl0] ∧ tfind wDoneFull.dev.hst.mbx 15 = none ∧ 32 ≤ wDoneFull.dev.hst.cpl.length) ∧
    List.filter (fun c => c.tag == (7 : Word)) st1.dev.hst.dupWait = [] ∧
    State.reset.dev.mayRun Lane.ctrl 1 (7 : Word) = true ∧
    (State.reset.dev.mayRun Lane.ctrl 3 (7 : Word) = true ∧ State.reset.dev.sys.sup ≠ SupState.halted) ∧
    (wFenceWaits.dev.ddr.fence = some (FenceRun.mk (7 : Word) [1] true) ∧ (wFenceWaits.dev.ddr.waiting.any fun w => (FenceRun.mk (7 : Word) [1] true).ids.contains w.id) = true) ∧
    (wFence.dev.ddr.fence = some (FenceRun.mk (7 : Word) [1] true) ∧ (wFence.dev.ddr.waiting.any fun w => (FenceRun.mk (7 : Word) [1] true).ids.contains w.id) = false) := by
  decide +kernel

theorem wit_BadAccessAndWindow :
    (wDram.dev.beyond (wDram.dev.get F.HST_WIN_BASE * 2 ^ 28 + BitVec.toNat (16 : BitVec 28)) [(1 : Byte), (2 : Byte)].length = false ∧ wDram.dev.lockedBuf 68 (wDram.dev.get F.HST_WIN_BASE * 2 ^ 28 + BitVec.toNat (16 : BitVec 28)) [(1 : Byte), (2 : Byte)].length = none ∧ wDram.dev.goneAt (wDram.dev.get F.HST_WIN_BASE * 2 ^ 28 + BitVec.toNat (16 : BitVec 28)) [(1 : Byte), (2 : Byte)].length = none) ∧
    State.reset.dev.beyond (State.reset.dev.get F.HST_WIN_BASE * 2 ^ 28 + BitVec.toNat (16 : BitVec 28)) [(1 : Byte), (2 : Byte)].length = true ∧
    (wLocked.dev.beyond (wLocked.dev.get F.HST_WIN_BASE * 2 ^ 28 + BitVec.toNat (4095 : BitVec 28)) [(1 : Byte), (2 : Byte)].length = false ∧ wLocked.dev.lockedBuf 68 (wLocked.dev.get F.HST_WIN_BASE * 2 ^ 28 + BitVec.toNat (4095 : BitVec 28)) [(1 : Byte), (2 : Byte)].length = some 3) ∧
    (wPoison.dev.beyond (wPoison.dev.get F.HST_WIN_BASE * 2 ^ 28 + BitVec.toNat (0 : BitVec 28)) 5 = false ∧ wPoison.dev.goneAt (wPoison.dev.get F.HST_WIN_BASE * 2 ^ 28 + BitVec.toNat (0 : BitVec 28)) 5 = none ∧ wPoison.mem.poisoned (wPoison.dev.get F.HST_WIN_BASE * 2 ^ 28 + BitVec.toNat (0 : BitVec 28)) 5 = false) ∧
    State.reset.dev.beyond (State.reset.dev.get F.HST_WIN_BASE * 2 ^ 28 + BitVec.toNat (0 : BitVec 28)) 5 = true := by
  decide +kernel

theorem wit_DmaDescriptors :
    (wDma.dev.dmaTakes 2 = true ∧ (dmaParse descBad).wellFormed = false) ∧
    ((dmaParse descGood).wellFormed = true ∧ (dmaParse descGood).kind = 0 ∧ (List.replicate 16 (7 : Byte)).length = (dmaParse descGood).len ∧ wDma.dev.beyond (dmaParse descGood).dev (dmaParse descGood).len = false ∧ wDma.dev.lockedBuf (64 + 2) (dmaParse descGood).dev (dmaParse descGood).len = none ∧ wDma.dev.goneAt (dmaParse descGood).dev (dmaParse descGood).len = none) ∧
    (tfind (wDmaDone 1).dev.hst.dma 3 = some (DmaJob.mk (0 : DWord) 3 true 1 16) ∧ (DmaJob.mk (0 : DWord) 3 true 1 16).index < (wDmaDone 1).dev.get (F.HST_DMAc_RING_SIZE_SIZE 3) ∧ (wDmaDone 1).dev.get (F.HST_DMAc_RING_SIZE_SIZE 3) ≤ 4096) ∧
    (tfind (wDmaDone 7).dev.hst.dma 3 = some (DmaJob.mk (0 : DWord) 3 true 7 16) ∧ (DmaJob.mk (0 : DWord) 3 true 7 16).index < (wDmaDone 7).dev.get (F.HST_DMAc_RING_SIZE_SIZE 3) ∧ (wDmaDone 7).dev.get (F.HST_DMAc_RING_SIZE_SIZE 3) ≤ 4096) := by
  decide +kernel

theorem wit_FullResetReturnsEverything :
    (ResetCause.command = ResetCause.command → wResetWait.dev.resetReady = true) ∧
    (ResetCause.power = ResetCause.command → wDram.dev.resetReady = true) ∧
    wResetBusy.dev.resetReady = false := by
  decide +kernel

theorem wit_ResetsAndStartup :
    (State.reset.dev.mayRun Lane.ctrl 2 (7 : Word) = true ∧ (1 : Word) ≠ BitVec.ofNat 32 42405) ∧
    State.reset.dev.mayRun Lane.ctrl 2 (7 : Word) = true ∧
    State.reset.dev.get F.HST_STAT_PHASE = 0 ∧
    wCal.dev.get F.HST_STAT_PHASE ≠ 0 ∧
    (wCal.dev.get F.HST_STAT_PHASE = 3 ∧ wCal.dev.get F.SNS_STAT_CAL_DONE = 1 ∧ wCal.dev.hst.resetWait = none) ∧
    State.reset.dev.get F.HST_STAT_PHASE ≠ 3 := by
  decide +kernel

theorem wit_SupervisorRestartsOrHalts :
    State.reset.dev.sys.sup ≠ SupState.halted ∧
    (wMis (0 : DWord)).dev.sys.sup ≠ SupState.halted ∧
    (wMis (BitVec.ofNat 64 3600000000001)).dev.sys.sup ≠ SupState.halted ∧
    (sup0 SupState.restarting).dev.sys.sup = SupState.restarting ∧
    State.reset.dev.sys.sup ≠ SupState.restarting := by
  decide +kernel

theorem wit_BridgeFailuresAndSilence :
    wSilent.dev.sys.ctrlSilent = true ∧
    (State.reset.dev.sys.ctrlSilent = false ∧ portsInUse (State.reset.dev.sections false) = []) ∧
    (wGpf.dev.rigged = true ∧ 64 ≤ pinFn (wGpf.dev.sections false) 0 ∧ pinFn (wGpf.dev.sections false) 0 ≤ 79) ∧
    pinFn (wGpf.dev.sections false) 1 < 64 := by
  decide +kernel

theorem wit_BuffersOpenAndDiscard :
    (State.reset.dev.mayRun Lane.buf 32 (7 : Word) = true ∧ State.reset.dev.sys.sup ≠ SupState.halted) ∧
    State.reset.dev.genNew (BitVec.toNat (2 : Word)) (0 : Word) = false ∧
    (st2.dev.mayRun Lane.buf 32 (7 : Word) = true ∧ st2.dev.sys.sup ≠ SupState.halted ∧ st2.dev.genNew (BitVec.toNat (2 : Word)) (6 : Word) = true ∧ st2.dev.get (F.BED_BUFn_STAT_PEND (BitVec.toNat (2 : Word))) = 1) ∧
    (wDram.dev.mayRun Lane.buf 32 (7 : Word) = true ∧ wDram.dev.sys.sup ≠ SupState.halted ∧ wDram.dev.genNew (BitVec.toNat (15 : Word)) (6 : Word) = true ∧ wDram.dev.get (F.BED_BUFn_STAT_PEND (BitVec.toNat (15 : Word))) = 0 ∧ wDram.dev.badPlacement (BitVec.toNat (15 : Word)) = true) ∧
    (st3.dev.mayRun Lane.buf 32 (7 : Word) = true ∧ st3.dev.sys.sup ≠ SupState.halted ∧ st3.dev.genNew (BitVec.toNat (2 : Word)) (6 : Word) = true ∧ st3.dev.get (F.BED_BUFn_STAT_PEND (BitVec.toNat (2 : Word))) = 0 ∧ st3.dev.badPlacement (BitVec.toNat (2 : Word)) = false ∧ st3.dev.get (F.BED_BUFn_STAT_STATE (BitVec.toNat (2 : Word))) ≠ 0) ∧
    (st4.dev.mayRun Lane.buf 32 (7 : Word) = true ∧ st4.dev.sys.sup ≠ SupState.halted ∧ st4.dev.genNew (BitVec.toNat (2 : Word)) (6 : Word) = true ∧ st4.dev.get (F.BED_BUFn_STAT_PEND (BitVec.toNat (2 : Word))) = 0 ∧ st4.dev.badPlacement (BitVec.toNat (2 : Word)) = false ∧ st4.dev.get (F.BED_BUFn_STAT_STATE (BitVec.toNat (2 : Word))) = 0) ∧
    (st5.dev.mayRun Lane.buf 34 (7 : Word) = true ∧ st5.dev.sys.sup ≠ SupState.halted ∧ st5.dev.get (F.BED_BUFn_STAT_SEALING (BitVec.toNat (2 : Word))) = 0 ∧ st5.dev.get (F.BED_BUFn_STAT_PEND (BitVec.toNat (2 : Word))) = 1 ∧ st5.dev.getW (F.BED_BUFn_PEND_GEN_GEN (BitVec.toNat (2 : Word))) = (6 : Word)) ∧
    (st3.dev.mayRun Lane.buf 34 (7 : Word) = true ∧ st3.dev.get (F.BED_BUFn_STAT_SEALING (BitVec.toNat (2 : Word))) = 0 ∧ st3.dev.genIs (BitVec.toNat (2 : Word)) (6 : Word) = false) ∧
    (st6.dev.mayRun Lane.buf 34 (7 : Word) = true ∧ st6.dev.sys.sup ≠ SupState.halted ∧ st6.dev.get (F.BED_BUFn_STAT_SEALING (BitVec.toNat (2 : Word))) = 0 ∧ st6.dev.get (F.BED_BUFn_STAT_PEND (BitVec.toNat (2 : Word))) = 0 ∧ st6.dev.genIs (BitVec.toNat (2 : Word)) (5 : Word) = true ∧ st6.dev.get (F.BED_BUFn_STAT_STATE (BitVec.toNat (2 : Word))) = 2) ∧
    (st7.dev.mayRun Lane.buf 34 (7 : Word) = true ∧ st7.dev.sys.sup ≠ SupState.halted ∧ st7.dev.get (F.BED_BUFn_STAT_SEALING (BitVec.toNat (2 : Word))) = 0 ∧ st7.dev.get (F.BED_BUFn_STAT_PEND (BitVec.toNat (2 : Word))) = 0 ∧ st7.dev.genIs (BitVec.toNat (2 : Word)) (5 : Word) = true ∧ 3 ≤ st7.dev.get (F.BED_BUFn_STAT_STATE (BitVec.toNat (2 : Word)))) ∧
    st8.dev.get (F.BED_BUFn_STAT_STATE 2) ≠ 5 ∧
    (st9.dev.get (F.BED_BUFn_STAT_STATE 2) = 5 ∧ st9.dev.bed? 2 = some wBed0 ∧ st9.dev.bedBusy 2 = false ∧ wBed0.verified = true ∧ wBed0.allRecorded = true ∧ st9.dev.get (F.BED_BUFn_STAT_PEND 2) = 0) := by
  decide +kernel

theorem wit_BuffersSealAndCover :
    (st6.dev.mayRun Lane.buf 33 (7 : Word) = true ∧ st6.dev.sys.sup ≠ SupState.halted ∧ st6.dev.rig.staged = none ∧ st6.dev.genIs (BitVec.toNat (2 : Word)) (5 : Word) = true ∧ st6.dev.get (F.BED_BUFn_STAT_SEALING (BitVec.toNat (2 : Word))) = 0 ∧ st6.dev.get (F.BED_BUFn_STAT_STATE (BitVec.toNat (2 : Word))) ≠ 1) ∧
    (st3.dev.mayRun Lane.buf 33 (7 : Word) = true ∧ st3.dev.sys.sup ≠ SupState.halted ∧ st3.dev.rig.staged = none ∧ st3.dev.genIs (BitVec.toNat (2 : Word)) (5 : Word) = true ∧ st3.dev.get (F.BED_BUFn_STAT_SEALING (BitVec.toNat (2 : Word))) = 0 ∧ st3.dev.get (F.BED_BUFn_STAT_STATE (BitVec.toNat (2 : Word))) = 1) ∧
    (wStaged State.reset).dev.rig.staged.isSome = true ∧
    (State.reset.dev.mayRun Lane.buf 33 (7 : Word) = true ∧ State.reset.dev.sys.sup ≠ SupState.halted ∧ State.reset.dev.rig.staged = none) ∧
    st3.dev.genIs (BitVec.toNat (2 : Word)) (4 : Word) = false ∧
    (wSealing.dev.mayRun Lane.buf 33 (7 : Word) = true ∧ wSealing.dev.sys.sup ≠ SupState.halted ∧ wSealing.dev.rig.staged = none ∧ wSealing.dev.genIs (BitVec.toNat (2 : Word)) (5 : Word) = true ∧ wSealing.dev.get (F.BED_BUFn_STAT_SEALING (BitVec.toNat (2 : Word))) ≠ 0) ∧
    (wSealing.dev.bar.sealing = some (SealRun.mk 2 5 (7 : Word) [0, 0, 0, 0]) ∧ (SealRun.mk 2 5 (7 : Word) [0, 0, 0, 0]).buf < 16 ∧ (∀ c < 4, wSealing.dev.sealAwaits c = false) ∧ wSealing.dev.sealChecks wSealing.mem (SealRun.mk 2 5 (7 : Word) [0, 0, 0, 0]).buf (SealRun.mk 2 5 (7 : Word) [0, 0, 0, 0]).gen = Except.error (1, 16777215)) ∧
    (wSealGood.dev.bar.sealing = some (SealRun.mk 2 5 (7 : Word) [0, 0, 0, 0]) ∧ (∀ c < 4, wSealGood.dev.sealAwaits c = false)) ∧
    (st6.dev.mayRun Lane.buf 35 (7 : Word) = true ∧ aligned16 (16 : DWord) = true ∧ st6.dev.get (F.BED_BUFn_STAT_STATE (BitVec.toNat (2 : Word))) = 2 ∧ st6.dev.uncoverable st6.mem (BitVec.toNat (2 : Word)) = []) ∧
    (st10.dev.mayRun Lane.buf 35 (7 : Word) = true ∧ st10.dev.sys.sup ≠ SupState.halted ∧ st10.dev.genIs (BitVec.toNat (2 : Word)) (5 : Word) = true ∧ st10.dev.get (F.BED_BUFn_STAT_STATE (BitVec.toNat (2 : Word))) = 2 ∧ st10.dev.uncoverable st10.mem (BitVec.toNat (2 : Word)) = [(0, 0)] ∧ st10.dev.beyond (BitVec.toNat (16 : DWord)) 8 = false ∧ st10.dev.goneAt (BitVec.toNat (16 : DWord)) 8 = none) ∧
    st6.dev.genIs (BitVec.toNat (2 : Word)) (4 : Word) = false ∧
    (st3.dev.mayRun Lane.buf 35 (7 : Word) = true ∧ st3.dev.get (F.BED_BUFn_STAT_STATE (BitVec.toNat (2 : Word))) ≠ 2) :=
  ⟨⟨by decide +kernel, by decide +kernel, by decide +kernel, by decide +kernel, by decide +kernel, by decide +kernel⟩, ⟨by decide +kernel, by decide +kernel, by decide +kernel, by decide +kernel, by decide +kernel, by decide +kernel⟩, by decide +kernel, ⟨by decide +kernel, by decide +kernel, by decide +kernel⟩, by decide +kernel, ⟨by decide +kernel, by decide +kernel, by decide +kernel, by decide +kernel, by decide +kernel⟩, ⟨by decide +kernel, by decide +kernel, by decide +kernel, eqErr (by decide +kernel)⟩, ⟨by decide +kernel, by decide +kernel⟩, ⟨by decide +kernel, by decide +kernel, by decide +kernel, by decide +kernel⟩, ⟨by decide +kernel, by decide +kernel, by decide +kernel, by decide +kernel, by decide +kernel, by decide +kernel, by decide +kernel⟩, by decide +kernel, ⟨by decide +kernel, by decide +kernel⟩⟩

theorem wit_BedsCommitAbortRecoat :
    (State.reset.dev.mayRun Lane.ctrl 48 (7 : Word) = true ∧ State.reset.dev.sys.sup ≠ SupState.halted) ∧
    State.reset.dev.rigged = false ∧
    (st11.dev.mayRun Lane.ctrl 48 (7 : Word) = true ∧ st11.dev.sys.sup ≠ SupState.halted ∧ st11.dev.rigged = true ∧ st11.dev.genIs (BitVec.toNat (2 : Word)) (4 : Word) = false) ∧
    (st12.dev.mayRun Lane.ctrl 48 (7 : Word) = true ∧ st12.dev.sys.sup ≠ SupState.halted ∧ st12.dev.rigged = true ∧ st12.dev.genIs (BitVec.toNat (2 : Word)) (5 : Word) = true ∧ st12.dev.get F.BED_NEXT_COMMITTED = 1) ∧
    (st13.dev.mayRun Lane.ctrl 48 (7 : Word) = true ∧ st13.dev.sys.sup ≠ SupState.halted ∧ st13.dev.rigged = true ∧ st13.dev.genIs (BitVec.toNat (2 : Word)) (5 : Word) = true ∧ st13.dev.get F.BED_NEXT_COMMITTED = 0 ∧ st13.dev.get (F.BED_BUFn_STAT_STATE (BitVec.toNat (2 : Word))) ≠ 2) ∧
    (st14.dev.mayRun Lane.ctrl 48 (7 : Word) = true ∧ st14.dev.sys.sup ≠ SupState.halted ∧ st14.dev.rigged = true ∧ st14.dev.genIs (BitVec.toNat (2 : Word)) (5 : Word) = true ∧ st14.dev.get F.BED_NEXT_COMMITTED = 0 ∧ st14.dev.get (F.BED_BUFn_STAT_STATE (BitVec.toNat (2 : Word))) = 2) ∧
    (st15.dev.mayRun Lane.ctrl 49 (7 : Word) = true ∧ st15.dev.sys.sup ≠ SupState.halted ∧ st15.dev.committedBuf = some 2) ∧
    (State.reset.dev.mayRun Lane.ctrl 49 (7 : Word) = true ∧ State.reset.dev.committedBuf = none) ∧
    (st16.dev.mayRun Lane.ctrl 50 (7 : Word) = true ∧ st16.dev.sys.sup ≠ SupState.halted ∧ st16.dev.bar.beds = [] ∧ st16.dev.bar.latched = none ∧ st16.dev.runningPorts = [] ∧ st16.dev.get F.BED_STAT_PHASE = 3) ∧
    (State.reset.dev.mayRun Lane.ctrl 51 (7 : Word) = true ∧ State.reset.dev.get F.BED_STAT_PHASE ≠ 3) ∧
    (st17.dev.mayRun Lane.ctrl 51 (7 : Word) = true ∧ st17.dev.sys.sup ≠ SupState.halted ∧ st17.dev.get F.BED_STAT_PHASE = 3 ∧ st17.dev.bar.cur = none ∧ st17.dev.bar.old = none ∧ st17.dev.get F.BED_CUR_VALID = 0 ∧ st17.dev.get F.BED_CTRL_RUN = 1) := by
  decide +kernel

theorem wit_HorizonAndBoundary :
    State.reset.dev.horizonDue = false ∧
    (st18.dev.horizonDue = true ∧ st18.dev.committedBuf = none) ∧
    (st19.dev.horizonDue = true ∧ st19.dev.committedBuf = some 2 ∧ st19.dev.latchable = some 2) ∧
    (st20.dev.horizonDue = true ∧ st20.dev.committedBuf = some 2 ∧ st20.dev.latchable = none) ∧
    State.reset.dev.get F.BED_STAT_PHASE ≠ 2 ∧
    (st21.dev.get F.BED_STAT_PHASE = 2 ∧ 64 ≤ elapsed32 st21.dev.tick (st21.dev.getW F.BED_HZN_TICK_TICK) ∧ st21.dev.bar.hznFrom = 1 ∧ st21.dev.sys.sup ≠ SupState.halted ∧ st21.dev.rig.latched = none ∧ st21.dev.shadow = []) := by
  decide +kernel

theorem wit_PrescanDealAndPairedStart :
    List.find? (fun x => !x.2.scanned) State.reset.dev.bar.beds = none ∧
    (st22.dev.bar.beds = [(2, let __src := wBed0; Bed.mk __src.buf __src.gen __src.bedNo __src.tileCount __src.segCount __src.stripeCount __src.segOff __src.layer __src.bank __src.psets __src.badSets __src.lostSets __src.chase __src.stripes __src.oldSet false __src.tiles)] ∧ (let __src := wBed0; Bed.mk __src.buf __src.gen __src.bedNo __src.tileCount __src.segCount __src.stripeCount __src.segOff __src.layer __src.bank __src.psets __src.badSets __src.lostSets __src.chase __src.stripes __src.oldSet false __src.tiles).scanned = false ∧ (let __src := wBed0; Bed.mk __src.buf __src.gen __src.bedNo __src.tileCount __src.segCount __src.stripeCount __src.segOff __src.layer __src.bank __src.psets __src.badSets __src.lostSets __src.chase __src.stripes __src.oldSet false __src.tiles).tiles = [] ∧ st22.dev.get (F.BED_BUFn_STAT_STATE 2) ≠ 4) ∧
    State.reset.dev.dealOrder = [] ∧
    (wUnscanned.dev.bar.beds = [(2, let __src := bed1 [(0, scanTile)]; Bed.mk __src.buf __src.gen __src.bedNo __src.tileCount __src.segCount __src.stripeCount __src.segOff __src.layer __src.bank __src.psets __src.badSets __src.lostSets __src.chase __src.stripes __src.oldSet false __src.tiles)] ∧ (let __src := bed1 [(0, scanTile)]; Bed.mk __src.buf __src.gen __src.bedNo __src.tileCount __src.segCount __src.stripeCount __src.segOff __src.layer __src.bank __src.psets __src.badSets __src.lostSets __src.chase __src.stripes __src.oldSet false __src.tiles).scanned = false ∧ (let __src := bed1 [(0, scanTile)]; Bed.mk __src.buf __src.gen __src.bedNo __src.tileCount __src.segCount __src.stripeCount __src.segOff __src.layer __src.bank __src.psets __src.badSets __src.lostSets __src.chase __src.stripes __src.oldSet false __src.tiles).tiles = [(0, scanTile)] ∧ scanTile.scanned = false ∧ scanTile.rcd.lead < 32 ∧ wUnscanned.dev.get (F.BED_BUFn_STAT_STATE 2) ≠ 4 ∧ wUnscanned.mem.poison = [] ∧ (∀ c ∈ scanTile.rcd.named, coverListed (wUnscanned.dev.scanSections 2) scanTile.rcd.lead c = true)) ∧
    (st23.dev.dealOrder = [PKey.bed 2 0 0] ∧ st23.dev.path? (PKey.bed 2 0 0) = some (path0 PStat.fresh) ∧ st23.dev.extraWaits (PKey.bed 2 0 0) = false ∧ st23.dev.eligible st23.mem (PKey.bed 2 0 0) (path0 PStat.fresh) ≠ [] ∧ st23.dev.dealBeam st23.mem (PKey.bed 2 0 0) (path0 PStat.fresh) (st23.dev.eligible st23.mem (PKey.bed 2 0 0) (path0 PStat.fresh)) = some 0 ∧ (st23.dev.engOf 0).queue.length < st23.dev.view 0 F.HND_CTRL_DEPTH) ∧
    (wPair.dev.bar.old = none ∧ wPair.dev.bar.cur = some 2 ∧ wPair.dev.tile? 2 (BitVec.toNat (0 : BitVec 16)) = some st24 ∧ st24.paired = true ∧ st24.rcd.partner ≠ BitVec.toNat (0 : BitVec 16) ∧ wPair.dev.tile? 2 st24.rcd.partner = some st25 ∧ wPair.dev.pairWaits (PKey.bed 2 (BitVec.toNat (0 : BitVec 16)) st24.pairIx) = some 0 ∧ wPair.dev.pairWaits (PKey.bed 2 st24.rcd.partner st24.pairIx) = some 1) ∧
    (wPairOver.dev.bar.old = none ∧ wPairOver.dev.bar.cur = some 2 ∧ wPairOver.dev.tile? 2 (BitVec.toNat (0 : BitVec 16)) = some st24 ∧ wPairOver.dev.tile? 2 st24.rcd.partner = some st26 ∧ wPairOver.dev.pairWaits (PKey.bed 2 (BitVec.toNat (0 : BitVec 16)) st24.pairIx) = some 0 ∧ wPairOver.dev.pairWaits (PKey.bed 2 st24.rcd.partner st24.pairIx) = none) := by
  decide +kernel

theorem wit_UnderrunInterrupts :
    State.reset.dev.runOf 0 = none ∧
    (st28.dev.runOf 0 = some (runWait (PKey.bed 2 0 0)) ∧ (runWait (PKey.bed 2 0 0)).key = PKey.bed 2 0 0 ∧ st28.dev.path? (runWait (PKey.bed 2 0 0)).key = some (path0 (PStat.running 0)) ∧ st28.dev.tile? 2 0 = some runTile ∧ runTile.paired = false ∧ st28.dev.hnd.stbyOut = [] ∧ (path0 (PStat.running 0)).underruns < 4) := by
  decide +kernel

theorem wit_TilesVerifiedQualityRecords :
    (st29.dev.tile? 2 (BitVec.toNat (0 : BitVec 16)) = some st30 ∧ st30.endT.isSome = true ∧ st30.rcd.expCrc ≠ (0 : Word) ∧ st30.crc = none ∧ st29.dev.tileStream st29.mem 2 (BitVec.toNat (0 : BitVec 16)) st30.rcd ≠ []) ∧
    (st23.dev.tile? 2 (BitVec.toNat (0 : BitVec 16)) = some (tile0 id) ∧ st23.dev.bar.finishOrder = []) ∧
    (st31.dev.tile? 2 (BitVec.toNat (0 : BitVec 16)) = some st32 ∧ st31.dev.bar.finishOrder = [(2, BitVec.toNat (0 : BitVec 16))] ∧ st32.rcd.expCrc = (0 : Word) ∧ st31.dev.tileOut 2 (BitVec.toNat (0 : BitVec 16)) = false ∧ 0 < st31.dev.ringLen qrecRing ∧ st31.dev.ringFull qrecRing = false ∧ overBudget st32 (st31.dev.tileEnergy st32) = false ∧ st31.dev.beyond (st31.dev.get F.BED_QREC_BASE_BASE * 4096 + st31.dev.get F.BED_QREC_WR_INDEX * 64) (qrecBytes (BitVec.ofNat 32 (st31.dev.keyBedNo (PKey.bed 2 (BitVec.toNat (0 : BitVec 16)) 0))) (BitVec.toNat (0 : BitVec 16)) st32 (st31.dev.tileEnergy st32) ++ leBytes 4 (BitVec.toNat (crc32c (qrecBytes (BitVec.ofNat 32 (st31.dev.keyBedNo (PKey.bed 2 (BitVec.toNat (0 : BitVec 16)) 0))) (BitVec.toNat (0 : BitVec 16)) st32 (st31.dev.tileEnergy st32))))).length = false ∧ st31.dev.goneAt (st31.dev.get F.BED_QREC_BASE_BASE * 4096 + st31.dev.get F.BED_QREC_WR_INDEX * 64) (qrecBytes (BitVec.ofNat 32 (st31.dev.keyBedNo (PKey.bed 2 (BitVec.toNat (0 : BitVec 16)) 0))) (BitVec.toNat (0 : BitVec 16)) st32 (st31.dev.tileEnergy st32) ++ leBytes 4 (BitVec.toNat (crc32c (qrecBytes (BitVec.ofNat 32 (st31.dev.keyBedNo (PKey.bed 2 (BitVec.toNat (0 : BitVec 16)) 0))) (BitVec.toNat (0 : BitVec 16)) st32 (st31.dev.tileEnergy st32))))).length = none) := by
  decide +kernel

theorem wit_RiggingImages :
    (st33.dev.mayRun Lane.load 16 (7 : Word) = true ∧ st33.dev.sys.sup ≠ SupState.halted ∧ aligned16 (0 : DWord) = true ∧ st33.dev.rigRunning = true) ∧
    ((wStaged State.reset).dev.mayRun Lane.load 16 (7 : Word) = true ∧ (wStaged State.reset).dev.sys.sup ≠ SupState.halted ∧ (wStaged State.reset).dev.rigRunning = false ∧ (wStaged State.reset).dev.rigBusy Lane.load = true) ∧
    State.reset.dev.rig.staged = none ∧
    State.reset.dev.get F.HST_STAT_PHASE ≠ 2 ∧
    (st34.dev.rig.staged = some (stagedOf liveFull rigFull 3 2 (7 : Word)) ∧ st34.dev.bar.sealing = none ∧ st34.dev.sys.sup = SupState.running ∧ (have __src := st34.dev.put F.RIG_STAT_STATE (stagedOf liveFull rigFull 3 2 (7 : Word)).back; Dev.mk __src.variant __src.freeCtr __src.tick __src.sub __src.time __src.regs __src.shadow __src.oldViews __src.sys __src.evr __src.logFlash __src.hst (have __src := st34.dev.rig; Rig.mk __src.live __src.prev __src.prevSwap __src.armed __src.latched none __src.slots __src.armTick __src.prog) __src.bar __src.eng __src.corr __src.prt __src.loops __src.ffPend __src.sns __src.hnd __src.encs __src.cmps __src.axs __src.glk __src.ptp __src.ddr __src.thm __src.led __src.bist __src.tel __src.wq __src.tap __src.pins).rigRunning = true) ∧
    (st35.dev.get F.HST_STAT_PHASE = 2 ∧ st35.dev.rigged = false ∧ st35.dev.slotCheck 0 = Except.error (errOf ((wSlots []).dev.slotCheck 0)) ∧ st35.dev.slotCheck 1 = Except.error (errOf ((wSlots []).dev.slotCheck 1))) ∧
    (st36.dev.get F.HST_STAT_PHASE = 2 ∧ st36.dev.rigged = false ∧ st36.dev.slotCheck 0 = Except.ok (okOf ((wSlots [(0, rigFull)]).dev.slotCheck 0)) ∧ st36.dev.slotCheck 1 = Except.error (errOf ((wSlots []).dev.slotCheck 1))) ∧
    (st37.dev.get F.HST_STAT_PHASE = 2 ∧ st37.dev.rigged = false ∧ st37.dev.slotCheck 0 = Except.error (errOf ((wSlots []).dev.slotCheck 0)) ∧ st37.dev.slotCheck 1 = Except.ok (okOf ((wSlots [(1, rigFull)]).dev.slotCheck 1))) ∧
    (st38.dev.get F.HST_STAT_PHASE = 2 ∧ st38.dev.rigged = false ∧ st38.dev.slotCheck 0 = Except.ok (okOf ((wSlots [(0, rigFull), (1, rigFull)]).dev.slotCheck 0)) ∧ st38.dev.slotCheck 1 = Except.ok (okOf ((wSlots [(0, rigFull), (1, rigFull)]).dev.slotCheck 1))) ∧
    ((wStaged (wRun State.reset)).dev.rig.staged = some (stagedOf liveFull rigFull 3 2 (7 : Word)) ∧ (wStaged (wRun State.reset)).dev.bar.sealing = none ∧ (wStaged (wRun State.reset)).dev.sys.sup = SupState.running ∧ (have __src := (wStaged (wRun State.reset)).dev.put F.RIG_STAT_STATE (stagedOf liveFull rigFull 3 2 (7 : Word)).back; Dev.mk __src.variant __src.freeCtr __src.tick __src.sub __src.time __src.regs __src.shadow __src.oldViews __src.sys __src.evr __src.logFlash __src.hst (have __src := (wStaged (wRun State.reset)).dev.rig; Rig.mk __src.live __src.prev __src.prevSwap __src.armed __src.latched none __src.slots __src.armTick __src.prog) __src.bar __src.eng __src.corr __src.prt __src.loops __src.ffPend __src.sns __src.hnd __src.encs __src.cmps __src.axs __src.glk __src.ptp __src.ddr __src.thm __src.led __src.bist __src.tel __src.wq __src.tap __src.pins).rigRunning = false) ∧
    (st39.dev.mayRun Lane.load 16 (7 : Word) = true ∧ st39.dev.sys.sup ≠ SupState.halted ∧ st39.dev.rigRunning = false ∧ st39.dev.rigBusy Lane.load = false ∧ rigValidate st39.dev.variant.ports 0 (st39.stage (0 : DWord) (16 : Word)).1.dev.rig.live (st39.stage (0 : DWord) (16 : Word)).2 = Except.error (errOf (rigValidate 32 0 [] (List.replicate 16 (0#8))))) ∧
    ((wImgAt rigFull State.reset).dev.mayRun Lane.load 16 (7 : Word) = true ∧ (wImgAt rigFull State.reset).dev.sys.sup ≠ SupState.halted ∧ (wImgAt rigFull State.reset).dev.rigRunning = false ∧ (wImgAt rigFull State.reset).dev.rigBusy Lane.load = false) :=
  ⟨⟨by decide +kernel, by decide +kernel, by decide +kernel, by decide +kernel⟩, ⟨by decide +kernel, by decide +kernel, by decide +kernel, by decide +kernel⟩, by decide +kernel, by decide +kernel, ⟨by decide +kernel, by decide +kernel, by decide +kernel, by decide +kernel⟩, ⟨by decide +kernel, by decide +kernel, eqErr (by decide +kernel), eqErr (by decide +kernel)⟩, ⟨by decide +kernel, by decide +kernel, eqOkOf (by decide +kernel), eqErr (by decide +kernel)⟩, ⟨by decide +kernel, by decide +kernel, eqErr (by decide +kernel), eqOkOf (by decide +kernel)⟩, ⟨by decide +kernel, by decide +kernel, eqOkOf (by decide +kernel), eqOkOf (by decide +kernel)⟩, ⟨by decide +kernel, by decide +kernel, by decide +kernel, by decide +kernel⟩, ⟨by decide +kernel, by decide +kernel, by decide +kernel, by decide +kernel, eqErr (by decide +kernel)⟩, ⟨by decide +kernel, by decide +kernel, by decide +kernel, by decide +kernel⟩⟩

theorem wit_SwapsAndSlots :
    (st41.dev.mayRun Lane.ctrl 18 (7 : Word) = true ∧ st41.dev.sys.sup ≠ SupState.halted ∧ st41.dev.rig.latched.isSome = true) ∧
    (State.reset.dev.mayRun Lane.ctrl 18 (7 : Word) = true ∧ State.reset.dev.sys.sup ≠ SupState.halted ∧ State.reset.dev.rig.latched = none ∧ State.reset.dev.rig.armed = none) ∧
    (wArmed.dev.mayRun Lane.ctrl 18 (7 : Word) = true ∧ wArmed.dev.sys.sup ≠ SupState.halted ∧ wArmed.dev.rig.latched = none ∧ wArmed.dev.rig.armed = some (Swap.mk (1 : Word) [])) ∧
    ((wImgAt rigFull State.reset).dev.mayRun Lane.flash 19 (7 : Word) = true ∧ (wImgAt rigFull State.reset).dev.sys.sup ≠ SupState.halted ∧ aligned16 (0 : DWord) = true ∧ (wImgAt rigFull State.reset).dev.rigBusy Lane.flash = false) := by
  decide +kernel

theorem wit_TableImages :
    (State.reset.dev.sys.sup ≠ SupState.halted ∧ aligned16 (0 : DWord) = true ∧ State.reset.dev.mayRun Lane.load 64 (7 : Word) = true ∧ State.reset.dev.rigged = false) ∧
    (st42.dev.sys.sup ≠ SupState.halted ∧ st42.dev.mayRun Lane.load 64 (7 : Word) = true ∧ st42.dev.rigged = true ∧ st42.dev.get F.BED_STAT_PHASE ≠ 0 ∧ st42.dev.inService (BitVec.toNat (0 : Word)) = true) ∧
    State.reset.dev.mayRun Lane.load 65 (7 : Word) = true ∧
    State.reset.dev.mayRun Lane.load 66 (7 : Word) = true ∧
    (wRigged.dev.sys.sup ≠ SupState.halted ∧ wRigged.dev.mayRun Lane.load 66 (7 : Word) = true ∧ wRigged.dev.rigged = true ∧ byteAt (wRigged.imageRead (BitVec.toNat (0 : DWord)) (min (BitVec.toNat (64 : Word)) 4416)).2.1 6 ≤ 3) ∧
    (wRigged.dev.mayRun Lane.load 64 (7 : Word) = true ∧ wRigged.dev.get F.BED_STAT_PHASE = 0 ∧ (badCorrImage ((wRigged.imageRead (BitVec.toNat (0 : DWord)) (min (BitVec.toNat (64 : Word)) (64 + corrPayLen))).1.dev.sections false) (BitVec.toNat (0 : Word)) (wRigged.imageRead (BitVec.toNat (0 : DWord)) (min (BitVec.toNat (64 : Word)) (64 + corrPayLen))).2.1 (BitVec.toNat (64 : Word)) !(wRigged.imageRead (BitVec.toNat (0 : DWord)) (min (BitVec.toNat (64 : Word)) (64 + corrPayLen))).2.2) = some 0) ∧
    ((wImgAt (leBytes 6 0 ++ leBytes 2 1) wRigged).dev.sys.sup ≠ SupState.halted ∧ (wImgAt (leBytes 6 0 ++ leBytes 2 1) wRigged).dev.mayRun Lane.load 65 (7 : Word) = true ∧ (wImgAt (leBytes 6 0 ++ leBytes 2 1) wRigged).dev.rigged = true ∧ byteAt ((wImgAt (leBytes 6 0 ++ leBytes 2 1) wRigged).imageRead (BitVec.toNat (0 : DWord)) (min (BitVec.toNat (64 : Word)) 65600)).2.1 6 = 1 ∧ byteAt ((wImgAt (leBytes 6 0 ++ leBytes 2 1) wRigged).imageRead (BitVec.toNat (0 : DWord)) (min (BitVec.toNat (64 : Word)) 65600)).2.1 7 ≤ 31) ∧
    ((((wImgAt (leBytes 6 0 ++ leBytes 2 1) wRigged).imageRead (BitVec.toNat (0 : DWord)) (min (BitVec.toNat (64 : Word)) 65600)).1.dev.loopOfPort (byteAt ((wImgAt (leBytes 6 0 ++ leBytes 2 1) wRigged).imageRead (BitVec.toNat (0 : DWord)) (min (BitVec.toNat (64 : Word)) 65600)).2.1 7)).pend = none ∧ (badLoopImage (((wImgAt (leBytes 6 0 ++ leBytes 2 1) wRigged).imageRead (BitVec.toNat (0 : DWord)) (min (BitVec.toNat (64 : Word)) 65600)).1.dev.sections false) ((wImgAt (leBytes 6 0 ++ leBytes 2 1) wRigged).imageRead (BitVec.toNat (0 : DWord)) (min (BitVec.toNat (64 : Word)) 65600)).2.1 (BitVec.toNat (64 : Word)) !((wImgAt (leBytes 6 0 ++ leBytes 2 1) wRigged).imageRead (BitVec.toNat (0 : DWord)) (min (BitVec.toNat (64 : Word)) 65600)).2.2) = some 0) ∧
    (wLoopPend.dev.sys.sup ≠ SupState.halted ∧ wLoopPend.dev.mayRun Lane.load 65 (7 : Word) = true ∧ wLoopPend.dev.rigged = true ∧ byteAt (wLoopPend.imageRead (BitVec.toNat (0 : DWord)) (min (BitVec.toNat (64 : Word)) 65600)).2.1 6 = 1 ∧ byteAt (wLoopPend.imageRead (BitVec.toNat (0 : DWord)) (min (BitVec.toNat (64 : Word)) 65600)).2.1 7 ≤ 31 ∧ ((wLoopPend.imageRead (BitVec.toNat (0 : DWord)) (min (BitVec.toNat (64 : Word)) 65600)).1.dev.loopOfPort (byteAt (wLoopPend.imageRead (BitVec.toNat (0 : DWord)) (min (BitVec.toNat (64 : Word)) 65600)).2.1 7)).pend = some ((5 : Word), [])) ∧
    ((wImgAt axsImg wRigged).dev.sys.sup ≠ SupState.halted ∧ (wImgAt axsImg wRigged).dev.rigged = true ∧ (wImgAt axsImg wRigged).dev.mayRun Lane.load 66 (7 : Word) = true ∧ byteAt ((wImgAt axsImg wRigged).imageRead (BitVec.toNat (0 : DWord)) (min (BitVec.toNat (4416 : Word)) 4416)).2.1 6 ≤ 3 ∧ ((wImgAt axsImg wRigged).imageRead (BitVec.toNat (0 : DWord)) (min (BitVec.toNat (4416 : Word)) 4416)).1.dev.get (F.AXSa_STAT_STATE (byteAt ((wImgAt axsImg wRigged).imageRead (BitVec.toNat (0 : DWord)) (min (BitVec.toNat (4416 : Word)) 4416)).2.1 6)) ≠ 2) ∧
    (st43.dev.sys.sup ≠ SupState.halted ∧ st43.dev.rigged = true ∧ st43.dev.mayRun Lane.load 66 (7 : Word) = true ∧ byteAt (st43.imageRead (BitVec.toNat (0 : DWord)) (min (BitVec.toNat (4416 : Word)) 4416)).2.1 6 ≤ 3 ∧ (st43.imageRead (BitVec.toNat (0 : DWord)) (min (BitVec.toNat (4416 : Word)) 4416)).1.dev.get (F.AXSa_STAT_STATE (byteAt (st43.imageRead (BitVec.toNat (0 : DWord)) (min (BitVec.toNat (4416 : Word)) 4416)).2.1 6)) = 2) := by
  decide +kernel

theorem wit_TTicksHoldsAndSyncs :
    (State.reset.dev.ptp.step = none ∧ State.reset.dev.sns.slews = [] ∧ State.reset.dev.sns.spots = [] ∧ State.reset.dev.thm.beams = [] ∧ State.reset.dev.ddr.ch = [] ∧ pinWith (State.reset.dev.sections false) 49 = none ∧ portsInUse (State.reset.dev.sections false) = []) ∧
    (wPort.dev.ptp.step = none ∧ wPort.dev.sns.slews = [] ∧ wPort.dev.sns.spots = [] ∧ wPort.dev.thm.beams = [] ∧ wPort.dev.ddr.ch = [] ∧ pinWith (wPort.dev.sections false) 49 = none ∧ portsInUse (wPort.dev.sections false) = [0] ∧ wPort.dev.runOf 0 = none ∧ (wPort.dev.engOf 0).queue = [] ∧ tfind wPort.dev.sns.obs 0 = none ∧ wPort.dev.hnd.tko = [] ∧ wPort.dev.xy2 0 = false ∧ wPort.dev.get (F.BEAMn_PSTAT_LINK 0) = 4 ∧ (wPort.dev.prtOf 0).gate = false) ∧
    State.reset.dev.runOf 0 = none ∧
    ((withRun 0 (runMv (PKey.bed 2 0 0) MvKind.hold) wPort).dev.runOf 0 = some (runMv (PKey.bed 2 0 0) MvKind.hold) ∧ (runMv (PKey.bed 2 0 0) MvKind.hold).moveAt? (runMv (PKey.bed 2 0 0) MvKind.hold).k = some st44 ∧ st44.kind = MvKind.hold ∧ fracLe (fracAdd st44.t0 st44.dt) (fracI (↑(runMv (PKey.bed 2 0 0) MvKind.hold).k + (1 : ℤ))) = true) ∧
    (wSyncLate.dev.runOf 0 = some (let __src := runMv (PKey.bed 2 0 0) MvKind.sync; Run.mk __src.key 600 __src.startTick __src.moves __src.planT __src.next __src.last __src.bx __src.by_ __src.bf __src.px __src.py __src.vel __src.stroke __src.settle __src.planned __src.edges __src.lit __src.openSeg __src.hit __src.taking __src.arrived __src.resume __src.conf __src.intr __src.yield __src.lostSeg __src.shed __src.reach) ∧ (let __src := runMv (PKey.bed 2 0 0) MvKind.sync; Run.mk __src.key 600 __src.startTick __src.moves __src.planT __src.next __src.last __src.bx __src.by_ __src.bf __src.px __src.py __src.vel __src.stroke __src.settle __src.planned __src.edges __src.lit __src.openSeg __src.hit __src.taking __src.arrived __src.resume __src.conf __src.intr __src.yield __src.lostSeg __src.shed __src.reach).key = PKey.bed 2 0 0 ∧ (let __src := runMv (PKey.bed 2 0 0) MvKind.sync; Run.mk __src.key 600 __src.startTick __src.moves __src.planT __src.next __src.last __src.bx __src.by_ __src.bf __src.px __src.py __src.vel __src.stroke __src.settle __src.planned __src.edges __src.lit __src.openSeg __src.hit __src.taking __src.arrived __src.resume __src.conf __src.intr __src.yield __src.lostSeg __src.shed __src.reach).moveAt? (let __src := runMv (PKey.bed 2 0 0) MvKind.sync; Run.mk __src.key 600 __src.startTick __src.moves __src.planT __src.next __src.last __src.bx __src.by_ __src.bf __src.px __src.py __src.vel __src.stroke __src.settle __src.planned __src.edges __src.lit __src.openSeg __src.hit __src.taking __src.arrived __src.resume __src.conf __src.intr __src.yield __src.lostSeg __src.shed __src.reach).k = some st64 ∧ st64.kind = MvKind.sync ∧ wSyncLate.dev.segOf wSyncLate.mem (let __src := runMv (PKey.bed 2 0 0) MvKind.sync; Run.mk __src.key 600 __src.startTick __src.moves __src.planT __src.next __src.last __src.bx __src.by_ __src.bf __src.px __src.py __src.vel __src.stroke __src.settle __src.planned __src.edges __src.lit __src.openSeg __src.hit __src.taking __src.arrived __src.resume __src.conf __src.intr __src.yield __src.lostSeg __src.shed __src.reach).key st64.seg = SegRead.ok (segOfBytes psync) ∧ (segOfBytes psync).vel ≠ 0 ∧ wSyncLate.dev.hnd.stbyOut = [] ∧ wSyncLate.dev.hnd.tko = [] ∧ wSyncLate.dev.tile? 2 0 = some tileSync ∧ tileSync.paths[0]? = some (path0 (PStat.running 0)) ∧ tileSync.paths[1]? = some (path0 PStat.fresh) ∧ (path0 PStat.fresh).st ≠ PStat.ended ∧ snapF st64.t0 + 10 * (segOfBytes psync).vel ≤ (let __src := runMv (PKey.bed 2 0 0) MvKind.sync; Run.mk __src.key 600 __src.startTick __src.moves __src.planT __src.next __src.last __src.bx __src.by_ __src.bf __src.px __src.py __src.vel __src.stroke __src.settle __src.planned __src.edges __src.lit __src.openSeg __src.hit __src.taking __src.arrived __src.resume __src.conf __src.intr __src.yield __src.lostSeg __src.shed __src.reach).k) ∧
    (wSync.dev.runOf 0 = some (runMv (PKey.bed 2 0 0) MvKind.sync) ∧ (runMv (PKey.bed 2 0 0) MvKind.sync).moveAt? (runMv (PKey.bed 2 0 0) MvKind.sync).k = some st64 ∧ wSync.dev.segOf wSync.mem (runMv (PKey.bed 2 0 0) MvKind.sync).key st64.seg = SegRead.ok (segOfBytes psync) ∧ (runMv (PKey.bed 2 0 0) MvKind.sync).k < snapF st64.t0 + 10 * (segOfBytes psync).vel) := by
  decide +kernel

theorem wit_LinkStartAndLatency :
    st45.dev.get (F.BEAMn_PSTAT_LINK 3) = 1 ∧
    State.reset.dev.get (F.BEAMn_PSTAT_LINK 3) ≠ 1 ∧
    st46.dev.get (F.BEAMn_PSTAT_LINK 3) = 2 ∧
    State.reset.dev.get (F.BEAMn_PSTAT_LINK 3) ≠ 2 ∧
    st47.dev.get (F.BEAMn_PSTAT_LINK 3) = 5 ∧
    State.reset.dev.get (F.BEAMn_PSTAT_LINK 3) ≠ 5 ∧
    (1 ≤ st48.dev.get (F.BEAMn_PSTAT_LINK 3) ∧ st48.dev.get (F.BEAMn_PSTAT_LINK 3) ≤ 3) ∧
    (1 ≤ st49.dev.get (F.BEAMn_PSTAT_LINK 3) ∧ st49.dev.get (F.BEAMn_PSTAT_LINK 3) ≤ 3) ∧
    State.reset.dev.get (F.BEAMn_PSTAT_LINK 3) = 0 ∧
    (st48.dev.get (F.BEAMn_PSTAT_LINK 3) = 3 ∧ (SlMeasure.mk true true 32 32 0 (9 : Byte)).equal = true ∧ (SlMeasure.mk true true 32 32 0 (9 : Byte)).ready = true ∧ (SlMeasure.mk true true 32 32 0 (9 : Byte)).t1 = (SlMeasure.mk true true 32 32 0 (9 : Byte)).t2 ∧ 1 ≤ (SlMeasure.mk true true 32 32 0 (9 : Byte)).t1 ∧ (SlMeasure.mk true true 32 32 0 (9 : Byte)).t1 ≤ 32) ∧
    State.reset.dev.get (F.BEAMn_PSTAT_LINK 3) ≠ 3 := by
  decide +kernel

theorem wit_FramesJudged :
    State.reset.dev.get (F.BEAMn_PSTAT_LINK 0) ≠ 4 ∧
    State.reset.dev.get (F.BEAMn_PSTAT_LINK 0) ≠ 3 ∧
    wPort.dev.get (F.BEAMn_PSTAT_LINK 0) = 4 ∧
    (wPort.dev.xy2 0 = false ∧ (wPort.dev.prtOf 0).judged ≠ some wPort.dev.tick ∧ wPort.dev.runOf 0 = none ∧ (!(slParse goodIn).crcOk || (slParse goodIn).seq != BitVec.toNat (wPort.dev.tick - BitVec.ofNat 32 (wPort.dev.get (F.BEAMn_LAT_TICKS 0))) % 256 || (slParse goodIn).cmdErr || !(slParse goodIn).ready) = false ∧ (slParse goodIn).fault = false ∧ wPort.dev.get (F.BEAMn_FE_LIMIT_LIMIT 0) = 0) ∧
    ((!(slParse (goodIn.set 0 (9 : Byte))).crcOk || (slParse (goodIn.set 0 (9 : Byte))).seq != BitVec.toNat (wPort.dev.tick - BitVec.ofNat 32 (wPort.dev.get (F.BEAMn_LAT_TICKS 0))) % 256 || (slParse (goodIn.set 0 (9 : Byte))).cmdErr || !(slParse (goodIn.set 0 (9 : Byte))).ready) = true ∧ (slParse (goodIn.set 0 (9 : Byte))).crcOk = false ∧ (wPort.dev.prtOf 0).badRun < 2) := by
  decide +kernel

theorem wit_LaserSource :
    (State.reset.dev.prtOf 0).lsr = false ∧
    (wPort.dev.prtOf 0).lsr ≠ true ∧
    (st50.dev.prtOf 0).lsr ≠ false ∧
    elapsed64 State.reset.dev.time (State.reset.dev.prtOf 0).lsrSince < 1000 * max 1 (State.reset.dev.get (F.BEAMn_PCTRL_LSR_FILT 0)) ∧
    ((st51.dev.prtOf 0).lsr = false ∧ 1000 * max 1 (st51.dev.get (F.BEAMn_PCTRL_LSR_FILT 0)) ≤ elapsed64 st51.dev.time (st51.dev.prtOf 0).lsrSince ∧ (st51.dev.prtOf 0).lsrDone = true) ∧
    (st52.dev.assigned 0 = true ∧ (st52.dev.prtOf 0).lsr = false ∧ 1000 * max 1 (st52.dev.get (F.BEAMn_PCTRL_LSR_FILT 0)) ≤ elapsed64 st52.dev.time (st52.dev.prtOf 0).lsrSince ∧ (st52.dev.prtOf 0).lsrDone = false ∧ (st52.dev.prtOf 0).classes = [] ∧ st52.dev.get (F.HND_Pn_STAT_STATE 0) = 0 ∧ st52.dev.runOf 0 = none ∧ st52.dev.hnd.tko = []) := by
  decide +kernel

theorem wit_PairsFailAndAttach :
    State.reset.dev.get (F.ENG_PAIRk_STATE 5) = 0 ∧
    st53.dev.get (F.ENG_PAIRk_STATE 5) = 2 ∧
    (wPort.dev.get (F.ENG_PAIRk_STATE 0) = 1 ∧ wPort.dev.get (F.ENG_PAIRk_PORT 0) < 32 ∧ wPort.dev.get (F.HND_Pn_STAT_STATE (wPort.dev.get (F.ENG_PAIRk_PORT 0))) = 0 ∧ wPort.dev.runOf (wPort.dev.get (F.ENG_PAIRk_PORT 0)) = none ∧ wPort.dev.hnd.tko = [] ∧ wPort.dev.routedNow = []) ∧
    (st54.dev.get (F.ENG_PAIRk_STATE 0) = 1 ∧ st54.dev.get (F.ENG_PAIRk_PORT 0) < 32 ∧ st54.dev.get (F.HND_Pn_STAT_STATE (st54.dev.get (F.ENG_PAIRk_PORT 0))) = 0 ∧ st54.dev.runOf (st54.dev.get (F.ENG_PAIRk_PORT 0)) = none ∧ st54.dev.hnd.tko = [] ∧ st54.dev.routedNow = []) ∧
    State.reset.dev.get (F.ENG_PAIRk_STATE 5) ≠ 3 ∧
    (st55.dev.get (F.ENG_PAIRk_STATE 5) = 3 ∧ st55.dev.get (F.ENG_PAIRk_PORT 5) < 32 ∧ st55.dev.get (F.HND_Pn_STAT_STATE (st55.dev.get (F.ENG_PAIRk_PORT 5))) ≠ 2) ∧
    (st56.dev.get (F.ENG_PAIRk_STATE 5) = 3 ∧ st56.dev.get (F.ENG_PAIRk_PORT 5) < 32 ∧ st56.dev.entryOf (st56.dev.get (F.ENG_PAIRk_PORT 5)) = none ∧ (∀ x ∈ st56.dev.routedNow, x.1 = 5) ∧ List.find? (fun j => st56.dev.get (F.ENG_PAIRk_STATE j) == 2) (upTo 36) = some 35) := by
  decide +kernel

theorem wit_PTickRuns :
    portsInUse (State.reset.dev.sections false) = [] ∧
    (portsInUse (st57.dev.sections false) = [0] ∧ st57.dev.get (F.BEAMn_PSTAT_ATTACHED 0) = 0) ∧
    (portsInUse (wPort.dev.sections false) = [0] ∧ wPort.dev.get (F.BEAMn_PSTAT_ATTACHED 0) ≠ 0 ∧ (wPort.dev.loopOfPort 0).descs = [] ∧ (wPort.dev.loopOfPort 0).melt.ramp = none ∧ (wPort.dev.loopOfPort 0).src.ramp = none ∧ (wPort.dev.loopOfPort 0).melt.lost = false ∧ (wPort.dev.loopOfPort 0).src.lost = false ∧ (wPort.dev.loopOfPort 0).yy = none ∧ (wPort.dev.loopOfPort 0).cap ≠ CapState.running ∧ wPort.dev.gateIn 0 0 = false) := by
  decide +kernel

theorem wit_LoopBlocksAndRunsEnd :
    ((st58.dev.loopOfPort 0).blk LoopBlk.melt).ramp = some 799 ∧
    ((st59.dev.loopOfPort 0).blk LoopBlk.src).ramp = some 798 ∧
    ((State.reset.dev.loopOfPort 0).blk LoopBlk.src).ramp = none ∧
    (((st60.dev.loopOfPort 0).blk LoopBlk.melt).lost = true ∧ 256 ≤ ((st60.dev.loopOfPort 0).blk LoopBlk.melt).valid) ∧
    ((State.reset.dev.loopOfPort 0).blk LoopBlk.melt).lost = false ∧
    ((st61.dev.loopOfPort 0).yy = some (YyRun.mk 9 (0 : Word) 0 0) ∧ st61.dev.get (F.LOOPn_YY_LEN_LEN 0) ≤ (YyRun.mk 9 (0 : Word) 0 0).k) ∧
    ((st62.dev.loopOfPort 0).yy = some (YyRun.mk 9 (0 : Word) 0 0) ∧ (YyRun.mk 9 (0 : Word) 0 0).k < st62.dev.get (F.LOOPn_YY_LEN_LEN 0)) ∧
    (State.reset.dev.loopOfPort 0).yy = none ∧
    ((st63.dev.loopOfPort 0).cap = CapState.running ∧ st63.dev.get (F.LOOPn_CAP_LEN_LEN 0) ≤ st63.dev.get (F.LOOPn_CAP_WR_COUNT 0)) ∧
    (State.reset.dev.loopOfPort 0).cap ≠ CapState.running := by
  decide +kernel

theorem wit_RegisterWriteJudged :
    (regFind (BitVec.toNat (4294967280 : Word)) regSpecs).isNone = true ∧
    (regFind (BitVec.toNat (0 : Word)) regSpecs = some st65 ∧ st65.holds (F.HST_MBXw_WORD 0) = false ∧ st65.holds F.HST_CPL_POP_POP = false ∧ (st65.spec.fields.all fun f => !f.access.writable) = true) ∧
    (State.reset.dev.shadow = [] ∧ State.reset.dev.oldViews = []) ∧
    (st66.dev.shadow = [] ∧ st66.dev.oldViews = []) ∧
    State.reset.dev.get F.BED_STAT_PHASE = 0 ∧
    (st67.dev.shadow = [] ∧ st67.dev.oldViews = [] ∧ st67.dev.get F.BED_STAT_PHASE ≠ 0) := by
  decide +kernel

theorem wit_HostAndRecorderRowsWrite :
    (State.reset.dev.shadow = [] ∧ State.reset.dev.oldViews = []) ∧
    (State.reset.dev.variant = Variant.ax32 ∧ State.reset.dev.onPath 0 = false) ∧
    (wOnPath.dev.variant = Variant.ax32 ∧ wOnPath.dev.shadow = [] ∧ wOnPath.dev.oldViews = [] ∧ wOnPath.dev.onPath 0 = true) ∧
    (State.reset.dev.loopOfPort 0).cap ≠ CapState.running ∧
    State.reset.dev.get F.EVR_STAT_FROZEN < 2 ∧
    (st68.dev.shadow = [] ∧ st68.dev.oldViews = [] ∧ st68.dev.get F.GLK_STAT_ROLE ≠ 3 ∧ st68.dev.get F.PTP_CTRL_EN = 1 ∧ BitVec.toNat (257 : Word) / 2 % 2 = st68.dev.get F.PTP_CTRL_COMPAT ∧ BitVec.toNat (257 : Word) / 4 % 2 = st68.dev.get F.PTP_CTRL_BC ∧ BitVec.toNat (257 : Word) / 8 % 2 = st68.dev.get F.PTP_CTRL_ONESTEP ∧ BitVec.toNat (257 : Word) / 16 % 2 = st68.dev.get F.PTP_CTRL_P2P ∧ BitVec.toNat (257 : Word) / 32 % 4 = st68.dev.get F.PTP_CTRL_TRANSPORT ∧ st68.dev.get F.PTP_CTRL_TRANSPORT ≤ 2 ∧ BitVec.toNat (257 : Word) / 128 % 2 = st68.dev.get F.PTP_CTRL_SLAVE_ONLY ∧ st68.dev.get F.PTP_STAT_STATE = 5) ∧
    (st69.dev.shadow = [] ∧ st69.dev.oldViews = [] ∧ st69.dev.get F.GLK_STAT_ROLE ≠ 3 ∧ st69.dev.get F.PTP_CTRL_EN = 1 ∧ BitVec.toNat (257 : Word) / 2 % 2 = st69.dev.get F.PTP_CTRL_COMPAT ∧ BitVec.toNat (257 : Word) / 4 % 2 = st69.dev.get F.PTP_CTRL_BC ∧ BitVec.toNat (257 : Word) / 8 % 2 = st69.dev.get F.PTP_CTRL_ONESTEP ∧ BitVec.toNat (257 : Word) / 16 % 2 = st69.dev.get F.PTP_CTRL_P2P ∧ BitVec.toNat (257 : Word) / 32 % 4 = st69.dev.get F.PTP_CTRL_TRANSPORT ∧ st69.dev.get F.PTP_CTRL_TRANSPORT ≤ 2 ∧ BitVec.toNat (257 : Word) / 128 % 2 = st69.dev.get F.PTP_CTRL_SLAVE_ONLY ∧ st69.dev.get F.PTP_STAT_STATE ≠ 5) := by
  decide +kernel

theorem wit_DriveRowsWrite :
    (State.reset.dev.shadow = [] ∧ State.reset.dev.oldViews = []) ∧
    State.reset.dev.get F.LED_CTRL_EN = 0 ∧
    (st70.dev.encHeld 2 = true ∧ st70.dev.encInUse 2 = false) ∧
    st70.dev.get (F.QEe_ERR_LINE_NOW 2) = 0 ∧
    (st71.dev.shadow = [] ∧ st71.dev.oldViews = [] ∧ st71.dev.encHeld 3 = false ∧ st71.dev.encInUse 3 = false ∧ (∀ k ∈ st71.dev.cmpsOn 3, st71.dev.get (F.QE_CMPk_STAT_ARMED k) = 0)) ∧
    (wLostEnc.dev.shadow = [] ∧ wLostEnc.dev.oldViews = [] ∧ wLostEnc.dev.encHeld 3 = false ∧ wLostEnc.dev.encInUse 3 = false ∧ (∀ k ∈ wLostEnc.dev.cmpsOn 3, wLostEnc.dev.get (F.QE_CMPk_STAT_ARMED k) = 0) ∧ wLostEnc.dev.get (F.QEe_ERR_LINE_NOW 3) = 0 ∧ wLostEnc.dev.cmpsOn 3 = [] ∧ wLostEnc.dev.get (F.QEe_ERR_LOST 3) = 1) ∧
    (wAxis.dev.rigged = true ∧ axisInput (wAxis.dev.sections false) 1 = some 0 ∧ wAxis.dev.get (F.QEe_ERR_LOST 0) = 0 ∧ wAxis.dev.get (F.AXSa_CTRL_EN 1) = 0) ∧
    (st72.dev.rigged = true ∧ axisInput (st72.dev.sections false) 1 = some 0 ∧ st72.dev.get (F.QEe_ERR_LOST 0) = 0 ∧ st72.dev.get (F.AXSa_CTRL_EN 1) = 1 ∧ st72.dev.get (F.AXSa_STAT_STATE 1) ≠ 3 ∧ st72.dev.shadow = []) ∧
    (st73.dev.ftValid (32 * b2n true + 31) = true ∧ st73.dev.get (F.HND_FTk_INFO_RESOLVED (32 * b2n true + 31)) = 1) ∧
    (st74.dev.ftValid (32 * b2n true + 31) = true ∧ st74.dev.get (F.HND_FTk_INFO_RESOLVED (32 * b2n true + 31)) = 0) := by
  decide +kernel

theorem wit_CalibrationAndTraces :
    State.reset.dev.get F.SNS_STAT_CAL_RUN = 0 ∧
    (st75.dev.get F.SNS_STAT_CAL_RUN ≠ 0 ∧ st75.dev.sns.accepted = []) ∧
    (st76.dev.sns.slews = [Slew.mk (SlewKind.ofs 3) [fracI (5 : ℤ)] [fracI (9 : ℤ)] (0 : Word)] ∧ slewTicks ≤ elapsed32 st76.dev.tick (0 : Word)) ∧
    (st77.dev.sns.slews = [Slew.mk (SlewKind.ofs 3) [fracI (5 : ℤ)] [fracI (9 : ℤ)] (0 : Word)] ∧ elapsed32 st77.dev.tick (0 : Word) < slewTicks) ∧
    (tget trace0 State.reset.dev.sns.traces 3).n < 16384 ∧
    (tget trace0 State.reset.dev.sns.traces 3).gn < 65536 ∧
    (16384 ≤ (tget trace0 st78.dev.sns.traces 3).n ∧ st78.dev.ofsEstimate 3 (tget trace0 st78.dev.sns.traces 3) = some (estOf tr0) ∧ (tget trace0 st78.dev.sns.traces 3).ofs = none) ∧
    (16384 ≤ (tget trace0 wTraceFar.dev.sns.traces 3).n ∧ wTraceFar.dev.ofsEstimate 3 (tget trace0 wTraceFar.dev.sns.traces 3) = some (estOf tr0) ∧ (tget trace0 wTraceFar.dev.sns.traces 3).ofs = some (estOf tr0) ∧ fracLe (fracAbs (fracSub (estOf tr0) (estOf tr0))) (fracI (4 : ℤ)) = true ∧ 1024 < (fracRne (fracMul (fracAdd (estOf tr0) (estOf tr0)) (fracI (8 : ℤ))) - wTraceFar.dev.powerOfs 3).natAbs) ∧
    (16384 ≤ (tget trace0 st79.dev.sns.traces 3).n ∧ st79.dev.ofsEstimate 3 (tget trace0 st79.dev.sns.traces 3) = some (estOf tr0) ∧ (tget trace0 st79.dev.sns.traces 3).ofs = some (estOf tr0) ∧ (fracRne (fracMul (fracAdd (estOf tr0) (estOf tr0)) (fracI (8 : ℤ))) - st79.dev.powerOfs 3).natAbs ≤ 1024) ∧
    (65536 ≤ (tget trace0 st78.dev.sns.traces 3).gn ∧ (tget trace0 st78.dev.sns.traces 3).trim = none) := by
  decide +kernel

theorem wit_SpottingRows :
    State.reset.dev.mayObserve 1 = false ∧
    (wStroke.dev.mayObserve 1 = true ∧ wStroke.dev.inService (wStroke.dev.get (F.SNS_Pn_SPOT_PARENT 1)) = true ∧ wStroke.dev.strokeOf wStroke.mem 1 (wStroke.dev.get (F.SNS_Pn_SPOT_PARENT 1)) = some (PKey.bed 2 0 0, 0, (0 : ℤ), (0 : ℤ))) ∧
    tfind State.reset.dev.sns.obs 1 = none ∧
    (tfind (wObs 5).dev.sns.obs 1 = some (obs0 5) ∧ (obs0 5).k < obsTicks) ∧
    (tfind (wObs 1056).dev.sns.obs 1 = some (obs0 1056) ∧ obsTicks ≤ (obs0 1056).k ∧ ((wObs 1056).dev.spotOf 1).kept = []) ∧
    (State.reset.dev.spotOf 1).slew = none ∧
    ((st80.dev.spotOf 1).slew = some ((0 : ℤ), (0 : ℤ)) ∧ stitchAt (0 : ℤ) (0 : ℤ) (st80.dev.stitchTgt 1).1 (st80.dev.stitchTgt 1).2 (elapsed32 st80.dev.tick (st80.dev.spotOf 1).slewAt / 2) = st80.dev.stitchTgt 1) ∧
    State.reset.dev.stitchTgt 1 = (State.reset.dev.spotOf 1).stored ∧
    ((st81.dev.spotOf 1).storedAt = some (0 : DWord) ∧ elapsed64 st81.dev.time (0 : DWord) < 600000000000) ∧
    (st82.dev.stitchTgt 1 ≠ (st82.dev.spotOf 1).stored ∧ (st82.dev.spotOf 1).storedAt = none) := by
  decide +kernel

theorem wit_CamerasFramesAndTriggers :
    State.reset.dev.get (F.CAMm_CTRL_EN 2) = 0 ∧
    st83.dev.camTakes 2 1 = true ∧
    st84.dev.camTakes 2 1 = true ∧
    st83.dev.get (F.CAMm_CTRL_EN 2) ≠ 0 ∧
    BitVec.toNat (43 : Byte) ≠ camType (st83.dev.get (F.CAMm_CTRL_DT 2)) ∧
    (st85.dev.camTakes 2 1 = true ∧ BitVec.toNat (42 : Byte) = camType (st85.dev.get (F.CAMm_CTRL_DT 2)) ∧ tfind (st85.dev.cam 2).frames 1 = some frame0) ∧
    tfind (st83.dev.cam 2).frames 1 = none ∧
    (st85.dev.get (F.CAMm_CTRL_EN 2) ≠ 0 ∧ frame0.cap = false ∧ frame0.area = 0 ∧ st85.dev.ringLen (featRing 2) = 0) ∧
    (st86.dev.get (F.CAMm_CTRL_EN 2) ≠ 0 ∧ tfind (st86.dev.cam 2).frames 1 = some frame0 ∧ 0 < st86.dev.ringLen (featRing 2) ∧ st86.dev.ringLen (featRing 2) ≤ 2 ^ (F.CAMm_FEAT_WR_INDEX 2).width ∧ st86.dev.ringFull (featRing 2) = false ∧ st86.dev.beyond (st86.dev.get (F.CAMm_FEAT_BASE_BASE 2) * 4096 + st86.dev.get (F.CAMm_FEAT_WR_INDEX 2) * 32) 32 = false ∧ st86.dev.goneAt (st86.dev.get (F.CAMm_FEAT_BASE_BASE 2) * 4096 + st86.dev.get (F.CAMm_FEAT_WR_INDEX 2) * 32) 32 = none) ∧
    st83.dev.camTakes 2 3 = false ∧
    (st87.dev.get (F.CAMm_CTRL_EN 2) ≠ 0 ∧ (st87.dev.cam 2).lost = false ∧ 1000000000 ≤ elapsed64 st87.dev.time (st87.dev.cam 2).last) ∧
    (State.reset.dev.camDue 2 = false ∧ State.reset.dev.camFired 2 = false) ∧
    st88.dev.camDue 2 = true := by
  decide +kernel

theorem wit_RemaindersTaken :
    (State.reset.dev.tkoFor 0 = none ∧ State.reset.settled.dev.prefetch State.reset.mem 0 = State.reset.settled.dev) ∧
    ((wTko.settled.dev.prefetch wTko.mem 0).tkoFor 0 = some 4 ∧ tfind (wTko.settled.dev.prefetch wTko.mem 0).hnd.tko 4 = some tko0 ∧ (wTko.settled.dev.prefetch wTko.mem 0).runOf 0 = none ∧ (wTko.settled.dev.prefetch wTko.mem 0).inService 0 = true ∧ (wTko.settled.dev.prefetch wTko.mem 0).segReady wTko.mem tko0.key tko0.rp.seg = true ∧ (wTko.settled.dev.prefetch wTko.mem 0).holdComes 0 = false ∧ (((wTko.settled.dev.prefetch wTko.mem 0).pathBoundaries wTko.mem 0 tko0.key).updEng 0 fun e => Eng.mk e.x e.y e.f e.run e.queue e.hist none e.tile e.wins e.pwr e.pre).tkoFor 0 = some 4 ∧ tfind (((wTko.settled.dev.prefetch wTko.mem 0).pathBoundaries wTko.mem 0 tko0.key).updEng 0 fun e => Eng.mk e.x e.y e.f e.run e.queue e.hist none e.tile e.wins e.pwr e.pre).hnd.tko 4 = some tko0 ∧ (((wTko.settled.dev.prefetch wTko.mem 0).pathBoundaries wTko.mem 0 tko0.key).updEng 0 fun e => Eng.mk e.x e.y e.f e.run e.queue e.hist none e.tile e.wins e.pwr e.pre).runOf 0 = none ∧ (((wTko.settled.dev.prefetch wTko.mem 0).pathBoundaries wTko.mem 0 tko0.key).updEng 0 fun e => Eng.mk e.x e.y e.f e.run e.queue e.hist none e.tile e.wins e.pwr e.pre).inService 0 = true ∧ (((wTko.settled.dev.prefetch wTko.mem 0).pathBoundaries wTko.mem 0 tko0.key).updEng 0 fun e => Eng.mk e.x e.y e.f e.run e.queue e.hist none e.tile e.wins e.pwr e.pre).segReady wTko.mem tko0.key tko0.rp.seg = true ∧ (((((wTko.settled.dev.prefetch wTko.mem 0).pathBoundaries wTko.mem 0 tko0.key).updEng 0 fun e => Eng.mk e.x e.y e.f e.run e.queue e.hist none e.tile e.wins e.pwr e.pre).updPath tko0.key fun q => PathSt.mk q.first q.count q.box q.dur q.coverable q.st (some tko0.rp) q.cls q.underruns q.interrupts q.beam q.rule).beginRun wTko.mem 0 tko0.key true).runOf 0 = some wTkoRun) ∧
    (st89.dev.get (F.THM_Pn_STAT_BLIND 0) = 0 ∧ 2 ≤ st89.dev.get (F.THM_Pn_STAT_LEVEL 0) ∧ 1 ≤ st89.dev.get (F.HND_Pn_STAT_SHED 0) ∧ st89.dev.get (F.HND_Pn_STAT_SHED 0) < 3 ∧ st89.dev.runOf 0 = none ∧ max 1 (st89.dev.get (F.THM_Pn_CFG_STEP 0)) * 1000000000 ≤ elapsed64 st89.dev.time (st89.dev.thmBeam 0).step) ∧
    State.reset.dev.get (F.THM_Pn_STAT_LEVEL 0) < 2 ∧
    (tfind wInc.dev.hnd.inc (BitVec.toNat req0.xid)).isSome = true ∧
    (tfind State.reset.dev.hnd.inc (BitVec.toNat req0.xid) = none ∧ State.reset.dev.denyReason 6 req0 (State.reset.dev.reqTko req0) = some 3) ∧
    (tfind wCover.dev.hnd.inc (BitVec.toNat req0.xid) = none ∧ wCover.dev.denyReason 6 req0 (wCover.dev.reqTko req0) = none ∧ wCover.dev.runOf 0 = none ∧ wCover.dev.displaced wCover.dev.hnd.nextTko 0 = []) ∧
    tfind State.reset.dev.hnd.inc (BitVec.toNat (77 : Word)) = none ∧
    (tfind wInc.dev.hnd.inc (BitVec.toNat (77 : Word)) = some hoIn0 ∧ hoIn0.node = 6) ∧
    hoIn0.orphan = false := by
  decide +kernel

theorem wit_RemaindersOwned :
    State.reset.dev.outOf 6 (BitVec.toNat (77 : Word)) = none ∧
    tfind State.reset.dev.hnd.out (BitVec.toNat (77 : Word)) = none ∧
    ((wOut id).dev.outOf 6 (BitVec.toNat (77 : Word)) = some hoOut0 ∧ hoOut0.granted = false ∧ (wOut id).dev.tkoOf hoOut0.key = some 4 ∧ tfind (wOut id).dev.hnd.tko 4 = some (let __src := tko0; Takeover.mk __src.lead __src.entry __src.key __src.rp __src.detect [(6, 5)] __src.tried (some (Cover.rem 6 5 77)) __src.started __src.chose) ∧ (wOut id).dev.path? hoOut0.key = some (tileTko.paths.getD 0 (path0 PStat.fresh))) ∧
    (st90.dev.outOf 6 (BitVec.toNat (77 : Word)) = some (let __src := hoOut0; HoOut.mk __src.node __src.port __src.key true true __src.sent __src.conf __src.heard __src.asked) ∧ (let __src := hoOut0; HoOut.mk __src.node __src.port __src.key true true __src.sent __src.conf __src.heard __src.asked).granted = true ∧ (let __src := hoOut0; HoOut.mk __src.node __src.port __src.key true true __src.sent __src.conf __src.heard __src.asked).started = true) ∧
    ((wOutRun id).dev.outOf 6 (BitVec.toNat (77 : Word)) = some hoOut0 ∧ done0.xid = (77 : Word) ∧ done0.aborted = false ∧ (wOutRun id).dev.get F.BED_CTRL_RUN ≠ 0) ∧
    (tfind (wOutLone id).dev.hnd.out (BitVec.toNat (77 : Word)) = some hoOut0 ∧ (wOutLone id).dev.tkoOf hoOut0.key = none) ∧
    hoOut0.node = 6 ∧
    (tfind (wOutRun id).dev.hnd.out (BitVec.toNat (77 : Word)) = some hoOut0 ∧ (wOutRun id).dev.tkoOf hoOut0.key = some 4 ∧ (tfind (wOutRun id).dev.hnd.tko 4).isSome = true) ∧
    (tfind st91.dev.hnd.out (BitVec.toNat (77 : Word)) = some (let __src := hoOut0; HoOut.mk __src.node __src.port __src.key true __src.started __src.sent __src.conf __src.heard __src.asked) ∧ st91.dev.tkoOf (let __src := hoOut0; HoOut.mk __src.node __src.port __src.key true __src.started __src.sent __src.conf __src.heard __src.asked).key = some 4 ∧ (tfind st91.dev.hnd.tko 4).isSome = true ∧ st91.dev.get F.BED_CTRL_RUN ≠ 0 ∧ (let __src := hoOut0; HoOut.mk __src.node __src.port __src.key true __src.started __src.sent __src.conf __src.heard __src.asked).granted = true) ∧
    (tfind st92.dev.hnd.out (BitVec.toNat (77 : Word)) = some (let __src := hoOut0; HoOut.mk __src.node __src.port __src.key true __src.started __src.sent __src.conf __src.heard __src.asked) ∧ st92.dev.tkoOf (let __src := hoOut0; HoOut.mk __src.node __src.port __src.key true __src.started __src.sent __src.conf __src.heard __src.asked).key = none) := by
  decide +kernel

theorem wit_StandbyCopies :
    List.length State.reset.dev.hnd.stby < 1024 ∧
    (1024 ≤ List.length wStbyFull.dev.hnd.stby ∧ tfind wStbyFull.dev.hnd.stby (BitVec.toNat (5000 : Word)) = none) ∧
    tfind State.reset.dev.hnd.stby (BitVec.toNat (77 : Word)) = none ∧
    (tfind (wStby stby0 State.reset).dev.hnd.stby (BitVec.toNat (77 : Word)) = some stby0 ∧ stby0.node = 6) ∧
    stby0.complete = false ∧
    (tfind wOrphan.dev.hnd.stby (BitVec.toNat (77 : Word)) = some stbyFull ∧ wOrphan.dev.orphanCover wOrphan.mem (BitVec.toNat (77 : Word)) stbyFull = some (0, 0)) ∧
    tfind State.reset.dev.hnd.stbyOut (BitVec.toNat (77 : Word)) = none ∧
    (tfind wOwner.dev.hnd.stbyOut (BitVec.toNat (77 : Word)) = some (StbyOut.mk 6 (PKey.bed 2 0 0)) ∧ (StbyOut.mk 6 (PKey.bed 2 0 0)).node = 6 ∧ wOwner.dev.path? (StbyOut.mk 6 (PKey.bed 2 0 0)).key = some (runTile.paths.getD 0 (path0 PStat.fresh)) ∧ (runTile.paths.getD 0 (path0 PStat.fresh)).st = PStat.running 0 ∧ (wOwner.dev.runOf 0).isSome = true ∧ wOwner.dev.get F.BED_CTRL_RUN ≠ 0) := by
  decide +kernel

theorem wit_GlkFramesAndMarkers :
    (blockBad badBlk = true ∧ 2 ≤ st93.dev.get (F.GLKp_STAT_STATE 1) ∧ st93.dev.get (F.GLKp_STAT_STATE 1) ≤ 5 ∧ ((st93.dev.glkRx 1).count badBlk).lost = false) ∧
    (2 ≤ wLock.dev.get (F.GLKp_STAT_STATE 1) ∧ wLock.dev.get (F.GLKp_STAT_STATE 1) ≤ 5 ∧ ((wLock.dev.glkRx 1).count badBlk).lost = true) ∧
    st94.dev.get (F.GLKp_STAT_STATE 1) < 2 ∧
    (gfr0.payload.length % 8 = 0 ∧ gfr0.payload.length ≤ 1008 ∧ State.reset.dev.get (F.GLKp_STAT_STATE 1) ≠ 5 ∧ gfr0.type ≠ (1 : Byte)) ∧
    (st95.dev.get (F.GLKp_STAT_STATE 1) = 5 ∧ (5 : Word) ≠ frameCrc gfr0) ∧
    (gfrBad.payload.length % 8 = 0 ∧ gfrBad.payload.length ≤ 1008 ∧ frameCrc gfrBad = frameCrc gfrBad ∧ BitVec.toNat gfrBad.type ∉ glkTypes) ∧
    (gfrOwn.payload.length % 8 = 0 ∧ gfrOwn.payload.length ≤ 1008 ∧ frameCrc gfrOwn = frameCrc gfrOwn ∧ BitVec.toNat gfrOwn.type ∈ glkTypes ∧ BitVec.toNat gfrOwn.dst = st95.dev.node) ∧
    (gfrOld.payload.length % 8 = 0 ∧ gfrOld.payload.length ≤ 1008 ∧ frameCrc gfrOld = frameCrc gfrOld ∧ BitVec.toNat gfrOld.type ∈ glkTypes ∧ gfrOld.type ≠ (1 : Byte) ∧ BitVec.toNat gfrOld.dst ≠ st95.dev.node ∧ gfrOld.dst ≠ (255 : Byte) ∧ BitVec.toNat gfrOld.ttl ≤ 1) ∧
    (st96.dev.get (F.GLKp_STAT_STATE 1) = 5 ∧ frameCrc gfr0 = frameCrc gfr0 ∧ BitVec.toNat gfr0.type ∈ glkTypes ∧ BitVec.toNat gfr0.dst ≠ st96.dev.node ∧ gfr0.dst ≠ (255 : Byte) ∧ 2 ≤ BitVec.toNat gfr0.ttl ∧ st96.dev.nextHop (BitVec.toNat gfr0.dst) = some 2) ∧
    (st97.dev.get (F.GLKp_STAT_STATE 1) = 5 ∧ BitVec.toNat gfr0.dst ≠ st97.dev.node ∧ st97.dev.nextHop (BitVec.toNat gfr0.dst) = none) ∧
    State.reset.dev.get (F.GLKp_STAT_STATE 1) ≠ 5 ∧
    (st95.dev.glk.up ≠ some 1 ∧ st95.dev.markValid 1 (let __src := mark0; Marker.mk __src.counter __src.root __src.timeValid __src.compat __src.hops __src.holdover __src.apart __src.launch __src.phase false) = false) ∧
    (st98.dev.get (F.GLKp_STAT_STATE 1) = 5 ∧ st98.dev.glk.up ≠ some 1 ∧ st98.dev.markValid 1 mark0 = true ∧ st98.dev.rigged = true ∧ st98.dev.get F.GLK_STAT_ROLE ≠ 2 ∧ st98.dev.get (F.GLKp_STAT_STATE 2) = 5 ∧ (st98.dev.glkPort 2).mark = none) :=
  ⟨⟨by decide +kernel, by decide +kernel, by decide +kernel, by decide +kernel⟩, ⟨by decide +kernel, by decide +kernel, by decide +kernel⟩, by decide +kernel, ⟨by decide +kernel, by decide +kernel, by decide +kernel, by decide +kernel⟩, ⟨by decide +kernel, by decide +kernel⟩, ⟨by decide +kernel, by decide +kernel, by decide +kernel, by decide +kernel⟩, ⟨by decide +kernel, by decide +kernel, by decide +kernel, by decide +kernel, by decide +kernel⟩, ⟨by decide +kernel, by decide +kernel, by decide +kernel, by decide +kernel, by decide +kernel, by decide +kernel, by decide +kernel, by decide +kernel⟩, ⟨by decide +kernel, by decide +kernel, by decide +kernel, by decide +kernel, by decide +kernel, by decide +kernel, by decide +kernel⟩, ⟨by decide +kernel, by decide +kernel, by decide +kernel⟩, by decide +kernel, ⟨by decide +kernel, by decide +kernel⟩, ⟨by decide +kernel, by decide +kernel, by decide +kernel, by decide +kernel, by decide +kernel, by decide +kernel, by decide +kernel⟩⟩

theorem wit_GlkPortStates :
    (st99.dev.get (F.GLKp_STAT_STATE 1) = 0 ∧ st99.dev.rigged = true ∧ st99.dev.bit F.GLK_CTRL_PORT_EN 1 = true) ∧
    (st100.dev.get (F.GLKp_STAT_STATE 1) = 0 ∧ st100.dev.bit F.GLK_CTRL_PORT_EN 1 = false) ∧
    st101.dev.get (F.GLKp_STAT_STATE 1) = 2 ∧
    (st102.dev.get (F.GLKp_STAT_STATE 1) = 4 ∧ delaysAgree (st102.dev.glkPort 1).delays = true) ∧
    (st103.dev.get (F.GLKp_STAT_STATE 1) = 4 ∧ delaysAgree (st103.dev.glkPort 1).delays = false) ∧
    (1 ≤ st104.dev.get (F.GLKp_STAT_STATE 1) ∧ st104.dev.get (F.GLKp_STAT_STATE 1) ≤ 4 ∧ 100000000 ≤ elapsed64 st104.dev.time (st104.dev.glkPort 1).since) ∧
    elapsed64 st103.dev.time (st103.dev.glkPort 1).since < 100000000 ∧
    State.reset.dev.get (F.GLKp_STAT_STATE 1) ≠ 5 ∧
    st95.dev.get (F.GLKp_STAT_STATE 1) = 5 ∧
    (State.reset.dev.get (F.GLKp_STAT_STATE 1) ≠ 3 ∧ State.reset.dev.get (F.GLKp_STAT_STATE 1) ≠ 4) ∧
    (st93.dev.get (F.GLKp_STAT_STATE 1) = 3 ∧ 0 = st93.dev.node ∧ st93.dev.get F.GLK_STAT_NODE_CONFLICT = 0) ∧
    6 ≠ st93.dev.node := by
  decide +kernel

theorem wit_GlkMessages :
    State.reset.dev.rigged = false ∧
    (wRigged.dev.rigged = true ∧ 6 ≠ wRigged.dev.node) ∧
    (wMember.dev.get F.GLK_STAT_ROLE = 2 ∧ wMember.dev.glk.root = some 4 ∧ 4 ≠ wMember.dev.node) ∧
    (wRigged.dev.get F.GLK_STAT_ROLE = 0 ∧ wRigged.dev.glkUps = []) ∧
    0 = wRigged.dev.node ∧
    6 ≠ wRigged.dev.node ∧
    State.reset.dev.get F.GLK_DIGEST_RX_COUNT < 2 ^ 32 ∧
    State.reset.dev.glkUps = [] ∧
    State.reset.dev.get F.GLK_STAT_ROLE ≠ 1 ∧
    (st95.dev.rigged = true ∧ st95.dev.glkUps ≠ []) ∧
    (st105.dev.rigged = true ∧ st105.dev.get F.GLK_STAT_ROLE = 1) ∧
    (st106.dev.rigged = true ∧ tfind st106.dev.hnd.out (BitVec.toNat (77 : Word)) = some (let __src := hoOut0; HoOut.mk __src.node __src.port __src.key true __src.started __src.sent __src.conf __src.heard __src.asked) ∧ (let __src := hoOut0; HoOut.mk __src.node __src.port __src.key true __src.started __src.sent __src.conf __src.heard __src.asked).granted = true) := by
  decide +kernel

theorem wit_PtpRows :
    State.reset.dev.ptpOn 0 = false ∧
    (st107.dev.ptpOn 0 = true ∧ st107.dev.get F.PTP_GM_HI_ID = BitVec.toNat (0 : DWord) / 2 ^ 32 ∧ st107.dev.get F.PTP_GM_LO_ID = BitVec.toNat (0 : DWord) % 2 ^ 32 ∧ st107.dev.get F.PTP_STAT_STATE = 6) ∧
    (st108.dev.ptpOn 0 = true ∧ st108.dev.get F.PTP_GM_HI_ID = BitVec.toNat (0 : DWord) / 2 ^ 32 ∧ st108.dev.get F.PTP_GM_LO_ID = BitVec.toNat (0 : DWord) % 2 ^ 32 ∧ st108.dev.get F.PTP_STAT_STATE = 2 ∧ st108.dev.get F.PTP_STAT_TIME_VALID = 1 ∧ st108.dev.ptp.first = none) ∧
    (st109.dev.ptpOn 0 = true ∧ st109.dev.get F.PTP_GM_HI_ID = BitVec.toNat (0 : DWord) / 2 ^ 32 ∧ st109.dev.get F.PTP_GM_LO_ID = BitVec.toNat (0 : DWord) % 2 ^ 32 ∧ st109.dev.get F.PTP_STAT_STATE ≠ 6 ∧ st109.dev.get F.PTP_STAT_TIME_VALID = 0 ∧ st109.dev.ptp.step = none) ∧
    (st110.dev.ptpOn 0 = true ∧ st110.dev.get F.PTP_CTRL_P2P = 0) ∧
    (st111.dev.ptpOn 0 = true ∧ ¬st111.dev.get F.PTP_CTRL_P2P = 0) ∧
    st110.dev.get (F.PTPp_CFG_PEN 0) = 1 ∧
    (st112.dev.ptpOn 0 = true ∧ st112.dev.get F.PTP_CTRL_P2P = 0 ∧ st112.dev.get (F.PTPp_STAT_PSTATE 0) = 6) ∧
    (st113.dev.ptpOn 0 = true ∧ st113.dev.get F.PTP_CTRL_P2P ≠ 0 ∧ st113.dev.get F.PTP_CTRL_ONESTEP ≠ 0) ∧
    State.reset.dev.get F.PTP_CTRL_EN = 0 ∧
    (st114.dev.get F.PTP_CTRL_EN = 1 ∧ st114.dev.get F.PTP_STAT_STATE = 2) ∧
    State.reset.dev.get F.PTP_STAT_PHASE_SLEW = 0 ∧
    st115.dev.get F.PTP_STAT_PHASE_SLEW ≠ 0 ∧
    (st117.dev.ptpOn 0 = true ∧ st117.dev.get (F.PTPp_STAT_LINK 0) = 1 ∧ st117.dev.get (F.PTPp_STAT_PSTATE 0) = 6) := by
  decide +kernel

theorem wit_ChannelTrainingAndRetraining :
    ((wCh 1 id).dev.get (F.DDR_CHc_STAT_STATE 1) = 1 ∧ train0.failStep = none) ∧
    (let __src := train0; TrainResult.mk (some 3) __src.speed __src.rdimm __src.x8 __src.tworanks __src.capGb __src.ms).failStep = some 3 ∧
    (wCh 2 id).dev.get (F.DDR_CHc_STAT_STATE 1) ≠ 1 ∧
    ((wCh 2 id).dev.get (F.DDR_CHc_STAT_STATE 1) = 2 ∧ (wCh 2 id).dev.sys.sup = SupState.running ∧ (wCh 2 id).dev.get F.DDR_CTRL_FIXED = 0 ∧ (tget ddrCh0 (wCh 2 id).dev.ddr.ch 1).rtLeft = 0 ∧ true = true) ∧
    elapsed64 st118.dev.time (tget ddrCh0 st118.dev.ddr.ch 1).checkAt < st118.dev.get F.DDR_CTRL_RT_PERIOD * 1000000 ∧
    (wCh 1 id).dev.get (F.DDR_CHc_STAT_STATE 1) ≠ 2 ∧
    (st119.dev.get (F.DDR_CHc_STAT_STATE 1) = 2 ∧ st119.dev.sys.sup = SupState.running ∧ st119.dev.get F.DDR_CTRL_FIXED = 0 ∧ 0 < (tget ddrCh0 st119.dev.ddr.ch 1).rtLeft ∧ (∀ w ∈ st119.dev.ddr.waiting, w.cls ≠ 0) ∧ st119.dev.get F.BED_STAT_PHASE = 0) ∧
    (tget ddrCh0 (wCh 2 id).dev.ddr.ch 1).rtLeft = 0 ∧
    ((tget ddrCh0 st120.dev.ddr.ch 1).rtWait = some (0 : DWord) ∧ (tget ddrCh0 st120.dev.ddr.ch 1).rtNoted = false ∧ 1000000000 ≤ elapsed64 st120.dev.time (0 : DWord)) ∧
    (tget ddrCh0 (wCh 2 id).dev.ddr.ch 1).rtWait = none := by
  decide +kernel

theorem wit_FixedModeOnlyReports :
    (wFixed 2).dev.get F.DDR_CTRL_FIXED ≠ 0 ∧
    ((wFixed 2).dev.get (F.DDR_CHc_STAT_STATE 1) = 2 ∧ (wFixed 2).dev.sys.sup = SupState.running ∧ (∀ w ∈ (wFixed 2).dev.ddr.waiting, w.cls ≠ 0) ∧ (wFixed 2).dev.get F.BED_STAT_PHASE = 0 ∧ true = true) := by
  decide +kernel

theorem wit_DramRequestsServed :
    srcClass (let __src := req1 none 4; DramReq.mk 96 __src.addr __src.wr __src.len).src = some 4 ∧
    srcClass (let __src := req1 none 4; DramReq.mk 255 __src.addr __src.wr __src.len).src = none ∧
    State.reset.dev.ddr.waiting = [] ∧
    (st121.dev.ddr.waiting = [DdrWait.mk 1 (req1 none 4) 4 (0 : DWord)] ++ [DdrWait.mk 2 (req1 (some [1#8, 2#8]) 2) 2 (0 : DWord), DdrWait.mk 3 (req1 none 4) 2 (0 : DWord)] ∧ (∀ y ∈ [DdrWait.mk 1 (req1 none 4) 4 (0 : DWord)], (DdrWait.mk 2 (req1 (some [1#8, 2#8]) 2) 2 (0 : DWord)).cls < y.cls) ∧ (∀ y ∈ [DdrWait.mk 3 (req1 none 4) 2 (0 : DWord)], (DdrWait.mk 2 (req1 (some [1#8, 2#8]) 2) 2 (0 : DWord)).cls ≤ y.cls) ∧ (∀ y ∈ [DdrWait.mk 1 (req1 none 4) 4 (0 : DWord)] ++ [DdrWait.mk 3 (req1 none 4) 2 (0 : DWord)], y.id ≠ (DdrWait.mk 2 (req1 (some [1#8, 2#8]) 2) 2 (0 : DWord)).id) ∧ (DdrWait.mk 2 (req1 (some [1#8, 2#8]) 2) 2 (0 : DWord)).req.wr = some [1#8, 2#8] ∧ (DdrWait.mk 2 (req1 (some [1#8, 2#8]) 2) 2 (0 : DWord)).cls ≠ 1 ∧ DramEnd.clean ≠ DramEnd.caParity ∧ DramEnd.clean ≠ DramEnd.noResponse ∧ st121.dev.beyond (BitVec.toNat (DdrWait.mk 2 (req1 (some [1#8, 2#8]) 2) 2 (0 : DWord)).req.addr) [1#8, 2#8].length = false ∧ st121.dev.goneAt (BitVec.toNat (DdrWait.mk 2 (req1 (some [1#8, 2#8]) 2) 2 (0 : DWord)).req.addr) [1#8, 2#8].length = none) ∧
    ((wReqs none 4).dev.ddr.waiting = [DdrWait.mk 1 (req1 none 4) 4 (0 : DWord)] ++ [DdrWait.mk 2 (req1 none 4) 2 (0 : DWord), DdrWait.mk 3 (req1 none 4) 2 (0 : DWord)] ∧ (∀ y ∈ [DdrWait.mk 1 (req1 none 4) 4 (0 : DWord)], (DdrWait.mk 2 (req1 none 4) 2 (0 : DWord)).cls < y.cls) ∧ (∀ y ∈ [DdrWait.mk 3 (req1 none 4) 2 (0 : DWord)], (DdrWait.mk 2 (req1 none 4) 2 (0 : DWord)).cls ≤ y.cls) ∧ (∀ y ∈ [DdrWait.mk 1 (req1 none 4) 4 (0 : DWord)] ++ [DdrWait.mk 3 (req1 none 4) 2 (0 : DWord)], y.id ≠ (DdrWait.mk 2 (req1 none 4) 2 (0 : DWord)).id) ∧ (DdrWait.mk 2 (req1 none 4) 2 (0 : DWord)).req.wr = none ∧ (wReqs none 4).dev.beyond (BitVec.toNat (DdrWait.mk 2 (req1 none 4) 2 (0 : DWord)).req.addr) (DdrWait.mk 2 (req1 none 4) 2 (0 : DWord)).req.len = false ∧ (wReqs none 4).dev.goneAt (BitVec.toNat (DdrWait.mk 2 (req1 none 4) 2 (0 : DWord)).req.addr) (DdrWait.mk 2 (req1 none 4) 2 (0 : DWord)).req.len = none ∧ DramEnd.corrected ≠ DramEnd.uncorrectable) ∧
    DramEnd.uncorrectable = DramEnd.uncorrectable ∧
    (DramEnd.noResponse = DramEnd.noResponse ∧ (wReqs none 4).dev.get (F.DDR_CHc_STAT_STATE ((wReqs none 4).dev.serving (BitVec.toNat (DdrWait.mk 2 (req1 none 4) 2 (0 : DWord)).req.addr))) ≠ 5) := by
  decide +kernel

theorem wit_SelfRefreshAndScrubs :
    (st122.dev.get F.DDR_CTRL_SR_EN ≠ 0 ∧ st122.dev.get (F.DDR_CHc_STAT_STATE 1) = 2 ∧ st122.dev.noBeds = true ∧ st122.dev.chWaits 1 = false ∧ st122.dev.get F.BED_CTRL_RUN = 0 ∧ st122.dev.get F.DDR_SR_IDLE_US * 1000 ≤ elapsed64 st122.dev.time (tget ddrCh0 st122.dev.ddr.ch 1).lastReq) ∧
    State.reset.dev.get (F.DDR_CHc_STAT_STATE 1) ≠ 2 ∧
    (st123.dev.get (F.DDR_CHc_STAT_STATE 1) = 4 ∧ 0 < st123.dev.capBytes 0 + st123.dev.capBytes 1) ∧
    wDram.dev.get (F.DDR_CHc_STAT_STATE 1) ≠ 4 ∧
    ((wRun wDram).dev.sys.sup = SupState.running ∧ 2 ≤ (wRun wDram).dev.get (F.DDR_CHc_STAT_STATE (if (wRun wDram).dev.ddr.scrubAt < (wRun wDram).dev.capBytes 0 then 0 else 1)) ∧ (wRun wDram).dev.get (F.DDR_CHc_STAT_STATE (if (wRun wDram).dev.ddr.scrubAt < (wRun wDram).dev.capBytes 0 then 0 else 1)) ≠ 5 ∧ 0 < (wRun wDram).dev.capBytes 0 + (wRun wDram).dev.capBytes 1) ∧
    State.reset.dev.get (F.DDR_CHc_STAT_STATE (if State.reset.dev.ddr.scrubAt < State.reset.dev.capBytes 0 then 0 else 1)) < 2 ∧
    (sup0 SupState.halted).dev.sys.sup ≠ SupState.running ∧
    (wRun State.reset).dev.sys.sup = SupState.running := by
  decide +kernel

theorem wit_SensorsLatchesAndShutdowns :
    State.reset.dev.get (F.THM_INt_VAL_FAILED 70) = 0 ∧
    (st124.dev.get (F.THM_INt_VAL_FAILED 70) ≠ 0 ∧ 10000000000 ≤ elapsed64 st124.dev.time (st124.dev.thmIn 70).bad) ∧
    State.reset.dev.get (F.THM_Pn_STAT_LATCH 3) = 0 ∧
    (st125.dev.get (F.THM_Pn_STAT_LATCH 3) ≠ 0 ∧ (st125.dev.thmBeam 3).report = none ∧ st125.dev.get F.THM_STAT_DIE_SD = 0 ∧ (st125.dev.thmBeam 3).cmp = [] ∧ (st125.dev.thmBeam 3).cool = some (0 : DWord) ∧ 10000000000 ≤ elapsed64 st125.dev.time (0 : DWord)) ∧
    (State.reset.dev.thmBeam 3).report = none ∧
    ((st126.dev.thmBeam 3).report = some report0 ∧ st126.dev.sys.ctrlSilent = false ∧ st126.dev.get (F.HND_Pn_STAT_STATE 3) = 2 ∧ st126.dev.runOf 3 = none ∧ st126.dev.hnd.tko = []) ∧
    ((st127.dev.thmBeam 0).report = some report0 ∧ st127.dev.sys.ctrlSilent = false ∧ st127.dev.get (F.HND_Pn_STAT_STATE 0) = 0 ∧ st127.dev.runOf 0 = none ∧ st127.dev.hnd.tko = []) ∧
    (State.reset.dev.thmBeam 3).blindAt = none ∧
    ((st128.dev.thmBeam 3).blindAt = some (0 : DWord) ∧ 60000000000 ≤ elapsed64 st128.dev.time (0 : DWord) ∧ st128.dev.get (F.HND_Pn_STAT_STATE 3) = 2 ∧ st128.dev.runOf 3 = none ∧ st128.dev.hnd.tko = [] ∧ st128.dev.get (F.THM_Pn_STAT_LATCH 3) = 0) := by
  decide +kernel

theorem wit_TemperaturesConverted :
    State.reset.dev.tempUse 70 = false ∧
    (st129.dev.tempUse 70 = true ∧ st129.dev.get (F.THM_INt_VAL_FAILED 70) ≠ 0) ∧
    (st130.dev.tempUse 70 = true ∧ st130.dev.get (F.THM_INt_VAL_FAILED 70) = 0 ∧ tempCause (TempRaw.mk 1701 50000 true).pinmV (st130.dev.thmIn 70).prev (st130.dev.tempReading 70 (TempRaw.mk 1701 50000 true)) ≠ 0 ∧ st130.dev.get F.LED_STAT_FITTED = 0) ∧
    ((-1024 : ℤ) ≤ BitVec.toInt (1840 : BitVec 16) ∧ BitVec.toInt (1840 : BitVec 16) < (2080 : ℤ)) ∧
    ((-1024 : ℤ) ≤ BitVec.toInt (1759 : BitVec 16) ∧ BitVec.toInt (1759 : BitVec 16) < (2080 : ℤ)) ∧
    ((3200 : ℤ) < BitVec.toInt (3201 : BitVec 16) ∧ st131.dev.thm.ignored.contains ((2 * match Die.edge with | Die.control => 0 | Die.edge => 1) + 1) = false ∧ st131.dev.thm.ignored.contains ((2 * match Die.edge with | Die.control => 0 | Die.edge => 1) + (1 - 1)) = false ∧ tfind st131.dev.thm.die ((2 * match Die.edge with | Die.control => 0 | Die.edge => 1) + (1 - 1)) = none) := by
  decide +kernel

theorem wit_LightingFrameAndLines :
    State.reset.dev.get F.LED_CTRL_EN = 0 ∧
    (st133.dev.get F.LED_CTRL_EN ≠ 0 ∧ st133.dev.rigged = true ∧ st133.dev.sys.edgeSilent = false ∧ byteAt st133.dev.lightNow 0 ≠ 0 ∧ st133.dev.led.frame = some ((4294966796 : Word), (0 : DWord)) ∧ 500 ≤ elapsed32 st133.dev.tick (4294966796 : Word)) ∧
    State.reset.dev.led.frame = none ∧
    (st134.dev.led.frame = some ((0 : Word), (0 : DWord)) ∧ elapsed64 st134.dev.time (0 : DWord) / 31250 ≠ 1) ∧
    (st135.dev.led.frame = some ((0 : Word), (18446744073709489116 : DWord)) ∧ elapsed64 st135.dev.time (18446744073709489116 : DWord) / 31250 = 2 ∧ byteAt st135.dev.led.light 0 ≤ 2) ∧
    (st136.dev.led.frame = some ((0 : Word), (18446744073709520366 : DWord)) ∧ elapsed64 st136.dev.time (18446744073709520366 : DWord) / 31250 = 1 ∧ 1 < byteAt st136.dev.led.light 0 ∧ tget 0 st136.dev.led.trips 1 < 4) := by
  decide +kernel

theorem wit_EncodersAndCompareUnits :
    State.reset.dev.encCounts 3 = false ∧
    (st70.dev.encCounts 3 = true ∧ st70.dev.get (F.QEe_CTRL_FILT 3) = 0 ∧ ¬st70.dev.get (F.QE_CMPk_CTRL_SRC 7) = 3 ∧ ¬st70.dev.get (F.QE_CMPk_CTRL_SRC 6) = 3 ∧ ¬st70.dev.get (F.QE_CMPk_CTRL_SRC 5) = 3 ∧ ¬st70.dev.get (F.QE_CMPk_CTRL_SRC 4) = 3 ∧ ¬st70.dev.get (F.QE_CMPk_CTRL_SRC 3) = 3 ∧ ¬st70.dev.get (F.QE_CMPk_CTRL_SRC 2) = 3 ∧ ¬st70.dev.get (F.QE_CMPk_CTRL_SRC 1) = 3 ∧ ¬st70.dev.get (F.QE_CMPk_CTRL_SRC 0) = 3 ∧ st70.dev.get F.BED_STAT_PHASE ≠ 3 ∧ true ≠ (st70.dev.encOf 3).a ∧ false = (st70.dev.encOf 3).b) ∧
    (st137.dev.encCounts 3 = true ∧ st137.dev.get (F.QEe_CTRL_FILT 3) = 0 ∧ ¬st137.dev.get (F.QE_CMPk_CTRL_SRC 7) = 3 ∧ ¬st137.dev.get (F.QE_CMPk_CTRL_SRC 6) = 3 ∧ ¬st137.dev.get (F.QE_CMPk_CTRL_SRC 5) = 3 ∧ ¬st137.dev.get (F.QE_CMPk_CTRL_SRC 4) = 3 ∧ ¬st137.dev.get (F.QE_CMPk_CTRL_SRC 3) = 3 ∧ ¬st137.dev.get (F.QE_CMPk_CTRL_SRC 2) = 3 ∧ ¬st137.dev.get (F.QE_CMPk_CTRL_SRC 1) = 3 ∧ ¬st137.dev.get (F.QE_CMPk_CTRL_SRC 0) = 3 ∧ st137.dev.get F.BED_STAT_PHASE ≠ 3 ∧ false = (st137.dev.encOf 3).a ∧ true ≠ (st137.dev.encOf 3).b) ∧
    (true ≠ (st70.dev.encOf 3).b ∧ (st70.dev.encOf 3).ill.length < 15) ∧
    (st138.dev.get (F.QEe_STAT_MOVING 3) ≠ 0 ∧ 2 ^ 24 ≤ (st138.dev.encOf 3).clock - (st138.dev.encOf 3).last) ∧
    State.reset.dev.get (F.QEe_STAT_MOVING 3) = 0 ∧
    ((State.reset.dev.cmpOf 5).value = none ∧ (State.reset.dev.cmpOf 5).arm = false) ∧
    ((st139.dev.cmpOf 5).arm = true ∧ (0 : ℤ) < along (st139.dev.cmpDown 5) (BitVec.toInt ((st139.dev.cmpOf 5).value.getD (st139.dev.getW (F.QE_CMPk_VAL_VAL 5)) - st139.dev.count (st139.dev.get (F.QE_CMPk_CTRL_SRC 5))))) ∧
    ((st140.dev.cmpOf 5).arm = true ∧ along (st140.dev.cmpDown 5) (BitVec.toInt ((st140.dev.cmpOf 5).value.getD (st140.dev.getW (F.QE_CMPk_VAL_VAL 5)) - st140.dev.count (st140.dev.get (F.QE_CMPk_CTRL_SRC 5)))) ≤ (0 : ℤ) ∧ st140.dev.get (F.QE_CMPk_CTRL_CATCHUP 5) = 0) := by
  decide +kernel

theorem wit_AxisUpdates :
    State.reset.dev.get (F.AXSa_CTRL_EN 1) = 0 ∧
    (st141.dev.get (F.AXSa_CTRL_EN 1) ≠ 0 ∧ st141.dev.get (F.AXSa_RATE_TICKS 1) ≤ elapsed32 st141.dev.tick (st141.dev.axsOf 1).last ∧ st141.dev.get (F.AXSa_STAT_STATE 1) = 3) ∧
    (st142.dev.get (F.AXSa_CTRL_EN 1) ≠ 0 ∧ st142.dev.get (F.AXSa_RATE_TICKS 1) ≤ elapsed32 st142.dev.tick (st142.dev.axsOf 1).last ∧ st142.dev.get (F.AXSa_STAT_STATE 1) ≠ 3 ∧ axisInput (st142.dev.sections false) 1 = some 0 ∧ (st142.dev.axsOf 1).move = none ∧ (st142.dev.axsOf 1).next = none) ∧
    (st143.dev.get (F.AXSa_CTRL_EN 1) ≠ 0 ∧ st143.dev.get (F.AXSa_RATE_TICKS 1) ≤ elapsed32 st143.dev.tick (st143.dev.axsOf 1).last ∧ st143.dev.get (F.AXSa_STAT_STATE 1) ≠ 3 ∧ axisInput (st143.dev.sections false) 1 = some 0 ∧ (st143.dev.axsOf 1).move = none ∧ (st143.dev.axsOf 1).next = none) ∧
    (st144.dev.get (F.AXSa_CTRL_EN 1) ≠ 0 ∧ st144.dev.get (F.AXSa_RATE_TICKS 1) ≤ elapsed32 st144.dev.tick (st144.dev.axsOf 1).last ∧ st144.dev.get (F.AXSa_STAT_STATE 1) ≠ 3 ∧ axisInput (st144.dev.sections false) 1 = some 0 ∧ (st144.dev.axsOf 1).move = none ∧ (st144.dev.axsOf 1).next = none) := by
  decide +kernel

theorem wit_SlicesStartAndEnd :
    st145.dev.groupRun (Slice.digital (Slice.pd (5 : Chan))) ≠ none ∧
    (st146.dev.groupRun (Slice.digital (Slice.pairLogic (0 : Pair))) = none ∧ st146.dev.sliceMay (Slice.pairLogic (0 : Pair)) = true ∧ st146.dev.sliceTurn (Slice.pairLogic (0 : Pair)) = true) ∧
    State.reset.dev.groupRun (Slice.digital (Slice.pd (5 : Chan))) ≠ some (Slice.pd (5 : Chan)) ∧
    (st147.dev.groupRun (Slice.digital (Slice.pd (5 : Chan))) = some (Slice.pd (5 : Chan)) ∧ 3 ≠ Slice.planned (Slice.pd (5 : Chan))) ∧
    (sres 3 true).cycles ≠ Slice.planned (Slice.pd (5 : Chan)) ∧
    ((sres 8192 true).cycles = Slice.planned (Slice.pd (5 : Chan)) ∧ st147.dev.sliceHolds (Slice.pd (5 : Chan)) (sres 8192 true).check = true ∧ (sres 8192 true).saved = (sres 8192 true).restored) ∧
    ((SliceResult.mk 8192 (SliceCheck.pd (Meas.mk (2048 : ℤ) 1) (Meas.mk (2048 : ℤ) 1)) (7 : Word) (7 : Word) (0 : Word)).cycles = Slice.planned (Slice.pd (5 : Chan)) ∧ st147.dev.sliceHolds (Slice.pd (5 : Chan)) (SliceResult.mk 8192 (SliceCheck.pd (Meas.mk (2048 : ℤ) 1) (Meas.mk (2048 : ℤ) 1)) (7 : Word) (7 : Word) (0 : Word)).check = false ∧ st147.dev.bist.failed.contains (Slice.pd (5 : Chan)) = false) ∧
    (st148.dev.groupRun (Slice.digital (Slice.pairLogic (35 : Pair))) = some (Slice.pairLogic (35 : Pair)) ∧ (SliceResult.mk 65536 (SliceCheck.signature (5 : Word) (5 : Word)) (7 : Word) (8 : Word) (0 : Word)).cycles = Slice.planned (Slice.pairLogic (35 : Pair)) ∧ (SliceResult.mk 65536 (SliceCheck.signature (5 : Word) (5 : Word)) (7 : Word) (8 : Word) (0 : Word)).saved ≠ (SliceResult.mk 65536 (SliceCheck.signature (5 : Word) (5 : Word)) (7 : Word) (8 : Word) (0 : Word)).restored ∧ st148.dev.get (F.ENG_PAIRk_STATE 35) = 2) := by
  decide +kernel

theorem wit_TelemetryPeriods :
    (sup0 SupState.halted).dev.sys.sup ≠ SupState.running ∧
    (State.reset.dev.sys.sup = SupState.running ∧ State.reset.dev.get F.TEL_CTRL_EN = 0) ∧
    (st149.dev.sys.sup = SupState.running ∧ st149.dev.get F.TEL_CTRL_EN ≠ 0 ∧ 0 < st149.dev.ringLen telRing ∧ st149.dev.get F.TEL_WR_INDEX < st149.dev.ringLen telRing ∧ (∀ j < (portsInUse (st149.dev.sections false)).length + 1, (st149.dev.get F.TEL_WR_INDEX + j + 1) % st149.dev.ringLen telRing ≠ st149.dev.get F.TEL_RD_INDEX) ∧ (∀ i < st149.dev.ringLen telRing, st149.dev.beyond (st149.dev.get F.TEL_BASE_BASE * 4096 + i * 64) 64 = false ∧ st149.dev.goneAt (st149.dev.get F.TEL_BASE_BASE * 4096 + i * 64) 64 = none)) ∧
    (wTel.dev.sys.sup = SupState.running ∧ wTel.dev.get F.TEL_CTRL_EN ≠ 0 ∧ portsInUse (wTel.dev.sections false) = [] ∧ 0 < wTel.dev.get F.TEL_SIZE_SIZE * 64 ∧ (wTel.dev.get F.TEL_WR_INDEX + 1) % (wTel.dev.get F.TEL_SIZE_SIZE * 64) ≠ wTel.dev.get F.TEL_RD_INDEX ∧ wTel.dev.beyond (wTel.dev.get F.TEL_BASE_BASE * 4096 + wTel.dev.get F.TEL_WR_INDEX * 64) 64 = false ∧ wTel.dev.goneAt (wTel.dev.get F.TEL_BASE_BASE * 4096 + wTel.dev.get F.TEL_WR_INDEX * 64) 64 = none) := by
  decide +kernel

theorem wit_EventsEnterTheFifo :
    (st150.dev.evr.fifo = [ev0 (1 : Byte)] ++ [ev0 (2 : Byte), ev0 (2 : Byte)] ∧ (∀ y ∈ [ev0 (1 : Byte)], ¬(y.code = (1539 : BitVec 16) ∧ y.src = (4 : Byte) ∧ y.sev = (2 : Byte) ∧ y.count < 65535 ∧ BitVec.toNat (1539 : BitVec 16) / 256 ≠ 1 ∧ (2 : Byte) ≠ (5 : Byte) ∧ (1539 : BitVec 16) ≠ BitVec.ofNat 16 3329)) ∧ ((ev0 (2 : Byte)).code = (1539 : BitVec 16) ∧ (ev0 (2 : Byte)).src = (4 : Byte) ∧ (ev0 (2 : Byte)).sev = (2 : Byte) ∧ (ev0 (2 : Byte)).count < 65535 ∧ BitVec.toNat (1539 : BitVec 16) / 256 ≠ 1 ∧ (2 : Byte) ≠ (5 : Byte) ∧ (1539 : BitVec 16) ≠ BitVec.ofNat 16 3329)) ∧
    ((∀ y ∈ st151.dev.evr.fifo, ¬(y.code = (1539 : BitVec 16) ∧ y.src = (4 : Byte) ∧ y.sev = (2 : Byte) ∧ y.count < 65535 ∧ BitVec.toNat (1539 : BitVec 16) / 256 ≠ 1 ∧ (2 : Byte) ≠ (5 : Byte) ∧ (1539 : BitVec 16) ≠ BitVec.ofNat 16 3329)) ∧ st151.dev.evr.fifo.length < 128) ∧
    ((∀ y ∈ (wFifo (List.replicate 128 (ev0 (2 : Byte)))).dev.evr.fifo, ¬(y.code = (1539 : BitVec 16) ∧ y.src = (4 : Byte) ∧ y.sev = (1 : Byte) ∧ y.count < 65535 ∧ BitVec.toNat (1539 : BitVec 16) / 256 ≠ 1 ∧ (1 : Byte) ≠ (5 : Byte) ∧ (1539 : BitVec 16) ≠ BitVec.ofNat 16 3329)) ∧ 128 ≤ (wFifo (List.replicate 128 (ev0 (2 : Byte)))).dev.evr.fifo.length ∧ (∀ y ∈ (wFifo (List.replicate 128 (ev0 (2 : Byte)))).dev.evr.fifo, y.code ≠ BitVec.ofNat 16 3329 → BitVec.toNat (1 : Byte) ≤ BitVec.toNat y.sev)) ∧
    ((∀ y ∈ (wFifo (List.replicate 128 (ev0 (2 : Byte)))).dev.evr.fifo, ¬(y.code = (1539 : BitVec 16) ∧ y.src = (4 : Byte) ∧ y.sev = (3 : Byte) ∧ y.count < 65535 ∧ BitVec.toNat (1539 : BitVec 16) / 256 ≠ 1 ∧ (3 : Byte) ≠ (5 : Byte) ∧ (1539 : BitVec 16) ≠ BitVec.ofNat 16 3329)) ∧ ev0 (2 : Byte) ∈ (wFifo (List.replicate 128 (ev0 (2 : Byte)))).dev.evr.fifo ∧ (ev0 (2 : Byte)).code ≠ BitVec.ofNat 16 3329 ∧ BitVec.toNat (ev0 (2 : Byte)).sev < BitVec.toNat (3 : Byte)) :=
  ⟨⟨by decide +kernel, by decide +kernel, by decide +kernel⟩, ⟨by decide +kernel, by decide +kernel⟩, ⟨by decide +kernel, by decide +kernel, by decide +kernel⟩, ⟨by decide +kernel, by decide +kernel, by decide +kernel, by decide +kernel⟩⟩

theorem wit_ResetCauseShownAndRecorded :
    (State.reset.dev.get F.EVR_STAT_FLASH_READY = 0 ∧ State.reset.dev.get F.EVR_STAT_FLASH_FAIL = 0 ∧ State.reset.dev.evr.fifo = []) := by
  decide +kernel

theorem wit_RingTakesTheOldest :
    State.reset.dev.evr.fifo = [] ∧
    (st152.dev.evr.fifo = [ev0 (2 : Byte), ev0 (1 : Byte)] ∧ (st152.dev.evr.drops.all fun x => x == 0) = true ∧ st152.dev.get F.EVR_PAGES_RETIRED ≠ 65535 ∧ st152.dev.nextSlot = some 0) ∧
    (st153.dev.evr.fifo = [ev0 (2 : Byte)] ∧ (st153.dev.evr.drops.all fun x => x == 0) = true ∧ st153.dev.get F.EVR_PAGES_RETIRED = 65535 ∧ st153.dev.get F.EVR_STAT_LASTGASP ≠ 0 ∧ st153.dev.evr.bank.length < 8) ∧
    st154.dev.get F.EVR_STAT_FROZEN ≠ 0 ∧
    State.reset.dev.get F.EVR_STAT_FROZEN = 0 := by
  decide +kernel

theorem wit_LogFlashPersistsAndFetches :
    (wDram.dev.mayRun Lane.flash 80 (7 : Word) = true ∧ wDram.dev.sys.sup ≠ SupState.halted ∧ aligned16 (4096 : DWord) = true) ∧
    (st155.dev.mayRun Lane.flash 80 (7 : Word) = true ∧ st155.dev.sys.sup ≠ SupState.halted ∧ st155.dev.get F.EVR_STAT_FLASH_FAIL = 1) ∧
    (st156.dev.mayRun Lane.flash 80 (7 : Word) = true ∧ st156.dev.sys.sup ≠ SupState.halted ∧ st156.dev.get F.EVR_STAT_FLASH_FAIL = 0 ∧ oldestSeq st156.dev.logRecords = some (5 : Word)) ∧
    (recordsFrom st156.dev.logRecords (0 : Word) (BitVec.toNat (1 : Word)) = [rec0] ∧ st156.dev.beyond (BitVec.toNat (4096 : DWord)) 32 = false ∧ st156.dev.goneAt (BitVec.toNat (4096 : DWord)) 32 = none) ∧
    State.reset.dev.get F.EVR_STAT_FLASH_READY = 0 ∧
    (st157.dev.get F.EVR_CTRL_PERSIST ≠ 0 ∧ st157.dev.get F.EVR_STAT_FLASH_READY ≠ 0 ∧ st157.dev.get F.EVR_STAT_FLASH_FAIL = 0 ∧ st157.dev.sys.sup = SupState.running ∧ earliest 8 st157.dev.unpersisted ≠ []) ∧
    (wFlash.dev.get F.EVR_CTRL_PERSIST ≠ 0 ∧ wFlash.dev.get F.EVR_STAT_FLASH_READY ≠ 0 ∧ wFlash.dev.get F.EVR_STAT_FLASH_FAIL = 0 ∧ wFlash.dev.sys.sup = SupState.running ∧ earliest 8 wFlash.dev.unpersisted ≠ [] ∧ wFlash.dev.logFlash.needSector = false ∧ (wFlash.dev.logFlash.sector wFlash.dev.logFlash.cur).recs.length + 8 ≤ 2047) ∧
    st158.dev.get F.EVR_STAT_FLASH_READY ≠ 0 ∧
    State.reset.dev.get F.EVR_STAT_FLASH_FAIL = 0 := by
  decide +kernel

theorem wit_PinsAndBoundaryScan :
    (tfind (wPin (5 : DWord)).dev.pins 9 = some (5 : DWord) ∧ later64 (5 : DWord) (wPin (5 : DWord)).dev.time = true) ∧
    (tfind (wPin (0 : DWord)).dev.pins 9 = some (0 : DWord) ∧ later64 (0 : DWord) (wPin (0 : DWord)).dev.time = false) ∧
    tfind State.reset.dev.pins 9 = none := by
  decide +kernel

theorem wit_MinSelectAndDarkTicks :
    (minSelect [cand 0 (1073741824 : Word), cand 1 (1065353216 : Word)] = some (cand 1 (1065353216 : Word)) ∧ (∀ y ∈ [cand 0 (1073741824 : Word), cand 1 (1065353216 : Word)], f32IsNaN y.m = false)) ∧
    [cand 0 (0 : Word)] ≠ [] ∧
    dark0.emit = false := by
  decide +kernel

/-- A swap image that passes its check, while a bed exposes and while none does. -/
def wSwap (phase : Nat) : State := wImgAt rigSwapImg (rig liveFull (withRegs [(F.BED_STAT_PHASE, phase)] State.reset))

theorem wit_SwapsAndSlots_images :
    ((wSwap 4).dev.mayRun Lane.load 0x11 7 = true ∧ (wSwap 4).dev.sys.sup ≠ SupState.halted ∧ aligned16 0 = true ∧
      (wSwap 4).dev.rigBusy .load = false ∧ ((wSwap 4).stage 0 112).1.dev.get F.BED_STAT_PHASE ≠ 0 ∧
      okB (rigValidate (wSwap 4).dev.variant.ports 1 ((wSwap 4).stage 0 112).1.dev.rig.live ((wSwap 4).stage 0 112).2) = true) ∧
    ((wSwap 0).dev.mayRun Lane.load 0x11 7 = true ∧ (wSwap 0).dev.rigBusy .load = false ∧
      ((wSwap 0).stage 0 112).1.dev.get F.BED_STAT_PHASE = 0) := by
  decide +kernel


/-- A diode's reading before the front-end correction. -/
def bareReading (d : Dev) (t : Nat) (raw : TempRaw) : Int :=
  fracRne (fracMul (fracSub (diodeK (d.getW (F.THM_INt_P1_VAL t)) (d.getW (F.THM_INt_P2_VAL t)) raw.value) (frac 27315 100)) (fracI 16))

/-- Inputs 0 and 70 are remote diodes, and the front-end correction of input t makes its reading of `raw` the one wanted. -/
def wWarm (t : Nat) (raw : TempRaw) (want : Int) (l : List (Fld × Nat)) : State :=
  (wThm l id).onDev (fun d => { d with sns := { d.sns with tempFix := [(t, want - bareReading d t raw)] } })

theorem tempReading_eq (d : Dev) (t : Nat) (raw : TempRaw) (want : Int) (ht : tempType (d.sections false) t = 1)
    (hf : d.sns.tempFix = [(t, want - bareReading d t raw)]) (h : clampI (-32768) 32767 want = want) : d.tempReading t raw = want := by
  have e : tget 0 d.sns.tempFix t = want - bareReading d t raw := by rw [hf]; simp [tget]
  have k : d.tempReading t raw = clampI (-32768) 32767 (bareReading d t raw + tget 0 d.sns.tempFix t) := by
    unfold Dev.tempReading bareReading
    simp [ht]
  rw [k, e, show bareReading d t raw + (want - bareReading d t raw) = want by omega]
  exact h

/-- A conversion without a cause of failure, of a device input and of a beam sensor at SHUTDOWN. -/
theorem wit_TemperaturesConverted_good :
    (let s := wWarm 70 ⟨600, 50000, false⟩ 1360 [(F.THM_INt_WT_THROTTLE 70, 1360)]
     s.dev.tempUse 70 = true ∧ s.dev.get (F.THM_INt_VAL_FAILED 70) = 0 ∧
       tempCause 600 (s.dev.thmIn 70).prev (s.dev.tempReading 70 ⟨600, 50000, false⟩) = 0) ∧
    (let s := wWarm 0 ⟨600, 50000, true⟩ 1600 [(F.THM_INt_SD_SHUTDOWN 0, 1600), (F.THM_Pn_STAT_LEVEL 0, 2)]
     s.dev.tempUse 0 = true ∧ s.dev.get (F.THM_INt_VAL_FAILED 0) = 0 ∧
       tempCause 600 (s.dev.thmIn 0).prev (s.dev.tempReading 0 ⟨600, 50000, true⟩) = 0 ∧
       s.dev.getI (F.THM_INt_SD_SHUTDOWN 0) ≤ s.dev.tempReading 0 ⟨600, 50000, true⟩ ∧
       s.dev.get (F.THM_Pn_STAT_BLIND 0) = 0 ∧ 2 ≤ s.dev.get (F.THM_Pn_STAT_LEVEL 0) ∧ s.dev.get (F.THM_Pn_STAT_LATCH 0) = 0 ∧
       s.dev.get (F.THM_INt_VAL_LEVEL 0) ≤ 3 ∧ s.dev.get (F.THM_INt_VAL_LEVEL 1) ≤ 3 ∧ s.dev.cmpSlice 0 = false) := by
  have e := tempReading_eq (wWarm 70 ⟨600, 50000, false⟩ 1360 [(F.THM_INt_WT_THROTTLE 70, 1360)]).dev 70 ⟨600, 50000, false⟩ 1360
    (by decide +kernel) rfl (by decide)
  have f := tempReading_eq (wWarm 0 ⟨600, 50000, true⟩ 1600 [(F.THM_INt_SD_SHUTDOWN 0, 1600), (F.THM_Pn_STAT_LEVEL 0, 2)]).dev 0
    ⟨600, 50000, true⟩ 1600 (by decide +kernel) rfl (by decide)
  dsimp only
  rw [e, f]
  decide +kernel

def hdrFull : List Byte := hdrImg ++ List.replicate 4032 0#8 ++ leBytes 4 2550261440


theorem good_base : wSealGood.dev.bufBase 2 = 4096 := by decide +kernel
theorem good_len : wSealGood.dev.bufLen 2 = 12288 := by decide +kernel
theorem good_hdr_read : bedMem.readBytes 4096 4096 = hdrFull := by
  have e : cellsGet bedMem.cells 4096 4096 = cellsGet bedMem.cells 4096 60 ++ cellsGet bedMem.cells 4156 4036 :=
    cellsGet_add bedMem.cells 4036 4096 60
  have f : cellsGet bedMem.cells 4156 4036 = cellsGet bedMem.cells 4156 4032 ++ cellsGet bedMem.cells 8188 4 :=
    cellsGet_add bedMem.cells 4 4156 4032
  have g := cellsGet_none bedMem.cells 4032 4156 (by decide +kernel)
  have h : cellsGet bedMem.cells 4096 60 = hdrImg := by decide +kernel
  have k : cellsGet bedMem.cells 8188 4 = leBytes 4 2550261440 := by decide +kernel
  unfold Dram.readBytes hdrFull
  rw [e, h, f, g, k, ← List.append_assoc]
  rfl
def hdrVal : BedHdr := ⟨0x44425841, 1, 4096, 9, 5, 8224, 0, 1, 2, 1, 0, 4096, 4224, 8192, 3800836720, 3784091727, 1111992660, 0, 2550261440, true, true⟩
theorem good_hdr : hdrOfBytes hdrFull = hdrVal := by decide +kernel
theorem good_readable : badRead wSealGood.dev bedMem 4096 4096 = false := by decide +kernel
theorem good_hdr_checks : sealHdr hdrVal 5 12288 false = none := by decide +kernel

theorem good_psets : (badRead wSealGood.dev bedMem (4096 + hdrVal.psetOff) (hdrVal.psets * 128) || (crc32c (bedMem.readBytes (4096 + hdrVal.psetOff) (hdrVal.psets * 128))).toNat != hdrVal.psetCrc) = false := by decide +kernel
theorem good_tiles : (badRead wSealGood.dev bedMem (4096 + hdrVal.tileOff) (hdrVal.tiles * 48) || (crc32c (bedMem.readBytes (4096 + hdrVal.tileOff) (hdrVal.tiles * 48))).toNat != hdrVal.tileCrc) = false := by decide +kernel
theorem good_segs : (badRead wSealGood.dev bedMem (4096 + hdrVal.segOff) (hdrVal.segs * 16) || (crc32c (bedMem.readBytes (4096 + hdrVal.segOff) (hdrVal.segs * 16))).toNat != hdrVal.segCrc) = false := by decide +kernel
def thePset := psetOfBytes psetImg
theorem good_pset_list : (upTo hdrVal.psets).map (fun i => psetOfBytes (bedMem.readBytes (4096 + hdrVal.psetOff + 128 * i) 128)) = [thePset] := by decide +kernel
theorem good_pset_values : [thePset].findIdx? (fun p => p.bad) = none := by decide +kernel
theorem good_tile_list : (upTo hdrVal.tiles).map (fun t => (t, tileOfBytes (bedMem.readBytes (4096 + hdrVal.tileOff + 48 * t) 48))) = [(0, tileOfBytes tileImg)] := by decide +kernel
theorem good_tile_checks : sealTiles (wSealGood.dev.sections false) hdrVal (fun i => segOfBytes (bedMem.readBytes (4096 + hdrVal.segOff + 16 * i) 16)) [(0, tileOfBytes tileImg)] = none := by decide +kernel
theorem good_seg_checks : sealSegs [thePset] ([(0, tileOfBytes tileImg)].map (fun (x : Nat × _) => x.2.first + x.2.count - 1)) (fun i => segOfBytes (bedMem.readBytes (4096 + hdrVal.segOff + 16 * i) 16)) hdrVal.segs 0 ⟨true, 0, 0, 0⟩ = none := by decide +kernel


theorem wit_BuffersSealAndCover_good :
    wSealGood.dev.bar.sealing = some (SealRun.mk 2 5 7 [0, 0, 0, 0]) ∧ (∀ c, c < 4 → wSealGood.dev.sealAwaits c = false) ∧
      wSealGood.dev.sealChecks wSealGood.mem 2 5 = .ok hdrVal :=
  ⟨by decide +kernel, by decide +kernel, sealChecks_ok good_base good_len good_hdr_read good_hdr good_readable good_hdr_checks good_psets
    good_tiles good_segs good_pset_list good_pset_values good_tile_list good_tile_checks good_seg_checks⟩

/-- An image of 64 header bytes, of which the last four are their CRC, before a payload. -/
def withHdr (h pay : List Byte) : List Byte := h ++ leBytes 4 (crc32c h).toNat ++ pay
/-- DRAM holds an image at address 0, and nothing else. -/
def wHolds (img : List Byte) (l : List (Fld × Nat)) : State :=
  { wImgAt [] (wRig1 (withRegs l State.reset)) with mem := ({ cells := [], poison := [] } : Dram).writeBytes 0 img }
theorem wHolds_read (img : List Byte) (l : List (Fld × Nat)) (n : Nat) (hn : n = img.length)
    (h : badRead (wHolds img l).dev { cells := [], poison := [] } 0 n = false) :
    (wHolds img l).imageRead 0 n = ((wHolds img l).onDev (fun d => d.touch (d.serving 0)), img, true) := by
  have e : (wHolds img l).mem.readBytes 0 n = img := by rw [hn]; exact Dram.readBytes_writeBytes _ 0 img
  rw [State.imageRead_good _ _ _ h, e]

/-- Two values after which the check register is 0, and zeros. -/
def clearVals (a b : Nat) : List Byte := leBytes 4 a ++ leBytes 4 b
theorem clearVals_length (a b : Nat) : (clearVals a b).length = 8 := rfl
theorem zeros_length (pre : List Byte) (n : Nat) : (pre ++ List.replicate n (0 : Byte)).length = pre.length + n := by
  rw [List.length_append, List.length_replicate]
def axsGoodPay : List Byte := clearVals 0x3C000001 0x177D98E1 ++ List.replicate 4344 0
def axsGood : List Byte := withHdr (leBytes 4 0x54415841 ++ leBytes 2 1 ++ [2, 0] ++ leBytes 4 0x3F800000 ++ leBytes 4 4352 ++ leBytes 4 0xFFFFFFFF ++
  List.replicate 40 0) axsGoodPay
def corrGoodPay : List Byte := clearVals 0x3C000000 0xCA383259 ++ List.replicate 529408 0
def corrGood : List Byte := withHdr (leBytes 4 0x52435841 ++ leBytes 2 1 ++ [0, 0] ++ leBytes 8 0 ++ leBytes 4 1000 ++ leBytes 4 7 ++ leBytes 4 529416 ++
  leBytes 4 0xFFFFFFFF ++ List.replicate 28 0) corrGoodPay
/-- The values of a port's loop tables: zeros, 1,089 factors of 1.0 and three zeros. -/
def loopOnes : List Byte := (List.replicate 1089 (leBytes 4 0x3F800000)).flatten
theorem loopOnes_length : loopOnes.length = 4356 := by
  have k : ∀ n : Nat, ((List.replicate n (leBytes 4 0x3F800000)).flatten).length = 4 * n := by
    intro n
    induction n with
    | zero => rfl
    | succ n ih => rw [List.replicate_succ, List.flatten_cons, List.length_append, ih]; simp only [leBytes, List.length]; omega
  exact k 1089
def loopLow : List Byte := clearVals 0x3C000001 0x177D98E1 ++ List.replicate 4088 0
theorem loopLow_length : loopLow.length = 4096 := zeros_length _ _
def loopGoodPay : List Byte := loopLow ++ loopOnes ++ List.replicate 12 0
def loopGood : List Byte := withHdr (leBytes 4 0x544C5841 ++ leBytes 2 1 ++ [1, 0] ++ leBytes 4 0x3F800000 ++ leBytes 4 8464 ++ leBytes 4 0x326f53a0 ++
  List.replicate 40 0) loopGoodPay

theorem withHdr_drop (h pay : List Byte) (k : h.length = 60) : (withHdr h pay).drop 64 = pay := by
  unfold withHdr
  exact List.drop_left' (by simp [leBytes, k])

theorem clear_reg (a b : Nat) (h : (clearVals a b).foldl crc32cByte 0xFFFFFFFF = 0) (n : Nat) :
    crc32c (clearVals a b ++ List.replicate n 0) = 0xFFFFFFFF#32 := crc32c_cleared _ n h

theorem axsGood_values : (upTo 1088).find? (fun i => badAxisVal axsGoodPay i) = none := by
  refine find_none _ _ (fun i hi => ?_)
  by_cases h : 2 ≤ i
  · have e : f32At axsGoodPay (4 * i) = 0#32 := f32At_zero _ _ _ (by rw [clearVals_length]; omega)
    unfold badAxisVal
    rw [e]
    by_cases k : i < 1024
    · rw [if_pos k]; decide
    · rw [if_neg k]; decide
  · have : i = 0 ∨ i = 1 := by omega
    rcases this with rfl | rfl <;> decide +kernel

theorem axsGood_good : badAxisImage axsGood 4416 false = none := by
  have e : axsGood.drop 64 = axsGoodPay := withHdr_drop _ _ (by decide)
  have c : (crc32c axsGoodPay).toNat = 0xFFFFFFFF := by
    unfold axsGoodPay
    rw [clear_reg _ _ (by decide +kernel)]
    rfl
  unfold badAxisImage
  dsimp only
  rw [e, c, axsGood_values]
  decide +kernel

theorem corrGood_values : (upTo 132354).find? (badCorrVal corrGoodPay) = none := by
  refine find_none _ _ (fun i hi => ?_)
  by_cases h : 2 ≤ i
  · have e : f32At corrGoodPay (4 * i) = 0#32 := f32At_zero _ _ _ (by rw [clearVals_length]; omega)
    unfold badCorrVal
    dsimp only
    rw [e, show f32Good 0#32 = true by decide, show (f32Le codeLo 0#32 && f32Le 0#32 codeHi) = true by decide]
    simp
  · have : i = 0 ∨ i = 1 := by omega
    rcases this with rfl | rfl <;> decide +kernel

theorem corrGood_good (l : List Section) (h : assigned l 0 = true) : badCorrImage l 0 corrGood 529480 false = none := by
  have e : corrGood.drop 64 = corrGoodPay := withHdr_drop _ _ (by decide)
  have n : corrGoodPay.length / 4 = 132354 := by rw [corrGoodPay, zeros_length, clearVals_length]
  have c : (crc32c corrGoodPay).toNat = 0xFFFFFFFF := by
    unfold corrGoodPay
    rw [clear_reg _ _ (by decide +kernel)]
    rfl
  unfold badCorrImage
  dsimp only
  rw [e, c, n, corrGood_values, h]
  decide +kernel

theorem loopGoodPay_length : loopGoodPay.length = 8464 := by
  rw [loopGoodPay, zeros_length, List.length_append, loopLow_length, loopOnes_length]
theorem loopGood_reg : (loopOnes ++ List.replicate 12 0).foldl crc32cByte 0 ^^^ 0xFFFFFFFF = 0x326F53A0 := by decide +kernel
theorem loopLow_reg : loopLow.foldl crc32cByte 0xFFFFFFFF = 0 := by
  unfold loopLow
  rw [List.foldl_append, show (clearVals 0x3C000001 0x177D98E1).foldl crc32cByte 0xFFFFFFFF = 0 by decide +kernel, crc32cBytes_zero]
theorem crc32c_append (p q : List Byte) : crc32c (p ++ q) = BitVec.ofNat 32 (q.foldl crc32cByte (p.foldl crc32cByte 0xFFFFFFFF) ^^^ 0xFFFFFFFF) := by
  unfold crc32c
  rw [List.foldl_append]
theorem loopGood_crc : (crc32c loopGoodPay).toNat = 0x326F53A0 := by
  unfold loopGoodPay
  rw [List.append_assoc, crc32c_append, loopLow_reg, loopGood_reg]
  decide

theorem loopGood_values : badLoopVal 1 loopGoodPay = none := by
  have n : loopGoodPay.length / 4 = 2116 := by rw [loopGoodPay_length]
  have low : ∀ i, 2 ≤ i → i < 1024 → f32At loopGoodPay (4 * i) = 0#32 := by
    intro i h k
    have e : f32At loopGoodPay (4 * i) = f32At loopLow (4 * i) := by
      unfold f32At leAt sliceB loopGoodPay
      have u := loopLow_length
      rw [List.append_assoc, List.drop_append_of_le_length (by omega), List.take_append_of_le_length (by rw [List.length_drop]; omega)]
    rw [e]
    exact f32At_zero _ _ _ (by rw [clearVals_length]; omega)
  have mid : ∀ i, 1024 ≤ i → i < 2113 → f32At loopGoodPay (4 * i) = 0x3F800000#32 := by
    intro i h k
    have e := f32At_words loopLow (leBytes 4 0x3F800000) (List.replicate 12 0) 1089 (i - 1024)
      rfl (by omega)
    rw [loopLow_length, show 4096 + 4 * (i - 1024) = 4 * i by omega] at e
    exact e.trans (by decide)
  have top : ∀ i, 2113 ≤ i → f32At loopGoodPay (4 * i) = 0#32 := by
    intro i h
    refine f32At_zero _ _ _ ?_
    rw [List.length_append, loopLow_length, loopOnes_length]
    omega
  unfold badLoopVal
  rw [n, find_none]
  · rfl
  · intro i hi
    rw [if_pos (by decide)]
    by_cases a : i < 1024
    · by_cases b : 2 ≤ i
      · unfold badPortVal
        dsimp only
        rw [if_pos a, low i b a]
        have r : f32In (gainRange (i % 8)).1 (gainRange (i % 8)).2 0#32 = true := by
          have : ∀ j, j < 8 → f32In (gainRange j).1 (gainRange j).2 0#32 = true := by decide
          exact this _ (Nat.mod_lt _ (by decide))
        rw [r]
        by_cases q : i % 8 = 3
        · rw [show 4 * i - 4 = 4 * (i - 1) by omega, low (i - 1) (by omega) (by omega)]
          simp
          intro _
          decide
        · simp [q]
      · have : i = 0 ∨ i = 1 := by omega
        rcases this with rfl | rfl <;> decide +kernel
    · unfold badPortVal
      dsimp only
      rw [if_neg a]
      by_cases b : i < 2113
      · rw [if_pos b, mid i (by omega) b]; decide
      · rw [if_neg b, top i (by omega)]; decide

theorem loopGood_good (l : List Section) (h : assigned l 0 = true) : badLoopImage l loopGood 8528 false = none := by
  have e : loopGood.drop 64 = loopGoodPay := withHdr_drop _ _ (by decide)
  have k : byteAt loopGood 6 = 1 := by decide +kernel
  have p : byteAt loopGood 7 = 0 := by decide +kernel
  unfold badLoopImage
  dsimp only
  rw [e, k, p, loopGood_crc, loopGood_values, h]
  decide +kernel

/-- Images that pass their checks: a correction of port 0, tables of port 0, and a table of axis 2, which moves or not. -/
theorem wit_TableImages_accepted :
    (let s := wHolds corrGood []
     let r := s.imageRead 0 (min (529480 : Word).toNat (64 + corrPayLen))
     s.dev.sys.sup ≠ .halted ∧ aligned16 0 = true ∧ s.dev.rigged = true ∧ s.dev.mayRun .load 0x40 7 = true ∧
       s.dev.get F.BED_STAT_PHASE = 0 ∧ badCorrImage (r.1.dev.sections false) 0 r.2.1 (529480 : Word).toNat (!r.2.2) = none) ∧
    (let s := wHolds loopGood []
     let r := s.imageRead 0 (min (8528 : Word).toNat 65600)
     s.dev.sys.sup ≠ .halted ∧ aligned16 0 = true ∧ s.dev.rigged = true ∧ s.dev.mayRun .load 0x41 7 = true ∧ byteAt r.2.1 6 = 1 ∧
       byteAt r.2.1 7 = 0 ∧ (r.1.dev.loopOfPort 0).pend = none ∧ badLoopImage (r.1.dev.sections false) r.2.1 (8528 : Word).toNat (!r.2.2) = none ∧
       r.1.dev.runOf 0 = none) ∧
    (∀ st, st = 1 ∨ st = 2 → let s := wHolds axsGood [(F.AXSa_STAT_STATE 2, st)]
     let r := s.imageRead 0 (min (4416 : Word).toNat 4416)
     s.dev.sys.sup ≠ .halted ∧ aligned16 0 = true ∧ s.dev.rigged = true ∧ s.dev.mayRun .load 0x42 7 = true ∧
       badAxisImage r.2.1 (4416 : Word).toNat (!r.2.2) = none ∧ byteAt r.2.1 6 = 2 ∧ r.1.dev.get (F.AXSa_STAT_STATE 2) = st) := by
  refine ⟨?_, ?_, ?_⟩
  · have e := wHolds_read corrGood [] 529480 (by rw [corrGood, withHdr, List.length_append, corrGoodPay, zeros_length]; rfl) (by decide +kernel)
    have a : assigned (((wHolds corrGood []).onDev (fun d => d.touch (d.serving 0))).dev.sections false) 0 = true := by decide +kernel
    rw [show min (529480 : Word).toNat (64 + corrPayLen) = 529480 by decide]
    dsimp only
    rw [e]
    exact ⟨by decide +kernel, by decide, by decide +kernel, by decide +kernel, by decide +kernel, corrGood_good _ a⟩
  · have e := wHolds_read loopGood [] 8528 (by rw [loopGood, withHdr, List.length_append, loopGoodPay_length]; rfl) (by decide +kernel)
    have a : assigned (((wHolds loopGood []).onDev (fun d => d.touch (d.serving 0))).dev.sections false) 0 = true := by decide +kernel
    rw [show min (8528 : Word).toNat 65600 = 8528 by decide]
    dsimp only
    rw [e]
    exact ⟨by decide +kernel, by decide, by decide +kernel, by decide +kernel, by decide +kernel, by decide +kernel, by decide +kernel,
      loopGood_good _ a, by decide +kernel⟩
  · intro st hst
    have e := wHolds_read axsGood [(F.AXSa_STAT_STATE 2, st)] 4416 (by rw [axsGood, withHdr, List.length_append, axsGoodPay, zeros_length]; rfl)
      (by rcases hst with rfl | rfl <;> decide +kernel)
    rw [show min (4416 : Word).toNat 4416 = 4416 by decide]
    dsimp only
    rw [e]
    have g : badAxisImage axsGood (4416 : Word).toNat (!true) = none := axsGood_good
    rw [g]
    rcases hst with rfl | rfl <;> decide +kernel

/-- DRAM holds the full image at address 0, and nothing else. -/
def wFull : State := { wImgAt [] State.reset with mem := ({ cells := [], poison := [] } : Dram).writeBytes 0 rigFull }
theorem wFull_stage : wFull.stage 0 640 = (wFull.onDev (fun d => d.touch (d.serving 0)), rigFull) := by
  have e : wFull.mem.readBytes 0 640 = rigFull := by
    rw [show 640 = rigFull.length by decide +kernel]
    exact Dram.readBytes_writeBytes _ 0 rigFull
  have b : badRead wFull.dev wFull.mem 0 640 = false := by
    have k : badRead wFull.dev { cells := [], poison := [] } 0 640 = false := by decide +kernel
    exact k
  have r : wFull.imageRead 0 640 = (wFull.onDev (fun d => d.touch (d.serving 0)), rigFull, true) := by
    rw [State.imageRead_good _ _ _ b, e]
  unfold State.stage
  rw [show (0 : DWord).toNat = 0 by decide, show min (640 : Word).toNat 4194304 = 640 by decide, r]
  rfl

/-- A full image in DRAM that passes its check: RIG_LOAD and RIG_PROGRAM take it. -/
theorem wit_RiggingImages_accepted :
    wFull.dev.mayRun Lane.load 0x10 7 = true ∧ wFull.dev.mayRun Lane.flash 0x13 7 = true ∧ wFull.dev.sys.sup ≠ SupState.halted ∧
      aligned16 0 = true ∧ wFull.dev.rigRunning = false ∧ wFull.dev.rigBusy .load = false ∧ wFull.dev.rigBusy .flash = false ∧
      rigValidate wFull.dev.variant.ports 0 (wFull.stage 0 640).1.dev.rig.live (wFull.stage 0 640).2 =
        .ok (okOf (rigValidate 32 0 [] rigFull)) := by
  refine ⟨by decide +kernel, by decide +kernel, by decide +kernel, by decide +kernel, by decide +kernel, by decide +kernel, by decide +kernel, ?_⟩
  rw [wFull_stage]
  exact eqOkOf (x := rigValidate 32 0 [] rigFull) (by decide +kernel)

/-- A cover, port 1, for the tiles of port 0, with the same square field. -/
def secsCover : List Section := secs0 ++ [sect 0x21 0 (1#8 :: List.replicate 15 0#8 ++ [0xFF#8, 1#8, 0#8, 0#8]),
  sect 0x20 1 (leBytes 16 4 ++ leBytes 4 0xFFFF0000 ++ leBytes 4 0xFFFF0000 ++ leBytes 4 0x10000 ++ leBytes 4 0xFFFF0000 ++
    leBytes 4 0x10000 ++ leBytes 4 0x10000 ++ leBytes 4 0xFFFF0000 ++ leBytes 4 0x10000)]
/-- A tile that is not pre-scanned, with its covers. -/
def wFresh (cs : List (Nat × Nat)) : TileSt := tile0 (fun t => { t with scanned := false, paths := [], rcd := { t.rcd with covers := cs } })
/-- A bed of that tile, which is not yet exposed. -/
def wScan (cs : List (Nat × Nat)) : State :=
  let s := (wExp [(0, wFresh cs)]).onDev (fun d => { d with
    rig := { d.rig with live := secsCover }
    bar := { d.bar with beds := d.bar.beds.map (fun y => (y.1, { y.2 with scanned := false })) } })
  withRegs [(F.BED_BUFn_STAT_STATE 2, 3)] s

/-- The path of a tile with a cover, which is coverable, and of one without, which is not. -/
theorem wit_PrescanDealAndPairedStart_tile : ∀ cs : List (Nat × Nat), cs = [] ∨ cs = [(0xFF, 1)] →
    (wScan cs).dev.bar.beds = [(2, { bed1 [(0, wFresh cs)] with scanned := false })] ∧ (wFresh cs).scanned = false ∧
      (wFresh cs).rcd.lead < 32 ∧ (wScan cs).dev.get (F.BED_BUFn_STAT_STATE 2) ≠ 4 ∧ (wScan cs).mem.poison = [] ∧
      (∀ c ∈ (wFresh cs).rcd.named, coverListed ((wScan cs).dev.scanSections 2) (wFresh cs).rcd.lead c = true) := by
  rintro l (rfl | rfl) <;> decide +kernel

end Sys2Proof.Tests
end

/-! # Host accesses (00_scope.md R11; 03_bed_data.md R86; 12_memory.md R321, R334; 16_host_startup.md R395)

A write through BAR2 is a fold over the parts of the write. Every part carries the bytes of the write at its own places, and handling a part
changes no address map and no buffer that takes writes (`Dev.WriteKeeps`), so each byte of the write can be followed through the fold alone. -/

namespace Sys2Proof.Machine

open Sys2Proof.Safety

/-! ## Folds -/

/-- What one element of a list brings about, and the other elements keep, holds after the fold; `I` is the invariant under which they do so. -/
theorem foldl_reaches {σ α : Type} (f : σ → α → σ) {I P : σ → Prop} (l : List α) (hI : ∀ s, ∀ x ∈ l, I s → I (f s x))
    (hP : ∀ s, ∀ x ∈ l, I s → P s → P (f s x)) (hx : ∃ x ∈ l, ∀ s, I s → P (f s x)) {s : σ} (h : I s) : P (l.foldl f s) := by
  induction l generalizing s with
  | nil => simp at hx
  | cons x l ih =>
    rw [List.foldl_cons]
    have hi := hI s x (List.mem_cons_self ..) h
    have hI' := fun s y hy => hI s y (List.mem_cons_of_mem x hy)
    have hP' := fun s y hy => hP s y (List.mem_cons_of_mem x hy)
    obtain ⟨y, hy, hr⟩ := hx
    rcases List.mem_cons.mp hy with rfl | hy
    · exact (List.foldlRecOn (motive := fun s => I s ∧ P s) l f ⟨hi, hr s h⟩
        (fun s hs z hz => ⟨hI' s z hz hs.1, hP' s z hz hs.1 hs.2⟩)).2
    · exact ih hI' hP' ⟨y, hy, hr⟩ hi

/-! ## The parts of a write -/

/-- Address k lies in the part. -/
def covers (k : Nat) (x : Nat × List Byte) : Prop := x.1 ≤ k ∧ k < x.1 + x.2.length

/-- The part has byte v for address k, if it has one. -/
def carries (k : Nat) (v : Byte) (x : Nat × List Byte) : Prop := covers k x → x.2.getD (k - x.1) 0 = v

/-- Address c lies inside the part and is not its first. -/
def splits (c : Nat) (x : Nat × List Byte) : Prop := x.1 < c ∧ c < x.1 + x.2.length

theorem carries_self (k : Nat) (x : Nat × List Byte) : carries k (x.2.getD (k - x.1) 0) x := fun _ => rfl

/-- The pieces into which an address cuts a part that it splits. -/
theorem cutAt_of_splits {c : Nat} {x : Nat × List Byte} (h : splits c x) :
    cutAt c x = [(x.1, x.2.take (c - x.1)), (c, x.2.drop (c - x.1))] := by
  simp only [cutAt, decide_eq_true h.1, decide_eq_true h.2, Bool.and_self, if_true]

/-- An address that does not split a part leaves it whole. -/
theorem cutAt_of_not_splits {c : Nat} {x : Nat × List Byte} (h : ¬ splits c x) : cutAt c x = [x] := by
  unfold cutAt
  rw [if_neg]
  simpa [splits] using h

theorem cutAt_carries {c k : Nat} {v : Byte} {x : Nat × List Byte} (hx : carries k v x) : ∀ y ∈ cutAt c x, carries k v y := by
  intro y hy hk
  by_cases hc : splits c x
  · rw [cutAt_of_splits hc] at hy
    obtain ⟨h1, h2⟩ := hc
    simp only [List.mem_cons, List.not_mem_nil, or_false] at hy
    unfold carries covers at hx
    unfold covers at hk
    obtain rfl | rfl := hy
    · simp only [List.length_take] at hk
      rw [← hx (by omega), List.getD_eq_getElem?_getD, List.getD_eq_getElem?_getD, List.getElem?_take_of_lt (by omega)]
    · simp only [List.length_drop] at hk
      rw [← hx (by omega), List.getD_eq_getElem?_getD, List.getD_eq_getElem?_getD, List.getElem?_drop]
      congr 2
      omega
  · rw [cutAt_of_not_splits hc, List.mem_singleton] at hy
    subst hy
    exact hx hk

/-- Each address of a part lies in a piece of it that the cut no longer splits. -/
theorem cutAt_covers {c k : Nat} {x : Nat × List Byte} (hk : covers k x) : ∃ y ∈ cutAt c x, covers k y ∧ ¬ splits c y := by
  by_cases hc : splits c x
  · rw [cutAt_of_splits hc]
    unfold splits at hc
    unfold covers at hk
    by_cases h : k < c
    · exact ⟨_, List.mem_cons_self .., by simp [covers]; omega, by simp [splits]; omega⟩
    · exact ⟨_, List.mem_cons_of_mem _ (List.mem_cons_self ..), by simp [covers]; omega, by simp [splits]⟩
  · exact ⟨x, by simp [cutAt_of_not_splits hc], hk, hc⟩

theorem not_splits_of_within {c : Nat} {x y : Nat × List Byte} (hy : x.1 ≤ y.1 ∧ y.1 + y.2.length ≤ x.1 + x.2.length) (h : ¬ splits c x) :
    ¬ splits c y := by
  unfold splits at *
  omega

/-- Every part of a cut write carries what the write carries. -/
theorem cutAll_carries {cs : List Nat} {k : Nat} {v : Byte} {x : Nat × List Byte} (hx : carries k v x) :
    ∀ y ∈ cutAll cs x, carries k v y := by
  refine List.foldlRecOn (motive := fun l => ∀ y ∈ l, carries k v y) cs _ (by simpa using hx) (fun l hl c _ y hy => ?_)
  obtain ⟨z, hz, hy⟩ := List.mem_flatMap.mp hy
  exact cutAt_carries (hl z hz) y hy

/-- Each address of a write lies in a part of it that no cut splits. -/
theorem cutAll_covers {cs : List Nat} {k : Nat} {x : Nat × List Byte} (hk : covers k x) :
    ∃ y ∈ cutAll cs x, covers k y ∧ ∀ c ∈ cs, ¬ splits c y := by
  have key : ∀ (cs : List Nat) (l : List (Nat × List Byte)) (z : Nat × List Byte), z ∈ l → covers k z →
      ∃ y ∈ cs.foldl (fun l c => l.flatMap (cutAt c)) l,
        (z.1 ≤ y.1 ∧ y.1 + y.2.length ≤ z.1 + z.2.length) ∧ covers k y ∧ ∀ c ∈ cs, ¬ splits c y := by
    intro cs
    induction cs with
    | nil => exact fun l z hz hk => ⟨z, hz, ⟨le_refl _, le_refl _⟩, hk, by simp⟩
    | cons c cs ih =>
      intro l z hz hk
      obtain ⟨w, hw, hkw, hcw⟩ := cutAt_covers (c := c) hk
      obtain ⟨y, hy, hyw, hky, hcy⟩ := ih (l.flatMap (cutAt c)) w (List.mem_flatMap.mpr ⟨z, hz, hw⟩) hkw
      have hwz := cutAt_within hw
      exact ⟨y, hy, by omega, hky, List.forall_mem_cons.mpr ⟨not_splits_of_within hyw hcw, hcy⟩⟩
  obtain ⟨y, hy, _, hky, hcy⟩ := key cs [x] x (List.mem_singleton_self x) hk
  exact ⟨y, hy, hky, hcy⟩

/-- A write that no cut splits is its own only part. -/
theorem cutAll_of_not_splits {cs : List Nat} {x : Nat × List Byte} (h : ∀ c ∈ cs, ¬ splits c x) : cutAll cs x = [x] :=
  List.foldlRecOn (motive := fun l => l = [x]) cs _ rfl (fun l hl c hc => by
    rw [hl, List.flatMap_singleton, cutAt_of_not_splits (h c hc)])

/-! ## Buffers that refuse a write (R86) -/

/-- First device address of the range that buffer k is placed at (R83). -/
def Dev.bufLo (d : Dev) (k : Nat) : Nat := d.get (F.BED_BUFn_BASE_BASE k) * 4096

/-- First device address behind the range that buffer k is placed at (R83). -/
def Dev.bufHi (d : Dev) (k : Nat) : Nat := d.bufLo k + d.get (F.BED_BUFn_SIZE_SIZE k) * 4096

/-- Buffer k refuses a write of source src and its range meets the n bytes from a. -/
abbrev Dev.Refuses (d : Dev) (src k a n : Nat) : Prop :=
  a < d.bufHi k ∧ d.bufLo k < a + n ∧ d.bufLo k < d.bufHi k ∧ d.bufTakes src k = false

theorem Dev.lockedBuf_eq_find (d : Dev) (src a n : Nat) :
    d.lockedBuf src a n = (upTo 16).find? (fun k => decide (d.Refuses src k a n)) := by
  refine List.find?_congr (fun k _ => ?_)
  rw [Bool.eq_iff_iff, decide_eq_true_iff]
  simp only [Dev.Refuses, Dev.bufHi, Dev.bufLo, Bool.and_eq_true, Bool.not_eq_true', decide_eq_true_eq, and_assoc]

/-- `lockedBuf` finds the lowest buffer that refuses the write. -/
theorem Dev.lockedBuf_eq_some {d : Dev} {src a n k : Nat} :
    d.lockedBuf src a n = some k ↔ d.Refuses src k a n ∧ k < 16 ∧ ∀ j < k, ¬ d.Refuses src j a n := by
  rw [Dev.lockedBuf_eq_find, List.find?_range_eq_some]
  simp only [decide_eq_true_eq, List.mem_range, Bool.not_eq_true', decide_eq_false_iff_not]

/-- `lockedBuf` finds nothing where no buffer refuses the write. -/
theorem Dev.lockedBuf_eq_none {d : Dev} {src a n : Nat} : d.lockedBuf src a n = none ↔ ∀ k < 16, ¬ d.Refuses src k a n := by
  rw [Dev.lockedBuf_eq_find, List.find?_range_eq_none]
  simp only [Bool.not_eq_true', decide_eq_false_iff_not]

/-- A buffer that refuses a write refuses every write that reaches further. -/
theorem Dev.Refuses.mono {d : Dev} {src k a b m n : Nat} (h : d.Refuses src k b m) (hab : a ≤ b) (hn : b + m ≤ a + n) :
    d.Refuses src k a n := by
  obtain ⟨h1, h2, h3, h4⟩ := h
  exact ⟨by omega, by omega, h3, h4⟩

/-- A buffer that refuses a part, and whose ends do not split it, refuses every byte of the part. -/
theorem Dev.Refuses.byte {d : Dev} {src k i : Nat} {y : Nat × List Byte} (h : d.Refuses src k y.1 y.2.length) (hi : covers i y)
    (hlo : ¬ splits (d.bufLo k) y) (hhi : ¬ splits (d.bufHi k) y) : d.Refuses src k i 1 := by
  obtain ⟨h1, h2, h3, h4⟩ := h
  unfold covers at hi
  unfold splits at hlo hhi
  exact ⟨by omega, by omega, h3, h4⟩

/-- The ends of a buffer are among the places where a write is cut. -/
theorem Dev.mem_bufEdges (d : Dev) {k : Nat} (hk : k < 16) : d.bufLo k ∈ d.bufEdges ∧ d.bufHi k ∈ d.bufEdges := by
  constructor <;> refine List.mem_flatMap.mpr ⟨k, List.mem_range.mpr hk, ?_⟩
  · simp [Dev.bufLo]
  · simp [Dev.bufHi, Dev.bufLo, Nat.add_mul]

/-- Buffers lie on pages, so the end of one splits no write within a page. -/
theorem Dev.bufEdges_not_splits {d : Dev} {x : Nat × List Byte} (h : x.1 % 4096 + x.2.length ≤ 4096) : ∀ c ∈ d.bufEdges, ¬ splits c x := by
  intro c hc
  obtain ⟨k, _, hk⟩ := List.mem_flatMap.mp hc
  simp only [List.mem_cons, List.not_mem_nil, or_false] at hk
  unfold splits
  omega

/-- BAR2 has no writes queued before a seal: a buffer takes its writes while it is writable, and only then (R86). -/
theorem Dev.bufTakes_bar2 (d : Dev) (k : Nat) : d.bufTakes 0x44 k = d.bufWritable k := by
  have h : decide ((0x44 : Nat) ≤ 0x43) = false := by decide
  simp only [Dev.bufTakes, h, Bool.and_false, Bool.false_and, Bool.or_false]

/-! ## What a write through BAR2 keeps -/

/-- The register fields that place the buffers, say which of them take writes, and lay out the address space (R83, R86, R321). -/
def mapFlds : List Fld :=
  [F.DDR_STAT_MIRROR, F.DDR_MIRROR_SIZE, F.DDR_CHc_STAT_CAP 0, F.DDR_CHc_STAT_CAP 1] ++
  (upTo 16).flatMap (fun k => [F.BED_BUFn_BASE_BASE k, F.BED_BUFn_SIZE_SIZE k, F.BED_BUFn_STAT_STATE k, F.BED_BUFn_STAT_SEALING k])

/-- The map of device addresses stands, each DRAM channel is LOST where it was, and DROPPED of each buffer stays 1 where it was. -/
structure Dev.WriteKeeps (d d' : Dev) : Prop where
  map : ∀ G ∈ mapFlds, d'.get G = d.get G
  lost : ∀ c < 2, d'.chLost c = d.chLost c
  dropped : ∀ k < 16, d.get (F.BED_BUFn_STAT_DROPPED k) = 1 → d'.get (F.BED_BUFn_STAT_DROPPED k) = 1

theorem Dev.WriteKeeps.refl (d : Dev) : d.WriteKeeps d := ⟨fun _ _ => rfl, fun _ _ => rfl, fun _ _ h => h⟩

theorem Dev.WriteKeeps.trans {a b c : Dev} (h : a.WriteKeeps b) (k : b.WriteKeeps c) : a.WriteKeeps c :=
  ⟨fun G hG => (k.map G hG).trans (h.map G hG), fun i hi => (k.lost i hi).trans (h.lost i hi),
   fun i hi q => k.dropped i hi (h.dropped i hi q)⟩

/-- Every field of which a write keeps something. -/
def keptFlds : List Fld :=
  mapFlds ++ [F.DDR_CHc_STAT_STATE 0, F.DDR_CHc_STAT_STATE 1] ++ (upTo 16).map F.BED_BUFn_STAT_DROPPED

theorem mem_mapFlds_buf {k : Nat} (hk : k < 16) {G : Fld}
    (h : G ∈ [F.BED_BUFn_BASE_BASE k, F.BED_BUFn_SIZE_SIZE k, F.BED_BUFn_STAT_STATE k, F.BED_BUFn_STAT_SEALING k]) : G ∈ mapFlds :=
  List.mem_append_right _ (List.mem_flatMap.mpr ⟨k, List.mem_range.mpr hk, h⟩)

/-- A device whose kept fields read as before keeps what a write keeps. -/
theorem Dev.WriteKeeps.of_get {d d' : Dev} (h : ∀ G ∈ keptFlds, d'.get G = d.get G) : d.WriteKeeps d' where
  map G hG := h G (by simp [keptFlds, hG])
  lost c hc := by
    unfold Dev.chLost
    rw [h]
    interval_cases c <;> simp [keptFlds]
  dropped k hk q := by
    rw [h _ (by simp only [keptFlds, List.mem_append, List.mem_map]; exact Or.inr ⟨k, List.mem_range.mpr hk, rfl⟩), q]

theorem Dev.WriteKeeps.of_regs {d d' : Dev} (h : d'.regs = d.regs) : d.WriteKeeps d' := .of_get (fun G _ => Dev.get_congr G h)

/-- Setting a field at a place of its own keeps what a write keeps. -/
theorem Dev.WriteKeeps.put (d : Dev) (F : Fld) (v : Nat) (h : F.key ∉ keptFlds.map Fld.key) : d.WriteKeeps (d.put F v) :=
  .of_get (fun G hG => Dev.get_put_ne d F G v (fun q => h (q ▸ List.mem_map_of_mem hG)))

/-- Recording an event keeps what a write keeps. -/
theorem Dev.WriteKeeps.raise (d : Dev) (code src sev p1 p2 p3 : Nat) : d.WriteKeeps (d.raise code src sev p1 p2 p3) := by
  have disj : ∀ k ∈ keptFlds.map Fld.key, k ∉ recFlds.map Fld.key := by decide
  exact .of_get (fun G hG => Dev.get_raise d code src sev p1 p2 p3 G (disj _ (List.mem_map_of_mem hG)))

/-! ## The address map of a device that keeps it -/

section
variable {d d' : Dev} (h : d.WriteKeeps d')
include h

theorem Dev.WriteKeeps.mirrorFlag : d'.flag F.DDR_STAT_MIRROR = d.flag F.DDR_STAT_MIRROR := by
  rw [Dev.flag_eq, Dev.flag_eq, h.map F.DDR_STAT_MIRROR (by decide)]

theorem Dev.WriteKeeps.mirrorBytes : d'.mirrorBytes = d.mirrorBytes := by
  unfold Dev.mirrorBytes
  rw [h.mirrorFlag, h.map F.DDR_MIRROR_SIZE (by decide)]

theorem Dev.WriteKeeps.chanBytes : d'.chanBytes = d.chanBytes := by
  simp only [Dev.chanBytes, h.map (F.DDR_CHc_STAT_CAP 0) (by decide), h.map (F.DDR_CHc_STAT_CAP 1) (by decide)]

theorem Dev.WriteKeeps.beyond (a n : Nat) : d'.beyond a n = d.beyond a n := by
  unfold Dev.beyond Dev.addrSpace
  rw [h.mirrorFlag, h.map F.DDR_MIRROR_SIZE (by decide), h.map (F.DDR_CHc_STAT_CAP 0) (by decide),
    h.map (F.DDR_CHc_STAT_CAP 1) (by decide)]

theorem Dev.WriteKeeps.gone (a : Nat) : d'.gone a = d.gone a := by
  have h0 := h.lost 0 (by decide)
  have h1 := h.lost 1 (by decide)
  unfold Dev.gone Dev.homes
  rw [h.mirrorBytes, h.chanBytes]
  split
  · simp [h0, h1]
  · split <;> simp [h0, h1]

theorem Dev.WriteKeeps.refuses (k : Nat) (hk : k < 16) (a n : Nat) : d'.Refuses 0x44 k a n ↔ d.Refuses 0x44 k a n := by
  have hb := h.map _ (mem_mapFlds_buf hk (by simp : F.BED_BUFn_BASE_BASE k ∈ _))
  have hz := h.map _ (mem_mapFlds_buf hk (by simp : F.BED_BUFn_SIZE_SIZE k ∈ _))
  have hs := h.map _ (mem_mapFlds_buf hk (by simp : F.BED_BUFn_STAT_STATE k ∈ _))
  have hl := h.map _ (mem_mapFlds_buf hk (by simp : F.BED_BUFn_STAT_SEALING k ∈ _))
  simp only [Dev.Refuses, Dev.bufHi, Dev.bufLo, Dev.bufTakes_bar2, Dev.bufWritable, Dev.flag_eq, hb, hz, hs, hl]

theorem Dev.WriteKeeps.lockedBuf (a n : Nat) : d'.lockedBuf 0x44 a n = d.lockedBuf 0x44 a n := by
  rw [Dev.lockedBuf_eq_find, Dev.lockedBuf_eq_find]
  exact List.find?_congr (fun k hk => decide_eq_decide.mpr (h.refuses k (List.mem_range.mp hk) a n))

end

/-! ## What the operations of a write do to the device -/

theorem Dev.mem_homes_lt {d : Dev} {a c : Nat} (h : c ∈ d.homes a) : c < 2 := by
  unfold Dev.homes at h
  split at h
  · simp at h; omega
  · split at h <;> simp at h <;> omega

theorem Dev.serving_lt (d : Dev) (a : Nat) : d.serving a < 2 := by
  unfold Dev.serving
  split
  case h_1 c hc => exact Dev.mem_homes_lt (hc ▸ List.mem_singleton_self c)
  case h_2 =>
    dsimp only
    split
    case h_1 n _ =>
      have hn : n % 2 < 2 := Nat.mod_lt n Nat.two_pos
      split
      · exact Nat.lt_of_le_of_lt (Nat.sub_le ..) Nat.one_lt_two
      · exact hn
    case h_2 => split <;> decide

theorem Dev.srRetrain_keeps (d : Dev) {c : Nat} (hc : c < 2) : d.WriteKeeps (d.srRetrain c) := by
  have hk : (F.DDR_CHc_RT_STEPS_COUNT c).key ∉ keptFlds.map Fld.key := by interval_cases c <;> decide
  unfold Dev.srRetrain
  split
  · exact .refl d
  · have hf : d.WriteKeeps d.free.2 := .of_regs rfl
    have hp : d.free.2.WriteKeeps (d.free.2.bump (F.DDR_CHc_RT_STEPS_COUNT c) (3 + d.free.1)) := .put _ _ _ hk
    exact hf.trans (hp.trans (.of_regs rfl))

/-- A channel that is not LOST may leave self-refresh. -/
theorem Dev.WriteKeeps.wake {d : Dev} {c : Nat} (hc : c < 2) (h : d.chLost c = false) :
    d.WriteKeeps (d.put (F.DDR_CHc_STAT_STATE c) 2) where
  map G hG := by
    have disj : ∀ G ∈ mapFlds, (F.DDR_CHc_STAT_STATE c).key ≠ G.key := by interval_cases c <;> decide
    exact Dev.get_put_ne d _ _ _ (disj G hG)
  lost i hi := by
    by_cases e : c = i
    · subst e
      rw [h, Dev.chLost, Dev.get_put_self]
      rfl
    · have hne : (F.DDR_CHc_STAT_STATE c).key ≠ (F.DDR_CHc_STAT_STATE i).key := by
        simp only [F.DDR_CHc_STAT_STATE, Fld.key]; omega
      rw [Dev.chLost, Dev.chLost, Dev.get_put_ne d _ _ _ hne]
  dropped k hk q := by
    have hne : (F.DDR_CHc_STAT_STATE c).key ≠ (F.BED_BUFn_STAT_DROPPED k).key := by
      simp only [F.DDR_CHc_STAT_STATE, F.BED_BUFn_STAT_DROPPED, Fld.key]; omega
    rw [Dev.get_put_ne d _ _ _ hne, q]

theorem Dev.leaveSr_keeps (d : Dev) {c : Nat} (hc : c < 2) : d.WriteKeeps (d.leaveSr c) := by
  have wakes : ∀ d1 : Dev, d.get (F.DDR_CHc_STAT_STATE c) = 4 → d.WriteKeeps d1 → d.WriteKeeps (d1.put (F.DDR_CHc_STAT_STATE c) 2) :=
    fun d1 h4 h1 => h1.trans (.wake hc (by rw [h1.lost c hc, Dev.chLost, h4]; rfl))
  unfold Dev.leaveSr
  split
  case isFalse => exact .refl d
  case isTrue h4 =>
    refine (wakes _ (by simpa using h4) ?_).trans (.of_regs rfl)
    split
    · split
      · exact d.srRetrain_keeps hc
      · exact .refl d
    · exact .refl d

theorem Dev.touch_keeps (d : Dev) {c : Nat} (hc : c < 2) : d.WriteKeeps (d.touch c) :=
  (d.leaveSr_keeps hc).trans (.of_regs rfl)

theorem Dev.touchAll_keeps (d : Dev) (a : Nat) : d.WriteKeeps (d.touchAll a) :=
  List.foldlRecOn (motive := d.WriteKeeps) (d.homes a) _ (.refl d) (fun b hb _ hc => hb.trans (b.touch_keeps (Dev.mem_homes_lt hc)))

/-- The write dropped at a LOST channel is counted (R334). -/
theorem Dev.dropWrite_keeps (d : Dev) (src a : Nat) : d.WriteKeeps (d.dropWrite src a) := by
  have hk : ∀ c < 2, (F.DDR_CHc_LOST_WR_COUNT c).key ∉ keptFlds.map Fld.key := by decide
  have hp : d.WriteKeeps (d.bump (F.DDR_CHc_LOST_WR_COUNT (d.serving a))) := .put d _ _ (hk _ (d.serving_lt a))
  unfold Dev.dropWrite
  dsimp only
  split
  · exact hp.trans (.of_regs rfl)
  · exact hp

/-- The registers of buffer n that a dropped write changes, once the event is recorded (R86). -/
theorem Dev.dropBufWrite_get (d : Dev) (src a : Nat) {n : Nat} (hn : n < 16) :
    (d.dropBufWrite src n a).get (F.BED_BUFn_STAT_DROPPED n) = 1 ∧
    (d.dropBufWrite src n a).get (F.BED_BUFn_DROPS_COUNT n) = min (d.get (F.BED_BUFn_DROPS_COUNT n) + 1) 0xFFFFFFFF := by
  have hk : ∀ n < 16, (F.BED_BUFn_STAT_DROPPED n).key ∉ recFlds.map Fld.key ∧ (F.BED_BUFn_DROPS_COUNT n).key ∉ recFlds.map Fld.key ∧
      (F.BED_BUFn_STAT_DROPPED n).key ≠ (F.BED_BUFn_DROPS_COUNT n).key := by decide
  obtain ⟨h1, h2, h3⟩ := hk n hn
  unfold Dev.dropBufWrite
  rw [Dev.get_raise _ _ _ _ _ _ _ _ h1, Dev.get_raise _ _ _ _ _ _ _ _ h2, Dev.bump_eq, Dev.setFlag_eq, Dev.get_put_self,
    Dev.get_put_ne _ _ _ _ h3.symm, Dev.get_put_ne _ _ _ _ h3, Dev.get_put_self]
  have hw : (F.BED_BUFn_DROPS_COUNT n).width = 32 := rfl
  exact ⟨rfl, by rw [hw]; omega⟩

/-- A buffer may show a dropped write. -/
theorem Dev.WriteKeeps.drop (d : Dev) {n : Nat} (hn : n < 16) : d.WriteKeeps (d.put (F.BED_BUFn_STAT_DROPPED n) 1) where
  map G hG := by
    have disj : ∀ n < 16, ∀ G ∈ mapFlds, (F.BED_BUFn_STAT_DROPPED n).key ≠ G.key := by decide
    exact Dev.get_put_ne d _ _ _ (disj n hn G hG)
  lost c hc := by
    have hne : (F.BED_BUFn_STAT_DROPPED n).key ≠ (F.DDR_CHc_STAT_STATE c).key := by
      simp only [F.DDR_CHc_STAT_STATE, F.BED_BUFn_STAT_DROPPED, Fld.key]; omega
    rw [Dev.chLost, Dev.chLost, Dev.get_put_ne d _ _ _ hne]
  dropped k hk q := by
    by_cases e : n = k
    · subst e
      exact Dev.get_put_self ..
    · have hne : (F.BED_BUFn_STAT_DROPPED n).key ≠ (F.BED_BUFn_STAT_DROPPED k).key := by
        simp only [F.BED_BUFn_STAT_DROPPED, Fld.key]; omega
      rw [Dev.get_put_ne d _ _ _ hne, q]

theorem Dev.dropBufWrite_keeps (d : Dev) (src a : Nat) {n : Nat} (hn : n < 16) : d.WriteKeeps (d.dropBufWrite src n a) := by
  have hk : ∀ n < 16, (F.BED_BUFn_DROPS_COUNT n).key ∉ keptFlds.map Fld.key := by decide
  exact (Dev.WriteKeeps.drop d hn).trans ((Dev.WriteKeeps.put _ _ _ (hk n hn)).trans (.raise ..))

/-! ## DRAM under the parts of a write -/

/-- Bytes written from an address leave a byte at the value that they carry for it. -/
theorem Dram.writeBytes_keepsByte {m : Dram} {k : Nat} {v : Byte} {x : Nat × List Byte} (hx : carries k v x) (hv : m.read k = v) :
    (m.writeBytes x.1 x.2).read k = v := by
  rw [Dram.writeBytes_read]
  split
  case isTrue hk => exact hx hk
  case isFalse => exact hv

/-- A byte that a write covers reads as what the write carries for it. -/
theorem Dram.writeBytes_lands {m : Dram} {k : Nat} {v : Byte} {x : Nat × List Byte} (hx : carries k v x) (hk : covers k x) :
    (m.writeBytes x.1 x.2).read k = v := by
  rw [Dram.writeBytes_read, if_pos (by exact hk)]
  exact hx hk

theorem State.writePart_keeps (src : Nat) (s : State) (x : Nat × List Byte) : s.dev.WriteKeeps (State.writePart src s x).dev := by
  unfold State.writePart
  split
  · exact s.dev.dropWrite_keeps src x.1
  · exact s.dev.touchAll_keeps x.1

theorem State.writePart_keepsByte {src k : Nat} {v : Byte} {s : State} {x : Nat × List Byte} (hx : carries k v x)
    (hv : s.mem.read k = v) : (State.writePart src s x).mem.read k = v := by
  unfold State.writePart
  split
  · exact hv
  · exact Dram.writeBytes_keepsByte hx hv

theorem State.writePart_lands {src k : Nat} {v : Byte} {s : State} {x : Nat × List Byte} (hx : carries k v x) (hk : covers k x)
    (hg : s.dev.gone x.1 = false) : (State.writePart src s x).mem.read k = v := by
  unfold State.writePart
  rw [if_neg (by simp [hg])]
  exact Dram.writeBytes_lands hx hk

/-- The channels that hold a part that the edges of R321 do not split hold each byte of it. -/
theorem Dev.gone_byte {d : Dev} {k : Nat} {y : Nat × List Byte} (hk : covers k y) (hc : ∀ c ∈ d.rangeEdges, ¬ splits c y) :
    d.gone y.1 = d.gone k := by
  have hm := hc d.mirrorBytes (by simp [Dev.rangeEdges])
  have hd := hc d.chanBytes (by simp [Dev.rangeEdges])
  unfold covers at hk
  unfold splits at hm hd
  have im : y.1 < d.mirrorBytes ↔ k < d.mirrorBytes := by omega
  have id : y.1 < d.chanBytes ↔ k < d.chanBytes := by omega
  simp only [Dev.gone, Dev.homes, im, id]

theorem State.dramWrite_keeps (s : State) (src a : Nat) (bs : List Byte) : s.dev.WriteKeeps (s.dramWrite src a bs).1.dev := by
  unfold State.dramWrite
  split
  · exact .raise ..
  · split
    · exact List.foldlRecOn (motive := fun t : State => s.dev.WriteKeeps t.dev) _ _ (.refl _)
        (fun t ht x _ => ht.trans (State.writePart_keeps src t x))
    · exact s.dev.touchAll_keeps a

theorem State.dramWrite_keepsByte {s : State} {src k : Nat} {v : Byte} {x : Nat × List Byte} (hx : carries k v x)
    (hv : s.mem.read k = v) : (s.dramWrite src x.1 x.2).1.mem.read k = v := by
  unfold State.dramWrite
  split
  · exact hv
  · split
    · exact List.foldlRecOn (motive := fun t : State => t.mem.read k = v) _ _ hv
        (fun t ht y hy => State.writePart_keepsByte (cutAll_carries hx y hy) ht)
    · exact Dram.writeBytes_keepsByte hx hv

/-- A byte of a write within the space lands where one of its channels is not LOST (R334). -/
theorem State.dramWrite_lands {s : State} {src k : Nat} {v : Byte} {x : Nat × List Byte} (hx : carries k v x) (hk : covers k x)
    (hb : s.dev.beyond x.1 x.2.length = false) (hg : s.dev.gone k = false) : (s.dramWrite src x.1 x.2).1.mem.read k = v := by
  unfold State.dramWrite
  rw [if_neg (by simp [hb])]
  split
  case isFalse => exact Dram.writeBytes_lands hx hk
  case isTrue =>
    refine foldl_reaches (I := fun t : State => s.dev.WriteKeeps t.dev) (P := fun t => t.mem.read k = v) (State.writePart src) _
      (fun t y _ ht => ht.trans (State.writePart_keeps src t y))
      (fun t y hy _ hv => State.writePart_keepsByte (cutAll_carries hx y hy) hv) ?_ (.refl _)
    obtain ⟨y, hy, hky, hc⟩ := cutAll_covers (cs := s.dev.rangeEdges) hk
    refine ⟨y, hy, fun t ht => State.writePart_lands (cutAll_carries hx y hy) hky ?_⟩
    rw [ht.gone, Dev.gone_byte hky hc, hg]

/-! ## The parts of a write by the host (R86) -/

theorem State.hostPart_refused {src n : Nat} {s : State} {x : Nat × List Byte} (h : s.dev.lockedBuf src x.1 x.2.length = some n) :
    State.hostPart src s x = s.onDev (fun d => d.dropBufWrite src n x.1) := by
  unfold State.hostPart
  rw [h]

theorem State.hostPart_writes {src : Nat} {s : State} {x : Nat × List Byte} {r : State × Bool}
    (h : s.dev.lockedBuf src x.1 x.2.length = none) (hr : s.dramWrite src x.1 x.2 = r) : State.hostPart src s x = r.1 := by
  unfold State.hostPart
  rw [hr, h]

theorem State.hostPart_keeps (src : Nat) (s : State) (x : Nat × List Byte) : s.dev.WriteKeeps (State.hostPart src s x).dev := by
  rcases hl : s.dev.lockedBuf src x.1 x.2.length with _ | n
  · rw [State.hostPart_writes hl rfl]
    exact s.dramWrite_keeps src x.1 x.2
  · rw [State.hostPart_refused hl]
    rw [State.onDev_dev]
    exact s.dev.dropBufWrite_keeps src x.1 (Dev.lockedBuf_eq_some.mp hl).2.1

theorem State.hostPart_keepsByte {src k : Nat} {s : State} {v : Byte} {x : Nat × List Byte} (hx : carries k v x)
    (hv : s.mem.read k = v) : (State.hostPart src s x).mem.read k = v := by
  rcases hl : s.dev.lockedBuf src x.1 x.2.length with _ | n
  · rw [State.hostPart_writes hl rfl]
    exact State.dramWrite_keepsByte hx hv
  · rw [State.hostPart_refused hl]
    exact hv

/-- A part changes no byte that it does not cover, and none in a buffer that refuses writes. -/
theorem State.hostPart_read {src k : Nat} {s : State} {x : Nat × List Byte} (h : ¬ covers k x ∨ (s.dev.lockedBuf src k 1).isSome) :
    (State.hostPart src s x).mem.read k = s.mem.read k := by
  rcases hl : s.dev.lockedBuf src x.1 x.2.length with _ | n
  · rw [State.hostPart_writes hl rfl]
    refine State.dramWrite_read s src x.1 k x.2 (fun hk => ?_)
    rcases h with h | h
    · exact h hk
    · obtain ⟨n, hs⟩ := Option.isSome_iff_exists.mp h
      obtain ⟨hr, h16, _⟩ := Dev.lockedBuf_eq_some.mp hs
      exact Dev.lockedBuf_eq_none.mp hl n h16 (hr.mono hk.1 hk.2)
  · rw [State.hostPart_refused hl]
    rfl

/-- A part that the ends of the buffers do not split meets a buffer that refuses it in every byte, or in none. -/
theorem Dev.lockedBuf_part {d : Dev} {src k : Nat} {y : Nat × List Byte} (hk : covers k y) (hc : ∀ c ∈ d.bufEdges, ¬ splits c y)
    (hl : d.lockedBuf src k 1 = none) : d.lockedBuf src y.1 y.2.length = none := by
  refine Dev.lockedBuf_eq_none.mpr (fun n hn hr => ?_)
  obtain ⟨hlo, hhi⟩ := d.mem_bufEdges hn
  exact Dev.lockedBuf_eq_none.mp hl n hn (hr.byte hk (hc _ hlo) (hc _ hhi))

theorem State.hostPart_lands {s : State} {src k : Nat} {v : Byte} {x : Nat × List Byte} (hx : carries k v x) (hk : covers k x)
    (hl : s.dev.lockedBuf src x.1 x.2.length = none) (hb : s.dev.beyond x.1 x.2.length = false) (hg : s.dev.gone k = false) :
    (State.hostPart src s x).mem.read k = v := by
  rw [State.hostPart_writes hl rfl]
  exact State.dramWrite_lands hx hk hb hg

/-- A part that the ends of the buffers do not split, and that shares a byte with the buffer that refuses the write first, is refused by it. -/
theorem Dev.lockedBuf_first {d : Dev} {src n : Nat} {x y : Nat × List Byte} (hn : d.lockedBuf src x.1 x.2.length = some n)
    (hy : x.1 ≤ y.1 ∧ y.1 + y.2.length ≤ x.1 + x.2.length) (hr : d.Refuses src n y.1 y.2.length) :
    d.lockedBuf src y.1 y.2.length = some n := by
  obtain ⟨_, h16, hj⟩ := Dev.lockedBuf_eq_some.mp hn
  exact Dev.lockedBuf_eq_some.mpr ⟨hr, h16, fun j hlt h => hj j hlt (h.mono hy.1 hy.2)⟩

/-- Some part of a write is refused by the buffer that refuses the write first. -/
theorem Dev.exists_refused_part {d : Dev} {src n : Nat} {x : Nat × List Byte} (hn : d.lockedBuf src x.1 x.2.length = some n) :
    ∃ y ∈ cutAll d.bufEdges x, d.lockedBuf src y.1 y.2.length = some n := by
  obtain ⟨⟨h1, h2, h3, h4⟩, _, _⟩ := Dev.lockedBuf_eq_some.mp hn
  by_cases hz : x.2.length = 0
  · exact ⟨x, by rw [cutAll_of_not_splits (fun c _ hc => by unfold splits at hc; omega)]; exact List.mem_singleton_self x, hn⟩
  · obtain ⟨y, hy, hk, _⟩ := cutAll_covers (cs := d.bufEdges) (k := max x.1 (d.bufLo n)) (x := x) ⟨by omega, by omega⟩
    unfold covers at hk
    exact ⟨y, hy, Dev.lockedBuf_first hn (cutAll_within hy) ⟨by omega, by omega, h3, h4⟩⟩

/-! ## A write by the host that meets a buffer that refuses it -/

section
variable (s : State) (a : Nat) (data : List Byte)

/-- The write of `data` from a in its parts, as `hostWrite` makes it where a buffer refuses some of it. -/
def State.hostParts : State := (cutAll s.dev.bufEdges (a, data)).foldl (State.hostPart 0x44) s

/-- Bytes outside the write, and bytes in a buffer that refuses writes, stand. -/
theorem State.hostParts_read {k : Nat} (h : k < a ∨ a + data.length ≤ k ∨ (s.dev.lockedBuf 0x44 k 1).isSome) :
    (s.hostParts a data).mem.read k = s.mem.read k := by
  refine (List.foldlRecOn (motive := fun t : State => s.dev.WriteKeeps t.dev ∧ t.mem.read k = s.mem.read k) _ (State.hostPart 0x44)
    ⟨.refl _, rfl⟩ (fun t ht x hx => ⟨ht.1.trans (t.hostPart_keeps 0x44 x), ?_⟩)).2
  have hw := cutAll_within hx
  dsimp only at hw
  rw [State.hostPart_read, ht.2]
  rw [ht.1.lockedBuf]
  unfold covers
  rcases h with h | h | h
  · exact Or.inl (by omega)
  · exact Or.inl (by omega)
  · exact Or.inr h

/-- The other bytes of a write within the space land where one of their channels is not LOST. -/
theorem State.hostParts_lands {k : Nat} (h1 : a ≤ k) (h2 : k < a + data.length) (hb : s.dev.beyond a data.length = false)
    (hl : s.dev.lockedBuf 0x44 k 1 = none) (hg : s.dev.gone k = false) : (s.hostParts a data).mem.read k = data.getD (k - a) 0 := by
  have hx := carries_self k (a, data)
  refine foldl_reaches (I := fun t : State => s.dev.WriteKeeps t.dev) (P := fun t => t.mem.read k = data.getD (k - a) 0)
    (State.hostPart 0x44) _ (fun t y _ ht => ht.trans (t.hostPart_keeps 0x44 y))
    (fun t y hy _ hv => State.hostPart_keepsByte (cutAll_carries hx y hy) hv) ?_ (.refl _)
  obtain ⟨y, hy, hky, hc⟩ := cutAll_covers (cs := s.dev.bufEdges) (k := k) (x := (a, data)) ⟨h1, h2⟩
  have hw := cutAll_within hy
  refine ⟨y, hy, fun t ht => State.hostPart_lands (cutAll_carries hx y hy) hky ?_ ?_ ?_⟩
  · rw [ht.lockedBuf, Dev.lockedBuf_part hky hc hl]
  · rw [ht.beyond]
    simp only [Dev.beyond, decide_eq_false_iff_not] at hb ⊢
    dsimp only at hw
    omega
  · rw [ht.gone, hg]

/-- The buffer that refuses the write first shows it (R86). -/
theorem State.hostParts_dropped {n : Nat} (hn : s.dev.lockedBuf 0x44 a data.length = some n) :
    (s.hostParts a data).dev.get (F.BED_BUFn_STAT_DROPPED n) = 1 := by
  have h16 := (Dev.lockedBuf_eq_some.mp hn).2.1
  refine foldl_reaches (I := fun t : State => s.dev.WriteKeeps t.dev) (P := fun t => t.dev.get (F.BED_BUFn_STAT_DROPPED n) = 1)
    (State.hostPart 0x44) _ (fun t y _ ht => ht.trans (t.hostPart_keeps 0x44 y))
    (fun t y _ _ hd => (t.hostPart_keeps 0x44 y).dropped n h16 hd) ?_ (.refl _)
  obtain ⟨y, hy, hr⟩ := Dev.exists_refused_part (x := (a, data)) hn
  refine ⟨y, hy, fun t ht => ?_⟩
  rw [← ht.lockedBuf] at hr
  rw [State.hostPart_refused hr]
  exact (t.dev.dropBufWrite_get 0x44 y.1 h16).1

/-- A write in one page that meets a buffer that refuses it is refused whole, and counted once. -/
theorem State.hostParts_page {n : Nat} (hn : s.dev.lockedBuf 0x44 a data.length = some n) (hp : a % 4096 + data.length ≤ 4096) :
    s.hostParts a data = s.onDev (fun d => d.dropBufWrite 0x44 n a) := by
  have hc : cutAll s.dev.bufEdges (a, data) = [(a, data)] := cutAll_of_not_splits (Dev.bufEdges_not_splits hp)
  unfold State.hostParts
  rw [hc]
  exact State.hostPart_refused hn

end

/-! ## The cases of a write by the host and of a read -/

theorem State.hostWrite_beyond {s : State} {src a : Nat} {bs : List Byte} (hb : s.dev.beyond a bs.length = true) :
    s.hostWrite src a bs = (s.onDev (fun d => d.raiseBeyond src a), false) := by
  unfold State.hostWrite
  rw [if_pos hb]

theorem State.hostWrite_refused {s : State} {a n : Nat} {bs : List Byte} (hb : s.dev.beyond a bs.length = false)
    (hl : s.dev.lockedBuf 0x44 a bs.length = some n) : s.hostWrite 0x44 a bs = (s.hostParts a bs, false) := by
  unfold State.hostWrite State.hostParts
  rw [if_neg (by simp [hb]), if_pos (by simp [hl])]

theorem State.hostWrite_lands {s : State} {src a : Nat} {bs : List Byte} (hb : s.dev.beyond a bs.length = false)
    (hl : s.dev.lockedBuf src a bs.length = none) (hg : s.dev.goneAt a bs.length = none) :
    s.hostWrite src a bs = ({ s with mem := s.mem.writeBytes a bs, dev := s.dev.touchAll a }, true) := by
  unfold State.hostWrite State.dramWrite
  rw [if_neg (by simp [hb]), if_neg (by simp [hl]), if_neg (by simp [hb]), if_neg (by simp [hg])]

theorem State.dramRead_beyond {s : State} {src a n : Nat} (hb : s.dev.beyond a n = true) :
    s.dramRead src a n = (s.onDev (fun d => d.raiseBeyond src a), List.replicate n 0, false) := by
  unfold State.dramRead
  rw [if_pos hb]

theorem State.dramRead_good {s : State} {src a n : Nat} (hb : s.dev.beyond a n = false) (hg : s.dev.goneAt a n = none)
    (hp : s.mem.poisoned a n = false) :
    s.dramRead src a n = (s.onDev (fun d => d.touch (d.serving a)), s.mem.readBytes a n, true) := by
  unfold State.dramRead
  rw [if_neg (by simp [hb]), if_neg (by simp [hg, hp])]

/-! ## The rows -/

theorem exec_bar0BadAccess (addr : Word) (size : Nat) (write : Bool) (s : State) :
    exec (.bar0BadAccess addr size write) s = .next (s.onDev (fun d => d.badAccess addr.toNat size write)) := rfl

theorem exec_bar2Write {off : BitVec 28} {data : List Byte} {a : Nat} {s t : State} {ok : Bool} (ha : s.dev.bar2Addr off = a)
    (h : s.hostWrite 0x44 a data = (t, ok)) : exec (.bar2Write off data) s = .next t := by
  show execBar2Write off data s = _
  unfold execBar2Write
  rw [ha, h]

/-- A BAR2 read answers with what the read of DRAM brought, poisoned where that failed within the space (R395). -/
theorem exec_bar2Read {off : BitVec 28} {len a : Nat} {s t : State} {bs : List Byte} {ok : Bool} (ha : s.dev.bar2Addr off = a)
    (h : s.dramRead 0x44 a len = (t, bs, ok)) :
    exec (.bar2Read off len) s =
      .next (t.onDev (fun d => { d with hst := { d.hst with bar2 := bs, bar2Poison := !ok && !(s.dev.beyond a len) } })) := by
  show execBar2Read off len s = _
  unfold execBar2Read
  dsimp only
  rw [ha, h]

/-- An access of another size or alignment changes the read data of BAR0 and records one event (R11). -/
theorem Dev.badAccess_eq (d : Dev) (addr size : Nat) (write : Bool) :
    d.badAccess addr size write =
      ({ d with hst := { d.hst with bar0 := if write then d.hst.bar0 else some 0 } }).raise 0x0E01 0x01 2 addr size (b2n write) := by
  cases write <;> rfl

/-- Settles O8: a write through BAR2 is followed through its parts, each of which lands where its bytes belong or is dropped whole. -/
theorem badAccessAndWindow : Obligations.BadAccessAndWindow := by
  refine ⟨fun addr size write s => ?_, fun off s => ?_⟩
  · -- a bad access of BAR0
    refine ⟨_, exec_bar0BadAccess addr size write s, ?_⟩
    rw [State.onDev_dev, Dev.badAccess_eq, Dev.raise_hst]
    refine ⟨rfl, ?_, Dev.raise_evr_congr _ _ _ _ _ _ _ _ rfl rfl rfl⟩
    have hd : s.onDev (fun d => d.badAccess addr.toNat size write) =
        (s.onDev (fun d => { d with hst := { d.hst with bar0 := if write then s.dev.hst.bar0 else some 0 } })).onDev
          (fun d => d.raise 0x0E01 0x01 2 addr.toNat size (b2n write)) :=
      congrArg (State.mk s.pending s.mem) (s.dev.badAccess_eq addr.toNat size write)
    rw [hd]
    exact State.onDev_raise_onlyRegsRec _ _ _ _ _ _ _ _
  · intro a
    have ha : s.dev.bar2Addr off = a := rfl
    clear_value a
    refine ⟨fun data hb hl hg => ?_, fun data hb => ?_, fun data n hb hl => ?_, fun len hb hg hp => ?_, fun len hb => ?_⟩
    · -- a write that nothing stops
      exact ⟨_, exec_bar2Write ha (State.hostWrite_lands hb hl hg), fun k => Dram.writeBytes_read s.mem a k data⟩
    · -- a write beyond the space
      exact ⟨_, exec_bar2Write ha (State.hostWrite_beyond hb), rfl, State.onDev_raise_onlyRegsRec _ _ _ _ _ _ _ _, rfl⟩
    · -- a write that meets a buffer that refuses it
      refine ⟨_, exec_bar2Write ha (State.hostWrite_refused hb hl), s.hostParts_dropped a data hl, fun k hk => s.hostParts_read a data hk,
        fun k h1 h2 hk hg => s.hostParts_lands a data h1 h2 hb hk hg, fun _ hp => ?_⟩
      rw [s.hostParts_page a data hl hp]
      exact ⟨rfl, (s.dev.dropBufWrite_get 0x44 a (Dev.lockedBuf_eq_some.mp hl).2.1).2⟩
    · -- a read that finds a good copy of every byte
      exact ⟨_, exec_bar2Read ha (State.dramRead_good hb hg hp), rfl, rfl, rfl⟩
    · -- a read beyond the space
      refine ⟨_, exec_bar2Read ha (State.dramRead_beyond hb), rfl, rfl, ?_⟩
      rw [State.onDev_dev, hb]
      rfl

end Sys2Proof.Machine

/-! # Writes of registers (00_scope.md R11 to R20, R433)

A refused write raises one event on a device that is otherwise as it was. An accepted write of a register of one plain field places the
field and notes the change; `PlainReg` says once what makes a register plain. -/

namespace Sys2Proof.Machine

open Sys2Proof.Safety

/-! ## The row -/

/-- A register write that forms no DRAM write changes the device as `regWrite` does (R433). -/
theorem exec_registerWrite {a v : Word} {n : Nat} {s : State} {d' : Dev} (hn : a.toNat = n)
    (h : s.settled.dev.regWrite s.mem n v.toNat = d') (hw : d'.wq = []) : exec (.registerWrite a v) s = .next { s with dev := d' } := by
  subst hn h
  exact congrArg Host.Outcome.next (State.runDev_noWrites s _ hw)

/-- What an event does to the recorder does not depend on the writes that a row has formed. -/
theorem State.settled_recorded (s : State) (c a b x y z : Nat) : recorded s.dev (s.settled.dev.raise c a b x y z) c a b x y z :=
  Dev.raise_evr_congr _ _ _ _ _ _ _ _ rfl rfl rfl

/-! ## Refused writes (R11, R12, R433) -/

theorem Dev.regWrite_misaligned (d : Dev) (m : Dram) {a : Nat} (v : Nat) (ha : a % 4 ≠ 0) :
    d.regWrite m a v = d.raise 0x0E01 0x01 2 a 4 1 := by
  unfold Dev.regWrite
  rw [if_pos (by simpa using ha), Dev.badAccess]
  rfl

theorem Dev.regWrite_unoccupied (d : Dev) (m : Dram) {a : Nat} (v : Nat) (ha : a % 4 = 0) (hf : regFind a regSpecs = none) :
    d.regWrite m a v = d.raise 0x0E02 0x01 2 a v 0 := by
  unfold Dev.regWrite
  rw [if_neg (by simp [ha]), hf]

section
variable {d : Dev} {a v : Nat} {h : RegHit} (ha : a % 4 = 0) (hf : regFind a regSpecs = some h)
  (hm : h.holds (F.HST_MBXw_WORD 0) = false) (hp : h.holds F.HST_CPL_POP_POP = false)
include ha hf hm hp

/-- A write of a register beside the mailbox and the completion queue is refused or accepted as a whole (R433). -/
theorem Dev.regWrite_judged (m : Dram) :
    d.regWrite m a v = if d.writeRefused h a v then d.refuseWrite a v else d.acceptWrite m h a v := by
  unfold Dev.regWrite
  rw [if_neg (by simp [ha]), hf]
  dsimp only
  rw [hm, hp]
  rfl

/-- A register without a writable field refuses every write (R14, R433). -/
theorem Dev.regWrite_unwritable (m : Dram) (hw : h.spec.fields.all (fun f => !f.access.writable) = true) :
    d.regWrite m a v = d.raise 0x0E03 0x01 2 a v (d.readReg a) := by
  have hn : h.spec.fields.any (fun f => f.access.writable) = false := by
    simpa [List.any_eq_false] using hw
  rw [Dev.regWrite_judged ha hf hm hp, if_pos (by simp [Dev.writeRefused, hn])]
  rfl

end

/-- A refused write records one event and changes nothing else. -/
theorem exec_registerWrite_raises {a v : Word} {s : State} {c p sev x y z : Nat}
    (h : s.settled.dev.regWrite s.mem a.toNat v.toNat = s.settled.dev.raise c p sev x y z) :
    ∃ t : State, exec (.registerWrite a v) s = .next t ∧ onlyRegsRec [] s.settled t ∧ recorded s.dev t.dev c p sev x y z :=
  ⟨_, exec_registerWrite rfl h (Dev.raise_wq ..), State.onDev_raise_onlyRegsRec s.settled [] c p sev x y z,
    s.settled_recorded c p sev x y z⟩

/-! ## What an accepted write leaves -/

theorem Dev.recOnly_wq {d d' : Dev} (h : d.recOnly d') : d'.wq = d.wq := by rw [h.1]

/-- Noting a write changes the recorder alone (R20). -/
theorem Dev.recOnly_noteWrite (d before : Dev) (h : RegHit) (a v : Nat) : d.recOnly (d.noteWrite before h a v) := by
  unfold Dev.noteWrite
  dsimp only
  split
  · exact d.recOnly_refl
  · exact d.recOnly_raise ..

/-- A field was set, and the recorder took in what was raised. -/
theorem State.onlyRegsRec_put {s : State} {fs : List Fld} {F : Fld} {w : Nat} {d' : Dev} (hF : F ∈ recFlds ++ fs)
    (h : (s.dev.put F w).recOnly d') : onlyRegsRec fs s { s with dev := d' } :=
  ⟨congrArg (State.mk s.pending s.mem) h.1,
   regsKeep_trans (regsKeep_put s.dev F w hF) (regsKeep_mono h.2 (fun _ hG => List.mem_append_left _ hG))⟩

/-- An event that enters an empty intake FIFO changes no register (R376). -/
theorem Dev.get_raise_empty (d : Dev) (c a b x y z : Nat) (G : Fld) (h : d.evr.fifo = []) : (d.raise c a b x y z).get G = d.get G := by
  unfold Dev.raise Dev.intake
  rw [h]
  rfl

/-! ## Where a value lands (R16 to R19) -/

/-- With nothing in a shadow and no old view, a value whose block is stopped goes live, and nothing else changes. -/
theorem Dev.land_live {d : Dev} {F : Fld} {e : Effect} {port : Option Nat} (w : Nat) (hs : d.shadow = []) (hv : d.oldViews = [])
    (he : d.effectStopped port e = true) : d.land port F e w = d.put F w := by
  have h1 : d.shadow.filter (fun x => decide (x.fld ≠ F)) = d.shadow := by rw [hs]; rfl
  have h2 : d.oldViews.filter (fun x => decide (x.fld ≠ F)) = d.oldViews := by rw [hv]; rfl
  unfold Dev.land
  rw [if_pos he, h1, h2]

/-- With nothing in a shadow, a value whose block runs is the only one that waits. -/
theorem Dev.land_waits {d : Dev} {F : Fld} {e : Effect} {port : Option Nat} (w : Nat) (hs : d.shadow = [])
    (he : d.effectStopped port e = false) : d.land port F e w = { d with shadow := [⟨F, e, port, w⟩] } := by
  unfold Dev.land
  rw [if_neg (by simp [he]), hs]
  rfl

/-! ## Registers of one plain field -/

/-- The register at address a has the one field f, which starts at bit 0, which every value fits, and to whose write no chapter gives a rule
of judging, a place or an effect of its own. -/
structure PlainReg (a : Nat) (h : RegHit) (f : FieldSpec) : Prop where
  aligned : a % 4 = 0 := by decide
  found : regFind a regSpecs = some h := by decide
  notMbx : h.holds (F.HST_MBXw_WORD 0) = false := by decide
  notPop : h.holds F.HST_CPL_POP_POP = false := by decide
  fields : h.spec.fields = [f] := by decide
  low : f.lsb = 0 := by decide
  writable : f.access.writable = true := by decide
  owner : h.spec.owner = .device := by decide
  notPair : h.holds (F.ENG_PAIRk_STATE 0) = false := by decide
  notCmp : h.holds (F.QE_CMPk_VAL_VAL 0) = false := by decide
  noPlace : h.ownPlace f = false := by decide
  fits (d : Dev) (v : Nat) : d.fieldRefused h a v f = false := by intros; rfl
  noRule (d : Dev) (v : Nat) : d.ruleRefused h v = false := by intros; rfl
  notHeld (d : Dev) : (d.encHeldAt a || d.tempHeldAt a) = false := by intros; rfl
  noEffect (d old : Dev) (m : Dram) (v : Nat) : d.afterWrite old m h v = d := by intros; rfl

section
variable {a : Nat} {h : RegHit} {f : FieldSpec} (r : PlainReg a h f)
include r

theorem PlainReg.accepted (d : Dev) (v : Nat) : d.writeRefused h a v = false := by
  have hp : d.regAbsent h = false := by
    unfold Dev.regAbsent
    rw [r.owner]
    simp [r.notPair]
  simp [Dev.writeRefused, hp, r.fields, r.writable, r.fits, r.noRule]

/-- A write of a plain register places its field and notes the change. -/
theorem PlainReg.regWrite (d : Dev) (m : Dram) (v : Nat) : d.regWrite m a v = (d.applyField h a v f).noteWrite d h a v := by
  rw [Dev.regWrite_judged r.aligned r.found r.notMbx r.notPop, if_neg (by simp [r.accepted]), Dev.acceptWrite,
    if_neg (by simp [r.notHeld]), r.noEffect, r.fields, List.foldl_cons, List.foldl_nil]

theorem PlainReg.noted (d : Dev) (hs : d.shadow = []) : d.noted h a f = d.get (f.fld a) := by
  unfold Dev.noted Dev.written
  rw [if_neg (by simp [r.notCmp]), hs]
  rfl

/-- The change is noted as one of the field (R20). -/
theorem PlainReg.noteWrite (d d' : Dev) (v : Nat) (hs : d.shadow = []) : d'.noteWrite d h a v =
    if d.get (f.fld a) = d.notedAfter h a v f then d'
    else d'.raise 0x0110 0x01 0 a (d.get (f.fld a)) (d.notedAfter h a v f) := by
  simp only [Dev.noteWrite, packFields, r.fields, r.low, List.map_cons, List.map_nil, List.foldl_cons, List.foldl_nil, pow_zero,
    Nat.mul_one, Nat.zero_add, r.noted d hs, beq_iff_eq]

theorem PlainReg.port_none : h.port = none := by
  unfold RegHit.port
  rw [r.owner]

theorem PlainReg.bits (v : Nat) : f.bits v = v % 2 ^ f.width := by
  rw [FieldSpec.bits, r.low, pow_zero, Nat.div_one]

/-- A field with access RW takes the low bits of the word. -/
theorem PlainReg.applyField_rw (d : Dev) (v : Nat) (hx : f.access = .rw) :
    d.applyField h a v f = d.land none (f.fld a) f.effect (v % 2 ^ f.width) := by
  unfold Dev.applyField
  dsimp only
  rw [if_neg (by simp [r.noPlace]), hx, r.port_none, r.bits]

theorem PlainReg.notedAfter_rw (d : Dev) (v : Nat) (hx : f.access = .rw) : d.notedAfter h a v f = v % 2 ^ f.width := by
  unfold Dev.notedAfter
  dsimp only
  rw [hx, r.bits]

/-- A field with access W1C loses the bits written 1 (R15). -/
theorem PlainReg.applyField_w1c (d : Dev) (v : Nat) (hx : f.access = .w1c) :
    d.applyField h a v f = d.put (f.fld a) (d.get (f.fld a) - (d.get (f.fld a) &&& v % 2 ^ f.width)) := by
  unfold Dev.applyField
  dsimp only
  rw [if_neg (by simp [r.noPlace]), hx, r.bits]

theorem PlainReg.notedAfter_w1c (d : Dev) (v : Nat) (hs : d.shadow = []) (hx : f.access = .w1c) :
    d.notedAfter h a v f = d.get (f.fld a) - (d.get (f.fld a) &&& v % 2 ^ f.width) := by
  unfold Dev.notedAfter
  dsimp only
  rw [hx, r.bits, r.noted d hs]

end

/-! ## HST_WIN, HST_ATTN and SNS_DARK_WAIT -/

/-- BASE of HST_WIN (R414). -/
def winField : FieldSpec := ⟨"BASE", 0, 8, 0x0, .rw, .imm, .any⟩
/-- CAUSE of HST_ATTN (R399). -/
def attnField : FieldSpec := ⟨"CAUSE", 0, 15, 0x0, .w1c, .imm, .any⟩
/-- WAIT of SNS_DARK_WAIT (R238). -/
def darkField : FieldSpec := ⟨"WAIT", 0, 16, 0x32, .rw, .bed, .any⟩

/-- The place of a register that is no array and belongs to the device. -/
def soleReg (name : String) (a : Nat) (f : FieldSpec) : RegHit := ⟨⟨name, a, 0, 1, 0, 1, .device, [f]⟩, 0, 0⟩

theorem plain_win : PlainReg 0x10 (soleReg "HST_WIN" 0x10 winField) winField := {}
theorem plain_attn : PlainReg 0x4 (soleReg "HST_ATTN" 0x4 attnField) attnField := {}
theorem plain_dark : PlainReg 0x1C0018 (soleReg "SNS_DARK_WAIT" 0x1C0018 darkField) darkField := {}

/-! ## Writes of plain registers -/

section
variable {a : Nat} {h : RegHit} {f : FieldSpec} (r : PlainReg a h f) {s : State}
include r

/-- What a write of a plain register leaves, beside the event that notes it: the device after the field took its part. -/
theorem PlainReg.exec_write {w v : Word} (hw : w.toNat = a) {d' : Dev} (hd : s.settled.dev.applyField h a v.toNat f = d') (hq : d'.wq = []) :
    exec (.registerWrite w v) s = .next { s with dev := d'.noteWrite s.settled.dev h a v.toNat } :=
  exec_registerWrite hw (by rw [r.regWrite, hd]) ((Dev.recOnly_wq (Dev.recOnly_noteWrite ..)).trans hq)

variable (hs : s.dev.shadow = []) (hv : s.dev.oldViews = []) (hx : f.access = .rw) (hrec : (f.fld a).key ∉ recFlds.map Fld.key)
include hs hv hx hrec

/-- A write of a plain RW register whose block is stopped: the value is live at once, and is noted where it is another one (R18, R20). -/
theorem PlainReg.exec_live {w v : Word} (hw : w.toNat = a) (he : s.settled.dev.effectStopped none f.effect = true) :
    ∃ t : State, exec (.registerWrite w v) s = .next t ∧ t.dev.get (f.fld a) = v.toNat % 2 ^ f.width ∧
      (s.dev.get (f.fld a) ≠ v.toNat % 2 ^ f.width →
        recorded s.dev t.dev 0x0110 0x01 0 a (s.dev.get (f.fld a)) (v.toNat % 2 ^ f.width)) ∧
      (s.dev.get (f.fld a) = v.toNat % 2 ^ f.width → t.dev.evr = s.dev.evr) ∧ onlyRegsRec [f.fld a] s.settled t := by
  have hs' : s.settled.dev.shadow = [] := hs
  have hd : s.settled.dev.applyField h a v.toNat f = s.settled.dev.put (f.fld a) (v.toNat % 2 ^ f.width) := by
    rw [r.applyField_rw _ _ hx, Dev.land_live _ hs' hv he]
  have hrw := Dev.recOnly_noteWrite (s.settled.dev.put (f.fld a) (v.toNat % 2 ^ f.width)) s.settled.dev h a v.toNat
  have hn := r.noteWrite s.settled.dev (s.settled.dev.put (f.fld a) (v.toNat % 2 ^ f.width)) v.toNat hs'
  rw [r.notedAfter_rw _ _ hx] at hn
  refine ⟨_, r.exec_write hw hd rfl, ?_, fun hne => ?_, fun heq => ?_, State.onlyRegsRec_put (List.mem_append_right _ (by simp)) hrw⟩
  · rw [hrw.2 _ hrec, Dev.get_put_self]
    exact Nat.mod_mod ..
  · have hl : (f.fld a).key ≠ F.EVR_STAT_LASTGASP.key := fun q => hrec (q ▸ List.mem_map_of_mem (by simp [recFlds]))
    rw [hn.trans (if_neg hne)]
    exact (Dev.put_raise_evr _ _ _ _ _ _ _ _ _ hl).trans (s.settled_recorded ..)
  · rw [hn.trans (if_pos heq)]
    rfl

omit hv in
/-- A write of a plain RW register whose block runs: the value waits in its shadow, and the live one stands (R16, R19). -/
theorem PlainReg.exec_waits {w v : Word} (hw : w.toNat = a) (he : s.settled.dev.effectStopped none f.effect = false) :
    ∃ t : State, exec (.registerWrite w v) s = .next t ∧ t.dev.get (f.fld a) = s.dev.get (f.fld a) ∧
      t.dev.shadow = [⟨f.fld a, f.effect, none, v.toNat % 2 ^ f.width⟩] ∧
      t = { s with dev := { s.dev with regs := t.dev.regs, evr := t.dev.evr, shadow := t.dev.shadow, wq := [] } } ∧
      regsKeep recFlds s.dev t.dev := by
  have hd : s.settled.dev.applyField h a v.toNat f =
      { s.settled.dev with shadow := [⟨f.fld a, f.effect, none, v.toNat % 2 ^ f.width⟩] } := by
    rw [r.applyField_rw _ _ hx, Dev.land_waits (d := s.settled.dev) _ hs he]
  obtain ⟨hfr, hk⟩ := Dev.recOnly_noteWrite
    { s.settled.dev with shadow := [⟨f.fld a, f.effect, none, v.toNat % 2 ^ f.width⟩] } s.settled.dev h a v.toNat
  have hsh := congrArg Dev.shadow hfr
  refine ⟨_, r.exec_write hw hd rfl, hk _ hrec, hsh, ?_, hk⟩
  dsimp only
  rw [hsh]
  exact congrArg (State.mk s.pending s.mem) hfr

end

/-- A write of HST_ATTN clears the bits written 1 (R15, R399); noting it may set CAUSE again where the intake FIFO is full. -/
theorem exec_attnWrite {s : State} (hs : s.dev.shadow = []) (v : Word) :
    ∃ t : State, exec (.registerWrite 0x4 v) s = .next t ∧ onlyRegsRec [] s.settled t ∧
      (s.dev.get F.HST_ATTN_CAUSE < 2 ^ 15 → s.dev.get F.HST_ATTN_CAUSE &&& v.toNat % 2 ^ 15 = 0 →
        t.dev.get F.HST_ATTN_CAUSE = s.dev.get F.HST_ATTN_CAUSE ∧ t.dev.evr = s.dev.evr) ∧
      (s.dev.get F.HST_ATTN_CAUSE = v.toNat % 2 ^ 15 → s.dev.evr.fifo = [] → t.dev.get F.HST_ATTN_CAUSE = 0) := by
  obtain ⟨x, hx⟩ : ∃ x, s.dev.get F.HST_ATTN_CAUSE - (s.dev.get F.HST_ATTN_CAUSE &&& v.toNat % 2 ^ 15) = x := ⟨_, rfl⟩
  have hd : s.settled.dev.applyField (soleReg "HST_ATTN" 0x4 attnField) 0x4 v.toNat attnField = s.settled.dev.put F.HST_ATTN_CAUSE x :=
    (plain_attn.applyField_w1c s.settled.dev v.toNat rfl).trans (congrArg (s.settled.dev.put F.HST_ATTN_CAUSE) hx)
  have ha : s.settled.dev.notedAfter (soleReg "HST_ATTN" 0x4 attnField) 0x4 v.toNat attnField = x :=
    (plain_attn.notedAfter_w1c s.settled.dev v.toNat hs rfl).trans hx
  have hn := plain_attn.noteWrite s.settled.dev (s.settled.dev.put F.HST_ATTN_CAUSE x) v.toNat hs
  rw [ha] at hn
  have hg : (s.settled.dev.put F.HST_ATTN_CAUSE x).get F.HST_ATTN_CAUSE = x % 2 ^ 15 := Dev.get_put_self ..
  refine ⟨_, plain_attn.exec_write rfl hd rfl, State.onlyRegsRec_put (by simp [recFlds]) (Dev.recOnly_noteWrite ..),
    fun hlt hz => ?_, fun heq hf => ?_⟩
  · have hc : s.dev.get F.HST_ATTN_CAUSE = x := by rw [← hx, hz, Nat.sub_zero]
    rw [hn.trans (if_pos hc), hg, ← hc, Nat.mod_eq_of_lt hlt]
    exact ⟨rfl, rfl⟩
  · have h0 : x = 0 := by rw [← hx, ← heq, Nat.and_self, Nat.sub_self]
    rw [hn]
    split
    · rw [hg, h0, Nat.zero_mod]
    · exact (Dev.get_raise_empty (s.settled.dev.put F.HST_ATTN_CAUSE x) _ _ _ _ _ _ _ hf).trans (by rw [hg, h0, Nat.zero_mod])

/-- Settles O32: a refused write only raises its event, and an accepted one of a plain register only places its field and is noted. -/
theorem registerWriteJudged : Obligations.RegisterWriteJudged := by
  intro v s
  refine ⟨fun a ha => ?_, fun a ha hf => ?_, fun a h ha hf hm hp hw => ?_, fun hs hv => ⟨?_, ?_, fun hi => ?_, fun hi => ?_⟩⟩
  · exact exec_registerWrite_raises (Dev.regWrite_misaligned _ _ _ ha)
  · exact exec_registerWrite_raises (Dev.regWrite_unoccupied _ _ _ ha (Option.isNone_iff_eq_none.mp hf))
  · exact exec_registerWrite_raises (Dev.regWrite_unwritable ha hf hm hp _ hw)
  · exact plain_win.exec_live (w := 0x10) hs hv rfl (by decide) rfl rfl
  · exact exec_attnWrite hs v
  · have he : s.settled.dev.effectStopped none .bed = true := beq_iff_eq.mpr hi
    obtain ⟨t, ht, hg, _, _, ho⟩ := plain_dark.exec_live (w := 0x1C0018) (v := v) hs hv rfl (by decide) rfl he
    exact ⟨t, ht, hg, ho⟩
  · have he : s.settled.dev.effectStopped none .bed = false := beq_eq_false_iff_ne.mpr hi
    exact plain_dark.exec_waits (w := 0x1C0018) hs rfl (by decide) rfl he

end Sys2Proof.Machine

/-! # The supervisor (01_architecture.md R26)

Every lockstep mismatch is noted in the same way, by an event of the system range and attention SUPERVISOR; whether one came within the hour
before it decides between a restart and HALTED. -/

namespace Sys2Proof.Machine

open Sys2Proof.Safety

/-- A bit that was just set stays set when the value is cut to a width that holds it. -/
theorem bitAt_bitPut_mod {v k w : Nat} (h : k < w) : bitAt (bitPut v k true % 2 ^ w) k = true := by
  have bit : ∀ x, bitAt x k = x.testBit k := fun x => by rw [bitAt, Nat.testBit_eq_decide_div_mod_eq]; rfl
  rw [bit, Nat.testBit_mod_two_pow, decide_eq_true h, Bool.true_and, bitPut, bit]
  cases hv : v.testBit k
  case true => exact hv
  case false =>
    show (v + 2 ^ k).testBit k = true
    rw [Nat.add_comm, Nat.testBit_two_pow_add_eq, hv, Bool.not_false]

/-! ## How a mismatch is noted -/

/-- An event of the system range is raised on the device that has drawn its free values (log entry 4). -/
theorem Dev.raiseSystem_eq (d : Dev) (src sev : Nat) : ∃ code p1 p2 p3 : Nat, code < 256 ∧
    d.raiseSystem src sev = { d with freeCtr := d.freeCtr + 4 }.raise code src sev p1 p2 p3 :=
  ⟨_, _, _, _, Nat.mod_lt _ (by decide), rfl⟩

/-- The device once a lockstep mismatch is recorded and shown. -/
def Dev.mismatchNoted (d : Dev) : Dev := (d.raiseSystem 0x00 4).attn .supervisor

theorem Dev.mismatchNoted_sys (d : Dev) : d.mismatchNoted.sys = d.sys := by
  obtain ⟨code, p1, p2, p3, _, e⟩ := d.raiseSystem_eq 0x00 4
  rw [Dev.mismatchNoted, e, Dev.attn_eq, Dev.put_sys, Dev.raise_sys]

/-- A mismatch records one event of the system range with severity 4. -/
theorem Dev.mismatchNoted_recorded (d : Dev) : ∃ code p1 p2 p3 : Nat, code < 256 ∧ recorded d d.mismatchNoted code 0x00 4 p1 p2 p3 := by
  obtain ⟨code, p1, p2, p3, hc, e⟩ := d.raiseSystem_eq 0x00 4
  refine ⟨code, p1, p2, p3, hc, ?_⟩
  rw [recorded, Dev.mismatchNoted, e, Dev.attn_eq, Dev.put_evr]
  exact Dev.raise_evr_congr _ _ _ _ _ _ _ _ rfl rfl rfl

theorem Dev.mismatchNoted_attention (d : Dev) : bitAt (d.mismatchNoted.get F.HST_ATTN_CAUSE) 11 = true := by
  rw [Dev.mismatchNoted, Dev.attn_eq, Dev.get_put_self]
  exact bitAt_bitPut_mod (by decide)

theorem Dev.mismatchNoted_regsKeep (d : Dev) : regsKeep recFlds d d.mismatchNoted := by
  obtain ⟨code, p1, p2, p3, _, e⟩ := d.raiseSystem_eq 0x00 4
  rw [Dev.mismatchNoted, e, Dev.attn_eq]
  have hf : regsKeep recFlds d { d with freeCtr := d.freeCtr + 4 } := regsKeep_of_regs rfl
  exact regsKeep_trans (regsKeep_trans hf (regsKeep_raise _ _ _ _ _ _ _ (fun _ h => h))) (regsKeep_put _ _ _ (by simp [recFlds]))

theorem Dev.mismatchNoted_frame (d : Dev) :
    d.mismatchNoted = { d with regs := d.mismatchNoted.regs, evr := d.mismatchNoted.evr, freeCtr := d.mismatchNoted.freeCtr } := by
  obtain ⟨code, p1, p2, p3, _, e⟩ := d.raiseSystem_eq 0x00 4
  rw [Dev.mismatchNoted, e, Dev.raise_eq]
  rfl

/-! ## What a mismatch leads to -/

/-- A mismatch came at most an hour ago. -/
def Dev.mismatchRecent (d : Dev) : Prop := ∃ u : DWord, d.sys.lastMismatch = some u ∧ elapsed64 d.time u ≤ oneHour

/-- The first mismatch, or the first after an hour, restarts the supervisor. -/
theorem Dev.supMismatch_restarts {d : Dev} (hs : d.sys.sup ≠ .halted) (h : ¬ d.mismatchRecent) :
    d.supMismatch = { d.mismatchNoted with sys := { d.sys with sup := .restarting, lastMismatch := some d.time } } := by
  unfold Dev.supMismatch
  rw [if_neg (by simpa using hs)]
  dsimp only
  rw [if_neg, ← d.mismatchNoted_sys]
  · rfl
  · intro again
    split at again
    case h_1 u hu => exact h ⟨u, hu, of_decide_eq_true again⟩
    case h_2 => exact Bool.false_ne_true again

/-- A second mismatch within an hour stops the supervisor. -/
theorem Dev.supMismatch_halts {d : Dev} (hs : d.sys.sup ≠ .halted) (h : d.mismatchRecent) :
    d.supMismatch = { d.mismatchNoted with sys := { d.sys with sup := .halted } }.put F.HST_STAT_PHASE 5 := by
  obtain ⟨u, hu, ht⟩ := h
  unfold Dev.supMismatch
  rw [if_neg (by simpa using hs), hu, ← d.mismatchNoted_sys]
  exact if_pos (decide_eq_true ht)

/-- The end of a restart sets the supervisor running. -/
theorem exec_supervisorRestartDone_restarting {s : State} (h : s.dev.sys.sup = .restarting) : exec .supervisorRestartDone s =
    .next { s with dev := { s.dev with sys := { s.dev.sys with sup := .running } } } := by
  have e : s.dev.restartDone = { s.dev with sys := { s.dev.sys with sup := .running } } := if_pos (beq_iff_eq.mpr h)
  exact congrArg (fun d => Host.Outcome.next { s with dev := d }) e

/-- Where no restart runs, none ends. -/
theorem exec_supervisorRestartDone_otherwise {s : State} (h : s.dev.sys.sup ≠ .restarting) : exec .supervisorRestartDone s = .next s := by
  have e : s.dev.restartDone = s.dev := if_neg (by simpa using h)
  exact congrArg (fun d => Host.Outcome.next { s with dev := d }) e

/-- Settles O12: a mismatch is noted alike in both cases, and the time of the one before it decides what the supervisor does. -/
theorem supervisorRestartsOrHalts : Obligations.SupervisorRestartsOrHalts := by
  refine ⟨fun s hs => ?_, fun _ => exec_supervisorRestartDone_restarting, fun _ => exec_supervisorRestartDone_otherwise⟩
  obtain ⟨code, p1, p2, p3, hc, hrec⟩ := s.dev.mismatchNoted_recorded
  have hatt := s.dev.mismatchNoted_attention
  have hframe := s.dev.mismatchNoted_frame
  have hkeep : regsKeep (recFlds ++ [F.HST_STAT_PHASE]) s.dev s.dev.mismatchNoted :=
    regsKeep_mono s.dev.mismatchNoted_regsKeep (fun _ h => List.mem_append_left _ h)
  have hexec : exec .lockstepMismatch s = .next { s with dev := s.dev.supMismatch } := rfl
  refine ⟨_, code, p1, p2, p3, hexec, hc, ?_⟩
  by_cases h : s.dev.mismatchRecent
  · rw [Dev.supMismatch_halts hs h]
    obtain ⟨v, hv, hle⟩ := h
    refine ⟨hrec, ?_, fun hn => ?_, fun u hu hlt => ?_, fun _ _ _ => ⟨rfl, Dev.get_put_self ..⟩, ?_,
      regsKeep_trans hkeep (regsKeep_put _ _ _ (by simp))⟩
    · exact (congrArg (bitAt · 11) (Dev.get_put_ne _ _ _ _ (by decide))).trans hatt
    · simp [hn] at hv
    · rw [hu, Option.some.injEq] at hv
      subst hv
      omega
    · rw [hframe]
      rfl
  · rw [Dev.supMismatch_restarts hs h]
    refine ⟨hrec, hatt, fun _ => ⟨rfl, rfl, s.dev.mismatchNoted_regsKeep F.HST_STAT_PHASE (by decide)⟩, fun _ _ _ => rfl,
      fun u hu hle => absurd ⟨u, hu, hle⟩ h, ?_, hkeep⟩
    rw [hframe]

end Sys2Proof.Machine

/-! # Telemetry (15_selftest_recorder.md R388, R389; 12_memory.md R437)

The records of a TEL_PERIOD are formed one after the other, each into the slot behind the one before it; the writes so formed land together
at the end of the row. A write that lands may wake a DRAM channel and changes nothing else of the device. -/

namespace Sys2Proof.Machine

open Sys2Proof.Safety

/-! ## A write that lands wakes its channels (R331, R332) -/

/-- The register fields of a DRAM channel that leaves self-refresh. -/
def wakeFlds : List Fld :=
  [F.DDR_CHc_STAT_STATE 0, F.DDR_CHc_STAT_STATE 1, F.DDR_CHc_RT_STEPS_COUNT 0, F.DDR_CHc_RT_STEPS_COUNT 1]

theorem mem_wakeFlds {c : Nat} (hc : c < 2) : F.DDR_CHc_STAT_STATE c ∈ wakeFlds ∧ F.DDR_CHc_RT_STEPS_COUNT c ∈ wakeFlds := by
  interval_cases c <;> decide

/-- A device differs from d at most in its DRAM channels, their wake-up fields and the free values drawn. -/
def Dev.wakeOnly (d d' : Dev) : Prop :=
  d' = { d with regs := d'.regs, ddr := d'.ddr, freeCtr := d'.freeCtr } ∧ regsKeep wakeFlds d d'

theorem Dev.wakeOnly_refl (d : Dev) : d.wakeOnly d := ⟨rfl, regsKeep_refl _ d⟩

theorem Dev.wakeOnly_trans {a b c : Dev} (h : a.wakeOnly b) (k : b.wakeOnly c) : a.wakeOnly c := by
  obtain ⟨hf, hr⟩ := h
  obtain ⟨kf, kr⟩ := k
  rw [hf] at kf
  exact ⟨kf, regsKeep_trans hr kr⟩

theorem Dev.wakeOnly.tel {d d' : Dev} (h : d.wakeOnly d') : d'.tel = d.tel := by rw [h.1]

theorem Dev.wakeOnly.evr {d d' : Dev} (h : d.wakeOnly d') : d'.evr = d.evr := by rw [h.1]

theorem Dev.wakeOnly.get {d d' : Dev} (h : d.wakeOnly d') {G : Fld} (hG : G.key ∉ wakeFlds.map Fld.key) : d'.get G = d.get G := h.2 G hG

theorem Dev.wakeOnly_put (d : Dev) {F : Fld} (v : Nat) (h : F ∈ wakeFlds) : d.wakeOnly (d.put F v) := ⟨rfl, regsKeep_put d F v h⟩

theorem Dev.wakeOnly_updCh (d : Dev) (c : Nat) (f : DdrCh → DdrCh) : d.wakeOnly (d.updCh c f) := ⟨rfl, regsKeep_of_regs rfl⟩

theorem Dev.wakeOnly_srRetrain (d : Dev) {c : Nat} (hc : c < 2) : d.wakeOnly (d.srRetrain c) := by
  unfold Dev.srRetrain
  split
  · exact d.wakeOnly_refl
  · have hf : d.wakeOnly d.free.2 := ⟨rfl, regsKeep_of_regs rfl⟩
    exact Dev.wakeOnly_trans hf (Dev.wakeOnly_trans (Dev.wakeOnly_put _ _ (mem_wakeFlds hc).2) (Dev.wakeOnly_updCh ..))

theorem Dev.wakeOnly_leaveSr (d : Dev) {c : Nat} (hc : c < 2) : d.wakeOnly (d.leaveSr c) := by
  unfold Dev.leaveSr
  split
  case isFalse => exact d.wakeOnly_refl
  case isTrue =>
    refine Dev.wakeOnly_trans (Dev.wakeOnly_trans ?_ (Dev.wakeOnly_put _ _ (mem_wakeFlds hc).1)) (Dev.wakeOnly_updCh ..)
    split
    · split
      · exact d.wakeOnly_srRetrain hc
      · exact d.wakeOnly_refl
    · exact d.wakeOnly_refl

theorem Dev.wakeOnly_touchAll (d : Dev) (a : Nat) : d.wakeOnly (d.touchAll a) :=
  List.foldlRecOn (motive := d.wakeOnly) (d.homes a) _ d.wakeOnly_refl (fun _ hb _ hc =>
    Dev.wakeOnly_trans hb (Dev.wakeOnly_trans (Dev.wakeOnly_leaveSr _ (Dev.mem_homes_lt hc)) (Dev.wakeOnly_updCh ..)))

/-! ## Writes that land together -/

/-- The bytes of a write lie in DRAM that is present. -/
def Dev.present (d : Dev) (w : MemWr) : Prop := d.beyond w.addr w.data.length = false ∧ d.goneAt w.addr w.data.length = none

theorem Dev.WriteKeeps.goneAt {d d' : Dev} (h : d.WriteKeeps d') (a n : Nat) : d'.goneAt a n = d.goneAt a n := by
  simp only [Dev.goneAt, h.mirrorBytes, h.chanBytes, h.gone]

theorem Dev.WriteKeeps.present {d d' : Dev} (h : d.WriteKeeps d') {w : MemWr} (hw : d.present w) : d'.present w :=
  ⟨(h.beyond ..).trans hw.1, (h.goneAt ..).trans hw.2⟩

theorem State.dramWrite_present {s : State} {w : MemWr} (h : s.dev.present w) :
    (s.dramWrite w.src w.addr w.data).1 = { s with mem := s.mem.writeBytes w.addr w.data, dev := s.dev.touchAll w.addr } := by
  obtain ⟨hb, hg⟩ := h
  unfold State.dramWrite
  rw [if_neg (by simp [hb]), if_neg (by simp [hg])]

/-- Writes into DRAM that is present all land, in order. -/
theorem State.writes_present (l : List MemWr) : ∀ s : State, (∀ w ∈ l, s.dev.present w) → ∃ d', s.dev.wakeOnly d' ∧
    l.foldl (fun s w => (s.dramWrite w.src w.addr w.data).1) s =
      { s with mem := l.foldl (fun m w => m.writeBytes w.addr w.data) s.mem, dev := d' } := by
  induction l with
  | nil => exact fun s _ => ⟨s.dev, s.dev.wakeOnly_refl, rfl⟩
  | cons w l ih =>
    intro s h
    obtain ⟨hw, hl⟩ := List.forall_mem_cons.mp h
    obtain ⟨d', hd, e⟩ := ih { s with mem := s.mem.writeBytes w.addr w.data, dev := s.dev.touchAll w.addr }
      (fun x hx => (s.dev.touchAll_keeps w.addr).present (hl x hx))
    refine ⟨d', Dev.wakeOnly_trans (s.dev.wakeOnly_touchAll w.addr) hd, ?_⟩
    rw [List.foldl_cons, State.dramWrite_present hw, e]
    rfl

/-- The writes formed in a row all land where DRAM is present for them. -/
theorem State.flushWr_present {s : State} {l : List MemWr} (hl : s.dev.wq = l) (h : ∀ w ∈ l, s.dev.present w) :
    ∃ d', s.settled.dev.wakeOnly d' ∧ s.flushWr = { s with mem := l.foldl (fun m w => m.writeBytes w.addr w.data) s.mem, dev := d' } := by
  subst hl
  exact State.writes_present s.dev.wq s.settled h

/-! ## One record (R389, R437) -/

@[simp] theorem leBytes_length (n v : Nat) : (leBytes n v).length = n := by
  induction n generalizing v with
  | zero => rfl
  | succ n ih => rw [leBytes, List.length_cons, ih]

/-- The first 16 bytes of a telemetry record: time, type, port, zero and sequence number. -/
def telHead (time : DWord) (seq : Word) (h : Nat × Nat) : List Byte :=
  leBytes 8 time.toNat ++ leBytes 1 h.1 ++ leBytes 1 h.2 ++ leBytes 2 0 ++ leBytes 4 seq.toNat

/-- A record of 64 bytes: its head, and the CRC-32C of what stands before it. -/
structure IsTelRecord (time : DWord) (seq : Word) (h : Nat × Nat) (r : List Byte) : Prop where
  length : r.length = 64
  head : r.take 16 = telHead time seq h
  crc : r.drop 60 = leBytes 4 (crc32c (r.take 60)).toNat

/-- A head, a body of 44 bytes and their CRC-32C make a record. -/
theorem isTelRecord_of_body (time : DWord) (seq : Word) (h : Nat × Nat) {body : List Byte} (hb : body.length = 44) :
    IsTelRecord time seq h (telHead time seq h ++ body ++ leBytes 4 (crc32c (telHead time seq h ++ body)).toNat) := by
  have hh : (telHead time seq h).length = 16 := by simp [telHead]
  have h60 : (telHead time seq h ++ body).length = 60 := by rw [List.length_append, hh, hb]
  refine ⟨by rw [List.length_append, h60, leBytes_length], ?_, ?_⟩
  · rw [List.append_assoc, List.take_left' hh]
  · rw [List.drop_left' h60, List.take_left' h60]

/-- The address of slot i of the telemetry ring. -/
def Dev.telSlot (d : Dev) (i : Nat) : Nat := d.get F.TEL_BASE_BASE * 4096 + i * 64

/-- The writes of records into the slots of the ring from WR on. -/
def Dev.telWrites (d : Dev) (recs : List (List Byte)) : List MemWr :=
  recs.mapIdx (fun j r => MemWr.mk 0x59 (d.telSlot ((d.get F.TEL_WR_INDEX + j) % d.ringLen telRing)) r)

/-- A record that finds room is queued for the slot at WR, and WR moves past it. -/
theorem Dev.telRecord_room {d : Dev} {type port : Nat} {body : List Byte} (he : d.get F.TEL_CTRL_EN ≠ 0) (hn : 0 < d.ringLen telRing)
    (hr : (d.get F.TEL_WR_INDEX + 1) % d.ringLen telRing ≠ d.get F.TEL_RD_INDEX) (hb : body.length = 44) :
    ∃ r, IsTelRecord d.time d.tel.seq (type, port) r ∧ d.telRecord type port body =
      ({ d with
          tel := { d.tel with seq := d.tel.seq + 1 },
          wq := d.wq ++ [MemWr.mk 0x59 (d.telSlot (d.get F.TEL_WR_INDEX)) r] }).put F.TEL_WR_INDEX
        ((d.get F.TEL_WR_INDEX + 1) % d.ringLen telRing) := by
  refine ⟨_, isTelRecord_of_body d.time d.tel.seq (type, port) hb, ?_⟩
  have hk : ∀ t : Tel, ({ d with tel := t } : Dev).ringKept telRing = true := fun _ => decide_eq_true hn
  have hf : ∀ t : Tel, ({ d with tel := t } : Dev).ringFull telRing = false := fun _ => beq_eq_false_iff_ne.mpr hr
  unfold Dev.telRecord Dev.ringPut
  rw [if_pos (by simpa using he)]
  simp only [hk, hf, if_true, Bool.false_eq_true, if_false]
  rfl

/-- The PORT record of a port has a body of 44 bytes. -/
theorem Dev.telPort_eq (d : Dev) (p : Nat) : ∃ (body : List Byte) (ports : Table TelPort), body.length = 44 ∧
    d.telPort p = { d.telRecord 1 p body with tel := { (d.telRecord 1 p body).tel with ports := ports } } :=
  ⟨_, _, by simp [Dev.telTemp, telCount], rfl⟩

/-- The DEVICE record has a body of 44 bytes. -/
theorem Dev.telDevice_eq (d : Dev) : ∃ (body : List Byte) (ce : Nat), body.length = 44 ∧
    d.telDevice = { d.telRecord 3 0xFF body with tel := { (d.telRecord 3 0xFF body).tel with ce := ce } } :=
  ⟨_, _, by simp [Dev.telTemp, telCount], rfl⟩

/-! ## The records of a period -/

/-- Telemetry is on, WR is an index of the ring, and the ring has room for k records and no more slots than TEL_WR can index. -/
structure Dev.TelRoom (d : Dev) (k : Nat) : Prop where
  on : d.get F.TEL_CTRL_EN ≠ 0
  inside : d.get F.TEL_WR_INDEX < d.ringLen telRing
  indexed : d.ringLen telRing ≤ 2 ^ F.TEL_WR_INDEX.width
  free : ∀ j < k, (d.get F.TEL_WR_INDEX + j + 1) % d.ringLen telRing ≠ d.get F.TEL_RD_INDEX

/-- Device d' has formed, from d on, the records recs with types and ports hs. -/
structure Dev.Formed (d : Dev) (hs : List (Nat × Nat)) (recs : List (List Byte)) (d' : Dev) : Prop where
  length : recs.length = hs.length
  records : ∀ (j : Nat) (h : Nat × Nat) (r : List Byte), hs[j]? = some h → recs[j]? = some r →
    IsTelRecord d.time (d.tel.seq + BitVec.ofNat 32 j) h r
  frame : d' = { d with regs := d'.regs, tel := d'.tel, wq := d'.wq }
  keeps : regsKeep [F.TEL_WR_INDEX] d d'
  wr : d'.get F.TEL_WR_INDEX = (d.get F.TEL_WR_INDEX + hs.length) % d.ringLen telRing
  seq : d'.tel.seq = d.tel.seq + BitVec.ofNat 32 hs.length
  wq : d'.wq = d.wq ++ d.telWrites recs

theorem Dev.TelRoom.formed_nil {d : Dev} {k : Nat} (room : d.TelRoom k) : d.Formed [] [] d where
  length := rfl
  records _ _ _ hh := by simp at hh
  frame := rfl
  keeps := regsKeep_refl _ d
  wr := (Nat.mod_eq_of_lt room.inside).symm
  seq := (BitVec.add_zero _).symm
  wq := (List.append_nil _).symm

section
variable {d d' : Dev} {hs : List (Nat × Nat)} {recs : List (List Byte)} (f : d.Formed hs recs d')
include f

/-- A change of what the periods are counted from forms no record. -/
theorem Dev.Formed.setTel {t : Tel} (h : t.seq = d'.tel.seq) : d.Formed hs recs { d' with tel := t } where
  length := f.length
  records := f.records
  frame := by rw [f.frame]
  keeps := f.keeps
  wr := f.wr
  seq := h.trans f.seq
  wq := f.wq

theorem Dev.Formed.get {G : Fld} (h : G.key ≠ F.TEL_WR_INDEX.key) : d'.get G = d.get G := f.keeps G (by simpa using h)

theorem Dev.Formed.evr : d'.evr = d.evr := by rw [f.frame]

theorem Dev.Formed.ringLen : d'.ringLen telRing = d.ringLen telRing := by
  show d'.get F.TEL_SIZE_SIZE * 4096 / 64 = d.get F.TEL_SIZE_SIZE * 4096 / 64
  rw [f.get (by decide)]

theorem Dev.Formed.telSlot (i : Nat) : d'.telSlot i = d.telSlot i := by
  rw [Dev.telSlot, Dev.telSlot, f.get (by decide)]

/-- The map of device addresses stands while records are formed. -/
theorem Dev.Formed.writeKeeps : d.WriteKeeps d' :=
  .of_get (fun _ hG => f.get (fun q => absurd (q ▸ List.mem_map_of_mem hG) (by decide : F.TEL_WR_INDEX.key ∉ keptFlds.map Fld.key)))

/-- In a ring that lies in DRAM that is present the records have such DRAM for them. -/
theorem Dev.Formed.present (hn : 0 < d.ringLen telRing)
    (hp : ∀ i < d.ringLen telRing, d.beyond (d.telSlot i) 64 = false ∧ d.goneAt (d.telSlot i) 64 = none) :
    ∀ w ∈ d.telWrites recs, d'.present w := by
  intro w hw
  obtain ⟨j, hj, rfl⟩ := List.mem_mapIdx.mp hw
  have h64 := (f.records j _ _ (List.getElem?_eq_getElem (f.length ▸ hj)) (List.getElem?_eq_getElem hj)).length
  refine f.writeKeeps.present ?_
  rw [Dev.present, h64]
  exact hp _ (Nat.mod_lt _ hn)

/-- One more record that finds room is formed. -/
theorem Dev.Formed.record {k type port : Nat} {body : List Byte} (room : d.TelRoom k) (hk : hs.length < k) (hb : body.length = 44) :
    ∃ r, d.Formed (hs ++ [(type, port)]) (recs ++ [r]) (d'.telRecord type port body) := by
  have hn := Nat.zero_lt_of_lt room.inside
  have hnext : (d'.get F.TEL_WR_INDEX + 1) % d'.ringLen telRing = (d.get F.TEL_WR_INDEX + hs.length + 1) % d.ringLen telRing := by
    rw [f.ringLen, f.wr, Nat.mod_add_mod]
  have ht : d'.time = d.time := by rw [f.frame]
  obtain ⟨r, hrec, e⟩ := Dev.telRecord_room (d := d') (type := type) (port := port) (body := body)
    (by rw [f.get (by decide)]; exact room.on) (by rwa [f.ringLen]) (by rw [hnext, f.get (by decide)]; exact room.free _ hk) hb
  rw [ht, f.seq] at hrec
  rw [hnext, f.telSlot, f.wr] at e
  refine ⟨r, by simp [f.length], fun j h x hh hx => ?_, ?_, ?_, ?_, ?_, ?_⟩
  · have hj : j < hs.length ∨ j = hs.length := by
      have := (List.getElem?_eq_some_iff.mp hh).1
      rw [List.length_append, List.length_singleton] at this
      omega
    obtain hj | rfl := hj
    · rw [List.getElem?_append_left hj] at hh
      rw [List.getElem?_append_left (f.length ▸ hj)] at hx
      exact f.records j h x hh hx
    · rw [List.getElem?_concat_length, Option.some.injEq] at hh
      rw [← f.length, List.getElem?_concat_length, Option.some.injEq] at hx
      exact hh ▸ hx ▸ hrec
  · rw [e, f.frame]
    rfl
  · rw [e]
    exact regsKeep_trans (regsKeep_trans f.keeps (regsKeep_of_regs rfl)) (regsKeep_put _ _ _ (List.mem_singleton_self _))
  · rw [e, Dev.get_put_self, List.length_append, ← Nat.add_assoc]
    exact Nat.mod_eq_of_lt (Nat.lt_of_lt_of_le (Nat.mod_lt _ hn) room.indexed)
  · rw [e, Dev.put_tel, List.length_append, BitVec.ofNat_add, ← BitVec.add_assoc, ← f.seq]
    rfl
  · rw [e, Dev.put_wq, Dev.telWrites, List.mapIdx_concat, ← List.append_assoc, f.length]
    exact congrArg (· ++ _) f.wq

/-- The PORT records of a list of ports are formed in its order. -/
theorem Dev.Formed.ports {k : Nat} (room : d.TelRoom k) (ps : List Nat) (hk : hs.length + ps.length ≤ k) :
    ∃ recs', d.Formed (hs ++ ps.map (Prod.mk 1)) recs' (ps.foldl (fun d p => d.telPort p) d') := by
  induction ps generalizing d' hs recs with
  | nil => exact ⟨recs, by simpa using f⟩
  | cons p ps ih =>
    rw [List.length_cons] at hk
    obtain ⟨body, ports, hb, e⟩ := d'.telPort_eq p
    obtain ⟨r, hr⟩ := f.record (type := 1) (port := p) room (by omega) hb
    have hp : d.Formed (hs ++ [(1, p)]) (recs ++ [r]) (d'.telPort p) :=
      e ▸ hr.setTel (t := { (d'.telRecord 1 p body).tel with ports := ports }) rfl
    obtain ⟨recs', h⟩ := ih hp (by rw [List.length_append, List.length_singleton]; omega)
    exact ⟨recs', by simpa using h⟩

end

/-- The records of a period in the order in which they are formed: type and port. -/
def Dev.telHeads (d : Dev) : List (Nat × Nat) := (portsInUse (d.sections false)).map (Prod.mk 1) ++ [(3, 0xFF)]

theorem Dev.telHeads_length (d : Dev) : d.telHeads.length = (portsInUse (d.sections false)).length + 1 := by simp [Dev.telHeads]

/-- A period forms a PORT record for each port of the rigging and the DEVICE record. -/
theorem Dev.telPeriod_formed {d : Dev} (hs : d.sys.sup = .running) (room : d.TelRoom d.telHeads.length) :
    ∃ recs, d.Formed d.telHeads recs d.telPeriod := by
  have hl := d.telHeads_length
  obtain ⟨recs, f⟩ := room.formed_nil.ports room (portsInUse (d.sections false)) (by simp [hl])
  obtain ⟨body, ce, hb, e⟩ := Dev.telDevice_eq ((portsInUse (d.sections false)).foldl (fun d p => d.telPort p) d)
  obtain ⟨r, hr⟩ := f.record (type := 3) (port := 0xFF) room (by simp [hl]) hb
  rw [Dev.telPeriod, if_pos (by simpa [Dev.background] using hs), e]
  exact ⟨_, hr.setTel rfl⟩

/-! ## The row -/

/-- What O55 says of a ring with room holds where TEL_WR can index each of its slots: the records of a period land in it in order from WR on,
and WR moves past them. -/
theorem exec_telPeriod_lands {s : State} (hs : s.dev.sys.sup = .running) (room : s.dev.TelRoom s.dev.telHeads.length)
    (hp : ∀ i < s.dev.ringLen telRing, s.dev.beyond (s.dev.telSlot i) 64 = false ∧ s.dev.goneAt (s.dev.telSlot i) 64 = none) :
    ∃ (t : State) (recs : List (List Byte)), exec .telPeriod s = .next t ∧ recs.length = s.dev.telHeads.length ∧
      (∀ j h r, s.dev.telHeads[j]? = some h → recs[j]? = some r →
        IsTelRecord s.dev.time (s.dev.tel.seq + BitVec.ofNat 32 j) h r) ∧
      t.mem = (s.dev.telWrites recs).foldl (fun m w => m.writeBytes w.addr w.data) s.mem ∧
      t.dev.get F.TEL_WR_INDEX = (s.dev.get F.TEL_WR_INDEX + s.dev.telHeads.length) % s.dev.ringLen telRing ∧
      t.dev.get F.TEL_RD_INDEX = s.dev.get F.TEL_RD_INDEX ∧
      t.dev.tel.seq = s.dev.tel.seq + BitVec.ofNat 32 s.dev.telHeads.length ∧ t.dev.evr = s.dev.evr ∧ t.pending = s.pending := by
  obtain ⟨recs, f⟩ := Dev.telPeriod_formed (d := s.settled.dev) hs ⟨room.on, room.inside, room.indexed, room.free⟩
  obtain ⟨d', hd, e⟩ := State.flushWr_present (s := { s with dev := s.settled.dev.telPeriod }) f.wq
    (f.present (Nat.zero_lt_of_lt room.inside) hp)
  refine ⟨_, recs, congrArg Host.Outcome.next e, f.length, f.records, rfl, ?_, ?_, ?_, hd.evr.trans f.evr, rfl⟩
  · exact (hd.get (by decide)).trans f.wr
  · exact (hd.get (by decide)).trans (f.get (by decide))
  · exact (congrArg Tel.seq hd.tel).trans f.seq

/-! ## Two rings

A state of a small ring, which `exec_telPeriod_lands` speaks of, and one of a ring with more slots than TEL_WR can index: the statement ranges
over register lists whose values need not fit their fields, and TEL_WR cuts what it is given to its 32 bits. -/

/-- After reset, with telemetry on, no rigging, cap GB at DRAM channel 0, and the ring of TEL_SIZE = size at address 0 with TEL_WR = wr. -/
def ringState (cap size wr : Nat) : State := State.reset.onDev (fun d => { d with
  regs := [((F.DDR_CHc_STAT_CAP 0).key, cap), (F.TEL_CTRL_EN.key, 1), (F.TEL_SIZE_SIZE.key, size), (F.TEL_WR_INDEX.key, wr)] })

theorem ringState_gone (cap size wr a : Nat) : (ringState cap size wr).dev.gone a = false := by
  have h0 : (ringState cap size wr).dev.chLost 0 = false := rfl
  have h1 : (ringState cap size wr).dev.chLost 1 = false := rfl
  unfold Dev.gone Dev.homes
  split
  · simp [h0]
  · split <;> simp [h0, h1]

/-- Each slot within the address space lies in DRAM that is present. -/
theorem ringState_present {cap size wr i : Nat} (hi : i * 64 + 64 ≤ (ringState cap size wr).dev.addrSpace) :
    (ringState cap size wr).dev.beyond ((ringState cap size wr).dev.telSlot i) 64 = false ∧
      (ringState cap size wr).dev.goneAt ((ringState cap size wr).dev.telSlot i) 64 = none := by
  have hs : (ringState cap size wr).dev.telSlot i = 0 * 4096 + i * 64 := rfl
  refine ⟨decide_eq_false ?_, List.find?_eq_none.mpr (fun x _ => by simp [ringState_gone])⟩
  omega

/-- A ring of 64 slots in 4 GB meets what `exec_telPeriod_lands` asks. -/
theorem smallRing_room : (ringState 3 1 62).dev.TelRoom (ringState 3 1 62).dev.telHeads.length ∧
    ∀ i < (ringState 3 1 62).dev.ringLen telRing, (ringState 3 1 62).dev.beyond ((ringState 3 1 62).dev.telSlot i) 64 = false ∧
      (ringState 3 1 62).dev.goneAt ((ringState 3 1 62).dev.telSlot i) 64 = none := by
  refine ⟨⟨by decide, by decide, by decide, ?_⟩, fun i hi => ringState_present ?_⟩
  · decide
  · have hn : (ringState 3 1 62).dev.ringLen telRing = 64 := rfl
    have ha : (ringState 3 1 62).dev.addrSpace = 2 * 2 * 2 ^ 30 := rfl
    omega

/-- TEL_SIZE and the capacity of DRAM channel 0 hold values that their fields have no bits for, and TEL_WR the greatest that it can hold. -/
def wideRing : State := ringState (2 ^ 10) (2 ^ 27) (2 ^ 32 - 1)

theorem wideRing_ringLen : wideRing.dev.ringLen telRing = 2 ^ 33 := rfl

theorem wideRing_noPorts : portsInUse (wideRing.dev.sections false) = [] := by decide

theorem wideRing_present {i : Nat} (hi : i < 2 ^ 33) :
    wideRing.dev.beyond (wideRing.dev.telSlot i) 64 = false ∧ wideRing.dev.goneAt (wideRing.dev.telSlot i) 64 = none := by
  have ha : wideRing.dev.addrSpace = 2 * 1023 * 2 ^ 30 := rfl
  exact ringState_present (show _ ≤ wideRing.dev.addrSpace by omega)

/-- The record lands in the last slot that TEL_WR can index, and TEL_WR goes back to 0 though 2 ^ 32 is an index of the ring. -/
theorem wideRing_telPeriod : ∃ t : State, exec .telPeriod wideRing = .next t ∧ t.dev.get F.TEL_WR_INDEX = 0 := ⟨_, rfl, rfl⟩

/-- Refutes O55: its clause on a ring with room lets TEL_WR reach any index of the ring, but TEL_WR has 32 bits. `wideRing` has 2 ^ 33 slots and
room after index 2 ^ 32 - 1, from where TEL_WR goes to 0. Where TEL_WR can index every slot, as it can whenever TEL_SIZE fits its 16 bits,
`exec_telPeriod_lands` says what the clause says. -/
theorem not_telemetryPeriods : ¬ Obligations.TelemetryPeriods := by
  intro h
  obtain ⟨-, -, ring, -⟩ := h
  obtain ⟨-, lands⟩ := ring wideRing rfl (by decide)
  rw [wideRing_noPorts, wideRing_ringLen, List.length_nil, Nat.zero_add] at lands
  have room : ∀ j < 1, (wideRing.dev.get F.TEL_WR_INDEX + j + 1) % 2 ^ 33 ≠ wideRing.dev.get F.TEL_RD_INDEX := by decide
  obtain ⟨t, _, ht, -, -, -, hwr, -⟩ := lands (by decide) (by decide) room (fun _ hi => wideRing_present hi)
  obtain ⟨u, hu, h0⟩ := wideRing_telPeriod
  obtain rfl := Host.Outcome.next.inj (ht.symm.trans hu)
  exact absurd (h0.symm.trans hwr) (by decide)

end Sys2Proof.Machine

/-! # Swaps and slots (02_rigging.md R62, R63, R66; 11_link_and_time.md R296 to R298)

A swap that goes live in IDLE lets a DETACHED device judge its role again. Whatever role comes out of that, only the clock, Gorwin Link, time
synchronisation, the recorder and a fixed list of their register fields can change (`Dev.roleOnly`), so the rigging stays the one just set. -/

namespace Sys2Proof.Machine

open Sys2Proof.Safety

/-! ## What judging the role can change -/

/-- The register fields that judging the role may change, beside the recorder's. -/
def roleFlds : List Fld :=
  [F.GLK_STAT_ROLE, F.GLK_STAT_ROOT, F.GLK_STAT_HOPS, F.GLK_STAT_SPLIT, F.GLK_STAT_TICK_MISMATCH, F.GLK_REACH0_NODES, F.GLK_REACH1_NODES,
   F.GLK_DOMAIN0_NODES, F.GLK_DOMAIN1_NODES, F.PTP_STAT_STATE, F.PTP_STAT_TIME_VALID] ++ (upTo 4).map F.GLKp_STAT_UPSTREAM

/-- A device differs from d only where judging the role may change it. -/
def Dev.roleOnly (d d' : Dev) : Prop :=
  d' = { d with regs := d'.regs, evr := d'.evr, tick := d'.tick, time := d'.time, glk := d'.glk, ptp := d'.ptp } ∧
    regsKeep (recFlds ++ roleFlds) d d'

theorem Dev.roleOnly_refl (d : Dev) : d.roleOnly d := ⟨rfl, regsKeep_refl _ d⟩

theorem Dev.roleOnly.trans {a b c : Dev} (h : a.roleOnly b) (k : b.roleOnly c) : a.roleOnly c := by
  obtain ⟨hframe, hkeep⟩ := h
  obtain ⟨kframe, kkeep⟩ := k
  rw [hframe] at kframe
  exact ⟨kframe, regsKeep_trans hkeep kkeep⟩

theorem Dev.roleOnly.rig {d d' : Dev} (h : d.roleOnly d') : d'.rig = d.rig := by rw [h.1]

theorem Dev.roleOnly.rigState {d d' : Dev} (h : d.roleOnly d') : d'.get F.RIG_STAT_STATE = d.get F.RIG_STAT_STATE := h.2 _ (by decide)

theorem Dev.roleOnly_put (d : Dev) {F : Fld} (v : Nat) (h : F ∈ recFlds ++ roleFlds) : d.roleOnly (d.put F v) := ⟨rfl, regsKeep_put d F v h⟩

theorem Dev.roleOnly_glk (d : Dev) (g : Glk) : d.roleOnly { d with glk := g } := ⟨rfl, regsKeep_of_regs rfl⟩

theorem Dev.roleOnly_ptp (d : Dev) (p : Ptp) : d.roleOnly { d with ptp := p } := ⟨rfl, regsKeep_of_regs rfl⟩

theorem Dev.roleOnly_raise (d : Dev) (c a b x y z : Nat) : d.roleOnly (d.raise c a b x y z) :=
  ⟨by conv_lhs => rw [Dev.raise_eq]
      simp, regsKeep_raise _ _ _ _ _ _ _ (fun _ h => List.mem_append_left _ h)⟩

theorem Dev.roleOnly_attn (d : Dev) (a : Attn) : d.roleOnly (d.attn a) := d.roleOnly_put _ (by simp [recFlds])

theorem Dev.roleOnly_reachBits (d : Dev) : d.roleOnly d.reachBits :=
  (d.roleOnly_put _ (by simp [roleFlds])).trans ((Dev.roleOnly_put _ _ (by simp [roleFlds])).trans
    ((Dev.roleOnly_put _ _ (by simp [roleFlds])).trans (Dev.roleOnly_put _ _ (by simp [roleFlds]))))

theorem Dev.roleOnly_upstreamBits (up : Option Nat) (d : Dev) :
    d.roleOnly ((upTo 4).foldl (fun d p => d.setFlag (F.GLKp_STAT_UPSTREAM p) (decide (up = some p))) d) :=
  List.foldlRecOn (upTo 4) _ d.roleOnly_refl (fun e he _ hp => he.trans
    (e.roleOnly_put _ (List.mem_append_right _ (List.mem_append_right _ (List.mem_map_of_mem hp)))))

theorem Dev.roleOnly_setRole (d : Dev) (role : Nat) (root up : Option Nat) (hops : Nat) : d.roleOnly (d.setRole role root up hops) :=
  (d.roleOnly_glk _).trans ((Dev.roleOnly_put _ _ (by simp [roleFlds])).trans ((Dev.roleOnly_put _ _ (by simp [roleFlds])).trans
    ((Dev.roleOnly_put _ _ (by simp [roleFlds])).trans ((Dev.roleOnly_upstreamBits up _).trans (Dev.roleOnly_reachBits _)))))

theorem Dev.roleOnly_followTime (d : Dev) (member : Bool) : d.roleOnly (d.followTime member) := by
  have state : ∀ v, d.roleOnly (d.put F.PTP_STAT_STATE v) := fun v => d.roleOnly_put v (by simp [roleFlds])
  unfold Dev.followTime
  split
  · exact state 6
  · split
    · exact (state _).trans (Dev.roleOnly_ptp _ _)
    · exact d.roleOnly_refl

/-- A role that is set, and the servo with it. -/
theorem Dev.roleOnly_roleAndTime (d : Dev) (role : Nat) (root up : Option Nat) (hops : Nat) (member : Bool) :
    d.roleOnly ((d.setRole role root up hops).followTime member) :=
  (d.roleOnly_setRole role root up hops).trans (Dev.roleOnly_followTime _ member)

/-- An event that is raised in one case only. -/
theorem Dev.roleOnly_raiseIf (d : Dev) (q : Prop) [Decidable q] (c a b x y z : Nat) :
    d.roleOnly (if q then d.raise c a b x y z else d) := by
  split
  · exact d.roleOnly_raise ..
  · exact d.roleOnly_refl

theorem Dev.roleOnly_joined (d : Dev) (r p hops : Nat) : d.roleOnly (d.joined r p hops) :=
  (d.roleOnly_raiseIf _ _ _ _ _ _ _).trans ((Dev.roleOnly_raise ..).trans (Dev.roleOnly_roleAndTime ..))

theorem Dev.roleOnly_takeTick (d : Dev) (r p : Nat) (m : Marker) (tick : Word) : d.roleOnly (d.takeTick r p m tick) := by
  have clock : ∀ (time : DWord) (g : Glk), d.roleOnly { d with tick := tick, time := time, glk := g } :=
    fun _ _ => ⟨rfl, regsKeep_of_regs rfl⟩
  exact (clock _ _).trans (Dev.roleOnly_put _ _ (by simp [roleFlds]))

theorem Dev.roleOnly_detach (d : Dev) (r : Nat) (ticks times : Int) : d.roleOnly (d.detach r ticks times) := by
  have apart : ∀ e : Dev, e.roleOnly (((((e.setFlag F.GLK_STAT_TICK_MISMATCH true).raise 0x0705 0x07 3 r (trunc 32 ticks)
      (trunc 32 times)).attn .link).setRole 3 (some d.node) none 0).followTime false) := fun e =>
    (e.roleOnly_put _ (by simp [roleFlds])).trans
      ((Dev.roleOnly_raise ..).trans ((Dev.roleOnly_attn ..).trans (Dev.roleOnly_roleAndTime ..)))
  unfold Dev.detach
  refine Dev.roleOnly.trans ?_ (apart _)
  split
  · exact (d.roleOnly_put _ (by simp [roleFlds])).trans ((Dev.roleOnly_raise ..).trans (Dev.roleOnly_attn ..))
  · exact d.roleOnly_refl

theorem Dev.roleOnly_tryJoin (d : Dev) (r p hops : Nat) (led : Bool) : d.roleOnly (d.tryJoin r p hops led) := by
  unfold Dev.tryJoin
  split
  case h_1 => exact d.roleOnly_refl
  case h_2 m at_ _ =>
    dsimp only
    split
    · exact (d.roleOnly_takeTick r p m _).trans (Dev.roleOnly_joined ..)
    · split
      · exact d.roleOnly_refl
      · split
        · exact d.roleOnly_joined ..
        · split
          · exact d.roleOnly_refl
          · exact d.roleOnly_detach ..

theorem Dev.roleOnly_becomeRoot (d : Dev) : d.roleOnly d.becomeRoot := by
  unfold Dev.becomeRoot
  split
  · exact d.roleOnly_refl
  · exact (d.roleOnly_raiseIf _ _ _ _ _ _ _).trans (Dev.roleOnly_roleAndTime ..)

theorem Dev.roleOnly_becomeAlone (d : Dev) : d.roleOnly d.becomeAlone := by
  unfold Dev.becomeAlone
  split
  · exact d.roleOnly_refl
  · exact d.roleOnly_roleAndTime ..

theorem Dev.roleOnly_adrift (d : Dev) : d.roleOnly d.adrift := d.roleOnly_setRole ..

theorem Dev.roleOnly_judgeRole (d : Dev) (retest : Bool) : d.roleOnly (d.judgeRole retest) := by
  unfold Dev.judgeRole
  split
  · exact d.roleOnly_becomeAlone
  · extract_lets role mine up e stay
    split
    · exact d.roleOnly_refl
    · have noted : d.roleOnly e := d.roleOnly_glk _
      have stays : e.roleOnly (stay e) := by
        clear_value up e
        cases up with
        | none => exact e.roleOnly_refl
        | some x => exact e.roleOnly_setRole ..
      refine noted.trans ?_
      split
      · split
        · exact e.roleOnly_adrift
        · exact e.roleOnly_becomeAlone
      · split
        · split
          · exact e.roleOnly_adrift
          · exact e.roleOnly_becomeRoot
        · split
          · exact stays
          · split
            · exact e.roleOnly_refl
            · split
              · exact stays.trans (Dev.roleOnly_tryJoin ..)
              · exact stays

theorem Dev.roleOnly_retestJoin (d : Dev) : d.roleOnly d.retestJoin := by
  unfold Dev.retestJoin
  split
  · exact d.roleOnly_judgeRole true
  · exact d.roleOnly_refl

/-! ## A swap that goes live at once (R66) -/

theorem Dev.swapLive_live (d : Dev) (w : Swap) (hold : Bool) : (d.swapLive w hold).rig.live = swapSet d.rig.live w.secs := rfl

theorem Dev.swapLive_armed (d : Dev) (w : Swap) (hold : Bool) : (d.swapLive w hold).rig.armed = none := rfl

theorem Dev.swapLive_state (d : Dev) (w : Swap) (hold : Bool) : (d.swapLive w hold).get F.RIG_STAT_STATE = 2 := by
  unfold Dev.swapLive Dev.oldSetBit
  rw [Dev.setFlag_eq, Dev.get_put_ne _ _ _ _ (by decide), Dev.get_put_self]
  rfl

theorem Dev.swapArm_idle {d : Dev} (w : Swap) (h : d.get F.BED_STAT_PHASE = 0) : d.swapArm w = ((d.swapLive w false).retestJoin, .ok) :=
  if_pos (beq_iff_eq.mpr h)

/-! ## A swap that is armed (R66) -/

/-- The device with a swap armed, before RIG_STAT.LATE is judged. -/
def Dev.swapArmed (d : Dev) (w : Swap) : Dev :=
  (({ d with rig := { d.rig with armed := some w, armTick := d.tick } }).put F.RIG_STAT_STATE 3).put F.RIG_SWAP_ID_IMG_ID w.imgId.toNat

theorem Dev.swapArm_running {d : Dev} (w : Swap) (h : d.get F.BED_STAT_PHASE ≠ 0) : d.swapArm w =
    (if (d.swapArmed w).lateWindow then (d.swapArmed w).setFlag F.RIG_STAT_LATE true else d.swapArmed w, .armed) :=
  if_neg (fun e => h (beq_iff_eq.mp e))

section
variable (d : Dev) (w : Swap)

theorem Dev.swapArmed_state : (d.swapArmed w).get F.RIG_STAT_STATE = 3 := by
  rw [Dev.swapArmed, Dev.get_put_ne _ _ _ _ (by decide), Dev.get_put_self]
  rfl

theorem Dev.swapArmed_swapId : (d.swapArmed w).get F.RIG_SWAP_ID_IMG_ID = w.imgId.toNat := by
  rw [Dev.swapArmed, Dev.get_put_self]
  exact Nat.mod_eq_of_lt w.imgId.isLt

theorem Dev.swapArmed_regsKeep : regsKeep [F.RIG_STAT_STATE, F.RIG_SWAP_ID_IMG_ID] d (d.swapArmed w) :=
  regsKeep_trans (regsKeep_put { d with rig := { d.rig with armed := some w, armTick := d.tick } } _ _ (by simp))
    (regsKeep_put _ _ _ (by simp))

/-- No field beyond the registers of the rigging changes. -/
theorem Dev.swapArmed_get {G : Fld} (h : 0x20000 ≤ G.addr) : (d.swapArmed w).get G = d.get G := by
  refine d.swapArmed_regsKeep w G ?_
  simp only [List.map, List.mem_cons, List.not_mem_nil, or_false, Fld.key, F.RIG_STAT_STATE, F.RIG_SWAP_ID_IMG_ID]
  omega

theorem Dev.swapArmed_bufState (n : Nat) : (d.swapArmed w).get (F.BED_BUFn_STAT_STATE n) = d.get (F.BED_BUFn_STAT_STATE n) :=
  d.swapArmed_get w (Nat.le_add_right_of_le (by decide))

theorem Dev.swapArmed_freeBank : (d.swapArmed w).freeBank = d.freeBank := by
  have done : (d.swapArmed w).bankDone = d.bankDone := by
    funext n b
    unfold Dev.bankDone
    rw [d.swapArmed_bufState]
    rfl
  unfold Dev.freeBank
  rw [done]
  rfl

theorem Dev.swapArmed_oldExposing : (d.swapArmed w).oldExposing = d.oldExposing := by
  unfold Dev.oldExposing
  simp only [d.swapArmed_bufState]
  rfl

theorem Dev.swapArmed_curClear : (d.swapArmed w).curClear = d.curClear := by
  unfold Dev.curClear
  rw [d.swapArmed_get w (G := F.BED_CHASE_CLEAR) (by decide)]
  rfl

theorem Dev.swapArmed_committedBuf : (d.swapArmed w).committedBuf = d.committedBuf := by
  unfold Dev.committedBuf
  rw [Dev.flag_eq, d.swapArmed_get w (G := F.BED_NEXT_COMMITTED) (by decide), d.swapArmed_get w (G := F.BED_NEXT_BUF) (by decide)]
  rfl

/-- A swap armed in this T-tick is not one armed before, so it defers no bed. -/
theorem Dev.swapArmed_deferred : (d.swapArmed w).swapDeferred = false := by
  have now : later32 d.tick d.tick = false := by simp [later32]
  have before : (d.swapArmed w).armedBefore = none := if_neg (fun e => Bool.false_ne_true (now.symm.trans e))
  rw [Dev.swapDeferred, before]
  rfl

/-- A bed that can be latched can still be latched once a swap is armed. -/
theorem Dev.swapArmed_latchable (h : d.latchable.isSome = true) : (d.swapArmed w).latchable.isSome = true := by
  unfold Dev.latchable at h ⊢
  rw [d.swapArmed_committedBuf, d.swapArmed_freeBank, d.swapArmed_deferred, show (d.swapArmed w).tick = d.tick from rfl,
    show (d.swapArmed w).bar = d.bar from rfl]
  cases hc : d.committedBuf with
  | none => simp [hc] at h
  | some n =>
    rw [hc] at h
    dsimp only at h ⊢
    split at h
    case isTrue hl =>
      simp only [Bool.and_eq_true] at hl
      obtain ⟨hl, _⟩ := hl
      simp [hl]
    case isFalse => simp at h

theorem Dev.swapArmed_horizonDue (h : d.horizonDue = true) : (d.swapArmed w).horizonDue = true := by
  have phase := d.swapArmed_get w (G := F.BED_STAT_PHASE) (by decide)
  have run : (d.swapArmed w).flag F.BED_CTRL_RUN = d.flag F.BED_CTRL_RUN := by
    rw [Dev.flag_eq, d.swapArmed_get w (by decide), Dev.flag_eq]
  have hold : (d.swapArmed w).flag F.BED_CTRL_HOLD = d.flag F.BED_CTRL_HOLD := by
    rw [Dev.flag_eq, d.swapArmed_get w (by decide), Dev.flag_eq]
  have channel : ∀ c, (d.swapArmed w).get (F.DDR_CHc_STAT_STATE c) = d.get (F.DDR_CHc_STAT_STATE c) :=
    fun c => d.swapArmed_get w (Nat.le_add_right_of_le (by decide))
  unfold Dev.horizonDue at h ⊢
  simp only [phase, run, hold, channel, d.swapArmed_oldExposing, d.swapArmed_curClear, show (d.swapArmed w).sys = d.sys from rfl]
  simp only [Bool.or_eq_true, Bool.and_eq_true] at h ⊢
  exact h.imp id (And.imp id (d.swapArmed_latchable w))

/-- The late window does not end because a swap is armed in it. -/
theorem Dev.swapArmed_lateWindow (h : d.lateWindow = true) : (d.swapArmed w).lateWindow = true := by
  unfold Dev.lateWindow at h ⊢
  rw [d.swapArmed_get w (G := F.BED_STAT_PHASE) (by decide)]
  simp only [Bool.or_eq_true] at h ⊢
  exact h.imp id (d.swapArmed_horizonDue w)

/-- Arming a swap while the Control Bar runs, RIG_STAT.LATE judged. -/
theorem Dev.swapArm_arms (h : d.get F.BED_STAT_PHASE ≠ 0) : ∃ d' : Dev, d.swapArm w = (d', .armed) ∧
    d'.rig = { d.rig with armed := some w, armTick := d.tick } ∧ d'.get F.RIG_STAT_STATE = 3 ∧
    d'.get F.RIG_SWAP_ID_IMG_ID = w.imgId.toNat ∧ (d.lateWindow = true → d'.get F.RIG_STAT_LATE = 1) ∧ d'.evr = d.evr ∧
    regsKeep [F.RIG_STAT_STATE, F.RIG_SWAP_ID_IMG_ID, F.RIG_STAT_LATE] d d' := by
  refine ⟨_, d.swapArm_running w h, ?_⟩
  have keep := regsKeep_mono (gs := [F.RIG_STAT_STATE, F.RIG_SWAP_ID_IMG_ID, F.RIG_STAT_LATE]) (d.swapArmed_regsKeep w)
    (fun _ hF => List.mem_append_left [F.RIG_STAT_LATE] hF)
  cases hl : (d.swapArmed w).lateWindow with
  | false =>
    have early : ¬ d.lateWindow = true := fun late => Bool.false_ne_true (hl.symm.trans (d.swapArmed_lateWindow w late))
    exact ⟨rfl, d.swapArmed_state w, d.swapArmed_swapId w, fun late => absurd late early, rfl, keep⟩
  | true =>
    refine ⟨rfl, ?_, ?_, fun _ => Dev.get_put_self _ _ _, rfl, regsKeep_trans keep (regsKeep_put _ _ _ (by simp))⟩
    · exact (Dev.get_put_ne _ _ _ _ (by decide)).trans (d.swapArmed_state w)
    · exact (Dev.get_put_ne _ _ _ _ (by decide)).trans (d.swapArmed_swapId w)

end

/-! ## RIG_CANCEL (R63) -/

theorem Dev.rigCancel_latched {d : Dev} (h : d.rig.latched.isSome = true) : d.rigCancel = (d, .latched) := if_pos h

theorem Dev.rigCancel_none {d : Dev} (hl : d.rig.latched = none) (ha : d.rig.armed = none) : d.rigCancel = (d, .none) := by
  simp [Dev.rigCancel, hl, ha]

theorem Dev.rigCancel_armed {d : Dev} {w : Swap} (hl : d.rig.latched = none) (ha : d.rig.armed = some w) : d.rigCancel =
    ((({ d with rig := { d.rig with armed := none } }).put F.RIG_STAT_STATE 2).put F.RIG_SWAP_ID_IMG_ID d.rig.prevSwap.toNat, .ok) := by
  simp [Dev.rigCancel, hl, ha]

/-! ## The rows -/

theorem exec_rigSwap {tag : Word} {addr : DWord} {len : Word} {s : State} {r : State × List Byte} {secs : List Section}
    (hr : s.dev.mayRun .load 0x11 tag = true) (hs : s.dev.sys.sup ≠ .halted) (ha : aligned16 addr = true) (hb : s.dev.rigBusy .load = false)
    (hstage : s.stage addr len = r) (hv : rigValidate s.dev.variant.ports 1 r.1.dev.rig.live r.2 = .ok secs) {d : Dev} {res : Res}
    (hd : r.1.dev.swapArm ⟨f32At r.2 0x10, secs⟩ = (d, res)) :
    exec (.rigSwap tag addr len) s = .next { r.1 with dev := d.finish .load 0x11 tag res.code 0 } := by
  have body : s.rigSwap addr len = ({ r.1 with dev := d }, res, 0) := by simp [State.rigSwap, ha, hb, hstage, hv, hd]
  refine congrArg Host.Outcome.next ((State.command_runs s .load 0x11 tag _ hr hs).trans ?_)
  rw [body]
  rfl

theorem exec_rigCancel {tag : Word} {s : State} (hr : s.dev.mayRun .ctrl 0x12 tag = true) (hs : s.dev.sys.sup ≠ .halted) {d : Dev} {res : Res}
    (hd : s.dev.rigCancel = (d, res)) : exec (.rigCancel tag) s = .next { s with dev := d.finish .ctrl 0x12 tag res.code 0 } := by
  refine congrArg Host.Outcome.next ((State.command_runs s .ctrl 0x12 tag _ hr hs).trans ?_)
  rw [hd]
  rfl

/-- The device d with slot i of the rigging flash written. -/
def Dev.slotWritten (d : Dev) (i : Nat) (img : List Byte) : Dev :=
  { d with rig := { d.rig with slots := tput d.rig.slots i img, prog := some i } }

section
variable {tag : Word} {addr : DWord} {len slot : Word} {s : State} {r : State × List Byte} {secs : List Section}
  (hr : s.dev.mayRun .flash 0x13 tag = true) (hs : s.dev.sys.sup ≠ .halted) (ha : aligned16 addr = true) (hslot : slot.toNat ≤ 1)
  (hb : s.dev.rigBusy .flash = false) (hstage : s.stage addr len = r)
  (hv : rigValidate s.dev.variant.ports 0 r.1.dev.rig.live r.2 = .ok secs)
include hr hs ha hslot hb hstage hv

/-- The read-back agrees: the slot holds the image. -/
theorem exec_rigProgram_good :
    ∃ d : Dev, exec (.rigProgram tag addr len slot true) s = .next { r.1 with dev := d.finish .flash 0x13 tag Res.ok.code 0 } ∧
      d.rig.live = r.1.dev.rig.live ∧ tfind d.rig.slots slot.toNat = some (r.2.take (leAt r.2 8 4)) ∧
      (∀ k : Nat, k ≠ slot.toNat → tfind d.rig.slots k = tfind r.1.dev.rig.slots k) ∧ d.regs = r.1.dev.regs := by
  have body : s.rigProgram addr len slot true =
      (r.1.onDev (fun d => d.slotWritten slot.toNat (r.2.take (leAt r.2 8 4))), .ok, 0) := by
    simp [State.rigProgram, ha, hb, hstage, hv, hslot, Dev.slotWritten]
  refine ⟨r.1.dev.slotWritten slot.toNat (r.2.take (leAt r.2 8 4)),
    congrArg Host.Outcome.next ((State.command_runs s .flash 0x13 tag _ hr hs).trans ?_), rfl, tfind_tput_self _ _ _,
    fun k hk => tfind_tput_ne _ _ _ _ hk.symm, rfl⟩
  rw [body]
  rfl

/-- The read-back differs: the slot holds one thing or another. -/
theorem exec_rigProgram_bad :
    ∃ d : Dev, exec (.rigProgram tag addr len slot false) s = .next { r.1 with dev := d.finish .flash 0x13 tag Res.flashFail.code 0 } ∧
      d.rig.live = r.1.dev.rig.live ∧ (∀ k : Nat, k ≠ slot.toNat → tfind d.rig.slots k = tfind r.1.dev.rig.slots k) ∧
      d.regs = r.1.dev.regs := by
  obtain ⟨held, body⟩ : ∃ held, s.rigProgram addr len slot false =
      (r.1.onDev (fun d => d.free.2.slotWritten slot.toNat held), .flashFail, 0) := by
    refine ⟨if r.1.dev.free.1 % 2 == 0 then r.2.take (leAt r.2 8 4) else [], ?_⟩
    simp [State.rigProgram, ha, hb, hstage, hv, hslot, Dev.slotWritten, State.onDev]
  refine ⟨r.1.dev.free.2.slotWritten slot.toNat held,
    congrArg Host.Outcome.next ((State.command_runs s .flash 0x13 tag _ hr hs).trans ?_), rfl,
    fun k hk => tfind_tput_ne _ _ _ _ hk.symm, rfl⟩
  rw [body]
  rfl

end

/-- Settles O22: arming a swap does not end the late window, so RIG_STAT.LATE shows it; a swap that goes live is followed by a judgement of the
role, which leaves the rigging alone; a slot that is written is one entry of the table of slots. -/
theorem swapsAndSlots : Obligations.SwapsAndSlots := by
  refine ⟨⟨?swap, ?cancel⟩, ?program⟩
  case swap =>
    intro tag addr len s secs hr hs ha hb r hv
    refine ⟨fun hp => ?_, fun hp => ?_⟩
    · obtain ⟨d, hd, hrig, hstate, hid, hlate, hevr, hkeep⟩ := r.1.dev.swapArm_arms ⟨f32At r.2 0x10, secs⟩ hp
      exact ⟨d, exec_rigSwap hr hs ha hb rfl hv hd, hrig, hstate, hid, hlate, hevr, hkeep⟩
    · have judged := (r.1.dev.swapLive ⟨f32At r.2 0x10, secs⟩ false).roleOnly_retestJoin
      refine ⟨_, exec_rigSwap hr hs ha hb rfl hv (Dev.swapArm_idle _ hp), ?_, ?_, ?_⟩
      · rw [judged.rig, Dev.swapLive_live]
      · rw [judged.rig, Dev.swapLive_armed]
      · rw [judged.rigState, Dev.swapLive_state]
  case cancel =>
    intro tag s hr hs
    refine ⟨fun hl => exec_rigCancel hr hs (Dev.rigCancel_latched hl),
      fun hl ha => exec_rigCancel hr hs (Dev.rigCancel_none hl ha), fun w hl ha => ?_⟩
    refine ⟨_, exec_rigCancel hr hs (Dev.rigCancel_armed hl ha), rfl, ?_, ?_⟩
    · rw [Dev.get_put_ne _ _ _ _ (by decide), Dev.get_put_self]
      rfl
    · exact regsKeep_trans (regsKeep_put { s.dev with rig := { s.dev.rig with armed := none } } _ _ (by simp))
        (regsKeep_put _ _ _ (by simp))
  case program =>
    intro tag addr len slot s secs hr hs ha hslot hb r hv
    exact ⟨exec_rigProgram_good hr hs ha hslot hb rfl hv, exec_rigProgram_bad hr hs ha hslot hb rfl hv⟩

end Sys2Proof.Machine

/-! # DRAM stays in canonical form (03_bed_data.md R84)

A row reaches DRAM in one of four ways: through `dramWrite` or `hostWrite` of its own, through the writes that `runDev` lets land at its end, through
an error that a read meets, which marks bytes and changes none, or through a full reset, which empties DRAM. Each of them keeps the canonical form,
and every other row leaves DRAM as it is. -/

namespace Sys2Proof.Machine

open Sys2Proof.Safety

/-- A change of the device keeps memory's canonical form. -/
theorem State.onDev_wf (s : State) (f : Dev → Dev) (h : s.mem.wf = true) : (s.onDev f).mem.wf = true := h

/-- Another device beside the same memory keeps its canonical form. -/
theorem State.setDev_wf (s : State) (d : Dev) (h : s.mem.wf = true) : ({ s with dev := d } : State).mem.wf = true := h

/-- Where each of two outcomes keeps the canonical form, so does the choice between them. -/
theorem State.ite_wf {α : Type} {p : Prop} [Decidable p] {x y : State × α} (hx : x.1.mem.wf = true) (hy : y.1.mem.wf = true) :
    (if p then x else y).1.mem.wf = true := by
  split <;> assumption

/-! ## Reads leave DRAM as it is -/

theorem State.dramRead_mem {s t : State} {src a n : Nat} {r : List Byte × Bool} (e : s.dramRead src a n = (t, r)) : t.mem = s.mem := by
  have key : (s.dramRead src a n).1.mem = s.mem := by
    unfold State.dramRead
    split
    · exact s.onDev_mem _
    · split <;> exact s.onDev_mem _
  rw [e] at key
  exact key

theorem State.imageRead_mem {s t : State} {a n : Nat} {r : List Byte × Bool} (e : s.imageRead a n = (t, r)) : t.mem = s.mem := by
  unfold State.imageRead at e
  split at e
  · exact State.dramRead_mem (s := { s with dev := s.dev.free.2 }) e
  · exact State.dramRead_mem e

theorem State.stage_mem {s t : State} {addr : DWord} {len : Word} {img : List Byte} (e : s.stage addr len = (t, img)) : t.mem = s.mem := by
  rcases r : s.imageRead addr.toNat (min len.toNat 4194304) with ⟨u, bs, ok⟩
  rw [State.stage, r] at e
  obtain ⟨rfl, -⟩ := Prod.mk.inj e
  exact State.imageRead_mem r

/-! ## Commands that load an image -/

theorem State.loopLoad_wf (s : State) (addr : DWord) (len : Word) (h : s.mem.wf = true) : (s.loopLoad addr len).1.mem.wf = true := by
  rcases r : s.imageRead addr.toNat (min len.toNat 65600) with ⟨t, bs, ok⟩
  have ht : t.mem.wf = true := (State.imageRead_mem r).symm ▸ h
  rw [State.loopLoad, r]
  refine State.ite_wf h (State.ite_wf h (State.ite_wf ht ?_))
  split <;> exact t.setDev_wf _ ht

theorem State.corrLoad_wf (s : State) (port : Word) (addr : DWord) (len : Word) (h : s.mem.wf = true) :
    (s.corrLoad port addr len).1.mem.wf = true := by
  rcases r : s.imageRead addr.toNat (min len.toNat (64 + corrPayLen)) with ⟨t, bs, ok⟩
  have ht : t.mem.wf = true := (State.imageRead_mem r).symm ▸ h
  rw [State.corrLoad, r]
  refine State.ite_wf h (State.ite_wf h (State.ite_wf h ?_))
  dsimp only
  split <;> exact t.setDev_wf _ ht

theorem State.axsLoad_wf (s : State) (addr : DWord) (len : Word) (h : s.mem.wf = true) : (s.axsLoad addr len).1.mem.wf = true := by
  rcases r : s.imageRead addr.toNat (min len.toNat 4416) with ⟨t, bs, ok⟩
  have ht : t.mem.wf = true := (State.imageRead_mem r).symm ▸ h
  rw [State.axsLoad, r]
  refine State.ite_wf h (State.ite_wf h ?_)
  dsimp only
  split
  · exact t.setDev_wf _ ht
  · exact State.ite_wf ht (t.setDev_wf _ ht)

theorem State.rigLoad_wf (s : State) (tag : Word) (addr : DWord) (len : Word) (h : s.mem.wf = true) :
    (s.rigLoad tag addr len).1.mem.wf = true := by
  rcases r : s.stage addr len with ⟨t, img⟩
  have ht : t.mem.wf = true := (State.stage_mem r).symm ▸ h
  rw [State.rigLoad, r]
  refine State.ite_wf h (State.ite_wf h (State.ite_wf h ?_))
  dsimp only
  split <;> exact t.onDev_wf _ ht

theorem State.rigSwap_wf (s : State) (addr : DWord) (len : Word) (h : s.mem.wf = true) : (s.rigSwap addr len).1.mem.wf = true := by
  rcases r : s.stage addr len with ⟨t, img⟩
  have ht : t.mem.wf = true := (State.stage_mem r).symm ▸ h
  rw [State.rigSwap, r]
  refine State.ite_wf h (State.ite_wf h ?_)
  dsimp only
  split
  · exact t.onDev_wf _ ht
  · exact t.setDev_wf _ ht

theorem State.rigProgram_wf (s : State) (addr : DWord) (len slot : Word) (good : Bool) (h : s.mem.wf = true) :
    (s.rigProgram addr len slot good).1.mem.wf = true := by
  rcases r : s.stage addr len with ⟨t, img⟩
  have ht : t.mem.wf = true := (State.stage_mem r).symm ▸ h
  rw [State.rigProgram, r]
  refine State.ite_wf h (State.ite_wf h ?_)
  dsimp only
  split
  · exact t.onDev_wf _ ht
  · exact State.ite_wf (t.onDev_wf _ ht) (t.onDev_wf _ ht)

/-! ## Writes of the host and of reports -/

/-- One part of a write by the host keeps memory's canonical form. -/
theorem State.hostPart_wf (src : Nat) (s : State) (x : Nat × List Byte) (h : s.mem.wf = true) : (State.hostPart src s x).mem.wf = true := by
  cases hb : s.dev.lockedBuf src x.1 x.2.length with
  | some n =>
    rw [State.hostPart_refused hb]
    exact s.onDev_wf _ h
  | none =>
    rw [State.hostPart_writes hb rfl]
    exact s.dramWrite_wf src _ _ h

/-- A write by the host keeps memory's canonical form. -/
theorem State.hostWrite_wf (s : State) (src a : Nat) (bs : List Byte) (h : s.mem.wf = true) : (s.hostWrite src a bs).1.mem.wf = true := by
  unfold State.hostWrite
  split
  · exact s.onDev_wf _ h
  split
  · exact List.foldlRecOn (motive := fun t : State => t.mem.wf = true) _ _ h (fun t ht x _ => t.hostPart_wf src x ht)
  · exact s.dramWrite_wf src a bs h

/-- A DMA channel that takes a descriptor keeps memory's canonical form. -/
theorem State.dmaTake_wf (s : State) (c : Nat) (desc : List Byte) (host : Option (List Byte)) (h : s.mem.wf = true) :
    (s.dmaTake c desc host).mem.wf = true := by
  unfold State.dmaTake
  generalize dmaParse desc = x
  dsimp only
  split
  · exact h
  split
  · exact s.onDev_wf _ h
  split
  · exact s.onDev_wf _ h
  split
  · exact s.onDev_wf _ h
  split
  · rcases r : s.dramRead (0x40 + c) (s.dev.dmaAddr x) x.len with ⟨t, bs, ok⟩
    exact t.onDev_wf _ ((State.dramRead_mem r).symm ▸ h)
  cases host with
  | none => exact s.onDev_wf _ h
  | some bs => exact State.onDev_wf _ _ (s.hostWrite_wf _ _ _ h)

/-- Records written one after another keep memory's canonical form. -/
theorem State.writeRecs_wf (src : Nat) (l : List Rec) : ∀ (s : State) (a : Nat), s.mem.wf = true → (s.writeRecs src a l).mem.wf = true := by
  induction l with
  | nil => exact fun _ _ h => h
  | cons r l ih =>
    intro s a h
    rw [State.writeRecs]
    exact ih _ _ (s.dramWrite_wf src a _ h)

theorem State.logFetch_wf (s : State) (start count : Word) (addr : DWord) (h : s.mem.wf = true) :
    (s.logFetch start count addr).1.mem.wf = true := by
  unfold State.logFetch
  exact State.ite_wf h (State.writeRecs_wf _ _ s _ h)

/-- A report's entries, written one after another, keep memory's canonical form. -/
theorem State.writeReport_wf (l : List (Nat × Nat)) : ∀ (s : State) (a : Nat), s.mem.wf = true → (s.writeReport a l).mem.wf = true := by
  induction l with
  | nil => exact fun _ _ h => h
  | cons x l ih =>
    intro s a h
    rw [State.writeReport]
    exact ih _ _ (s.dramWrite_wf 0x5A a _ h)

theorem State.coverCheck_wf (s : State) (n : Nat) (g : Word) (addr : DWord) (h : s.mem.wf = true) :
    (s.coverCheck n g addr).1.mem.wf = true := by
  unfold State.coverCheck
  exact State.ite_wf h (State.ite_wf h (State.ite_wf h (State.writeReport_wf _ s _ h)))

/-! ## The DRAM controller (R328, R333, R335) -/

/-- An uncorrectable error marks bytes and changes none. -/
theorem Dram.spoil_wf (m : Dram) (a : Nat) : (m.spoil a).wf = m.wf := m.wf_poison _

theorem State.eccRead_wf (s : State) (src a : Nat) (ecc : Ecc) (h : s.mem.wf = true) : (s.eccRead src a ecc).mem.wf = true := by
  unfold State.eccRead
  cases ecc with
  | clean => exact h
  | corrected => exact s.onDev_wf _ h
  | uncorrectable =>
    dsimp only
    split
    · exact s.onDev_wf _ h
    · exact (s.mem.spoil_wf a).trans h

/-- A request that is served keeps memory's canonical form: a write as every write does, a read by what its error marks. -/
theorem State.serve_wf (s : State) (w : DdrWait) (ecc : Ecc) (h : s.mem.wf = true) : (s.serve w ecc).mem.wf = true := by
  unfold State.serve
  dsimp only
  split
  · apply State.onDev_wf
    split
    · exact State.hostWrite_wf _ _ _ _ (s.onDev_wf _ h)
    · exact State.dramWrite_wf _ _ _ _ (s.onDev_wf _ h)
  · split
    · exact s.onDev_wf _ h
    split
    · exact s.onDev_wf _ h
    · exact State.onDev_wf _ _ (State.eccRead_wf _ _ _ ecc (s.onDev_wf _ h))

theorem State.serveNext_wf (s : State) (w : DdrWait) (e : DramEnd) (h : s.mem.wf = true) : (s.serveNext w e).mem.wf = true := by
  unfold State.serveNext
  dsimp only
  split
  · exact State.serve_wf _ w _ (State.onDev_wf _ _ (s.onDev_wf _ h))
  · exact State.serve_wf _ w _ (s.onDev_wf _ h)

theorem State.dramRequest_wf (s : State) (r : Option DramReq) (e : DramEnd) (h : s.mem.wf = true) : (s.dramRequest r e).mem.wf = true := by
  unfold State.dramRequest
  split
  · split
    · exact s.onDev_wf _ h
    · exact h
  · split
    · exact s.serveNext_wf _ e h
    · exact h

theorem State.scrubStep_wf (s : State) (ecc : Ecc) (h : s.mem.wf = true) : (s.scrubStep ecc).mem.wf = true := by
  unfold State.scrubStep
  extract_lets d c o st s1
  split
  · exact h
  split
  · exact s.onDev_wf _ h
  refine State.onDev_wf _ _ (State.onDev_wf _ _ ?_)
  unfold s1
  split
  · exact h
  · exact s.onDev_wf _ h
  · split
    · exact s.onDev_wf _ h
    · exact (s.mem.spoil_wf _).trans h
  · exact s.onDev_wf _ h

/-! ## Commands that go on running, and resets -/

/-- A command that starts keeps the canonical form of DRAM where its body does. -/
theorem State.commandStart_wf (s : State) (l : Lane) (op : Nat) (tag : Word) (words : List Word)
    (body : State → State × Option (Res × DWord)) (hs : s.mem.wf = true) (h : (body s).1.mem.wf = true) :
    (s.commandStart l op tag words body).mem.wf = true := by
  unfold State.commandStart
  split
  case isFalse => exact hs
  split
  · exact s.onDev_wf _ hs
  rcases hb : body s with ⟨t, _ | ⟨r, v⟩⟩ <;> rw [hb] at h <;> exact t.onDev_wf _ h

theorem State.hstReset_wf (s : State) (tag key : Word) (h : s.mem.wf = true) : (s.hstReset tag key).mem.wf = true := by
  unfold State.hstReset
  split
  case isFalse => exact h
  split <;> exact s.onDev_wf _ h

/-- A full reset empties DRAM. -/
theorem State.fullReset_wf (s : State) (c : ResetCause) (h : s.mem.wf = true) : (s.fullReset c).mem.wf = true := by
  unfold State.fullReset
  split
  · exact Dram.wf_nil []
  · exact h

/-! ## The rows -/

theorem exec_bar2Read_wf (off : BitVec 28) (len : Nat) (s : State) (h : s.mem.wf = true) :
    ∃ t : State, exec (.bar2Read off len) s = .next t ∧ t.mem.wf = true := by
  rcases r : s.dramRead 0x44 (s.dev.bar2Addr off) len with ⟨t, bs, ok⟩
  exact ⟨_, exec_bar2Read rfl r, t.onDev_wf _ ((State.dramRead_mem r).symm ▸ h)⟩

theorem exec_bufSeal_wf (tag n g : Word) (s : State) (h : s.mem.wf = true) :
    ∃ t : State, exec (.bufSeal tag n g) s = .next t ∧ t.mem.wf = true := by
  by_cases hw : s.dev.rig.staged.isSome = true
  · exact ⟨s, if_pos hw, h⟩
  · refine ⟨_, if_neg hw, s.commandStart_wf _ _ _ _ _ h ?_⟩
    split <;> exact s.setDev_wf _ h

/-- Every command answers a next state, and keeps the canonical form of DRAM. -/
theorem exec_next_wf (i : Instr) (s : State) (h : s.mem.wf = true) : ∃ t : State, exec i s = .next t ∧ t.mem.wf = true := by
  cases i with
  -- rows whose writes land at their end
  | pairFailure | pTick | syncTimeout | takeoverStart | tTick | inboundFrame | missingFrame | laserSourceFault | prefetchUnderrun | qrecWrite
  | shedStep | tempConversion | sensorRestore | shutdownReport | blindLimitExpire | dieTempRead | camFrameEnd | compareValueLive | qeSample
  | bedBoundary | controlDieBridgeSilence | sramScrubStep | sliceEnd | telPeriod
  | registerWrite | dmaHeadWrite | loopnYyArm | loopnCapStart | cammTrigFire | hndFtRelease | ptpAccept | ptpSnap | ledApply | ledEnWrite
  | qeePreset | qeeRearm | axsaEnWrite | axsaGo | axsaStop | axsaBndgo | evrCursorWrite | evrNext | evrFreezeWrite =>
    exact ⟨_, rfl, s.runDev_wf _ h⟩
  -- commands that change the device alone
  | nop => exact ⟨_, rfl, s.command_wf _ _ _ _ h h⟩
  | rigCancel | bufOpen | bufDiscard | bedCommit | bedUncommit | bedAbort => exact ⟨_, rfl, s.command_wf _ _ _ _ h (s.setDev_wf _ h)⟩
  | bedRecoated => exact ⟨_, rfl, s.command_wf _ _ _ _ h (State.ite_wf (s.setDev_wf _ h) h)⟩
  | fence => exact ⟨_, rfl, s.commandStart_wf _ _ _ _ _ h (State.ite_wf h (s.onDev_wf _ h))⟩
  | bufSeal tag n g => exact exec_bufSeal_wf tag n g s h
  -- commands that read an image
  | rigLoad => exact ⟨_, rfl, s.commandStart_wf _ _ _ _ _ h (s.rigLoad_wf _ _ _ h)⟩
  | rigSwap => exact ⟨_, rfl, s.command_wf _ _ _ _ h (s.rigSwap_wf _ _ h)⟩
  | rigProgram => exact ⟨_, rfl, s.command_wf _ _ _ _ h (s.rigProgram_wf _ _ _ _ h)⟩
  | corrLoad => exact ⟨_, rfl, s.command_wf _ _ _ _ h (s.corrLoad_wf _ _ _ h)⟩
  | loopLoad => exact ⟨_, rfl, s.command_wf _ _ _ _ h (s.loopLoad_wf _ _ h)⟩
  | axsLoad => exact ⟨_, rfl, s.command_wf _ _ _ _ h (s.axsLoad_wf _ _ h)⟩
  -- commands and rows that reach DRAM themselves
  | logFetch => exact ⟨_, rfl, s.command_wf _ _ _ _ h (s.logFetch_wf _ _ _ h)⟩
  | coverCheck => exact ⟨_, rfl, s.command_wf _ _ _ _ h (s.coverCheck_wf _ _ _ h)⟩
  | bar2Read off len => exact exec_bar2Read_wf off len s h
  | bar2Write => exact ⟨_, rfl, s.hostWrite_wf _ _ _ h⟩
  | dmaDescriptor => exact ⟨_, rfl, s.dmaTake_wf _ _ _ h⟩
  | dramRequest => exact ⟨_, rfl, s.dramRequest_wf _ _ h⟩
  | dramScrubStep => exact ⟨_, rfl, s.scrubStep_wf _ h⟩
  -- resets
  | hstReset => exact ⟨_, rfl, s.hstReset_wf _ _ h⟩
  | fullReset => exact ⟨_, rfl, s.fullReset_wf _ h⟩
  -- the other rows change the device alone
  | _ => exact ⟨_, rfl, s.onDev_wf _ h⟩

/-- Settles O3: `exec_next_wf` says it of every command, and an idle step changes nothing. -/
theorem stepKeepsMemoryCanonical : Obligations.StepKeepsMemoryCanonical := by
  intro s t h e
  unfold step at e
  split at e
  · obtain rfl := Host.Outcome.next.inj e
    exact h
  case h_2 c rest _ =>
    obtain ⟨u, hu, hwf⟩ := exec_next_wf c { s with pending := rest } h
    obtain rfl := Host.Outcome.next.inj (hu.symm.trans e)
    exact hwf

end Sys2Proof.Machine

/-! # Opening, discarding and releasing a buffer (03_bed_data.md R83 to R90)

The fields of a buffer's registers stand at places of their own (`Dev.get_put_apart`), so the fields that a row sets do not disturb each other, and a
buffer that reaches FREE without a pending open changes its state alone (`Dev.bufFree_of_not_pending`). -/

namespace Sys2Proof.Machine

open Sys2Proof.Safety

/-! ## The fields of a buffer -/

/-- Setting one field of a buffer leaves those at other places of its registers alone. -/
theorem Dev.get_put_apart {F G : Nat → Fld} (h : ∀ n < 16, (F n).key ≠ (G n).key) {n : Nat} (hn : n < 16) (d : Dev) (v : Nat) :
    (d.put (F n) v).get (G n) = d.get (G n) := Dev.get_put_ne d _ _ v (h n hn)

/-- The fields of a buffer that enters FILLING. -/
def fillFlds (n : Nat) : List Fld :=
  [F.BED_BUFn_STAT_STATE n, F.BED_BUFn_GEN_GEN n, F.BED_BUFn_ERR_CHECK n, F.BED_BUFn_ERR_INDEX n, F.BED_BUFn_DROPS_COUNT n]

/-- One more field of `fs` was set. -/
theorem regsKeep_setField {fs : List Fld} {d d' : Dev} (k : regsKeep fs d d') {F : Fld} (v : Nat) (h : F ∈ fs) : regsKeep fs d (d'.put F v) :=
  regsKeep_trans k (regsKeep_put d' F v h)

theorem Dev.bufFill_regsKeep (d : Dev) (n g : Nat) : regsKeep (fillFlds n) d (d.bufFill n g) := by
  have state := regsKeep_put (fs := fillFlds n) d (F.BED_BUFn_STAT_STATE n) 1 (by simp [fillFlds])
  have gen := regsKeep_setField state (F := F.BED_BUFn_GEN_GEN n) g (by simp [fillFlds])
  have check := regsKeep_setField gen (F := F.BED_BUFn_ERR_CHECK n) 0 (by simp [fillFlds])
  have index := regsKeep_setField check (F := F.BED_BUFn_ERR_INDEX n) 0 (by simp [fillFlds])
  exact regsKeep_setField index _ (by simp [fillFlds])

theorem Dev.bufFill_drops (d : Dev) (n g : Nat) : (d.bufFill n g).get (F.BED_BUFn_DROPS_COUNT n) = 0 := by
  rw [Dev.bufFill, Dev.get_put_self]
  rfl

section
variable (d : Dev) {n : Nat} (hn : n < 16)
include hn

theorem Dev.bufFill_state (g : Nat) : (d.bufFill n g).get (F.BED_BUFn_STAT_STATE n) = 1 := by
  rw [Dev.bufFill, Dev.get_put_apart (by decide) hn, Dev.get_put_apart (by decide) hn, Dev.get_put_apart (by decide) hn,
    Dev.get_put_apart (by decide) hn, Dev.get_put_self]
  rfl

theorem Dev.bufFill_gen (g : Word) : (d.bufFill n g.toNat).get (F.BED_BUFn_GEN_GEN n) = g.toNat := by
  rw [Dev.bufFill, Dev.get_put_apart (by decide) hn, Dev.get_put_apart (by decide) hn, Dev.get_put_apart (by decide) hn, Dev.get_put_self]
  exact Nat.mod_eq_of_lt g.isLt

theorem Dev.bufFill_check (g : Nat) : (d.bufFill n g).get (F.BED_BUFn_ERR_CHECK n) = 0 := by
  rw [Dev.bufFill, Dev.get_put_apart (by decide) hn, Dev.get_put_apart (by decide) hn, Dev.get_put_self]
  rfl

/-- A buffer that reaches FREE without a pending open stays FREE (R84, R90). -/
theorem Dev.bufFree_of_not_pending (hp : d.get (F.BED_BUFn_STAT_PEND n) = 0) : d.bufFree n = d.put (F.BED_BUFn_STAT_STATE n) 0 := by
  have still : (d.put (F.BED_BUFn_STAT_STATE n) 0).get (F.BED_BUFn_STAT_PEND n) = 0 := by rw [Dev.get_put_apart (by decide) hn, hp]
  rw [Dev.bufFree, Dev.deferredStart, if_neg]
  simp [still]

end

/-! ## BUF_OPEN (R87 to R90) -/

section
variable {d : Dev} {n : Nat} {g : Word}

theorem Dev.bufOpen_param (hn : 16 ≤ n) : d.bufOpen n g = (d, .param) := if_pos hn

theorem Dev.bufOpen_stale (hn : n < 16) (hg : d.genNew n g = false) : d.bufOpen n g = (d, .stale) := by
  simp [Dev.bufOpen, Nat.not_le.mpr hn, hg]

theorem Dev.bufOpen_busy (hn : n < 16) (hg : d.genNew n g = true) (hp : d.get (F.BED_BUFn_STAT_PEND n) = 1) :
    d.bufOpen n g = (d, .busy) := by
  simp [Dev.bufOpen, Nat.not_le.mpr hn, hg, hp]

theorem Dev.bufOpen_range (hn : n < 16) (hg : d.genNew n g = true) (hp : d.get (F.BED_BUFn_STAT_PEND n) = 0)
    (hb : d.badPlacement n = true) : d.bufOpen n g = (d, .range) := by
  simp [Dev.bufOpen, Nat.not_le.mpr hn, hg, hp, hb]

/-- The device with an open of generation g pending for buffer n, and the event that says so. -/
def Dev.openDeferred (d : Dev) (n : Nat) (g : Word) : Dev :=
  ((d.put (F.BED_BUFn_STAT_PEND n) 1).put (F.BED_BUFn_PEND_GEN_GEN n) g.toNat).raise 0x0221 0x03 0 n g.toNat (d.get (F.BED_BUFn_STAT_STATE n))

theorem Dev.bufOpen_deferred (hn : n < 16) (hg : d.genNew n g = true) (hp : d.get (F.BED_BUFn_STAT_PEND n) = 0)
    (hb : d.badPlacement n = false) (hs : d.get (F.BED_BUFn_STAT_STATE n) ≠ 0) : d.bufOpen n g = (d.openDeferred n g, .deferred) := by
  simp [Dev.bufOpen, Nat.not_le.mpr hn, hg, hp, hb, hs, Dev.openDeferred, b2n]

theorem Dev.bufOpen_ok (hn : n < 16) (hg : d.genNew n g = true) (hp : d.get (F.BED_BUFn_STAT_PEND n) = 0)
    (hb : d.badPlacement n = false) (hs : d.get (F.BED_BUFn_STAT_STATE n) = 0) : d.bufOpen n g = (d.bufFill n g.toNat, .ok) := by
  simp [Dev.bufOpen, Nat.not_le.mpr hn, hg, hp, hb, hs]

theorem Dev.openDeferred_pend (hn : n < 16) : (d.openDeferred n g).get (F.BED_BUFn_STAT_PEND n) = 1 := by
  have apart : ∀ n < 16, (F.BED_BUFn_STAT_PEND n).key ∉ recFlds.map Fld.key := by decide
  rw [Dev.openDeferred, Dev.get_raise _ _ _ _ _ _ _ _ (apart n hn), Dev.get_put_apart (by decide) hn, Dev.get_put_self]
  rfl

theorem Dev.openDeferred_gen (hn : n < 16) : (d.openDeferred n g).get (F.BED_BUFn_PEND_GEN_GEN n) = g.toNat := by
  have apart : ∀ n < 16, (F.BED_BUFn_PEND_GEN_GEN n).key ∉ recFlds.map Fld.key := by decide
  rw [Dev.openDeferred, Dev.get_raise _ _ _ _ _ _ _ _ (apart n hn), Dev.get_put_self]
  exact Nat.mod_eq_of_lt g.isLt

theorem Dev.openDeferred_recorded (hn : n < 16) :
    recorded d (d.openDeferred n g) 0x0221 0x03 0 n g.toNat (d.get (F.BED_BUFn_STAT_STATE n)) := by
  have pend : ∀ n < 16, (F.BED_BUFn_STAT_PEND n).key ≠ F.EVR_STAT_LASTGASP.key := by decide
  have gen : ∀ n < 16, (F.BED_BUFn_PEND_GEN_GEN n).key ≠ F.EVR_STAT_LASTGASP.key := by decide
  rw [recorded, Dev.openDeferred, Dev.put_raise_evr _ _ _ _ _ _ _ _ _ (gen n hn), Dev.put_raise_evr _ _ _ _ _ _ _ _ _ (pend n hn)]

theorem Dev.openDeferred_frame : d.openDeferred n g = { d with regs := (d.openDeferred n g).regs, evr := (d.openDeferred n g).evr } :=
  Dev.raise_eq _ _ _ _ _ _ _

theorem Dev.openDeferred_regsKeep :
    regsKeep (recFlds ++ [F.BED_BUFn_STAT_PEND n, F.BED_BUFn_PEND_GEN_GEN n]) d (d.openDeferred n g) :=
  regsKeep_trans (regsKeep_trans (regsKeep_put _ _ _ (by simp)) (regsKeep_put _ _ _ (by simp)))
    (regsKeep_raise _ _ _ _ _ _ _ (fun _ h => List.mem_append_left _ h))

end

/-! ## BUF_DISCARD (R87 to R90) -/

section
variable {d : Dev} {n : Nat} {g : Word} (hn : n < 16)
include hn

/-- The pending open of the generation named is cancelled. -/
theorem Dev.bufDiscard_cancels (hl : d.get (F.BED_BUFn_STAT_SEALING n) = 0) (hp : d.get (F.BED_BUFn_STAT_PEND n) = 1)
    (hg : d.getW (F.BED_BUFn_PEND_GEN_GEN n) = g) :
    d.bufDiscard n g = ((d.put (F.BED_BUFn_STAT_PEND n) 0).put (F.BED_BUFn_PEND_GEN_GEN n) 0, .ok) := by
  rw [Dev.getW_eq] at hg
  simp [Dev.bufDiscard, Nat.not_le.mpr hn, hl, hp, hg, b2n]

variable (hp : d.get (F.BED_BUFn_STAT_PEND n) = 0)
include hp

theorem Dev.bufDiscard_stale (hg : d.genIs n g = false) : d.bufDiscard n g = (d, .stale) := by
  simp [Dev.bufDiscard, Nat.not_le.mpr hn, hp, hg]

variable (hg : d.genIs n g = true) (hl : d.get (F.BED_BUFn_STAT_SEALING n) = 0)
include hg hl

/-- A FILLING or READY buffer becomes FREE. -/
theorem Dev.bufDiscard_frees (hs : d.get (F.BED_BUFn_STAT_STATE n) = 1 ∨ d.get (F.BED_BUFn_STAT_STATE n) = 2) :
    d.bufDiscard n g = (d.put (F.BED_BUFn_STAT_STATE n) 0, .ok) := by
  simp [Dev.bufDiscard, Nat.not_le.mpr hn, hp, hg, hl, hs, d.bufFree_of_not_pending hn hp]

theorem Dev.bufDiscard_state (hs : 3 ≤ d.get (F.BED_BUFn_STAT_STATE n)) : d.bufDiscard n g = (d, .state) := by
  have h1 : d.get (F.BED_BUFn_STAT_STATE n) ≠ 1 := by omega
  have h2 : d.get (F.BED_BUFn_STAT_STATE n) ≠ 2 := by omega
  simp [Dev.bufDiscard, Nat.not_le.mpr hn, hp, hg, hl, h1, h2]

end

/-! ## BUFFER_RELEASE (R79, R85) -/

/-- The Control Bar without the bed in buffer n. -/
def Bar.without (x : Bar) (n : Nat) : Bar :=
  { x with
    beds := tdel x.beds n
    cur := if x.cur == some n then none else x.cur
    old := if x.old == some n then none else x.old }

theorem Bar.without_cur (x : Bar) (n : Nat) : (x.without n).cur ≠ some n := by
  unfold Bar.without
  split <;> simp_all

theorem Bar.without_old (x : Bar) (n : Nat) : (x.without n).old ≠ some n := by
  unfold Bar.without
  dsimp only
  split <;> simp_all

/-- The device with the parameter bank of the bed b in buffer n released. -/
def Dev.bankFreed (d : Dev) (n : Nat) (b : Bed) : Dev :=
  { d with bar := { d.bar with beds := tput d.bar.beds n { b with bank := none, psets := [] } } }

theorem Dev.bankFreed_bed (d : Dev) (n : Nat) (b : Bed) : (d.bankFreed n b).bed? n = some { b with bank := none, psets := [] } :=
  tfind_tput_self _ _ _

section
variable {d : Dev} {n : Nat} {b : Bed} (hb : d.bed? n = some b)
include hb

/-- Releasing the bank leaves what keeps a bed busy alone. -/
theorem Dev.bankFreed_busy : (d.bankFreed n b).bedBusy n = d.bedBusy n := by
  rw [Dev.bedBusy, Dev.bedBusy, d.bankFreed_bed, hb]
  rfl

theorem Dev.bankRelease_done (h5 : d.get (F.BED_BUFn_STAT_STATE n) = 5) (hi : d.bedBusy n = false) (hv : b.verified = true) :
    d.bankRelease n = d.bankFreed n b := by
  have done : d.bankDone n b = true := by simp [Dev.bankDone, h5, hi, hv]
  have found : tfind d.bar.beds n = some b := hb
  simp [Dev.bankRelease, hb, done, Dev.updBed, found, Dev.bankFreed]

/-- A RETIRING buffer whose bed nothing needs any more becomes FREE, and its bed is dropped. -/
theorem Dev.bufferRelease_done (hn : n < 16) (h5 : d.get (F.BED_BUFn_STAT_STATE n) = 5) (hi : d.bedBusy n = false) (hv : b.verified = true)
    (hr : b.allRecorded = true) (hp : d.get (F.BED_BUFn_STAT_PEND n) = 0) :
    d.bufferRelease n = ({ d with bar := (d.bankFreed n b).bar.without n }).put (F.BED_BUFn_STAT_STATE n) 0 := by
  have recd : ({ b with bank := none, psets := [] } : Bed).allRecorded = true := hr
  have idle := (Dev.bankFreed_busy hb).trans hi
  rw [Dev.bufferRelease, if_pos (beq_iff_eq.mpr h5), Dev.bankRelease_done hb h5 hi hv]
  dsimp only
  rw [d.bankFreed_bed]
  dsimp only
  rw [if_pos (by simp [recd, idle])]
  exact Dev.bufFree_of_not_pending { d with bar := (d.bankFreed n b).bar.without n } hn hp

end

/-! ## The rows -/

theorem exec_bufOpen {tag n g : Word} {s : State} (hr : s.dev.mayRun .buf 0x20 tag = true) (hs : s.dev.sys.sup ≠ .halted) {d : Dev} {res : Res}
    (hd : s.dev.bufOpen n.toNat g = (d, res)) :
    exec (.bufOpen tag n g) s = .next { s with dev := d.finish .buf 0x20 tag res.code 0 } := by
  refine congrArg Host.Outcome.next ((State.command_runs s .buf 0x20 tag _ hr hs).trans ?_)
  rw [hd]
  rfl

theorem exec_bufDiscard {tag n g : Word} {s : State} (hr : s.dev.mayRun .buf 0x22 tag = true) (hs : s.dev.sys.sup ≠ .halted) {d : Dev}
    {res : Res} (hd : s.dev.bufDiscard n.toNat g = (d, res)) :
    exec (.bufDiscard tag n g) s = .next { s with dev := d.finish .buf 0x22 tag res.code 0 } := by
  refine congrArg Host.Outcome.next ((State.command_runs s .buf 0x22 tag _ hr hs).trans ?_)
  rw [hd]
  rfl

theorem exec_bufferRelease {n : Buf} {s : State} {d : Dev} (hd : s.dev.bufferRelease n.val = d) :
    exec (.bufferRelease n) s = .next { s with dev := d } := by
  rw [← hd]
  rfl

/-- Settles O14: the result of each row is that of the operation on the buffer, whose cases are those of the statement. -/
theorem buffersOpenAndDiscard : Obligations.BuffersOpenAndDiscard := by
  refine ⟨?opens, ?discards, ?stays, ?releases⟩
  case opens =>
    intro tag n g s hr hs k answer
    have same : ∀ r, s.dev.bufOpen k g = (s.dev, r) → answer r := fun r h => exec_bufOpen hr hs h
    refine ⟨fun hk => same _ (Dev.bufOpen_param hk), fun hk hg => same _ (Dev.bufOpen_stale hk hg),
      fun hk hg hp => same _ (Dev.bufOpen_busy hk hg hp), fun hk hg hp hb => same _ (Dev.bufOpen_range hk hg hp hb),
      fun hk hg hp hb h0 => ?_, fun hk hg hp hb h0 => ?_⟩
    · exact ⟨_, exec_bufOpen hr hs (Dev.bufOpen_deferred hk hg hp hb h0), Dev.openDeferred_pend hk, Dev.openDeferred_gen hk,
        Dev.openDeferred_recorded hk, Dev.openDeferred_frame, Dev.openDeferred_regsKeep⟩
    · exact ⟨_, exec_bufOpen hr hs (Dev.bufOpen_ok hk hg hp hb h0), s.dev.bufFill_state hk _, s.dev.bufFill_gen hk g,
        s.dev.bufFill_check hk _, s.dev.bufFill_drops k _, rfl, s.dev.bufFill_regsKeep k _⟩
  case discards =>
    intro tag n g s hr hs hn hl
    refine ⟨fun hp hg => ?_, fun hp hg => exec_bufDiscard hr hs (Dev.bufDiscard_stale hn hp hg), fun hp hg h => ?_,
      fun hp hg h => exec_bufDiscard hr hs (Dev.bufDiscard_state hn hp hg hl h)⟩
    · refine ⟨_, exec_bufDiscard hr hs (Dev.bufDiscard_cancels hn hl hp hg), ?_, ?_, rfl, ?_⟩
      · exact (Dev.get_put_apart (by decide) hn _ _).trans (Dev.get_put_self _ _ _)
      · exact Dev.get_put_self _ _ _
      · exact regsKeep_setField (regsKeep_put _ _ _ (by simp)) _ (by simp)
    · exact ⟨_, exec_bufDiscard hr hs (Dev.bufDiscard_frees hn hp hg hl h), Dev.get_put_self _ _ _, rfl, regsKeep_put _ _ _ (by simp)⟩
  case stays =>
    intro n s h
    have same : s.dev.bufferRelease n.val = s.dev := if_neg (fun e => h (beq_iff_eq.mp e))
    exact exec_bufferRelease same
  case releases =>
    intro n s b h5 hb hi hv hr hp
    exact ⟨_, exec_bufferRelease (Dev.bufferRelease_done hb n.isLt h5 hi hv hr hp), Dev.get_put_self _ _ _, tfind_tdel_self _ _,
      Bar.without_cur _ _, Bar.without_old _ _, rfl, regsKeep_setField (regsKeep_of_regs rfl) _ (by simp)⟩

end Sys2Proof.Machine

/-! # Where the bed cycle stands (04_bed_cycle.md R96, R102, R103)

The T-tick of a boundary runs through most of the device: ports return, shed levels and takeovers are judged, paths and
tiles may end, the graph of ports is formed, armed moves start, the role is judged again. `Dev.cycle` is what shows where the bed cycle stands,
and every operation but those of the boundary itself leaves it alone. For the operations that end a path this needs the phase: the last tile of a
bed lets the Control Bar enter IDLE from EXPOSE or STARVED (`Cycle.mayIdle`), and at a boundary the phase is PRE, then RECOAT. -/

namespace Sys2Proof.Machine

open Sys2Proof.Safety

/-! ## Where the bed cycle stands -/

/-- The register fields that show where the bed cycle stands: its phase, whether a bed is current, the last boundary (R116). -/
def cycleFlds : List Fld := [F.BED_STAT_PHASE, F.BED_CUR_VALID, F.BED_BND_TICK_TICK]

/-- Where the bed cycle of a device stands: its registers, the current and the latched bed, and the DRAM writes that wait for the end of the row. -/
structure Cycle where
  phase : Nat
  valid : Nat
  bnd : Nat
  cur : Option Nat
  latched : Option Nat
  wq : List MemWr

/-- Where the bed cycle of d stands. -/
def Dev.cycle (d : Dev) : Cycle :=
  ⟨d.get F.BED_STAT_PHASE, d.get F.BED_CUR_VALID, d.get F.BED_BND_TICK_TICK, d.bar.cur, d.bar.latched, d.wq⟩

/-- The Control Bar can enter IDLE at the end of a bed: it is in EXPOSE or STARVED (R102). -/
def Cycle.mayIdle (c : Cycle) : Bool := c.phase == 1 || c.phase == 4

/-- A field stands at a place of its own, away from those that show the bed cycle. -/
def Fld.offCycle (G : Fld) : Bool := decide (G.key ∉ cycleFlds.map Fld.key)

/-- The registers of everything that has an index stand behind those of the bed cycle. -/
theorem Fld.offCycle_of_addr {G : Fld} (h : 0x20024 ≤ G.addr) : G.offCycle = true := by
  simp only [offCycle, cycleFlds, List.map, List.mem_cons, List.not_mem_nil, or_false, key, F.BED_STAT_PHASE, F.BED_CUR_VALID,
    F.BED_BND_TICK_TICK, decide_eq_true_eq]
  omega

@[simp] theorem offCycle_beam (p : Nat) : (F.BEAMn_TSTAT_STATE p).offCycle ∧ (F.BEAMn_PSTAT_EMIT p).offCycle ∧
    (F.HND_Pn_STAT_STATE p).offCycle ∧ (F.HND_Pn_STAT_ENTRY_V p).offCycle ∧ (F.HND_Pn_STAT_ENTRY p).offCycle ∧
    (F.HND_Pn_STAT_TAKING p).offCycle ∧ (F.HND_Pn_STAT_SHED p).offCycle ∧ (F.THM_Pn_STAT_REENTRY p).offCycle ∧
    (F.SNS_Pn_SPOT_REFERENCE p).offCycle ∧ (F.SNS_Pn_SPOT_NOPARENT p).offCycle ∧ (F.SNS_Pn_SPOT_PARENT p).offCycle ∧
    (F.SNS_Pn_SPOT_STATE p).offCycle := by
  refine ⟨?_, ?_, ?_, ?_, ?_, ?_, ?_, ?_, ?_, ?_, ?_, ?_⟩ <;> exact Fld.offCycle_of_addr (Nat.le_add_right_of_le (by decide))

@[simp] theorem offCycle_indexed (n : Nat) : (F.BED_BUFn_STAT_STATE n).offCycle ∧ (F.HND_FTk_INFO_SEV n).offCycle ∧
    (F.HND_FTk_INFO_RESOLVED n).offCycle ∧ (F.HND_FTk_INFO_UNCOVERED n).offCycle ∧ (F.SNS_CHc_OFS_OFS n).offCycle ∧
    (F.SNS_CHc_GCAL_VAL n).offCycle ∧ (F.SNS_CHc_STAT_OFS_SLEW n).offCycle ∧ (F.SNS_CHc_STAT_GAIN_SLEW n).offCycle ∧
    (F.AXSa_STAT_BNDARM n).offCycle := by
  refine ⟨?_, ?_, ?_, ?_, ?_, ?_, ?_, ?_, ?_⟩ <;> exact Fld.offCycle_of_addr (Nat.le_add_right_of_le (by decide))

@[simp] theorem offCycle_bar : F.BED_CTRL_RUN.offCycle ∧ F.BED_STAT_ABANDON.offCycle ∧ F.BED_STAT_PAIRBRK.offCycle ∧
    F.BED_STAT_CHASE_LOST.offCycle ∧ F.BED_STAT_TWO.offCycle ∧ F.BED_STAT_CHASING.offCycle ∧ F.BED_NEXT_BUF.offCycle ∧ F.BED_NEXT_COMMITTED.offCycle ∧
    F.BED_NEXT_LATCHED.offCycle ∧ F.BED_NEXT_HELD.offCycle ∧ F.BED_NEXT_LBUF.offCycle ∧ F.BED_NEXT_GEN_GEN.offCycle ∧
    F.BED_CUR_BUF.offCycle ∧ F.BED_CUR_OLD_BUF.offCycle ∧ F.BED_CUR_OLD_VALID.offCycle ∧ F.BED_CUR_NO_BED_NO.offCycle ∧
    F.BED_COUNT_COUNT.offCycle ∧ F.BED_STRIPES_RELEASED.offCycle ∧ F.BED_ABANDONED_COUNT.offCycle := by
  decide

@[simp] theorem offCycle_device : F.HST_ATTN_CAUSE.offCycle ∧ F.RIG_STAT_OLDSET.offCycle ∧ F.HND_STAT_OPEN.offCycle ∧
    F.HND_STAT_UNCOV.offCycle ∧ F.HND_STAT_WAIT_EXC.offCycle ∧ F.HND_UNCOVERED_COUNT.offCycle := by
  decide

/-- Where the cycle stands is the same in devices that agree on its fields, the Control Bar and the waiting writes. -/
theorem Dev.cycle_congr {d d' : Dev} (hf : ∀ G ∈ cycleFlds, d'.get G = d.get G) (hb : d'.bar = d.bar) (hw : d'.wq = d.wq) :
    d'.cycle = d.cycle := by
  simp only [cycleFlds, List.forall_mem_cons] at hf
  obtain ⟨hphase, hvalid, hbnd, _⟩ := hf
  simp only [Dev.cycle, hphase, hvalid, hbnd, hb, hw]

theorem Dev.cycle_phase (d : Dev) : d.cycle.phase = d.get F.BED_STAT_PHASE := rfl

@[simp] theorem Dev.put_cycle (d : Dev) {G : Fld} (v : Nat) (h : G.offCycle) : (d.put G v).cycle = d.cycle :=
  Dev.cycle_congr (fun C hC => Dev.get_put_ne d G C v (fun q => of_decide_eq_true h (q ▸ List.mem_map_of_mem hC))) rfl rfl

theorem Dev.recOnly.cycle {d d' : Dev} (h : d.recOnly d') : d'.cycle = d.cycle := by
  have apart : ∀ k ∈ cycleFlds.map Fld.key, k ∉ recFlds.map Fld.key := by decide
  exact Dev.cycle_congr (fun C hC => h.2 C (apart _ (List.mem_map_of_mem hC))) (by rw [h.1]) (by rw [h.1])

theorem Dev.roleOnly.cycle {d d' : Dev} (h : d.roleOnly d') : d'.cycle = d.cycle := by
  have apart : ∀ k ∈ cycleFlds.map Fld.key, k ∉ (recFlds ++ roleFlds).map Fld.key := by decide
  exact Dev.cycle_congr (fun C hC => h.2 C (apart _ (List.mem_map_of_mem hC))) (by rw [h.1]) (by rw [h.1])

/-- A fold of steps each of which leaves the cycle where it stands. -/
theorem foldl_cycle {α : Type} {f : Dev → α → Dev} {d : Dev} (l : List α)
    (h : ∀ e : Dev, e.cycle = d.cycle → ∀ x, (f e x).cycle = d.cycle) : (l.foldl f d).cycle = d.cycle :=
  List.foldlRecOn (motive := fun e => e.cycle = d.cycle) l f rfl (fun e he x _ => h e he x)

/-! ## What leaves the cycle where it stands -/

section
variable (d : Dev)

@[simp] theorem Dev.raise_cycle (c a b x y z : Nat) : (d.raise c a b x y z).cycle = d.cycle := (d.recOnly_raise ..).cycle
@[simp] theorem Dev.raiseSeg_cycle (t c a b x y z : Nat) (pt : Option Int) : (d.raiseSeg t c a b x y z pt).cycle = d.cycle :=
  (d.recOnly_intake _).cycle
@[simp] theorem Dev.retestJoin_cycle : d.retestJoin.cycle = d.cycle := d.roleOnly_retestJoin.cycle

@[simp] theorem Dev.updPrt_cycle (p : Nat) (f : Prt → Prt) : (d.updPrt p f).cycle = d.cycle := rfl
@[simp] theorem Dev.updEng_cycle (p : Nat) (f : Eng → Eng) : (d.updEng p f).cycle = d.cycle := rfl
@[simp] theorem Dev.updRun_cycle (p : Nat) (f : Run → Run) : (d.updRun p f).cycle = d.cycle := rfl
@[simp] theorem Dev.unfetch_cycle (p : Nat) (f : PKey → Bool) : (d.unfetch p f).cycle = d.cycle := rfl
@[simp] theorem Dev.send_cycle (t dst : Nat) (b : List Byte) : (d.send t dst b).cycle = d.cycle := rfl
@[simp] theorem Dev.updThmBeam_cycle (p : Nat) (f : ThmBeam → ThmBeam) : (d.updThmBeam p f).cycle = d.cycle := rfl
@[simp] theorem Dev.updAxs_cycle (a : Nat) (f : Axs → Axs) : (d.updAxs a f).cycle = d.cycle := rfl
@[simp] theorem Dev.dropAsked_cycle (k : PKey) : (d.dropAsked k).cycle = d.cycle := rfl

@[simp] theorem Dev.updBed_cycle (n : Nat) (f : Bed → Bed) : (d.updBed n f).cycle = d.cycle := by
  unfold Dev.updBed
  split <;> rfl

@[simp] theorem Dev.updTile_cycle (n t : Nat) (f : TileSt → TileSt) : (d.updTile n t f).cycle = d.cycle := d.updBed_cycle ..

@[simp] theorem Dev.updPath_cycle (k : PKey) (f : PathSt → PathSt) : (d.updPath k f).cycle = d.cycle := by
  cases k with
  | bed n t i => exact d.updTile_cycle ..
  | inc x => unfold Dev.updPath; dsimp only; split <;> rfl

@[simp] theorem Dev.setStat_cycle (k : PKey) (st : PStat) : (d.setStat k st).cycle = d.cycle := d.updPath_cycle ..

@[simp] theorem Dev.requeue_cycle (k : PKey) (c b : Nat) (rp : ResumePt) (r : ResRule) : (d.requeue k c b rp r).cycle = d.cycle :=
  d.updPath_cycle ..

@[simp] theorem Dev.tileFlag_cycle (k : PKey) (b : Nat) : (d.tileFlag k b).cycle = d.cycle := by
  cases k with
  | bed n t i => exact d.updTile_cycle ..
  | inc x => rfl

@[simp] theorem Dev.tileHandoff_cycle (k : PKey) : (d.tileHandoff k).cycle = d.cycle := by
  cases k with
  | bed n t i => exact d.updTile_cycle ..
  | inc x => rfl

@[simp] theorem Dev.addNotExposed_cycle (k : PKey) (n : Nat) : (d.addNotExposed k n).cycle = d.cycle := by
  cases k with
  | bed n t i => exact d.updTile_cycle ..
  | inc x => unfold Dev.addNotExposed; dsimp only; split <;> rfl

@[simp] theorem Dev.loseFrom_cycle (m : Dram) (k : PKey) (a : Nat) : (d.loseFrom m k a).cycle = d.cycle := by
  unfold Dev.loseFrom
  split
  · exact d.addNotExposed_cycle ..
  · rfl

@[simp] theorem Dev.updTko_cycle (i : Nat) (f : Takeover → Takeover) : (d.updTko i f).cycle = d.cycle := by
  unfold Dev.updTko
  split <;> rfl

/-! ### Ports -/

@[simp] theorem Dev.portBits_cycle (p : Nat) : (d.portBits p).cycle = d.cycle := by simp [Dev.portBits, Dev.emitBit]

@[simp] theorem Dev.blankPort_cycle (p : Nat) : (d.blankPort p).cycle = d.cycle := by simp [Dev.blankPort, Dev.emitBit]

@[simp] theorem Dev.dropRun_cycle (p : Nat) : (d.dropRun p).cycle = d.cycle := by
  unfold Dev.dropRun
  split <;> simp

@[simp] theorem Dev.stbyEnd_cycle (k : PKey) (r : Nat) : (d.stbyEnd k r).cycle = d.cycle := foldl_cycle _ (fun _ he _ => he)

@[simp] theorem Dev.incDone_cycle (x : Nat) (a : Bool) (s c : Nat) : (d.incDone x a s c).cycle = d.cycle := by
  unfold Dev.incDone
  split
  · rfl
  · dsimp only
    split
    · exact d.raise_cycle ..
    · rfl

@[simp] theorem Dev.returnQueue_cycle (p : Nat) : (d.returnQueue p).cycle = d.cycle :=
  foldl_cycle (d := (d.unfetch p _).updEng p _) _ (fun e he k => (e.updPath_cycle k _).trans he)

@[simp] theorem Dev.pairEnd_cycle (k : PKey) (c : Nat) : (d.pairEnd k c).cycle = d.cycle := by
  unfold Dev.pairEnd
  split
  · rfl
  · split
    · rfl
    · split <;> simp

@[simp] theorem Dev.stopRun_cycle (p c r : Nat) : (d.stopRun p c r).cycle = d.cycle := by
  unfold Dev.stopRun
  split <;> simp

/-! ### Fault entries -/

@[simp] theorem Dev.ftRaise_cycle (k v : Nat) : (d.ftRaise k v).cycle = d.cycle := by
  unfold Dev.ftRaise
  split <;> simp [Dev.ftEvent]

@[simp] theorem Dev.ftResolve_cycle (k : Nat) : (d.ftResolve k).cycle = d.cycle := by
  unfold Dev.ftResolve
  split
  · refine (foldl_cycle _ (fun e he n => ?_)).trans (d.put_cycle _ (by simp))
    split <;> simp [he]
  · rfl

@[simp] theorem Dev.ftSweep_cycle : d.ftSweep.cycle = d.cycle :=
  (Dev.put_cycle _ _ (by simp)).trans (foldl_cycle _ (fun e he k => (e.ftResolve_cycle k).trans he))

@[simp] theorem Dev.entryBit_cycle (e : Option Nat) {f : Nat → Fld} (h : ∀ k, (f k).offCycle) : (d.entryBit e f).cycle = d.cycle := by
  cases e with
  | none => rfl
  | some k => exact d.put_cycle _ (h k)

@[simp] theorem Dev.uncovered_cycle (m : Dram) (t : Takeover) : (d.uncovered m t).cycle = d.cycle := by
  unfold Dev.uncovered
  cases t.entry <;> simp

@[simp] theorem Dev.handingDone_cycle (n : Option Nat) : (d.handingDone n).cycle = d.cycle := by
  unfold Dev.handingDone
  split
  · split <;> simp
  · rfl

@[simp] theorem Dev.dropTko_cycle (i : Nat) : (d.dropTko i).cycle = d.cycle := by
  unfold Dev.dropTko
  refine (Dev.ftSweep_cycle _).trans ?_
  split
  · exact d.handingDone_cycle _
  · rfl

@[simp] theorem Dev.endTko_cycle (k : PKey) (r : Nat) : (d.endTko k r).cycle = d.cycle := by
  unfold Dev.endTko
  split
  · rfl
  · split <;> simp

@[simp] theorem Dev.tkoEnded_cycle (k : PKey) : (d.tkoEnded k).cycle = d.cycle := by
  unfold Dev.tkoEnded
  split <;> simp

@[simp] theorem Dev.splitPath_cycle (m : Dram) (p : Nat) (k : PKey) (rp : ResumePt) (r : ResRule) : (d.splitPath m p k rp r).cycle = d.cycle := by
  unfold Dev.splitPath
  extract_lets d1
  have h1 : d1.cycle = d.cycle := by simp [d1]
  clear_value d1
  split
  · exact h1
  · dsimp only
    split <;> simp [h1]

@[simp] theorem Dev.cutPath_cycle (m : Dram) (p : Nat) : (d.cutPath m p).cycle = d.cycle := by
  unfold Dev.cutPath
  split
  · rfl
  · split <;> simp

@[simp] theorem Dev.askRemote_cycle (m : Dram) (i : Nat) (t : Takeover) (c : Nat × Nat) : (d.askRemote m i t c).cycle = d.cycle :=
  Dev.updTko_cycle _ i _

@[simp] theorem Dev.takeLocal_cycle (m : Dram) (i : Nat) (t : Takeover) (p : Nat) : (d.takeLocal m i t p).cycle = d.cycle := by
  unfold Dev.takeLocal
  dsimp only
  split
  · simp
  · split
    · simp
    · split <;> simp

@[simp] theorem Dev.oldSetRelease_cycle (n : Nat) : (d.oldSetRelease n).cycle = d.cycle := by
  unfold Dev.oldSetRelease
  split
  · rfl
  · split
    · rfl
    · exact (Dev.put_cycle _ _ (by simp)).trans (d.raise_cycle ..)

end

/-! ## What leaves it where it stands while IDLE cannot be entered -/

section
variable {d : Dev} (h : d.cycle.mayIdle = false)
include h

theorem Dev.idleCheck_of_not_mayIdle : d.idleCheck = d := by
  unfold Dev.idleCheck
  have h' : (d.get F.BED_STAT_PHASE == 1 || d.get F.BED_STAT_PHASE == 4) = false := h
  simp [h']

@[simp] theorem Dev.idleCheck_cycle : d.idleCheck.cycle = d.cycle := congrArg Dev.cycle (Dev.idleCheck_of_not_mayIdle h)

@[simp] theorem Dev.bedCheck_cycle (n : Nat) : (d.bedCheck n).cycle = d.cycle := by
  unfold Dev.bedCheck
  split
  · rfl
  · split
    · extract_lets d1 cleared bar d2
      have h1 : d1.cycle = d.cycle := d.put_cycle _ (by simp)
      have h2 : d2.cycle = d.cycle := by
        unfold d2
        split
        · exact (d1.put_cycle _ (by simp)).trans h1
        · exact h1
      clear_value d2
      simp [Dev.twoBit, h2, h]
    · rfl

@[simp] theorem Dev.tileCheck_cycle (n t : Nat) : (d.tileCheck n t).cycle = d.cycle := by
  unfold Dev.tileCheck
  split
  · rfl
  · split
    · extract_lets d1
      have h1 : d1.cycle = d.cycle := d.updTile_cycle ..
      exact (Dev.bedCheck_cycle (d := { d1 with bar := { d1.bar with finishOrder := d1.bar.finishOrder ++ [(n, t)] } }) (h1 ▸ h) n).trans h1
    · rfl

@[simp] theorem Dev.pathEnded_cycle (k : PKey) : (d.pathEnded k).cycle = d.cycle := by
  unfold Dev.pathEnded
  dsimp only
  split <;> simp [h]

@[simp] theorem Dev.uncover_cycle (m : Dram) (i : Nat) : (d.uncover m i).cycle = d.cycle := by
  unfold Dev.uncover
  split
  · rfl
  · split
    · dsimp only
      split <;> simp
    · simp [h]

theorem Dev.chooseAll_cycle (m : Dram) (n : Nat) (l : List Nat) : (Dev.chooseAll m n l d).cycle = d.cycle := by
  induction n generalizing l d with
  | zero => rfl
  | succ n ih =>
    cases l with
    | nil => rfl
    | cons i rest =>
      unfold Dev.chooseAll
      split
      · exact ih h rest
      · split
        · have hu := Dev.uncover_cycle h m i
          exact (ih (hu ▸ h) rest).trans hu
        · split
          · extract_lets lose d1
            have h1 : (d1.takeLocal m i ‹_› (Prod.snd ‹_›)).cycle = d.cycle :=
              (d1.takeLocal_cycle ..).trans (foldl_cycle _ (fun e he j => (e.updTko_cycle j _).trans he))
            exact (ih (h1 ▸ h) _).trans h1
          · have ha := d.askRemote_cycle m i ‹_› ‹_›
            exact (ih (ha ▸ h) rest).trans ha

@[simp] theorem Dev.choose_cycle (m : Dram) (i : Nat) : (d.choose m i).cycle = d.cycle := Dev.chooseAll_cycle h ..

@[simp] theorem Dev.moveOn_cycle (m : Dram) (i : Nat) (c : Nat × Nat) : (d.moveOn m i c).cycle = d.cycle := by
  unfold Dev.moveOn
  split
  · rfl
  · dsimp only
    split <;> simp [h]

@[simp] theorem Dev.beginTko_cycle (m : Dram) (l e : Option Nat) (k : PKey) (rp : ResumePt) (cs : List (Nat × Nat)) :
    (d.beginTko m l e k rp cs).cycle = d.cycle := by
  unfold Dev.beginTko
  extract_lets i t
  have h1 : ∀ hnd : Hnd, ({ d with hnd := hnd } : Dev).cycle = d.cycle := fun _ => rfl
  simp [h1, h]

@[simp] theorem Dev.shedHand_cycle (m : Dram) (p : Nat) (rp : ResumePt) : (d.shedHand m p rp).cycle = d.cycle := by
  unfold Dev.shedHand
  split
  · rfl
  · extract_lets t cs ok event
    have he : ∀ e : Dev, (event e).cycle = e.cycle := fun e => by simp [event]
    clear_value event
    split
    · split
      · split
        · dsimp only
          split <;> simp [he, h]
        · rfl
      · rfl
    · split <;> simp [he, h]

@[simp] theorem Dev.setShed_cycle (m : Dram) (p l : Nat) : (d.setShed m p l).cycle = d.cycle := by
  unfold Dev.setShed
  extract_lets was d1 d2
  split
  · rfl
  · have h1 : d1.cycle = d.cycle := by simp [d1]
    have h2 : d2.cycle = d.cycle := by
      unfold d2
      split <;> simp [h1]
    clear_value d2
    split
    · split
      · exact h2
      · split <;> simp [h2, h]
    · exact h2

@[simp] theorem Dev.shedAfresh_cycle (m : Dram) (p : Nat) : (d.shedAfresh m p).cycle = d.cycle := by
  unfold Dev.shedAfresh
  split <;> simp [h]

/-! ### Paths and tiles given up -/

@[simp] theorem Dev.endRun_cycle (m : Dram) (p : Nat) (l : Option Nat) (r : Nat) : (d.endRun m p l r).cycle = d.cycle := by
  unfold Dev.endRun
  split
  · rfl
  · extract_lets c d1 d2
    have h1 : d1.cycle = d.cycle := by
      unfold d1
      split <;> simp
    have h2 : d2.cycle = d.cycle := by simp [d2, h1, h]
    clear_value d2
    split <;> simp [h2]

@[simp] theorem Dev.finishRun_cycle (m : Dram) (p : Nat) (l : Option Nat) (r : Nat) : (d.finishRun m p l r).cycle = d.cycle := by
  unfold Dev.finishRun
  split
  · rfl
  · simp [h]

@[simp] theorem Dev.abandonPath_cycle (m : Dram) (k : PKey) (r : Nat) : (d.abandonPath m k r).cycle = d.cycle := by
  unfold Dev.abandonPath
  split
  · rfl
  · split <;> simp [h]

@[simp] theorem Dev.abandonUnscanned_cycle (m : Dram) (n t : Nat) (x : TileSt) : (d.abandonUnscanned m n t x).cycle = d.cycle := by
  unfold Dev.abandonUnscanned
  split
  · rfl
  · simp [h]

@[simp] theorem Dev.abandonTile_cycle (m : Dram) (n t r : Nat) : (d.abandonTile m n t r).cycle = d.cycle := by
  unfold Dev.abandonTile
  split
  · rfl
  · extract_lets k d1
    have h1 : d1.cycle = d.cycle := by simp [d1]
    have paths := foldl_cycle (f := fun e i => e.abandonPath m (.bed n t i) r) (upTo (TileSt.paths ‹_›).length)
      (fun e he i => (Dev.abandonPath_cycle (he ▸ h1 ▸ h) m _ r).trans he)
    exact (Dev.abandonUnscanned_cycle (paths ▸ h1 ▸ h) ..).trans (paths.trans h1)

@[simp] theorem Dev.abandonOld_cycle (m : Dram) (s c : Nat) : (d.abandonOld m s c).cycle = d.cycle := by
  unfold Dev.abandonOld
  split
  · rfl
  · exact foldl_cycle _ (fun e he t => by simp [he, h])

@[simp] theorem Dev.chaseLose_cycle (m : Dram) (e : Nat) : (d.chaseLose m e).cycle = d.cycle := by
  have lost : ∀ bar : Bar, bar.cur = d.bar.cur → bar.latched = d.bar.latched → ({ d with bar := bar } : Dev).cycle = d.cycle :=
    fun bar hc hl => by simp [Dev.cycle, hc, hl, Dev.get]
  unfold Dev.chaseLose
  split
  · simp [lost, h]
  · rfl

end

/-! ## The steps of a boundary -/

section
variable (d : Dev)

@[simp] theorem Dev.nextPut_cycle (c : Option Nat) (b : Bool) : (d.nextPut c b).cycle = d.cycle := by simp [Dev.nextPut]

@[simp] theorem Dev.portReturn_cycle (p : Nat) : (d.portReturn p).cycle = d.cycle := by
  unfold Dev.portReturn
  extract_lets laser d1 d2 d3 cleared hnd d4
  have h1 : d1.cycle = d.cycle := by simp [d1]
  have h3 : d3.cycle = d.cycle := by
    unfold d3
    split <;> simp [d2, h1]
  have h4 : d4.cycle = d.cycle := (d3.put_cycle _ (by simp)).trans h3
  simp [h4]

@[simp] theorem Dev.portsReturn_cycle : d.portsReturn.cycle = d.cycle := by
  unfold Dev.portsReturn
  split
  · rfl
  · refine foldl_cycle _ (fun e he p => ?_)
    extract_lets e' st
    have h' : e'.cycle = d.cycle := by
      unfold e'
      split <;> simp [he]
    clear_value e'
    split
    · split
      · simp [h']
      · split
        · simp [h']
        · split <;> simp [h']
    · exact h'

@[simp] theorem Dev.slewBits_cycle (k : SlewKind) : (d.slewBits k).cycle = d.cycle := by cases k <;> simp [Dev.slewBits]

@[simp] theorem Dev.rangeLive_cycle (old : Dev) : (d.rangeLive old).cycle = d.cycle := by
  refine foldl_cycle _ (fun e he c => ?_)
  dsimp only
  split
  · exact he
  · refine (Dev.slewBits_cycle _ _).trans ((Dev.slewBits_cycle _ _).trans ?_)
    exact (Dev.put_cycle _ _ (by simp)).trans ((e.put_cycle _ (by simp)).trans he)

@[simp] theorem Dev.spotStop_cycle (p : Nat) : (d.spotStop p).cycle = d.cycle := by
  unfold Dev.spotStop
  split
  · rfl
  · exact Dev.put_cycle _ _ (by simp)

@[simp] theorem Dev.spotGraph_cycle : d.spotGraph.cycle = d.cycle := by
  unfold Dev.spotGraph
  extract_lets l r ports par old d1 moved d2
  have h1 : d1.cycle = d.cycle := foldl_cycle _ (fun e he p => by simp [he])
  have h2 : d2.cycle = d.cycle := (foldl_cycle _ (fun e he x => (e.spotStop_cycle _).trans he)).trans h1
  refine (foldl_cycle _ (fun e he p => ?_)).trans h2
  dsimp only
  split <;> simp [he]

@[simp] theorem Dev.axisGo_cycle (a : Nat) : (d.axisGo a).cycle = d.cycle := by
  unfold Dev.axisGo
  split <;> simp

@[simp] theorem Dev.axesBoundary_cycle : d.axesBoundary.cycle = d.cycle := by
  refine foldl_cycle _ (fun e he a => ?_)
  split <;> simp [he]

@[simp] theorem Dev.releaseAll_cycle (n : Nat) : (d.releaseAll n).cycle = d.cycle := by
  unfold Dev.releaseAll
  split <;> simp

@[simp] theorem Dev.boundaryStripes_cycle (cold : Bool) : (d.boundaryStripes cold).cycle = d.cycle := by
  unfold Dev.boundaryStripes
  extract_lets chase bar d1
  have h1 : d1.cycle = d.cycle := rfl
  clear_value d1
  split
  · simp [h1]
  · dsimp only
    split
    · simp [h1]
    · split <;> simp [h1]

theorem Dev.boundaryPorts_cycle (h : d.cycle.mayIdle = false) (m : Dram) : (d.boundaryPorts m).cycle = d.cycle := by
  unfold Dev.boundaryPorts
  refine (foldl_cycle _ (fun e he p => ?_)).trans d.portsReturn_cycle
  split
  · exact he
  · simp [he, h]

/-! ### The fields of the cycle -/

@[simp] theorem Dev.put_phase_cycle (v : Nat) : (d.put F.BED_STAT_PHASE v).cycle = { d.cycle with phase := v % 2 ^ 3 } := by
  rw [Dev.cycle, Dev.get_put_self, Dev.get_put_ne _ _ _ _ (by decide), Dev.get_put_ne _ _ _ _ (by decide)]
  rfl

@[simp] theorem Dev.put_valid_cycle (v : Nat) : (d.put F.BED_CUR_VALID v).cycle = { d.cycle with valid := v % 2 ^ 1 } := by
  rw [Dev.cycle, Dev.get_put_self, Dev.get_put_ne _ _ _ _ (by decide), Dev.get_put_ne _ _ _ _ (by decide)]
  rfl

@[simp] theorem Dev.put_bnd_cycle (v : Nat) : (d.put F.BED_BND_TICK_TICK v).cycle = { d.cycle with bnd := v % 2 ^ 32 } := by
  rw [Dev.cycle, Dev.get_put_self, Dev.get_put_ne _ _ _ _ (by decide), Dev.get_put_ne _ _ _ _ (by decide)]
  rfl

/-- A horizon taken in EXPOSE leads to RECOAT (R96). -/
theorem Dev.boundaryPhase_cycle (m : Dram) : (d.boundaryPhase m false).cycle = { d.cycle with phase := 3 } := by
  have h1 : (d.put F.BED_STAT_PHASE 3).cycle = { d.cycle with phase := 3 } := d.put_phase_cycle 3
  have idle : (d.put F.BED_STAT_PHASE 3).cycle.mayIdle = false := by rw [h1]; rfl
  unfold Dev.boundaryPhase
  rw [if_neg Bool.false_ne_true]
  extract_lets d1
  split
  · split
    · exact (Dev.chaseLose_cycle idle m _).trans h1
    · exact h1
  · exact h1

/-- The latched bed becomes current (R103). -/
theorem Dev.makeCurrent_cycle : d.makeCurrent.cycle =
    { d.cycle with cur := d.bar.latched, latched := none, valid := b2n d.bar.latched.isSome } := by
  unfold Dev.makeCurrent
  extract_lets old new had bar d1 d2
  have h1 : d1.cycle = { d.cycle with cur := new, latched := none } := rfl
  have h2 : d2.cycle = { d.cycle with cur := new, latched := none, valid := b2n new.isSome } := by
    have bit : b2n new.isSome % 2 = b2n new.isSome := by cases new.isSome <;> rfl
    simp [d2, h1, bit]
  refine Eq.trans ?_ h2
  clear_value d2 d1 new
  split
  · rfl
  · simp [Dev.twoBit]

/-- No written field of effect BED waits. -/
theorem Dev.bedEffects_of_no_shadow (h : d.shadow = []) : d.bedEffects = d := by
  unfold Dev.bedEffects
  rw [h]
  exact congrArg (fun l => ({ d with shadow := l } : Dev)) h.symm

theorem Dev.makeCurrent_tick_shadow : d.makeCurrent.tick = d.tick ∧ d.makeCurrent.shadow = d.shadow := by
  unfold Dev.makeCurrent
  dsimp only
  split <;> simp [Dev.twoBit]

theorem Dev.slewBits_tick (k : SlewKind) : (d.slewBits k).tick = d.tick := by cases k <;> rfl

theorem Dev.rangeLive_tick (old : Dev) : (d.rangeLive old).tick = d.tick := by
  refine List.foldlRecOn (motive := fun e : Dev => e.tick = d.tick) _ _ rfl (fun e he c _ => ?_)
  dsimp only
  split
  · exact he
  · rw [Dev.slewBits_tick, Dev.slewBits_tick]
    exact he

end

/-! ## BED_BOUNDARY (R96, R103) -/

section
variable {d : Dev} (m : Dram)

/-- Before the boundary is due nothing happens. -/
theorem Dev.bedBoundary_early (h : d.get F.BED_STAT_PHASE ≠ 2 ∨ elapsed32 d.tick (d.getW F.BED_HZN_TICK_TICK) < 64) :
    d.bedBoundary m = d := by
  refine if_neg (fun due => ?_)
  simp only [Bool.and_eq_true, beq_iff_eq, decide_eq_true_eq] at due
  omega

/-- The boundary of a horizon taken in EXPOSE, where neither a swap nor a written field waits for it. -/
theorem Dev.bedBoundary_cycle (hp : d.get F.BED_STAT_PHASE = 2) (he : 64 ≤ elapsed32 d.tick (d.getW F.BED_HZN_TICK_TICK))
    (hf : d.bar.hznFrom = 1) (hsup : d.sys.sup ≠ .halted) (hr : d.rig.latched = none) (hs : d.shadow = []) :
    (d.bedBoundary m).cycle = ⟨3, b2n d.bar.latched.isSome, d.tick.toNat, d.bar.latched, none, d.wq⟩ := by
  have pulsed : (d.pulse 0x30 1000) = { d with pins := (d.pulse 0x30 1000).pins } := by
    unfold Dev.pulse
    split <;> rfl
  have running : (if decide (d.sys.sup = .halted) then d.unlatch else d) = d := if_neg (by simpa using hsup)
  unfold Dev.bedBoundary
  rw [running, if_pos (by rw [hp, decide_eq_true he]; rfl)]
  extract_lets cold d1 d2 no par d3
  have warm : cold = false := by simp [cold, hf]
  have h1 : d1 = ({ d with pins := (d.pulse 0x30 1000).pins } : Dev).makeCurrent := by
    simp only [d1, warm, Bool.false_eq_true, if_false]
    rw [pulsed, Dev.boundarySwap]
    dsimp only
    rw [hr]
    exact Dev.bedEffects_of_no_shadow _ ((Dev.makeCurrent_tick_shadow _).2.trans hs)
  have c1 : d1.cycle = ⟨2, b2n d.bar.latched.isSome, d.cycle.bnd, d.bar.latched, none, d.wq⟩ := by
    rw [h1, Dev.makeCurrent_cycle, ← hp]
    rfl
  have tick : d2.tick = d.tick := (d1.rangeLive_tick d).trans (h1 ▸ (Dev.makeCurrent_tick_shadow _).1)
  have c3 : d3.cycle = ⟨2, b2n d.bar.latched.isSome, d.tick.toNat, d.bar.latched, none, d.wq⟩ := by
    have c2 : d2.cycle = d1.cycle := d1.rangeLive_cycle d
    simp [d3, c2, c1, tick, Nat.mod_eq_of_lt d.tick.isLt]
  have ports := d3.boundaryPorts_cycle (c3 ▸ rfl) m
  rw [warm]
  simp [Dev.boundaryPhase_cycle, ports, c3]

end

theorem exec_bedBoundary {s : State} (h : (s.settled.dev.bedBoundary s.mem).wq = []) :
    exec .bedBoundary s = .next { s with dev := s.settled.dev.bedBoundary s.mem } :=
  congrArg Host.Outcome.next (State.runDev_noWrites s _ h)

end Sys2Proof.Machine

/-! # The commit horizon and the bed boundary (04_bed_cycle.md R96, R97, R99, R101, R103)

Latching a bed reads it from DRAM, which may note lost reads (`Dev.lostReadOnly`); those, BED_NEXT and a swap taken along are all that follow the two
fields that every horizon shows. -/

namespace Sys2Proof.Machine

open Sys2Proof.Safety

/-! ## BED_NEXT (R116) -/

/-- The register fields of BED_NEXT and BED_NEXT_GEN. -/
def nextFlds : List Fld :=
  [F.BED_NEXT_BUF, F.BED_NEXT_COMMITTED, F.BED_NEXT_LATCHED, F.BED_NEXT_HELD, F.BED_NEXT_LBUF, F.BED_NEXT_GEN_GEN]

theorem b2n_mod_two (b : Bool) : b2n b % 2 ^ 1 = b2n b := by cases b <;> rfl

/-- Setting one more field of a device that differs from d in its register list only. -/
theorem Dev.put_regsOnly {d d' : Dev} (h : d' = { d with regs := d'.regs }) (G : Fld) (v : Nat) :
    d'.put G v = { d with regs := (d'.put G v).regs } := by
  obtain ⟨r, e⟩ : ∃ r, d' = { d with regs := r } := ⟨_, h⟩
  subst e
  rfl

section
variable (d : Dev) (com : Option Nat) (held : Bool)

theorem Dev.nextPut_frame : d.nextPut com held = { d with regs := (d.nextPut com held).regs } := by
  have buf := Dev.put_regsOnly (d := d) (d' := d) rfl F.BED_NEXT_BUF ((com.or d.bar.latched).getD 0)
  have committed := Dev.put_regsOnly buf F.BED_NEXT_COMMITTED (b2n com.isSome)
  have latched := Dev.put_regsOnly committed F.BED_NEXT_LATCHED (b2n d.bar.latched.isSome)
  have kept := Dev.put_regsOnly latched F.BED_NEXT_HELD (b2n held)
  have lbuf := Dev.put_regsOnly kept F.BED_NEXT_LBUF (d.bar.latched.getD 0)
  exact Dev.put_regsOnly lbuf _ _

theorem Dev.nextPut_bar : (d.nextPut com held).bar = d.bar := by rw [Dev.nextPut_frame]

theorem Dev.nextPut_rig : (d.nextPut com held).rig = d.rig := by rw [Dev.nextPut_frame]

theorem Dev.nextPut_regsKeep : regsKeep nextFlds d (d.nextPut com held) := by
  have buf := regsKeep_put (fs := nextFlds) d F.BED_NEXT_BUF ((com.or d.bar.latched).getD 0) (by simp [nextFlds])
  have committed := regsKeep_setField buf (F := F.BED_NEXT_COMMITTED) (b2n com.isSome) (by simp [nextFlds])
  have latched := regsKeep_setField committed (F := F.BED_NEXT_LATCHED) (b2n d.bar.latched.isSome) (by simp [nextFlds])
  have kept := regsKeep_setField latched (F := F.BED_NEXT_HELD) (b2n held) (by simp [nextFlds])
  have lbuf := regsKeep_setField kept (F := F.BED_NEXT_LBUF) (d.bar.latched.getD 0) (by simp [nextFlds])
  exact regsKeep_setField lbuf _ (by simp [nextFlds])

/-- What BED_NEXT shows. -/
theorem Dev.nextPut_shows :
    (d.nextPut com held).get F.BED_NEXT_BUF = (com.or d.bar.latched).getD 0 % 2 ^ 4 ∧
    (d.nextPut com held).get F.BED_NEXT_COMMITTED = b2n com.isSome ∧
    (d.nextPut com held).get F.BED_NEXT_LATCHED = b2n d.bar.latched.isSome ∧ (d.nextPut com held).get F.BED_NEXT_HELD = b2n held := by
  unfold Dev.nextPut
  simp (disch := decide) only [Dev.setFlag_eq, Dev.get_put_ne, Dev.get_put_self]
  exact ⟨rfl, b2n_mod_two _, b2n_mod_two _, b2n_mod_two _⟩

end

/-! ## Reads without a good copy (R333) -/

/-- The register fields that note an uncorrectable error without a good copy. -/
def lostReadFlds : List Fld :=
  F.DDR_STAT_UE :: (upTo 2).flatMap (fun c => [F.DDR_CHc_UE_COUNT c, F.DDR_CHc_UE_ADDR_LO_ADDR c, F.DDR_CHc_UE_ADDR_HI_ADDR c])

theorem mem_lostReadFlds {c : Nat} (hc : c < 2) : F.DDR_CHc_UE_COUNT c ∈ lostReadFlds ∧ F.DDR_CHc_UE_ADDR_LO_ADDR c ∈ lostReadFlds ∧
    F.DDR_CHc_UE_ADDR_HI_ADDR c ∈ lostReadFlds := by
  interval_cases c <;> decide

/-- A device differs from d at most in what lost reads note: the recorder, the DRAM channels and their fields. -/
def Dev.lostReadOnly (d d' : Dev) : Prop :=
  d' = { d with regs := d'.regs, evr := d'.evr, ddr := d'.ddr } ∧ regsKeep (recFlds ++ lostReadFlds) d d'

theorem Dev.lostReadOnly.trans {a b c : Dev} (h : a.lostReadOnly b) (k : b.lostReadOnly c) : a.lostReadOnly c := by
  obtain ⟨hframe, hkeep⟩ := h
  obtain ⟨kframe, kkeep⟩ := k
  rw [hframe] at kframe
  exact ⟨kframe, regsKeep_trans hkeep kkeep⟩

theorem Dev.lostReadOnly_put (d : Dev) {G : Fld} (v : Nat) (h : G ∈ lostReadFlds) : d.lostReadOnly (d.put G v) :=
  ⟨rfl, regsKeep_put d G v (List.mem_append_right _ h)⟩

theorem Dev.lostReadOnly_raise (d : Dev) (c a b x y z : Nat) : d.lostReadOnly (d.raise c a b x y z) :=
  ⟨by conv_lhs => rw [Dev.raise_eq]
      simp, regsKeep_raise _ _ _ _ _ _ _ (fun _ h => List.mem_append_left _ h)⟩

theorem Dev.lostReadOnly_updCh (d : Dev) (c : Nat) (f : DdrCh → DdrCh) : d.lostReadOnly (d.updCh c f) := ⟨rfl, regsKeep_of_regs rfl⟩

theorem Dev.lostReadOnly_raiseLostRead (d : Dev) (src a : Nat) : d.lostReadOnly (d.raiseLostRead src a) := by
  obtain ⟨hcount, hlo, hhi⟩ := mem_lostReadFlds (d.serving_lt a)
  exact (d.lostReadOnly_put _ hcount).trans ((Dev.lostReadOnly_put _ _ hlo).trans ((Dev.lostReadOnly_put _ _ hhi).trans
    ((Dev.lostReadOnly_put _ _ (by simp [lostReadFlds])).trans ((Dev.lostReadOnly_updCh _ _ _).trans (Dev.lostReadOnly_raise ..)))))

/-! ## The horizon (R97, R99, R101) -/

/-- The device at a horizon, before a committed bed is considered. -/
def Dev.horizonTaken (d : Dev) : Dev :=
  (({ d with bar := { d.bar with hznFrom := d.get F.BED_STAT_PHASE } } : Dev).put F.BED_HZN_TICK_TICK d.tick.toNat).put F.BED_STAT_PHASE 2

/-- The register fields that a horizon shows. -/
def hznFlds : List Fld := [F.BED_STAT_PHASE, F.BED_HZN_TICK_TICK]

/-- The fields of d' show a horizon taken at d. -/
def Dev.showsHorizon (d d' : Dev) : Prop := d'.get F.BED_STAT_PHASE = 2 ∧ d'.get F.BED_HZN_TICK_TICK = d.tick.toNat

theorem Dev.showsHorizon.keep {d e e' : Dev} (h : d.showsHorizon e) {fs : List Fld} (k : regsKeep fs e e')
    (ap : F.BED_STAT_PHASE.key ∉ fs.map Fld.key ∧ F.BED_HZN_TICK_TICK.key ∉ fs.map Fld.key) : d.showsHorizon e' :=
  ⟨(k _ ap.1).trans h.1, (k _ ap.2).trans h.2⟩

section
variable {d : Dev} {m : Dram}

theorem Dev.horizonTaken_shows : d.showsHorizon d.horizonTaken := by
  refine ⟨(Dev.get_put_self _ _ _).trans rfl, (Dev.get_put_ne _ _ _ _ (by decide)).trans ((Dev.get_put_self _ _ _).trans ?_)⟩
  exact Nat.mod_eq_of_lt d.tick.isLt

theorem Dev.horizonTaken_regsKeep : regsKeep hznFlds d d.horizonTaken :=
  regsKeep_setField (regsKeep_setField (regsKeep_of_regs rfl) _ (by simp [hznFlds])) _ (by simp [hznFlds])

theorem Dev.commitHorizon_not_due (h : d.horizonDue = false) : d.commitHorizon m = d := if_neg (by simp [h])

theorem Dev.commitHorizon_no_commit (h : d.horizonDue = true) (hc : d.committedBuf = none) : d.commitHorizon m = d.horizonTaken := by
  unfold Dev.commitHorizon
  rw [if_pos h, hc]
  rfl

/-- A bed that can be latched finds a free bank. -/
theorem Dev.freeBank_of_latchable {n : Nat} (h : d.latchable = some n) : ∃ b, d.freeBank = some b := by
  unfold Dev.latchable at h
  split at h
  · split at h
    case isTrue hl =>
      simp only [Bool.and_eq_true] at hl
      obtain ⟨⟨_, bank⟩, _⟩ := hl
      exact Option.isSome_iff_exists.mp bank
    case isFalse => contradiction
  · contradiction

theorem Dev.commitHorizon_latches {n : Nat} (h : d.horizonDue = true) (hc : d.committedBuf = some n) (hl : d.latchable = some n) :
    ∃ b, d.commitHorizon m = d.horizonTaken.latch m n b := by
  obtain ⟨b, hb⟩ := Dev.freeBank_of_latchable hl
  refine ⟨b, ?_⟩
  unfold Dev.commitHorizon
  rw [if_pos h, hc, hl, hb]
  rfl

/-- A committed bed that cannot be latched stays COMMITTED, with LATE; a swap that defers it shows LATE too. -/
theorem Dev.commitHorizon_late {n : Nat} (h : d.horizonDue = true) (hc : d.committedBuf = some n) (hl : d.latchable = none) :
    ∃ held : Bool, (d.commitHorizon m).bar = { d.bar with hznFrom := d.get F.BED_STAT_PHASE } ∧
      regsKeep [F.RIG_STAT_LATE] ((d.horizonTaken.put F.BED_STAT_LATE 1).nextPut (some n) held) (d.commitHorizon m) := by
  refine ⟨d.flag F.BED_NEXT_HELD || !later32 d.tick d.bar.commitTick, ?_⟩
  unfold Dev.commitHorizon
  rw [if_pos h, hc, hl]
  dsimp only
  split
  · refine ⟨?_, regsKeep_put _ _ _ (by simp)⟩
    rw [Dev.setFlag_eq, Dev.put_bar, Dev.nextPut_bar]
    rfl
  · refine ⟨?_, regsKeep_refl _ _⟩
    rw [Dev.nextPut_bar]
    rfl

/-- The register fields that latching a bed may change, beside the recorder's. -/
def latchFlds : List Fld := F.RIG_STAT_STATE :: nextFlds ++ lostReadFlds

/-- Latching a bed reads it, which may note lost reads, and takes a swap armed before along. -/
structure Dev.Latched (d : Dev) (n : Nat) (d' : Dev) : Prop where
  latched : d'.bar.latched = some n
  bed : (d'.bed? n).isSome = true
  shows : d'.get F.BED_NEXT_COMMITTED = 0 ∧ d'.get F.BED_NEXT_LATCHED = 1
  armed : d'.rig.armed = if d.armedBefore.isSome then none else d.rig.armed
  swap : d'.rig.latched = d.armedBefore.or d.rig.latched
  keeps : regsKeep (recFlds ++ latchFlds) d d'

theorem Dev.latch_latched (d : Dev) (m : Dram) (n b : Nat) : d.Latched n (d.latch m n b) := by
  unfold Dev.latch
  extract_lets e bed d1 bar d2 d3
  have lost : e.lostReadOnly d1 :=
    List.foldlRecOn (motive := e.lostReadOnly) bed.lostSets _ ⟨rfl, regsKeep_refl _ e⟩
      (fun x hx i _ => hx.trans (x.lostReadOnly_raiseLostRead ..))
  have rig : d3.rig = d.rig := (d2.nextPut_rig none false).trans (by rw [show d2.rig = d1.rig from rfl, lost.1]; rfl)
  have latched : d3.bar.latched = some n := congrArg Bar.latched (d2.nextPut_bar none false)
  have found : (d3.bed? n).isSome = true := by
    rw [Dev.bed?, show d3.bar = d2.bar from d2.nextPut_bar none false, tfind_tput_self]
    rfl
  have shows : d3.get F.BED_NEXT_COMMITTED = 0 ∧ d3.get F.BED_NEXT_LATCHED = 1 := by
    obtain ⟨_, committed, shown, _⟩ := d2.nextPut_shows none false
    exact ⟨committed, shown⟩
  have read : regsKeep (recFlds ++ latchFlds) d d1 := regsKeep_mono lost.2 (fun _ h => by
    simp only [latchFlds, List.mem_append, List.mem_cons] at h ⊢
    exact h.imp_right Or.inr)
  have next : regsKeep (recFlds ++ latchFlds) d2 d3 :=
    regsKeep_mono (d2.nextPut_regsKeep none false) (fun _ h => by simp [latchFlds, h])
  have keeps : regsKeep (recFlds ++ latchFlds) d d3 := regsKeep_trans read next
  rw [show e.armedBefore = d.armedBefore from rfl]
  clear_value d3
  cases hw : d.armedBefore with
  | none => exact ⟨latched, found, shows, by simp [rig, hw], by simp [rig, hw], keeps⟩
  | some w =>
    refine ⟨latched, found, ⟨?_, ?_⟩, by simp [hw], by simp [hw], ?_⟩
    · exact (Dev.get_put_ne _ _ _ _ (by decide)).trans shows.1
    · exact (Dev.get_put_ne _ _ _ _ (by decide)).trans shows.2
    · exact regsKeep_setField (regsKeep_trans keeps (regsKeep_of_regs rfl)) _ (by simp [latchFlds])

end

theorem exec_commitHorizon (s : State) : exec .commitHorizon s = .next { s with dev := s.dev.commitHorizon s.mem } := rfl

/-- Settles O17: a horizon and the latching of its bed are followed field by field; of all that happens on the T-tick of a boundary only the bed that
becomes current and the phase that follows change where the cycle stands. -/
theorem horizonAndBoundary : Obligations.HorizonAndBoundary := by
  refine ⟨fun s => ⟨fun h => ?notDue, fun h hc => ?noCommit, fun n h hc hl => ?latches, fun n h hc hn hl => ?late⟩,
    fun s => ⟨fun h => ?early, fun hp he hf hsup hr hs _ => ?boundary⟩⟩
  case notDue => rw [exec_commitHorizon, Dev.commitHorizon_not_due h]
  case noCommit =>
    refine ⟨_, exec_commitHorizon s, ?_⟩
    rw [Dev.commitHorizon_no_commit h hc]
    obtain ⟨phase, tick⟩ := s.dev.horizonTaken_shows
    exact ⟨phase, tick, rfl, s.dev.horizonTaken_regsKeep⟩
  case latches =>
    obtain ⟨b, hb⟩ := Dev.commitHorizon_latches (m := s.mem) h hc hl
    refine ⟨_, exec_commitHorizon s, ?_⟩
    rw [hb]
    obtain ⟨latched, bed, ⟨committed, shown⟩, armed, swap, keeps⟩ := s.dev.horizonTaken.latch_latched s.mem n b
    obtain ⟨phase, tick⟩ := s.dev.horizonTaken_shows.keep keeps (by decide)
    exact ⟨phase, tick, latched, committed, shown, bed, armed, swap, rfl⟩
  case late =>
    obtain ⟨held, bar, keeps⟩ := Dev.commitHorizon_late (m := s.mem) h hc hl
    obtain ⟨buf, committed, _, _⟩ := (s.dev.horizonTaken.put F.BED_STAT_LATE 1).nextPut_shows (some n) held
    have next := (s.dev.horizonTaken.put F.BED_STAT_LATE 1).nextPut_regsKeep (some n) held
    refine ⟨_, exec_commitHorizon s, ?_, ?_, ?_, ?_, (congrArg Bar.latched bar :), (congrArg Bar.beds bar :)⟩
    · rw [keeps _ (by decide), next _ (by decide), Dev.get_put_ne _ _ _ _ (by decide)]
      exact s.dev.horizonTaken_shows.1
    · rw [keeps _ (by decide), next _ (by decide)]
      exact Dev.get_put_self _ _ _
    · rw [keeps _ (by decide)]
      exact committed
    · rw [keeps _ (by decide)]
      exact buf.trans (Nat.mod_eq_of_lt hn)
  case early =>
    have same : s.settled.dev.bedBoundary s.mem = s.settled.dev := Dev.bedBoundary_early s.mem h
    exact (exec_bedBoundary (congrArg Dev.wq same)).trans (by rw [same]; rfl)
  case boundary =>
    have stands := Dev.bedBoundary_cycle (d := s.settled.dev) s.mem hp he hf hsup hr hs
    exact ⟨_, exec_bedBoundary (congrArg Cycle.wq stands), congrArg Cycle.phase stands, congrArg Cycle.bnd stands, congrArg Cycle.cur stands,
      congrArg Cycle.latched stands, congrArg Cycle.valid stands⟩

end Sys2Proof.Machine

/-! # Commits, abort and recoat (04_bed_cycle.md R98 to R104)

Each command's row is the operation on the device followed by its completion (`State.command_dev`), so its results are the cases of that operation.
With no bed in the device and no path running BED_ABORT comes down to blanking the ports in use (`Dev.bedAbort_idle`). -/

namespace Sys2Proof.Machine

open Sys2Proof.Safety

/-! ## BED_COMMIT and BED_UNCOMMIT (R98, R99) -/

/-- A command that runs on the device alone: its row leaves the device that the body makes, finished with the body's result. -/
theorem State.command_dev {s : State} {l : Lane} {op : Nat} {tag : Word} {body : State → State × Res × DWord} {d : Dev} {res : Res}
    (hr : s.dev.mayRun l op tag = true) (hs : s.dev.sys.sup ≠ .halted) (hb : body s = ({ s with dev := d }, res, 0)) :
    s.command l op tag body = { s with dev := d.finish l op tag res.code 0 } := by
  rw [State.command_runs s l op tag body hr hs, hb]
  rfl

theorem exec_bedCommit {tag n g : Word} {s : State} (hr : s.dev.mayRun .ctrl 0x30 tag = true) (hs : s.dev.sys.sup ≠ .halted) {d : Dev}
    {res : Res} (hd : s.dev.bedCommit n.toNat g = (d, res)) :
    exec (.bedCommit tag n g) s = .next { s with dev := d.finish .ctrl 0x30 tag res.code 0 } :=
  congrArg Host.Outcome.next (State.command_dev hr hs (by rw [hd]))

theorem exec_bedUncommit {tag : Word} {s : State} (hr : s.dev.mayRun .ctrl 0x31 tag = true) (hs : s.dev.sys.sup ≠ .halted) {d : Dev}
    {res : Res} (hd : s.dev.bedUncommit = (d, res)) :
    exec (.bedUncommit tag) s = .next { s with dev := d.finish .ctrl 0x31 tag res.code 0 } :=
  congrArg Host.Outcome.next (State.command_dev hr hs (by rw [hd]))

theorem exec_bedAbort {tag : Word} {s : State} (hr : s.dev.mayRun .ctrl 0x32 tag = true) (hs : s.dev.sys.sup ≠ .halted) :
    exec (.bedAbort tag) s = .next { s with dev := (s.dev.bedAbort s.mem).finish .ctrl 0x32 tag Res.ok.code 0 } :=
  congrArg Host.Outcome.next (State.command_dev hr hs rfl)

section
variable {tag : Word} {s : State} (hr : s.dev.mayRun .ctrl 0x33 tag = true) (hs : s.dev.sys.sup ≠ .halted)
include hr hs

theorem exec_bedRecoated_not_recoat (hp : s.dev.get F.BED_STAT_PHASE ≠ 3) :
    exec (.bedRecoated tag) s = .next { s with dev := s.dev.finish .ctrl 0x33 tag Res.notRecoat.code 0 } :=
  congrArg Host.Outcome.next (State.command_dev hr hs (if_neg (by simpa using hp)))

theorem exec_bedRecoated_recoat (hp : s.dev.get F.BED_STAT_PHASE = 3) :
    exec (.bedRecoated tag) s = .next { s with dev := (s.dev.recoatComplete s.mem).finish .ctrl 0x33 tag Res.ok.code 0 } :=
  congrArg Host.Outcome.next (State.command_dev hr hs (if_pos (by simp [hp])))

end

section
variable {d : Dev} {n : Nat} {g : Word}

theorem Dev.bedCommit_param (hn : 16 ≤ n) : d.bedCommit n g = (d, .param) := if_pos hn

theorem Dev.bedCommit_unrigged (hn : n < 16) (hr : d.rigged = false) : d.bedCommit n g = (d, .unrigged) := by
  simp [Dev.bedCommit, Nat.not_le.mpr hn, hr]

theorem Dev.bedCommit_stale (hn : n < 16) (hr : d.rigged = true) (hg : d.genIs n g = false) : d.bedCommit n g = (d, .stale) := by
  simp [Dev.bedCommit, Nat.not_le.mpr hn, hr, hg]

theorem Dev.bedCommit_busy (hn : n < 16) (hr : d.rigged = true) (hg : d.genIs n g = true) (hc : d.get F.BED_NEXT_COMMITTED = 1) :
    d.bedCommit n g = (d, .busy) := by
  simp [Dev.bedCommit, Nat.not_le.mpr hn, hr, hg, hc]

theorem Dev.bedCommit_state (hn : n < 16) (hr : d.rigged = true) (hg : d.genIs n g = true) (hc : d.get F.BED_NEXT_COMMITTED = 0)
    (hb : d.get (F.BED_BUFn_STAT_STATE n) ≠ 2) : d.bedCommit n g = (d, .state) := by
  simp [Dev.bedCommit, Nat.not_le.mpr hn, hr, hg, hc, hb]

/-- The device with buffer n COMMITTED and named in BED_NEXT. -/
def Dev.bufCommitted (d : Dev) (n : Nat) : Dev := (d.put (F.BED_BUFn_STAT_STATE n) 3).nextPut (some n) d.lateWindow

/-- The device with buffer n COMMITTED in this T-tick and its DRAM channels awake (R331), before LATE is judged. -/
def Dev.commitNoted (d : Dev) (n : Nat) : Dev :=
  ({ d.bufCommitted n with bar := { (d.bufCommitted n).bar with commitTick := (d.bufCommitted n).tick } } : Dev).wakeDram

theorem Dev.bedCommit_commits (hn : n < 16) (hr : d.rigged = true) (hg : d.genIs n g = true) (hc : d.get F.BED_NEXT_COMMITTED = 0)
    (hb : d.get (F.BED_BUFn_STAT_STATE n) = 2) : d.bedCommit n g =
      if d.lateWindow then ((d.commitNoted n).put F.BED_STAT_LATE 1, .held) else (d.commitNoted n, .ok) := by
  unfold Dev.bedCommit
  rw [if_neg (Nat.not_le.mpr hn), if_neg (by simp [hr]), if_neg (by simp [hg]), if_neg (by simp [hc]), if_neg (by simp [hb])]
  rfl

/-- What a commit of buffer n at d shows, but for LATE. -/
structure Dev.Commits (d : Dev) (n : Nat) (d' : Dev) : Prop where
  state : d'.get (F.BED_BUFn_STAT_STATE n) = 3
  buf : d'.get F.BED_NEXT_BUF = n
  committed : d'.get F.BED_NEXT_COMMITTED = 1
  held : d'.get F.BED_NEXT_HELD = b2n d.lateWindow
  tick : d'.bar.commitTick = d.tick
  evr : d'.evr = d.evr
  eng : d'.eng = d.eng

theorem Dev.wakeOnly_wakeDram (d : Dev) : d.wakeOnly d.wakeDram :=
  Dev.wakeOnly_trans (d.wakeOnly_leaveSr (by decide)) (Dev.wakeOnly_leaveSr _ (by decide))

theorem Dev.commitNoted_commits (d : Dev) (hn : n < 16) : d.Commits n (d.commitNoted n) ∧
    (d.commitNoted n).get F.BED_STAT_LATE = d.get F.BED_STAT_LATE := by
  have wake := Dev.wakeOnly_wakeDram
    ({ d.bufCommitted n with bar := { (d.bufCommitted n).bar with commitTick := (d.bufCommitted n).tick } } : Dev)
  have next := (d.put (F.BED_BUFn_STAT_STATE n) 3).nextPut_regsKeep (some n) d.lateWindow
  have frame : d.bufCommitted n = { d with regs := (d.bufCommitted n).regs } := Dev.nextPut_frame ..
  obtain ⟨buf, committed, _, held⟩ := (d.put (F.BED_BUFn_STAT_STATE n) 3).nextPut_shows (some n) d.lateWindow
  have apart : ∀ n < 16, (F.BED_BUFn_STAT_STATE n).key ∉ wakeFlds.map Fld.key ∧ (F.BED_BUFn_STAT_STATE n).key ∉ nextFlds.map Fld.key ∧
      (F.BED_BUFn_STAT_STATE n).key ≠ F.BED_STAT_LATE.key := by decide
  obtain ⟨awake, other, early⟩ := apart n hn
  refine ⟨⟨?_, ?_, ?_, ?_, ?_, ?_, ?_⟩, ?_⟩
  · exact (wake.get awake).trans ((next _ other).trans (Dev.get_put_self _ _ _))
  · exact (wake.get (by decide)).trans (buf.trans (Nat.mod_eq_of_lt hn))
  · exact (wake.get (by decide)).trans committed
  · exact (wake.get (by decide)).trans held
  · rw [Dev.commitNoted, wake.1, frame]
  · rw [Dev.commitNoted, wake.1, frame]
  · rw [Dev.commitNoted, wake.1, frame]
  · exact (wake.get (by decide)).trans ((next _ (by decide)).trans (Dev.get_put_ne _ _ _ _ early))

theorem Dev.Commits.put_late {d' : Dev} (h : d.Commits n d') (hn : n < 16) : d.Commits n (d'.put F.BED_STAT_LATE 1) := by
  have apart : ∀ n < 16, F.BED_STAT_LATE.key ≠ (F.BED_BUFn_STAT_STATE n).key := by decide
  obtain ⟨state, buf, committed, held, tick, evr, eng⟩ := h
  exact ⟨(Dev.get_put_ne _ _ _ _ (apart n hn)).trans state, (Dev.get_put_ne _ _ _ _ (by decide)).trans buf,
    (Dev.get_put_ne _ _ _ _ (by decide)).trans committed, (Dev.get_put_ne _ _ _ _ (by decide)).trans held, tick, evr, eng⟩

/-- BED_COMMIT of a READY bed: LATE is set in the late window, and only then. -/
theorem Dev.bedCommit_ready (hn : n < 16) (hr : d.rigged = true) (hg : d.genIs n g = true) (hc : d.get F.BED_NEXT_COMMITTED = 0)
    (hb : d.get (F.BED_BUFn_STAT_STATE n) = 2) : ∃ d', d.bedCommit n g = (d', if d.lateWindow then .held else .ok) ∧ d.Commits n d' ∧
      d'.get F.BED_STAT_LATE = if d.lateWindow then 1 else d.get F.BED_STAT_LATE := by
  obtain ⟨commits, early⟩ := d.commitNoted_commits hn
  rw [Dev.bedCommit_commits hn hr hg hc hb]
  cases d.lateWindow with
  | true => exact ⟨_, rfl, commits.put_late hn, Dev.get_put_self _ _ _⟩
  | false => exact ⟨_, rfl, commits, early⟩

theorem Dev.bedUncommit_committed (hc : d.committedBuf = some n) :
    d.bedUncommit = ((d.put (F.BED_BUFn_STAT_STATE n) 2).nextPut none false, .ok) := by
  unfold Dev.bedUncommit
  rw [hc]

theorem Dev.bedUncommit_none (hc : d.committedBuf = none) :
    d.bedUncommit = (d, if d.bar.latched.isSome then .latched else .none) := by
  unfold Dev.bedUncommit
  rw [hc]

end

/-! ## BED_ABORT (R102) -/

/-- No path runs in a list of engines. -/
def noRun (l : Table Eng) : Prop := ∀ x ∈ l, x.2.run = none

theorem Dev.runningPorts_eq_nil {d : Dev} : d.runningPorts = [] ↔ noRun d.eng := by
  simp [Dev.runningPorts, noRun, List.filter_eq_nil_iff]

theorem mem_tput {α : Type} {t : Table α} {k : Nat} {v : α} {x : Nat × α} (h : x ∈ tput t k v) : x ∈ t ∨ x = (k, v) := by
  induction t with
  | nil => exact .inr (List.mem_singleton.mp h)
  | cons e t ih =>
    obtain ⟨i, a⟩ := e
    unfold tput at h
    split at h
    · exact (List.mem_cons.mp h).symm.imp_left (List.mem_cons_of_mem _)
    · split at h
      · exact (List.mem_cons.mp h).symm
      · rcases List.mem_cons.mp h with h | h
        · exact .inl (h ▸ List.mem_cons_self ..)
        · exact (ih h).imp_left (List.mem_cons_of_mem _)

/-- What a table answers at a key is its entry there or the default. -/
theorem tget_mem {α : Type} (x : α) (t : Table α) (k : Nat) : tget x t k = x ∨ (k, tget x t k) ∈ t := by
  induction t with
  | nil => exact .inl rfl
  | cons e t ih =>
    obtain ⟨i, a⟩ := e
    unfold tget
    split
    case isTrue h => exact .inr (beq_iff_eq.mp h ▸ List.mem_cons_self ..)
    case isFalse => exact ih.imp_right (List.mem_cons_of_mem _)

theorem noRun_updRun {d : Dev} (h : noRun d.eng) (p : Nat) (f : Run → Run) : noRun (d.updRun p f).eng := by
  intro x hx
  rcases mem_tput hx with hx | rfl
  · exact h x hx
  · have idle : (d.engOf p).run = none := by
      rcases tget_mem eng0 d.eng p with e | e
      · exact congrArg Eng.run e
      · exact h _ e
    exact congrArg (Option.map f) idle

/-- Of the device d only beams were blanked: ports, engines without a path, and BEAMn_PSTAT.EMIT of ports. -/
structure Dev.Blanked (d d' : Dev) : Prop where
  frame : d' = { d with regs := d'.regs, prt := d'.prt, eng := d'.eng }
  keeps : regsKeep ((upTo 32).map F.BEAMn_PSTAT_EMIT) d d'
  idle : noRun d'.eng

/-- The beam of port p is off. -/
def Dev.beamOff (d : Dev) (p : Nat) : Prop := d.get (F.BEAMn_PSTAT_EMIT p) = 0 ∧ (d.prtOf p).gate = false

section
variable {d e : Dev}

theorem Dev.Blanked.blankPort (h : d.Blanked e) {p : Nat} (hp : p < 32) : d.Blanked (e.blankPort p) where
  frame := by
    obtain ⟨r, pr, en, q⟩ : ∃ r pr en, e = { d with regs := r, prt := pr, eng := en } := ⟨_, _, _, h.frame⟩
    subst q
    rfl
  keeps := regsKeep_setField (regsKeep_trans h.keeps (regsKeep_of_regs rfl)) _ (List.mem_map_of_mem (List.mem_range.mpr hp))
  idle := noRun_updRun (d := e.updPrt p _) h.idle p _

theorem Dev.blankPort_beamOff (d : Dev) (p : Nat) : (d.blankPort p).beamOff p := by
  have gate : ∀ x : Dev, x.prt = tput d.prt p { d.prtOf p with gate := false, edges := [(0, false)], blank := true } →
      x.gateNow p = false := by
    intro x hx
    rw [Dev.gateNow, Dev.prtOf, hx, tget_tput_self]
    simp [gateAt]
  refine ⟨?_, ?_⟩
  · rw [Dev.blankPort, Dev.emitBit, Dev.setFlag_eq, Dev.get_put_self, Dev.emitLevel, gate _ rfl]
    rfl
  · show (tget prt0 (tput d.prt p _) p).gate = false
    rw [tget_tput_self]

/-- A beam that is off stays off when another one, or it again, is blanked. -/
theorem Dev.beamOff.blankPort {p : Nat} (h : d.beamOff p) (q : Nat) : (d.blankPort q).beamOff p := by
  by_cases hpq : p = q
  · exact hpq ▸ d.blankPort_beamOff p
  · have apart : (F.BEAMn_PSTAT_EMIT q).key ≠ (F.BEAMn_PSTAT_EMIT p).key := by
      simp only [Fld.key, F.BEAMn_PSTAT_EMIT]
      omega
    refine ⟨(Dev.get_put_ne _ _ _ _ apart).trans h.1, ?_⟩
    show (tget prt0 (tput d.prt q _) p).gate = false
    rw [tget_tput_ne _ _ _ _ _ (Ne.symm hpq)]
    exact h.2

end

theorem mem_portsInUse_lt {l : List Section} {p : Nat} (h : p ∈ portsInUse l) : p < 32 :=
  List.mem_range.mp (List.mem_of_mem_filter h)

/-- The beams of the ports in use are blanked. -/
def Dev.portsBlanked (d : Dev) : Dev := (portsInUse (d.sections false)).foldl (fun d p => d.blankPort p) d

/-- Blanking every port in use leaves all of their beams off. -/
theorem Dev.portsBlanked_blanked (d : Dev) (h : noRun d.eng) :
    d.Blanked d.portsBlanked ∧ ∀ p ∈ portsInUse (d.sections false), d.portsBlanked.beamOff p := by
  have start : d.Blanked d := ⟨rfl, regsKeep_refl _ d, h⟩
  have step : ∀ e, ∀ q ∈ portsInUse (d.sections false), d.Blanked e → d.Blanked (e.blankPort q) :=
    fun e q hq he => he.blankPort (mem_portsInUse_lt hq)
  refine ⟨List.foldlRecOn (motive := d.Blanked) _ _ start (fun e he q hq => step e q hq he), fun p hp => ?_⟩
  exact foldl_reaches (P := fun e => e.beamOff p) _ _ step (fun e q _ _ off => off.blankPort q) ⟨p, hp, fun e _ => e.blankPort_beamOff p⟩ start

section
variable {d : Dev} (hb : d.bar.beds = [])
include hb

/-- Without beds no tile is unfinished. -/
theorem Dev.unfinished_of_no_beds (n s : Nat) : d.unfinished n s = [] := by
  unfold Dev.unfinished Dev.bed?
  rw [hb]
  rfl

theorem Dev.updBed_of_no_beds (n : Nat) (f : Bed → Bed) : d.updBed n f = d := by
  unfold Dev.updBed
  rw [hb]
  rfl

theorem Dev.bedCheck_of_no_beds (n : Nat) : d.bedCheck n = d := by
  unfold Dev.bedCheck Dev.bed?
  rw [hb]
  rfl

variable (hl : d.bar.latched = none) (hr : d.runningPorts = []) (hp : d.get F.BED_STAT_PHASE = 2 ∨ d.get F.BED_STAT_PHASE = 3)
include hl hr hp

/-- BED_ABORT with nothing in the device: the beams go off, RUN is cleared, and the event tells it. -/
theorem Dev.bedAbort_idle (m : Dram) : d.bedAbort m = (d.portsBlanked.put F.BED_CTRL_RUN 0).raise 0x020F 0x03 3 0
    (if d.get F.BED_CUR_VALID = 0 then 0 else d.get F.BED_CUR_NO_BED_NO) d.tick.toNat := by
  obtain ⟨blanked, _⟩ := d.portsBlanked_blanked (Dev.runningPorts_eq_nil.mp hr)
  have bar : d.portsBlanked.bar = d.bar := by rw [blanked.frame]
  have tick : d.portsBlanked.tick = d.tick := by rw [blanked.frame]
  have noBeds : d.portsBlanked.bar.beds = [] := (congrArg Bar.beds bar).trans hb
  have noPorts : d.portsBlanked.runningPorts = [] := Dev.runningPorts_eq_nil.mpr blanked.idle
  have unlatched : d.portsBlanked.unlatch = d.portsBlanked := by
    unfold Dev.unlatch
    rw [bar, hl]
  have stays : d.portsBlanked.cycle.mayIdle = false := by
    have cycle : d.portsBlanked.cycle = d.cycle := foldl_cycle _ (fun e he p => (e.blankPort_cycle p).trans he)
    rw [cycle, Cycle.mayIdle, Dev.cycle_phase]
    rcases hp with hp | hp <;> rw [hp] <;> rfl
  unfold Dev.bedAbort
  extract_lets no d1 todo d2 d3 d4
  have number : no = if d.get F.BED_CUR_VALID = 0 then 0 else d.get F.BED_CUR_NO_BED_NO := by simp [no]
  have nothing : todo = [] := by simp [todo, Dev.unfinished_of_no_beds hb]
  have e2 : d2 = d.portsBlanked := by rw [show d2 = todo.foldl _ d.portsBlanked from rfl, nothing, List.foldl_nil]
  have e3 : d3 = d.portsBlanked := by rw [show d3 = d2.runningPorts.foldl _ d2 from rfl, e2, noPorts, List.foldl_nil]
  have e4 : d4 = d.portsBlanked := by
    rw [show d4 = d3.inFlight.foldl _ d3 from rfl, e3]
    refine List.foldlRecOn (motive := (· = d.portsBlanked)) _ _ rfl (fun e he n _ => ?_)
    rw [he, Dev.updBed_of_no_beds noBeds, Dev.bedCheck_of_no_beds noBeds]
  rw [Dev.idleCheck_of_not_mayIdle (by simp [e4, unlatched, stays]), e4, unlatched, nothing, number, ← tick]
  rfl

end

/-- What BED_ABORT shows where no bed is in the device and no path runs. -/
theorem Dev.bedAbort_shows {d : Dev} (hb : d.bar.beds = []) (hl : d.bar.latched = none) (hr : d.runningPorts = [])
    (hp : d.get F.BED_STAT_PHASE = 2 ∨ d.get F.BED_STAT_PHASE = 3) (m : Dram) :
    (d.bedAbort m).get F.BED_CTRL_RUN = 0 ∧ (d.bedAbort m).get F.BED_STAT_PHASE = d.get F.BED_STAT_PHASE ∧
    recorded d (d.bedAbort m) 0x020F 0x03 3 0 (if d.get F.BED_CUR_VALID = 0 then 0 else d.get F.BED_CUR_NO_BED_NO) d.tick.toNat ∧
    (∀ p ∈ portsInUse (d.sections false), p < 32 → (d.bedAbort m).beamOff p) ∧
    d.bedAbort m = { d with regs := (d.bedAbort m).regs, evr := (d.bedAbort m).evr, prt := (d.bedAbort m).prt, eng := (d.bedAbort m).eng } ∧
    regsKeep (recFlds ++ F.BED_CTRL_RUN :: (upTo 32).map F.BEAMn_PSTAT_EMIT) d (d.bedAbort m) := by
  obtain ⟨blanked, off⟩ := d.portsBlanked_blanked (Dev.runningPorts_eq_nil.mp hr)
  have apart : ∀ p < 32, (F.BEAMn_PSTAT_EMIT p).key ∉ recFlds.map Fld.key ∧ F.BED_CTRL_RUN.key ≠ (F.BEAMn_PSTAT_EMIT p).key := by decide
  rw [Dev.bedAbort_idle hb hl hr hp m]
  refine ⟨?_, ?_, ?_, fun p hp h32 => ⟨?_, ?_⟩, ?_, ?_⟩
  · rw [Dev.get_raise _ _ _ _ _ _ _ _ (by decide), Dev.get_put_self]
    rfl
  · rw [Dev.get_raise _ _ _ _ _ _ _ _ (by decide), Dev.get_put_ne _ _ _ _ (by decide), blanked.keeps _ (by decide)]
  · rw [recorded, Dev.put_raise_evr _ _ _ _ _ _ _ _ _ (by decide)]
    exact Dev.raise_evr_congr _ _ _ _ _ _ _ _ (by rw [blanked.frame]) (by rw [blanked.frame]) (blanked.keeps _ (by decide))
  · rw [Dev.get_raise _ _ _ _ _ _ _ _ (apart p h32).1, Dev.get_put_ne _ _ _ _ (apart p h32).2]
    exact (off p hp).1
  · rw [Dev.prtOf, Dev.raise_prt]
    exact (off p hp).2
  · obtain ⟨r, prt, eng, e⟩ : ∃ r prt eng, d.portsBlanked = { d with regs := r, prt := prt, eng := eng } := ⟨_, _, _, blanked.frame⟩
    rw [e]
    conv_lhs => rw [Dev.raise_eq]
    rw [Dev.raise_prt, Dev.raise_eng]
    rfl
  · have beams := regsKeep_mono (gs := recFlds ++ F.BED_CTRL_RUN :: (upTo 32).map F.BEAMn_PSTAT_EMIT) blanked.keeps
      (fun _ h => List.mem_append_right _ (List.mem_cons_of_mem _ h))
    exact regsKeep_trans (regsKeep_setField beams _ (by simp)) (regsKeep_raise _ _ _ _ _ _ _ (fun _ h => List.mem_append_left _ h))

/-! ## BED_RECOATED (R100, R104) -/

/-- The device d in STARVED, its event recorded. -/
def Dev.starved (d : Dev) : Dev :=
  (((d.put F.BED_STAT_PHASE 4).put F.BED_STAT_STARVE 1).raise 0x0204 0x03 2 d.bar.oldNo.toNat d.tick.toNat 0).attn .starve

/-- Recoat complete with no bed current and RUN set leads to STARVED. -/
theorem Dev.recoatComplete_starves {d : Dev} (m : Dram) (hp : d.get F.BED_STAT_PHASE = 3) (hc : d.bar.cur = none) (ho : d.bar.old = none)
    (hv : d.get F.BED_CUR_VALID = 0) (hr : d.get F.BED_CTRL_RUN = 1) : d.recoatComplete m = d.starved := by
  have same : d.abandonOld m allStripes 2 = d := by
    unfold Dev.abandonOld
    rw [ho]
  unfold Dev.recoatComplete
  rw [if_pos (by simp [hp]), hc]
  show Dev.afterRecoat (d.abandonOld m allStripes 2) = _
  rw [same, Dev.afterRecoat, if_neg (by simp [hv]), if_neg (by simp [hr])]
  rfl

theorem Dev.starved_shows (d : Dev) : d.starved.get F.BED_STAT_PHASE = 4 ∧ d.starved.get F.BED_STAT_STARVE = 1 ∧
    bitAt (d.starved.get F.HST_ATTN_CAUSE) 12 = true ∧ recorded d d.starved 0x0204 0x03 2 d.bar.oldNo.toNat d.tick.toNat 0 ∧
    d.starved = { d with regs := d.starved.regs, evr := d.starved.evr } ∧
    regsKeep (recFlds ++ [F.BED_STAT_PHASE, F.BED_STAT_STARVE]) d d.starved := by
  refine ⟨?_, ?_, ?_, ?_, ?_, ?_⟩
  · rw [Dev.starved, Dev.attn_eq, Dev.get_put_ne _ _ _ _ (by decide), Dev.get_raise _ _ _ _ _ _ _ _ (by decide),
      Dev.get_put_ne _ _ _ _ (by decide), Dev.get_put_self]
    rfl
  · rw [Dev.starved, Dev.attn_eq, Dev.get_put_ne _ _ _ _ (by decide), Dev.get_raise _ _ _ _ _ _ _ _ (by decide), Dev.get_put_self]
    rfl
  · rw [Dev.starved, Dev.attn_eq, Dev.get_put_self]
    exact bitAt_bitPut_mod (by decide)
  · rw [recorded, Dev.starved, Dev.attn_eq, Dev.put_evr, Dev.put_raise_evr _ _ _ _ _ _ _ _ _ (by decide),
      Dev.put_raise_evr _ _ _ _ _ _ _ _ _ (by decide)]
  · conv_lhs => rw [Dev.starved, Dev.attn_eq, Dev.raise_eq]
    rfl
  · have shown := regsKeep_setField (regsKeep_put (fs := recFlds ++ [F.BED_STAT_PHASE, F.BED_STAT_STARVE]) d F.BED_STAT_PHASE 4 (by simp))
      (F := F.BED_STAT_STARVE) 1 (by simp)
    exact regsKeep_setField (regsKeep_trans shown (regsKeep_raise _ _ _ _ _ _ _ (fun _ h => List.mem_append_left _ h))) _
      (by simp [recFlds])

/-- Settles O16: each row's result is that of the operation on the Control Bar, whose cases are those of the statement. -/
theorem bedsCommitAbortRecoat : Obligations.BedsCommitAbortRecoat := by
  refine ⟨⟨?commits, ?uncommits⟩, ?aborts, ?recoated⟩
  case commits =>
    intro tag n g s hr hs k answer
    have same : ∀ r, s.dev.bedCommit k g = (s.dev, r) → answer r := fun r h => exec_bedCommit hr hs h
    refine ⟨fun hk => same _ (Dev.bedCommit_param hk), fun hk h => same _ (Dev.bedCommit_unrigged hk h),
      fun hk h hg => same _ (Dev.bedCommit_stale hk h hg), fun hk h hg hc => same _ (Dev.bedCommit_busy hk h hg hc),
      fun hk h hg hc h2 => same _ (Dev.bedCommit_state hk h hg hc h2), fun hk h hg hc h2 => ?_⟩
    obtain ⟨d, hd, ⟨state, buf, committed, held, tick, evr, eng⟩, late⟩ := Dev.bedCommit_ready hk h hg hc h2
    refine ⟨d, ?_, state, buf, committed, held, tick, fun hl => ?_, fun hl => ?_, evr, eng⟩
    · rw [exec_bedCommit hr hs hd]
      cases s.dev.lateWindow <;> rfl
    · rw [late, hl]
      rfl
    · rw [late, hl]
      rfl
  case uncommits =>
    intro tag s hr hs
    refine ⟨fun n hc hn => ?_, fun hc => ?_⟩
    · have apart : ∀ n < 16, (F.BED_BUFn_STAT_STATE n).key ∉ nextFlds.map Fld.key := by decide
      obtain ⟨_, committed, _, _⟩ := (s.dev.put (F.BED_BUFn_STAT_STATE n) 2).nextPut_shows none false
      refine ⟨_, exec_bedUncommit hr hs (Dev.bedUncommit_committed hc), ?_, committed, Dev.nextPut_frame ..⟩
      exact (Dev.nextPut_regsKeep _ _ _ _ (apart n hn)).trans (Dev.get_put_self _ _ _)
    · rw [exec_bedUncommit hr hs (Dev.bedUncommit_none hc)]
      cases s.dev.bar.latched.isSome <;> rfl
  case aborts =>
    intro tag s hr hs hb hl hports hp
    exact ⟨_, exec_bedAbort hr hs, Dev.bedAbort_shows hb hl hports hp s.mem⟩
  case recoated =>
    intro tag s hr hs
    refine ⟨fun hp => exec_bedRecoated_not_recoat hr hs hp, fun hp hc ho hv hrun => ⟨s.dev.starved, ?_, s.dev.starved_shows⟩⟩
    rw [exec_bedRecoated_recoat hr hs hp, Dev.recoatComplete_starves s.mem hp hc ho hv hrun]

end Sys2Proof.Machine

/-! # Table images (05_trajectory.md R133 to R136; 07_power_loops.md R199 to R203; 10_encoders_axes.md R291)

The three load commands have one shape: the image is read from DRAM, judged, and only an accepted one reaches the device. So each command is
first said as its result, case by case, and then what an accepted image leaves is said of the device. -/

namespace Sys2Proof.Machine

open Sys2Proof.Safety

/-- A command that may run leaves what its body makes, finished with the body's result. -/
theorem State.command_result {s t : State} {l : Lane} {op : Nat} {tag : Word} {body : State → State × Res × DWord} {res : Res}
    (hr : s.dev.mayRun l op tag = true) (hs : s.dev.sys.sup ≠ .halted) (hb : body s = (t, res, 0)) :
    s.command l op tag body = t.onDev (fun d => d.finish l op tag res.code 0) := by
  rw [State.command_runs s l op tag body hr hs, hb]

/-- A command whose body changes the device alone. -/
theorem State.command_onDev {s t : State} {l : Lane} {op : Nat} {tag : Word} {body : State → State × Res × DWord} {res : Res} {f : Dev → Dev}
    (hr : s.dev.mayRun l op tag = true) (hs : s.dev.sys.sup ≠ .halted) (hb : body s = (t.onDev f, res, 0)) :
    s.command l op tag body = t.onDev (fun d => (f d).finish l op tag res.code 0) :=
  State.command_result hr hs hb

/-- The same with the device written out. -/
theorem State.command_setDev {s t : State} {l : Lane} {op : Nat} {tag : Word} {body : State → State × Res × DWord} {res : Res} {f : Dev → Dev}
    (hr : s.dev.mayRun l op tag = true) (hs : s.dev.sys.sup ≠ .halted) (hb : body s = (t.onDev f, res, 0)) :
    s.command l op tag body = { t with dev := (f t.dev).finish l op tag res.code 0 } :=
  State.command_result hr hs hb

/-! ## The bits of a port -/

theorem Dev.portBits_frame (d : Dev) (p : Nat) : d.portBits p = { d with regs := (d.portBits p).regs } := rfl

theorem Dev.portBits_regsKeep (d : Dev) (p : Nat) : regsKeep [F.BEAMn_TSTAT_STATE p, F.BEAMn_PSTAT_EMIT p] d (d.portBits p) :=
  regsKeep_setField (regsKeep_put _ _ _ (by simp)) _ (by simp)

/-! ## CORR_LOAD (R135) -/

section
variable {s : State} {port : Word} {addr : DWord} {len : Word} (ha : aligned16 addr = true) (hp : port.toNat ≤ 31)
include ha hp

theorem State.corrLoad_unrigged (hg : s.dev.rigged = false) : s.corrLoad port addr len = (s, .unrigged, 0) := by
  simp [State.corrLoad, ha, hp, hg]

theorem State.corrLoad_running (hg : s.dev.rigged = true) (h0 : s.dev.get F.BED_STAT_PHASE ≠ 0) (hi : s.dev.inService port.toNat = true) :
    s.corrLoad port addr len = (s, .running, 0) := by
  simp [State.corrLoad, ha, hp, hg, h0, hi]

section
variable (hg : s.dev.rigged = true) (h0 : s.dev.get F.BED_STAT_PHASE = 0) {r : State × List Byte × Bool}
  (hr : s.imageRead addr.toNat (min len.toNat (64 + corrPayLen)) = r)
include hg h0 hr

theorem State.corrLoad_refused {o : Nat} (hb : badCorrImage (r.1.dev.sections false) port.toNat r.2.1 len.toNat (!r.2.2) = some o) :
    s.corrLoad port addr len =
      (r.1.onDev (fun d => d.raise 0x0303 (srcPort port.toNat) 2 port.toNat o (leAt r.2.1 0x14 4)), .refused, 0) := by
  subst hr
  simp [State.corrLoad, State.onDev, ha, hp, hg, h0, hb]

theorem State.corrLoad_accepted (hb : badCorrImage (r.1.dev.sections false) port.toNat r.2.1 len.toNat (!r.2.2) = none) :
    s.corrLoad port addr len = (r.1.onDev (fun d => d.corrAccept port.toNat r.2.1), .ok, 0) := by
  subst hr
  simp [State.corrLoad, State.onDev, ha, hp, hg, h0, hb]

end
end

section
variable (d : Dev) (p : Nat) (img : List Byte)

/-- The device that an accepted correction reaches, before the flags and bits of its port follow. -/
def Dev.corrPlaced : Dev :=
  let c : CorrImg := { x0 := sext 32 (leAt img 0x08 4), y0 := sext 32 (leAt img 0x0C 4), pitch := leAt img 0x10 4, payload := img.drop 64 }
  let d1 := (d.raise 0x0302 (srcPort p) 1 p (d.get (F.BEAMn_CORR_ID_CORR_ID p)) (leAt img 0x14 4)).put (F.BEAMn_CORR_ID_CORR_ID p)
    (leAt img 0x14 4)
  ({ d1 with corr := tput d1.corr p c }).updPrt p (fun x => { x with corrHold := x.corrHold || d.get F.BED_STAT_PHASE != 0 })

/-- While the Control Bar runs, the port stays out of service (R135). -/
def Dev.corrHeld : Dev :=
  if d.get F.BED_STAT_PHASE != 0 && d.get (F.HND_Pn_STAT_STATE p) == 0 then
    (d.corrPlaced p img).put (F.HND_Pn_STAT_STATE p) 2
  else d.corrPlaced p img

theorem Dev.corrAccept_eq : d.corrAccept p img = ((d.corrHeld p img).setFlag (F.BEAMn_TSTAT_NOGRID p) false).portBits p := rfl

theorem Dev.corrHeld_frame : d.corrHeld p img = { d.corrPlaced p img with regs := (d.corrHeld p img).regs } := by
  unfold Dev.corrHeld
  split <;> rfl

theorem Dev.corrHeld_regsKeep : regsKeep [F.HND_Pn_STAT_STATE p] (d.corrPlaced p img) (d.corrHeld p img) := by
  unfold Dev.corrHeld
  split
  · exact regsKeep_put _ _ _ (by simp)
  · exact regsKeep_refl _ _

theorem Dev.corrAccept_frame : d.corrAccept p img = { d.corrPlaced p img with regs := (d.corrAccept p img).regs } := by
  rw [Dev.corrAccept_eq, Dev.portBits_frame, Dev.setFlag_eq]
  exact congrArg (fun x : Dev => { x with regs := (((d.corrHeld p img).put (F.BEAMn_TSTAT_NOGRID p) (b2n false)).portBits p).regs })
    (d.corrHeld_frame p img)

theorem Dev.corrAccept_payload : (tfind (d.corrAccept p img).corr p).map (fun c => c.payload) = some (img.drop 64) := by
  rw [Dev.corrAccept_frame]
  exact congrArg (Option.map CorrImg.payload) (tfind_tput_self _ _ _)

theorem Dev.corrAccept_recorded : recorded d (d.corrAccept p img) 0x0302 (srcPort p) 1 p (d.get (F.BEAMn_CORR_ID_CORR_ID p)) (leAt img 0x14 4) := by
  rw [recorded, Dev.corrAccept_frame]
  rfl

theorem Dev.corrAccept_id (hp : p ≤ 31) : (d.corrAccept p img).get (F.BEAMn_CORR_ID_CORR_ID p) = leAt img 0x14 4 % 2 ^ 32 := by
  have placed : (d.corrPlaced p img).get (F.BEAMn_CORR_ID_CORR_ID p) = leAt img 0x14 4 % 2 ^ 32 := Dev.get_put_self _ _ _
  have held := d.corrHeld_regsKeep p img (F.BEAMn_CORR_ID_CORR_ID p)
    (by simp only [List.map, List.mem_singleton, Fld.key, F.BEAMn_CORR_ID_CORR_ID, F.HND_Pn_STAT_STATE]; omega)
  have flagged := Dev.get_put_ne (d.corrHeld p img) (F.BEAMn_TSTAT_NOGRID p) (F.BEAMn_CORR_ID_CORR_ID p) (b2n false)
    (by simp only [Fld.key, F.BEAMn_TSTAT_NOGRID, F.BEAMn_CORR_ID_CORR_ID]; omega)
  have bits := ((d.corrHeld p img).put (F.BEAMn_TSTAT_NOGRID p) (b2n false)).portBits_regsKeep p (F.BEAMn_CORR_ID_CORR_ID p)
    (by simp [Fld.key, F.BEAMn_CORR_ID_CORR_ID, F.BEAMn_TSTAT_STATE, F.BEAMn_PSTAT_EMIT]; omega)
  exact bits.trans (flagged.trans (held.trans placed))

theorem Dev.corrAccept_nogrid : (d.corrAccept p img).get (F.BEAMn_TSTAT_NOGRID p) = 0 := by
  have bits := ((d.corrHeld p img).put (F.BEAMn_TSTAT_NOGRID p) (b2n false)).portBits_regsKeep p (F.BEAMn_TSTAT_NOGRID p)
    (by simp [Fld.key, F.BEAMn_TSTAT_NOGRID, F.BEAMn_TSTAT_STATE, F.BEAMn_PSTAT_EMIT]; omega)
  exact bits.trans (Dev.get_put_self _ _ _)

end

/-! ## LOOP_LOAD (R199, R203) -/

section
variable {s : State} {addr : DWord} {len : Word} (ha : aligned16 addr = true)
include ha

theorem State.loopLoad_unrigged (hg : s.dev.rigged = false) : s.loopLoad addr len = (s, .unrigged, 0) := by
  simp [State.loopLoad, ha, hg]

section
variable (hg : s.dev.rigged = true) {r : State × List Byte × Bool} (hr : s.imageRead addr.toNat (min len.toNat 65600) = r) {p : Nat}
  (hk : byteAt r.2.1 6 = 1) (hp : byteAt r.2.1 7 = p)
include hg hr hk hp

theorem State.loopLoad_busy {w : Word × List Byte} (hw : (r.1.dev.loopOfPort p).pend = some w) : s.loopLoad addr len = (r.1, .busy, 0) := by
  subst hr hp
  simp [State.loopLoad, ha, hg, hk, hw]

theorem State.loopLoad_refused {o : Nat} (h31 : p ≤ 31) (hw : (r.1.dev.loopOfPort p).pend = none)
    (hb : badLoopImage (r.1.dev.sections false) r.2.1 len.toNat (!r.2.2) = some o) :
    s.loopLoad addr len = (r.1.onDev (fun d => d.raise 0x0403 (srcPort p) 2 (pair8 1 p) o (f32At r.2.1 8).toNat), .refused, 0) := by
  subst hr hp
  simp [State.loopLoad, State.onDev, ha, hg, hk, h31, hw, hb]

theorem State.loopLoad_accepted (hw : (r.1.dev.loopOfPort p).pend = none)
    (hb : badLoopImage (r.1.dev.sections false) r.2.1 len.toNat (!r.2.2) = none) :
    s.loopLoad addr len = (r.1.onDev (fun d => d.loopAccept 1 p (f32At r.2.1 8) (r.2.1.drop 64)), .ok, 0) := by
  subst hr hp
  simp [State.loopLoad, State.onDev, ha, hg, hk, hw, hb]

end
end

section
variable {d : Dev} {p : Nat} (id : Word) (pay : List Byte)

/-- Tables that come to wait for port p and go live at once (R18, R199). -/
def Dev.tablesPlaced (e : Dev) (p : Nat) (id : Word) (pay : List Byte) : Dev :=
  (((e.updLoop p (fun l => { l with pend := some (id, pay) })).updLoop p (fun l => { l with tab := pay, pend := none })).put
    (F.LOOPn_TABLE_ID_TABLE_ID p) id.toNat).setBit F.LOOP_PEND_PORTS p false

theorem Dev.tablesPlaced_evr (e : Dev) : (e.tablesPlaced p id pay).evr = e.evr := rfl

theorem Dev.tablesPlaced_loop (e : Dev) :
    ((e.tablesPlaced p id pay).loopOfPort p).tab = pay ∧ ((e.tablesPlaced p id pay).loopOfPort p).pend = none :=
  ⟨congrArg LoopEng.tab (tget_tput_self _ _ _ _), congrArg LoopEng.pend (tget_tput_self _ _ _ _)⟩

theorem Dev.tablesPlaced_id (e : Dev) : (e.tablesPlaced p id pay).get (F.LOOPn_TABLE_ID_TABLE_ID p) = id.toNat := by
  have apart : F.LOOP_PEND_PORTS.key ≠ (F.LOOPn_TABLE_ID_TABLE_ID p).key := by
    simp only [Fld.key, F.LOOP_PEND_PORTS, F.LOOPn_TABLE_ID_TABLE_ID]
    omega
  exact (Dev.get_put_ne _ _ _ _ apart).trans ((Dev.get_put_self _ _ _).trans (Nat.mod_eq_of_lt id.isLt))

/-- An accepted image of an engine without a running path waits for no boundary (R199, R203). -/
theorem Dev.loopAccept_at_rest (hn : d.runOf p = none) : d.loopAccept 1 p id pay =
    (d.raise 0x0402 (srcPort p) 1 (pair8 1 p) (d.get (F.LOOPn_TABLE_ID_TABLE_ID p)) id.toNat).tablesPlaced p id pay := by
  have pend : ∀ e : Dev, ((e.updLoop p (fun l => { l with pend := some (id, pay) })).loopOfPort p).pend = some (id, pay) :=
    fun e => congrArg LoopEng.pend (tget_tput_self _ _ _ _)
  simp only [Dev.loopAccept, beq_self_eq_true, if_true, hn, Option.isSome_none, Bool.false_eq_true, if_false, Dev.tablesLive, pend,
    Dev.tablesPlaced]

theorem Dev.loopAccept_shows (hn : d.runOf p = none) : ((d.loopAccept 1 p id pay).loopOfPort p).tab = pay ∧
    ((d.loopAccept 1 p id pay).loopOfPort p).pend = none ∧ (d.loopAccept 1 p id pay).get (F.LOOPn_TABLE_ID_TABLE_ID p) = id.toNat ∧
    recorded d (d.loopAccept 1 p id pay) 0x0402 (srcPort p) 1 (pair8 1 p) (d.get (F.LOOPn_TABLE_ID_TABLE_ID p)) id.toNat := by
  rw [Dev.loopAccept_at_rest id pay hn]
  obtain ⟨live, waiting⟩ := Dev.tablesPlaced_loop (p := p) id pay
    (d.raise 0x0402 (srcPort p) 1 (pair8 1 p) (d.get (F.LOOPn_TABLE_ID_TABLE_ID p)) id.toNat)
  exact ⟨live, waiting, Dev.tablesPlaced_id _ _ _, Dev.tablesPlaced_evr _ _ _⟩

end

/-! ## AXS_LOAD (R291) -/

/-- The table of axis a goes live (R291): its event, its identifier, the values themselves. -/
def Dev.axisTableLive (d : Dev) (a : Nat) (id : Word) (tab : List Byte) : Dev :=
  ((d.raise 0x0912 (srcAxis a) 1 a (d.get (F.AXSa_TABLE_ID_TABLE_ID a)) id.toNat).put (F.AXSa_TABLE_ID_TABLE_ID a) id.toNat).updAxs a
    (fun x => { x with tab := tab })

section
variable {s : State} {addr : DWord} {len : Word} (ha : aligned16 addr = true)
include ha

theorem State.axsLoad_unrigged (hg : s.dev.rigged = false) : s.axsLoad addr len = (s, .unrigged, 0) := by
  simp [State.axsLoad, ha, hg]

section
variable (hg : s.dev.rigged = true) {r : State × List Byte × Bool} (hr : s.imageRead addr.toNat (min len.toNat 4416) = r) {a : Nat}
  (hx : byteAt r.2.1 6 = a)
include hg hr hx

theorem State.axsLoad_refused {o : Nat} (h3 : a ≤ 3) (hb : badAxisImage r.2.1 len.toNat (!r.2.2) = some o) :
    s.axsLoad addr len = (r.1.onDev (fun d => d.raise 0x0913 (srcAxis a) 2 a o (f32At r.2.1 8).toNat), .refused, 0) := by
  subst hr hx
  simp [State.axsLoad, State.onDev, ha, hg, h3, hb]

theorem State.axsLoad_busy (hb : badAxisImage r.2.1 len.toNat (!r.2.2) = none) (hm : r.1.dev.get (F.AXSa_STAT_STATE a) = 2) :
    s.axsLoad addr len = (r.1, .busy, 0) := by
  subst hr hx
  simp [State.axsLoad, ha, hg, hb, hm]

theorem State.axsLoad_accepted (hb : badAxisImage r.2.1 len.toNat (!r.2.2) = none) (hm : r.1.dev.get (F.AXSa_STAT_STATE a) ≠ 2) :
    s.axsLoad addr len = (r.1.onDev (fun d => d.axisTableLive a (f32At r.2.1 8) (r.2.1.drop 64)), .ok, 0) := by
  subst hr hx
  simp [State.axsLoad, State.onDev, Dev.axisTableLive, ha, hg, hb, hm]

end
end

theorem Dev.axisTableLive_shows (d : Dev) (a : Nat) (id : Word) (tab : List Byte) : ((d.axisTableLive a id tab).axsOf a).tab = tab ∧
    (d.axisTableLive a id tab).get (F.AXSa_TABLE_ID_TABLE_ID a) = id.toNat ∧
    recorded d (d.axisTableLive a id tab) 0x0912 (srcAxis a) 1 a (d.get (F.AXSa_TABLE_ID_TABLE_ID a)) id.toNat :=
  ⟨congrArg Axs.tab (tget_tput_self _ _ _ _), (Dev.get_put_self _ _ _).trans (Nat.mod_eq_of_lt id.isLt), rfl⟩

/-- CORR_LOAD, LOOP_LOAD and AXS_LOAD run their loads as commands of lane LOAD. -/
theorem exec_loads (tag port : Word) (addr : DWord) (len : Word) (s : State) :
    exec (.corrLoad tag port addr len) s = .next (s.command .load 0x40 tag (fun s => s.corrLoad port addr len)) ∧
    exec (.loopLoad tag addr len) s = .next (s.command .load 0x41 tag (fun s => s.loopLoad addr len)) ∧
    exec (.axsLoad tag addr len) s = .next (s.command .load 0x42 tag (fun s => s.axsLoad addr len)) := ⟨rfl, rfl, rfl⟩

/-- Settles O23: each row's result is that of its load, and what an accepted image leaves is read off the device that the load makes. -/
theorem tableImages : Obligations.TableImages := by
  refine ⟨fun tag port addr len s hs ha => ?rejected, fun tag port addr len s hs ha hg => ?accepted⟩
  case rejected =>
    obtain ⟨corr, loop, axs⟩ := exec_loads tag port addr len s
    rw [corr, loop, axs]
    refine ⟨fun hm hp hg => ?_, fun hm hp hg h0 hi => ?_, fun hm hg => ?_, fun hm hg => ?_, ?axisRefused, ?corrRefused, ?loopKept⟩
    · exact congrArg Host.Outcome.next (State.command_result hm hs (State.corrLoad_unrigged ha hp hg))
    · exact congrArg Host.Outcome.next (State.command_result hm hs (State.corrLoad_running ha hp hg h0 hi))
    · exact congrArg Host.Outcome.next (State.command_result hm hs (State.loopLoad_unrigged ha hg))
    · exact congrArg Host.Outcome.next (State.command_result hm hs (State.axsLoad_unrigged ha hg))
    case axisRefused =>
      exact fun o hm hg h3 hb => congrArg Host.Outcome.next (State.command_onDev hm hs (State.axsLoad_refused ha hg rfl rfl h3 hb))
    case corrRefused =>
      exact fun o hm hg hp h0 hb => congrArg Host.Outcome.next (State.command_onDev hm hs (State.corrLoad_refused ha hp hg h0 rfl hb))
    case loopKept =>
      exact fun hm hg hk hp => ⟨fun w hw => congrArg Host.Outcome.next (State.command_result hm hs (State.loopLoad_busy ha hg rfl hk rfl hw)),
        fun o hw hb => congrArg Host.Outcome.next (State.command_onDev hm hs (State.loopLoad_refused ha hg rfl hk rfl hp hw hb))⟩
  case accepted =>
    obtain ⟨corr, loop, axs⟩ := exec_loads tag port addr len s
    rw [corr, loop, axs]
    refine ⟨?corrTaken, ?loopTaken, ?axisTaken⟩
    case corrTaken =>
      intro r p hm hp h0 hb
      have load := State.corrLoad_accepted ha hp hg h0 (r := r) rfl hb
      exact ⟨_, congrArg Host.Outcome.next (State.command_setDev hm hs load),
        Dev.corrAccept_payload _ _ _, Dev.corrAccept_id _ _ _ hp, Dev.corrAccept_nogrid _ _ _, Dev.corrAccept_recorded _ _ _⟩
    case loopTaken =>
      intro r p hm hk hp hw hb hn
      have load := State.loopLoad_accepted ha hg (r := r) rfl hk (p := p) rfl hw hb
      exact ⟨_, congrArg Host.Outcome.next (State.command_setDev hm hs load), Dev.loopAccept_shows _ _ hn⟩
    case axisTaken =>
      intro r a hm hb _
      refine ⟨fun h2 => congrArg Host.Outcome.next (State.command_result hm hs (State.axsLoad_busy ha hg (r := r) rfl rfl hb h2)), fun h2 => ?_⟩
      have load := State.axsLoad_accepted ha hg (r := r) rfl (a := a) rfl hb h2
      exact ⟨_, congrArg Host.Outcome.next (State.command_setDev hm hs load), Dev.axisTableLive_shows _ _ _ _⟩

end Sys2Proof.Machine

/-! # T-ticks, holds and SYNCs (05_trajectory.md R73, R117, R121, R122; 11_link_and_time.md R311)

Where nothing but the ports moves with time, a T-tick is its clock edge, the markers of Gorwin Link, and the ports in use in turn. A port at rest
repeats its last command from where its engine stands. -/

namespace Sys2Proof.Machine

open Sys2Proof.Safety

/-! ## The edge of a T-tick (R117, R301, R311) -/

/-- The edge of a T-tick: the clock has moved on. What Gorwin Link sends with it, and the free values its markers use, are g and c. -/
def Dev.edge (d : Dev) (g : Glk) (c : Nat) : Dev :=
  { d with tick := d.tick + 1, time := d.time + 1000, sub := 0, ptp := { d.ptp with sent := [] }, glk := g, freeCtr := c }

/-- Nothing but ports and markers moves with time: no step of time waits, nothing slews, no beam is blind, no DRAM channel has met an error, and no
pin carries the strobe. -/
structure Dev.Still (d : Dev) : Prop where
  step : d.ptp.step = none
  slews : d.sns.slews = []
  spots : d.sns.spots = []
  beams : d.thm.beams = []
  channels : d.ddr.ch = []
  strobe : pinWith (d.sections false) 0x31 = none

/-- Sending the markers uses free values and changes Gorwin Link, and nothing else. -/
theorem Dev.sendMarkers_frame (d : Dev) : d.sendMarkers = { d with glk := d.sendMarkers.glk, freeCtr := d.sendMarkers.freeCtr } := by
  unfold Dev.sendMarkers
  refine List.foldlRecOn (motive := fun e : Dev => e = { d with glk := e.glk, freeCtr := e.freeCtr }) _ _ rfl (fun e he p _ => ?_)
  dsimp only
  split
  · exact he
  · obtain ⟨g, c, q⟩ : ∃ g c, e = { d with glk := g, freeCtr := c } := ⟨_, _, he⟩
    subst q
    rfl

section
variable {d : Dev} (h : d.Still)
include h

theorem Dev.Still.edge (g : Glk) (c : Nat) : (d.edge g c).Still := ⟨h.step, h.slews, h.spots, h.beams, h.channels, h.strobe⟩

theorem Dev.Still.stepTime : d.stepTime = d := by
  unfold Dev.stepTime
  rw [h.step]

/-- What a T-tick does between its markers and its ports. -/
theorem Dev.Still.strobes : d.tickStrobe.allSlews.blindShow.lossCheck = d := by
  have strobe : d.tickStrobe = d := by
    unfold Dev.tickStrobe
    rw [h.strobe]
  have slews : d.allSlews = d := by
    unfold Dev.allSlews Dev.slewAll
    rw [h.slews, h.spots]
    rfl
  have blind : d.blindShow = d := by
    unfold Dev.blindShow
    rw [h.beams]
    rfl
  have loss : d.lossCheck = d := by
    unfold Dev.lossCheck
    simp [h.channels, tget, ddrCh0]
  rw [strobe, slews, blind, loss]

/-- A T-tick is its edge, and then every port in use. -/
theorem Dev.Still.tTick (m : Dram) :
    ∃ g c, d.tTick m = (portsInUse (d.sections false)).foldl (fun d p => d.portTTick m p) (d.edge g c) := by
  have step := (h.edge { d.glk with tx := [], fwd := [] } d.freeCtr).stepTime
  obtain ⟨g, c, marked⟩ : ∃ g c, (d.edge { d.glk with tx := [], fwd := [] } d.freeCtr).sendMarkers = d.edge g c :=
    ⟨_, _, Dev.sendMarkers_frame _⟩
  refine ⟨g, c, ?_⟩
  show (portsInUse (d.sections false)).foldl (fun d p => d.portTTick m p)
    (d.edge { d.glk with tx := [], fwd := [] } d.freeCtr).stepTime.sendMarkers.tickStrobe.allSlews.blindShow.lossCheck = _
  rw [step, marked, (h.edge g c).strobes]

end

theorem State.settled_still {s : State} (h : s.dev.Still) : s.settled.dev.Still :=
  ⟨h.step, h.slews, h.spots, h.beams, h.channels, h.strobe⟩

theorem exec_tTick {s : State} (h : (s.settled.dev.tTick s.mem).wq = []) :
    exec .tTick s = .next { s with dev := s.settled.dev.tTick s.mem } :=
  congrArg Host.Outcome.next (State.runDev_noWrites s (fun d m => d.tTick m) h)

/-- Without a port in use a T-tick moves the clock and sends the markers. -/
theorem exec_tTick_no_ports {s : State} (h : s.dev.Still) (hp : portsInUse (s.dev.sections false) = []) :
    ∃ t : State, exec .tTick s = .next t ∧ t.dev.tick = s.dev.tick + 1 ∧ t.dev.time = s.dev.time + 1000 ∧ t.dev.sub = 0 ∧
      t.dev.regs = s.dev.regs ∧ t.dev.evr = s.dev.evr ∧ t.mem = s.mem ∧ t.dev.eng = s.dev.eng ∧ t.dev.prt = s.dev.prt ∧
      t.dev.hst = s.dev.hst ∧ t.dev.bar = s.dev.bar := by
  obtain ⟨g, c, tick⟩ := (State.settled_still h).tTick s.mem
  rw [show portsInUse (s.settled.dev.sections false) = [] from hp, List.foldl_nil] at tick
  refine ⟨_, exec_tTick (by rw [tick]; rfl), ?_⟩
  rw [tick]
  exact ⟨rfl, rfl, rfl, rfl, rfl, rfl, rfl, rfl, rfl, rfl⟩

/-! ## A port at rest (R117, R147) -/

/-- The state with another engine for port p. -/
def Dev.setEng (d : Dev) (p : Nat) (x : Eng) : Dev := { d with eng := tput d.eng p x }

theorem Dev.updEng_eq (d : Dev) (p : Nat) (f : Eng → Eng) : d.updEng p f = d.setEng p (f (d.engOf p)) := rfl

@[simp] theorem Dev.setEng_engOf (d : Dev) (p : Nat) (x : Eng) : (d.setEng p x).engOf p = x := tget_tput_self _ _ _ _

@[simp] theorem Dev.setEng_setEng (d : Dev) (p : Nat) (x y : Eng) : (d.setEng p x).setEng p y = d.setEng p y :=
  congrArg (fun l => { d with eng := l }) (tput_tput_self _ _ _ _)

/-- With nothing dealt to it and no takeover, an engine at rest wants no segments. -/
theorem Dev.prefetch_rest {d : Dev} {p : Nat} {x : Eng} (m : Dram) (hr : x.run = none) (hq : x.queue = []) (ht : d.hnd.tko = []) :
    ∃ l, (d.setEng p x).prefetch m p = d.setEng p { x with pre := l } := by
  have want : (d.setEng p x).preWant p = [] := by
    have tko : (d.setEng p x).tkoFor p = none := by
      rw [Dev.tkoFor, Dev.setEng, ht]
      rfl
    simp [Dev.preWant, hr, hq, tko]
  have run : (d.setEng p x).runOf p = none := by rw [Dev.runOf, Dev.setEng_engOf, hr]
  unfold Dev.prefetch
  simp only [want, run, List.contains_nil, Option.any_none, Bool.or_self, List.filter_nil, List.map_nil, ite_self]
  split
  · exact ⟨x.pre, rfl⟩
  · exact ⟨_, by rw [List.foldl_nil, Dev.updEng_eq, Dev.setEng_setEng, Dev.setEng_engOf]⟩

/-- A port at rest neither starts a path nor observes. -/
theorem Dev.startNext_liveTick_rest {d : Dev} {p : Nat} (m : Dram) (hr : d.runOf p = none) (hq : (d.engOf p).queue = [])
    (ho : tfind d.sns.obs p = none) :
    (d.startNext m p).liveTick m p = d.idleTick p := by
  have start : d.startNext m p = d := by
    unfold Dev.startNext
    rw [hr, hq]
  rw [start, Dev.liveTick, hr]
  show d.restTick p = d.idleTick p
  rw [Dev.restTick, ho]

theorem Eng.map_no_run {e : Eng} (h : e.run = none) (f : Run → Run) : { e with run := e.run.map f } = e := by
  rw [h, Option.map_none, ← h]

theorem Dev.portTTick_rest {d : Dev} {p : Nat} (m : Dram) (hr : (d.engOf p).run = none) (hq : (d.engOf p).queue = [])
    (ho : tfind d.sns.obs p = none) (ht : d.hnd.tko = []) :
    ∃ l, d.portTTick m p = ((d.setEng p { d.engOf p with pre := l }).idleTick p).portBits p := by
  unfold Dev.portTTick
  split
  · have same : ∀ f : Run → Run, d.updRun p f = d.setEng p (d.engOf p) := fun f =>
      congrArg (d.setEng p) (Eng.map_no_run hr f)
    have run : (d.setEng p (d.engOf p)).runOf p = none := by rw [Dev.runOf, Dev.setEng_engOf, hr]
    obtain ⟨l, fetched⟩ := Dev.prefetch_rest (p := p) m hr hq ht
    simp only [same, run, fetched]
    refine ⟨l, congrArg (fun e => Dev.portBits e p) (Dev.startNext_liveTick_rest m ?_ ?_ ho)⟩
    · rw [Dev.runOf, Dev.setEng_engOf]
      exact hr
    · rw [Dev.setEng_engOf]
      exact hq
  · exact ⟨[], rfl⟩

/-- The tick point of an engine at rest is where the engine stands. -/
theorem Dev.idleTick_eq (d : Dev) (p : Nat) : ∃ (t : TickPt) (codes : Option (Int × Int)),
    d.idleTick p = ((d.sendFrame p (d.lastCmd p) codes).pushTick p t).updPrt p (fun x => { x with edges := [(0, x.gate)] }) ∧
      t.x = (d.engOf p).x ∧ t.y = (d.engOf p).y ∧ t.f = (d.engOf p).f :=
  ⟨_, _, rfl, rfl, rfl, rfl⟩

/-- At rest, a Stringline port in UP sends its last command with the tick, and its gate stays as it is. -/
theorem Dev.idleTick_sends {d : Dev} {p : Nat} (hx : d.xy2 p = false) (hl : d.get (F.BEAMn_PSTAT_LINK p) = 4) :
    ∃ (x : Eng) (q : Prt), d.idleTick p = { d.setEng p x with prt := tput d.prt p q } ∧
      x.x = (d.engOf p).x ∧ x.y = (d.engOf p).y ∧ x.f = (d.engOf p).f ∧ x.run = (d.engOf p).run ∧
      q.frame = slFrame (d.lastCmd p) d.tick ∧ q.edges = [(0, (d.prtOf p).gate)] := by
  obtain ⟨t, codes, idle, tx, ty, tf⟩ := d.idleTick_eq p
  have frame : d.sendFrame p (d.lastCmd p) codes = d.updPrt p (fun y => { y with frame := slFrame (d.lastCmd p) d.tick }) := by
    simp [Dev.sendFrame, hx, hl]
  refine ⟨{ d.engOf p with hist := (t :: (d.engOf p).hist).take histLen, x := t.x, y := t.y, f := t.f },
    { d.prtOf p with frame := slFrame (d.lastCmd p) d.tick, edges := [(0, (d.prtOf p).gate)] }, ?_, tx, ty, tf, rfl, rfl, rfl⟩
  rw [idle, frame]
  simp only [Dev.updPrt, Dev.pushTick, Dev.updEng, Dev.prtOf, tget_tput_self, tput_tput_self]
  rfl

/-- BEAMn_PSTAT.EMIT is 0 where the gate is closed throughout. -/
theorem Dev.portBits_dark {d : Dev} {p : Nat} (h : ∀ n, gateAt (d.prtOf p).edges n = false) :
    (d.portBits p).get (F.BEAMn_PSTAT_EMIT p) = 0 := by
  have level : (d.put (F.BEAMn_TSTAT_STATE p) (d.trajState p)).emitLevel p = false := by
    have gate : (d.put (F.BEAMn_TSTAT_STATE p) (d.trajState p)).gateNow p = false := h _
    rw [Dev.emitLevel, gate, Bool.false_and]
  rw [Dev.portBits, Dev.emitBit, Dev.setFlag_eq, Dev.get_put_self, level]
  rfl

/-- A Stringline port in UP, at rest, in a T-tick. -/
theorem Dev.portTTick_sends {d : Dev} {p : Nat} (m : Dram) (hr : (d.engOf p).run = none) (hq : (d.engOf p).queue = [])
    (ho : tfind d.sns.obs p = none) (ht : d.hnd.tko = []) (hx : d.xy2 p = false) (hl : d.get (F.BEAMn_PSTAT_LINK p) = 4) :
    ∃ (x : Eng) (q : Prt), d.portTTick m p = ({ d.setEng p x with prt := tput d.prt p q } : Dev).portBits p ∧
      x.x = (d.engOf p).x ∧ x.y = (d.engOf p).y ∧ x.f = (d.engOf p).f ∧ x.run = none ∧
      q.frame = slFrame (d.lastCmd p) d.tick ∧ q.edges = [(0, (d.prtOf p).gate)] := by
  obtain ⟨l, rest⟩ := Dev.portTTick_rest (p := p) m hr hq ho ht
  obtain ⟨x, q, sends, hxx, hxy, hxf, hxr, frame, edges⟩ := Dev.idleTick_sends (d := d.setEng p { d.engOf p with pre := l }) (p := p) hx hl
  rw [Dev.setEng_engOf] at hxx hxy hxf hxr
  rw [Dev.setEng_setEng] at sends
  exact ⟨x, q, rest.trans (congrArg (fun e => Dev.portBits e p) sends), hxx, hxy, hxf, hxr.trans hr, frame, edges⟩

/-- One Stringline port in UP, at rest: its engine stays where it is, its port repeats its last command with the new tick, its gate stays closed. -/
theorem exec_tTick_port_at_rest {s : State} {p : Nat} (h : s.dev.Still) (hp : portsInUse (s.dev.sections false) = [p])
    (hr : s.dev.runOf p = none) (hq : (s.dev.engOf p).queue = []) (ho : tfind s.dev.sns.obs p = none) (ht : s.dev.hnd.tko = [])
    (hx : s.dev.xy2 p = false) (hl : s.dev.get (F.BEAMn_PSTAT_LINK p) = 4) (hg : (s.dev.prtOf p).gate = false) :
    ∃ t : State, exec .tTick s = .next t ∧ t.dev.tick = s.dev.tick + 1 ∧ t.dev.time = s.dev.time + 1000 ∧ t.dev.sub = 0 ∧
      (t.dev.prtOf p).frame = slFrame (s.dev.lastCmd p) (s.dev.tick + 1) ∧ (t.dev.engOf p).x = (s.dev.engOf p).x ∧
      (t.dev.engOf p).y = (s.dev.engOf p).y ∧ (t.dev.engOf p).f = (s.dev.engOf p).f ∧ t.dev.runOf p = none ∧
      t.dev.get (F.BEAMn_PSTAT_EMIT p) = 0 ∧ t.dev.evr = s.dev.evr ∧ t.mem = s.mem := by
  obtain ⟨g, c, tick⟩ := (State.settled_still h).tTick s.mem
  rw [show portsInUse (s.settled.dev.sections false) = [p] from hp, List.foldl_cons, List.foldl_nil] at tick
  obtain ⟨x, q, sends, hxx, hxy, hxf, hxr, frame, edges⟩ :=
    Dev.portTTick_sends (d := s.settled.dev.edge g c) (p := p) s.mem hr hq ho ht hx hl
  have closed : q.edges = [(0, false)] := edges.trans (congrArg (fun b => [(0, b)]) hg)
  rw [sends] at tick
  refine ⟨_, exec_tTick (by rw [tick]; rfl), ?_⟩
  rw [tick]
  have eng : (({ (s.settled.dev.edge g c).setEng p x with prt := tput (s.settled.dev.edge g c).prt p q } : Dev).portBits p).engOf p = x :=
    tget_tput_self _ _ _ _
  have prt : ({ (s.settled.dev.edge g c).setEng p x with prt := tput (s.settled.dev.edge g c).prt p q } : Dev).prtOf p = q :=
    tget_tput_self _ _ _ _
  refine ⟨rfl, rfl, rfl, (congrArg Prt.frame prt).trans frame, (congrArg Eng.x eng).trans hxx, (congrArg Eng.y eng).trans hxy,
    (congrArg Eng.f eng).trans hxf, (congrArg Eng.run eng).trans hxr, Dev.portBits_dark (fun n => ?_), rfl, rfl⟩
  rw [prt, closed]
  simp [gateAt]

/-! ## HOLD_END (R121, R122) -/

theorem exec_holdEnd (p : Port) (s : State) : exec (.holdEnd p) s = .next (s.onDev (fun d => d.holdEnd p.val)) := rfl

theorem Dev.holdEnd_no_run {d : Dev} {p : Nat} (hr : d.runOf p = none) : d.holdEnd p = d := by
  unfold Dev.holdEnd
  rw [hr]

theorem Dev.holdEnd_over {d : Dev} {p : Nat} {r : Run} {mv : Move} (hr : d.runOf p = some r) (hm : r.moveAt? r.k = some mv)
    (hk : mv.kind = .hold) (he : fracLe (fracAdd mv.t0 mv.dt) (fracI (r.k + 1)) = true) :
    d.holdEnd p = (d.updRun p (fun r => r.trim (r.k + 1))).portBits p := by
  simp [Dev.holdEnd, hr, hm, hk, he]

theorem Dev.updRun_runOf {d : Dev} {p : Nat} {r : Run} (hr : d.runOf p = some r) (f : Run → Run) : (d.updRun p f).runOf p = some (f r) := by
  rw [Dev.updRun, Dev.updEng_eq, Dev.runOf, Dev.setEng_engOf]
  exact congrArg (Option.map f) hr

theorem Dev.setEng_engOf_ne (d : Dev) {p q : Nat} (x : Eng) (h : q ≠ p) : (d.setEng p x).engOf q = d.engOf q :=
  tget_tput_ne _ _ _ _ _ (Ne.symm h)

theorem exec_holdEnd_no_run {p : Port} {s : State} (hr : s.dev.runOf p.val = none) : exec (.holdEnd p) s = .next s := by
  rw [exec_holdEnd, State.onDev, Dev.holdEnd_no_run hr]

/-- A hold that is over by the next T-tick is left. -/
theorem exec_holdEnd_over {p : Port} {s : State} {r : Run} {mv : Move} (hr : s.dev.runOf p.val = some r) (hm : r.moveAt? r.k = some mv)
    (hk : mv.kind = .hold) (he : fracLe (fracAdd mv.t0 mv.dt) (fracI (r.k + 1)) = true) :
    ∃ t : State, exec (.holdEnd p) s = .next t ∧ t.dev.runOf p.val = some (r.trim (r.k + 1)) ∧
      (∀ q : Nat, q ≠ p.val → t.dev.engOf q = s.dev.engOf q) ∧
      t = { s with dev := { s.dev with regs := t.dev.regs, eng := t.dev.eng } } ∧
      regsKeep [F.BEAMn_TSTAT_STATE p.val, F.BEAMn_PSTAT_EMIT p.val] s.dev t.dev := by
  refine ⟨_, exec_holdEnd p s, ?_⟩
  rw [State.onDev, Dev.holdEnd_over hr hm hk he]
  exact ⟨Dev.updRun_runOf hr _, fun q hq => s.dev.setEng_engOf_ne _ hq, rfl,
    regsKeep_trans (regsKeep_of_regs rfl) (Dev.portBits_regsKeep _ _)⟩

/-! ## SYNC_TIMEOUT (R73, R121) -/

theorem exec_syncTimeout {p : Port} {s : State} {d : Dev} (hd : s.settled.dev.syncTimeout s.mem p.val = d) (hw : d.wq = []) :
    exec (.syncTimeout p) s = .next { s with dev := d } := by
  subst hd
  exact congrArg Host.Outcome.next (State.runDev_noWrites s (fun d m => d.syncTimeout m p.val) hw)

theorem Dev.syncTimeout_no_run {d : Dev} {p : Nat} (m : Dram) (hr : d.runOf p = none) : d.syncTimeout m p = d := by
  unfold Dev.syncTimeout
  rw [hr]

theorem exec_syncTimeout_no_run {p : Port} {s : State} (hr : s.dev.runOf p.val = none) : exec (.syncTimeout p) s = .next s.settled :=
  exec_syncTimeout (Dev.syncTimeout_no_run (d := s.settled.dev) s.mem hr) rfl

/-- The device on which the timeout of a SYNC, segment g of run r on port p, has been noted: its tile's flag and the record. -/
def Dev.timeoutNoted (d : Dev) (m : Dram) (p : Nat) (r : Run) (g : Nat) : Dev :=
  (d.tileFlag r.key 11).raiseSeg (d.segTag m r.key g) 0x0229 0x03 2 (d.tileNo r.key + 65536 * p) g (r.last - g)

section
variable {d : Dev} {p : Nat} {m : Dram} {r : Run} {mv : Move} {g : Seg} (hr : d.runOf p = some r) (hm : r.moveAt? r.k = some mv)
  (hk : mv.kind = .sync) (hs : d.segOf m r.key mv.seg = .ok g)
include hr hm hk hs

theorem Dev.syncTimeout_waits (h : g.vel = 0 ∨ r.k < snapF mv.t0 + 10 * g.vel) : d.syncTimeout m p = d := by
  simp [Dev.syncTimeout, hr, hm, hk, hs, h]

theorem Dev.syncTimeout_late (hv : g.vel ≠ 0) (ht : snapF mv.t0 + 10 * g.vel ≤ r.k) :
    d.syncTimeout m p = (d.timeoutNoted m p r mv.seg).finishRun m p (some mv.seg) 1 := by
  simp [Dev.syncTimeout, Dev.timeoutNoted, hr, hm, hk, hs, hv, Nat.not_lt.mpr ht]

end

/-- Before its timeout, or without one, a SYNC waits on. -/
theorem exec_syncTimeout_waits {p : Port} {s : State} {r : Run} {mv : Move} {g : Seg} (hr : s.dev.runOf p.val = some r)
    (hm : r.moveAt? r.k = some mv) (hk : mv.kind = .sync) (hs : s.dev.segOf s.mem r.key mv.seg = .ok g)
    (h : g.vel = 0 ∨ r.k < snapF mv.t0 + 10 * g.vel) : exec (.syncTimeout p) s = .next s.settled :=
  exec_syncTimeout (Dev.syncTimeout_waits (d := s.settled.dev) hr hm hk hs h) rfl

/-! ### A path of a tile that goes on ends (R97, R114, R117) -/

theorem Dev.updTile_frame (d : Dev) (n t : Nat) (f : TileSt → TileSt) : d.updTile n t f = { d with bar := (d.updTile n t f).bar } := by
  unfold Dev.updTile Dev.updBed
  split <;> rfl

theorem Dev.updTile_tile {d : Dev} {n t : Nat} {x : TileSt} (hx : d.tile? n t = some x) (f : TileSt → TileSt) :
    (d.updTile n t f).tile? n t = some (f x) := by
  obtain ⟨b, hb, ht⟩ := Option.bind_eq_some_iff.mp hx
  have hb : tfind d.bar.beds n = some b := hb
  simp [Dev.updTile, Dev.updBed, Dev.tile?, Dev.bed?, hb, ht]

/-- A path of a tile with another one that has not ended: the tile is not finished. -/
theorem Dev.pathEnded_goes_on {d : Dev} {n t i j : Nat} {x : TileSt} {b : PathSt} (hx : d.tile? n t = some x) (hj : j ≠ i)
    (hb : x.paths[j]? = some b) (hs : b.st ≠ .ended) : d.pathEnded (.bed n t i) = d.setStat (.bed n t i) .ended := by
  have tile := Dev.updTile_tile hx (fun y => { y with paths := y.paths.modify i (fun q => { q with st := .ended }) })
  have other : (x.paths.modify i (fun q => { q with st := PStat.ended }))[j]? = some b := by
    rw [List.getElem?_modify, hb]
    simp [Ne.symm hj]
  have unended : (x.paths.modify i (fun q => { q with st := PStat.ended })).all (fun q => decide (q.st = .ended)) = false :=
    List.all_eq_false.mpr ⟨b, List.mem_of_getElem? other, by simpa using hs⟩
  show (d.setStat (.bed n t i) .ended).tileCheck n t = _
  unfold Dev.tileCheck
  rw [show (d.setStat (.bed n t i) .ended).tile? n t = _ from tile]
  simp [unended]

theorem Dev.stbyEnd_none {d : Dev} (h : d.hnd.stbyOut = []) (k : PKey) (reason : Nat) : d.stbyEnd k reason = d := by
  unfold Dev.stbyEnd
  rw [h]
  rfl

theorem Dev.tkoEnded_none {d : Dev} (h : d.hnd.tko = []) (k : PKey) : d.tkoEnded k = d := by
  unfold Dev.tkoEnded Dev.tkoOf
  rw [h]
  rfl

theorem Dev.updTile_keeps (d : Dev) (n t : Nat) (f : TileSt → TileSt) : (d.updTile n t f).hnd = d.hnd ∧ (d.updTile n t f).eng = d.eng ∧
    (d.updTile n t f).evr = d.evr ∧ (d.updTile n t f).wq = d.wq ∧ (d.updTile n t f).regs = d.regs := by
  rw [Dev.updTile_frame]
  exact ⟨rfl, rfl, rfl, rfl, rfl⟩

theorem Dev.dropRun_keeps (d : Dev) (p : Nat) : (d.dropRun p).hnd = d.hnd ∧ (d.dropRun p).bar = d.bar ∧ (d.dropRun p).evr = d.evr ∧
    (d.dropRun p).wq = d.wq := by
  unfold Dev.dropRun
  split <;> exact ⟨rfl, rfl, rfl, rfl⟩

theorem Dev.dropRun_runOf (d : Dev) (p : Nat) : (d.dropRun p).runOf p = none := congrArg Eng.run (tget_tput_self _ _ _ _)

theorem Dev.dropRun_engOf (d : Dev) {p q : Nat} (h : q ≠ p) : (d.dropRun p).engOf q = d.engOf q := by
  unfold Dev.dropRun
  split
  · exact (Dev.setEng_engOf_ne (d.unfetch p _) _ h).trans (d.setEng_engOf_ne _ h)
  · exact d.setEng_engOf_ne _ h

theorem Dev.tile?_congr {d d' : Dev} (h : d'.bar = d.bar) (n t : Nat) : d'.tile? n t = d.tile? n t := by
  rw [Dev.tile?, Dev.tile?, Dev.bed?, Dev.bed?, h]

/-- The device after path i of a tile has left port p, blanked, with c of its EXPOSE segments not exposed. -/
def Dev.pathLeft (d : Dev) (p n t i c : Nat) : Dev :=
  (((d.blankPort p).addNotExposed (.bed n t i) c).dropRun p).setStat (.bed n t i) .ended

/-- The gate of port p stays closed from here on. -/
def Dev.gateShut (d : Dev) (p : Nat) : Dev :=
  (d.updPrt p (fun x => { x with edges := [(0, x.gate && false), (0, false)], gate := false })).portBits p

theorem Dev.gateShut_keeps (d : Dev) (p : Nat) : (d.gateShut p).bar = d.bar ∧ (d.gateShut p).eng = d.eng ∧ (d.gateShut p).evr = d.evr ∧
    (d.gateShut p).wq = d.wq := ⟨rfl, rfl, rfl, rfl⟩

theorem Dev.gateShut_dark (d : Dev) (p : Nat) : (d.gateShut p).get (F.BEAMn_PSTAT_EMIT p) = 0 := by
  refine Dev.portBits_dark (fun k => ?_)
  rw [Dev.prtOf, Dev.updPrt, tget_tput_self]
  simp [gateAt]

theorem Dev.pathLeft_keeps (d : Dev) (p n t i c : Nat) : (d.pathLeft p n t i c).hnd = d.hnd ∧ (d.pathLeft p n t i c).evr = d.evr ∧
    (d.pathLeft p n t i c).wq = d.wq ∧ (d.pathLeft p n t i c).runOf p = none ∧
    ∀ q, q ≠ p → (d.pathLeft p n t i c).engOf q = d.engOf q := by
  obtain ⟨hnd1, eng1, evr1, wq1, -⟩ := (d.blankPort p).updTile_keeps n t (fun x => { x with notExp := x.notExp + c })
  obtain ⟨hnd2, -, evr2, wq2⟩ := ((d.blankPort p).addNotExposed (.bed n t i) c).dropRun_keeps p
  obtain ⟨hnd3, eng3, evr3, wq3, -⟩ := (((d.blankPort p).addNotExposed (.bed n t i) c).dropRun p).updTile_keeps n t
    (fun x => { x with paths := x.paths.modify i (fun q => { q with st := .ended }) })
  refine ⟨hnd3.trans (hnd2.trans hnd1), evr3.trans (evr2.trans evr1), wq3.trans (wq2.trans wq1), ?_, fun q hq => ?_⟩
  · exact (congrArg (fun l => (tget eng0 l p).run) eng3).trans (Dev.dropRun_runOf _ p)
  · have blank : (d.blankPort p).engOf q = d.engOf q := Dev.setEng_engOf_ne (d.updPrt p _) _ hq
    exact (congrArg (fun l => tget eng0 l q) eng3).trans ((Dev.dropRun_engOf _ hq).trans
      ((congrArg (fun l => tget eng0 l q) eng1).trans blank))

section
variable {d : Dev} {p n t i : Nat} {x : TileSt} (hx : d.tile? n t = some x)
include hx

theorem Dev.addNotExposed_tile (c : Nat) : (((d.blankPort p).addNotExposed (.bed n t i) c).dropRun p).tile? n t =
    some { x with notExp := x.notExp + c } := by
  obtain ⟨-, bar, -⟩ := ((d.blankPort p).addNotExposed (.bed n t i) c).dropRun_keeps p
  exact (Dev.tile?_congr bar n t).trans (Dev.updTile_tile (d := d.blankPort p) hx _)

theorem Dev.pathLeft_tile (c : Nat) : (d.pathLeft p n t i c).tile? n t =
    some { x with notExp := x.notExp + c, paths := x.paths.modify i (fun q => { q with st := .ended }) } :=
  Dev.updTile_tile (d := ((d.blankPort p).addNotExposed (.bed n t i) c).dropRun p) (Dev.addNotExposed_tile hx c) _

section
variable {r : Run} {q b : PathSt} {j : Nat} (hr : d.runOf p = some r) (hk : r.key = .bed n t i) (ho : d.hnd.stbyOut = [])
  (ht : d.hnd.tko = []) (hq : x.paths[i]? = some q) (hj : j ≠ i) (hb : x.paths[j]? = some b) (hs : b.st ≠ .ended)
include hr hk ho hq hj hb hs

theorem Dev.endRun_leaves (m : Dram) (a : Nat) : d.endRun m p (some a) 1 =
    d.pathLeft p n t i ((d.blankPort p).countExpose m (.bed n t i) a (q.first + q.count - a)) := by
  have path : (d.blankPort p).path? (.bed n t i) = some q := (congrArg (·.bind fun y : TileSt => y.paths[i]?) hx).trans hq
  have lose : (d.blankPort p).loseFrom m (.bed n t i) a = (d.blankPort p).addNotExposed (.bed n t i)
      ((d.blankPort p).countExpose m (.bed n t i) a (q.first + q.count - a)) := by
    rw [Dev.loseFrom, path]
  generalize (d.blankPort p).countExpose m (.bed n t i) a (q.first + q.count - a) = c at lose ⊢
  have copies : (((d.blankPort p).addNotExposed (.bed n t i) c).dropRun p).hnd.stbyOut = [] := by
    obtain ⟨dropped, -⟩ := ((d.blankPort p).addNotExposed (.bed n t i) c).dropRun_keeps p
    obtain ⟨lost, -⟩ := (d.blankPort p).updTile_keeps n t (fun x => { x with notExp := x.notExp + c })
    exact (congrArg Hnd.stbyOut (dropped.trans lost)).trans ho
  unfold Dev.endRun
  simp only [hr, hk, lose]
  rw [Dev.stbyEnd_none copies]
  exact Dev.pathEnded_goes_on (Dev.addNotExposed_tile hx c) hj hb hs

include ht in
theorem Dev.finishRun_leaves (m : Dram) (a : Nat) : d.finishRun m p (some a) 1 =
    (d.pathLeft p n t i ((d.blankPort p).countExpose m (.bed n t i) a (q.first + q.count - a))).gateShut p := by
  have left := Dev.endRun_leaves hx hr hk ho hq hj hb hs m a
  generalize (d.blankPort p).countExpose m (.bed n t i) a (q.first + q.count - a) = c at left ⊢
  have takeovers : (d.pathLeft p n t i c).hnd.tko = [] := by
    obtain ⟨hnd, -⟩ := d.pathLeft_keeps p n t i c
    rw [hnd, ht]
  unfold Dev.finishRun
  simp only [hr, left, Dev.tkoEnded_none takeovers]
  rfl

end
end

/-! ### Segments read from the prefetch queues (R27)

A segment is looked for in the queues in the order in which the engines are listed. `tput` writes into an ascending list; where it finds one, an
engine that is written keeps its place. -/

/-- The engines are listed in ascending order of their ports. -/
def Dev.enginesInOrder (d : Dev) : Prop := (d.eng.map (·.1)).Pairwise (· < ·)

theorem tget_eq_tfind {α : Type} (x : α) (t : Table α) (k : Nat) : tget x t k = (tfind t k).getD x := by
  induction t with
  | nil => rfl
  | cons e t ih =>
    obtain ⟨j, a⟩ := e
    by_cases h : j = k <;> simp [tget, tfind, h, ih]

theorem mem_of_tfind {α : Type} {t : Table α} {k : Nat} {v : α} (h : tfind t k = some v) : (k, v) ∈ t := by
  induction t with
  | nil => simp [tfind] at h
  | cons e t ih =>
    obtain ⟨j, a⟩ := e
    by_cases hj : j = k
    · simp_all [tfind]
    · simp only [tfind, beq_iff_eq, hj, if_false] at h
      exact List.mem_cons_of_mem _ (ih h)

/-- A search through a table in ascending order that sees no difference in an entry's new value finds what it found. -/
theorem findSome?_tput {α β : Type} {g : Nat × α → Option β} {t : Table α} {k : Nat} {v w : α} (h : (t.map (·.1)).Pairwise (· < ·))
    (hk : tfind t k = some v) (hg : g (k, w) = g (k, v)) : (tput t k w).findSome? g = t.findSome? g := by
  induction t with
  | nil => simp [tfind] at hk
  | cons e t ih =>
    obtain ⟨j, a⟩ := e
    obtain ⟨first, rest⟩ := List.pairwise_cons.mp h
    by_cases hj : k = j
    · subst hj
      simp only [tfind, beq_self_eq_true, if_true, Option.some.injEq] at hk
      subst hk
      simp [tput, List.findSome?_cons, hg]
    · have hk : tfind t k = some v := by simpa [tfind, Ne.symm hj] using hk
      have after : j < k := first k (List.mem_map_of_mem (mem_of_tfind hk))
      simp [tput, List.findSome?_cons, hj, Nat.not_lt.mpr after.le, ih rest hk]

/-- Blanking a port leaves the prefetched segments as they are found. -/
theorem Dev.blankPort_preSeg {d : Dev} {p : Nat} {r : Run} (ho : d.enginesInOrder) (hr : d.runOf p = some r) (k : PKey) (i : Nat) :
    (d.blankPort p).preSeg k i = d.preSeg k i := by
  have listed : tfind d.eng p = some (d.engOf p) := by
    have e := tget_eq_tfind eng0 d.eng p
    cases h : tfind d.eng p with
    | none =>
      have none : d.engOf p = eng0 := by rw [Dev.engOf, e, h, Option.getD_none]
      rw [Dev.runOf, none] at hr
      exact absurd hr (by simp [eng0])
    | some x => rw [Dev.engOf, e, h, Option.getD_some]
  exact findSome?_tput ho listed rfl

theorem Dev.WriteKeeps.badRead {d d' : Dev} (h : d.WriteKeeps d') (m : Dram) (a n : Nat) : badRead d' m a n = badRead d m a n := by
  rw [Machine.badRead, Machine.badRead, h.beyond, h.goneAt]

/-- A segment of a bed reads the same where the address map, the bed's header and the prefetched segments are the same. -/
theorem Dev.segOf_congr {d d' : Dev} {n t j : Nat} (m : Dram) (h : d.WriteKeeps d') (hn : n < 16)
    (hb : (d'.bed? n).map (·.segOff) = (d.bed? n).map (·.segOff)) (hp : ∀ i, d'.preSeg (.bed n t j) i = d.preSeg (.bed n t j) i) (i : Nat) :
    d'.segOf m (.bed n t j) i = d.segOf m (.bed n t j) i := by
  have addr : ∀ e : Dev, e.segAddr n i = e.get (F.BED_BUFn_BASE_BASE n) * 4096 + ((e.bed? n).map (·.segOff)).getD 0 + 16 * i := by
    intro e
    unfold Dev.segAddr
    cases e.bed? n <;> rfl
  have place : d'.segAddr n i = d.segAddr n i := by rw [addr, addr, hb, h.map _ (mem_mapFlds_buf hn (by simp))]
  simp only [Dev.segOf, place, hp, h.badRead]

theorem Dev.countExpose_congr {d d' : Dev} {m : Dram} {k : PKey} (h : ∀ i, d'.segOf m k i = d.segOf m k i) (c : Nat) :
    ∀ a, d'.countExpose m k a c = d.countExpose m k a c := by
  induction c with
  | zero => exact fun _ => rfl
  | succ c ih => intro a; rw [Dev.countExpose, Dev.countExpose, h, ih]

theorem Dev.updTile_segOff (d : Dev) (n t : Nat) (f : TileSt → TileSt) :
    ((d.updTile n t f).bed? n).map (·.segOff) = (d.bed? n).map (·.segOff) := by
  unfold Dev.updTile Dev.updBed Dev.bed?
  cases h : tfind d.bar.beds n with
  | none => simp [h]
  | some b =>
    simp only [tfind_tput_self, Option.map_some]
    split <;> rfl

/-! ### The end of a path at its SYNC -/

theorem Dev.bankAdd_evr_congr {d d' : Dev} (h : d'.evr = d.evr) (e : Event) : (d'.bankAdd e).evr = (d.bankAdd e).evr := by
  unfold Dev.bankAdd
  rw [h]
  split
  · rfl
  · exact h

/-- What an event does to the recorder does not depend on the Control Bar or on waiting writes. -/
theorem Dev.intake_evr_congr (d : Dev) (b : Bar) (w : List MemWr) (e : Event) :
    (({ d with bar := b, wq := w } : Dev).intake e).evr = (d.intake e).evr := by
  have bank : ∀ c, (({ d with bar := b, wq := w } : Dev).toBank e c).evr = (d.toBank e c).evr := by
    intro c
    have gasp : ({ d with bar := b, wq := w } : Dev).flag F.EVR_STAT_LASTGASP = d.flag F.EVR_STAT_LASTGASP := rfl
    have first := Dev.bankAdd_evr_congr (d := d) (d' := { d with bar := b, wq := w }) rfl e
    unfold Dev.toBank
    rw [gasp]
    split
    · exact first
    · exact Dev.bankAdd_evr_congr (d := (d.bankAdd e).setFlag F.EVR_STAT_LASTGASP true)
        (d' := (({ d with bar := b, wq := w } : Dev).bankAdd e).setFlag F.EVR_STAT_LASTGASP true) first _
  unfold Dev.intake
  dsimp only
  split
  · rfl
  · split
    · rfl
    · split
      · rfl
      · split
        · exact bank 3
        · rfl

theorem Dev.WriteKeeps.recOnly {d d' : Dev} (h : d.recOnly d') : d.WriteKeeps d' := by
  have apart : ∀ k ∈ keptFlds.map Fld.key, k ∉ recFlds.map Fld.key := by decide
  exact .of_get (fun G hG => h.2 G (apart _ (List.mem_map_of_mem hG)))

theorem Dev.WriteKeeps.blankPort (d : Dev) (p : Port) : d.WriteKeeps (d.blankPort p.val) := by
  have apart : ∀ (p : Port), ∀ k ∈ keptFlds.map Fld.key, (F.BEAMn_PSTAT_EMIT p.val).key ≠ k := by decide
  exact .of_get (fun G hG => Dev.get_put_ne _ _ G _ (apart p _ (List.mem_map_of_mem hG)))

section
variable {d : Dev} {r : Run} {n t i : Nat} (hk : r.key = .bed n t i) (m : Dram) (p g : Nat)
include hk

theorem Dev.timeoutNoted_recOnly : (d.tileFlag (.bed n t i) 11).recOnly (d.timeoutNoted m p r g) := by
  rw [Dev.timeoutNoted, hk]
  exact Dev.recOnly_intake _ _

theorem Dev.timeoutNoted_keeps : (d.timeoutNoted m p r g).hnd = d.hnd ∧ (d.timeoutNoted m p r g).eng = d.eng ∧
    (d.timeoutNoted m p r g).wq = d.wq ∧ (d.timeoutNoted m p r g).bar = (d.tileFlag (.bed n t i) 11).bar := by
  obtain ⟨hnd, eng, -, wq, -⟩ := d.updTile_keeps n t (fun x => { x with flags := bitPut x.flags 11 true })
  rw [(Dev.timeoutNoted_recOnly hk m p g).1]
  exact ⟨hnd, eng, wq, rfl⟩

theorem Dev.timeoutNoted_tile {x : TileSt} (hx : d.tile? n t = some x) :
    (d.timeoutNoted m p r g).tile? n t = some { x with flags := bitPut x.flags 11 true } := by
  obtain ⟨-, -, -, bar⟩ := Dev.timeoutNoted_keeps (d := d) hk m p g
  exact (Dev.tile?_congr bar n t).trans (Dev.updTile_tile hx _)

theorem Dev.timeoutNoted_runOf (q : Nat) : (d.timeoutNoted m p r g).runOf q = d.runOf q := by
  obtain ⟨-, eng, -⟩ := Dev.timeoutNoted_keeps (d := d) hk m p g
  rw [Dev.runOf, Dev.engOf, eng]
  rfl

theorem Dev.timeoutNoted_writeKeeps : d.WriteKeeps (d.timeoutNoted m p r g) := by
  obtain ⟨-, -, -, -, regs⟩ := d.updTile_keeps n t (fun x => { x with flags := bitPut x.flags 11 true })
  have flagged : d.WriteKeeps (d.tileFlag (.bed n t i) 11) := .of_regs regs
  exact flagged.trans (.recOnly (Dev.timeoutNoted_recOnly hk m p g))

/-- Segments read after the timeout has been noted and the beam blanked are those read before. -/
theorem Dev.timeoutNoted_segOf (p : Port) (ho : d.enginesInOrder) (hr : d.runOf p.val = some r) (hn : n < 16) (j : Nat) :
    ((d.timeoutNoted m p.val r g).blankPort p.val).segOf m (.bed n t i) j = d.segOf m (.bed n t i) j := by
  obtain ⟨-, eng, -, bar⟩ := Dev.timeoutNoted_keeps (d := d) hk m p.val g
  have run := (Dev.timeoutNoted_runOf hk m p.val g p.val).trans hr
  have noted := Dev.timeoutNoted_writeKeeps (d := d) hk m p.val g
  generalize d.timeoutNoted m p.val r g = e at eng bar run noted ⊢
  refine Dev.segOf_congr m (noted.trans (.blankPort e p)) hn ?_ (fun l => ?_) j
  · have header : (e.blankPort p.val).bed? n = (d.tileFlag (.bed n t i) 11).bed? n := congrArg (fun b : Bar => tfind b.beds n) bar
    rw [header]
    exact d.updTile_segOff n t _
  · have order : e.enginesInOrder := by
      rw [Dev.enginesInOrder, eng]
      exact ho
    rw [Dev.blankPort_preSeg order run, Dev.preSeg, Dev.preSeg, eng]

/-- Waiting writes and the tile's flag do not matter to the record. -/
theorem State.timeoutNoted_evr (s : State) : (s.settled.dev.timeoutNoted s.mem p r g).evr =
    (s.dev.raiseSeg (s.dev.segTag s.mem r.key g) 0x0229 0x03 2 (t + 65536 * p) g (r.last - g)).evr := by
  have flag := s.settled.dev.updTile_frame n t (fun x => { x with flags := bitPut x.flags 11 true })
  rw [Dev.timeoutNoted, hk, show s.settled.dev.tileFlag (.bed n t i) 11 = _ from flag]
  exact Dev.intake_evr_congr s.dev _ [] _

end

theorem bitAt_bitPut_self (v k : Nat) : bitAt (bitPut v k true) k = true := by
  have fits : bitPut v k true < 2 ^ (bitPut v k true + k + 1) :=
    Nat.lt_two_pow_self.trans_le (Nat.pow_le_pow_right (by decide) (by omega))
  have cut := bitAt_bitPut_mod (v := v) (k := k) (w := bitPut v k true + k + 1) (by omega)
  rwa [Nat.mod_eq_of_lt fits] at cut

/-- A SYNC whose timeout runs out, as O24 says it, where the engines are listed in order and the path's bed is in one of the 16 buffers. -/
theorem exec_syncTimeout_late {p : Port} {s : State} {r : Run} {mv : Move} {g : Seg} {n tl i j : Nat} {x : TileSt} {a b : PathSt}
    (order : s.dev.enginesInOrder) (hn : n < 16) (hr : s.dev.runOf p.val = some r) (hk : r.key = .bed n tl i)
    (hm : r.moveAt? r.k = some mv) (hs : mv.kind = .sync) (hg : s.dev.segOf s.mem r.key mv.seg = .ok g) (hv : g.vel ≠ 0)
    (ho : s.dev.hnd.stbyOut = []) (ht : s.dev.hnd.tko = []) (hx : s.dev.tile? n tl = some x) (ha : x.paths[i]? = some a) (hj : j ≠ i)
    (hb : x.paths[j]? = some b) (hst : b.st ≠ .ended) (late : snapF mv.t0 + 10 * g.vel ≤ r.k) :
    ∃ t : State, exec (.syncTimeout p) s = .next t ∧ t.dev.runOf p.val = none ∧ t.dev.get (F.BEAMn_PSTAT_EMIT p.val) = 0 ∧
      t.dev.evr = (s.dev.raiseSeg (s.dev.segTag s.mem r.key mv.seg) 0x0229 0x03 2 (tl + 65536 * p.val) mv.seg (r.last - mv.seg)).evr ∧
      (t.dev.tile? n tl).map (fun y => bitAt y.flags 11) = some true ∧
      (t.dev.tile? n tl).map (fun y => y.notExp) =
        some (x.notExp + s.dev.countExpose s.mem r.key mv.seg (a.first + a.count - mv.seg)) ∧
      (t.dev.path? r.key).map (fun y => y.st) = some .ended ∧
      (∀ q : Nat, q ≠ p.val → t.dev.engOf q = s.dev.engOf q) := by
  have timeout := Dev.syncTimeout_late (d := s.settled.dev) hr hm hs hg hv late
  obtain ⟨hnd, eng, wq, -⟩ := Dev.timeoutNoted_keeps (d := s.settled.dev) hk s.mem p.val mv.seg
  have tile := Dev.timeoutNoted_tile (d := s.settled.dev) hk s.mem p.val mv.seg hx
  have run := (Dev.timeoutNoted_runOf (d := s.settled.dev) hk s.mem p.val mv.seg p.val).trans hr
  have evr := s.timeoutNoted_evr hk p.val mv.seg
  have counted : ((s.settled.dev.timeoutNoted s.mem p.val r mv.seg).blankPort p.val).countExpose s.mem (.bed n tl i) mv.seg
      (a.first + a.count - mv.seg) = s.dev.countExpose s.mem r.key mv.seg (a.first + a.count - mv.seg) := by
    rw [hk]
    exact (Dev.countExpose_congr (fun l => Dev.timeoutNoted_segOf (d := s.settled.dev) hk s.mem mv.seg p order hr hn l) _ _).trans
      (Dev.countExpose_congr (d := s.dev) (d' := s.settled.dev) (fun _ => rfl) _ _)
  generalize s.settled.dev.timeoutNoted s.mem p.val r mv.seg = e at timeout hnd eng wq tile run evr counted
  rw [Dev.finishRun_leaves tile run hk (hnd ▸ ho) (hnd ▸ ht) ha hj hb hst, counted] at timeout
  generalize s.dev.countExpose s.mem r.key mv.seg (a.first + a.count - mv.seg) = c at timeout ⊢
  obtain ⟨-, evrLeft, wqLeft, idle, others⟩ := e.pathLeft_keeps p.val n tl i c
  obtain ⟨bar, engines, evrShut, wqShut⟩ := (e.pathLeft p.val n tl i c).gateShut_keeps p.val
  have left := (Dev.tile?_congr bar n tl).trans (Dev.pathLeft_tile tile c)
  refine ⟨_, exec_syncTimeout timeout (wqShut.trans (wqLeft.trans wq)), ?_, Dev.gateShut_dark _ _, evrShut.trans (evrLeft.trans evr), ?_, ?_, ?_,
    fun q hq => ?_⟩
  · exact (congrArg (fun l => (tget eng0 l p.val).run) engines).trans idle
  · rw [left]
    exact congrArg some (bitAt_bitPut_self x.flags 11)
  · rw [left]
    rfl
  · have path : (((e.pathLeft p.val n tl i c).gateShut p.val).path? (.bed n tl i)) = some { a with st := .ended } := by
      rw [Dev.path?, left, Option.bind_some, List.getElem?_modify]
      simp [ha]
    rw [hk, path]
    rfl
  · exact (congrArg (fun l => tget eng0 l q) engines).trans ((others q hq).trans (congrArg (fun l => tget eng0 l q) eng))

/-! ## Engines out of order

The statement ranges over every state, so also over one that lists its engines in another order than theirs. -/

/-- The records of an EXPOSE segment and of a SYNC with a timeout of 10 T-ticks. -/
def exposeRecord : List Byte := leBytes 16 0
def syncRecord : List Byte := leBytes 6 0 ++ leBytes 2 1 ++ leBytes 4 0 ++ leBytes 4 4

/-- A path of one segment. -/
def oneSegment (st : PStat) : PathSt :=
  { first := 0, count := 1, box := ⟨0, 0, 0, 0⟩, dur := 0, coverable := true, st := st, resume := none, cls := 0, underruns := 0,
    interrupts := 0, beam := none }

/-- A tile of two paths, the first of them on port 0. -/
def lateTile : TileSt := { tileNew (tileOfBytes []) with scanned := true, paths := [oneSegment (.running 0), oneSegment .fresh] }

/-- The SYNC at which port 0 holds from the first T-tick of its path on. -/
def lateMove : Move :=
  { kind := .sync, on := false, seg := 0, x0 := 0, y0 := 0, x1 := 0, y1 := 0, f0 := 0, f1 := 0, t0 := fracI 0, dt := fracI 1, len := fracI 0,
    v0 := fracI 0, vp := fracI 0, v1 := fracI 0, acc := fracI 0, jerk := fracI 0, segT0 := fracI 0 }

/-- A run that has held at its SYNC for 10 T-ticks. -/
def lateRun : Run :=
  { key := .bed 0 0 0, k := 10, startTick := 0, moves := [lateMove], planT := fracI 0, next := 1, last := 0, bx := 0, by_ := 0, bf := 0, px := 0,
    py := 0, vel := fracI 0, stroke := none, settle := 0, planned := false, edges := [], lit := none, openSeg := none, hit := none,
    taking := false, arrived := false, resume := none, conf := none, intr := none, yield := false, lostSeg := none, shed := false }

/-- An engine whose prefetch queue holds this record as the one segment of port 0's path. -/
def holding (run : Option Run) (record : List Byte) : Eng := { eng0 with run := run, pre := [⟨.bed 0 0 0, 0, some record⟩] }

/-- After reset, with these engines and the tile in a bed of buffer 0. -/
def lateState (engines : Table Eng) : State := State.reset.onDev (fun d => { d with
  eng := engines
  bar := { d.bar with beds := [(0, { d.bedOf State.reset.mem 0 0 with tiles := [(0, lateTile)] })] } })

/-- A state that meets what `exec_syncTimeout_late` asks: port 0 alone, holding its SYNC. -/
theorem lateState_inOrder : ∃ t : State, exec (.syncTimeout 0) (lateState [(0, holding (some lateRun) syncRecord)]) = .next t ∧
    t.dev.runOf 0 = none := by
  obtain ⟨t, ht, hr, -⟩ := exec_syncTimeout_late (p := 0) (s := lateState [(0, holding (some lateRun) syncRecord)]) (r := lateRun)
    (mv := lateMove) (g := segOfBytes syncRecord) (n := 0) (tl := 0) (i := 0) (j := 1) (x := lateTile)
    (List.pairwise_singleton _ _) (by decide) rfl rfl rfl rfl rfl (by decide) rfl rfl rfl rfl (by decide) rfl (by decide) (by decide)
  exact ⟨t, ht, hr⟩

/-- The engine of port 1 is listed before that of port 0, and its queue holds a SYNC where port 0's holds an EXPOSE segment. -/
def crossedState : State := lateState [(1, holding none syncRecord), (0, holding (some lateRun) exposeRecord)]

/-- Before its timeout, no EXPOSE segment is left of the path. -/
theorem crossedState_none_left : crossedState.dev.countExpose crossedState.mem lateRun.key lateMove.seg 1 = 0 := by decide

/-- One EXPOSE segment is recorded as not exposed. -/
theorem crossedState_counts : ∃ t : State, exec (.syncTimeout 0) crossedState = .next t ∧
    (t.dev.tile? 0 0).map (fun y => y.notExp) = some 1 := ⟨_, rfl, by decide⟩

/-- Refutes O24: in its clause on a SYNC whose timeout runs out it counts the segments not exposed as they are read beforehand, and the model counts
them once the beam is blanked. In `crossedState` blanking writes the engine of port 0 in front of that of port 1, and the path's segment, a SYNC
before, is then read as an EXPOSE segment. `exec_syncTimeout_late` has the clause where the engines are listed in order; the other clauses hold:
`exec_tTick_no_ports`, `exec_tTick_port_at_rest`, `exec_holdEnd_no_run`, `exec_syncTimeout_no_run`, `exec_holdEnd_over`, `exec_syncTimeout_waits`. -/
theorem not_tTicksHoldsAndSyncs : ¬ Obligations.TTicksHoldsAndSyncs := by
  intro h
  obtain ⟨-, -, -, late, -⟩ := h
  obtain ⟨t, ht, -, -, -, -, hn, -⟩ := late 0 crossedState lateRun lateMove (segOfBytes syncRecord) 0 0 0 1 lateTile
    (oneSegment (.running 0)) (oneSegment .fresh) rfl rfl rfl rfl rfl (by decide) rfl rfl rfl rfl (by decide) rfl (by decide) (by decide)
  obtain ⟨u, hu, one⟩ := crossedState_counts
  obtain rfl := Host.Outcome.next.inj (ht.symm.trans hu)
  have zero := hn.trans (congrArg (fun c => some (lateTile.notExp + c)) crossedState_none_left)
  exact absurd (one.symm.trans zero) (by decide)

end Sys2Proof.Machine

/-! # Faults of a beam port at rest (04_bed_cycle.md R109; 09_handoff.md R246, R260 to R263)

A fault runs through the fault table, the pairing of tiles and the paths dealt to the port. `Dev.BooksOnly` says of all of these that they are
bookkeeping: they keep ports, engines and the registers of ports and pairs (`Fld.ofPorts`). What is left is what the fault does to its port. -/

namespace Sys2Proof.Machine

open Sys2Proof.Safety

/-! ## Places of registers (R142, R171, R172) -/

/-- Where the registers of a beam port stand. -/
theorem portKeys (p : Nat) :
    (F.BEAMn_TSTAT_STATE p).key = (0x100000 + p * 0x2000) * 32 + 0 ∧ (F.BEAMn_LAT_TICKS p).key = (0x10001C + p * 0x2000) * 32 + 0 ∧
    (F.BEAMn_PSTAT_LINK p).key = (0x100100 + p * 0x2000) * 32 + 0 ∧ (F.BEAMn_PSTAT_READY p).key = (0x100100 + p * 0x2000) * 32 + 3 ∧
    (F.BEAMn_PSTAT_LSR_OK p).key = (0x100100 + p * 0x2000) * 32 + 5 ∧ (F.BEAMn_PSTAT_LFAULT p).key = (0x100100 + p * 0x2000) * 32 + 6 ∧
    (F.BEAMn_PSTAT_EMIT p).key = (0x100100 + p * 0x2000) * 32 + 7 ∧ (F.BEAMn_PSTAT_TFAIL p).key = (0x100100 + p * 0x2000) * 32 + 8 ∧
    (F.BEAMn_PSTAT_ATTACHED p).key = (0x100100 + p * 0x2000) * 32 + 9 ∧ (F.BEAMn_PAIR_PAIR p).key = (0x100108 + p * 0x2000) * 32 + 0 ∧
    (F.BEAMn_SL_EYE_PHASE_A p).key = (0x10010C + p * 0x2000) * 32 + 0 ∧ (F.BEAMn_SL_EYE_WIDTH_A p).key = (0x10010C + p * 0x2000) * 32 + 4 ∧
    (F.BEAMn_SL_EYE_PHASE_B p).key = (0x10010C + p * 0x2000) * 32 + 8 ∧ (F.BEAMn_SL_EYE_WIDTH_B p).key = (0x10010C + p * 0x2000) * 32 + 12 ∧
    (F.BEAMn_SL_EYE_OFFSET p).key = (0x10010C + p * 0x2000) * 32 + 16 ∧ (F.HND_Pn_STAT_STATE p).key = (0x240100 + p * 0x10) * 32 + 0 :=
  ⟨rfl, rfl, rfl, rfl, rfl, rfl, rfl, rfl, rfl, rfl, rfl, rfl, rfl, rfl, rfl, rfl⟩

/-- Where the registers of the engine pairs stand. -/
theorem pairKeys (k : Nat) :
    (F.ENG_PAIRk_STATE k).key = (0x140000 + k * 4) * 32 + 0 ∧ (F.ENG_PAIRk_PORT k).key = (0x140000 + k * 4) * 32 + 8 ∧
    (F.ENG_PAIRk_CAUSE k).key = (0x140000 + k * 4) * 32 + 16 :=
  ⟨rfl, rfl, rfl⟩

/-- Where the registers stand that count for all pairs and loops, and LASTGASP, on which records depend. -/
theorem countKeys : F.ENG_SPARES_COUNT.key = 0x140090 * 32 ∧ F.ENG_ATTACHES_COUNT.key = 0x140094 * 32 ∧
    F.LOOP_NANS_COUNT.key = 0x18000C * 32 ∧ F.EVR_STAT_LASTGASP.key = 0x330004 * 32 + 4 :=
  ⟨rfl, rfl, rfl, rfl⟩

/-- A register of the beam ports, the engine pairs or the loops, or one of the low fields of HND_Pn_STAT. -/
def Fld.ofPorts (G : Fld) : Prop :=
  0x100000 * 32 ≤ G.key ∧ (G.key < 0x240000 * 32 ∨ 0x240100 * 32 ≤ G.key ∧ G.key < 0x241000 * 32 ∧ G.key % 32 < 8)

/-- The recorder's registers stand elsewhere. -/
theorem Fld.ofPorts_not_rec {G : Fld} (h : G.ofPorts) : G.key ∉ recFlds.map Fld.key := by
  intro q
  have away : ∀ k ∈ recFlds.map Fld.key, k < 0x100000 * 32 ∨ 0x241000 * 32 ≤ k := by decide
  have := away _ q
  unfold Fld.ofPorts at h
  omega

/-- Setting any other register keeps those. -/
theorem Dev.get_put_books (d : Dev) {F G : Fld} (v : Nat) (hF : ¬ F.ofPorts) (hG : G.ofPorts) : (d.put F v).get G = d.get G :=
  Dev.get_put_ne d F G v (fun q => hF (by unfold Fld.ofPorts at hG ⊢; rwa [q]))

theorem ofPorts_port {p : Nat} (hp : p < 32) : (F.BEAMn_TSTAT_STATE p).ofPorts ∧ (F.BEAMn_PSTAT_LSR_OK p).ofPorts ∧
    (F.BEAMn_PSTAT_LFAULT p).ofPorts ∧ (F.BEAMn_PSTAT_EMIT p).ofPorts ∧ (F.BEAMn_PSTAT_ATTACHED p).ofPorts ∧
    (F.BEAMn_PAIR_PAIR p).ofPorts ∧ (F.HND_Pn_STAT_STATE p).ofPorts := by
  simp only [Fld.ofPorts, portKeys]
  omega

theorem ofPorts_pair {k : Nat} (hk : k < 36) : (F.ENG_PAIRk_STATE k).ofPorts ∧ (F.ENG_PAIRk_PORT k).ofPorts ∧
    (F.ENG_PAIRk_CAUSE k).ofPorts := by
  simp only [Fld.ofPorts, pairKeys]
  omega

/-! ## The bookkeeping of a fault -/

/-- Of the device d only the books changed: registers that are not those of ports and pairs, the recorder, the beds in flight, and the tables of
the hand-off. Where no takeover runs none begins. -/
structure Dev.BooksOnly (d d' : Dev) : Prop where
  frame : d' = { d with regs := d'.regs, evr := d'.evr, bar := d'.bar,
                        hnd := { d.hnd with tko := d'.hnd.tko, inc := d'.hnd.inc, order := d'.hnd.order } }
  noTko : d.hnd.tko = [] → d'.hnd.tko = []
  ports : ∀ G : Fld, G.ofPorts → d'.get G = d.get G

/-- What the String Fabric goes by beside the registers: the T-tick and what was routed in it. With it stand the DRAM writes that wait for the end
of the row. -/
structure Fabric where
  tick : Word
  routed : List Nat
  routeTick : Word
  wq : List MemWr

/-- What the String Fabric of d goes by. -/
def Dev.fabric (d : Dev) : Fabric := ⟨d.tick, d.hnd.routed, d.hnd.routeTick, d.wq⟩

namespace Dev.BooksOnly

theorem fabric {d e : Dev} (h : d.BooksOnly e) : e.fabric = d.fabric := (congrArg Dev.fabric h.frame).trans rfl

theorem prtOf {d e : Dev} (h : d.BooksOnly e) (p : Nat) : e.prtOf p = d.prtOf p := (congrArg (fun x : Dev => x.prtOf p) h.frame).trans rfl

theorem engOf {d e : Dev} (h : d.BooksOnly e) (p : Nat) : e.engOf p = d.engOf p := (congrArg (fun x : Dev => x.engOf p) h.frame).trans rfl

theorem refl (d : Dev) : d.BooksOnly d := ⟨rfl, id, fun _ _ => rfl⟩

theorem trans {a b c : Dev} (h : a.BooksOnly b) (k : b.BooksOnly c) : a.BooksOnly c where
  frame := by
    have k1 := k.frame
    rw [h.frame] at k1
    exact k1
  noTko := fun q => k.noTko (h.noTko q)
  ports := fun G hG => (k.ports G hG).trans (h.ports G hG)

variable {d e : Dev}

theorem put (h : d.BooksOnly e) {G : Fld} (hG : ¬ G.ofPorts) (v : Nat) : d.BooksOnly (e.put G v) :=
  h.trans ⟨rfl, id, fun _ hF => e.get_put_books v hG hF⟩

theorem raise (h : d.BooksOnly e) (c a b x y z : Nat) : d.BooksOnly (e.raise c a b x y z) :=
  h.trans ⟨by rw [(e.recOnly_raise c a b x y z).1], fun q => by rw [Dev.raise_hnd, q],
    fun _ hG => Dev.get_raise _ _ _ _ _ _ _ _ (Fld.ofPorts_not_rec hG)⟩

theorem foldl {α : Type} {f : Dev → α → Dev} (l : List α) (h : d.BooksOnly e)
    (step : ∀ e, ∀ x ∈ l, d.BooksOnly e → d.BooksOnly (f e x)) : d.BooksOnly (l.foldl f e) :=
  List.foldlRecOn (motive := d.BooksOnly) l f h (fun e he x hx => step e x hx he)

theorem updTile (h : d.BooksOnly e) (n t : Nat) (f : TileSt → TileSt) : d.BooksOnly (e.updTile n t f) :=
  h.trans (by rw [Dev.updTile_frame]; exact ⟨rfl, id, fun _ _ => rfl⟩)

theorem updPath (h : d.BooksOnly e) (k : PKey) (f : PathSt → PathSt) : d.BooksOnly (e.updPath k f) := by
  cases k with
  | bed n t i => exact h.updTile n t _
  | inc x =>
    unfold Dev.updPath
    dsimp only
    split
    · exact h.trans ⟨rfl, id, fun _ _ => rfl⟩
    · exact h

end Dev.BooksOnly

@[simp] theorem notOfPorts_entry (k : Nat) : ¬(F.HND_FTk_INFO_CLASS k).ofPorts ∧ ¬(F.HND_FTk_INFO_SEV k).ofPorts ∧
    ¬(F.HND_FTk_INFO_RESOLVED k).ofPorts ∧ ¬(F.HND_FTk_INFO_PORT k).ofPorts ∧ ¬(F.HND_FTk_INFO_DEVICE k).ofPorts ∧
    ¬(F.HND_FTk_INFO_COVERED k).ofPorts ∧ ¬(F.HND_FTk_INFO_UNCOVERED k).ofPorts ∧ ¬(F.HND_FTk_INFO_RETIRED k).ofPorts ∧
    ¬(F.HND_FTk_INFO_REMOTE k).ofPorts ∧ ¬(F.HND_FTk_INFO_COUNT k).ofPorts ∧ ¬(F.HND_FTk_CAUSE_CAUSE k).ofPorts ∧
    ¬(F.HND_FTk_TAKE_NODE k).ofPorts ∧ ¬(F.HND_FTk_TAKE_CPORT k).ofPorts ∧ ¬(F.HND_FTk_TAKE_CVALID k).ofPorts ∧
    ¬(F.HND_FTk_TAKE_INTERVAL k).ofPorts ∧ ¬(F.HND_FTk_PORTS_PORTS k).ofPorts ∧ ¬(F.HND_FTk_ONSET_TICK k).ofPorts ∧
    ¬(F.HND_FTk_TIME_LO_NS k).ofPorts ∧ ¬(F.HND_FTk_TIME_HI_NS k).ofPorts ∧ ¬(F.HND_FTk_RESUME_SEG k).ofPorts := by
  simp only [Fld.ofPorts, Fld.key, F.HND_FTk_INFO_CLASS, F.HND_FTk_INFO_SEV, F.HND_FTk_INFO_RESOLVED, F.HND_FTk_INFO_PORT,
    F.HND_FTk_INFO_DEVICE, F.HND_FTk_INFO_COVERED, F.HND_FTk_INFO_UNCOVERED, F.HND_FTk_INFO_RETIRED, F.HND_FTk_INFO_REMOTE,
    F.HND_FTk_INFO_COUNT, F.HND_FTk_CAUSE_CAUSE, F.HND_FTk_TAKE_NODE, F.HND_FTk_TAKE_CPORT, F.HND_FTk_TAKE_CVALID, F.HND_FTk_TAKE_INTERVAL,
    F.HND_FTk_PORTS_PORTS, F.HND_FTk_ONSET_TICK, F.HND_FTk_TIME_LO_NS, F.HND_FTk_TIME_HI_NS, F.HND_FTk_RESUME_SEG]
  omega

@[simp] theorem notOfPorts_table : ¬F.HND_FT_VALID0_VALID.ofPorts ∧ ¬F.HND_FT_VALID1_VALID.ofPorts ∧ ¬F.HND_STAT_OPEN.ofPorts ∧
    ¬F.HND_STAT_FAULT_OVF.ofPorts ∧ ¬F.HND_STAT_FAULT_LOST.ofPorts ∧ ¬F.HND_MERGES_COUNT.ofPorts ∧ ¬F.HST_ATTN_CAUSE.ofPorts ∧
    ¬F.BED_STAT_PAIRBRK.ofPorts := by
  unfold Fld.ofPorts
  decide

@[simp] theorem notOfPorts_link (n : Nat) : ¬(F.HND_Pn_STAT_ENTRY n).ofPorts ∧ ¬(F.HND_Pn_STAT_ENTRY_V n).ofPorts := by
  simp only [Fld.ofPorts, Fld.key, F.HND_Pn_STAT_ENTRY, F.HND_Pn_STAT_ENTRY_V]
  omega

namespace Dev.BooksOnly

variable {d e : Dev} (h : d.BooksOnly e)
include h

theorem ftSetValid (k : Nat) (b : Bool) : d.BooksOnly (e.ftSetValid k b) := by
  unfold Dev.ftSetValid
  split <;> exact h.put (by simp) _

theorem ftEvent (k : Nat) : d.BooksOnly (e.ftEvent k) := (h.raise ..).put (by simp) _

theorem ftRaise (k v : Nat) : d.BooksOnly (e.ftRaise k v) := by
  unfold Dev.ftRaise
  split
  · exact (h.put (by simp) v).ftEvent k
  · exact h

theorem ftTime (k : Nat) : d.BooksOnly (e.ftTime k) :=
  (h.put (by simp) _).put (by simp) _

theorem ftAdd (k cause sev : Nat) : d.BooksOnly (e.ftAdd k cause sev) :=
  (((h.put (by simp) _).put (by simp) _).ftTime k).ftRaise k sev

theorem ftClear (k : Nat) : d.BooksOnly (e.ftClear k) := h.foldl _ (fun e f hf he => he.put (by revert f; simp) _)

theorem ftMerge (a b : Nat) : d.BooksOnly (e.ftMerge a b) := by
  unfold Dev.ftMerge
  extract_lets tm late orF d1 d2 d3 d4 d5 hnd d6
  have h1 : d.BooksOnly d1 := h.put (by simp) _
  have h2 : d.BooksOnly d2 := h1.foldl (f := orF) _ (fun e f hf he => he.put (by revert f; simp) _)
  have h3 : d.BooksOnly d3 := ((h2.put (by simp) _).put (by simp) _).put (by simp) _
  have h4 : d.BooksOnly d4 := (h3.put (by simp) _).put (by simp) _
  have h5 : d.BooksOnly d5 := h4.foldl _ (fun x n _ hx => by
    split
    · exact hx.put (by simp) _
    · exact hx)
  clear_value d5
  have h6 : d.BooksOnly d6 := h5.trans ⟨rfl, fun q => by simp [d6, q], fun _ _ => rfl⟩
  exact (h6.ftClear b).ftSetValid b false

theorem ftAlloc (cls : Nat) : d.BooksOnly (e.ftAlloc cls).1 := by
  have lost : d.BooksOnly ((e.setFlag F.HND_STAT_FAULT_LOST true).raise 0x0609 0x04 2 0xFF 0xFF cls) :=
    (h.put (by simp) _).raise ..
  unfold Dev.ftAlloc
  split
  · exact h
  · dsimp only
    split
    · exact lost
    · split
      · exact lost
      · exact ((((h.ftMerge _ _).put (by simp) _).put (by simp) _).raise ..)

theorem ftWrite (port : Option Nat) (cls cause sev : Nat) (onset : Word) (resume : Nat) :
    d.BooksOnly (e.ftWrite port cls cause sev onset resume).1 := by
  unfold Dev.ftWrite
  split
  · exact h.ftAdd ..
  · have alloc := h.ftAlloc cls
    split
    · next q => exact q ▸ alloc
    · next d1 k q =>
      rw [q] at alloc
      extract_lets d2 ports d3 d4 d5
      have h2 : d.BooksOnly d2 := (alloc.ftClear k).ftSetValid k true
      have h3 : d.BooksOnly d3 := ((((((h2.put (by simp) _).put (by simp) _).put
        (by simp) _).put (by simp) _).put (by simp) _).put
        (by simp) _).put (by simp) _
      have h4 : d.BooksOnly d4 := ((h3.put (by simp) _).put (by simp) _).ftTime k
      have h5 : d.BooksOnly d5 := by
        unfold d5
        split
        · exact (h4.put (by simp) _).put (by simp) _
        · exact h4
      have listed : d.BooksOnly { d5 with hnd := { d5.hnd with order := d5.hnd.order ++ [k] } } := h5.trans ⟨rfl, id, fun _ _ => rfl⟩
      exact (listed.ftEvent k).put (by simp) _

theorem pairEnd (k : PKey) (cause : Nat) : d.BooksOnly (e.pairEnd k cause) := by
  unfold Dev.pairEnd
  split
  · exact h
  · split
    · exact h
    · split
      · exact (((h.updTile ..).updTile ..).put (by simp) _).raise ..
      · exact h

theorem pairEndPort (p cause : Nat) : d.BooksOnly (e.pairEndPort p cause) :=
  h.foldl _ (fun x n _ hx => by
    split
    · exact hx
    · exact hx.foldl _ (fun y t _ hy => hy.pairEnd ..))

end Dev.BooksOnly

/-! ## A fault of a port at rest (R155, R170, R260) -/

/-- The device on which port p has just met a fault of class cls: its beam is dark, and its pairing has ended. -/
def Dev.struck (d : Dev) (p cls : Nat) : Dev :=
  (((d.blankPort p).addClass p cls).pairEndPort p 1).updPrt p (fun x => { x with faultTick := some d.tick })

section
variable {d : Dev} {p : Nat} (hs : d.get (F.HND_Pn_STAT_STATE p) = 0) (hr : d.runOf p = none)
include hs hr

theorem Dev.portFault_rest (m : Dram) (cls cause sev : Nat) (onset : Word) : d.portFault m p cls cause sev onset =
    (((((d.struck p cls).ftWrite (some p) cls cause sev onset 0).1.put (F.HND_Pn_STAT_STATE p) 2).returnQueue p).coverGone m p).portBits p := by
  simp [Dev.portFault, Dev.struck, hs, hr]

end

theorem Dev.coverGone_none {d : Dev} (h : d.hnd.tko = []) (m : Dram) (p : Nat) : d.coverGone m p = d := by
  unfold Dev.coverGone Dev.tkoFor
  rw [h]
  rfl

/-- Giving the paths dealt to port p back empties its engine's queue and changes the books. -/
theorem Dev.returnQueue_books (d : Dev) (p : Nat) :
    ((d.unfetch p (fun k => (d.engOf p).queue.contains k)).updEng p (fun e => { e with queue := [] })).BooksOnly (d.returnQueue p) :=
  (Dev.BooksOnly.refl _).foldl _ (fun _ k _ he => he.updPath k _)

/-- The beam of a port that is out of service is dark. -/
theorem Dev.portBits_out {d : Dev} {p : Nat} (h : d.get (F.HND_Pn_STAT_STATE p) ≠ 0) (hp : p < 32) :
    (d.portBits p).get (F.BEAMn_PSTAT_EMIT p) = 0 := by
  have apart : (F.BEAMn_TSTAT_STATE p).key ≠ (F.HND_Pn_STAT_STATE p).key := by
    simp only [portKeys]
    omega
  have out : (d.put (F.BEAMn_TSTAT_STATE p) (d.trajState p)).get (F.HND_Pn_STAT_STATE p) ≠ 0 := by
    rwa [Dev.get_put_ne _ _ _ _ apart]
  have level : (d.put (F.BEAMn_TSTAT_STATE p) (d.trajState p)).emitLevel p = false := by
    simp [Dev.emitLevel, Dev.emitAllowed, Dev.inService, out]
  rw [Dev.portBits, Dev.emitBit, Dev.setFlag_eq, Dev.get_put_self, level]
  rfl

/-- What the fault of a port at rest leaves: the port is out of service, its beam dark, its queue empty, and of the registers of ports and pairs
only its own state and emission change. -/
structure Dev.FaultedAtRest (d e : Dev) (p cls : Nat) : Prop where
  state : e.get (F.HND_Pn_STAT_STATE p) = 2
  dark : e.get (F.BEAMn_PSTAT_EMIT p) = 0
  classes : (d.prtOf p).classes = [] → (e.prtOf p).classes = [cls]
  queue : (e.engOf p).queue = []
  fabric : e.fabric = d.fabric
  ports : ∀ G : Fld, G.ofPorts → G.key ∉ [F.HND_Pn_STAT_STATE p, F.BEAMn_TSTAT_STATE p, F.BEAMn_PSTAT_EMIT p].map Fld.key → e.get G = d.get G

theorem Dev.struck_books (d : Dev) (p cls : Nat) : ∃ b : Dev, ((d.blankPort p).addClass p cls).BooksOnly b ∧
    d.struck p cls = b.updPrt p (fun x => { x with faultTick := some d.tick }) :=
  ⟨_, (Dev.BooksOnly.refl _).pairEndPort p 1, rfl⟩

theorem Dev.struck_classes {d : Dev} {p : Nat} (h : (d.prtOf p).classes = []) (cls : Nat) : ((d.struck p cls).prtOf p).classes = [cls] := by
  obtain ⟨b, books, eq⟩ := d.struck_books p cls
  have struck : ((d.struck p cls).prtOf p).classes = (b.prtOf p).classes := by
    rw [eq, Dev.prtOf, Dev.updPrt, tget_tput_self]
  have dark : ((d.blankPort p).prtOf p).classes = [] := by
    show (tget prt0 (tput d.prt p _) p).classes = []
    rw [tget_tput_self]
    exact h
  rw [struck, books.prtOf p]
  show (tget prt0 (tput (d.blankPort p).prt p _) p).classes = [cls]
  rw [tget_tput_self]
  dsimp only
  rw [dark]
  rfl

/-- Blanking a beam for a fault, and ending its pairing, keeps the registers of ports and pairs but for the emission shown. -/
theorem Dev.struck_ports (d : Dev) (p cls : Nat) {G : Fld} (hG : G.ofPorts) (he : G.key ≠ (F.BEAMn_PSTAT_EMIT p).key) :
    (d.struck p cls).get G = d.get G := by
  obtain ⟨b, books, eq⟩ := d.struck_books p cls
  rw [eq]
  exact (books.ports G hG).trans (Dev.get_put_ne _ _ G _ he.symm)

theorem Dev.struck_keeps (d : Dev) (p cls : Nat) :
    (d.struck p cls).fabric = d.fabric ∧ (d.hnd.tko = [] → (d.struck p cls).hnd.tko = []) := by
  obtain ⟨b, books, eq⟩ := d.struck_books p cls
  rw [eq]
  exact ⟨books.fabric, books.noTko⟩

theorem Dev.portFault_faultedAtRest {d : Dev} {p : Nat} (hp : p < 32) (hs : d.get (F.HND_Pn_STAT_STATE p) = 0) (hr : d.runOf p = none)
    (ht : d.hnd.tko = []) (m : Dram) (cls cause sev : Nat) (onset : Word) :
    d.FaultedAtRest (d.portFault m p cls cause sev onset) p cls := by
  obtain ⟨fabric, noTko⟩ := d.struck_keeps p cls
  have classes := fun h => Dev.struck_classes (d := d) (p := p) h cls
  have ports := fun {G : Fld} => d.struck_ports p cls (G := G)
  have entry := (Dev.BooksOnly.refl (d.struck p cls)).ftWrite (some p) cls cause sev onset 0
  rw [Dev.portFault_rest hs hr]
  generalize d.struck p cls = x at *
  generalize (x.ftWrite (some p) cls cause sev onset 0).1 = f at *
  have back := (f.put (F.HND_Pn_STAT_STATE p) 2).returnQueue_books p
  generalize (f.put (F.HND_Pn_STAT_STATE p) 2).returnQueue p = r at *
  rw [Dev.coverGone_none (back.noTko (entry.noTko (noTko ht)))]
  have reads : ∀ G : Fld, G.ofPorts → r.get G = (f.put (F.HND_Pn_STAT_STATE p) 2).get G := back.ports
  have state : r.get (F.HND_Pn_STAT_STATE p) = 2 := by
    rw [reads _ (by simp [ofPorts_port hp]), Dev.get_put_self]
    rfl
  exact {
    state := by
      rw [r.portBits_regsKeep p _ (by
        simp only [List.map_cons, List.map_nil, List.mem_cons, List.not_mem_nil, or_false, portKeys]
        omega)]
      exact state
    dark := r.portBits_out (by simp [state]) hp
    classes := fun h => (congrArg Prt.classes ((back.prtOf p).trans (entry.prtOf p))).trans (classes h)
    queue := congrArg Eng.queue ((back.engOf p).trans (tget_tput_self _ _ _ _))
    fabric := back.fabric.trans (entry.fabric.trans fabric)
    ports := fun G hG away => by
      simp only [List.map_cons, List.map_nil, List.mem_cons, List.not_mem_nil, not_or] at away
      obtain ⟨notState, notTraj, notEmit, -⟩ := away
      rw [r.portBits_regsKeep p _ (by simp [notTraj, notEmit]), reads G hG, Dev.get_put_ne _ _ _ _ (Ne.symm notState), entry.ports G hG,
        ports hG notEmit] }

end Sys2Proof.Machine

/-! # The laser source (06_beam_ports.md R159, R166)

The row declares a fault on a device that shows it already (`Dev.laserNoted`), and hands it to the fault of a port at rest. -/

namespace Sys2Proof.Machine

open Sys2Proof.Safety

/-! ## The laser source (R159, R166) -/

theorem Dev.emitBit_keeps (d : Dev) (p : Nat) : regsKeep [F.BEAMn_PSTAT_EMIT p] d (d.emitBit p) := regsKeep_put _ _ _ (by simp)

theorem exec_lsrOkChange (p : Port) (level : Bool) (s : State) :
    exec (.lsrOkChange p level) s = .next (s.onDev (fun d => d.lsrChange p.val level)) := rfl

theorem Dev.lsrChange_same {d : Dev} {p : Nat} {level : Bool} (h : (d.prtOf p).lsr = level) : d.lsrChange p level = d := by
  simp [Dev.lsrChange, h]

/-- The device on which LSR_OK of port p has just gone to a level: its times start again. -/
def Dev.lsrEdge (d : Dev) (p : Nat) (level : Bool) : Dev :=
  d.updPrt p (fun x => { x with lsr := level, lsrSince := d.time, lsrDone := false })

theorem Dev.lsrEdge_prtOf (d : Dev) (p : Nat) (level : Bool) :
    (d.lsrEdge p level).prtOf p = { d.prtOf p with lsr := level, lsrSince := d.time, lsrDone := false } := tget_tput_self _ _ _ _

theorem Dev.lsrChange_low {d : Dev} {p : Nat} (h : (d.prtOf p).lsr ≠ false) : d.lsrChange p false = (d.lsrEdge p false).emitBit p := by
  simp [Dev.lsrChange, Dev.lsrEdge, h]

theorem Dev.lsrChange_high {d : Dev} {p : Nat} (h : (d.prtOf p).lsr ≠ true) :
    d.lsrChange p true = ((d.lsrEdge p true).put (F.BEAMn_PSTAT_LSR_OK p) 1).emitBit p := by
  simp [Dev.lsrChange, Dev.lsrEdge, h, b2n]

/-- EMIT_EN is low while the source reads not ready. -/
theorem Dev.emitBit_lsr_low {d : Dev} {p : Nat} (h : (d.prtOf p).lsr = false) : (d.emitBit p).get (F.BEAMn_PSTAT_EMIT p) = 0 := by
  have level : d.emitLevel p = false := by simp [Dev.emitLevel, Dev.emitAllowed, h]
  rw [Dev.emitBit, Dev.setFlag_eq, Dev.get_put_self, level]
  rfl

theorem lsrOk_not_emit (p : Nat) : (F.BEAMn_PSTAT_LSR_OK p).key ∉ [F.BEAMn_PSTAT_EMIT p].map Fld.key := by
  simp only [List.map_cons, List.map_nil, List.mem_singleton, portKeys]
  omega

/-- An edge of LSR_OK (R159). -/
theorem exec_lsrOkChange_edge {p : Port} {level : Bool} {s : State} (h : (s.dev.prtOf p.val).lsr ≠ level) :
    ∃ t : State, exec (.lsrOkChange p level) s = .next t ∧
      (t.dev.prtOf p.val).lsr = level ∧ (t.dev.prtOf p.val).lsrSince = s.dev.time ∧
      (level = false → t.dev.get (F.BEAMn_PSTAT_EMIT p.val) = 0 ∧
        t.dev.get (F.BEAMn_PSTAT_LSR_OK p.val) = s.dev.get (F.BEAMn_PSTAT_LSR_OK p.val)) ∧
      (level = true → t.dev.get (F.BEAMn_PSTAT_LSR_OK p.val) = 1) ∧ t.dev.evr = s.dev.evr ∧ t.mem = s.mem ∧
      regsKeep [F.BEAMn_PSTAT_EMIT p.val, F.BEAMn_PSTAT_LSR_OK p.val] s.dev t.dev := by
  have port := s.dev.lsrEdge_prtOf p.val level
  have edge : regsKeep [F.BEAMn_PSTAT_EMIT p.val, F.BEAMn_PSTAT_LSR_OK p.val] s.dev (s.dev.lsrEdge p.val level) := regsKeep_of_regs rfl
  refine ⟨_, exec_lsrOkChange p level s, ?_⟩
  rw [State.onDev_dev]
  cases level with
  | false =>
    rw [Dev.lsrChange_low h]
    have emit := (s.dev.lsrEdge p.val false).emitBit_keeps p.val
    refine ⟨congrArg Prt.lsr port, congrArg Prt.lsrSince port, fun _ => ⟨Dev.emitBit_lsr_low (congrArg Prt.lsr port), ?_⟩, by simp, rfl, rfl,
      regsKeep_trans edge (regsKeep_mono emit (by simp))⟩
    rw [emit _ (lsrOk_not_emit p.val)]
    rfl
  | true =>
    rw [Dev.lsrChange_high h]
    have emit := ((s.dev.lsrEdge p.val true).put (F.BEAMn_PSTAT_LSR_OK p.val) 1).emitBit_keeps p.val
    refine ⟨congrArg Prt.lsr port, congrArg Prt.lsrSince port, by simp, fun _ => ?_, rfl, rfl,
      regsKeep_trans (regsKeep_trans edge (regsKeep_put _ _ _ (by simp))) (regsKeep_mono emit (by simp))⟩
    rw [emit _ (lsrOk_not_emit p.val), Dev.get_put_self]
    rfl

/-- The time in ns for which the source of port p has been at its present level. -/
def Dev.lsrLow (d : Dev) (p : Nat) : Nat := elapsed64 d.time (d.prtOf p).lsrSince

/-- The time in ns after which a low source is a fault (R166). -/
def Dev.lsrFilter (d : Dev) (p : Nat) : Nat := 1000 * max 1 (d.get (F.BEAMn_PCTRL_LSR_FILT p))

theorem exec_laserSourceFault {p : Port} {s : State} {d : Dev} (hd : s.settled.dev.laserFault s.mem p.val = d) (hw : d.wq = []) :
    exec (.laserSourceFault p) s = .next { s with dev := d } := by
  subst hd
  exact congrArg Host.Outcome.next (State.runDev_noWrites s (fun d m => d.laserFault m p.val) hw)

section
variable {d : Dev} {p : Nat} (m : Dram)

theorem Dev.laserFault_waits (h : (d.prtOf p).lsr = true ∨ d.lsrLow p < d.lsrFilter p) : d.laserFault m p = d := by
  unfold Dev.lsrLow Dev.lsrFilter at h
  simp [Dev.laserFault, h]

variable (hl : (d.prtOf p).lsr = false) (hf : d.lsrFilter p ≤ d.lsrLow p)
include hl hf

theorem Dev.laserFault_shown (h : d.assigned p = false ∨ (d.prtOf p).lsrDone = true) :
    d.laserFault m p = d.put (F.BEAMn_PSTAT_LSR_OK p) 0 := by
  unfold Dev.lsrLow Dev.lsrFilter at hf
  simp [Dev.laserFault, hl, Nat.not_lt.mpr hf, h, b2n]

/-- The device on which the fault of port p's source, low since T-tick `onset`, has been declared. -/
def Dev.laserNoted (d : Dev) (p : Nat) (onset : Word) : Dev :=
  (((d.put (F.BEAMn_PSTAT_LSR_OK p) 0).updPrt p (fun x => { x with lsrDone := true })).put (F.BEAMn_PSTAT_LFAULT p) 1).raise 0x0314 (srcPort p) 4 p
    onset.toNat 0

/-- The T-tick of the first low sample (R166). -/
def Dev.lsrOnset (d : Dev) (p : Nat) : Word := d.tick - BitVec.ofNat 32 (d.lsrLow p / 1000)

theorem Dev.laserFault_declared (ha : d.assigned p = true) (hd : (d.prtOf p).lsrDone = false) :
    d.laserFault m p = (d.laserNoted p (d.lsrOnset p)).portFault m p 1 1 3 (d.lsrOnset p) := by
  have long : ¬ elapsed64 d.time (d.prtOf p).lsrSince < 1000 * max 1 (d.get (F.BEAMn_PCTRL_LSR_FILT p)) := Nat.not_lt.mpr hf
  simp [Dev.laserFault, Dev.laserNoted, Dev.lsrOnset, Dev.lsrLow, hl, long, ha, hd, b2n]

end

theorem Dev.laserNoted_keeps (d : Dev) (p : Nat) (onset : Word) : (d.laserNoted p onset).fabric = d.fabric ∧
    (d.laserNoted p onset).hnd = d.hnd ∧ (d.laserNoted p onset).eng = d.eng ∧
    ((d.laserNoted p onset).prtOf p).classes = (d.prtOf p).classes := by
  have prt : (d.laserNoted p onset).prtOf p = { d.prtOf p with lsrDone := true } := by
    rw [Dev.laserNoted, Dev.prtOf, Dev.raise_prt]
    exact tget_tput_self _ _ _ _
  exact ⟨by simp [Dev.fabric, Dev.laserNoted, Dev.updPrt], by simp [Dev.laserNoted, Dev.updPrt], by simp [Dev.laserNoted, Dev.updPrt],
    by rw [prt]⟩

theorem Dev.laserNoted_get (d : Dev) {p : Nat} (hp : p < 32) (onset : Word) :
    (d.laserNoted p onset).get (F.BEAMn_PSTAT_LFAULT p) = 1 ∧ (d.laserNoted p onset).get (F.BEAMn_PSTAT_LSR_OK p) = 0 ∧
    (d.laserNoted p onset).get (F.HND_Pn_STAT_STATE p) = d.get (F.HND_Pn_STAT_STATE p) := by
  have ofPorts := ofPorts_port hp
  have apart : (F.BEAMn_PSTAT_LFAULT p).key ≠ (F.BEAMn_PSTAT_LSR_OK p).key ∧ (F.BEAMn_PSTAT_LFAULT p).key ≠ (F.HND_Pn_STAT_STATE p).key ∧
      (F.BEAMn_PSTAT_LSR_OK p).key ≠ (F.HND_Pn_STAT_STATE p).key := by
    simp only [portKeys]
    omega
  obtain ⟨ok, state, ok'⟩ := apart
  refine ⟨?_, ?_, ?_⟩ <;> rw [Dev.laserNoted, Dev.get_raise _ _ _ _ _ _ _ _ (Fld.ofPorts_not_rec (by simp [ofPorts]))]
  · rw [Dev.get_put_self]
    rfl
  · rw [Dev.get_put_ne _ _ _ _ ok]
    exact Dev.get_put_self d _ 0
  · rw [Dev.get_put_ne _ _ _ _ state]
    exact Dev.get_put_ne d _ _ _ ok'

/-- A source fault of a port that is in service, with no path and no takeover. -/
theorem exec_laserSourceFault_declared {p : Port} {s : State} (ha : s.dev.assigned p.val = true) (hl : (s.dev.prtOf p.val).lsr = false)
    (hf : s.dev.lsrFilter p.val ≤ s.dev.lsrLow p.val) (hd : (s.dev.prtOf p.val).lsrDone = false) (hc : (s.dev.prtOf p.val).classes = [])
    (hs : s.dev.get (F.HND_Pn_STAT_STATE p.val) = 0) (hr : s.dev.runOf p.val = none) (ht : s.dev.hnd.tko = []) :
    ∃ t : State, exec (.laserSourceFault p) s = .next t ∧ t.dev.get (F.BEAMn_PSTAT_LFAULT p.val) = 1 ∧
      t.dev.get (F.BEAMn_PSTAT_LSR_OK p.val) = 0 ∧ t.dev.get (F.HND_Pn_STAT_STATE p.val) = 2 ∧
      t.dev.get (F.BEAMn_PSTAT_EMIT p.val) = 0 ∧ (t.dev.prtOf p.val).classes = [1] ∧ (t.dev.engOf p.val).queue = [] ∧
      t.mem = s.mem := by
  have declared := Dev.laserFault_declared (d := s.settled.dev) s.mem hl hf ha hd
  obtain ⟨lfault, lsrOk, state⟩ := s.settled.dev.laserNoted_get p.isLt (s.settled.dev.lsrOnset p.val)
  obtain ⟨fabric, hnd, eng, classes⟩ := s.settled.dev.laserNoted_keeps p.val (s.settled.dev.lsrOnset p.val)
  generalize s.settled.dev.laserNoted p.val (s.settled.dev.lsrOnset p.val) = n at *
  have run : n.runOf p.val = none := (congrArg (fun l => (tget eng0 l p.val).run) eng).trans hr
  have faulted := Dev.portFault_faultedAtRest p.isLt (state.trans hs) run ((congrArg Hnd.tko hnd).trans ht) s.mem 1 1 3
    (s.settled.dev.lsrOnset p.val)
  have ofPorts := ofPorts_port p.isLt
  have keys : ∀ G ∈ [F.BEAMn_PSTAT_LFAULT p.val, F.BEAMn_PSTAT_LSR_OK p.val],
      G.key ∉ [F.HND_Pn_STAT_STATE p.val, F.BEAMn_TSTAT_STATE p.val, F.BEAMn_PSTAT_EMIT p.val].map Fld.key := by
    simp only [List.map_cons, List.map_nil, List.mem_cons, List.not_mem_nil, or_false, forall_eq_or_imp, forall_eq, portKeys]
    omega
  refine ⟨_, exec_laserSourceFault declared ((congrArg Fabric.wq faulted.fabric).trans (congrArg Fabric.wq fabric)), ?_, ?_, faulted.state,
    faulted.dark, faulted.classes (classes.trans hc), faulted.queue, rfl⟩
  · exact (faulted.ports _ (by simp [ofPorts]) (keys _ (by simp))).trans lfault
  · exact (faulted.ports _ (by simp [ofPorts]) (keys _ (by simp))).trans lsrOk

/-- Settles O27: an edge sets the port's record and the register of its level; a source that stays low goes through the fault of a port at rest,
which keeps what the fault itself has set. -/
theorem laserSource : Obligations.LaserSource := by
  unfold Obligations.LaserSource
  intro p s
  refine ⟨fun level h => ?_, fun level h => exec_lsrOkChange_edge h, fun h => ?_, fun hl hf h => ?_, fun ha hl hf hd hc hs hr ht =>
    exec_laserSourceFault_declared ha hl hf hd hc hs hr ht⟩
  · rw [exec_lsrOkChange, State.onDev, Dev.lsrChange_same h]
  · exact exec_laserSourceFault (Dev.laserFault_waits (d := s.settled.dev) s.mem h) rfl
  · refine ⟨_, exec_laserSourceFault (Dev.laserFault_shown (d := s.settled.dev) s.mem hl hf h) rfl, Dev.get_put_self _ _ 0, rfl, ?_⟩
    exact regsKeep_put _ _ _ (by simp)

end Sys2Proof.Machine

/-! # Engine pairs (06_beam_ports.md R168 to R170)

Routing goes by the states of the pairs and by what has been routed in this T-tick, so it does on the failed port what it would have done on the
device before the failure, the failed pair left out. -/

namespace Sys2Proof.Machine

open Sys2Proof.Safety

/-! ## Routing a spare (R170) -/

/-- The lowest-numbered SPARE pair. -/
def Dev.firstSpare (d : Dev) : Option Nat := (upTo 36).find? (fun j => d.get (F.ENG_PAIRk_STATE j) == 2)

theorem Dev.firstSpare_some {d : Dev} {j : Nat} (h : d.firstSpare = some j) : j < 36 ∧ d.get (F.ENG_PAIRk_STATE j) = 2 :=
  ⟨List.mem_range.mp (List.mem_of_find?_eq_some h), by simpa using List.find?_some h⟩

theorem Dev.mem_routedNow {d : Dev} {x : Nat × Nat} : x ∈ d.routedNow ↔ d.hnd.routeTick = d.tick ∧ x.1 < 36 ∧
    d.get (F.ENG_PAIRk_STATE x.1) = 3 ∧ x.1 ∈ d.hnd.routed ∧ x.2 = d.get (F.ENG_PAIRk_PORT x.1) := by
  obtain ⟨k, p⟩ := x
  unfold Dev.routedNow
  by_cases now : d.hnd.routeTick = d.tick
  · simp only [now, beq_self_eq_true, if_true, true_and, List.mem_map, List.mem_filter, List.mem_range, Bool.and_eq_true, beq_iff_eq,
      List.contains_iff_mem, Prod.mk.injEq]
    constructor
    · rintro ⟨j, ⟨lt, state, routed⟩, rfl, rfl⟩
      exact ⟨lt, state, routed, rfl⟩
    · rintro ⟨lt, state, routed, rfl⟩
      exact ⟨k, ⟨lt, state, routed⟩, rfl, rfl⟩
  · simp [now]

/-- Pair k has failed, and for the String Fabric nothing else has changed. -/
structure Dev.PairLost (d e : Dev) (k : Nat) : Prop where
  fabric : e.fabric = d.fabric
  failed : e.get (F.ENG_PAIRk_STATE k) = 4
  others : ∀ j, j < 36 → j ≠ k → e.get (F.ENG_PAIRk_STATE j) = d.get (F.ENG_PAIRk_STATE j)

section
variable {d e : Dev} {k : Nat} (h : d.PairLost e k)
include h

/-- Where no other pair has been routed in this T-tick, none is left of those. -/
theorem Dev.PairLost.routedNow (hn : ∀ x ∈ d.routedNow, x.1 = k) : e.routedNow = [] := by
  have tick : e.tick = d.tick := congrArg Fabric.tick h.fabric
  have routed : e.hnd.routed = d.hnd.routed := congrArg Fabric.routed h.fabric
  have routeTick : e.hnd.routeTick = d.hnd.routeTick := congrArg Fabric.routeTick h.fabric
  refine List.eq_nil_iff_forall_not_mem.mpr (fun x hx => ?_)
  obtain ⟨now, lt, attaching, listed, -⟩ := Dev.mem_routedNow.mp hx
  have other : x.1 ≠ k := fun q => by
    rw [q, h.failed] at attaching
    exact absurd attaching (by decide)
  rw [tick, routeTick] at now
  rw [routed] at listed
  rw [h.others x.1 lt other] at attaching
  exact other (hn (x.1, d.get (F.ENG_PAIRk_PORT x.1)) (Dev.mem_routedNow.mpr ⟨now, lt, attaching, listed, rfl⟩))

/-- A pair that was no spare is not missed among the spares. -/
theorem Dev.PairLost.firstSpare (hk : d.get (F.ENG_PAIRk_STATE k) ≠ 2) : e.firstSpare = d.firstSpare := by
  refine List.find?_congr (fun j hj => ?_)
  by_cases hjk : j = k
  · subst hjk
    rw [h.failed, beq_eq_false_iff_ne.mpr hk]
    rfl
  · rw [h.others j (List.mem_range.mp hj) hjk]

end

/-- The device on which the attach check of pair j for port p has begun. -/
def Dev.attachTo (d : Dev) (j p : Nat) : Dev :=
  let a := (d.put (F.ENG_PAIRk_STATE j) 3).put (F.ENG_PAIRk_PORT j) p
  ({ a with hnd := { a.hnd with routed := [j], routeTick := d.tick } } : Dev).countSpares

/-- The device on which no spare was left for port p. -/
def Dev.noneLeft (d : Dev) (p : Nat) : Dev :=
  ({ d with hnd := { d.hnd with routed := [], routeTick := d.tick } } : Dev).countSpares.noSpare p

section
variable {d : Dev} {p : Nat} (hp : p < 32) (hn : d.routedNow = [])
include hp hn

/-- With nothing routed in this T-tick, port p alone asks for a spare, and the SPARE pairs alone are there for it. -/
theorem Dev.routeSpare_alone : d.routeSpare p =
    let pairs := (upTo 36).filter (fun k => d.get (F.ENG_PAIRk_STATE k) == 2)
    let d1 := (pairs.zip [p]).foldl (fun d (x : Nat × Nat) => (d.put (F.ENG_PAIRk_STATE x.1) 3).put (F.ENG_PAIRk_PORT x.1) x.2) d
    ([p].drop pairs.length).foldl (fun d q => d.noSpare q)
      ({ d1 with hnd := { d1.hnd with routed := pairs.take 1, routeTick := d.tick } } : Dev).countSpares := by
  have ports : (upTo 32).filter (· == p) = [p] := by
    rw [List.filter_beq, List.count_eq_one_of_mem List.nodup_range (List.mem_range.mpr hp)]
    rfl
  unfold Dev.routeSpare
  simp only [hn, List.any_nil, Bool.or_false, ports]
  rfl

theorem Dev.routeSpare_first {j : Nat} (hj : d.firstSpare = some j) : d.routeSpare p = d.attachTo j p := by
  obtain ⟨rest, spares⟩ := List.head?_eq_some_iff.mp (List.head?_filter.trans hj)
  rw [Dev.routeSpare_alone hp hn, spares]
  simp only [List.zip_cons_cons, List.zip_nil_right, List.foldl_cons, List.foldl_nil, List.length_cons, List.drop_succ_cons, List.drop_nil,
    List.take_succ_cons, List.take_zero]
  rfl

theorem Dev.routeSpare_none (hj : d.firstSpare = none) : d.routeSpare p = d.noneLeft p := by
  have spares := List.filter_eq_nil_iff.mpr (List.find?_eq_none.mp hj)
  rw [Dev.routeSpare_alone hp hn, spares]
  rfl

end

theorem Dev.attachTo_keeps (d : Dev) (j p : Nat) :
    regsKeep [F.ENG_PAIRk_STATE j, F.ENG_PAIRk_PORT j, F.ENG_SPARES_COUNT] d (d.attachTo j p) ∧ (d.attachTo j p).evr = d.evr ∧
    (d.attachTo j p).wq = d.wq := by
  have routed : regsKeep [F.ENG_PAIRk_STATE j, F.ENG_PAIRk_PORT j, F.ENG_SPARES_COUNT] d
      ((d.put (F.ENG_PAIRk_STATE j) 3).put (F.ENG_PAIRk_PORT j) p) :=
    regsKeep_setField (regsKeep_put _ _ _ (by simp)) _ (by simp)
  exact ⟨regsKeep_setField (regsKeep_trans routed (regsKeep_of_regs rfl)) _ (by simp), rfl, rfl⟩

theorem Dev.attachTo_shows (d : Dev) {j p : Nat} (hj : j < 36) (hp : p < 32) :
    (d.attachTo j p).get (F.ENG_PAIRk_STATE j) = 3 ∧ (d.attachTo j p).get (F.ENG_PAIRk_PORT j) = p := by
  have apart : F.ENG_SPARES_COUNT.key ≠ (F.ENG_PAIRk_STATE j).key ∧ F.ENG_SPARES_COUNT.key ≠ (F.ENG_PAIRk_PORT j).key ∧
      (F.ENG_PAIRk_PORT j).key ≠ (F.ENG_PAIRk_STATE j).key := by
    simp only [pairKeys, countKeys]
    omega
  obtain ⟨state, port, both⟩ := apart
  refine ⟨(Dev.get_put_ne _ _ _ _ state).trans ?_, (Dev.get_put_ne _ _ _ _ port).trans ?_⟩
  · exact (Dev.get_put_ne _ _ _ _ both).trans (Dev.get_put_self d _ 3)
  · exact (Dev.get_put_self _ _ p).trans (Nat.mod_eq_of_lt hp)

theorem Dev.retirePort_shows (d : Dev) (p : Nat) : (d.retirePort p).get (F.HND_Pn_STAT_STATE p) = 3 :=
  (Dev.get_put_self d (F.HND_Pn_STAT_STATE p) 3).trans rfl

/-- A port without a spare is RETIRED; of the registers of ports and pairs its own state and what it shows change, and the count of spares. -/
theorem Dev.noneLeft_shows (d : Dev) {p : Nat} (hp : p < 32) : (d.noneLeft p).get (F.HND_Pn_STAT_STATE p) = 3 ∧
    (d.noneLeft p).wq = d.wq ∧ ∀ G : Fld, G.ofPorts →
      G.key ∉ [F.ENG_SPARES_COUNT, F.HND_Pn_STAT_STATE p, F.BEAMn_TSTAT_STATE p, F.BEAMn_PSTAT_EMIT p].map Fld.key →
      (d.noneLeft p).get G = d.get G := by
  have counted : ∀ G : Fld, G.key ≠ F.ENG_SPARES_COUNT.key →
      ({ d with hnd := { d.hnd with routed := [], routeTick := d.tick } } : Dev).countSpares.get G = d.get G :=
    fun G hG => Dev.get_put_ne _ _ G _ hG.symm
  unfold Dev.noneLeft Dev.noSpare
  have wq : (({ d with hnd := { d.hnd with routed := [], routeTick := d.tick } } : Dev).countSpares).wq = d.wq := rfl
  generalize ({ d with hnd := { d.hnd with routed := [], routeTick := d.tick } } : Dev).countSpares = c at *
  extract_lets r
  have entry : c.BooksOnly r := by
    unfold r
    split
    · exact ((Dev.BooksOnly.refl c).put (by simp) _).ftRaise _ 4
    · exact .refl c
  clear_value r
  have ofPorts := ofPorts_port hp
  have retired : ∀ G : Fld, G.ofPorts → G.key ∉ [F.BEAMn_TSTAT_STATE p, F.BEAMn_PSTAT_EMIT p].map Fld.key →
      ((((r.retirePort p).updPrt p (fun x => { x with dead := true })).raise 0x0318 (srcPort p) 4 p 0 0).portBits p).get G =
        (r.retirePort p).get G :=
    fun G hG away => (Dev.portBits_regsKeep _ p G away).trans (Dev.get_raise _ _ _ _ _ _ _ G (Fld.ofPorts_not_rec hG))
  refine ⟨(retired _ (by simp [ofPorts]) ?_).trans (r.retirePort_shows p), ?_, fun G hG away => ?_⟩
  · simp only [List.map_cons, List.map_nil, List.mem_cons, List.not_mem_nil, or_false, portKeys]
    omega
  · have raised := Dev.raise_wq ((r.retirePort p).updPrt p (fun x => { x with dead := true })) 0x0318 (srcPort p) 4 p 0 0
    exact raised.trans ((congrArg Fabric.wq entry.fabric).trans wq)
  · simp only [List.map_cons, List.map_nil, List.mem_cons, List.not_mem_nil, not_or] at away
    obtain ⟨notCount, notState, notTraj, notEmit, -⟩ := away
    rw [retired G hG (by simp [notTraj, notEmit]), show (r.retirePort p).get G = r.get G from Dev.get_put_ne r _ G 3 (Ne.symm notState),
      entry.ports G hG, counted G notCount]

/-! ## A pair fails (R170) -/

/-- The device on which pair k is FAILED with a cause. -/
def Dev.pairBad (d : Dev) (k cause : Nat) : Dev := ((d.put (F.ENG_PAIRk_STATE k) 4).put (F.ENG_PAIRk_CAUSE k) cause).countSpares

theorem Dev.pairBad_keeps (d : Dev) (k cause : Nat) :
    regsKeep [F.ENG_PAIRk_STATE k, F.ENG_PAIRk_CAUSE k, F.ENG_SPARES_COUNT] d (d.pairBad k cause) :=
  regsKeep_setField (regsKeep_setField (regsKeep_put _ _ _ (by simp)) _ (by simp)) _ (by simp)

theorem Dev.pairBad_shows (d : Dev) {k cause : Nat} (hk : k < 36) (hc : cause < 16) :
    (d.pairBad k cause).get (F.ENG_PAIRk_STATE k) = 4 ∧ (d.pairBad k cause).get (F.ENG_PAIRk_CAUSE k) = cause := by
  have apart : F.ENG_SPARES_COUNT.key ≠ (F.ENG_PAIRk_STATE k).key ∧ F.ENG_SPARES_COUNT.key ≠ (F.ENG_PAIRk_CAUSE k).key ∧
      (F.ENG_PAIRk_CAUSE k).key ≠ (F.ENG_PAIRk_STATE k).key := by
    simp only [pairKeys, countKeys]
    omega
  obtain ⟨state, code, both⟩ := apart
  refine ⟨(Dev.get_put_ne _ _ _ _ state).trans ?_, (Dev.get_put_ne _ _ _ _ code).trans ?_⟩
  · exact (Dev.get_put_ne _ _ _ _ both).trans (Dev.get_put_self d _ 4)
  · exact (Dev.get_put_self _ _ cause).trans (Nat.mod_eq_of_lt hc)

theorem pairCodes_lt (cause : PairCause) : (pairCodes cause).1 < 16 := by
  cases cause <;> simp [pairCodes]

theorem exec_pairFailure {k : Pair} {cause : PairCause} {s : State} {d : Dev} (hd : s.settled.dev.pairFail s.mem k.val cause = d)
    (hw : d.wq = []) : exec (.pairFailure k cause) s = .next { s with dev := d } := by
  subst hd
  exact congrArg Host.Outcome.next (State.runDev_noWrites s (fun d m => d.pairFail m k.val cause) hw)

theorem Dev.pairFail_unused {d : Dev} {k : Nat} (h : d.get (F.ENG_PAIRk_STATE k) = 0 ∨ 4 ≤ d.get (F.ENG_PAIRk_STATE k)) (m : Dram)
    (cause : PairCause) : d.pairFail m k cause = d := by
  have h1 : d.get (F.ENG_PAIRk_STATE k) ≠ 1 := by omega
  have h2 : d.get (F.ENG_PAIRk_STATE k) ≠ 2 := by omega
  have h3 : d.get (F.ENG_PAIRk_STATE k) ≠ 3 := by omega
  simp [Dev.pairFail, h1, h2, h3]

theorem Dev.pairFail_spare {d : Dev} {k : Nat} (h : d.get (F.ENG_PAIRk_STATE k) = 2) (m : Dram) (cause : PairCause) :
    d.pairFail m k cause = (d.pairBad k (pairCodes cause).1).raise 0x0316 (0x60 + k) 4 k 0xFF (pairCodes cause).1 := by
  simp [Dev.pairFail, Dev.pairBad, h]

/-- What recording an event does to the recorder is the same after a pair has been marked FAILED. -/
theorem Dev.pairBad_raise_evr (d : Dev) {k : Nat} (hk : k < 36) (cause c a b x y z : Nat) :
    ((d.pairBad k cause).raise c a b x y z).evr = (d.raise c a b x y z).evr := by
  refine Dev.raise_evr_congr _ _ _ _ _ _ _ _ rfl rfl (d.pairBad_keeps k cause _ ?_)
  simp only [List.map_cons, List.map_nil, List.mem_cons, List.not_mem_nil, or_false, pairKeys, countKeys]
  omega

/-- A SPARE pair fails (R170). -/
theorem exec_pairFailure_spare {k : Pair} {s : State} (h : s.dev.get (F.ENG_PAIRk_STATE k.val) = 2) (cause : PairCause) :
    ∃ t : State, exec (.pairFailure k cause) s = .next t ∧ t.dev.get (F.ENG_PAIRk_STATE k.val) = 4 ∧
      t.dev.get (F.ENG_PAIRk_CAUSE k.val) = (pairCodes cause).1 ∧
      recorded s.dev t.dev 0x0316 (0x60 + k.val) 4 k.val 0xFF (pairCodes cause).1 ∧
      regsKeep (recFlds ++ [F.ENG_PAIRk_STATE k.val, F.ENG_PAIRk_CAUSE k.val, F.ENG_SPARES_COUNT]) s.dev t.dev ∧ t.mem = s.mem := by
  have ofPorts := ofPorts_pair k.isLt
  obtain ⟨state, code⟩ := s.settled.dev.pairBad_shows k.isLt (pairCodes_lt cause)
  have bad := regsKeep_mono (gs := recFlds ++ [F.ENG_PAIRk_STATE k.val, F.ENG_PAIRk_CAUSE k.val, F.ENG_SPARES_COUNT])
    (s.settled.dev.pairBad_keeps k.val (pairCodes cause).1) (fun _ h => List.mem_append_right _ h)
  refine ⟨_, exec_pairFailure (Dev.pairFail_spare (d := s.settled.dev) h s.mem cause) (Dev.raise_wq ..), ?_, ?_, ?_, ?_, rfl⟩
  · exact (Dev.get_raise _ _ _ _ _ _ _ _ (Fld.ofPorts_not_rec (by simp [ofPorts]))).trans state
  · exact (Dev.get_raise _ _ _ _ _ _ _ _ (Fld.ofPorts_not_rec (by simp [ofPorts]))).trans code
  · exact (s.settled.dev.pairBad_raise_evr k.isLt ..).trans (Dev.raise_evr_congr _ _ _ _ _ _ _ _ rfl rfl rfl)
  · exact regsKeep_trans bad (regsKeep_raise _ _ _ _ _ _ _ (fun _ h => List.mem_append_left _ h))

theorem Dev.blankPort_runOf {d : Dev} {p : Nat} (h : d.runOf p = none) : (d.blankPort p).runOf p = none := by
  show (tget eng0 (tput d.eng p _) p).run = none
  rw [tget_tput_self]
  exact congrArg (Option.map _) h

/-- Noting a numeric fault (R175) darkens the beam and counts; for the String Fabric nothing changes. -/
theorem Dev.nanNote_keeps {d : Dev} {p : Nat} (hr : d.runOf p = none) (k : Nat) (cause : PairCause) :
    (d.nanNote k p cause).fabric = d.fabric ∧ (d.nanNote k p cause).hnd = d.hnd ∧ (d.nanNote k p cause).runOf p = none ∧
    ∀ G : Fld, G.ofPorts → G.key ∉ [F.BEAMn_PSTAT_EMIT p, F.LOOP_NANS_COUNT].map Fld.key → (d.nanNote k p cause).get G = d.get G := by
  have quiet : d.fabric = d.fabric ∧ d.hnd = d.hnd ∧ d.runOf p = none ∧
      ∀ G : Fld, G.ofPorts → G.key ∉ [F.BEAMn_PSTAT_EMIT p, F.LOOP_NANS_COUNT].map Fld.key → d.get G = d.get G :=
    ⟨rfl, rfl, hr, fun _ _ _ => rfl⟩
  cases cause with
  | selfCheck => exact quiet
  | sram => exact quiet
  | slice => exact quiet
  | loopNan i =>
    unfold Dev.nanNote
    refine ⟨by simp [Dev.fabric, Dev.blankPort, Dev.emitBit, Dev.updRun, Dev.updEng, Dev.updPrt],
      by simp [Dev.blankPort, Dev.emitBit, Dev.updRun, Dev.updEng, Dev.updPrt], ?_, fun G hG away => ?_⟩
    · dsimp only
      rw [Dev.runOf, Dev.engOf, Dev.raise_eng]
      exact Dev.blankPort_runOf hr
    · simp only [List.map_cons, List.map_nil, List.mem_cons, List.not_mem_nil, or_false, not_or] at away
      obtain ⟨notEmit, notCount⟩ := away
      dsimp only
      rw [Dev.get_raise _ _ _ _ _ _ _ _ (Fld.ofPorts_not_rec hG), Dev.bump_eq, Dev.get_put_ne _ _ _ _ (Ne.symm notCount)]
      exact Dev.get_put_ne _ _ G _ (Ne.symm notEmit)

/-- The device on which port p has lost its ACTIVE pair k. -/
def Dev.detached (d : Dev) (k p : Nat) (cause : PairCause) : Dev :=
  ((((d.nanNote k p cause).pairBad k (pairCodes cause).1).put (F.BEAMn_PSTAT_ATTACHED p) 0).put (F.BEAMn_PAIR_PAIR p) 0x3F).raise
    0x0316 (0x60 + k) 4 k p (pairCodes cause).1

theorem Dev.pairFail_active {d : Dev} {k : Nat} (h : d.get (F.ENG_PAIRk_STATE k) = 1) (m : Dram) (cause : PairCause) :
    d.pairFail m k cause = (((d.detached k (d.get (F.ENG_PAIRk_PORT k)) cause).portFault m (d.get (F.ENG_PAIRk_PORT k)) 4 (pairCodes cause).2 3
      (d.nanNote k (d.get (F.ENG_PAIRk_PORT k)) cause).tick).updEng (d.get (F.ENG_PAIRk_PORT k)) (fun e => { e with pre := [] })).routeSpare
      (d.get (F.ENG_PAIRk_PORT k)) := by
  simp [Dev.pairFail, Dev.detached, Dev.pairBad, h, b2n]

/-- Of the registers of ports and pairs these may change where port p loses its pair k. -/
def detachFlds (k p : Nat) : List Fld :=
  [F.BEAMn_PSTAT_EMIT p, F.LOOP_NANS_COUNT, F.ENG_PAIRk_STATE k, F.ENG_PAIRk_CAUSE k, F.ENG_SPARES_COUNT, F.BEAMn_PSTAT_ATTACHED p,
   F.BEAMn_PAIR_PAIR p]

section
variable {d : Dev} {k p : Nat} (cause : PairCause)

theorem Dev.detached_keeps (hr : d.runOf p = none) : (d.detached k p cause).fabric = d.fabric ∧ (d.detached k p cause).hnd = d.hnd ∧
    (d.detached k p cause).runOf p = none ∧
    ∀ G : Fld, G.ofPorts → G.key ∉ (detachFlds k p).map Fld.key → (d.detached k p cause).get G = d.get G := by
  obtain ⟨fabric, hnd, run, ports⟩ := Dev.nanNote_keeps hr k cause
  unfold Dev.detached
  generalize d.nanNote k p cause = n at *
  have lost : regsKeep (detachFlds k p) n
      (((n.pairBad k (pairCodes cause).1).put (F.BEAMn_PSTAT_ATTACHED p) 0).put (F.BEAMn_PAIR_PAIR p) 0x3F) :=
    regsKeep_setField (regsKeep_setField (regsKeep_mono (n.pairBad_keeps k _) (by simp [detachFlds])) _ (by simp [detachFlds])) _
      (by simp [detachFlds])
  refine ⟨Eq.trans ?_ fabric, Eq.trans ?_ hnd, Eq.trans ?_ run, fun G hG away => ?_⟩
  · simp [Dev.fabric, Dev.pairBad, Dev.countSpares]
  · simp [Dev.pairBad, Dev.countSpares]
  · simp [Dev.runOf, Dev.engOf, Dev.pairBad, Dev.countSpares]
  · rw [Dev.get_raise _ _ _ _ _ _ _ _ (Fld.ofPorts_not_rec hG), lost G away, ports G hG (fun q => away ?_)]
    simp only [detachFlds, List.map_cons, List.map_nil, List.mem_cons, List.not_mem_nil, or_false] at q ⊢
    tauto

theorem Dev.detached_shows (hk : k < 36) (hp : p < 32) : (d.detached k p cause).get (F.ENG_PAIRk_STATE k) = 4 ∧
    (d.detached k p cause).get (F.ENG_PAIRk_CAUSE k) = (pairCodes cause).1 ∧ (d.detached k p cause).get (F.BEAMn_PSTAT_ATTACHED p) = 0 := by
  have pair := ofPorts_pair hk
  have port := ofPorts_port hp
  obtain ⟨state, code⟩ := (d.nanNote k p cause).pairBad_shows hk (pairCodes_lt cause)
  have apart : (F.BEAMn_PAIR_PAIR p).key ≠ (F.BEAMn_PSTAT_ATTACHED p).key ∧ ∀ G ∈ [F.ENG_PAIRk_STATE k, F.ENG_PAIRk_CAUSE k],
      (F.BEAMn_PAIR_PAIR p).key ≠ G.key ∧ (F.BEAMn_PSTAT_ATTACHED p).key ≠ G.key := by
    simp only [List.mem_cons, List.not_mem_nil, or_false, forall_eq_or_imp, forall_eq, portKeys, pairKeys]
    omega
  obtain ⟨both, pairs⟩ := apart
  have kept : ∀ G ∈ [F.ENG_PAIRk_STATE k, F.ENG_PAIRk_CAUSE k], G.ofPorts →
      (d.detached k p cause).get G = ((d.nanNote k p cause).pairBad k (pairCodes cause).1).get G := fun G hG hO => by
    obtain ⟨notPair, notAttached⟩ := pairs G hG
    rw [Dev.detached, Dev.get_raise _ _ _ _ _ _ _ _ (Fld.ofPorts_not_rec hO), Dev.get_put_ne _ _ _ _ notPair,
      Dev.get_put_ne _ _ _ _ notAttached]
  refine ⟨(kept _ (by simp) (by simp [pair])).trans state, (kept _ (by simp) (by simp [pair])).trans code, ?_⟩
  rw [Dev.detached, Dev.get_raise _ _ _ _ _ _ _ _ (Fld.ofPorts_not_rec (by simp [port])), Dev.get_put_ne _ _ _ _ both, Dev.get_put_self]
  rfl

end

/-- What the failure of its ACTIVE pair leaves of port p before a spare is routed: FAILED with its cause, the port detached and out of service. -/
theorem Dev.portFault_detached {d : Dev} {k p : Nat} (hk : k < 36) (hp : p < 32) (hs : d.get (F.HND_Pn_STAT_STATE p) = 0)
    (hr : d.runOf p = none) (ht : d.hnd.tko = []) (m : Dram) (cause : PairCause) (onset : Word) :
    let e := ((d.detached k p cause).portFault m p 4 (pairCodes cause).2 3 onset).updEng p (fun x => { x with pre := [] })
    d.PairLost e k ∧ e.get (F.ENG_PAIRk_CAUSE k) = (pairCodes cause).1 ∧ e.get (F.BEAMn_PSTAT_ATTACHED p) = 0 ∧
      e.get (F.HND_Pn_STAT_STATE p) = 2 := by
  obtain ⟨fabric, hnd, run, ports⟩ := Dev.detached_keeps (k := k) cause hr
  obtain ⟨state, code, attached⟩ := Dev.detached_shows (d := d) cause hk hp
  have port := ofPorts_port hp
  have own := ofPorts_pair hk
  have service : (d.detached k p cause).get (F.HND_Pn_STAT_STATE p) = 0 := by
    refine (ports _ (by simp [port]) ?_).trans hs
    simp only [detachFlds, List.map_cons, List.map_nil, List.mem_cons, List.not_mem_nil, or_false, portKeys, pairKeys, countKeys]
    omega
  have faulted := Dev.portFault_faultedAtRest hp service run ((congrArg Hnd.tko hnd).trans ht) m 4 (pairCodes cause).2 3 onset
  generalize (d.detached k p cause).portFault m p 4 (pairCodes cause).2 3 onset = x at faulted ⊢
  intro e
  have kept : ∀ G : Fld, G.ofPorts → G.key ∉ [F.HND_Pn_STAT_STATE p, F.BEAMn_TSTAT_STATE p, F.BEAMn_PSTAT_EMIT p].map Fld.key →
      e.get G = (d.detached k p cause).get G := faulted.ports
  have pairs : ∀ j, j < 36 → (F.ENG_PAIRk_STATE j).key ∉
      [F.HND_Pn_STAT_STATE p, F.BEAMn_TSTAT_STATE p, F.BEAMn_PSTAT_EMIT p].map Fld.key := fun j hj => by
    simp only [List.map_cons, List.map_nil, List.mem_cons, List.not_mem_nil, or_false, portKeys, pairKeys]
    omega
  refine ⟨⟨faulted.fabric.trans fabric, (kept _ (by simp [own]) (pairs k hk)).trans state, fun j hj other => ?_⟩,
    (kept _ (by simp [own]) ?_).trans code, (kept _ (by simp [port]) ?_).trans attached, faulted.state⟩
  · rw [kept _ (by simp [ofPorts_pair hj]) (pairs j hj), ports _ (by simp [ofPorts_pair hj])]
    simp only [detachFlds, List.map_cons, List.map_nil, List.mem_cons, List.not_mem_nil, or_false, portKeys, pairKeys, countKeys]
    omega
  · simp only [List.map_cons, List.map_nil, List.mem_cons, List.not_mem_nil, or_false, portKeys, pairKeys]
    omega
  · simp only [List.map_cons, List.map_nil, List.mem_cons, List.not_mem_nil, or_false, portKeys]
    omega

/-- An ACTIVE pair of a port in service fails, with no path on the port, no takeover and nothing routed in this T-tick (R170). -/
theorem exec_pairFailure_active {k : Pair} {s : State} {p : Nat} (h : s.dev.get (F.ENG_PAIRk_STATE k.val) = 1)
    (hpk : s.dev.get (F.ENG_PAIRk_PORT k.val) = p) (hp : p < 32) (hs : s.dev.get (F.HND_Pn_STAT_STATE p) = 0)
    (hr : s.dev.runOf p = none) (ht : s.dev.hnd.tko = []) (hn : s.dev.routedNow = []) (cause : PairCause) :
    ∃ t : State, exec (.pairFailure k cause) s = .next t ∧ t.dev.get (F.ENG_PAIRk_STATE k.val) = 4 ∧
      t.dev.get (F.ENG_PAIRk_CAUSE k.val) = (pairCodes cause).1 ∧ t.dev.get (F.BEAMn_PSTAT_ATTACHED p) = 0 ∧
      (∀ j : Nat, s.dev.firstSpare = some j →
        t.dev.get (F.ENG_PAIRk_STATE j) = 3 ∧ t.dev.get (F.ENG_PAIRk_PORT j) = p ∧ t.dev.get (F.HND_Pn_STAT_STATE p) = 2) ∧
      (s.dev.firstSpare = none → t.dev.get (F.HND_Pn_STAT_STATE p) = 3) ∧ t.mem = s.mem := by
  have fails := Dev.pairFail_active (d := s.settled.dev) h s.mem cause
  rw [show s.settled.dev.get (F.ENG_PAIRk_PORT k.val) = p from hpk] at fails
  obtain ⟨lost, code, attached, out⟩ := Dev.portFault_detached (d := s.settled.dev) k.isLt hp hs hr ht s.mem cause
    (s.settled.dev.nanNote k.val p cause).tick
  generalize ((s.settled.dev.detached k.val p cause).portFault s.mem p 4 (pairCodes cause).2 3
    (s.settled.dev.nanNote k.val p cause).tick).updEng p (fun x => { x with pre := [] }) = e at *
  have none : e.routedNow = [] := lost.routedNow (by rw [show s.settled.dev.routedNow = [] from hn]; simp)
  have spares : e.firstSpare = s.dev.firstSpare := lost.firstSpare (by rw [show s.settled.dev.get _ = 1 from h]; decide)
  have settled : e.wq = [] := congrArg Fabric.wq lost.fabric
  have own := ofPorts_pair k.isLt
  have port := ofPorts_port hp
  cases hj : s.dev.firstSpare with
  | some j =>
    obtain ⟨j36, state⟩ := Dev.firstSpare_some hj
    have other : j ≠ k.val := fun q => by
      rw [q, h] at state
      exact absurd state (by decide)
    rw [Dev.routeSpare_first hp none (spares.trans hj)] at fails
    obtain ⟨keeps, -, wq⟩ := e.attachTo_keeps j p
    obtain ⟨trying, drives⟩ := e.attachTo_shows j36 hp
    have away : ∀ G ∈ [F.ENG_PAIRk_STATE k.val, F.ENG_PAIRk_CAUSE k.val, F.BEAMn_PSTAT_ATTACHED p, F.HND_Pn_STAT_STATE p],
        G.key ∉ [F.ENG_PAIRk_STATE j, F.ENG_PAIRk_PORT j, F.ENG_SPARES_COUNT].map Fld.key := by
      simp only [List.map_cons, List.map_nil, List.mem_cons, List.not_mem_nil, or_false, forall_eq_or_imp, forall_eq, portKeys, pairKeys,
        countKeys]
      omega
    refine ⟨_, exec_pairFailure fails (wq.trans settled), (keeps _ (away _ (by simp))).trans lost.failed,
      (keeps _ (away _ (by simp))).trans code, (keeps _ (away _ (by simp))).trans attached, fun i hi => ?_, by simp, rfl⟩
    obtain rfl := Option.some.inj hi
    exact ⟨trying, drives, (keeps _ (away _ (by simp))).trans out⟩
  | none =>
    rw [Dev.routeSpare_none hp none (spares.trans hj)] at fails
    obtain ⟨retired, wq, keeps⟩ := e.noneLeft_shows hp
    have away : ∀ G ∈ [F.ENG_PAIRk_STATE k.val, F.ENG_PAIRk_CAUSE k.val, F.BEAMn_PSTAT_ATTACHED p],
        G.key ∉ [F.ENG_SPARES_COUNT, F.HND_Pn_STAT_STATE p, F.BEAMn_TSTAT_STATE p, F.BEAMn_PSTAT_EMIT p].map Fld.key := by
      simp only [List.map_cons, List.map_nil, List.mem_cons, List.not_mem_nil, or_false, forall_eq_or_imp, forall_eq, portKeys, pairKeys,
        countKeys]
      omega
    exact ⟨_, exec_pairFailure fails (wq.trans settled), (keeps _ (by simp [own]) (away _ (by simp))).trans lost.failed,
      (keeps _ (by simp [own]) (away _ (by simp))).trans code, (keeps _ (by simp [port]) (away _ (by simp))).trans attached, by simp,
      fun _ => retired, rfl⟩

/-! ## An attach check ends (R170) -/

theorem exec_attachCheckDone (k : Pair) (ok : Bool) (s : State) :
    exec (.attachCheckDone k ok) s = .next (s.onDev (fun d => d.attachDone k.val ok)) := rfl

theorem Dev.attachDone_idle {d : Dev} {k : Nat} (h : d.get (F.ENG_PAIRk_STATE k) ≠ 3) (ok : Bool) : d.attachDone k ok = d := by
  simp [Dev.attachDone, h]

/-- The device on which pair k, its check passed, is shown ACTIVE on port p. -/
def Dev.engaged (d : Dev) (k p : Nat) : Dev :=
  (((d.put (F.ENG_PAIRk_STATE k) 1).put (F.BEAMn_PAIR_PAIR p) k).put (F.BEAMn_PSTAT_ATTACHED p) 1).bump F.ENG_ATTACHES_COUNT

/-- The registers that show a pair ACTIVE on its port. -/
def engageFlds (k p : Nat) : List Fld := [F.ENG_PAIRk_STATE k, F.BEAMn_PAIR_PAIR p, F.BEAMn_PSTAT_ATTACHED p, F.ENG_ATTACHES_COUNT]

theorem engageFlds_ofPorts {k p : Nat} (hk : k < 36) (hp : p < 32) : ∀ G ∈ engageFlds k p, G.ofPorts := by
  have count : F.ENG_ATTACHES_COUNT.ofPorts := by
    unfold Fld.ofPorts
    decide
  simp [engageFlds, ofPorts_pair hk, ofPorts_port hp, count]

theorem Dev.engaged_keeps (d : Dev) (k p : Nat) : regsKeep (engageFlds k p) d (d.engaged k p) :=
  regsKeep_setField (regsKeep_setField (regsKeep_setField (regsKeep_put _ _ _ (by simp [engageFlds])) _ (by simp [engageFlds])) _
    (by simp [engageFlds])) _ (by simp [engageFlds])

theorem Dev.engaged_shows (d : Dev) {k p : Nat} (hk : k < 36) : (d.engaged k p).get (F.ENG_PAIRk_STATE k) = 1 ∧
    (d.engaged k p).get (F.BEAMn_PAIR_PAIR p) = k ∧ (d.engaged k p).get (F.BEAMn_PSTAT_ATTACHED p) = 1 ∧
    (d.engaged k p).get F.ENG_ATTACHES_COUNT = min (d.get F.ENG_ATTACHES_COUNT + 1) 0xFFFFFFFF := by
  have apart : (F.ENG_PAIRk_STATE k).key ≠ (F.BEAMn_PAIR_PAIR p).key ∧ (F.ENG_PAIRk_STATE k).key ≠ (F.BEAMn_PSTAT_ATTACHED p).key ∧
      (F.ENG_PAIRk_STATE k).key ≠ F.ENG_ATTACHES_COUNT.key ∧ (F.BEAMn_PAIR_PAIR p).key ≠ (F.BEAMn_PSTAT_ATTACHED p).key ∧
      (F.BEAMn_PAIR_PAIR p).key ≠ F.ENG_ATTACHES_COUNT.key ∧ (F.BEAMn_PSTAT_ATTACHED p).key ≠ F.ENG_ATTACHES_COUNT.key := by
    simp only [portKeys, pairKeys, countKeys]
    omega
  obtain ⟨statePair, stateAttached, stateCount, pairAttached, pairCount, attachedCount⟩ := apart
  unfold Dev.engaged
  rw [Dev.bump_eq]
  refine ⟨?_, ?_, ?_, ?_⟩
  · rw [Dev.get_put_ne _ _ _ _ stateCount.symm, Dev.get_put_ne _ _ _ _ stateAttached.symm, Dev.get_put_ne _ _ _ _ statePair.symm,
      Dev.get_put_self]
    rfl
  · rw [Dev.get_put_ne _ _ _ _ pairCount.symm, Dev.get_put_ne _ _ _ _ pairAttached.symm, Dev.get_put_self]
    exact Nat.mod_eq_of_lt (hk.trans (show 36 < 2 ^ 6 by decide))
  · rw [Dev.get_put_ne _ _ _ _ attachedCount.symm, Dev.get_put_self]
    rfl
  · rw [Dev.get_put_self, Dev.get_put_ne _ _ _ _ attachedCount, Dev.get_put_ne _ _ _ _ pairCount, Dev.get_put_ne _ _ _ _ stateCount]
    exact Nat.mod_eq_of_lt ((Nat.min_le_right _ _).trans_lt (by decide))

/-- What recording an event does to the recorder is the same after a pair has been shown ACTIVE. -/
theorem Dev.engaged_raise_evr (d : Dev) {k p : Nat} (hk : k < 36) (c a b x y z : Nat) :
    ((d.engaged k p).raise c a b x y z).evr = (d.raise c a b x y z).evr := by
  refine Dev.raise_evr_congr _ _ _ _ _ _ _ _ rfl rfl (d.engaged_keeps k p _ ?_)
  simp only [engageFlds, List.map_cons, List.map_nil, List.mem_cons, List.not_mem_nil, or_false, portKeys, pairKeys, countKeys]
  omega

/-- The device on which pair k, its check passed, has become ACTIVE on port p: its loop starts, and its failure no longer keeps the port out. -/
def Dev.activated (d : Dev) (k p : Nat) : Dev :=
  (((d.engaged k p).raise 0x0317 (0x60 + k) 1 k p 0).updLoop p LoopEng.start).updPrt p
    (fun x => { x with classes := x.classes.filter (· != 4) })

theorem Dev.activated_regs (d : Dev) (k p : Nat) :
    (d.activated k p).regs = ((d.engaged k p).raise 0x0317 (0x60 + k) 1 k p 0).regs := rfl

theorem Dev.activated_evr (d : Dev) (k p : Nat) : (d.activated k p).evr = ((d.engaged k p).raise 0x0317 (0x60 + k) 1 k p 0).evr := rfl

theorem Dev.activated_keeps (d : Dev) (k p : Nat) : regsKeep (recFlds ++ engageFlds k p) d (d.activated k p) :=
  regsKeep_trans (regsKeep_trans (regsKeep_mono (d.engaged_keeps k p) (fun _ h => List.mem_append_right _ h))
    (regsKeep_raise _ _ _ _ _ _ _ (fun _ h => List.mem_append_left _ h))) (regsKeep_of_regs (d.activated_regs k p))

/-- The record of a passed attach check leaves what shows the pair ACTIVE. -/
theorem Dev.activated_get (d : Dev) {k p : Nat} (hk : k < 36) (hp : p < 32) {G : Fld} (h : G ∈ engageFlds k p) :
    (d.activated k p).get G = (d.engaged k p).get G :=
  (Dev.get_congr G (d.activated_regs k p)).trans (Dev.get_raise _ _ _ _ _ _ _ G (Fld.ofPorts_not_rec (engageFlds_ofPorts hk hp G h)))

theorem recorded_portBits {d e : Dev} {c a b x y z : Nat} (h : recorded d e c a b x y z) (p : Nat) :
    recorded d (e.portBits p) c a b x y z := h

theorem Dev.attachDone_passed {d : Dev} {k p : Nat} (h : d.get (F.ENG_PAIRk_STATE k) = 3) (hpk : d.get (F.ENG_PAIRk_PORT k) = p)
    (hs : (d.activated k p).get (F.HND_Pn_STAT_STATE p) ≠ 2) : d.attachDone k true = (d.activated k p).portBits p := by
  have stays : (if (d.activated k p).get (F.HND_Pn_STAT_STATE p) == 2 && ((d.activated k p).prtOf p).classes.isEmpty &&
      !((d.activated k p).prtOf p).corrHold then (d.activated k p).portReturn p else (d.activated k p).portBits p) =
      (d.activated k p).portBits p := if_neg (by simp [hs])
  rw [← stays]
  simp only [Dev.attachDone, h, hpk, bne_self_eq_false, Bool.false_eq_true, if_false, if_true]
  rfl

/-- An attach check passes on a port that is not OUT (R170). -/
theorem exec_attachCheckDone_passed {k : Pair} {s : State} {p : Nat} (h : s.dev.get (F.ENG_PAIRk_STATE k.val) = 3)
    (hpk : s.dev.get (F.ENG_PAIRk_PORT k.val) = p) (hp : p < 32) (hs : s.dev.get (F.HND_Pn_STAT_STATE p) ≠ 2) :
    ∃ t : State, exec (.attachCheckDone k true) s = .next t ∧ t.dev.get (F.ENG_PAIRk_STATE k.val) = 1 ∧
      t.dev.get (F.BEAMn_PAIR_PAIR p) = k.val ∧ t.dev.get (F.BEAMn_PSTAT_ATTACHED p) = 1 ∧
      t.dev.get F.ENG_ATTACHES_COUNT = min (s.dev.get F.ENG_ATTACHES_COUNT + 1) 0xFFFFFFFF ∧
      recorded s.dev t.dev 0x0317 (0x60 + k.val) 1 k.val p 0 ∧ t.mem = s.mem ∧
      regsKeep (recFlds ++ [F.ENG_PAIRk_STATE k.val, F.BEAMn_PAIR_PAIR p, F.BEAMn_PSTAT_ATTACHED p, F.ENG_ATTACHES_COUNT,
        F.BEAMn_TSTAT_STATE p, F.BEAMn_PSTAT_EMIT p]) s.dev t.dev := by
  obtain ⟨state, pair, attached, count⟩ := s.dev.engaged_shows (p := p) k.isLt
  have keeps := s.dev.activated_keeps k.val p
  have gets := fun G => s.dev.activated_get k.isLt hp (G := G)
  have event : recorded s.dev (s.dev.activated k.val p) 0x0317 (0x60 + k.val) 1 k.val p 0 :=
    (s.dev.activated_evr k.val p).trans (s.dev.engaged_raise_evr k.isLt ..)
  have place : (F.HND_Pn_STAT_STATE p).key ∉ (recFlds ++ engageFlds k.val p).map Fld.key := by
    rw [List.map_append, List.mem_append, not_or]
    refine ⟨Fld.ofPorts_not_rec (by simp [ofPorts_port hp]), ?_⟩
    simp only [engageFlds, List.map_cons, List.map_nil, List.mem_cons, List.not_mem_nil, or_false, portKeys, pairKeys, countKeys]
    omega
  have passed := Dev.attachDone_passed h hpk (by rwa [keeps _ place])
  generalize s.dev.activated k.val p = e at *
  have bits := e.portBits_regsKeep p
  have away : ∀ G ∈ engageFlds k.val p, G.key ∉ [F.BEAMn_TSTAT_STATE p, F.BEAMn_PSTAT_EMIT p].map Fld.key := by
    simp only [engageFlds, List.map_cons, List.map_nil, List.mem_cons, List.not_mem_nil, or_false, forall_eq_or_imp, forall_eq, portKeys,
      pairKeys, countKeys]
    omega
  have shows : ∀ G ∈ engageFlds k.val p, (e.portBits p).get G = (s.dev.engaged k.val p).get G :=
    fun G hG => (bits G (away G hG)).trans (gets G hG)
  refine ⟨_, exec_attachCheckDone k true s, ?_⟩
  rw [State.onDev_dev, passed]
  refine ⟨(shows _ (by simp [engageFlds])).trans state, (shows _ (by simp [engageFlds])).trans pair,
    (shows _ (by simp [engageFlds])).trans attached, (shows _ (by simp [engageFlds])).trans count, recorded_portBits event p, rfl,
    regsKeep_trans (regsKeep_mono keeps ?_) (regsKeep_mono bits (by simp))⟩
  intro G hG
  simp only [engageFlds, List.mem_append, List.mem_cons, List.not_mem_nil, or_false] at hG ⊢
  tauto

/-- The device on which the attach check of pair k for port p has failed: the pair is FAILED with cause 4. -/
def Dev.checkFailed (d : Dev) (k p : Nat) : Dev :=
  ((d.put (F.ENG_PAIRk_STATE k) 4).put (F.ENG_PAIRk_CAUSE k) 4).raise 0x0316 (0x60 + k) 4 k p 4

theorem Dev.checkFailed_keeps (d : Dev) (k p : Nat) :
    regsKeep (recFlds ++ [F.ENG_PAIRk_STATE k, F.ENG_PAIRk_CAUSE k]) d (d.checkFailed k p) :=
  regsKeep_trans (regsKeep_setField (regsKeep_put _ _ _ (by simp)) _ (by simp))
    (regsKeep_raise _ _ _ _ _ _ _ (fun _ h => List.mem_append_left _ h))

theorem Dev.attachDone_failed {d : Dev} {k p : Nat} (h : d.get (F.ENG_PAIRk_STATE k) = 3) (hpk : d.get (F.ENG_PAIRk_PORT k) = p)
    (he : (d.checkFailed k p).entryOf p = none) : d.attachDone k false = (d.checkFailed k p).routeSpare p := by
  unfold Dev.checkFailed at he ⊢
  simp [Dev.attachDone, h, hpk, he]

section
variable (d : Dev) {k p : Nat}

theorem Dev.checkFailed_lost (hk : k < 36) : d.PairLost (d.checkFailed k p) k ∧ (d.checkFailed k p).get (F.ENG_PAIRk_CAUSE k) = 4 ∧
    recorded d (d.checkFailed k p) 0x0316 (0x60 + k) 4 k p 4 := by
  have own := ofPorts_pair hk
  have apart : (F.ENG_PAIRk_CAUSE k).key ≠ (F.ENG_PAIRk_STATE k).key ∧ (F.ENG_PAIRk_STATE k).key ≠ F.EVR_STAT_LASTGASP.key ∧
      (F.ENG_PAIRk_CAUSE k).key ≠ F.EVR_STAT_LASTGASP.key := by
    simp only [pairKeys, countKeys]
    omega
  obtain ⟨both, stateGasp, causeGasp⟩ := apart
  have raised : ∀ G : Fld, G.ofPorts →
      (d.checkFailed k p).get G = ((d.put (F.ENG_PAIRk_STATE k) 4).put (F.ENG_PAIRk_CAUSE k) 4).get G :=
    fun G hG => Dev.get_raise _ _ _ _ _ _ _ G (Fld.ofPorts_not_rec hG)
  refine ⟨⟨by simp [Dev.fabric, Dev.checkFailed], (raised _ (by simp [own])).trans ?_,
    fun j hj other => (raised _ (by simp [ofPorts_pair hj])).trans ?_⟩,
    (raised _ (by simp [own])).trans (Dev.get_put_self _ _ 4), ?_⟩
  · rw [Dev.get_put_ne _ _ _ _ both]
    exact Dev.get_put_self d _ 4
  · have elsewhere : (F.ENG_PAIRk_CAUSE k).key ≠ (F.ENG_PAIRk_STATE j).key ∧ (F.ENG_PAIRk_STATE k).key ≠ (F.ENG_PAIRk_STATE j).key := by
      simp only [pairKeys]
      omega
    rw [Dev.get_put_ne _ _ _ _ elsewhere.1, Dev.get_put_ne _ _ _ _ elsewhere.2]
  · exact (Dev.put_raise_evr _ _ _ _ _ _ _ _ _ causeGasp).trans (Dev.put_raise_evr _ _ _ _ _ _ _ _ _ stateGasp)

/-- A failed attach check keeps the fault entry of its port. -/
theorem Dev.checkFailed_entryOf : (d.checkFailed k p).entryOf p = d.entryOf p := by
  have place : ∀ G ∈ [F.HND_Pn_STAT_ENTRY_V p, F.HND_Pn_STAT_ENTRY p],
      G.key ∉ (recFlds ++ [F.ENG_PAIRk_STATE k, F.ENG_PAIRk_CAUSE k]).map Fld.key := by
    have low : ∀ q ∈ recFlds.map Fld.key, q % 32 < 8 := by decide
    intro G hG q
    have bit : G.key % 32 = 14 ∨ G.key % 32 = 8 := by
      simp only [List.mem_cons, List.not_mem_nil, or_false] at hG
      rcases hG with rfl | rfl <;> simp only [Fld.key, F.HND_Pn_STAT_ENTRY_V, F.HND_Pn_STAT_ENTRY] <;> omega
    rw [List.map_append, List.mem_append] at q
    rcases q with q | q
    · have := low _ q
      omega
    · simp only [List.map_cons, List.map_nil, List.mem_cons, List.not_mem_nil, or_false, pairKeys] at q
      omega
  have valid := d.checkFailed_keeps k p _ (place (F.HND_Pn_STAT_ENTRY_V p) (by simp))
  have entry := d.checkFailed_keeps k p _ (place (F.HND_Pn_STAT_ENTRY p) (by simp))
  rw [Dev.entryOf, Dev.entryOf, Dev.flag_eq, Dev.flag_eq, valid, entry]

end

/-- An attach check fails on a port without a fault entry, with nothing else routed in this T-tick: the next SPARE pair is tried (R170). -/
theorem exec_attachCheckDone_failed {k : Pair} {s : State} {p j : Nat} (h : s.dev.get (F.ENG_PAIRk_STATE k.val) = 3)
    (hpk : s.dev.get (F.ENG_PAIRk_PORT k.val) = p) (hp : p < 32) (he : s.dev.entryOf p = none) (hn : ∀ x ∈ s.dev.routedNow, x.1 = k.val)
    (hj : s.dev.firstSpare = some j) :
    ∃ t : State, exec (.attachCheckDone k false) s = .next t ∧ t.dev.get (F.ENG_PAIRk_STATE k.val) = 4 ∧
      t.dev.get (F.ENG_PAIRk_CAUSE k.val) = 4 ∧ t.dev.get (F.ENG_PAIRk_STATE j) = 3 ∧ t.dev.get (F.ENG_PAIRk_PORT j) = p ∧
      recorded s.dev t.dev 0x0316 (0x60 + k.val) 4 k.val p 4 ∧ t.mem = s.mem ∧
      regsKeep (recFlds ++ [F.ENG_PAIRk_STATE k.val, F.ENG_PAIRk_CAUSE k.val, F.ENG_PAIRk_STATE j, F.ENG_PAIRk_PORT j,
        F.ENG_SPARES_COUNT]) s.dev t.dev := by
  obtain ⟨j36, state⟩ := Dev.firstSpare_some hj
  have other : j ≠ k.val := fun q => by
    rw [q, h] at state
    exact absurd state (by decide)
  obtain ⟨lost, code, event⟩ := s.dev.checkFailed_lost (p := p) k.isLt
  have failed := Dev.attachDone_failed h hpk (s.dev.checkFailed_entryOf.trans he)
  rw [Dev.routeSpare_first hp (lost.routedNow hn) ((lost.firstSpare (by rw [h]; decide)).trans hj)] at failed
  obtain ⟨keeps, evr, -⟩ := (s.dev.checkFailed k.val p).attachTo_keeps j p
  obtain ⟨trying, drives⟩ := (s.dev.checkFailed k.val p).attachTo_shows j36 hp
  have away : ∀ G ∈ [F.ENG_PAIRk_STATE k.val, F.ENG_PAIRk_CAUSE k.val],
      G.key ∉ [F.ENG_PAIRk_STATE j, F.ENG_PAIRk_PORT j, F.ENG_SPARES_COUNT].map Fld.key := by
    simp only [List.map_cons, List.map_nil, List.mem_cons, List.not_mem_nil, or_false, forall_eq_or_imp, forall_eq, pairKeys, countKeys]
    omega
  refine ⟨_, exec_attachCheckDone k false s, ?_⟩
  rw [State.onDev_dev, failed]
  refine ⟨(keeps _ (away _ (by simp))).trans lost.failed, (keeps _ (away _ (by simp))).trans code, trying, drives, evr.trans event, rfl,
    regsKeep_trans (regsKeep_mono (s.dev.checkFailed_keeps k.val p) ?_) (regsKeep_mono keeps ?_)⟩
  · intro G hG
    simp only [List.mem_append, List.mem_cons, List.not_mem_nil, or_false] at hG ⊢
    tauto
  · intro G hG
    simp only [List.mem_append, List.mem_cons, List.not_mem_nil, or_false] at hG ⊢
    tauto

/-- Settles O28: the failed pair is left out of what is routed, and the lowest SPARE pair, if there is one, is tried on the port. -/
theorem pairsFailAndAttach : Obligations.PairsFailAndAttach := by
  unfold Obligations.PairsFailAndAttach
  refine ⟨fun k cause s => ⟨fun h => ?_, fun h => exec_pairFailure_spare h cause, fun h hp hs hr ht hn =>
    exec_pairFailure_active h rfl hp hs hr ht hn cause⟩, fun k s => ⟨fun ok h => ?_, fun h hp hs => exec_attachCheckDone_passed h rfl hp hs,
    fun j h hp he hn hj => exec_attachCheckDone_failed h rfl hp he hn hj⟩⟩
  · exact exec_pairFailure (Dev.pairFail_unused (d := s.settled.dev) h s.mem cause) rfl
  · rw [exec_attachCheckDone, State.onDev, Dev.attachDone_idle h]

end Sys2Proof.Machine

/-! # Stringline links (06_beam_ports.md R151, R152; 08_sensing_calibration.md R216) -/

namespace Sys2Proof.Machine

open Sys2Proof.Safety

/-! ## Link states (R151) -/

/-- The registers that show the link of port p and what follows from it. -/
def linkFlds (p : Nat) : List Fld := [F.BEAMn_PSTAT_LINK p, F.BEAMn_TSTAT_STATE p, F.BEAMn_PSTAT_EMIT p]

theorem Dev.linkTo_keeps (d : Dev) (p st : Nat) : regsKeep (linkFlds p) d (d.linkTo p st) :=
  regsKeep_trans (regsKeep_put _ _ _ (by simp [linkFlds])) (regsKeep_mono (Dev.portBits_regsKeep _ p) (by simp [linkFlds]))

theorem Dev.linkTo_link (d : Dev) (p : Nat) {st : Nat} (h : st < 8) : (d.linkTo p st).get (F.BEAMn_PSTAT_LINK p) = st := by
  refine (Dev.portBits_regsKeep _ p _ ?_).trans ((Dev.get_put_self d _ st).trans (Nat.mod_eq_of_lt h))
  simp only [List.map_cons, List.map_nil, List.mem_cons, List.not_mem_nil, or_false, portKeys]
  omega

theorem exec_slStartBitsSeen (p : Port) (s : State) : exec (.slStartBitsSeen p) s =
    .next (s.onDev (fun d => if d.get (F.BEAMn_PSTAT_LINK p.val) == 1 then d.linkTo p.val 2 else d)) := rfl

/-- In CLOCK, start bits lead to ALIGN. -/
theorem exec_slStartBitsSeen_clock {p : Port} {s : State} (h : s.dev.get (F.BEAMn_PSTAT_LINK p.val) = 1) :
    ∃ t : State, exec (.slStartBitsSeen p) s = .next t ∧ t.dev.get (F.BEAMn_PSTAT_LINK p.val) = 2 ∧ onlyRegs (linkFlds p.val) s t := by
  refine ⟨_, exec_slStartBitsSeen p s, ?_⟩
  rw [State.onDev, h]
  exact ⟨s.dev.linkTo_link p.val (by decide), rfl, s.dev.linkTo_keeps p.val 2⟩

theorem exec_slStartBitsSeen_other {p : Port} {s : State} (h : s.dev.get (F.BEAMn_PSTAT_LINK p.val) ≠ 1) :
    exec (.slStartBitsSeen p) s = .next s := by
  rw [exec_slStartBitsSeen, State.onDev, if_neg (by simpa using h)]

/-- The registers that show the eyes of port p's lanes. -/
def eyeFlds (p : Nat) : List Fld :=
  [F.BEAMn_SL_EYE_PHASE_A p, F.BEAMn_SL_EYE_WIDTH_A p, F.BEAMn_SL_EYE_PHASE_B p, F.BEAMn_SL_EYE_WIDTH_B p]

/-- The device on which the eyes of port p's lanes have been found. -/
def Dev.eyes (d : Dev) (p phA wA phB wB : Nat) : Dev :=
  (((d.put (F.BEAMn_SL_EYE_PHASE_A p) phA).put (F.BEAMn_SL_EYE_WIDTH_A p) wA).put (F.BEAMn_SL_EYE_PHASE_B p) phB).put
    (F.BEAMn_SL_EYE_WIDTH_B p) wB

theorem Dev.eyes_keeps (d : Dev) (p phA wA phB wB : Nat) : regsKeep (eyeFlds p) d (d.eyes p phA wA phB wB) :=
  regsKeep_setField (regsKeep_setField (regsKeep_setField (regsKeep_put _ _ _ (by simp [eyeFlds])) _ (by simp [eyeFlds])) _
    (by simp [eyeFlds])) _ (by simp [eyeFlds])

theorem Dev.eyes_frame (d : Dev) (p phA wA phB wB : Nat) :
    d.eyes p phA wA phB wB = { d with regs := (d.eyes p phA wA phB wB).regs } := rfl

theorem Dev.linkTo_frame {d e : Dev} (h : e = { d with regs := e.regs }) (p st : Nat) :
    e.linkTo p st = { d with regs := (e.linkTo p st).regs } := by
  obtain ⟨r, q⟩ : ∃ r, e = { d with regs := r } := ⟨_, h⟩
  subst q
  rfl

theorem Dev.eyes_shows (d : Dev) (p : Nat) (phA wA phB wB : Fin 16) :
    (d.eyes p phA wA phB wB).get (F.BEAMn_SL_EYE_PHASE_A p) = phA ∧ (d.eyes p phA wA phB wB).get (F.BEAMn_SL_EYE_WIDTH_A p) = wA ∧
    (d.eyes p phA wA phB wB).get (F.BEAMn_SL_EYE_PHASE_B p) = phB ∧ (d.eyes p phA wA phB wB).get (F.BEAMn_SL_EYE_WIDTH_B p) = wB := by
  have apart : (F.BEAMn_SL_EYE_WIDTH_B p).key ≠ (F.BEAMn_SL_EYE_PHASE_B p).key ∧
      (∀ G ∈ [F.BEAMn_SL_EYE_WIDTH_B p, F.BEAMn_SL_EYE_PHASE_B p], G.key ≠ (F.BEAMn_SL_EYE_WIDTH_A p).key) ∧
      ∀ G ∈ [F.BEAMn_SL_EYE_WIDTH_B p, F.BEAMn_SL_EYE_PHASE_B p, F.BEAMn_SL_EYE_WIDTH_A p], G.key ≠ (F.BEAMn_SL_EYE_PHASE_A p).key := by
    simp only [List.mem_cons, List.not_mem_nil, or_false, forall_eq_or_imp, forall_eq, portKeys]
    omega
  obtain ⟨phaseB, widthA, phaseA⟩ := apart
  have fits : ∀ v : Fin 16, v.val % 2 ^ 4 = v.val := fun v => Nat.mod_eq_of_lt v.isLt
  unfold Dev.eyes
  refine ⟨?_, ?_, ?_, (Dev.get_put_self _ _ _).trans (fits wB)⟩
  · rw [Dev.get_put_ne _ _ _ _ (phaseA _ (by simp)), Dev.get_put_ne _ _ _ _ (phaseA _ (by simp)), Dev.get_put_ne _ _ _ _ (phaseA _ (by simp)),
      Dev.get_put_self]
    exact fits phA
  · rw [Dev.get_put_ne _ _ _ _ (widthA _ (by simp)), Dev.get_put_ne _ _ _ _ (widthA _ (by simp)), Dev.get_put_self]
    exact fits wA
  · rw [Dev.get_put_ne _ _ _ _ phaseB, Dev.get_put_self]
    exact fits phB

theorem exec_slAlignDone (p : Port) (phA wA phB wB : Fin 16) (s : State) : exec (.slAlignDone p phA wA phB wB) s =
    .next (s.onDev (fun d => d.slAlign p.val phA.val wA.val phB.val wB.val)) := rfl

/-- In ALIGN, eyes of at least 4 steps on both lanes lead to MEASURE. -/
theorem exec_slAlignDone_wide {p : Port} {s : State} {phA wA phB wB : Fin 16} (h : s.dev.get (F.BEAMn_PSTAT_LINK p.val) = 2)
    (ha : 4 ≤ wA.val) (hb : 4 ≤ wB.val) : ∃ t : State, exec (.slAlignDone p phA wA phB wB) s = .next t ∧
      t.dev.get (F.BEAMn_PSTAT_LINK p.val) = 3 ∧ t.dev.get (F.BEAMn_SL_EYE_PHASE_A p.val) = phA.val ∧
      t.dev.get (F.BEAMn_SL_EYE_WIDTH_A p.val) = wA.val ∧ t.dev.get (F.BEAMn_SL_EYE_PHASE_B p.val) = phB.val ∧
      t.dev.get (F.BEAMn_SL_EYE_WIDTH_B p.val) = wB.val ∧ onlyRegs (linkFlds p.val ++ eyeFlds p.val) s t := by
  have aligned : s.dev.slAlign p.val phA.val wA.val phB.val wB.val = (s.dev.eyes p.val phA wA phB wB).linkTo p.val 3 := by
    simp [Dev.slAlign, Dev.eyes, h, ha, hb]
  obtain ⟨phaseA, widthA, phaseB, widthB⟩ := s.dev.eyes_shows p.val phA wA phB wB
  have link := (s.dev.eyes p.val phA wA phB wB).linkTo_keeps p.val 3
  have away : ∀ G ∈ eyeFlds p.val, G.key ∉ (linkFlds p.val).map Fld.key := by
    simp only [eyeFlds, linkFlds, List.map_cons, List.map_nil, List.mem_cons, List.not_mem_nil, or_false, forall_eq_or_imp, forall_eq, portKeys]
    omega
  refine ⟨_, exec_slAlignDone p phA wA phB wB s, ?_⟩
  rw [State.onDev, aligned]
  exact ⟨Dev.linkTo_link _ _ (by decide), (link _ (away _ (by simp [eyeFlds]))).trans phaseA,
    (link _ (away _ (by simp [eyeFlds]))).trans widthA, (link _ (away _ (by simp [eyeFlds]))).trans phaseB,
    (link _ (away _ (by simp [eyeFlds]))).trans widthB,
    congrArg (State.mk _ _) (Dev.linkTo_frame (s.dev.eyes_frame ..) p.val 3),
    regsKeep_trans (regsKeep_mono (s.dev.eyes_keeps p.val phA wA phB wB) (fun _ h => List.mem_append_right _ h))
      (regsKeep_mono link (fun _ h => List.mem_append_left _ h))⟩

theorem exec_slAlignDone_other {p : Port} {s : State} {phA wA phB wB : Fin 16}
    (h : s.dev.get (F.BEAMn_PSTAT_LINK p.val) ≠ 2 ∨ wA.val < 4 ∨ wB.val < 4) : exec (.slAlignDone p phA wA phB wB) s = .next s := by
  have stays : s.dev.slAlign p.val phA.val wA.val phB.val wB.val = s.dev := by
    unfold Dev.slAlign
    rw [if_neg]
    simp only [Bool.and_eq_true, beq_iff_eq, decide_eq_true_eq]
    omega
  rw [exec_slAlignDone, State.onDev, stays]

theorem exec_slFaultExpire (p : Port) (s : State) : exec (.slFaultExpire p) s =
    .next (s.onDev (fun d => if d.get (F.BEAMn_PSTAT_LINK p.val) == 5 then d.linkClock p.val else d)) := rfl

theorem Dev.linkClock_keeps (d : Dev) (p : Nat) : regsKeep (linkFlds p) d (d.linkClock p) :=
  regsKeep_trans (regsKeep_of_regs rfl) (Dev.linkTo_keeps _ p 1)

theorem recorded_linkClock {d e : Dev} {c a b x y z : Nat} (h : recorded d e c a b x y z) (p : Nat) :
    recorded d (e.linkClock p) c a b x y z := h

/-- After its millisecond in FAULT a link is back in CLOCK. -/
theorem exec_slFaultExpire_fault {p : Port} {s : State} (h : s.dev.get (F.BEAMn_PSTAT_LINK p.val) = 5) :
    ∃ t : State, exec (.slFaultExpire p) s = .next t ∧ t.dev.get (F.BEAMn_PSTAT_LINK p.val) = 1 ∧
      (t.dev.prtOf p.val).linkSince = s.dev.time ∧ regsKeep (linkFlds p.val) s.dev t.dev ∧ t.mem = s.mem ∧ t.dev.evr = s.dev.evr := by
  refine ⟨_, exec_slFaultExpire p s, ?_⟩
  rw [State.onDev, h]
  exact ⟨Dev.linkTo_link _ _ (by decide), congrArg Prt.linkSince (tget_tput_self _ _ _ _), s.dev.linkClock_keeps p.val, rfl, rfl⟩

theorem exec_slFaultExpire_other {p : Port} {s : State} (h : s.dev.get (F.BEAMn_PSTAT_LINK p.val) ≠ 5) :
    exec (.slFaultExpire p) s = .next s := by
  rw [exec_slFaultExpire, State.onDev, if_neg (by simpa using h)]

/-! ## A start-up that takes too long (R151) -/

theorem exec_slStartupTimeout (p : Port) (s : State) : exec (.slStartupTimeout p) s = .next (s.onDev (fun d => d.slTimeout p.val)) := rfl

theorem exec_slStartupTimeout_other {p : Port} {s : State}
    (h : s.dev.get (F.BEAMn_PSTAT_LINK p.val) = 0 ∨ 4 ≤ s.dev.get (F.BEAMn_PSTAT_LINK p.val)) : exec (.slStartupTimeout p) s = .next s := by
  have stays : s.dev.slTimeout p.val = s.dev := by
    unfold Dev.slTimeout
    rw [if_neg]
    simp only [Bool.or_eq_true, beq_iff_eq]
    omega
  rw [exec_slStartupTimeout, State.onDev, stays]

theorem tfail_not_link (p : Nat) : (F.BEAMn_PSTAT_TFAIL p).key ∉ (linkFlds p).map Fld.key := by
  simp only [linkFlds, List.map_cons, List.map_nil, List.mem_cons, List.not_mem_nil, or_false, portKeys]
  omega

section
variable {d : Dev} {p : Nat} (h1 : 1 ≤ d.get (F.BEAMn_PSTAT_LINK p)) (h3 : d.get (F.BEAMn_PSTAT_LINK p) ≤ 3)
include h1 h3

/-- The first time that start-up takes too long is recorded. -/
theorem Dev.slTimeout_first (hf : d.get (F.BEAMn_PSTAT_TFAIL p) = 0) : d.slTimeout p =
    ((d.put (F.BEAMn_PSTAT_TFAIL p) 1).raise 0x0311 (srcPort p) 2 p (d.get (F.BEAMn_PSTAT_LINK p)) 0).linkClock p := by
  have starting : d.get (F.BEAMn_PSTAT_LINK p) = 1 ∨ d.get (F.BEAMn_PSTAT_LINK p) = 2 ∨ d.get (F.BEAMn_PSTAT_LINK p) = 3 := by omega
  rcases starting with l | l | l <;> simp [Dev.slTimeout, l, hf, b2n]

/-- Where TFAIL stands at another value than 0, it stays as it is. -/
theorem Dev.slTimeout_again (hf : d.get (F.BEAMn_PSTAT_TFAIL p) ≠ 0) : d.slTimeout p = d.linkClock p := by
  have starting : d.get (F.BEAMn_PSTAT_LINK p) = 1 ∨ d.get (F.BEAMn_PSTAT_LINK p) = 2 ∨ d.get (F.BEAMn_PSTAT_LINK p) = 3 := by omega
  rcases starting with l | l | l <;> simp [Dev.slTimeout, l, hf]

end

/-- A start-up that takes too long, as O25 says it, where TFAIL holds a value of one bit. -/
theorem exec_slStartupTimeout_starting {p : Port} {s : State} (h1 : 1 ≤ s.dev.get (F.BEAMn_PSTAT_LINK p.val))
    (h3 : s.dev.get (F.BEAMn_PSTAT_LINK p.val) ≤ 3) (hf : s.dev.get (F.BEAMn_PSTAT_TFAIL p.val) ≤ 1) :
    ∃ t : State, exec (.slStartupTimeout p) s = .next t ∧ t.dev.get (F.BEAMn_PSTAT_LINK p.val) = 1 ∧
      t.dev.get (F.BEAMn_PSTAT_TFAIL p.val) = 1 ∧
      (s.dev.get (F.BEAMn_PSTAT_TFAIL p.val) = 0 →
        recorded s.dev t.dev 0x0311 (srcPort p.val) 2 p.val (s.dev.get (F.BEAMn_PSTAT_LINK p.val)) 0) ∧
      (s.dev.get (F.BEAMn_PSTAT_TFAIL p.val) = 1 → t.dev.evr = s.dev.evr) ∧ t.mem = s.mem := by
  have places : (F.BEAMn_PSTAT_TFAIL p.val).ofPorts ∧ (F.BEAMn_PSTAT_TFAIL p.val).key ≠ F.EVR_STAT_LASTGASP.key := by
    simp only [Fld.ofPorts, portKeys, countKeys]
    omega
  obtain ⟨ofPorts, gasp⟩ := places
  refine ⟨_, exec_slStartupTimeout p s, ?_⟩
  rw [State.onDev_dev]
  rcases Nat.le_one_iff_eq_zero_or_eq_one.mp hf with clear | set
  · rw [Dev.slTimeout_first h1 h3 clear]
    refine ⟨Dev.linkTo_link _ _ (by decide), ?_, fun _ => recorded_linkClock (Dev.put_raise_evr _ _ _ _ _ _ _ _ _ gasp) _, by simp [clear], rfl⟩
    rw [Dev.linkClock_keeps _ _ _ (tfail_not_link p.val), Dev.get_raise _ _ _ _ _ _ _ _ (Fld.ofPorts_not_rec ofPorts), Dev.get_put_self]
    rfl
  · rw [Dev.slTimeout_again h1 h3 (by simp [set])]
    exact ⟨Dev.linkTo_link _ _ (by decide), (Dev.linkClock_keeps _ _ _ (tfail_not_link p.val)).trans set, by simp [set], fun _ => rfl, rfl⟩

/-! ## MEASURE (R152, R216) -/

theorem frac_one (n : Int) : frac n 1 = fracI n := by
  simp [frac, fracI]

/-- The mean of two equal numbers of T-ticks. -/
theorem fracMul_half (t : Nat) : fracMul (fracAdd (fracI t) (fracI t)) (frac 1 2) = fracI t := by
  have sum : fracAdd (fracI t) (fracI t) = fracI (2 * t : Nat) := by
    simp only [fracAdd, fracI, Nat.cast_one, mul_one, frac_one]
    congr 1
    push_cast
    ring
  have half : frac 1 2 = ⟨1, 2⟩ := by decide
  rw [sum, half]
  simp [fracMul, fracI, frac, Int.natAbs_mul]

theorem fracRne_fracI (t : Nat) : fracRne (fracI t) = t := by
  simp [fracRne, fracI, divRne, Nat.mod_one]

/-- Two passes that measure the same round trip settle it (R216). -/
theorem settle_agree (p : Port) (t : Nat) (c : List Meas) :
    settle { item := .strLat p, a := [⟨t, 1⟩], b := [⟨t, 1⟩], c := c } = ⟨some [(t : Int)], false⟩ := by
  have val : measVal ⟨t, 1⟩ = fracI t := frac_one t
  have agree : calAgree (.strLat p) [⟨t, 1⟩] [⟨t, 1⟩] = true := by
    simp [calAgree, calDiff, calTol, val, fracSub, fracI, frac, fracAbs, fracMax, fracLe]
  have mean : calMean (.strLat p) [⟨t, 1⟩] [⟨t, 1⟩] = [(t : Int)] := by
    simp [calMean, calHeld, val, fracMul_half, fracRne_fracI]
  rw [settle, if_pos agree, mean]

theorem exec_slMeasureDone (p : Port) (m : SlMeasure) (s : State) :
    exec (.slMeasureDone p m) s = .next (s.onDev (fun d => d.slMeasure p m)) := rfl

theorem exec_slMeasureDone_other {p : Port} {m : SlMeasure} {s : State}
    (h : s.dev.get (F.BEAMn_PSTAT_LINK p.val) ≠ 3 ∨ m.equal = false ∨ m.ready = false) : exec (.slMeasureDone p m) s = .next s := by
  have stays : s.dev.slMeasure p m = s.dev := by
    unfold Dev.slMeasure
    dsimp only
    rw [if_neg]
    simp only [Bool.and_eq_true, beq_iff_eq]
    rintro ⟨⟨link, equal⟩, ready⟩
    simp [link, equal, ready] at h
  rw [exec_slMeasureDone, State.onDev, stays]

theorem Dev.slMeasure_agree {d : Dev} {p : Port} {m : SlMeasure} (h : d.get (F.BEAMn_PSTAT_LINK p.val) = 3) (he : m.equal = true)
    (hr : m.ready = true) (ht : m.t1 = m.t2) (h1 : 1 ≤ m.t1) (h32 : m.t1 ≤ 32) :
    d.slMeasure p m = (d.latAccept p m.t1).slUp p.val m.t1 m.offset.toNat (d.sns.latSettled.contains p.val) := by
  simp [Dev.slMeasure, h, he, hr, ← ht, settle_agree, h1, h32]

/-- Reaching UP shows the link, its latency and its bit offset, and settles the latency. -/
theorem Dev.slUp_shows (d : Dev) {p t offset : Nat} (hp : p < 32) (ht : t < 64) (ho : offset < 256) (again : Bool) :
    (d.slUp p t offset again).get (F.BEAMn_PSTAT_LINK p) = 4 ∧ (d.slUp p t offset again).get (F.BEAMn_LAT_TICKS p) = t ∧
    (d.slUp p t offset again).get (F.BEAMn_SL_EYE_OFFSET p) = offset ∧ (d.slUp p t offset again).get (F.BEAMn_PSTAT_READY p) = 1 ∧
    (d.slUp p t offset again).sns.latSettled.contains p = true := by
  unfold Dev.slUp
  extract_lets old d1 d2 src d3 d4
  have regs : ∀ G : Fld, G.ofPorts → G.key ∉ (linkFlds p).map Fld.key →
      ((d4.raise 0x0310 (srcPort p) 0 p t 0).linkTo p 4).get G = d4.get G :=
    fun G hG away => (Dev.linkTo_keeps _ p 4 G away).trans (Dev.get_raise _ _ _ _ _ _ _ G (Fld.ofPorts_not_rec hG))
  have places : ∀ G ∈ [F.BEAMn_LAT_TICKS p, F.BEAMn_SL_EYE_OFFSET p, F.BEAMn_PSTAT_READY p],
      G.ofPorts ∧ G.key ∉ (linkFlds p).map Fld.key := by
    simp only [Fld.ofPorts, linkFlds, List.map_cons, List.map_nil, List.mem_cons, List.not_mem_nil, or_false, forall_eq_or_imp, forall_eq,
      portKeys]
    omega
  have shown : ∀ G ∈ [F.BEAMn_LAT_TICKS p, F.BEAMn_SL_EYE_OFFSET p, F.BEAMn_PSTAT_READY p],
      ((d4.raise 0x0310 (srcPort p) 0 p t 0).linkTo p 4).get G = d4.get G := fun G hG => regs G (places G hG).1 (places G hG).2
  have apart : (F.BEAMn_PSTAT_READY p).key ≠ (F.BEAMn_LAT_TICKS p).key ∧ (F.BEAMn_PSTAT_READY p).key ≠ (F.BEAMn_SL_EYE_OFFSET p).key ∧
      (F.BEAMn_SL_EYE_OFFSET p).key ≠ (F.BEAMn_LAT_TICKS p).key := by
    simp only [portKeys]
    omega
  obtain ⟨readyLat, readyOffset, offsetLat⟩ := apart
  have up : ∀ G : Fld, (F.BEAMn_PSTAT_READY p).key ≠ G.key → d4.get G = d2.get G := fun G hG => Dev.get_put_ne _ _ G _ hG
  refine ⟨Dev.linkTo_link _ _ (by decide), (shown _ (by simp)).trans ?_, (shown _ (by simp)).trans ?_,
    (shown _ (by simp)).trans ((Dev.get_put_self _ _ _).trans rfl), ?_⟩
  · rw [up _ readyLat, Dev.get_put_ne _ _ _ _ offsetLat, Dev.get_put_self]
    exact Nat.mod_eq_of_lt ht
  · rw [up _ readyOffset, Dev.get_put_self]
    exact Nat.mod_eq_of_lt ho
  · have settled : ((d4.raise 0x0310 (srcPort p) 0 p t 0).linkTo p 4).sns = d3.sns := Dev.raise_sns d4 ..
    rw [settled]
    show (if d2.sns.latSettled.contains p then d2.sns.latSettled else d2.sns.latSettled ++ [p]).contains p = true
    split
    · assumption
    · simp

/-- Two passes of MEASURE that agree bring the link UP. -/
theorem exec_slMeasureDone_agree {p : Port} {m : SlMeasure} {s : State} (h : s.dev.get (F.BEAMn_PSTAT_LINK p.val) = 3) (he : m.equal = true)
    (hr : m.ready = true) (ht : m.t1 = m.t2) (h1 : 1 ≤ m.t1) (h32 : m.t1 ≤ 32) :
    ∃ t : State, exec (.slMeasureDone p m) s = .next t ∧ t.dev.get (F.BEAMn_PSTAT_LINK p.val) = 4 ∧
      t.dev.get (F.BEAMn_LAT_TICKS p.val) = m.t1 ∧ t.dev.get (F.BEAMn_SL_EYE_OFFSET p.val) = m.offset.toNat ∧
      t.dev.get (F.BEAMn_PSTAT_READY p.val) = 1 ∧ t.dev.sns.latSettled.contains p.val = true ∧ t.mem = s.mem := by
  obtain ⟨link, latency, offset, ready, settled⟩ := (s.dev.latAccept p m.t1).slUp_shows p.isLt (h32.trans_lt (by decide)) m.offset.isLt
    (s.dev.sns.latSettled.contains p.val)
  refine ⟨_, exec_slMeasureDone p m s, ?_⟩
  rw [State.onDev_dev, Dev.slMeasure_agree h he hr ht h1 h32]
  exact ⟨link, latency, offset, ready, settled, rfl⟩

/-! ## TFAIL at a value that one bit does not hold

A state lists registers with any number for a value, and O25 is said of every state. -/

/-- After reset, with the link of port 0 in CLOCK and TFAIL at 2. -/
def tfailTwo : State := State.reset.onDev (fun d => { d with
  regs := [((F.BEAMn_PSTAT_LINK 0).key, 1), ((F.BEAMn_PSTAT_TFAIL 0).key, 2)] })

/-- The time-out of its start-up leaves TFAIL at 2. -/
theorem tfailTwo_stays : (tfailTwo.dev.slTimeout 0).get (F.BEAMn_PSTAT_TFAIL 0) = 2 := by
  have link : tfailTwo.dev.get (F.BEAMn_PSTAT_LINK 0) = 1 := by decide
  have tfail : tfailTwo.dev.get (F.BEAMn_PSTAT_TFAIL 0) = 2 := by decide
  rw [Dev.slTimeout_again link.ge (by simp [link]) (by simp [tfail]), Dev.linkClock_keeps _ _ _ (tfail_not_link 0), tfail]

/-- Refutes O25: its clause on a start-up that takes too long asks for TFAIL 1 afterwards in every state, and the model sets TFAIL only where it is
0. In `tfailTwo` TFAIL holds 2 and stays so. With a value of one bit in TFAIL the clause holds (`exec_slStartupTimeout_starting`); so do the other
clauses: `exec_slStartBitsSeen_clock`, `exec_slStartBitsSeen_other`, `exec_slAlignDone_wide`, `exec_slAlignDone_other`, `exec_slFaultExpire_fault`,
`exec_slFaultExpire_other`, `exec_slStartupTimeout_other`, `exec_slMeasureDone_agree`, `exec_slMeasureDone_other`. -/
theorem not_linkStartAndLatency : ¬ Obligations.LinkStartAndLatency := by
  intro h
  obtain ⟨-, -, -, -, -, -, late, -⟩ := h.1 0 tfailTwo
  obtain ⟨t, ht, -, set, -⟩ := late (by decide) (by decide)
  obtain rfl := Host.Outcome.next.inj ((exec_slStartupTimeout 0 tfailTwo).symm.trans ht)
  exact absurd (set.symm.trans tfailTwo_stays) (by decide)

end Sys2Proof.Machine

/-! # Power selection and dark P-ticks (07_power_loops.md R176, R189, R190)

Min-select walks the candidates in descriptor order and changes its mind only for a lower one. So what it holds after any part of the walk is the
first of the lowest candidates of that part (`FirstLowest`). A P-tick that does not emit forms its blocks without touching an integrator. -/

namespace Sys2Proof.Machine

/-! ## Min-select (R189, R190) -/

theorem f32Lt_of_key {a b : Word} (ha : f32IsNaN a = false) (hb : f32IsNaN b = false) : f32Lt a b = decide (f32Key a < f32Key b) := by
  simp [f32Lt, ha, hb]

/-- w is the first in descriptor order of the lowest candidates cs. -/
def FirstLowest (cs : List Cand) (w : Cand) : Prop :=
  (∀ y ∈ cs, f32Lt y.m w.m = false) ∧ ∃ pre post, cs = pre ++ w :: post ∧ ∀ y ∈ pre, f32Lt w.m y.m = true

namespace FirstLowest

theorem singleton (a : Cand) : FirstLowest [a] a :=
  ⟨fun y hy => by simp [List.mem_singleton.mp hy, f32Lt], [], [], rfl, by simp⟩

theorem mem {cs : List Cand} {w : Cand} (h : FirstLowest cs w) : w ∈ cs := by
  obtain ⟨-, pre, post, rfl, -⟩ := h
  simp

/-- What stands before the first place of the winner lies above it. -/
theorem above_before {cs pre post : List Cand} {w : Cand} (h : FirstLowest cs w) (hcs : cs = pre ++ w :: post) (hw : w ∉ pre) :
    ∀ y ∈ pre, f32Lt w.m y.m = true := by
  obtain ⟨-, pre', post', hcs', above⟩ := h
  obtain ⟨c, rfl, -⟩ | ⟨c, rfl, rest⟩ := List.append_eq_append_iff.mp (hcs.symm.trans hcs')
  · exact fun y hy => above y (List.mem_append_left c hy)
  · cases c with
    | nil => simpa using above
    | cons x c =>
      obtain ⟨rfl, -⟩ := List.cons.inj rest
      simp at hw

/-- One more candidate takes the place of the winner where it is lower. -/
theorem concat {cs : List Cand} {w b : Cand} (h : FirstLowest cs w) (nan : ∀ y ∈ cs ++ [b], f32IsNaN y.m = false) :
    FirstLowest (cs ++ [b]) (if f32Lt b.m w.m then b else w) := by
  have nw : f32IsNaN w.m = false := nan w (List.mem_append_left _ h.mem)
  have nb : f32IsNaN b.m = false := nan b (by simp)
  obtain ⟨lowest, pre, post, rfl, above⟩ := h
  have key : ∀ y ∈ pre ++ w :: post, f32IsNaN y.m = false ∧ f32Key w.m ≤ f32Key y.m := fun y hy => by
    have ny : f32IsNaN y.m = false := nan y (List.mem_append_left _ hy)
    have := lowest y hy
    rw [f32Lt_of_key ny nw, decide_eq_false_iff_not] at this
    exact ⟨ny, by omega⟩
  rw [f32Lt_of_key nb nw]
  by_cases lt : f32Key b.m < f32Key w.m
  · rw [if_pos (decide_eq_true lt)]
    have higher : ∀ y ∈ pre ++ w :: post, f32Lt b.m y.m = true ∧ f32Lt y.m b.m = false := fun y hy => by
      obtain ⟨ny, le⟩ := key y hy
      rw [f32Lt_of_key nb ny, f32Lt_of_key ny nb]
      exact ⟨decide_eq_true (by omega), decide_eq_false (by omega)⟩
    refine ⟨List.forall_mem_append.mpr ⟨fun y hy => (higher y hy).2, by simp [f32Lt]⟩, _, [], rfl, fun y hy => (higher y hy).1⟩
  · rw [if_neg (by simpa using lt)]
    refine ⟨List.forall_mem_append.mpr ⟨lowest, ?_⟩, pre, post ++ [b], by simp, above⟩
    simp [f32Lt_of_key nb nw, lt]

/-- After any part of the walk min-select holds the first of the lowest candidates so far. -/
theorem foldl (t : List Cand) : ∀ {cs : List Cand} {w : Cand}, FirstLowest cs w → (∀ y ∈ cs ++ t, f32IsNaN y.m = false) →
    FirstLowest (cs ++ t) (t.foldl (fun w b => if f32Lt b.m w.m then b else w) w) := by
  induction t with
  | nil => intro cs w h _; simpa using h
  | cons b t ih =>
    intro cs w h nan
    rw [List.append_cons] at nan ⊢
    exact ih (h.concat (fun y hy => nan y (List.mem_append_left _ hy))) nan

end FirstLowest

theorem minSelect_firstLowest {cs : List Cand} {w : Cand} (h : minSelect cs = some w) (nan : ∀ y ∈ cs, f32IsNaN y.m = false) :
    FirstLowest cs w := by
  cases cs with
  | nil => cases h
  | cons a t =>
    obtain rfl := Option.some.inj h
    exact (FirstLowest.singleton a).foldl t nan

theorem minSelect_isSome {cs : List Cand} (h : cs ≠ []) : (minSelect cs).isSome = true := by
  cases cs with
  | nil => exact absurd rfl h
  | cons a t => rfl

/-! ## A P-tick that does not emit (R176) -/

theorem LoopBlock.judge_i (b : LoopBlock) (x : LoopDesc) (c : PCtx) (run : Nat) : (b.judge x c run).1.i = b.i := by
  unfold LoopBlock.judge
  dsimp only
  split
  · rfl
  · split
    · rfl
    · split
      · rfl
      · split <;> rfl

theorem LoopBlock.ramping_i (b : LoopBlock) (was now : Bool) : (b.ramping was now).i = b.i := by
  unfold LoopBlock.ramping
  split
  · rfl
  · split <;> rfl

theorem LoopBlock.watch_i (b : LoopBlock) (x : Option LoopDesc) (c : PCtx) (run : Nat) : (b.watch x c run).1.i = b.i := by
  cases x with
  | none => rfl
  | some x => exact (LoopBlock.ramping_i ..).trans (b.judge_i x c run)

theorem LoopBlock.read_i (b : LoopBlock) (x : LoopDesc) (c : PCtx) : (b.read x c).i = b.i := by
  unfold LoopBlock.read
  dsimp only
  split <;> rfl

theorem LoopBlock.form_i_dark (b : LoopBlock) (l : LoopEng) (x : LoopDesc) {c : PCtx} (h : c.emit = false) (s : Word) (u : Option Word) :
    (b.form l x c s u).i = b.i := by
  unfold LoopBlock.form
  split
  · rfl
  · dsimp only
    split
    · exact b.read_i x c
    · simp [h, b.read_i x c]

theorem LoopBlock.formIn_i_dark (b : LoopBlock) (l : LoopEng) (x : Option LoopDesc) {c : PCtx} (h : c.emit = false) (s : Word)
    (u : Option Word) : (b.formIn l x c s u).i = b.i := by
  cases x with
  | none => rfl
  | some x => exact b.form_i_dark l x h s u

/-- A P-tick that does not emit ends SRC's run over TRIP or leaves it; nothing else of the loop engine changes. -/
theorem LoopEng.tripStep_dark (l : LoopEng) {c : PCtx} (h : c.emit = false) :
    (l.tripStep c).1 = { l with trip := (l.tripStep c).1.trip } := by
  unfold LoopEng.tripStep
  rw [h]
  split
  · rfl
  · split <;> rfl

/-- What a P-tick that does not emit gives (R176, R189): no power and no winner, and integrators as they were. -/
theorem LoopEng.pstep_dark (l : LoopEng) {c : PCtx} (h : c.emit = false) :
    (l.pstep c).pwr = 0 ∧ (l.pstep c).win = none ∧ (l.pstep c).l.emit = false ∧ (l.pstep c).l.emit1 = l.emit ∧ (l.pstep c).l.u1 = l.u ∧
    (l.pstep c).l.melt.i = l.melt.i ∧ (l.pstep c).l.src.i = l.src.i ∧ (l.pstep c).l.gateRun = 0 := by
  unfold LoopEng.pstep
  rw [h]
  dsimp only
  rw [LoopEng.tripStep_dark _ rfl]
  exact ⟨rfl, rfl, rfl, rfl, rfl, (LoopBlock.formIn_i_dark _ l _ h _ _).trans (LoopBlock.watch_i ..),
    (LoopBlock.formIn_i_dark _ l _ h _ _).trans (LoopBlock.watch_i ..), rfl⟩

/-- Settles O29: min-select holds the first of the lowest candidates throughout its walk, and a P-tick that does not emit forms its blocks without
touching an integrator. -/
theorem minSelectAndDarkTicks : Obligations.MinSelectAndDarkTicks := by
  unfold Obligations.MinSelectAndDarkTicks
  refine ⟨fun cs pre post w hw nan => ?_, fun cs => minSelect_isSome, fun l c => l.pstep_dark⟩
  have first := minSelect_firstLowest hw nan
  exact ⟨first.mem, first.1, first.above_before⟩

end Sys2Proof.Machine

/-! # The ends of what a loop engine runs (07_power_loops.md R194, R195, R204, R207)

RAMP_END, FEEDBACK_REENTRY, YOYO_RUN_END and CAPTURE_END change loop engines and registers (`Dev.LoopRec`) and all but the first then raise one
event. A row that is not due leaves the device as it is. -/

namespace Sys2Proof.Machine

open Sys2Proof.Safety

/-! ## Places of registers (R208) -/

/-- Where the registers of the loop engine of a port stand. -/
theorem loopKeys (p : Nat) :
    (F.LOOPn_STAT_MP_LOST p).key = (0x181004 + p * 0x80) * 32 + 0 ∧ (F.LOOPn_STAT_SRC_LOST p).key = (0x181004 + p * 0x80) * 32 + 1 ∧
    (F.LOOPn_STAT_MP_RAMP p).key = (0x181004 + p * 0x80) * 32 + 2 ∧ (F.LOOPn_STAT_SRC_RAMP p).key = (0x181004 + p * 0x80) * 32 + 3 ∧
    (F.LOOPn_STAT_MP_CAUSE p).key = (0x181004 + p * 0x80) * 32 + 4 ∧ (F.LOOPn_STAT_SRC_CAUSE p).key = (0x181004 + p * 0x80) * 32 + 7 ∧
    (F.LOOPn_STAT_YY_RUN p).key = (0x181004 + p * 0x80) * 32 + 12 ∧ (F.LOOPn_STAT_CAP_DONE p).key = (0x181004 + p * 0x80) * 32 + 13 ∧
    (F.LOOPn_STAT_CAP_BUSY p).key = (0x181004 + p * 0x80) * 32 + 14 ∧ (F.LOOPn_WIN_PWR p).key = (0x181008 + p * 0x80) * 32 + 0 ∧
    (F.LOOPn_WIN_CLASS p).key = (0x181008 + p * 0x80) * 32 + 19 ∧ (F.LOOPn_YY_CTRL_ARM p).key = (0x18102C + p * 0x80) * 32 + 5 ∧
    (F.LOOPn_CAP_WR_COUNT p).key = (0x18104C + p * 0x80) * 32 + 0 :=
  ⟨rfl, rfl, rfl, rfl, rfl, rfl, rfl, rfl, rfl, rfl, rfl, rfl, rfl⟩

/-- The registers that the ends of a port's rows show themselves in. -/
def loopFlds (p : Nat) : List Fld :=
  [F.LOOPn_STAT_MP_LOST p, F.LOOPn_STAT_SRC_LOST p, F.LOOPn_STAT_MP_RAMP p, F.LOOPn_STAT_SRC_RAMP p, F.LOOPn_STAT_MP_CAUSE p,
   F.LOOPn_STAT_SRC_CAUSE p, F.LOOPn_STAT_YY_RUN p, F.LOOPn_STAT_CAP_DONE p, F.LOOPn_STAT_CAP_BUSY p, F.LOOPn_YY_CTRL_ARM p]

/-- A register of the loops or of sensing. -/
def Fld.ofLoops (G : Fld) : Prop := 0x180000 * 32 ≤ G.key ∧ G.key < 0x200000 * 32

theorem Fld.ofLoops.ofPorts {G : Fld} (h : G.ofLoops) : G.ofPorts := by
  unfold Fld.ofLoops at h
  unfold Fld.ofPorts
  omega

theorem loopFlds_ofLoops {p : Nat} (hp : p < 32) : ∀ G ∈ loopFlds p, G.ofLoops := by
  simp only [loopFlds, Fld.ofLoops, List.forall_mem_cons, loopKeys, List.not_mem_nil, false_imp_iff, implies_true, and_true]
  omega

theorem lastGasp_not_ofPorts : ¬ F.EVR_STAT_LASTGASP.ofPorts := by
  simp only [Fld.ofPorts, countKeys]
  omega

/-! ## The loop engine of a port -/

@[simp] theorem Dev.updLoop_loopOfPort (d : Dev) (p : Nat) (f : LoopEng → LoopEng) : (d.updLoop p f).loopOfPort p = f (d.loopOfPort p) :=
  tget_tput_self _ _ _ _

@[simp] theorem LoopEng.updBlk_blk (l : LoopEng) (b : LoopBlk) (f : LoopBlock → LoopBlock) : (l.updBlk b f).blk b = f (l.blk b) := by
  cases b <;> rfl

theorem Dev.updBlk_blk (d : Dev) (p : Nat) (b : LoopBlk) (f : LoopBlock → LoopBlock) :
    ((d.updLoop p (fun l => l.updBlk b f)).loopOfPort p).blk b = f ((d.loopOfPort p).blk b) := by
  rw [Dev.updLoop_loopOfPort, LoopEng.updBlk_blk]

@[simp] theorem Dev.loopOfPort_put (d : Dev) (G : Fld) (v p : Nat) : (d.put G v).loopOfPort p = d.loopOfPort p := rfl

theorem Dev.loopOfPort_raise (d : Dev) (c a b x y z p : Nat) : (d.raise c a b x y z).loopOfPort p = d.loopOfPort p :=
  congrArg (fun l => tget loop0 l p) (Dev.raise_loops ..)

/-! ## Changes of loop engines and their registers -/

/-- Of the device d only loop engines, register fields of fs and the recorder changed. -/
structure Dev.LoopRec (fs : List Fld) (d d' : Dev) : Prop where
  frame : d' = { d with regs := d'.regs, loops := d'.loops, evr := d'.evr }
  keeps : regsKeep fs d d'

namespace Dev.LoopRec

variable {fs gs : List Fld} {d e f : Dev}

theorem refl (d : Dev) : d.LoopRec fs d := ⟨rfl, regsKeep_refl fs d⟩

theorem trans (h : d.LoopRec fs e) (k : e.LoopRec fs f) : d.LoopRec fs f where
  frame := by
    have frame := k.frame
    rw [h.frame] at frame
    exact frame
  keeps := regsKeep_trans h.keeps k.keeps

theorem mono (h : d.LoopRec fs e) (hs : ∀ G ∈ fs, G ∈ gs) : d.LoopRec gs e := ⟨h.frame, regsKeep_mono h.keeps hs⟩

theorem updLoop (h : d.LoopRec fs e) (p : Nat) (f : LoopEng → LoopEng) : d.LoopRec fs (e.updLoop p f) :=
  h.trans ⟨rfl, regsKeep_of_regs rfl⟩

theorem put (h : d.LoopRec fs e) {G : Fld} (hG : G ∈ fs) (v : Nat) : d.LoopRec fs (e.put G v) := h.trans ⟨rfl, regsKeep_put e G v hG⟩

theorem rampBits (h : d.LoopRec fs e) {p : Nat} (hm : F.LOOPn_STAT_MP_RAMP p ∈ fs) (hs : F.LOOPn_STAT_SRC_RAMP p ∈ fs) :
    d.LoopRec fs (e.rampBits p) := (h.put hm _).put hs _

theorem raise (h : d.LoopRec fs e) (c a b x y z : Nat) : d.LoopRec (recFlds ++ fs) (e.raise c a b x y z) :=
  (h.mono (fun _ hG => List.mem_append_right _ hG)).trans
    ⟨by rw [Dev.raise_loops, ← Dev.raise_eq], regsKeep_raise _ _ _ _ _ _ _ (fun _ hG => List.mem_append_left _ hG)⟩

/-- An event that the change leads to is recorded as on the device before, and the changed registers of the loops show what they showed. -/
theorem event (h : d.LoopRec fs e) (hv : e.evr = d.evr) (hs : ∀ G ∈ fs, G.ofLoops) (c a b x y z : Nat) :
    recorded d (e.raise c a b x y z) c a b x y z ∧ d.LoopRec (recFlds ++ fs) (e.raise c a b x y z) ∧
    ∀ G ∈ fs, (e.raise c a b x y z).get G = e.get G := by
  have gasp : F.EVR_STAT_LASTGASP.key ∉ fs.map Fld.key := fun q => by
    obtain ⟨G, hG, key⟩ := List.mem_map.mp q
    exact lastGasp_not_ofPorts (by simpa only [Fld.ofPorts, key] using (hs G hG).ofPorts)
  exact ⟨Dev.raise_evr_congr _ _ _ _ _ _ _ _ hv (by rw [h.frame]) (h.keeps _ gasp), h.raise c a b x y z,
    fun G hG => Dev.get_raise _ _ _ _ _ _ _ _ (Fld.ofPorts_not_rec (hs G hG).ofPorts)⟩

end Dev.LoopRec

/-! ## RAMP_END (R194) -/

theorem exec_rampEnd (p : Port) (b : LoopBlk) (s : State) : exec (.rampEnd p b) s = .next (s.onDev (fun d => d.rampEnd p.val b)) := rfl

theorem Dev.rampBits_get (d : Dev) (p : Nat) (b : LoopBlk) :
    (d.rampBits p).get (blkRamp b p) = b2n (((d.loopOfPort p).blk b).ramp.isSome) := by
  have bit : ∀ v : Bool, b2n v % 2 ^ 1 = b2n v := by decide
  unfold Dev.rampBits
  cases b with
  | melt =>
    have apart : (F.LOOPn_STAT_SRC_RAMP p).key ≠ (F.LOOPn_STAT_MP_RAMP p).key := by
      simp only [loopKeys]
      omega
    exact (Dev.get_put_ne _ _ _ _ apart).trans ((Dev.get_put_self _ _ _).trans (bit _))
  | src => exact (Dev.get_put_self _ _ _).trans (bit _)

section
variable {d : Dev} {p : Nat} {b : LoopBlk}

/-- After the 800th P-tick of its ramp a block leaves min-select. -/
theorem Dev.rampEnd_due {k : Nat} (hr : ((d.loopOfPort p).blk b).ramp = some k) (hk : 799 ≤ k) :
    d.rampEnd p b = (d.updLoop p (fun l => l.updBlk b (fun x => { x with ramp := none }))).rampBits p := by
  simp only [Dev.rampEnd, hr, hk, if_true]

theorem Dev.rampEnd_not_due (h : ∀ k, ((d.loopOfPort p).blk b).ramp = some k → k < 799) : d.rampEnd p b = d := by
  unfold Dev.rampEnd
  split
  · exact if_neg (Nat.not_le.mpr (h _ (by assumption)))
  · rfl

theorem Dev.rampEnd_loopRec : d.LoopRec [F.LOOPn_STAT_MP_RAMP p, F.LOOPn_STAT_SRC_RAMP p] (d.rampEnd p b) := by
  by_cases h : ∀ k, ((d.loopOfPort p).blk b).ramp = some k → k < 799
  · rw [Dev.rampEnd_not_due h]
    exact .refl d
  · obtain ⟨k, hr, hk⟩ : ∃ k, ((d.loopOfPort p).blk b).ramp = some k ∧ 799 ≤ k := by simpa using h
    rw [Dev.rampEnd_due hr hk]
    exact ((Dev.LoopRec.refl d).updLoop p _).rampBits (by simp) (by simp)

end

theorem exec_rampEnd_due {p : Port} {b : LoopBlk} {s : State} {k : Nat} (hr : ((s.dev.loopOfPort p.val).blk b).ramp = some k)
    (hk : 799 ≤ k) : ∃ t : State, exec (.rampEnd p b) s = .next t ∧ ((t.dev.loopOfPort p.val).blk b).ramp = none ∧
      t.dev.get (blkRamp b p.val) = 0 ∧ t = { s with dev := { s.dev with regs := t.dev.regs, loops := t.dev.loops } } ∧
      regsKeep [F.LOOPn_STAT_MP_RAMP p.val, F.LOOPn_STAT_SRC_RAMP p.val] s.dev t.dev := by
  have keeps : regsKeep _ s.dev (s.dev.rampEnd p.val b) := Dev.rampEnd_loopRec.keeps
  have block := s.dev.updBlk_blk p.val b (fun x => { x with ramp := none })
  refine ⟨_, exec_rampEnd p b s, ?_⟩
  rw [State.onDev_dev, State.onDev]
  rw [Dev.rampEnd_due hr hk] at keeps ⊢
  exact ⟨congrArg LoopBlock.ramp block, by rw [Dev.rampBits_get, block]; rfl, rfl, keeps⟩

theorem exec_rampEnd_not_due {p : Port} {b : LoopBlk} {s : State} (h : ∀ k, ((s.dev.loopOfPort p.val).blk b).ramp = some k → k < 799) :
    exec (.rampEnd p b) s = .next s := by
  rw [exec_rampEnd, State.onDev, Dev.rampEnd_not_due h]

/-! ## FEEDBACK_REENTRY (R195) -/

theorem exec_feedbackReentry (p : Port) (b : LoopBlk) (s : State) :
    exec (.feedbackReentry p b) s = .next (s.onDev (fun d => d.reentry p.val b)) := rfl

/-- A block that has re-entered with integrator i. -/
def LoopBlock.reentered (x : LoopBlock) (i : Word) : LoopBlock :=
  { x with i := i, lost := false, ramp := none, off := false, a := chRun0, b := chRun0 }

/-- The device on which a block has re-entered with integrator i, before the event. -/
def Dev.reentered (d : Dev) (p : Nat) (b : LoopBlk) (i : Word) : Dev :=
  (((d.updLoop p (fun l => l.updBlk b (fun x => x.reentered i))).put (blkLost b p) 0).put (blkCause b p) 0).rampBits p

/-- The registers of a port in which a re-entry shows. -/
def reentryFlds (b : LoopBlk) (p : Nat) : List Fld := [F.LOOPn_STAT_MP_RAMP p, F.LOOPn_STAT_SRC_RAMP p, blkLost b p, blkCause b p]

section
variable {d : Dev} {p : Nat} {b : LoopBlk}

/-- A block that re-enters does so with integrator 0 where the P-tick before did not emit. -/
theorem Dev.reentry_due (hl : ((d.loopOfPort p).blk b).lost = true) (hv : 256 ≤ ((d.loopOfPort p).blk b).valid) :
    ∃ i, ((d.loopOfPort p).emit1 = false → i = f32Zero false) ∧
      d.reentry p b = (d.reentered p b i).raise 0x0401 (srcPort p) 1 ((d.loopOfPort p).portBlk p b) ((d.loopOfPort p).blk b).valid
        (d.get (F.LOOPn_WIN_PWR p)) := by
  unfold Dev.reentry
  dsimp only
  rw [if_pos (by simp [hl, hv])]
  refine ⟨_, fun dark => ?_, rfl⟩
  split
  · rw [dark]
    rfl
  · rfl

theorem Dev.reentry_not_due (h : ((d.loopOfPort p).blk b).lost = false ∨ ((d.loopOfPort p).blk b).valid < 256) : d.reentry p b = d := by
  refine if_neg ?_
  rcases h with h | h <;> simp [h]

variable (i : Word)

theorem Dev.reentered_blk : ((d.reentered p b i).loopOfPort p).blk b = ((d.loopOfPort p).blk b).reentered i := d.updBlk_blk p b _

theorem Dev.reentered_loopRec : d.LoopRec (reentryFlds b p) (d.reentered p b i) :=
  ((((Dev.LoopRec.refl d).updLoop p _).put (by simp [reentryFlds]) 0).put (by simp [reentryFlds]) 0).rampBits (by simp [reentryFlds])
    (by simp [reentryFlds])

theorem Dev.reentered_get : (d.reentered p b i).get (blkLost b p) = 0 ∧ (d.reentered p b i).get (blkCause b p) = 0 := by
  have apart : (blkLost b p).key ∉ [F.LOOPn_STAT_MP_RAMP p, F.LOOPn_STAT_SRC_RAMP p].map Fld.key ∧
      (blkCause b p).key ∉ [F.LOOPn_STAT_MP_RAMP p, F.LOOPn_STAT_SRC_RAMP p].map Fld.key ∧ (blkCause b p).key ≠ (blkLost b p).key := by
    cases b <;> simp [blkLost, blkCause, loopKeys]
  obtain ⟨lost, cause, both⟩ := apart
  have bits (e : Dev) : regsKeep [F.LOOPn_STAT_MP_RAMP p, F.LOOPn_STAT_SRC_RAMP p] e (e.rampBits p) :=
    ((Dev.LoopRec.refl e).rampBits (by simp) (by simp)).keeps
  exact ⟨(bits _ _ lost).trans ((Dev.get_put_ne _ _ _ _ both).trans ((Dev.get_put_self _ _ _).trans (Nat.zero_mod _))),
    (bits _ _ cause).trans ((Dev.get_put_self _ _ _).trans (Nat.zero_mod _))⟩

end

theorem reentryFlds_loop {b : LoopBlk} {p : Nat} : ∀ G ∈ reentryFlds b p, G ∈ loopFlds p := by
  cases b <;> simp [reentryFlds, loopFlds, blkLost, blkCause]

theorem exec_feedbackReentry_due {p : Port} {b : LoopBlk} {s : State} (hl : ((s.dev.loopOfPort p.val).blk b).lost = true)
    (hv : 256 ≤ ((s.dev.loopOfPort p.val).blk b).valid) :
    ∃ t : State, exec (.feedbackReentry p b) s = .next t ∧ ((t.dev.loopOfPort p.val).blk b).lost = false ∧
      ((t.dev.loopOfPort p.val).blk b).ramp = none ∧
      ((s.dev.loopOfPort p.val).emit1 = false → ((t.dev.loopOfPort p.val).blk b).i = f32Zero false) ∧
      t.dev.get (blkLost b p.val) = 0 ∧ t.dev.get (blkCause b p.val) = 0 ∧
      recorded s.dev t.dev 0x0401 (srcPort p.val) 1 ((s.dev.loopOfPort p.val).portBlk p.val b) ((s.dev.loopOfPort p.val).blk b).valid
        (s.dev.get (F.LOOPn_WIN_PWR p.val)) ∧
      t = { s with dev := { s.dev with regs := t.dev.regs, loops := t.dev.loops, evr := t.dev.evr } } ∧
      regsKeep (recFlds ++ reentryFlds b p.val) s.dev t.dev := by
  obtain ⟨i, dark, due⟩ := Dev.reentry_due hl hv
  have change : s.dev.LoopRec _ (s.dev.reentered p.val b i) := Dev.reentered_loopRec i
  obtain ⟨record, raised, shown⟩ := change.event rfl (fun G hG => loopFlds_ofLoops p.isLt G (reentryFlds_loop G hG)) 0x0401 (srcPort p.val) 1
    ((s.dev.loopOfPort p.val).portBlk p.val b) ((s.dev.loopOfPort p.val).blk b).valid (s.dev.get (F.LOOPn_WIN_PWR p.val))
  obtain ⟨lost, cause⟩ := s.dev.reentered_get (p := p.val) (b := b) i
  refine ⟨_, exec_feedbackReentry p b s, ?_⟩
  rw [State.onDev_dev, State.onDev, due, Dev.loopOfPort_raise, Dev.reentered_blk]
  exact ⟨rfl, rfl, dark, (shown _ (by simp [reentryFlds])).trans lost, (shown _ (by simp [reentryFlds])).trans cause, record,
    congrArg (fun d => { s with dev := d }) raised.frame, raised.keeps⟩

theorem exec_feedbackReentry_not_due {p : Port} {b : LoopBlk} {s : State}
    (h : ((s.dev.loopOfPort p.val).blk b).lost = false ∨ ((s.dev.loopOfPort p.val).blk b).valid < 256) :
    exec (.feedbackReentry p b) s = .next s := by
  rw [exec_feedbackReentry, State.onDev, Dev.reentry_not_due h]

/-! ## YOYO_RUN_END (R204) -/

theorem exec_yoyoRunEnd (p : Port) (s : State) : exec (.yoyoRunEnd p) s = .next (s.onDev (fun d => d.yoyoEnd p.val)) := rfl

/-- The device on which the Yo-yo run of a port has ended, before the event. -/
def Dev.yoyoOver (d : Dev) (p : Nat) : Dev :=
  ((d.updLoop p (fun l => { l with yy := none, yyLive := false })).put (F.LOOPn_STAT_YY_RUN p) 0).put (F.LOOPn_YY_CTRL_ARM p) 0

section
variable {d : Dev} {p : Nat}

theorem Dev.yoyoEnd_due {r : YyRun} (hr : (d.loopOfPort p).yy = some r) (hk : d.get (F.LOOPn_YY_LEN_LEN p) ≤ r.k) :
    d.yoyoEnd p = (d.yoyoOver p).raise 0x0406 (srcPort p) 0 (pair8 p (d.get (F.LOOPn_YY_CTRL_MODE p))) 1 d.tick.toNat := by
  simp only [Dev.yoyoEnd, hr, hk, if_true]
  rfl

theorem Dev.yoyoEnd_not_due (h : ∀ r, (d.loopOfPort p).yy = some r → r.k < d.get (F.LOOPn_YY_LEN_LEN p)) : d.yoyoEnd p = d := by
  unfold Dev.yoyoEnd
  split
  · rfl
  · exact if_neg (Nat.not_le.mpr (h _ (by assumption)))

theorem Dev.yoyoOver_loopRec : d.LoopRec [F.LOOPn_STAT_YY_RUN p, F.LOOPn_YY_CTRL_ARM p] (d.yoyoOver p) :=
  (((Dev.LoopRec.refl d).updLoop p _).put (by simp) 0).put (by simp) 0

theorem Dev.yoyoOver_yy : ((d.yoyoOver p).loopOfPort p).yy = none := by simp [Dev.yoyoOver]

theorem Dev.yoyoOver_get : (d.yoyoOver p).get (F.LOOPn_STAT_YY_RUN p) = 0 ∧ (d.yoyoOver p).get (F.LOOPn_YY_CTRL_ARM p) = 0 := by
  have apart : (F.LOOPn_YY_CTRL_ARM p).key ≠ (F.LOOPn_STAT_YY_RUN p).key := by
    simp only [loopKeys]
    omega
  exact ⟨(Dev.get_put_ne _ _ _ _ apart).trans (Dev.get_put_self _ _ _), Dev.get_put_self _ _ _⟩

end

theorem exec_yoyoRunEnd_due {p : Port} {s : State} {r : YyRun} (hr : (s.dev.loopOfPort p.val).yy = some r)
    (hk : s.dev.get (F.LOOPn_YY_LEN_LEN p.val) ≤ r.k) :
    ∃ t : State, exec (.yoyoRunEnd p) s = .next t ∧ (t.dev.loopOfPort p.val).yy = none ∧
      t.dev.get (F.LOOPn_STAT_YY_RUN p.val) = 0 ∧ t.dev.get (F.LOOPn_YY_CTRL_ARM p.val) = 0 ∧
      recorded s.dev t.dev 0x0406 (srcPort p.val) 0 (pair8 p.val (s.dev.get (F.LOOPn_YY_CTRL_MODE p.val))) 1 s.dev.tick.toNat ∧
      t = { s with dev := { s.dev with regs := t.dev.regs, loops := t.dev.loops, evr := t.dev.evr } } ∧
      regsKeep (recFlds ++ [F.LOOPn_STAT_YY_RUN p.val, F.LOOPn_YY_CTRL_ARM p.val]) s.dev t.dev := by
  have change : s.dev.LoopRec _ (s.dev.yoyoOver p.val) := Dev.yoyoOver_loopRec
  obtain ⟨record, raised, shown⟩ := change.event rfl
    (fun G hG => loopFlds_ofLoops p.isLt G (by revert hG; simp only [loopFlds, List.mem_cons]; tauto)) 0x0406 (srcPort p.val) 0
    (pair8 p.val (s.dev.get (F.LOOPn_YY_CTRL_MODE p.val))) 1 s.dev.tick.toNat
  obtain ⟨run, arm⟩ := s.dev.yoyoOver_get (p := p.val)
  refine ⟨_, exec_yoyoRunEnd p s, ?_⟩
  rw [State.onDev_dev, State.onDev, Dev.yoyoEnd_due hr hk, Dev.loopOfPort_raise]
  exact ⟨Dev.yoyoOver_yy, (shown _ (by simp)).trans run, (shown _ (by simp)).trans arm, record,
    congrArg (fun d => { s with dev := d }) raised.frame, raised.keeps⟩

theorem exec_yoyoRunEnd_not_due {p : Port} {s : State}
    (h : ∀ r, (s.dev.loopOfPort p.val).yy = some r → r.k < s.dev.get (F.LOOPn_YY_LEN_LEN p.val)) : exec (.yoyoRunEnd p) s = .next s := by
  rw [exec_yoyoRunEnd, State.onDev, Dev.yoyoEnd_not_due h]

/-! ## CAPTURE_END (R207) -/

theorem exec_captureEnd (p : Port) (s : State) : exec (.captureEnd p) s = .next (s.onDev (fun d => d.captureEnd p.val)) := rfl

/-- The device on which the capture of a port has ended, before the event. -/
def Dev.captured (d : Dev) (p : Nat) : Dev :=
  ((d.updLoop p (fun l => { l with cap := .idle })).put (F.LOOPn_STAT_CAP_BUSY p) 0).put (F.LOOPn_STAT_CAP_DONE p) 1

section
variable {d : Dev} {p : Nat}

theorem Dev.captureEnd_due (hr : (d.loopOfPort p).cap = .running)
    (hk : d.get (F.LOOPn_CAP_LEN_LEN p) ≤ d.get (F.LOOPn_CAP_WR_COUNT p)) :
    d.captureEnd p = ((d.captured p).raise 0x0407 (srcPort p) 0 p (d.get (F.LOOPn_CAP_WR_COUNT p)) d.tick.toNat).attn .capture := by
  unfold Dev.captureEnd
  rw [if_pos (by simp [hr, hk])]
  rfl

theorem Dev.captureEnd_not_due (h : (d.loopOfPort p).cap ≠ .running ∨ d.get (F.LOOPn_CAP_WR_COUNT p) < d.get (F.LOOPn_CAP_LEN_LEN p)) :
    d.captureEnd p = d := by
  refine if_neg ?_
  rcases h with h | h <;> simp [h]

theorem Dev.captured_loopRec : d.LoopRec [F.LOOPn_STAT_CAP_BUSY p, F.LOOPn_STAT_CAP_DONE p] (d.captured p) :=
  (((Dev.LoopRec.refl d).updLoop p _).put (by simp) 0).put (by simp) 1

theorem Dev.captured_cap : ((d.captured p).loopOfPort p).cap = .idle := by simp [Dev.captured]

theorem Dev.captured_get : (d.captured p).get (F.LOOPn_STAT_CAP_BUSY p) = 0 ∧ (d.captured p).get (F.LOOPn_STAT_CAP_DONE p) = 1 := by
  have apart : (F.LOOPn_STAT_CAP_DONE p).key ≠ (F.LOOPn_STAT_CAP_BUSY p).key := by
    simp only [loopKeys]
    omega
  exact ⟨(Dev.get_put_ne _ _ _ _ apart).trans (Dev.get_put_self _ _ _), Dev.get_put_self _ _ _⟩

/-- A latched attention cause shows in HST_ATTN. -/
theorem Dev.attn_capture_bit (d : Dev) : bitAt ((d.attn .capture).get F.HST_ATTN_CAUSE) 4 = true := by
  rw [Dev.attn_eq, Dev.get_put_self]
  show bitAt (bitPut (d.get F.HST_ATTN_CAUSE) 4 true % 2 ^ 15) 4 = true
  unfold bitPut
  by_cases set : bitAt (d.get F.HST_ATTN_CAUSE) 4 = true
  · rw [if_pos (by simp [set])]
    revert set
    simp only [bitAt, beq_iff_eq]
    omega
  · rw [if_neg (by simpa using set), if_pos rfl]
    revert set
    simp only [bitAt, beq_iff_eq]
    omega

end

theorem exec_captureEnd_due {p : Port} {s : State} (hr : (s.dev.loopOfPort p.val).cap = .running)
    (hk : s.dev.get (F.LOOPn_CAP_LEN_LEN p.val) ≤ s.dev.get (F.LOOPn_CAP_WR_COUNT p.val)) :
    ∃ t : State, exec (.captureEnd p) s = .next t ∧ (t.dev.loopOfPort p.val).cap = .idle ∧
      t.dev.get (F.LOOPn_STAT_CAP_BUSY p.val) = 0 ∧ t.dev.get (F.LOOPn_STAT_CAP_DONE p.val) = 1 ∧
      bitAt (t.dev.get F.HST_ATTN_CAUSE) 4 = true ∧
      recorded s.dev t.dev 0x0407 (srcPort p.val) 0 p.val (s.dev.get (F.LOOPn_CAP_WR_COUNT p.val)) s.dev.tick.toNat ∧
      t = { s with dev := { s.dev with regs := t.dev.regs, loops := t.dev.loops, evr := t.dev.evr } } ∧
      regsKeep (recFlds ++ [F.LOOPn_STAT_CAP_BUSY p.val, F.LOOPn_STAT_CAP_DONE p.val]) s.dev t.dev := by
  have change : s.dev.LoopRec _ (s.dev.captured p.val) := Dev.captured_loopRec
  have loops : ∀ G ∈ [F.LOOPn_STAT_CAP_BUSY p.val, F.LOOPn_STAT_CAP_DONE p.val], G.ofLoops :=
    fun G hG => loopFlds_ofLoops p.isLt G (by revert hG; simp only [loopFlds, List.mem_cons]; tauto)
  obtain ⟨record, raised, shown⟩ := change.event rfl loops 0x0407 (srcPort p.val) 0 p.val (s.dev.get (F.LOOPn_CAP_WR_COUNT p.val))
    s.dev.tick.toNat
  have attention := raised.put (G := F.HST_ATTN_CAUSE) (by simp [recFlds])
  have books : ¬ F.HST_ATTN_CAUSE.ofPorts := by simp
  obtain ⟨busy, done⟩ := s.dev.captured_get (p := p.val)
  refine ⟨_, exec_captureEnd p s, ?_⟩
  rw [State.onDev_dev, State.onDev, Dev.captureEnd_due hr hk]
  rw [Dev.attn_eq, Dev.loopOfPort_put, Dev.loopOfPort_raise]
  exact ⟨Dev.captured_cap, (Dev.get_put_books _ _ books (loops _ (by simp)).ofPorts).trans ((shown _ (by simp)).trans busy),
    (Dev.get_put_books _ _ books (loops _ (by simp)).ofPorts).trans ((shown _ (by simp)).trans done), Dev.attn_capture_bit _, record,
    congrArg (fun d => { s with dev := d }) (attention _).frame, (attention _).keeps⟩

theorem exec_captureEnd_not_due {p : Port} {s : State} (h : (s.dev.loopOfPort p.val).cap ≠ .running ∨
    s.dev.get (F.LOOPn_CAP_WR_COUNT p.val) < s.dev.get (F.LOOPn_CAP_LEN_LEN p.val)) : exec (.captureEnd p) s = .next s := by
  rw [exec_captureEnd, State.onDev, Dev.captureEnd_not_due h]

/-! ## The rows -/

/-- Settles O31: a row that is due changes its loop engine and the registers that show it, with the event of its end; one that is not due leaves
the device as it is. -/
theorem loopBlocksAndRunsEnd : Obligations.LoopBlocksAndRunsEnd := by
  unfold Obligations.LoopBlocksAndRunsEnd
  refine ⟨fun p b s => ⟨fun k hr hk => exec_rampEnd_due hr hk, fun k hr hk => exec_rampEnd_not_due (fun j hj => ?_),
    fun hr => exec_rampEnd_not_due (fun j hj => ?_)⟩, fun p b s => ⟨exec_feedbackReentry_due, exec_feedbackReentry_not_due⟩,
    fun p s => ⟨fun r => exec_yoyoRunEnd_due, fun r hr hk => exec_yoyoRunEnd_not_due (fun q hq => ?_),
      fun hr => exec_yoyoRunEnd_not_due (fun q hq => ?_), exec_captureEnd_due, exec_captureEnd_not_due⟩⟩
  · exact Option.some.inj (hr.symm.trans hj) ▸ hk
  · exact absurd (hr.symm.trans hj) (by simp)
  · exact Option.some.inj (hr.symm.trans hq) ▸ hk
  · exact absurd (hr.symm.trans hq) (by simp)

end Sys2Proof.Machine

/-! # P-ticks (07_power_loops.md R173, R189, R207; 06_beam_ports.md R161, R162)

A P-tick notes the samples, runs each port in use, and moves on to the next P-tick; the record of a capture lands at the end of the row. What runs on
a port before its frame goes out leaves the port as it is (`Dev.BeforeFrame`). A port without a pair and a port whose loop has no descriptor and
emits nothing then do the same: they rest (`LoopEng.rest`), and their frame carries no power (`Dev.DarkTick`). -/

namespace Sys2Proof.Machine

open Sys2Proof.Safety

/-! ## What the DRAM writes of a row can change beside DRAM (R321, R331, R334) -/

/-- Of the device d only what a DRAM write brings about changed: the recorder, the DRAM channels, the free values drawn, and registers that are not
those of ports, pairs, loops and sensing. -/
structure Dev.Written (d d' : Dev) : Prop where
  frame : d' = { d with regs := d'.regs, evr := d'.evr, ddr := d'.ddr, freeCtr := d'.freeCtr }
  ports : ∀ G : Fld, G.ofPorts → d'.get G = d.get G

namespace Dev.Written

theorem refl (d : Dev) : d.Written d := ⟨rfl, fun _ _ => rfl⟩

theorem trans {a b c : Dev} (h : a.Written b) (k : b.Written c) : a.Written c where
  frame := by
    have frame := k.frame
    rw [h.frame] at frame
    exact frame
  ports := fun G hG => (k.ports G hG).trans (h.ports G hG)

theorem same {d d' : Dev} (h : d.Written d') : d'.sub = d.sub ∧ d'.tick = d.tick ∧ d'.time = d.time ∧ d'.eng = d.eng ∧ d'.prt = d.prt ∧
    d'.loops = d.loops := by
  rw [h.frame]
  exact ⟨rfl, rfl, rfl, rfl, rfl, rfl⟩

theorem raise (d : Dev) (c a b x y z : Nat) : d.Written (d.raise c a b x y z) :=
  ⟨by rw [Dev.raise_ddr, Dev.raise_freeCtr, ← Dev.raise_eq], fun _ hG => Dev.get_raise _ _ _ _ _ _ _ _ (Fld.ofPorts_not_rec hG)⟩

theorem touchAll (d : Dev) (a : Nat) : d.Written (d.touchAll a) := by
  obtain ⟨frame, keeps⟩ := d.wakeOnly_touchAll a
  have away : ∀ k ∈ wakeFlds.map Fld.key, 0x241000 * 32 ≤ k := by decide
  refine ⟨by rw [frame], fun G hG => keeps G (fun q => ?_)⟩
  have := away _ q
  unfold Fld.ofPorts at hG
  omega

theorem dropWrite (d : Dev) (src a : Nat) : d.Written (d.dropWrite src a) := by
  have count : ¬ (F.DDR_CHc_LOST_WR_COUNT (d.serving a)).ofPorts := by
    simp only [Fld.ofPorts, Fld.key, F.DDR_CHc_LOST_WR_COUNT]
    omega
  have counted : d.Written (d.bump (F.DDR_CHc_LOST_WR_COUNT (d.serving a))) := ⟨rfl, fun _ hG => d.get_put_books _ count hG⟩
  unfold Dev.dropWrite
  dsimp only
  split
  · exact counted.trans ⟨rfl, fun _ _ => rfl⟩
  · exact counted

end Dev.Written

theorem State.writePart_written (src : Nat) (s : State) (x : Nat × List Byte) : s.dev.Written (s.writePart src x).dev := by
  unfold State.writePart
  split
  · exact .dropWrite s.dev src x.1
  · exact .touchAll s.dev x.1

theorem State.dramWrite_written (s : State) (src a : Nat) (bs : List Byte) : s.dev.Written (s.dramWrite src a bs).1.dev := by
  unfold State.dramWrite
  split
  · exact .raise s.dev ..
  · split
    · exact List.foldlRecOn (motive := fun t : State => s.dev.Written t.dev) _ _ (.refl s.dev)
        (fun t ht x _ => ht.trans (t.writePart_written src x))
    · exact .touchAll s.dev a

theorem State.writes_written (l : List MemWr) : ∀ s : State,
    s.dev.Written (l.foldl (fun s w => (s.dramWrite w.src w.addr w.data).1) s).dev := by
  induction l with
  | nil => exact fun s => .refl s.dev
  | cons w l ih => exact fun s => (s.dramWrite_written w.src w.addr w.data).trans (ih _)

/-- The writes of a row leave what `Dev.Written` says. -/
theorem State.flushWr_written (s : State) : s.settled.dev.Written s.flushWr.dev := State.writes_written s.dev.wq s.settled

/-! ## The samples (R210, R238) -/

/-- The register fields that show the samples of channel c. -/
def chanFlds (c : Nat) : List Fld := [F.SNS_CHc_STAT_MISS c, F.SNS_CHc_RAW_CODE c, F.SNS_CHc_STAT_SAT c]

/-- Of the device d only register fields of fs changed. -/
structure Dev.RegsOnly (fs : List Fld) (d d' : Dev) : Prop where
  frame : d' = { d with regs := d'.regs }
  keeps : regsKeep fs d d'

namespace Dev.RegsOnly

variable {fs : List Fld} {d e f : Dev}

theorem refl (d : Dev) : d.RegsOnly fs d := ⟨rfl, regsKeep_refl fs d⟩

theorem trans (h : d.RegsOnly fs e) (k : e.RegsOnly fs f) : d.RegsOnly fs f where
  frame := by
    have frame := k.frame
    rw [h.frame] at frame
    exact frame
  keeps := regsKeep_trans h.keeps k.keeps

theorem put (h : d.RegsOnly fs e) {G : Fld} (hG : G ∈ fs) (v : Nat) : d.RegsOnly fs (e.put G v) := h.trans ⟨rfl, regsKeep_put e G v hG⟩

theorem pdNote (h : d.RegsOnly fs e) {c : Nat} (hc : ∀ G ∈ chanFlds c, G ∈ fs) (v : PdVal) : d.RegsOnly fs (e.pdNote c v) := by
  obtain ⟨miss, raw, sat⟩ : F.SNS_CHc_STAT_MISS c ∈ fs ∧ F.SNS_CHc_RAW_CODE c ∈ fs ∧ F.SNS_CHc_STAT_SAT c ∈ fs :=
    ⟨hc _ (by simp [chanFlds]), hc _ (by simp [chanFlds]), hc _ (by simp [chanFlds])⟩
  unfold Dev.pdNote
  split
  · exact h
  · split
    · exact h.put miss _
    · dsimp only
      split
      · exact (h.put raw _).put sat _
      · exact h.put raw _

end Dev.RegsOnly

theorem Variant.ports_le (v : Variant) : v.ports ≤ 32 := by cases v <;> decide

theorem pdFlds_chan {c : Nat} (hc : c < 64) : ∀ G ∈ chanFlds c, G ∈ pdFlds :=
  fun _ hG => List.mem_flatMap.mpr ⟨c, List.mem_range.mpr hc, hG⟩

/-- Noting the samples shows them, in the registers of the channels alone. -/
theorem Dev.pdNotes_regsOnly (d : Dev) (pds : List PdSample) : d.RegsOnly pdFlds (d.pdNotes pds) := by
  refine List.foldlRecOn (motive := d.RegsOnly pdFlds) _ _ (.refl d) (fun e he c hc => ?_)
  have channel : c < 64 := by
    have := List.mem_range.mp hc
    have := d.variant.ports_le
    omega
  split
  · exact he.pdNote (pdFlds_chan channel) _
  · exact he

/-- Where no port is in use and the row lists no channel nothing is noted. -/
theorem Dev.pdNotes_none {d : Dev} (hp : portsInUse (d.sections false) = []) : d.pdNotes [] = d := by
  refine List.foldlRecOn (motive := fun e => e = d) _ _ rfl (fun e he c _ => ?_)
  rw [hp]
  exact he

/-! ## The P-tick (R173, R32) -/

/-- The ports where the P-tick is over: a T-tick has passed after its last P-tick. -/
def Dev.portsAfter (d : Dev) (sub : Fin 4) : Table Prt :=
  if sub == 3 then d.prt.map (fun (x : Nat × Prt) => (x.1, x.2.tickOver)) else d.prt

/-- The device e, on which every port in use has run, as the P-tick of device d leaves it. -/
def Dev.pTickOver (d e : Dev) : Dev :=
  { e with time := d.time, sub := d.sub + 1, sys := { e.sys with lost := [] }, prt := e.portsAfter d.sub }

theorem Dev.pTick_eq (d : Dev) (m : Dram) (pds : List PdSample) :
    d.pTick m pds = d.pTickOver ((portsInUse (d.sections false)).foldl (fun d p => d.portPTick m pds p) (d.atSub.pdNotes pds)) := by
  unfold Dev.pTick Dev.pTickOver Dev.portsAfter
  dsimp only
  split <;> rfl

/-- What the end of a T-tick leaves of a port alone. -/
theorem Dev.portsAfter_get {α : Type} {f : Prt → α} (hf : ∀ x : Prt, f x.tickOver = f x) (d : Dev) (sub : Fin 4) (p : Nat) :
    f (tget prt0 (d.portsAfter sub) p) = f (d.prtOf p) := by
  have listed (l : Table Prt) : f (tget prt0 (l.map (fun (x : Nat × Prt) => (x.1, x.2.tickOver))) p) = f (tget prt0 l p) := by
    induction l with
    | nil => rfl
    | cons x l ih =>
      obtain ⟨k, x⟩ := x
      rw [List.map_cons, tget, tget]
      split
      · exact hf x
      · exact ih
  unfold Dev.portsAfter
  split
  · exact listed d.prt
  · rfl

theorem exec_pTick (l : List PdSample) (s : State) : exec (.pTick l) s = .next (s.runDev (fun d m => d.pTick m l)) := rfl

theorem exec_pTick_no_ports {l : List PdSample} {s : State} (hp : portsInUse (s.dev.sections false) = []) :
    ∃ t : State, exec (.pTick l) s = .next t ∧ t.dev.sub = s.dev.sub + 1 ∧
      t = { s with dev := { s.dev with regs := t.dev.regs, sub := t.dev.sub, prt := t.dev.prt, sys := { s.dev.sys with lost := [] },
                                       wq := [] } } ∧
      (l = [] → t.dev.regs = s.dev.regs) ∧ regsKeep pdFlds s.dev t.dev ∧ (s.dev.sub.val < 3 → t.dev.prt = s.dev.prt) := by
  have tick := s.settled.dev.pTick_eq s.mem l
  rw [show portsInUse (s.settled.dev.sections false) = [] from hp, List.foldl_nil] at tick
  obtain ⟨frame, keeps⟩ := s.settled.dev.atSub.pdNotes_regsOnly l
  have noted : s.settled.dev.pTick s.mem l = { s.dev with
      regs := (s.settled.dev.atSub.pdNotes l).regs, sub := s.dev.sub + 1, prt := s.dev.portsAfter s.dev.sub,
      sys := { s.dev.sys with lost := [] }, wq := [] } := by
    rw [tick, Dev.pTickOver, frame]
    rfl
  refine ⟨_, (exec_pTick l s).trans (congrArg Host.Outcome.next (State.runDev_noWrites s _ (by rw [noted]))), ?_⟩
  rw [noted]
  refine ⟨rfl, rfl, fun empty => ?_, fun G hG => keeps G hG, fun early => if_neg ?_⟩
  · rw [empty, Dev.pdNotes_none (d := s.settled.dev.atSub) hp]
    rfl
  · have : s.dev.sub ≠ 3 := fun q => by simp [q] at early
    simpa using this

/-! ## Rows that are due before a P-tick (R194, R195, R204, R207) -/

/-- The registers that the rows of a port change: the recorder's, and those of its loop engine. -/
def dueFlds (p : Nat) : List Fld := recFlds ++ loopFlds p

theorem recFlds_due {p : Nat} {gs : List Fld} (h : ∀ G ∈ gs, G ∈ loopFlds p) : ∀ G ∈ recFlds ++ gs, G ∈ dueFlds p := fun G hG =>
  List.mem_append.mpr ((List.mem_append.mp hG).imp_right (h G))

section
variable (d : Dev) (p : Nat)

theorem Dev.rampEnd_loopRec_due (b : LoopBlk) : d.LoopRec (dueFlds p) (d.rampEnd p b) :=
  Dev.rampEnd_loopRec.mono (fun G hG => recFlds_due (gs := [F.LOOPn_STAT_MP_RAMP p, F.LOOPn_STAT_SRC_RAMP p])
    (by simp [loopFlds]) G (List.mem_append_right _ hG))

theorem Dev.reentry_loopRec (b : LoopBlk) : d.LoopRec (dueFlds p) (d.reentry p b) := by
  by_cases h : ((d.loopOfPort p).blk b).lost = true ∧ 256 ≤ ((d.loopOfPort p).blk b).valid
  · obtain ⟨i, -, due⟩ := Dev.reentry_due h.1 h.2
    rw [due]
    exact ((Dev.reentered_loopRec i).raise ..).mono (recFlds_due reentryFlds_loop)
  · rw [Dev.reentry_not_due (by simpa [or_iff_not_imp_left] using h)]
    exact .refl d

theorem Dev.yoyoEnd_loopRec : d.LoopRec (dueFlds p) (d.yoyoEnd p) := by
  by_cases h : ∃ r, (d.loopOfPort p).yy = some r ∧ d.get (F.LOOPn_YY_LEN_LEN p) ≤ r.k
  · obtain ⟨r, hr, hk⟩ := h
    rw [Dev.yoyoEnd_due hr hk]
    exact (Dev.yoyoOver_loopRec.raise ..).mono (recFlds_due (by simp [loopFlds]))
  · rw [Dev.yoyoEnd_not_due (by simpa using h)]
    exact .refl d

theorem Dev.captureEnd_loopRec : d.LoopRec (dueFlds p) (d.captureEnd p) := by
  by_cases h : (d.loopOfPort p).cap = .running ∧ d.get (F.LOOPn_CAP_LEN_LEN p) ≤ d.get (F.LOOPn_CAP_WR_COUNT p)
  · rw [Dev.captureEnd_due h.1 h.2]
    exact ((Dev.captured_loopRec.raise ..).mono (recFlds_due (by simp [loopFlds]))).put (by simp [dueFlds, recFlds]) _
  · rw [Dev.captureEnd_not_due (by simpa [or_iff_not_imp_left] using h)]
    exact .refl d

theorem Dev.loopDue_loopRec : d.LoopRec (dueFlds p) (d.loopDue p) :=
  (((((d.rampEnd_loopRec_due p .melt).trans (Dev.rampEnd_loopRec_due _ p .src)).trans (Dev.reentry_loopRec _ p .melt)).trans
    (Dev.reentry_loopRec _ p .src)).trans (Dev.yoyoEnd_loopRec _ p)).trans (Dev.captureEnd_loopRec _ p)

end

/-- Nothing runs in a loop engine that would end: no ramp, no lost block, no Yo-yo run and no capture. -/
structure LoopEng.Quiet (l : LoopEng) : Prop where
  meltRamp : l.melt.ramp = none
  srcRamp : l.src.ramp = none
  meltLost : l.melt.lost = false
  srcLost : l.src.lost = false
  yy : l.yy = none
  cap : l.cap ≠ .running

theorem LoopEng.Quiet.blk {l : LoopEng} (h : l.Quiet) (b : LoopBlk) : (l.blk b).ramp = none ∧ (l.blk b).lost = false := by
  cases b with
  | melt => exact ⟨h.meltRamp, h.meltLost⟩
  | src => exact ⟨h.srcRamp, h.srcLost⟩

/-- In a quiet loop engine no row is due. -/
theorem Dev.loopDue_quiet {d : Dev} {p : Nat} (h : (d.loopOfPort p).Quiet) : d.loopDue p = d := by
  have ramp (b : LoopBlk) : d.rampEnd p b = d := Dev.rampEnd_not_due (by simp [(h.blk b).1])
  have back (b : LoopBlk) : d.reentry p b = d := Dev.reentry_not_due (.inl (h.blk b).2)
  rw [Dev.loopDue, ramp, ramp, back, back, Dev.yoyoEnd_not_due (by simp [h.yy]), Dev.captureEnd_not_due (.inl h.cap)]

/-! ## Before the frame goes out -/

/-- Of the device d only the time, loop engines, the recorder, the free values drawn, the waiting writes, and registers of loops and sensing or
outside the ports and pairs changed. -/
structure Dev.BeforeFrame (d d' : Dev) : Prop where
  frame : d' = { d with time := d'.time, regs := d'.regs, loops := d'.loops, evr := d'.evr, freeCtr := d'.freeCtr, wq := d'.wq }
  ports : ∀ G : Fld, G.ofPorts → ¬ G.ofLoops → d'.get G = d.get G

theorem pdFlds_ofLoops : ∀ G ∈ pdFlds, G.ofLoops := by
  have channel : ∀ c < 64, ∀ G ∈ chanFlds c, G.ofLoops := by
    intro c hc
    simp only [chanFlds, List.forall_mem_cons, Fld.ofLoops, Fld.key, F.SNS_CHc_STAT_MISS, F.SNS_CHc_RAW_CODE, F.SNS_CHc_STAT_SAT,
      List.not_mem_nil, false_imp_iff, implies_true, and_true]
    omega
  intro G hG
  obtain ⟨c, hc, hG⟩ := List.mem_flatMap.mp hG
  exact channel c (List.mem_range.mp hc) G hG

theorem winFlds_ofLoops {p : Nat} (hp : p < 32) : (F.LOOPn_WIN_PWR p).ofLoops ∧ (F.LOOPn_WIN_CLASS p).ofLoops ∧
    (F.LOOPn_CAP_WR_COUNT p).ofLoops := by
  simp only [Fld.ofLoops, loopKeys]
  omega

namespace Dev.BeforeFrame

variable {d e f : Dev}

theorem refl (d : Dev) : d.BeforeFrame d := ⟨rfl, fun _ _ _ => rfl⟩

theorem trans (h : d.BeforeFrame e) (k : e.BeforeFrame f) : d.BeforeFrame f where
  frame := by
    have frame := k.frame
    rw [h.frame] at frame
    exact frame
  ports := fun G hG hL => (k.ports G hG hL).trans (h.ports G hG hL)

theorem of_regsKeep {fs : List Fld}
    (hf : e = { d with time := e.time, regs := e.regs, loops := e.loops, evr := e.evr, freeCtr := e.freeCtr, wq := e.wq })
    (hk : regsKeep fs d e) (hs : ∀ G ∈ fs, G.ofPorts → G.ofLoops) : d.BeforeFrame e :=
  ⟨hf, fun G hG hL => hk G (fun q => by
    obtain ⟨F, hF, key⟩ := List.mem_map.mp q
    have loops := hs F hF (by simpa only [Fld.ofPorts, key] using hG)
    exact hL (by simpa only [Fld.ofLoops, key] using loops))⟩

theorem put (h : d.BeforeFrame e) {G : Fld} (hG : G.ofLoops) (v : Nat) : d.BeforeFrame (e.put G v) :=
  h.trans (of_regsKeep rfl (regsKeep_put e G v (List.mem_singleton_self G)) (by simpa using fun _ => hG))

theorem updLoop (h : d.BeforeFrame e) (p : Nat) (f : LoopEng → LoopEng) : d.BeforeFrame (e.updLoop p f) :=
  h.trans (of_regsKeep (fs := []) rfl (regsKeep_of_regs rfl) (by simp))

theorem samples (d : Dev) (pds : List PdSample) : d.BeforeFrame (d.atSub.pdNotes pds) := by
  obtain ⟨frame, keeps⟩ := d.atSub.pdNotes_regsOnly pds
  exact of_regsKeep (by rw [frame]; rfl) (fun G hG => keeps G hG) (fun G hG _ => pdFlds_ofLoops G hG)

theorem loopDue (h : d.BeforeFrame e) {p : Nat} (hp : p < 32) : d.BeforeFrame (e.loopDue p) := by
  obtain ⟨frame, keeps⟩ := e.loopDue_loopRec p
  refine h.trans (of_regsKeep (by rw [frame]) keeps (fun G hG ports => ?_))
  rcases List.mem_append.mp hG with rec | loop
  · exact absurd (List.mem_map_of_mem rec) (Fld.ofPorts_not_rec ports)
  · exact loopFlds_ofLoops hp G loop

theorem winReg (h : d.BeforeFrame e) {p : Nat} (hp : p < 32) : d.BeforeFrame (e.winReg p 0 none) := by
  obtain ⟨pwr, cls, -⟩ := winFlds_ofLoops hp
  exact (h.put pwr 0).put cls 7

theorem capWrite (h : d.BeforeFrame e) {p : Nat} (hp : p < 32) (o : LoopOut) (c : PCtx) (yyOn : Bool) :
    d.BeforeFrame (e.capWrite p o c yyOn) := by
  obtain ⟨-, -, count⟩ := winFlds_ofLoops hp
  unfold Dev.capWrite
  split
  · have queued (w : List MemWr) (n : Nat) : d.BeforeFrame { e with wq := w, freeCtr := n } :=
      h.trans (of_regsKeep (fs := []) rfl (regsKeep_of_regs rfl) (by simp))
    exact (queued _ _).put count _
  · exact h

end Dev.BeforeFrame

/-! ## A frame without power (R161, R162, R189) -/

@[simp] theorem Dev.updPrt_prtOf (d : Dev) (p : Nat) (f : Prt → Prt) : (d.updPrt p f).prtOf p = f (d.prtOf p) := tget_tput_self _ _ _ _

/-- The registers on which a port's being in service rests (R240). -/
def serviceFlds (p : Nat) : List Fld :=
  [F.BEAMn_PSTAT_ATTACHED p, F.BEAMn_PSTAT_LINK p, F.BEAMn_TSTAT_NOGRID p, F.HND_Pn_STAT_STATE p]

theorem serviceFlds_places {p : Nat} (hp : p < 32) : ∀ G ∈ serviceFlds p, G.ofPorts ∧ ¬ G.ofLoops := by
  have nogrid : (F.BEAMn_TSTAT_NOGRID p).key = (0x100000 + p * 0x2000) * 32 + 3 := rfl
  simp only [serviceFlds, List.forall_mem_cons, Fld.ofPorts, Fld.ofLoops, portKeys, nogrid, List.not_mem_nil, false_imp_iff, implies_true,
    and_true]
  omega

theorem Dev.inService_congr {d e : Dev} {p : Nat} (hc : e.calSettled p = d.calSettled p) (hk : ∀ G ∈ serviceFlds p, e.get G = d.get G) :
    e.inService p = d.inService p := by
  obtain ⟨attached, link, nogrid, state⟩ : e.get (F.BEAMn_PSTAT_ATTACHED p) = d.get (F.BEAMn_PSTAT_ATTACHED p) ∧
      e.get (F.BEAMn_PSTAT_LINK p) = d.get (F.BEAMn_PSTAT_LINK p) ∧ e.get (F.BEAMn_TSTAT_NOGRID p) = d.get (F.BEAMn_TSTAT_NOGRID p) ∧
      e.get (F.HND_Pn_STAT_STATE p) = d.get (F.HND_Pn_STAT_STATE p) := by
    simpa [serviceFlds] using hk
  simp only [Dev.inService, Dev.portUp, Dev.flag_eq, hc, attached, link, nogrid, state]

namespace Dev.BeforeFrame

variable {d e : Dev} (h : d.BeforeFrame e) {p : Nat} (hp : p < 32)
include h hp

theorem service : ∀ G ∈ serviceFlds p, e.get G = d.get G := fun G hG =>
  h.ports G (serviceFlds_places hp G hG).1 (serviceFlds_places hp G hG).2

theorem inService : e.inService p = d.inService p := Dev.inService_congr (by rw [h.frame]; rfl) (h.service hp)

theorem attached : e.get (F.BEAMn_PSTAT_ATTACHED p) = d.get (F.BEAMn_PSTAT_ATTACHED p) := h.service hp _ (List.mem_cons_self ..)

end Dev.BeforeFrame

theorem Dev.winReg_none_get (d : Dev) (p : Nat) :
    (d.winReg p 0 none).get (F.LOOPn_WIN_PWR p) = 0 ∧ (d.winReg p 0 none).get (F.LOOPn_WIN_CLASS p) = 7 := by
  have apart : (F.LOOPn_WIN_CLASS p).key ≠ (F.LOOPn_WIN_PWR p).key := by
    simp only [loopKeys]
    omega
  exact ⟨(Dev.get_put_ne _ _ _ _ apart).trans (Dev.get_put_self _ _ _), Dev.get_put_self _ _ _⟩

/-- A capture that runs queues its record, which uses a free value, and counts it (R206). -/
theorem Dev.capWrite_frame (d : Dev) (p : Nat) (o : LoopOut) (c : PCtx) (yyOn : Bool) :
    d.capWrite p o c yyOn = { d with regs := (d.capWrite p o c yyOn).regs, freeCtr := (d.capWrite p o c yyOn).freeCtr,
                                     wq := (d.capWrite p o c yyOn).wq } ∧
    regsKeep [F.LOOPn_CAP_WR_COUNT p] d (d.capWrite p o c yyOn) := by
  unfold Dev.capWrite
  split
  · exact ⟨rfl, regsKeep_trans (regsKeep_of_regs rfl) (regsKeep_put _ _ _ (List.mem_singleton_self _))⟩
  · exact ⟨rfl, regsKeep_refl _ d⟩

theorem Dev.capWrite_idle {d : Dev} {p : Nat} (h : (d.loopOfPort p).cap ≠ .running) (o : LoopOut) (c : PCtx) (yyOn : Bool) :
    d.capWrite p o c yyOn = d := by
  simp [Dev.capWrite, h]

/-- From device d on, port p has run a P-tick in which it did not emit, and device e is what the rows due left before it: its loop engine rests,
its frame carries no power, LOOPn_WIN shows no winner. Without a capture it has recorded and written nothing. -/
structure Dev.DarkTick (p : Nat) (d e x : Dev) : Prop where
  frame : x = { d with time := x.time, regs := x.regs, loops := x.loops, evr := x.evr, freeCtr := x.freeCtr, wq := x.wq, prt := x.prt,
                       sns := x.sns }
  loop : ∃ y, x.loopOfPort p = { (e.loopOfPort p).rest.l with yy := y }
  fcnt : (x.prtOf p).fcnt = (d.prtOf p).fcnt + 1
  mod : (x.prtOf p).mod = if hasMod (d.sections false) p then modFrame 0 false (d.inService p) (d.prtOf p).fcnt.val else 0
  pwr : x.get (F.LOOPn_WIN_PWR p) = 0
  cls : x.get (F.LOOPn_WIN_CLASS p) = 7
  calm : (e.loopOfPort p).cap ≠ .running → x.evr = e.evr ∧ x.wq = e.wq

/-- The frame of a port whose engine rests (R161, R162). -/
theorem Dev.BeforeFrame.laserOut {p : Nat} {d e : Dev} (h : d.BeforeFrame e) (hp : p < 32) :
    (e.laserOut p 0 false = { d with time := e.time, regs := e.regs, loops := e.loops, evr := e.evr, freeCtr := e.freeCtr, wq := e.wq,
                                     prt := (e.laserOut p 0 false).prt }) ∧
    ((e.laserOut p 0 false).prtOf p).fcnt = (d.prtOf p).fcnt + 1 ∧
    ((e.laserOut p 0 false).prtOf p).mod =
      if hasMod (d.sections false) p then modFrame 0 false (d.inService p) (d.prtOf p).fcnt.val else 0 := by
  have service := h.inService hp
  obtain ⟨time, regs, loops, evr, freeCtr, wq, frame⟩ : ∃ time regs loops evr freeCtr wq,
      e = { d with time := time, regs := regs, loops := loops, evr := evr, freeCtr := freeCtr, wq := wq } := ⟨_, _, _, _, _, _, h.frame⟩
  refine ⟨by rw [frame]; rfl, ?_, ?_⟩
  · rw [Dev.laserOut, Dev.updPrt_prtOf, frame]
    rfl
  · simp only [Dev.laserOut, Dev.updPrt_prtOf, ite_self, service]
    rw [frame]
    rfl

namespace Dev.DarkTick

variable {p : Nat} {d e f x : Dev}

/-- A port whose loop engine has come to rest on device f ends its P-tick dark. -/
theorem of_rest (h : d.BeforeFrame e) (k : e.BeforeFrame f) (hp : p < 32)
    (hl : ∃ y, f.loopOfPort p = { (e.loopOfPort p).rest.l with yy := y }) (hv : f.evr = e.evr) (hw : f.wq = e.wq) (o : LoopOut) (c : PCtx)
    (yyOn : Bool) : d.DarkTick p e (((f.winReg p 0 none).capWrite p o c yyOn).laserOut p 0 false) := by
  obtain ⟨captured, keeps⟩ := (f.winReg p 0 none).capWrite_frame p o c yyOn
  obtain ⟨frame, fcnt, mod⟩ := (((h.trans k).winReg hp).capWrite hp o c yyOn).laserOut hp
  obtain ⟨pwr, cls⟩ := f.winReg_none_get p
  have away : (F.LOOPn_WIN_PWR p).key ∉ [F.LOOPn_CAP_WR_COUNT p].map Fld.key ∧
      (F.LOOPn_WIN_CLASS p).key ∉ [F.LOOPn_CAP_WR_COUNT p].map Fld.key := by
    simp only [List.map_cons, List.map_nil, List.mem_singleton, loopKeys]
    omega
  refine ⟨by rw [frame], ?_, fcnt, mod, (keeps _ away.1).trans pwr, (keeps _ away.2).trans cls, fun idle => ?_⟩
  · obtain ⟨y, rest⟩ := hl
    refine ⟨y, Eq.trans ?_ rest⟩
    show tget loop0 ((f.winReg p 0 none).capWrite p o c yyOn).loops p = _
    rw [captured]
    rfl
  · have still : ((f.winReg p 0 none).loopOfPort p).cap ≠ .running := by
      obtain ⟨y, rest⟩ := hl
      show (f.loopOfPort p).cap ≠ .running
      rw [rest]
      exact idle
    rw [Dev.capWrite_idle still]
    exact ⟨hv, hw⟩

/-- What is traced and observed leaves a dark P-tick dark. -/
theorem sns (h : d.DarkTick p e x) (z : Sns) : d.DarkTick p e { x with sns := z } :=
  ⟨by rw [h.frame], h.loop, h.fcnt, h.mod, h.pwr, h.cls, h.calm⟩

theorem traceDark (h : d.DarkTick p e x) (m : Dram) (q c : Nat) (v : PdVal) (emit : Bool) : d.DarkTick p e (x.traceDark m q c v emit) := by
  unfold Dev.traceDark
  split
  · exact h.sns _
  · exact h

theorem traceGain (h : d.DarkTick p e x) (q c : Nat) (v : PdVal) (ctx : PCtx) (run : Nat) : d.DarkTick p e (x.traceGain q c v ctx run) := by
  unfold Dev.traceGain
  extract_lets l role ok
  split
  · exact h.sns _
  · exact h

theorem spotAdd (h : d.DarkTick p e x) (q : Nat) (v : PdVal) : d.DarkTick p e (x.spotAdd q v) := by
  unfold Dev.spotAdd
  split
  · exact h
  · dsimp only
    split
    · exact h
    · exact h.sns _

/-- So does BEAMn_PSTAT.EMIT. -/
theorem emitBit (h : d.DarkTick p e x) (q : Nat) : d.DarkTick p e (x.emitBit q) := by
  have emit := x.emitBit_keeps q
  have away : (F.LOOPn_WIN_PWR p).key ∉ [F.BEAMn_PSTAT_EMIT q].map Fld.key ∧
      (F.LOOPn_WIN_CLASS p).key ∉ [F.BEAMn_PSTAT_EMIT q].map Fld.key := by
    simp only [List.map_cons, List.map_nil, List.mem_singleton, loopKeys, portKeys]
    omega
  exact ⟨by rw [h.frame]; rfl, h.loop, h.fcnt, h.mod, (emit _ away.1).trans h.pwr, (emit _ away.2).trans h.cls, h.calm⟩

end Dev.DarkTick

/-- Setting a loop engine, and letting its Yo-yo run go on. -/
theorem Dev.yoyoNext_updLoop (d : Dev) (p : Nat) (l : LoopEng) :
    ∃ y, ((d.updLoop p (fun _ => l)).yoyoNext p).loopOfPort p = { l with yy := y } :=
  ⟨_, (Dev.updLoop_loopOfPort _ p _).trans (by rw [Dev.updLoop_loopOfPort])⟩

theorem Dev.BeforeFrame.yoyoNext_updLoop (d : Dev) (p : Nat) (l : LoopEng) : d.BeforeFrame ((d.updLoop p (fun _ => l)).yoyoNext p) :=
  ((Dev.BeforeFrame.refl d).updLoop p _).updLoop p _

/-- A port without an ACTIVE pair rests. -/
theorem Dev.loopRest_dark {d e : Dev} {p : Nat} (h : d.BeforeFrame e) (hp : p < 32) (m : Dram) (pds : List PdSample) :
    d.DarkTick p e (e.loopRest m pds p) :=
  .of_rest h (.yoyoNext_updLoop e p _) hp (e.yoyoNext_updLoop p _) rfl rfl _ _ _

/-- A loop engine without descriptors that does not emit rests. -/
theorem LoopEng.pstep_rest {l : LoopEng} {c : PCtx} (hd : l.descs = []) (he : c.emit = false) : l.pstep c = l.rest := by
  have block (t : Nat) : l.ofType t = none := by
    rw [LoopEng.ofType, hd]
    rfl
  have trip (a b : LoopBlock) (c' : PCtx) : ({ l with melt := a, src := b } : LoopEng).tripStep c' = ({ l with melt := a, src := b }, none) := by
    unfold LoopEng.tripStep
    rw [show ({ l with melt := a, src := b } : LoopEng).ofType 4 = none from block 4]
  have finite (b : LoopBlock) : nanOf none b = none := by
    unfold nanOf
    split <;> rfl
  have nan : l.firstNaN [] (f32Zero false) none = none := by
    unfold LoopEng.firstNaN
    rw [block, block, finite, finite]
    rfl
  have mon : l.monIn c [] = none := by rw [LoopEng.monIn, block]; rfl
  unfold LoopEng.pstep
  simp only [he, block, hd, List.filterMap_nil, LoopBlock.watch, LoopBlock.formIn, trip, mon, nan, LoopEng.rest]

/-- A P-tick without a MONITOR sample, a loss, a trip and a value that is not finite leaves what it would do about them undone. -/
theorem Dev.monitor_none (d : Dev) (p : Nat) {o : LoopOut} (h : o.mon = none) : d.monitor p o = d := by
  unfold Dev.monitor
  rw [h]
  rfl

theorem Dev.faults_none (d : Dev) (m : Dram) (p : Nat) (x : Word) :
    (((d.feedbackLost m p .melt none).feedbackLost m p .src none).srcTrip m p none x).loopNaN m p none = d := rfl

theorem LoopEng.rest_fields (l : LoopEng) : l.rest.pwr = 0 ∧ l.rest.win = none ∧ l.rest.mon = none ∧ l.rest.nan = none ∧
    l.rest.lossM = none ∧ l.rest.lossS = none ∧ l.rest.trip = none := ⟨rfl, rfl, rfl, rfl, rfl, rfl, rfl⟩

/-- So does a port whose gate stays closed and whose loop has no descriptor. -/
theorem Dev.loopEval_dark {d e : Dev} {p : Nat} (h : d.BeforeFrame e) (hp : p < 32) (hd : (e.loopOfPort p).descs = [])
    (hg : e.gateIn p e.sub.val = false) (m : Dram) (pds : List PdSample) : d.DarkTick p e (e.loopEval m pds p) := by
  have rests : (e.loopOfPort p).pstep (e.pctx m pds p false) = (e.loopOfPort p).rest := LoopEng.pstep_rest hd rfl
  obtain ⟨pwr, win, mon, nan, lossM, lossS, trip⟩ := (e.loopOfPort p).rest_fields
  have ramps := loopFlds_ofLoops hp
  have bits : e.BeforeFrame (((e.updLoop p (fun _ => (e.loopOfPort p).rest.l)).yoyoNext p).rampBits p) :=
    ((Dev.BeforeFrame.yoyoNext_updLoop e p _).put (ramps (F.LOOPn_STAT_MP_RAMP p) (by simp [loopFlds])) _).put
      (ramps (F.LOOPn_STAT_SRC_RAMP p) (by simp [loopFlds])) _
  unfold Dev.loopEval
  simp only [hg, Bool.false_and, rests, pwr, win, nan, lossM, lossS, trip, ite_self, Dev.monitor_none _ _ mon, Dev.faults_none]
  have dark (o : LoopOut) (c : PCtx) := Dev.DarkTick.of_rest h bits hp (e.yoyoNext_updLoop p _) rfl rfl o c false
  exact (((((dark _ _).traceDark ..).traceDark ..).traceGain ..).traceGain ..).spotAdd ..

/-! ## One port in use -/

/-- The device on which a P-tick has noted its samples. -/
def State.sampled (s : State) (l : List PdSample) : Dev := s.settled.dev.atSub.pdNotes l

/-- Noting the samples leaves loop engines, recorder, ports and the place in the T-tick as they are. -/
theorem State.sampled_same (s : State) (l : List PdSample) : (s.sampled l).loops = s.dev.loops ∧ (s.sampled l).evr = s.dev.evr ∧
    (s.sampled l).wq = [] ∧ (s.sampled l).prt = s.dev.prt ∧ (s.sampled l).sub = s.dev.sub := by
  have frame := (s.settled.dev.atSub.pdNotes_regsOnly l).frame
  unfold State.sampled
  rw [frame]
  exact ⟨rfl, rfl, rfl, rfl, rfl⟩

theorem State.sampled_loopOfPort (s : State) (l : List PdSample) (p : Nat) : (s.sampled l).loopOfPort p = s.dev.loopOfPort p :=
  congrArg (fun t => tget loop0 t p) (s.sampled_same l).1

/-- A P-tick in which the one port in use stays dark. -/
theorem exec_pTick_dark {l : List PdSample} {s : State} {p : Nat} {e x : Dev} (hp : p < 32)
    (hu : portsInUse (s.dev.sections false) = [p]) (hx : (s.sampled l).portPTick s.mem l p = x)
    (h : s.settled.dev.DarkTick p e x) :
    ∃ t : State, exec (.pTick l) s = .next t ∧ t.dev.sub = s.dev.sub + 1 ∧ t.dev.tick = s.dev.tick ∧ t.dev.time = s.dev.time ∧
      (t.dev.prtOf p).fcnt = (s.dev.prtOf p).fcnt + 1 ∧
      (t.dev.prtOf p).mod = (if hasMod (s.dev.sections false) p
        then modFrame 0 false (s.dev.inService p) (s.dev.prtOf p).fcnt.val else 0) ∧
      t.dev.get (F.LOOPn_WIN_PWR p) = 0 ∧ t.dev.get (F.LOOPn_WIN_CLASS p) = 7 ∧ t.dev.loopOfPort p = x.loopOfPort p ∧
      t.dev.eng = s.dev.eng ∧ t.pending = s.pending ∧ (x.wq = [] → t.dev.evr = x.evr ∧ t.mem = s.mem) := by
  have tick := s.settled.dev.pTick_eq s.mem l
  rw [show portsInUse (s.settled.dev.sections false) = [p] from hu, List.foldl_cons, List.foldl_nil] at tick
  rw [show (s.settled.dev.atSub.pdNotes l).portPTick s.mem l p = x from hx] at tick
  have lands : s.runDev (fun d m => d.pTick m l) = State.flushWr { s with dev := s.settled.dev.pTickOver x } :=
    congrArg (fun d => State.flushWr { s with dev := d }) tick
  have written := State.flushWr_written { s with dev := s.settled.dev.pTickOver x }
  obtain ⟨sub, tickKept, time, engKept, prt, loops⟩ := written.same
  have tickBefore : x.tick = s.dev.tick := (congrArg Dev.tick h.frame).trans rfl
  have engBefore : x.eng = s.dev.eng := (congrArg Dev.eng h.frame).trans rfl
  have port {α : Type} {f : Prt → α} (hf : ∀ x : Prt, f x.tickOver = f x) :
      f ((State.flushWr { s with dev := s.settled.dev.pTickOver x }).dev.prtOf p) = f (x.prtOf p) := by
    rw [Dev.prtOf, prt]
    exact x.portsAfter_get hf s.dev.sub p
  obtain ⟨winPwr, winClass, -⟩ := winFlds_ofLoops hp
  refine ⟨_, (exec_pTick l s).trans (congrArg Host.Outcome.next lands), sub, tickKept.trans tickBefore, time,
    (port (f := Prt.fcnt) (fun _ => rfl)).trans h.fcnt, (port (f := Prt.mod) (fun _ => rfl)).trans h.mod,
    (written.ports _ winPwr.ofPorts).trans h.pwr, (written.ports _ winClass.ofPorts).trans h.cls, congrArg (fun l => tget loop0 l p) loops,
    engKept.trans engBefore, State.flushWr_pending _, fun queued => ?_⟩
  rw [← lands, State.runDev_noWrites s (fun d m => d.pTick m l) (by rw [tick]; exact queued), tick]
  exact ⟨rfl, rfl⟩

/-- In a quiet loop engine no row is due before a P-tick. -/
theorem State.sampled_loopDue {s : State} {p : Nat} (q : (s.dev.loopOfPort p).Quiet) (l : List PdSample) :
    (s.sampled l).loopDue p = s.sampled l :=
  Dev.loopDue_quiet (by rwa [s.sampled_loopOfPort])

section
variable {l : List PdSample} {s : State} {p : Nat}

/-- A quiet loop engine that stays dark keeps its blocks, and nothing is recorded or written. -/
theorem Dev.DarkTick.quiet {x : Dev} (h : s.settled.dev.DarkTick p ((s.sampled l).loopDue p) x) (q : (s.dev.loopOfPort p).Quiet) :
    (∃ y, x.loopOfPort p = { (s.dev.loopOfPort p).rest.l with yy := y }) ∧ x.evr = s.dev.evr ∧ x.wq = [] := by
  rw [State.sampled_loopDue q] at h
  obtain ⟨-, evr, wq, -, -⟩ := s.sampled_same l
  have loop := h.loop
  have calm := h.calm
  rw [s.sampled_loopOfPort] at loop calm
  exact ⟨loop, (calm q.cap).1.trans evr, (calm q.cap).2.trans wq⟩

variable (hp : p < 32)
include hp

theorem State.sampled_due_before : s.settled.dev.BeforeFrame ((s.sampled l).loopDue p) := (Dev.BeforeFrame.samples s.settled.dev l).loopDue hp

/-- A port without an engine pair runs its P-tick dark. -/
theorem State.sampled_unattached (ha : s.dev.get (F.BEAMn_PSTAT_ATTACHED p) = 0) :
    s.settled.dev.DarkTick p ((s.sampled l).loopDue p) ((s.sampled l).portPTick s.mem l p) := by
  have off : ((s.sampled l).loopDue p).flag (F.BEAMn_PSTAT_ATTACHED p) = false := by
    rw [Dev.flag_eq, (State.sampled_due_before hp).attached hp]
    exact bne_eq_false_iff_eq.mpr ha
  unfold Dev.portPTick
  dsimp only
  rw [if_neg (Bool.eq_false_iff.mp off)]
  exact (Dev.loopRest_dark (State.sampled_due_before hp) hp s.mem l).emitBit p

/-- So does a port with one whose gate stays closed, where its loop engine is quiet and has no descriptor. -/
theorem State.sampled_gateClosed (ha : s.dev.get (F.BEAMn_PSTAT_ATTACHED p) ≠ 0) (q : (s.dev.loopOfPort p).Quiet)
    (hd : (s.dev.loopOfPort p).descs = []) (hg : s.dev.gateIn p s.dev.sub.val = false) :
    s.settled.dev.DarkTick p ((s.sampled l).loopDue p) ((s.sampled l).portPTick s.mem l p) := by
  have before := State.sampled_due_before (s := s) (l := l) hp
  have on : ((s.sampled l).loopDue p).flag (F.BEAMn_PSTAT_ATTACHED p) = true := by
    rw [Dev.flag_eq, before.attached hp]
    exact bne_iff_ne.mpr ha
  unfold Dev.portPTick
  dsimp only
  rw [if_pos on]
  rw [State.sampled_loopDue q] at before ⊢
  obtain ⟨-, -, -, prt, sub⟩ := s.sampled_same l
  have closed : (s.sampled l).gateIn p (s.sampled l).sub.val = false := by
    rw [Dev.gateIn, Dev.prtOf, prt, sub]
    exact hg
  exact (Dev.loopEval_dark before hp ((congrArg LoopEng.descs (s.sampled_loopOfPort l p)).trans hd) closed s.mem l).emitBit p

end

/-- Settles O30: a P-tick is its samples, its ports and the step to the next one, and in the cases stated each port stays dark. -/
theorem pTickRuns : Obligations.PTickRuns := by
  unfold Obligations.PTickRuns
  intro l s
  refine ⟨exec_pTick_no_ports, ?_, ?_⟩
  · intro p hp hu ha
    have dark := State.sampled_unattached (l := l) hp ha
    obtain ⟨t, ht, sub, tick, time, fcnt, mod, pwr, cls, loop, eng, pending, calm⟩ := exec_pTick_dark hp hu rfl dark
    refine ⟨t, ht, sub, tick, time, fcnt, mod, pwr, cls, ?_, eng, pending, fun hmr hsr hml hsl hy hc => ?_⟩
    · obtain ⟨y, rest⟩ := dark.loop
      rw [loop, rest]
      rfl
    · obtain ⟨⟨y, rest⟩, evr, wq⟩ := dark.quiet ⟨hmr, hsr, hml, hsl, hy, hc⟩
      rw [loop, rest]
      exact ⟨rfl, rfl, (calm wq).1.trans evr, (calm wq).2⟩
  · intro p hp hu ha hd hmr hsr hml hsl hy hc hg
    have quiet : (s.dev.loopOfPort p).Quiet := ⟨hmr, hsr, hml, hsl, hy, hc⟩
    have dark := State.sampled_gateClosed (l := l) hp ha quiet hd hg
    obtain ⟨t, ht, sub, -, -, fcnt, mod, pwr, cls, loop, -, pending, calm⟩ := exec_pTick_dark hp hu rfl dark
    obtain ⟨⟨y, rest⟩, evr, wq⟩ := dark.quiet quiet
    rw [← loop] at rest
    exact ⟨t, ht, sub, pwr, cls, by rw [rest]; rfl, by rw [rest]; rfl, fcnt, mod, (calm wq).1.trans evr, (calm wq).2, pending⟩

end Sys2Proof.Machine

/-! # Calibration ends and traced estimates (08_sensing_calibration.md R214 to R222)

What these rows do is a change of the sensing state and of registers (`Dev.SnsRec`), in some cases with an event: one lemma for each row says
which change it is in each case, and what the change shows is read off it. -/

namespace Sys2Proof.Machine

open Sys2Proof.Safety

/-! ## Changes of the sensing state and its registers -/

/-- Of the device d only the sensing state, register fields of fs and the recorder changed. -/
structure Dev.SnsRec (fs : List Fld) (d d' : Dev) : Prop where
  frame : d' = { d with regs := d'.regs, sns := d'.sns, evr := d'.evr }
  keeps : regsKeep fs d d'

namespace Dev.SnsRec

variable {fs gs : List Fld} {d e f : Dev}

theorem refl (d : Dev) : d.SnsRec fs d := ⟨rfl, regsKeep_refl fs d⟩

theorem trans (h : d.SnsRec fs e) (k : e.SnsRec fs f) : d.SnsRec fs f where
  frame := by
    have frame := k.frame
    rw [h.frame] at frame
    exact frame
  keeps := regsKeep_trans h.keeps k.keeps

theorem mono (h : d.SnsRec fs e) (hs : ∀ G ∈ fs, G ∈ gs) : d.SnsRec gs e := ⟨h.frame, regsKeep_mono h.keeps hs⟩

theorem setSns (h : d.SnsRec fs e) (x : Sns) : d.SnsRec fs { e with sns := x } := h.trans ⟨rfl, regsKeep_of_regs rfl⟩

theorem put (h : d.SnsRec fs e) {G : Fld} (hG : G ∈ fs) (v : Nat) : d.SnsRec fs (e.put G v) := h.trans ⟨rfl, regsKeep_put e G v hG⟩

theorem raise (h : d.SnsRec fs e) (c a b x y z : Nat) : d.SnsRec (recFlds ++ fs) (e.raise c a b x y z) :=
  (h.mono (fun _ hG => List.mem_append_right _ hG)).trans
    ⟨by rw [Dev.raise_sns, ← Dev.raise_eq], regsKeep_raise _ _ _ _ _ _ _ (fun _ hG => List.mem_append_left _ hG)⟩

/-- An event that the change leads to is recorded as on the device before. -/
theorem recorded (h : d.SnsRec fs e) (hv : e.evr = d.evr) (hs : ∀ G ∈ fs, G.ofPorts) (c a b x y z : Nat) :
    recorded d (e.raise c a b x y z) c a b x y z := by
  have gasp : F.EVR_STAT_LASTGASP.key ∉ fs.map Fld.key := fun q => by
    obtain ⟨G, hG, key⟩ := List.mem_map.mp q
    exact lastGasp_not_ofPorts (by simpa only [Fld.ofPorts, key] using hs G hG)
  exact Dev.raise_evr_congr _ _ _ _ _ _ _ _ hv (by rw [h.frame]) (h.keeps _ gasp)

end Dev.SnsRec

/-- A change of registers alone is such a change. -/
theorem Dev.RegsOnly.snsRec {fs : List Fld} {d e : Dev} (h : d.RegsOnly fs e) : d.SnsRec fs e := ⟨by rw [h.frame], h.keeps⟩

/-- A register of the ports, of sensing or of the cameras reads as before after an event. -/
theorem Dev.get_raise_ofPorts (d : Dev) {G : Fld} (hG : G.ofPorts) (c a b x y z : Nat) : (d.raise c a b x y z).get G = d.get G :=
  Dev.get_raise _ _ _ _ _ _ _ _ (Fld.ofPorts_not_rec hG)

/-! ## CALIBRATION_END (R214, R219) -/

theorem exec_calibrationEnd (s : State) : exec .calibrationEnd s = .next (s.onDev (fun d => d.calEnd)) := rfl

/-- The milliseconds since power-up calibration began. -/
def Dev.calMs (d : Dev) : Nat := elapsed64 d.time d.sns.calAt / 1000000

/-- The device on which the calibration run has ended, before the event. -/
def Dev.calOver (d : Dev) : Dev :=
  { ((d.put F.SNS_STAT_CAL_RUN 0).put F.SNS_STAT_CAL_DONE 1).put F.SNS_CAL_TIME_MS d.calMs with sns := { d.sns with settled := true } }

/-- The registers in which the end of the run shows. -/
def calFlds : List Fld := [F.SNS_STAT_CAL_RUN, F.SNS_STAT_CAL_DONE, F.SNS_CAL_TIME_MS]

theorem calFlds_ofPorts : ∀ G ∈ calFlds, G.ofPorts := by
  unfold Fld.ofPorts
  decide

/-- The bits of all ports. -/
def portBitFlds : List Fld := (upTo 32).flatMap (fun p => [F.BEAMn_TSTAT_STATE p, F.BEAMn_PSTAT_EMIT p])

/-- The bits of the ports follow in their own registers. -/
theorem Dev.portBits_all_regsOnly (d : Dev) : d.RegsOnly portBitFlds ((upTo 32).foldl (fun d p => d.portBits p) d) :=
  List.foldlRecOn (motive := d.RegsOnly portBitFlds) _ _ (.refl d) (fun e he p hp =>
    he.trans ⟨e.portBits_frame p, regsKeep_mono (e.portBits_regsKeep p) (fun _ hG => List.mem_flatMap.mpr ⟨p, hp, hG⟩)⟩)

/-- The device after the event of the end. -/
def Dev.calRecorded (d : Dev) : Dev := d.calOver.raise 0x0500 0x0D 0 d.calMs d.sns.unsures d.sns.thirds

section
variable {d : Dev}

theorem Dev.calEnd_idle (h : d.get F.SNS_STAT_CAL_RUN = 0) : d.calEnd = d := if_neg (by simp [h])

/-- Where no value was accepted the store is not written: after the event only the bits of the ports follow. -/
theorem Dev.calEnd_run (h : d.get F.SNS_STAT_CAL_RUN ≠ 0) (ha : d.sns.accepted = []) : d.calRecorded.RegsOnly portBitFlds d.calEnd := by
  have accepted : d.calRecorded.sns.accepted = [] := (congrArg Sns.accepted (Dev.raise_sns ..)).trans ha
  have none : d.calEnd = (upTo 32).foldl (fun d p => d.portBits p) d.calRecorded := by
    unfold Dev.calEnd
    rw [if_pos (by simpa using h)]
    exact congrArg (List.foldl _ · _) (if_pos (congrArg (fun l : List (CalItem × List Int) => (l.filter _).isEmpty) accepted))
  exact none ▸ d.calRecorded.portBits_all_regsOnly

theorem Dev.calOver_snsRec : d.SnsRec calFlds d.calOver :=
  ((((SnsRec.refl d).put (by simp [calFlds]) 0).put (by simp [calFlds]) 1).put (by simp [calFlds]) _).setSns _

theorem Dev.calRecorded_snsRec : d.SnsRec (recFlds ++ calFlds) d.calRecorded := Dev.calOver_snsRec.raise ..

theorem Dev.calRecorded_recorded : recorded d d.calRecorded 0x0500 0x0D 0 d.calMs d.sns.unsures d.sns.thirds :=
  Dev.calOver_snsRec.recorded rfl calFlds_ofPorts ..

theorem Dev.calRecorded_get {G : Fld} (hG : G ∈ calFlds) : d.calRecorded.get G = d.calOver.get G :=
  Dev.get_raise_ofPorts _ (calFlds_ofPorts G hG) ..

theorem Dev.calOver_get : d.calOver.get F.SNS_STAT_CAL_RUN = 0 ∧ d.calOver.get F.SNS_STAT_CAL_DONE = 1 ∧
    d.calOver.get F.SNS_CAL_TIME_MS = d.calMs % 2 ^ F.SNS_CAL_TIME_MS.width :=
  ⟨(Dev.get_put_ne _ _ _ _ (by decide)).trans ((Dev.get_put_ne _ _ _ _ (by decide)).trans (Dev.get_put_self d _ 0)),
    (Dev.get_put_ne _ _ _ _ (by decide)).trans (Dev.get_put_self _ _ 1), Dev.get_put_self _ _ _⟩

end

theorem exec_calibrationEnd_run {s : State} (h : s.dev.get F.SNS_STAT_CAL_RUN ≠ 0) (ha : s.dev.sns.accepted = []) :
    ∃ t : State, exec .calibrationEnd s = .next t ∧ t.dev.get F.SNS_STAT_CAL_RUN = 0 ∧ t.dev.get F.SNS_STAT_CAL_DONE = 1 ∧
      t.dev.sns = { s.dev.sns with settled := true } ∧
      t.dev.get F.SNS_CAL_TIME_MS = s.dev.calMs % 2 ^ F.SNS_CAL_TIME_MS.width ∧
      recorded s.dev t.dev 0x0500 0x0D 0 s.dev.calMs s.dev.sns.unsures s.dev.sns.thirds ∧
      t = { s with dev := { s.dev with regs := t.dev.regs, evr := t.dev.evr, sns := t.dev.sns } } ∧
      regsKeep (recFlds ++ calFlds ++ portBitFlds) s.dev t.dev := by
  have bits := Dev.calEnd_run h ha
  have change := (Dev.calRecorded_snsRec.mono (gs := recFlds ++ calFlds ++ portBitFlds) (fun _ hG => List.mem_append_left _ hG)).trans
    (bits.snsRec.mono (fun _ hG => List.mem_append_right _ hG))
  have apart : ∀ G ∈ calFlds, G.key ∉ portBitFlds.map Fld.key := by decide
  have shows : ∀ G ∈ calFlds, s.dev.calEnd.get G = s.dev.calOver.get G :=
    fun G hG => (bits.keeps G (apart G hG)).trans (Dev.calRecorded_get hG)
  obtain ⟨run, done, ms⟩ := s.dev.calOver_get
  exact ⟨_, exec_calibrationEnd s, (shows _ (by simp [calFlds])).trans run, (shows _ (by simp [calFlds])).trans done,
    (congrArg Dev.sns bits.frame).trans (Dev.raise_sns ..), (shows _ (by simp [calFlds])).trans ms,
    (congrArg Dev.evr bits.frame).trans Dev.calRecorded_recorded, congrArg (fun d => { s with dev := d }) change.frame, change.keeps⟩

/-! ## SLEW_DONE (R217) -/

theorem exec_slewDone (i : CalItem) (s : State) : exec (.slewDone i) s = .next (s.onDev (fun d => d.slewDone i)) := rfl

/-- Where the registers of a photodiode channel stand. -/
theorem chanKeys (c : Nat) : (F.SNS_CHc_OFS_OFS c).key = (0x1C010C + c * 0x20) * 32 + 0 ∧
    (F.SNS_CHc_STAT_OFS_SLEW c).key = (0x1C0118 + c * 0x20) * 32 + 2 ∧ (F.SNS_CHc_STAT_UNSURE c).key = (0x1C0118 + c * 0x20) * 32 + 4 :=
  ⟨rfl, rfl, rfl⟩

theorem traceRefKey : F.SNS_STAT_TRACE_REF.key = 0x1C0004 * 32 + 4 := rfl

/-- The registers in which the end of an offset slew shows. -/
def slewFlds (c : Nat) : List Fld := [F.SNS_CHc_OFS_OFS c, F.SNS_CHc_STAT_OFS_SLEW c]

/-- The device on which an offset slew, the only slew, has ended at a new value. -/
def Dev.slewOver (d : Dev) (c : Nat) (new : Frac) : Dev :=
  (({ d with sns := { d.sns with slews := [] } } : Dev).put (F.SNS_CHc_OFS_OFS c) (fracRne new).toNat).put (F.SNS_CHc_STAT_OFS_SLEW c) 0

section
variable {d : Dev} {c : Chan} {old new : Frac} {start : Word} (r : Fin 4) (h : d.sns.slews = [⟨.ofs c.val, [old], [new], start⟩])
include h

theorem Dev.slewDone_due (due : slewTicks ≤ elapsed32 d.tick start) : d.slewDone (.pdOffset c r) = d.slewOver c.val new := by
  simp [Dev.slewDone, h, slewKinds, Dev.slewDue, due, Dev.slewPut, Dev.slewBits, Dev.slewOver, b2n]

theorem Dev.slewDone_not_due (early : elapsed32 d.tick start < slewTicks) : d.slewDone (.pdOffset c r) = d := by
  simp [Dev.slewDone, h, slewKinds, Dev.slewDue, Nat.not_le.mpr early]

end

theorem Dev.slewOver_snsRec (d : Dev) (c : Nat) (new : Frac) : d.SnsRec (slewFlds c) (d.slewOver c new) :=
  (((SnsRec.refl d).setSns _).put (by simp [slewFlds]) _).put (by simp [slewFlds]) 0

theorem Dev.slewOver_get (d : Dev) (c : Nat) (new : Frac) :
    (d.slewOver c new).get (F.SNS_CHc_OFS_OFS c) = (fracRne new).toNat % 2 ^ 20 ∧ (d.slewOver c new).get (F.SNS_CHc_STAT_OFS_SLEW c) = 0 := by
  have apart : (F.SNS_CHc_STAT_OFS_SLEW c).key ≠ (F.SNS_CHc_OFS_OFS c).key := by
    simp only [chanKeys]
    omega
  exact ⟨(Dev.get_put_ne _ _ _ _ apart).trans (Dev.get_put_self _ _ _), Dev.get_put_self _ _ 0⟩

theorem exec_slewDone_due {c : Chan} {r : Fin 4} {s : State} {old new : Frac} {start : Word}
    (h : s.dev.sns.slews = [⟨.ofs c.val, [old], [new], start⟩]) (due : slewTicks ≤ elapsed32 s.dev.tick start) :
    ∃ t : State, exec (.slewDone (.pdOffset c r)) s = .next t ∧ t.dev.sns.slews = [] ∧
      t.dev.get (F.SNS_CHc_OFS_OFS c.val) = (fracRne new).toNat % 2 ^ 20 ∧ t.dev.get (F.SNS_CHc_STAT_OFS_SLEW c.val) = 0 ∧
      t = { s with dev := { s.dev with regs := t.dev.regs, sns := { s.dev.sns with slews := [] } } } ∧
      regsKeep (slewFlds c.val) s.dev t.dev := by
  obtain ⟨ofs, bit⟩ := s.dev.slewOver_get c.val new
  refine ⟨_, exec_slewDone _ s, ?_⟩
  rw [State.onDev_dev, State.onDev, Dev.slewDone_due r h due]
  exact ⟨rfl, ofs, bit, rfl, (s.dev.slewOver_snsRec c.val new).keeps⟩

theorem exec_slewDone_not_due {c : Chan} {r : Fin 4} {s : State} {old new : Frac} {start : Word}
    (h : s.dev.sns.slews = [⟨.ofs c.val, [old], [new], start⟩]) (early : elapsed32 s.dev.tick start < slewTicks) :
    exec (.slewDone (.pdOffset c r)) s = .next s := by
  rw [exec_slewDone, State.onDev, Dev.slewDone_not_due r h early]

/-! ## A slew that begins (R217, R238) -/

/-- The showing of a slew leaves the sensing state as it is. -/
@[simp] theorem Dev.slewBits_sns (d : Dev) (k : SlewKind) : (d.slewBits k).sns = d.sns := by
  cases k <;> rfl

/-- A slew that begins is one of the slews. -/
theorem Dev.slewTo_begins (d : Dev) (k : SlewKind) (new : List Frac) :
    ∃ x : Slew, x ∈ (d.slewTo k new).sns.slews ∧ x.kind = k ∧ x.new = new ∧ x.start = d.tick :=
  ⟨⟨k, d.slewGet k, new, d.tick⟩, by simp [Dev.slewTo], rfl, rfl, rfl⟩

/-- An offset slew that begins shows in its channel's OFS_SLEW. -/
theorem Dev.slewTo_ofs_bit (d : Dev) (c : Nat) (new : List Frac) : (d.slewTo (.ofs c) new).get (F.SNS_CHc_STAT_OFS_SLEW c) = 1 := by
  simp [Dev.slewTo, Dev.slewBits, b2n, F.SNS_CHc_STAT_OFS_SLEW]

/-! ## OFFSET_TRACE_ESTIMATE (R220, R222) -/

theorem exec_offsetTraceEstimate (c : Chan) (s : State) :
    exec (.offsetTraceEstimate c) s = .next (s.onDev (fun d => d.ofsTrace c.val)) := rfl

/-- The device that has kept an estimate for channel c and begun its offset histogram again. -/
def Dev.ofsKept (d : Dev) (c : Nat) (e : Frac) : Dev :=
  d.updTrace c (fun t => { t with bins := [], n := 0, outside := 0, ofs := some e })

/-- The offset, in 1/16 code, that follows from two estimates in codes: their mean. -/
def ofsMean (e p : Frac) : Int := fracRne (fracMul (fracAdd e p) (fracI 8))

section
variable {d : Dev} {c : Nat} {e p : Frac}

theorem Dev.ofsTrace_few (h : (tget trace0 d.sns.traces c).n < 16384) : d.ofsTrace c = d := if_pos h

theorem Dev.ofsTrace_first (hn : 16384 ≤ (tget trace0 d.sns.traces c).n) (he : d.ofsEstimate c (tget trace0 d.sns.traces c) = some e)
    (hp : (tget trace0 d.sns.traces c).ofs = none) : d.ofsTrace c = d.ofsKept c e := by
  have enough : ¬ (tget trace0 d.sns.traces c).n < ofsSamples := Nat.not_lt.mpr hn
  simp only [Dev.ofsTrace, enough, if_false, he, hp]
  rfl

theorem Dev.ofsTrace_close (hn : 16384 ≤ (tget trace0 d.sns.traces c).n) (he : d.ofsEstimate c (tget trace0 d.sns.traces c) = some e)
    (hp : (tget trace0 d.sns.traces c).ofs = some p) (hc : fracLe (fracAbs (fracSub e p)) (fracI 4) = true) :
    d.ofsTrace c = (d.ofsKept c e).ofsApply c (ofsMean e p) := by
  have enough : ¬ (tget trace0 d.sns.traces c).n < ofsSamples := Nat.not_lt.mpr hn
  simp only [Dev.ofsTrace, enough, if_false, he, hp, hc, if_true]
  rfl

/-- A kept estimate does not bear on what is recorded. -/
theorem recorded_of_ofsKept {d' : Dev} {k a b x y z : Nat} (h : recorded (d.ofsKept c e) d' k a b x y z) : recorded d d' k a b x y z :=
  Eq.trans h (Dev.raise_evr_congr _ _ _ _ _ _ _ _ rfl rfl rfl)

/-- An offset within 64 codes of the power-up value is recorded and its slew begins. -/
theorem Dev.ofsApply_near {new : Int} (h : (new - d.powerOfs c).natAbs ≤ 1024) :
    (∃ x : Slew, x ∈ (d.ofsApply c new).sns.slews ∧ x.kind = .ofs c ∧ x.new = [fracI new] ∧ x.start = d.tick) ∧
      (d.ofsApply c new).get (F.SNS_CHc_STAT_OFS_SLEW c) = 1 ∧ (d.ofsApply c new).get (F.SNS_CHc_STAT_UNSURE c) = 0 ∧
      recorded d (d.ofsApply c new) 0x0508 0x0D 0 c (d.get (F.SNS_CHc_OFS_OFS c)) (trunc 32 new) := by
  have applied : d.ofsApply c new =
      ((d.raise 0x0508 0x0D 0 c (d.get (F.SNS_CHc_OFS_OFS c)) (trunc 32 new)).slewTo (.ofs c) [fracI new]).put (F.SNS_CHc_STAT_UNSURE c) 0 :=
    if_neg (Nat.not_lt.mpr h)
  have apart : (F.SNS_CHc_STAT_UNSURE c).key ≠ (F.SNS_CHc_STAT_OFS_SLEW c).key := by
    simp only [chanKeys]
    omega
  rw [applied]
  obtain ⟨x, mem, kind, new, start⟩ := Dev.slewTo_begins _ (.ofs c) [fracI new]
  exact ⟨⟨x, mem, kind, new, start.trans (Dev.raise_tick ..)⟩, (Dev.get_put_ne _ _ _ _ apart).trans (Dev.slewTo_ofs_bit ..),
    Dev.get_put_self _ _ 0, rfl⟩

/-- An offset beyond 64 codes from the power-up value is refused: no slew begins, and the channel is UNSURE. -/
theorem Dev.ofsApply_far {new : Int} (hc : c < 64) (h : 1024 < (new - d.powerOfs c).natAbs) :
    (d.ofsApply c new).sns = d.sns ∧ (d.ofsApply c new).get F.SNS_STAT_TRACE_REF = 1 ∧
      (d.ofsApply c new).get (F.SNS_CHc_STAT_UNSURE c) = 1 ∧
      recorded d (d.ofsApply c new) 0x0509 0x0D 2 c (trunc 32 (d.powerOfs c)) (trunc 32 new) := by
  have refused : d.ofsApply c new = ((d.put F.SNS_STAT_TRACE_REF 1).put (F.SNS_CHc_STAT_UNSURE c) 1).raise 0x0509 0x0D 2 c
      (trunc 32 (d.powerOfs c)) (trunc 32 new) := if_pos h
  have places : F.SNS_STAT_TRACE_REF.ofPorts ∧ (F.SNS_CHc_STAT_UNSURE c).ofPorts ∧
      (F.SNS_CHc_STAT_UNSURE c).key ≠ F.SNS_STAT_TRACE_REF.key := by
    simp only [Fld.ofPorts, chanKeys, traceRefKey]
    omega
  obtain ⟨ref, unsure, apart⟩ := places
  have marked : d.SnsRec [F.SNS_STAT_TRACE_REF, F.SNS_CHc_STAT_UNSURE c] ((d.put F.SNS_STAT_TRACE_REF 1).put (F.SNS_CHc_STAT_UNSURE c) 1) :=
    ((SnsRec.refl d).put (by simp) 1).put (by simp) 1
  rw [refused]
  refine ⟨Dev.raise_sns .., ?_, ?_, marked.recorded rfl (by simp [ref, unsure]) ..⟩
  · exact (Dev.get_raise_ofPorts _ ref ..).trans ((Dev.get_put_ne _ _ _ _ apart).trans (Dev.get_put_self _ _ 1))
  · exact (Dev.get_raise_ofPorts _ unsure ..).trans (Dev.get_put_self _ _ 1)

end

/-- A first estimate is only kept. -/
theorem exec_offsetTraceEstimate_first {c : Chan} {s : State} {e : Frac} (hn : 16384 ≤ (tget trace0 s.dev.sns.traces c.val).n)
    (he : s.dev.ofsEstimate c.val (tget trace0 s.dev.sns.traces c.val) = some e) (hp : (tget trace0 s.dev.sns.traces c.val).ofs = none) :
    ∃ t : State, exec (.offsetTraceEstimate c) s = .next t ∧
      tget trace0 t.dev.sns.traces c.val = { tget trace0 s.dev.sns.traces c.val with bins := [], n := 0, outside := 0, ofs := some e } ∧
      t.dev.regs = s.dev.regs ∧ t.dev.evr = s.dev.evr ∧ t.dev.sns.slews = s.dev.sns.slews ∧ t.mem = s.mem := by
  refine ⟨_, exec_offsetTraceEstimate c s, ?_⟩
  rw [State.onDev_dev, State.onDev_mem, Dev.ofsTrace_first hn he hp]
  exact ⟨tget_tput_self .., rfl, rfl, rfl, rfl⟩

section
variable {c : Chan} {s : State} {e p : Frac} (hn : 16384 ≤ (tget trace0 s.dev.sns.traces c.val).n)
  (he : s.dev.ofsEstimate c.val (tget trace0 s.dev.sns.traces c.val) = some e) (hp : (tget trace0 s.dev.sns.traces c.val).ofs = some p)
  (hc : fracLe (fracAbs (fracSub e p)) (fracI 4) = true)
include hn he hp hc

/-- The mean of two estimates that lie close is applied within 64 codes of the power-up value. -/
theorem exec_offsetTraceEstimate_applied (near : (ofsMean e p - s.dev.powerOfs c.val).natAbs ≤ 1024) :
    ∃ t : State, exec (.offsetTraceEstimate c) s = .next t ∧
      (∃ x : Slew, x ∈ t.dev.sns.slews ∧ x.kind = .ofs c.val ∧ x.new = [fracI (ofsMean e p)] ∧ x.start = s.dev.tick) ∧
      t.dev.get (F.SNS_CHc_STAT_OFS_SLEW c.val) = 1 ∧ t.dev.get (F.SNS_CHc_STAT_UNSURE c.val) = 0 ∧
      recorded s.dev t.dev 0x0508 0x0D 0 c.val (s.dev.get (F.SNS_CHc_OFS_OFS c.val)) (trunc 32 (ofsMean e p)) ∧ t.mem = s.mem := by
  obtain ⟨begins, slew, unsure, event⟩ := Dev.ofsApply_near (d := s.dev.ofsKept c.val e) near
  refine ⟨_, exec_offsetTraceEstimate c s, ?_⟩
  rw [State.onDev_dev, State.onDev_mem, Dev.ofsTrace_close hn he hp hc]
  exact ⟨begins, slew, unsure, recorded_of_ofsKept event, rfl⟩

/-- Beyond 64 codes from the power-up value the mean is refused, and the channel is UNSURE. -/
theorem exec_offsetTraceEstimate_refused (far : 1024 < (ofsMean e p - s.dev.powerOfs c.val).natAbs) :
    ∃ t : State, exec (.offsetTraceEstimate c) s = .next t ∧ t.dev.sns.slews = s.dev.sns.slews ∧
      t.dev.get F.SNS_STAT_TRACE_REF = 1 ∧ t.dev.get (F.SNS_CHc_STAT_UNSURE c.val) = 1 ∧
      recorded s.dev t.dev 0x0509 0x0D 2 c.val (trunc 32 (s.dev.powerOfs c.val)) (trunc 32 (ofsMean e p)) ∧ t.mem = s.mem := by
  obtain ⟨sns, ref, unsure, event⟩ := Dev.ofsApply_far (d := s.dev.ofsKept c.val e) c.isLt far
  refine ⟨_, exec_offsetTraceEstimate c s, ?_⟩
  rw [State.onDev_dev, State.onDev_mem, Dev.ofsTrace_close hn he hp hc]
  exact ⟨(congrArg Sns.slews sns).trans rfl, ref, unsure, recorded_of_ofsKept event, rfl⟩

end

/-! ## GAIN_TRACE_ESTIMATE (R221) -/

theorem exec_gainTraceEstimate (c : Chan) (s : State) :
    exec (.gainTraceEstimate c) s = .next (s.onDev (fun d => d.gainTrace c.val)) := rfl

section
variable {d : Dev} {c : Nat}

theorem Dev.gainTrace_few (h : (tget trace0 d.sns.traces c).gn < 65536) : d.gainTrace c = d := if_pos h

/-- A first estimate of the trim is only kept, and the gain histogram begins again. -/
theorem Dev.gainTrace_first (hn : 65536 ≤ (tget trace0 d.sns.traces c).gn) (ht : (tget trace0 d.sns.traces c).trim = none) :
    ∃ e : Word, d.gainTrace c = d.updTrace c (fun t => { t with gbins := [], gn := 0, trim := some e }) := by
  have enough : ¬ (tget trace0 d.sns.traces c).gn < gainSamples := Nat.not_lt.mpr hn
  simp only [Dev.gainTrace, enough, if_false, ht]
  exact ⟨_, rfl⟩

end

theorem exec_gainTraceEstimate_first {c : Chan} {s : State} (hn : 65536 ≤ (tget trace0 s.dev.sns.traces c.val).gn)
    (ht : (tget trace0 s.dev.sns.traces c.val).trim = none) : ∃ t : State, exec (.gainTraceEstimate c) s = .next t ∧
      (tget trace0 t.dev.sns.traces c.val).gn = 0 ∧ (tget trace0 t.dev.sns.traces c.val).trim.isSome = true ∧
      t.dev.regs = s.dev.regs ∧ t.dev.evr = s.dev.evr ∧ t.dev.sns.slews = s.dev.sns.slews ∧ t.mem = s.mem := by
  obtain ⟨e, first⟩ := Dev.gainTrace_first hn ht
  refine ⟨_, exec_gainTraceEstimate c s, ?_⟩
  rw [State.onDev_dev, State.onDev_mem, first]
  have trace := tget_tput_self trace0 s.dev.sns.traces c.val { tget trace0 s.dev.sns.traces c.val with gbins := [], gn := 0, trim := some e }
  exact ⟨congrArg Trace.gn trace, congrArg (fun t => t.trim.isSome) trace, rfl, rfl, rfl, rfl⟩

/-! ## The rows -/

/-- Settles O35: in each case stated a row is one change of the sensing state, with the event that goes with it, or changes nothing. -/
theorem calibrationAndTraces : Obligations.CalibrationAndTraces := by
  unfold Obligations.CalibrationAndTraces
  refine ⟨⟨fun s h => ?_, fun s => exec_calibrationEnd_run, fun c r s old new start => ⟨exec_slewDone_due, exec_slewDone_not_due⟩⟩,
    fun c s => ⟨fun h => ?_, fun h => ?_, fun e => exec_offsetTraceEstimate_first, fun e p hn he hp hc =>
      ⟨exec_offsetTraceEstimate_applied hn he hp hc, exec_offsetTraceEstimate_refused hn he hp hc⟩, exec_gainTraceEstimate_first⟩⟩
  · rw [exec_calibrationEnd, State.onDev, Dev.calEnd_idle h]
  · rw [exec_offsetTraceEstimate, State.onDev, Dev.ofsTrace_few h]
  · rw [exec_gainTraceEstimate, State.onDev, Dev.gainTrace_few h]

end Sys2Proof.Machine

/-! # Camera frames, links and triggers (08_sensing_calibration.md R230 to R236; 14_bed_lighting.md R361)

A packet changes registers of its receiver (`Dev.RegsOnly`), and a frame its receiver's state as well (`Dev.SnsRec`). The feature record of a frame
that ends is a write of the row: it lands where the ring has room and its DRAM is present. -/

namespace Sys2Proof.Machine

open Sys2Proof.Safety

/-! ## Places of registers (R239) -/

/-- Where the registers of a camera receiver stand. -/
theorem camKeys (m : Nat) :
    (F.CAMm_CTRL_EN m).key = (0x200000 + m * 0x100) * 32 + 0 ∧ (F.CAMm_STAT_LINK m).key = (0x200004 + m * 0x100) * 32 + 0 ∧
    (F.CAMm_STAT_DAMAGED m).key = (0x200004 + m * 0x100) * 32 + 1 ∧ (F.CAMm_STAT_TIMEOUT m).key = (0x200004 + m * 0x100) * 32 + 2 ∧
    (F.CAMm_FEAT_BASE_BASE m).key = (0x20001C + m * 0x100) * 32 + 0 ∧ (F.CAMm_FEAT_SIZE_SIZE m).key = (0x200020 + m * 0x100) * 32 + 0 ∧
    (F.CAMm_FEAT_WR_INDEX m).key = (0x200024 + m * 0x100) * 32 + 0 ∧ (F.CAMm_FEAT_RD_INDEX m).key = (0x200028 + m * 0x100) * 32 + 0 ∧
    (F.CAMm_FRAMES_COUNT m).key = (0x20003C + m * 0x100) * 32 + 0 ∧ (F.CAMm_HDR_ERR_CORR m).key = (0x200040 + m * 0x100) * 32 + 0 :=
  ⟨rfl, rfl, rfl, rfl, rfl, rfl, rfl, rfl, rfl, rfl⟩

theorem camLink_ofPorts {m : Nat} (hm : m < 8) : (F.CAMm_STAT_LINK m).ofPorts ∧ (F.CAMm_STAT_TIMEOUT m).ofPorts := by
  simp only [Fld.ofPorts, camKeys]
  omega

/-! ## A receiver -/

@[simp] theorem Dev.updCam_cam (d : Dev) (m : Nat) (f : CamRx → CamRx) : (d.updCam m f).cam m = f (d.cam m) := tget_tput_self ..

theorem Dev.updCam_cam_ne (d : Dev) {m k : Nat} (f : CamRx → CamRx) (h : k ≠ m) : (d.updCam m f).cam k = d.cam k :=
  tget_tput_ne _ _ _ _ _ h.symm

/-- A receiver is what the sensing state says it is. -/
theorem Dev.cam_congr {d e : Dev} (h : e.sns = d.sns) (m : Nat) : e.cam m = d.cam m := congrArg (fun x : Sns => tget cam0 x.cams m) h

theorem Dev.SnsRec.updCam {fs : List Fld} {d e : Dev} (h : d.SnsRec fs e) (m : Nat) (f : CamRx → CamRx) : d.SnsRec fs (e.updCam m f) :=
  h.setSns _

/-! ## Headers (R230) -/

/-- A counter that stops at its greatest value. -/
theorem Dev.bump_get (d : Dev) (G : Fld) : (d.bump G).get G = min (d.get G + 1) (2 ^ G.width - 1) := by
  have bits : 0 < 2 ^ G.width := Nat.two_pow_pos _
  rw [Dev.bump_eq, Dev.get_put_self]
  exact Nat.mod_eq_of_lt (by omega)

theorem State.onlyRegs_put (s : State) (G : Fld) (v : Nat) : onlyRegs [G] s { s with dev := s.dev.put G v } :=
  ⟨rfl, regsKeep_put _ _ _ (List.mem_singleton_self G)⟩

section
variable {d : Dev} {m : Nat} (f : Dev → Dev)

theorem Dev.camHeader_off (h : d.get (F.CAMm_CTRL_EN m) = 0) (hdr : HdrEcc) : d.camHeader m hdr f = d := if_pos (by simp [h])

section
variable (h : d.get (F.CAMm_CTRL_EN m) ≠ 0)
include h

theorem Dev.camHeader_bad : d.camHeader m .bad f = d.bump (F.CAMm_HDR_ERR_UNCORR m) := if_neg (by simp [h])

theorem Dev.camHeader_corrected : d.camHeader m .corrected f = f (d.bump (F.CAMm_HDR_ERR_CORR m)) := if_neg (by simp [h])

theorem Dev.camHeader_clean : d.camHeader m .clean f = f d := if_neg (by simp [h])

end

/-- A packet without an error in its header that the receiver would do nothing with does nothing. -/
theorem Dev.camHeader_clean_idle (h : f d = d) : d.camHeader m .clean f = d := by
  by_cases off : d.get (F.CAMm_CTRL_EN m) = 0
  · exact Dev.camHeader_off f off .clean
  · exact (Dev.camHeader_clean f off).trans h

end

/-- A receiver that takes a channel is enabled. -/
theorem Dev.camTakes_enabled {d : Dev} {m vc : Nat} (h : d.camTakes m vc = true) : d.get (F.CAMm_CTRL_EN m) ≠ 0 := by
  have both : (d.get (F.CAMm_CTRL_EN m) != 0 && camVc (d.sections false) m vc) = true := h
  simp only [Bool.and_eq_true, bne_iff_ne] at both
  exact both.1

/-- A counted header does not bear on which channels a receiver takes. -/
theorem Dev.camTakes_corrected (d : Dev) (m vc : Nat) : (d.bump (F.CAMm_HDR_ERR_CORR m)).camTakes m vc = d.camTakes m vc := by
  have apart : (F.CAMm_HDR_ERR_CORR m).key ≠ (F.CAMm_CTRL_EN m).key := by
    simp only [camKeys]
    omega
  exact congrArg (fun n => n != 0 && camVc (d.sections false) m vc) (Dev.get_put_ne d _ _ _ apart)

/-! ## Frame starts (R232, R236) -/

theorem exec_camFrameStart (m : Cam) (vc : Fin 4) (hdr : HdrEcc) (s : State) : exec (.camFrameStart m ⟨vc, hdr⟩) s =
    .next (s.onDev (fun d => d.camHeader m.val hdr (fun d => d.camStart m.val vc.val))) := rfl

/-- The device whose receiver m has begun frame f on a channel, before the event. -/
def Dev.camBegun (d : Dev) (m vc : Nat) (f : CamFrame) : Dev :=
  (d.updCam m (fun c => { c with frames := tput c.frames vc f, last := d.time, trig := false, lost := false })).put (F.CAMm_STAT_LINK m) 1

section
variable {d : Dev} {m vc : Nat}

theorem Dev.camStart_ignored (h : d.camTakes m vc = false) : d.camStart m vc = d := if_neg (by simp [h])

/-- A frame start that the receiver takes begins a frame with the settings of now; after a loss of the link it is recorded. -/
theorem Dev.camStart_taken (h : d.camTakes m vc = true) : ∃ f : CamFrame,
    (f.time = d.time ∧ f.tick = d.tick ∧ f.dt = d.get (F.CAMm_CTRL_DT m) ∧ f.thr = d.get (F.CAMm_THRESH_THR m) ∧
      f.x0 = d.get (F.CAMm_ROI_XY_X0 m) ∧ f.y0 = d.get (F.CAMm_ROI_XY_Y0 m) ∧ f.w = d.get (F.CAMm_ROI_WH_W m) ∧
      f.h = d.get (F.CAMm_ROI_WH_H m) ∧ f.line = 0 ∧ f.area = 0 ∧ f.damaged = false ∧ f.triggered = (d.cam m).trig ∧ f.raw = []) ∧
    ((d.cam m).lost = false → d.camStart m vc = d.camBegun m vc f) ∧
    ((d.cam m).lost = true → d.camStart m vc =
      (d.camBegun m vc f).raise 0x0521 (srcCam m) 1 m (d.get (F.CAMm_FRAMES_COUNT m)) d.tick.toNat) := by
  refine ⟨_, ?_, fun kept => (if_pos h).trans (if_neg (by rw [kept]; simp)), fun lost => (if_pos h).trans (if_pos lost)⟩
  exact ⟨rfl, rfl, rfl, rfl, rfl, rfl, rfl, rfl, rfl, rfl, rfl, rfl, rfl⟩

variable (d) (f : CamFrame)

theorem Dev.camBegun_snsRec : d.SnsRec [F.CAMm_STAT_LINK m] (d.camBegun m vc f) := ((SnsRec.refl d).updCam m _).put (by simp) 1

theorem Dev.camBegun_cam : (d.camBegun m vc f).cam m =
    { d.cam m with frames := tput (d.cam m).frames vc f, last := d.time, trig := false, lost := false } := tget_tput_self ..

theorem Dev.camBegun_link : (d.camBegun m vc f).get (F.CAMm_STAT_LINK m) = 1 := Dev.get_put_self _ _ 1

end

theorem exec_camFrameStart_taken {m : Cam} {vc : Fin 4} {s : State} (h : s.dev.camTakes m.val vc.val = true) :
    ∃ t : State, exec (.camFrameStart m ⟨vc, .clean⟩) s = .next t ∧
      (∃ f : CamFrame, tfind (t.dev.cam m.val).frames vc.val = some f ∧ f.time = s.dev.time ∧ f.tick = s.dev.tick ∧
        f.dt = s.dev.get (F.CAMm_CTRL_DT m.val) ∧ f.thr = s.dev.get (F.CAMm_THRESH_THR m.val) ∧
        f.x0 = s.dev.get (F.CAMm_ROI_XY_X0 m.val) ∧ f.y0 = s.dev.get (F.CAMm_ROI_XY_Y0 m.val) ∧
        f.w = s.dev.get (F.CAMm_ROI_WH_W m.val) ∧ f.h = s.dev.get (F.CAMm_ROI_WH_H m.val) ∧ f.line = 0 ∧ f.area = 0 ∧
        f.damaged = false ∧ f.triggered = (s.dev.cam m.val).trig ∧ f.raw = []) ∧
      t.dev.get (F.CAMm_STAT_LINK m.val) = 1 ∧ (t.dev.cam m.val).last = s.dev.time ∧ (t.dev.cam m.val).lost = false ∧
      ((s.dev.cam m.val).lost = false → t.dev.evr = s.dev.evr) ∧
      ((s.dev.cam m.val).lost = true →
        recorded s.dev t.dev 0x0521 (srcCam m.val) 1 m.val (s.dev.get (F.CAMm_FRAMES_COUNT m.val)) s.dev.tick.toNat) ∧
      t = { s with dev := { s.dev with regs := t.dev.regs, evr := t.dev.evr, sns := t.dev.sns } } ∧
      regsKeep (recFlds ++ [F.CAMm_STAT_LINK m.val]) s.dev t.dev := by
  obtain ⟨f, settings, kept, lost⟩ := Dev.camStart_taken h
  have begun : s.dev.SnsRec [F.CAMm_STAT_LINK m.val] (s.dev.camBegun m.val vc.val f) := s.dev.camBegun_snsRec f
  have link := (camLink_ofPorts m.isLt).1
  have cam := s.dev.camBegun_cam (m := m.val) (vc := vc.val) f
  have bit := s.dev.camBegun_link (m := m.val) (vc := vc.val) f
  refine ⟨_, exec_camFrameStart m vc .clean s, ?_⟩
  rw [State.onDev_dev, State.onDev, Dev.camHeader_clean _ (Dev.camTakes_enabled h)]
  cases hl : (s.dev.cam m.val).lost with
  | false =>
    rw [kept hl, cam]
    exact ⟨⟨f, tfind_tput_self .., settings⟩, bit, rfl, rfl, fun _ => rfl, fun no => absurd no (by simp), rfl,
      (begun.mono (fun _ hG => List.mem_append_right _ hG)).keeps⟩
  | true =>
    have raised := begun.raise 0x0521 (srcCam m.val) 1 m.val (s.dev.get (F.CAMm_FRAMES_COUNT m.val)) s.dev.tick.toNat
    rw [lost hl, Dev.cam_congr (Dev.raise_sns ..), cam]
    exact ⟨⟨f, tfind_tput_self .., settings⟩, (Dev.get_raise_ofPorts _ link ..).trans bit, rfl, rfl, fun no => absurd no (by simp),
      fun _ => begun.recorded rfl (by simp [link]) .., congrArg (fun d => { s with dev := d }) raised.frame, raised.keeps⟩

/-! ## Lines (R230, R232) -/

theorem exec_camLongPacket (m : Cam) (vc : Fin 4) (hdr : HdrEcc) (dt : Byte) (pay : List Byte) (ok : Bool) (s : State) :
    exec (.camLongPacket m vc hdr dt pay ok) s = .next (s.onDev (fun d => d.camPacket m.val vc.val hdr dt.toNat pay ok)) := rfl

section
variable {d : Dev} {m vc dt : Nat} (pay : List Byte) (ok : Bool) (h : d.camTakes m vc = true)
include h

/-- A packet of another type than the chosen one is counted. -/
theorem Dev.camPacket_other (hdt : dt ≠ camType (d.get (F.CAMm_CTRL_DT m))) :
    d.camPacket m vc .clean dt pay ok = d.bump (F.CAMm_CRC_ERR_COUNT m) := by
  rw [Dev.camPacket, Dev.camHeader_clean _ (Dev.camTakes_enabled h), if_neg (by simp [h]), if_pos (by simpa using hdt)]

/-- A packet of the chosen type adds its line to the frame; one that failed its checksum is counted beside. -/
theorem Dev.camPacket_line {f : CamFrame} (hdt : dt = camType (d.get (F.CAMm_CTRL_DT m))) (hf : tfind (d.cam m).frames vc = some f) :
    d.camPacket m vc .clean dt pay ok = (if ok then d else d.bump (F.CAMm_CRC_ERR_COUNT m)).updCam m
      (fun c => { c with frames := tput c.frames vc (f.takeLine pay ok) }) := by
  rw [Dev.camPacket, Dev.camHeader_clean _ (Dev.camTakes_enabled h), if_neg (by simp [h]), if_neg (by simp [hdt])]
  simp only [hf]

end

theorem exec_camLongPacket_other {m : Cam} {vc : Fin 4} {dt : Byte} {s : State} (pay : List Byte) (ok : Bool)
    (h : s.dev.camTakes m.val vc.val = true) (hdt : dt.toNat ≠ camType (s.dev.get (F.CAMm_CTRL_DT m.val))) :
    ∃ t : State, exec (.camLongPacket m vc .clean dt pay ok) s = .next t ∧ onlyRegs [F.CAMm_CRC_ERR_COUNT m.val] s t ∧
      t.dev.get (F.CAMm_CRC_ERR_COUNT m.val) = min (s.dev.get (F.CAMm_CRC_ERR_COUNT m.val) + 1)
        (2 ^ (F.CAMm_CRC_ERR_COUNT m.val).width - 1) := by
  refine ⟨_, exec_camLongPacket m vc .clean dt pay ok s, ?_⟩
  rw [State.onDev, Dev.camPacket_other pay ok h hdt]
  exact ⟨s.onlyRegs_put _ _, s.dev.bump_get _⟩

theorem exec_camLongPacket_line {m : Cam} {vc : Fin 4} {dt : Byte} {s : State} {f : CamFrame} (pay : List Byte) (ok : Bool)
    (h : s.dev.camTakes m.val vc.val = true) (hdt : dt.toNat = camType (s.dev.get (F.CAMm_CTRL_DT m.val)))
    (hf : tfind (s.dev.cam m.val).frames vc.val = some f) :
    ∃ t : State, exec (.camLongPacket m vc .clean dt pay ok) s = .next t ∧
      tfind (t.dev.cam m.val).frames vc.val = some (f.takeLine pay ok) ∧ (∀ k : Nat, k ≠ m.val → t.dev.cam k = s.dev.cam k) ∧
      t = { s with dev := { s.dev with regs := t.dev.regs, sns := t.dev.sns } } ∧
      regsKeep [F.CAMm_CRC_ERR_COUNT m.val] s.dev t.dev := by
  have counted : s.dev.RegsOnly [F.CAMm_CRC_ERR_COUNT m.val] (if ok then s.dev else s.dev.bump (F.CAMm_CRC_ERR_COUNT m.val)) := by
    cases ok
    · exact (Dev.RegsOnly.refl s.dev).put (by simp) _
    · exact .refl s.dev
  refine ⟨_, exec_camLongPacket m vc .clean dt pay ok s, ?_⟩
  rw [State.onDev_dev, State.onDev, Dev.camPacket_line pay ok h hdt hf]
  generalize (if ok then s.dev else s.dev.bump (F.CAMm_CRC_ERR_COUNT m.val)) = e at counted
  have same : ∀ k, e.cam k = s.dev.cam k := Dev.cam_congr ((congrArg Dev.sns counted.frame).trans rfl)
  refine ⟨?_, fun k hk => (e.updCam_cam_ne _ hk).trans (same k), ?_, regsKeep_trans counted.keeps (regsKeep_of_regs rfl)⟩
  · rw [Dev.updCam_cam]
    exact tfind_tput_self ..
  · rw [counted.frame]
    rfl

/-! ## Record rings and the writes of a row (R437) -/

/-- A ring without a slot keeps no record. -/
theorem Dev.ringPut_none {d : Dev} {r : Ring} (h : d.ringLen r = 0) (data : List Byte) : d.ringPut r data = (d, false) :=
  if_neg (by simp [Dev.ringKept, h])

/-- A ring with room takes a record into the slot at WR, and WR moves past it. -/
theorem Dev.ringPut_room {d : Dev} {r : Ring} (h : 0 < d.ringLen r) (room : d.ringFull r = false) (data : List Byte) : d.ringPut r data =
    ((d.queueWr r.src (d.get r.base * 4096 + d.get r.wr * r.bytes) data).put r.wr ((d.get r.wr + 1) % d.ringLen r), false) := by
  rw [Dev.ringPut, if_pos (by simpa [Dev.ringKept] using h), room]
  rfl

/-- A row that forms one write, into DRAM that is present, lands it; beside that it may wake a channel. -/
theorem State.runDev_lands {s : State} {f : Dev → Dram → Dev} {e : Dev} {w : MemWr} (he : f s.settled.dev s.mem = e) (hw : e.wq = [w])
    (hp : e.present w) : ∃ d', ({ e with wq := [] } : Dev).wakeOnly d' ∧
      s.runDev f = { s with mem := s.mem.writeBytes w.addr w.data, dev := d' } := by
  subst he
  exact State.flushWr_present (s := { s with dev := f s.settled.dev s.mem }) hw (fun x hx => by rwa [List.mem_singleton.mp hx])

/-- Registers outside those of a write's map keep what a write keeps. -/
theorem Dev.WriteKeeps.of_ofPorts {fs : List Fld} {d d' : Dev} (h : regsKeep fs d d') (hs : ∀ G ∈ fs, G.ofPorts) : d.WriteKeeps d' := by
  have apart : ∀ k ∈ keptFlds.map Fld.key, k < 0x100000 * 32 ∨ 0x241000 * 32 ≤ k := by decide
  refine .of_get (fun G hG => h G (fun q => ?_))
  obtain ⟨A, hA, key⟩ := List.mem_map.mp q
  have far := apart _ (List.mem_map_of_mem hG)
  have near := hs A hA
  unfold Fld.ofPorts at near
  omega

/-! ## Frame ends (R233) -/

theorem exec_camFrameEnd (m : Cam) (vc : Fin 4) (hdr : HdrEcc) (s : State) : exec (.camFrameEnd m ⟨vc, hdr⟩) s =
    .next (s.runDev (fun d _ => d.camHeader m.val hdr (fun d => d.camEnd m.val vc.val))) := rfl

/-- A frame end that forms no write changes the device alone. -/
theorem exec_camFrameEnd_noWrites {m : Cam} {vc : Fin 4} {hdr : HdrEcc} {s : State} {d : Dev}
    (hd : s.settled.dev.camHeader m.val hdr (fun d => d.camEnd m.val vc.val) = d) (hw : d.wq = []) :
    exec (.camFrameEnd m ⟨vc, hdr⟩) s = .next { s with dev := d } := by
  subst hd
  exact congrArg Host.Outcome.next (State.runDev_noWrites s _ hw)

theorem exec_camFrameEnd_ignored {m : Cam} {vc : Fin 4} {hdr : HdrEcc} {s : State}
    (h : s.settled.dev.camHeader m.val hdr (fun d => d.camEnd m.val vc.val) = s.settled.dev) :
    exec (.camFrameEnd m ⟨vc, hdr⟩) s = .next s.settled := exec_camFrameEnd_noWrites h rfl

/-- The device on which frame f of receiver m has ended, counted and not captured, before its record. -/
def Dev.camEnded (d : Dev) (m vc : Nat) (f : CamFrame) : Dev :=
  ((d.updCam m (fun c => { c with frames := tdel c.frames vc })).bumpWrap (F.CAMm_FRAMES_COUNT m)).setFlag (F.CAMm_STAT_DAMAGED m)
    (f.damaged || d.flag (F.CAMm_STAT_DAMAGED m))

/-- The registers in which the end of a frame shows. -/
def camEndFlds (m : Nat) : List Fld := [F.CAMm_FRAMES_COUNT m, F.CAMm_STAT_DAMAGED m]

theorem camEndFlds_ofPorts {m : Nat} (hm : m < 8) : ∀ G ∈ F.CAMm_FEAT_WR_INDEX m :: camEndFlds m, G.ofPorts := by
  simp only [camEndFlds, List.forall_mem_cons, Fld.ofPorts, camKeys, List.not_mem_nil, false_imp_iff, implies_true, and_true]
  omega

/-- A mean that the spec gives needs no free value. -/
theorem CamFrame.mean_given {f : CamFrame} (h : f.area = 0 ∨ f.sw ≠ 0) (x u v : Nat) : f.mean x u = f.mean x v := by
  unfold CamFrame.mean
  rcases h with h | h <;> simp [h]

@[simp] theorem CamFrame.record_length (f : CamFrame) (m vc : Nat) (captured dropped : Bool) (ofs fx fy : Nat) :
    (f.record m vc captured dropped ofs fx fy).length = 32 := by
  simp [CamFrame.record]

section
variable {d : Dev} {m vc : Nat} {f : CamFrame}

theorem Dev.camEnd_none (h : tfind (d.cam m).frames vc = none) : d.camEnd m vc = d := by
  simp only [Dev.camEnd, h]

section
variable (hf : tfind (d.cam m).frames vc = some f) (hc : f.cap = false) (hm : f.area = 0 ∨ f.sw ≠ 0)
include hf hc hm

/-- A frame that is not captured leads to its record alone, and a record that finds room overwrites none. -/
theorem Dev.camEnd_recorded {e : Dev}
    (h : (d.camEnded m vc f).ringPut (featRing m) (f.record m vc false false 0 0 0) = (e, false)) : d.camEnd m vc = e := by
  have given : (f.area != 0 && f.sw == 0) = false := by
    rcases hm with hm | hm <;> simp [hm]
  have same : ∀ u v, f.record m vc false false 0 u v = f.record m vc false false 0 0 0 := fun u v => by
    rw [CamFrame.record, CamFrame.mean_given hm f.sx u 0, CamFrame.mean_given hm f.sy v 0]
    rfl
  simp only [Dev.camEnd, hf, hc, given, Bool.false_and, Bool.false_eq_true, if_false, Option.isSome_none, Option.getD_none, same]
  exact (congrArg (fun w : Dev × Bool => if w.2 then w.1.setFlag (F.CAMm_STAT_FEATLOST m) true else w.1) h).trans rfl

end

variable (d) (vc) (f)

theorem Dev.camEnded_snsRec : d.SnsRec (camEndFlds m) (d.camEnded m vc f) :=
  (((SnsRec.refl d).updCam m _).put (by simp [camEndFlds]) _).put (by simp [camEndFlds]) _

theorem Dev.camEnded_cam : (d.camEnded m vc f).cam m = { d.cam m with frames := tdel (d.cam m).frames vc } := tget_tput_self ..

theorem Dev.camEnded_count : (d.camEnded m vc f).getW (F.CAMm_FRAMES_COUNT m) = d.getW (F.CAMm_FRAMES_COUNT m) + 1 := by
  have apart : (F.CAMm_STAT_DAMAGED m).key ≠ (F.CAMm_FRAMES_COUNT m).key := by
    simp only [camKeys]
    omega
  have count : (d.camEnded m vc f).get (F.CAMm_FRAMES_COUNT m) = (d.get (F.CAMm_FRAMES_COUNT m) + 1) % 2 ^ 32 :=
    (Dev.get_put_ne _ _ _ _ apart).trans (Dev.get_put_self _ _ _)
  rw [Dev.getW_eq, Dev.getW_eq, count]
  exact BitVec.eq_of_toNat_eq (by simp)

/-- The feature ring stands where it stood. -/
theorem Dev.camEnded_ring : (d.camEnded m vc f).get (F.CAMm_FEAT_BASE_BASE m) = d.get (F.CAMm_FEAT_BASE_BASE m) ∧
    (d.camEnded m vc f).get (F.CAMm_FEAT_SIZE_SIZE m) = d.get (F.CAMm_FEAT_SIZE_SIZE m) ∧
    (d.camEnded m vc f).get (F.CAMm_FEAT_WR_INDEX m) = d.get (F.CAMm_FEAT_WR_INDEX m) ∧
    (d.camEnded m vc f).get (F.CAMm_FEAT_RD_INDEX m) = d.get (F.CAMm_FEAT_RD_INDEX m) := by
  have keeps : ∀ G : Fld, G.key ∉ (camEndFlds m).map Fld.key → (d.camEnded m vc f).get G = d.get G := (d.camEnded_snsRec vc f).keeps
  refine ⟨keeps _ ?_, keeps _ ?_, keeps _ ?_, keeps _ ?_⟩ <;>
    simp only [camEndFlds, List.map_cons, List.map_nil, List.mem_cons, List.not_mem_nil, or_false, camKeys] <;> omega

end

/-! ## Feature records (R233) -/

/-- The address of the slot of a feature ring at WR. -/
def Dev.featSlot (d : Dev) (m : Nat) : Nat := d.get (F.CAMm_FEAT_BASE_BASE m) * 4096 + d.get (F.CAMm_FEAT_WR_INDEX m) * 32

/-- The write of the record of frame f, which is not captured. -/
def Dev.featWr (d : Dev) (m vc : Nat) (f : CamFrame) : MemWr := ⟨0x48 + m, d.featSlot m, f.record m vc false false 0 0 0⟩

/-- The device on which frame f of receiver m has ended and its record is formed. -/
def Dev.featFormed (d : Dev) (m vc : Nat) (f : CamFrame) : Dev :=
  ({ d.camEnded m vc f with wq := d.wq ++ [d.featWr m vc f] } : Dev).put (F.CAMm_FEAT_WR_INDEX m)
    ((d.get (F.CAMm_FEAT_WR_INDEX m) + 1) % d.ringLen (featRing m))

section
variable {d : Dev} {m vc : Nat} {f : CamFrame} (hf : tfind (d.cam m).frames vc = some f) (hc : f.cap = false) (hm : f.area = 0 ∨ f.sw ≠ 0)
include hf hc hm

theorem Dev.camEnd_noRing (hn : d.ringLen (featRing m) = 0) : d.camEnd m vc = d.camEnded m vc f := by
  obtain ⟨-, size, -, -⟩ := d.camEnded_ring (m := m) vc f
  have len : (d.camEnded m vc f).ringLen (featRing m) = 0 := (congrArg (fun n => n * 4096 / 32) size).trans hn
  exact Dev.camEnd_recorded hf hc hm (Dev.ringPut_none len _)

theorem Dev.camEnd_ring (hn : 0 < d.ringLen (featRing m)) (room : d.ringFull (featRing m) = false) : d.camEnd m vc = d.featFormed m vc f := by
  obtain ⟨base, size, wr, rd⟩ := d.camEnded_ring (m := m) vc f
  have len : (d.camEnded m vc f).ringLen (featRing m) = d.ringLen (featRing m) := congrArg (fun n => n * 4096 / 32) size
  have full : (d.camEnded m vc f).ringFull (featRing m) = d.ringFull (featRing m) := by
    simp only [Dev.ringFull, len]
    exact congrArg₂ (fun w r => (w + 1) % _ == r) wr rd
  have put := Dev.ringPut_room (hn.trans_eq len.symm) (full.trans room) (f.record m vc false false 0 0 0)
  have slot : (d.camEnded m vc f).get (featRing m).base * 4096 + (d.camEnded m vc f).get (featRing m).wr * (featRing m).bytes = d.featSlot m :=
    congrArg₂ (fun b w => b * 4096 + w * 32) base wr
  rw [slot, len, show (d.camEnded m vc f).get (featRing m).wr = d.get (F.CAMm_FEAT_WR_INDEX m) from wr] at put
  exact Dev.camEnd_recorded hf hc hm put

end

section
variable (d : Dev) {m : Nat} (vc : Nat) (f : CamFrame)

theorem Dev.featFormed_keeps : regsKeep (F.CAMm_FEAT_WR_INDEX m :: camEndFlds m) d (d.featFormed m vc f) :=
  regsKeep_trans (regsKeep_mono (d.camEnded_snsRec vc f).keeps (fun _ hG => List.mem_cons_of_mem _ hG))
    (regsKeep_put { d.camEnded m vc f with wq := _ } _ _ (List.mem_cons_self ..))

theorem Dev.featFormed_wr (hn : 0 < d.ringLen (featRing m)) (hw : d.ringLen (featRing m) ≤ 2 ^ (F.CAMm_FEAT_WR_INDEX m).width) :
    (d.featFormed m vc f).get (F.CAMm_FEAT_WR_INDEX m) = (d.get (F.CAMm_FEAT_WR_INDEX m) + 1) % d.ringLen (featRing m) :=
  (Dev.get_put_self _ _ _).trans (Nat.mod_eq_of_lt (Nat.lt_of_lt_of_le (Nat.mod_lt _ hn) hw))

/-- The record has the DRAM that was present for it. -/
theorem Dev.featFormed_present (hm : m < 8) (hb : d.beyond (d.featSlot m) 32 = false) (hg : d.goneAt (d.featSlot m) 32 = none) :
    (d.featFormed m vc f).present (d.featWr m vc f) := by
  refine (Dev.WriteKeeps.of_ofPorts (d.featFormed_keeps vc f) (camEndFlds_ofPorts hm)).present ?_
  rw [Dev.present, Dev.featWr, CamFrame.record_length]
  exact ⟨hb, hg⟩

end

/-- A wake-up leaves the registers of ports, sensing and cameras alone. -/
theorem Dev.wakeOnly.get_ofPorts {d d' : Dev} (h : d.wakeOnly d') {G : Fld} (hG : G.ofPorts) : d'.get G = d.get G := by
  have apart : ∀ k ∈ wakeFlds.map Fld.key, 0x241000 * 32 ≤ k := by decide
  refine h.get (fun q => ?_)
  have far := apart _ q
  unfold Fld.ofPorts at hG
  omega

section
variable {m : Cam} {vc : Fin 4} {s : State} {f : CamFrame} (on : s.dev.get (F.CAMm_CTRL_EN m.val) ≠ 0)
  (hf : tfind (s.dev.cam m.val).frames vc.val = some f) (hc : f.cap = false) (hm : f.area = 0 ∨ f.sw ≠ 0)
include on hf hc hm

/-- Without a feature ring the end of a frame is only counted. -/
theorem exec_camFrameEnd_noRing (hn : s.dev.ringLen (featRing m.val) = 0) :
    ∃ t : State, exec (.camFrameEnd m ⟨vc, .clean⟩) s = .next t ∧ tfind (t.dev.cam m.val).frames vc.val = none ∧
      t.dev.getW (F.CAMm_FRAMES_COUNT m.val) = s.dev.getW (F.CAMm_FRAMES_COUNT m.val) + 1 ∧ t.mem = s.mem ∧ t.dev.evr = s.dev.evr ∧
      regsKeep (camEndFlds m.val) s.dev t.dev := by
  have ends : s.settled.dev.camHeader m.val .clean (fun d => d.camEnd m.val vc.val) = s.settled.dev.camEnded m.val vc.val f :=
    (Dev.camHeader_clean (d := s.settled.dev) _ on).trans (Dev.camEnd_noRing (d := s.settled.dev) hf hc hm hn)
  have runs := exec_camFrameEnd_noWrites ends rfl
  refine ⟨_, runs, ?_, s.settled.dev.camEnded_count vc.val f, rfl, rfl, (s.settled.dev.camEnded_snsRec vc.val f).keeps⟩
  rw [Dev.camEnded_cam]
  exact tfind_tdel_self ..

/-- With room in a feature ring that lies in DRAM that is present, the record lands in the slot at WR. -/
theorem exec_camFrameEnd_ring (hn : 0 < s.dev.ringLen (featRing m.val))
    (hw : s.dev.ringLen (featRing m.val) ≤ 2 ^ (F.CAMm_FEAT_WR_INDEX m.val).width) (room : s.dev.ringFull (featRing m.val) = false)
    (hb : s.dev.beyond (s.dev.featSlot m.val) 32 = false) (hg : s.dev.goneAt (s.dev.featSlot m.val) 32 = none) :
    ∃ t : State, exec (.camFrameEnd m ⟨vc, .clean⟩) s = .next t ∧ tfind (t.dev.cam m.val).frames vc.val = none ∧
      t.dev.get (F.CAMm_FEAT_WR_INDEX m.val) = (s.dev.get (F.CAMm_FEAT_WR_INDEX m.val) + 1) % s.dev.ringLen (featRing m.val) ∧
      (∀ k : Nat, t.mem.read k = if s.dev.featSlot m.val ≤ k ∧ k < s.dev.featSlot m.val + 32 then
        (f.record m.val vc.val false false 0 0 0).getD (k - s.dev.featSlot m.val) 0 else s.mem.read k) := by
  have ends : s.settled.dev.camHeader m.val .clean (fun d => d.camEnd m.val vc.val) = s.settled.dev.featFormed m.val vc.val f :=
    (Dev.camHeader_clean (d := s.settled.dev) _ on).trans (Dev.camEnd_ring (d := s.settled.dev) hf hc hm hn room)
  obtain ⟨d', wakes, lands⟩ := State.runDev_lands (f := fun d _ => d.camHeader m.val .clean (fun d => d.camEnd m.val vc.val)) ends rfl
    (s.settled.dev.featFormed_present vc.val f m.isLt hb hg)
  have cam : d'.cam m.val = (s.settled.dev.camEnded m.val vc.val f).cam m.val := Dev.cam_congr ((congrArg Dev.sns wakes.1).trans rfl) _
  have wr : (F.CAMm_FEAT_WR_INDEX m.val).ofPorts := camEndFlds_ofPorts m.isLt _ (List.mem_cons_self ..)
  have moves := s.settled.dev.featFormed_wr vc.val f hn hw
  have runs : exec (.camFrameEnd m ⟨vc, .clean⟩) s = .next _ := congrArg Host.Outcome.next lands
  refine ⟨_, runs, ?_, (wakes.get_ofPorts wr).trans moves, fun k => ?_⟩
  · rw [cam, Dev.camEnded_cam]
    exact tfind_tdel_self ..
  · rw [Dram.writeBytes_read, Dev.featWr, CamFrame.record_length]
    rfl

end

/-! ## Links (R236) -/

theorem exec_camLinkTimeout (m : Cam) (s : State) : exec (.camLinkTimeout m) s = .next (s.onDev (fun d => d.camTimeout m.val)) := rfl

/-- The device whose receiver m has lost its link, before the event. -/
def Dev.camLost (d : Dev) (m : Nat) : Dev :=
  ((d.put (F.CAMm_STAT_LINK m) 0).put (F.CAMm_STAT_TIMEOUT m) 1).updCam m (fun c => { c with lost := true })

section
variable {d : Dev} {m : Nat}

theorem Dev.camTimeout_not_due (h : d.get (F.CAMm_CTRL_EN m) = 0 ∨ (d.cam m).lost = true ∨ elapsed64 d.time (d.cam m).last < 1000000000) :
    d.camTimeout m = d := by
  refine if_neg ?_
  rcases h with h | h | h <;> simp [h]

theorem Dev.camTimeout_due (on : d.get (F.CAMm_CTRL_EN m) ≠ 0) (hl : (d.cam m).lost = false)
    (late : 1000000000 ≤ elapsed64 d.time (d.cam m).last) : d.camTimeout m =
      (d.camLost m).raise 0x0520 (srcCam m) 2 m (d.get (F.CAMm_FRAMES_COUNT m)) d.tick.toNat :=
  if_pos (by simp [on, hl, late])

variable (d)

theorem Dev.camLost_snsRec : d.SnsRec [F.CAMm_STAT_LINK m, F.CAMm_STAT_TIMEOUT m] (d.camLost m) :=
  (((SnsRec.refl d).put (by simp) 0).put (by simp) 1).updCam m _

theorem Dev.camLost_get : (d.camLost m).get (F.CAMm_STAT_LINK m) = 0 ∧ (d.camLost m).get (F.CAMm_STAT_TIMEOUT m) = 1 := by
  have apart : (F.CAMm_STAT_TIMEOUT m).key ≠ (F.CAMm_STAT_LINK m).key := by
    simp only [camKeys]
    omega
  exact ⟨(Dev.get_put_ne _ _ _ _ apart).trans (Dev.get_put_self _ _ 0), Dev.get_put_self _ _ 1⟩

end

theorem exec_camLinkTimeout_due {m : Cam} {s : State} (on : s.dev.get (F.CAMm_CTRL_EN m.val) ≠ 0) (hl : (s.dev.cam m.val).lost = false)
    (late : 1000000000 ≤ elapsed64 s.dev.time (s.dev.cam m.val).last) :
    ∃ t : State, exec (.camLinkTimeout m) s = .next t ∧ t.dev.get (F.CAMm_STAT_LINK m.val) = 0 ∧
      t.dev.get (F.CAMm_STAT_TIMEOUT m.val) = 1 ∧ (t.dev.cam m.val).lost = true ∧
      recorded s.dev t.dev 0x0520 (srcCam m.val) 2 m.val (s.dev.get (F.CAMm_FRAMES_COUNT m.val)) s.dev.tick.toNat ∧
      t = { s with dev := { s.dev with regs := t.dev.regs, evr := t.dev.evr, sns := t.dev.sns } } ∧
      regsKeep (recFlds ++ [F.CAMm_STAT_LINK m.val, F.CAMm_STAT_TIMEOUT m.val]) s.dev t.dev := by
  have lost := s.dev.camLost_snsRec (m := m.val)
  have raised := lost.raise 0x0520 (srcCam m.val) 2 m.val (s.dev.get (F.CAMm_FRAMES_COUNT m.val)) s.dev.tick.toNat
  have cam : ((s.dev.camLost m.val).cam m.val).lost = true := congrArg CamRx.lost (Dev.updCam_cam ..)
  obtain ⟨link, timeout⟩ := s.dev.camLost_get (m := m.val)
  obtain ⟨linkPlace, timeoutPlace⟩ := camLink_ofPorts m.isLt
  refine ⟨_, exec_camLinkTimeout m s, ?_⟩
  rw [State.onDev_dev, State.onDev, Dev.camTimeout_due on hl late, Dev.cam_congr (Dev.raise_sns ..)]
  exact ⟨(Dev.get_raise_ofPorts _ linkPlace ..).trans link, (Dev.get_raise_ofPorts _ timeoutPlace ..).trans timeout, cam,
    lost.recorded rfl (by simp [linkPlace, timeoutPlace]) .., congrArg (fun d => { s with dev := d }) raised.frame, raised.keeps⟩

/-! ## Triggers (R234, R361) -/

theorem exec_camTrigger (m : Cam) (s : State) : exec (.camTrigger m) s = .next (s.onDev (fun d => d.camTrigger m.val)) := rfl

/-- The device whose receiver m remembers a trigger, before the pulse. -/
def Dev.camTriggered (d : Dev) (m : Nat) : Dev :=
  d.updCam m (fun c => { c with trig := true, fire := if d.camFired m then none else c.fire })

section
variable {d : Dev} {m : Nat}

theorem Dev.camTrigger_not_due (hd : d.camDue m = false) (hf : d.camFired m = false) : d.camTrigger m = d := if_neg (by simp [hd, hf])

theorem Dev.camTrigger_due (h : d.camDue m = true ∨ d.camFired m = true) :
    d.camTrigger m = (d.camTriggered m).pulse (0x20 + m) (1000 * max 1 (d.get (F.CAMm_TRIG_WIDTH m))) := if_pos (by simpa using h)

end

section
variable (d : Dev) (f ns : Nat)

/-- A pulse changes the pins alone. -/
theorem Dev.pulse_frame : d.pulse f ns = { d with pins := (d.pulse f ns).pins } := by
  unfold Dev.pulse
  split <;> rfl

theorem Dev.pulse_sns : (d.pulse f ns).sns = d.sns := (congrArg Dev.sns (d.pulse_frame f ns)).trans rfl

/-- A function without a pin drives none. -/
theorem Dev.pulse_noPin (h : pinWith (d.sections false) f = none) : d.pulse f ns = d := by
  simp only [Dev.pulse, h]

/-- A pin that is low is driven high for the time of the pulse. -/
theorem Dev.pulse_low {g : Nat} (h : pinWith (d.sections false) f = some g) (low : tfind d.pins g = none) :
    tfind (d.pulse f ns).pins g = some (d.time + BitVec.ofNat 64 ns) := by
  simp only [Dev.pulse, h, low]
  exact tfind_tput_self ..

end

theorem exec_camTrigger_due {m : Cam} {s : State} (h : s.dev.camDue m.val = true ∨ s.dev.camFired m.val = true) :
    ∃ t : State, exec (.camTrigger m) s = .next t ∧ (t.dev.cam m.val).trig = true ∧
      (s.dev.camFired m.val = true → (t.dev.cam m.val).fire = none) ∧
      (∀ g : Nat, pinWith (s.dev.sections false) (0x20 + m.val) = some g → tfind s.dev.pins g = none →
        tfind t.dev.pins g = some (s.dev.time + BitVec.ofNat 64 (1000 * max 1 (s.dev.get (F.CAMm_TRIG_WIDTH m.val))))) ∧
      (pinWith (s.dev.sections false) (0x20 + m.val) = none → t.dev.pins = s.dev.pins) ∧
      t = { s with dev := { s.dev with sns := t.dev.sns, pins := t.dev.pins } } := by
  have frame := (s.dev.camTriggered m.val).pulse_frame (0x20 + m.val) (1000 * max 1 (s.dev.get (F.CAMm_TRIG_WIDTH m.val)))
  have cam : (s.dev.camTriggered m.val).cam m.val = _ := Dev.updCam_cam ..
  refine ⟨_, exec_camTrigger m s, ?_⟩
  rw [State.onDev_dev, State.onDev, Dev.camTrigger_due h, Dev.cam_congr (Dev.pulse_sns ..), cam]
  refine ⟨rfl, fun fired => if_pos fired, fun g => (s.dev.camTriggered m.val).pulse_low _ _, fun none => ?_, ?_⟩
  · exact (congrArg Dev.pins ((s.dev.camTriggered m.val).pulse_noPin _ _ none)).trans rfl
  · rw [Dev.pulse_sns]
    exact congrArg (fun d => { s with dev := d }) frame

/-! ## The rows -/

/-- What a packet with a bad header does: it is counted. -/
theorem Dev.camHeader_bad_counts {s : State} {m : Cam} (f : Dev → Dev) (on : s.dev.get (F.CAMm_CTRL_EN m.val) ≠ 0) :
    (s.dev.camHeader m.val .bad f).get (F.CAMm_HDR_ERR_UNCORR m.val) =
      min (s.dev.get (F.CAMm_HDR_ERR_UNCORR m.val) + 1) (2 ^ (F.CAMm_HDR_ERR_UNCORR m.val).width - 1) ∧
    onlyRegs [F.CAMm_HDR_ERR_UNCORR m.val] s { s with dev := s.dev.camHeader m.val .bad f } := by
  rw [Dev.camHeader_bad f on]
  exact ⟨s.dev.bump_get _, s.onlyRegs_put _ _⟩

/-- Settles O37: a packet is counted, begins or ends a frame or adds its line; the second without a frame start and the trigger are events of
their receiver, and the record of a frame lands in the slot that its ring has free. -/
theorem camerasFramesAndTriggers : Obligations.CamerasFramesAndTriggers := by
  unfold Obligations.CamerasFramesAndTriggers
  refine ⟨fun m vc s => ⟨fun hdr off => ⟨?_, ?_⟩, fun on => ⟨?_, ?_, fun other => ?_⟩, fun other => ?_, exec_camFrameStart_taken,
      fun dt pay ok => ⟨fun hdr off => ?_, fun on => ?_, exec_camLongPacket_other pay ok, fun f => exec_camLongPacket_line pay ok⟩,
      fun none => ?_, fun f on hf hc hm => ⟨exec_camFrameEnd_noRing on hf hc hm, exec_camFrameEnd_ring on hf hc hm⟩⟩,
    fun m s => ⟨fun h => ?_, exec_camLinkTimeout_due, fun hd hf => ?_, exec_camTrigger_due⟩⟩
  · rw [exec_camFrameStart, State.onDev, Dev.camHeader_off _ off]
  · exact exec_camFrameEnd_ignored (Dev.camHeader_off (d := s.settled.dev) _ off hdr)
  · exact ⟨_, exec_camFrameStart m vc .bad s, Dev.camHeader_bad_counts _ on⟩
  · have counted := Dev.camHeader_bad_counts (s := s.settled) (fun d => d.camEnd m.val vc.val) on
    exact ⟨_, exec_camFrameEnd_noWrites rfl (congrArg Dev.wq (Dev.camHeader_bad (d := s.settled.dev) _ on)), counted⟩
  · refine ⟨_, exec_camFrameStart m vc .corrected s, ?_⟩
    rw [State.onDev, Dev.camHeader_corrected _ on, Dev.camStart_ignored ((s.dev.camTakes_corrected m.val vc.val).trans other)]
    exact ⟨s.dev.bump_get _, s.onlyRegs_put _ _⟩
  · rw [exec_camFrameStart, State.onDev, Dev.camHeader_clean_idle (fun d => d.camStart m.val vc.val) (Dev.camStart_ignored other)]
  · rw [exec_camLongPacket, State.onDev, Dev.camPacket, Dev.camHeader_off _ off]
  · exact ⟨_, exec_camLongPacket m vc .bad dt pay ok s, Dev.camHeader_bad_counts _ on⟩
  · exact exec_camFrameEnd_ignored (Dev.camHeader_clean_idle (fun d => d.camEnd m.val vc.val) (Dev.camEnd_none none))
  · rw [exec_camLinkTimeout, State.onDev, Dev.camTimeout_not_due h]
  · rw [exec_camTrigger, State.onDev, Dev.camTrigger_not_due hd hf]

end Sys2Proof.Machine

/-! # Standby copies and orphans (09_handoff.md R268, R269)

The takeover of an orphan chooses a cover, which may cut, displace or end other paths, down to the last path of a bed; an owner that hears of it
ends its path. `Dev.held` is the engines and the standby copies; the bookkeeping of paths and takeovers leaves both alone. What a chosen cover
does to its own engine leaves the copies alone. -/

namespace Sys2Proof.Machine

open Sys2Proof.Safety

/-! ## Copies come and go (R268) -/

theorem exec_hoStbyReceived (src : Node) (xid : Word) (b : StbyBody) (s : State) :
    exec (.hoStbyReceived src xid b) s = .next (s.onDev (fun d => d.hoStby src.val xid.toNat b)) := rfl

/-- The state with other standby copies. -/
def Dev.withStby (d : Dev) (l : Table Standby) : Dev := { d with hnd := { d.hnd with stby := l } }

section
variable {d : Dev} {src x : Nat}

theorem Dev.hoStby_header_room (h : StbyHdr) (room : d.hnd.stby.length < 1024) :
    d.hoStby src x (.header h) = d.withStby (tput d.hnd.stby x ⟨src, h, [], [], none, d.time⟩) :=
  if_pos (by simp [maxStandby, room])

theorem Dev.hoStby_header_full (h : StbyHdr) (full : 1024 ≤ d.hnd.stby.length) (hx : tfind d.hnd.stby x = none) :
    d.hoStby src x (.header h) = d.send 0x12 src (leBytes 4 x ++ leBytes 4 7) :=
  if_neg (by simp [maxStandby, Nat.not_lt.mpr full, hx])

theorem Dev.updStby_none (hx : tfind d.hnd.stby x = none) (f : Standby → Standby) : d.updStby src x f = d := by
  unfold Dev.updStby
  rw [hx]

theorem Dev.updStby_some {c : Standby} (hx : tfind d.hnd.stby x = some c) (hc : c.node = src) (f : Standby → Standby) :
    d.updStby src x f = d.withStby (tput d.hnd.stby x (f c)) := by
  unfold Dev.updStby
  rw [hx]
  exact if_pos (by simpa using hc)

theorem Dev.hoStby_body_none (hx : tfind d.hnd.stby x = none) (b : HoBody) : d.hoStby src x (.body b) = d := by
  cases b <;> exact Dev.updStby_none hx _

theorem Dev.dropStby_none (hx : tfind d.hnd.stby x = none) : d.dropStby src x = d := by
  unfold Dev.dropStby
  rw [hx]

theorem Dev.dropStby_some {c : Standby} (hx : tfind d.hnd.stby x = some c) (hc : c.node = src) :
    d.dropStby src x = d.withStby (tdel d.hnd.stby x) := by
  unfold Dev.dropStby
  rw [hx]
  exact if_pos (by simpa using hc)

end

/-- A header opens a copy, or is denied with reason 7 where all are in use. -/
theorem exec_hoStbyReceived_header (src : Node) (xid : Word) (h : StbyHdr) (s : State) :
    (s.dev.hnd.stby.length < 1024 → ∃ t : State, exec (.hoStbyReceived src xid (.header h)) s = .next t ∧
      tfind t.dev.hnd.stby xid.toNat = some ⟨src.val, h, [], [], none, s.dev.time⟩ ∧
      (∀ k : Nat, k ≠ xid.toNat → tfind t.dev.hnd.stby k = tfind s.dev.hnd.stby k) ∧
      t = { s with dev := { s.dev with hnd := { s.dev.hnd with stby := t.dev.hnd.stby } } }) ∧
    (1024 ≤ s.dev.hnd.stby.length → tfind s.dev.hnd.stby xid.toNat = none →
      ∃ t : State, exec (.hoStbyReceived src xid (.header h)) s = .next t ∧
        t.dev.glk.tx = s.dev.glk.tx ++ [⟨0x12, some src.val, tget 0 s.dev.glk.seqs 0x12, leBytes 4 xid.toNat ++ leBytes 4 7⟩] ∧
        t = { s with dev := { s.dev with glk := { s.dev.glk with tx := t.dev.glk.tx, seqs := t.dev.glk.seqs } } }) := by
  refine ⟨fun room => ⟨_, exec_hoStbyReceived .., ?_⟩, fun full hx => ⟨_, exec_hoStbyReceived .., ?_⟩⟩
  · rw [State.onDev, Dev.hoStby_header_room h room]
    exact ⟨tfind_tput_self .., fun k hk => tfind_tput_ne _ _ _ _ hk.symm, rfl⟩
  · rw [State.onDev, Dev.hoStby_header_full h full hx]
    exact ⟨rfl, rfl⟩

/-- Nothing happens to a copy that is not kept. -/
theorem exec_stby_unknown (src : Node) {xid : Word} {s : State} (hx : tfind s.dev.hnd.stby xid.toNat = none) :
    (∀ b : HoBody, exec (.hoStbyReceived src xid (.body b)) s = .next s) ∧
    (∀ (a b x y n : Word) (hit : Bool), exec (.hoMarkReceived src xid a b x y n hit) s = .next s) ∧
    (∀ reason : Byte, exec (.hoStbyEndReceived src xid reason) s = .next s) ∧ exec (.orphanTakeover xid) s = .next s := by
  have same : ∀ {f : Dev → Dev}, f s.dev = s.dev → Host.Outcome.next (s.onDev f) = (.next s : Host.Outcome State Fault Refusal) :=
    fun h => congrArg (fun d => Host.Outcome.next { s with dev := d }) h
  refine ⟨fun b => same (Dev.hoStby_body_none hx b), fun _ _ _ _ _ _ => same (Dev.updStby_none hx _), fun _ => same (Dev.dropStby_none hx),
    same ?_⟩
  unfold Dev.orphanTakeover
  rw [hx]

/-- Segments and marks join the copy of their sender, and its end discards it. -/
theorem exec_stby_known {src : Node} {xid : Word} {s : State} {c : Standby} (hx : tfind s.dev.hnd.stby xid.toNat = some c)
    (hc : c.node = src.val) :
    (∀ (first : Nat) (recs : List (List Byte)), ∃ t : State, exec (.hoStbyReceived src xid (.body (.segs first recs))) s = .next t ∧
      tfind t.dev.hnd.stby xid.toNat = some { c with segs := putAll c.segs first recs, heard := s.dev.time } ∧
      t = { s with dev := { s.dev with hnd := { s.dev.hnd with stby := t.dev.hnd.stby } } }) ∧
    (∀ (a b x y n : Word) (hit : Bool), ∃ t : State, exec (.hoMarkReceived src xid a b x y n hit) s = .next t ∧
      tfind t.dev.hnd.stby xid.toNat = some { c with
        heard := s.dev.time, mark := some ⟨a.toNat, b.toNat, ptFix x, ptFix y, 0, 0, if hit then some (n, a.toNat) else none⟩ } ∧
      t = { s with dev := { s.dev with hnd := { s.dev.hnd with stby := t.dev.hnd.stby } } }) ∧
    (∀ reason : Byte, ∃ t : State, exec (.hoStbyEndReceived src xid reason) s = .next t ∧ tfind t.dev.hnd.stby xid.toNat = none ∧
      (∀ k : Nat, k ≠ xid.toNat → tfind t.dev.hnd.stby k = tfind s.dev.hnd.stby k) ∧
      t = { s with dev := { s.dev with hnd := { s.dev.hnd with stby := t.dev.hnd.stby } } }) := by
  have joins : ∀ f : Standby → Standby, tfind (s.dev.updStby src.val xid.toNat f).hnd.stby xid.toNat = some (f c) ∧
      s.dev.updStby src.val xid.toNat f = s.dev.withStby (s.dev.updStby src.val xid.toNat f).hnd.stby := by
    intro f
    rw [Dev.updStby_some hx hc f]
    exact ⟨tfind_tput_self .., rfl⟩
  have whole : ∀ {d : Dev}, d = s.dev.withStby d.hnd.stby →
      ({ s with dev := d } : State) = { s with dev := { s.dev with hnd := { s.dev.hnd with stby := d.hnd.stby } } } :=
    fun h => congrArg (fun d => ({ s with dev := d } : State)) h
  refine ⟨fun first recs => ⟨_, rfl, (joins _).1, whole (joins _).2⟩, fun a b x y n hit => ⟨_, rfl, (joins _).1, whole (joins _).2⟩,
    fun _ => ⟨_, rfl, ?_⟩⟩
  rw [State.onDev, Dev.dropStby_some hx hc]
  exact ⟨tfind_tdel_self .., fun k hk => tfind_tdel_ne _ _ _ hk.symm, rfl⟩

/-! ## What the bookkeeping of paths and takeovers leaves alone -/

/-- The engines and the standby copies of d. -/
def Dev.held (d : Dev) : Table Eng × Table Standby := (d.eng, d.hnd.stby)

theorem Dev.held_runOf {d e : Dev} (h : e.held = d.held) (p : Nat) : e.runOf p = d.runOf p :=
  congrArg (fun x : Table Eng × Table Standby => (tget eng0 x.1 p).run) h

theorem Dev.held_stby {d e : Dev} (h : e.held = d.held) : e.hnd.stby = d.hnd.stby := congrArg Prod.snd h

theorem Dev.recOnly.held {d e : Dev} (h : d.recOnly e) : e.held = d.held := (congrArg Dev.held h.1).trans rfl

theorem Dev.roleOnly.held {d e : Dev} (h : d.roleOnly e) : e.held = d.held := (congrArg Dev.held h.1).trans rfl

theorem Dev.BooksOnly.held {d e : Dev} (h : d.BooksOnly e) : e.held = d.held := (congrArg Dev.held h.frame).trans rfl

/-- A fold of steps each of which leaves engines and copies alone. -/
theorem foldl_held {α : Type} {f : Dev → α → Dev} {d : Dev} (l : List α) (h : ∀ (e : Dev) (x : α), (f e x).held = e.held) :
    (l.foldl f d).held = d.held :=
  List.foldlRecOn (motive := fun e => e.held = d.held) l f rfl (fun e he x _ => (h e x).trans he)

section
variable (d : Dev)

@[simp] theorem Dev.put_held (G : Fld) (v : Nat) : (d.put G v).held = d.held := rfl
@[simp] theorem Dev.send_held (t dst : Nat) (b : List Byte) : (d.send t dst b).held = d.held := rfl
@[simp] theorem Dev.portBits_held (p : Nat) : (d.portBits p).held = d.held := rfl
@[simp] theorem Dev.raise_held (c a b x y z : Nat) : (d.raise c a b x y z).held = d.held := (d.recOnly_raise ..).held
@[simp] theorem Dev.raiseSeg_held (t c a b x y z : Nat) (pt : Option Int) : (d.raiseSeg t c a b x y z pt).held = d.held :=
  (d.recOnly_intake _).held
@[simp] theorem Dev.retestJoin_held : d.retestJoin.held = d.held := d.roleOnly_retestJoin.held

@[simp] theorem Dev.updTile_held (n t : Nat) (f : TileSt → TileSt) : (d.updTile n t f).held = d.held :=
  ((Dev.BooksOnly.refl d).updTile n t f).held

@[simp] theorem Dev.updPath_held (k : PKey) (f : PathSt → PathSt) : (d.updPath k f).held = d.held :=
  ((Dev.BooksOnly.refl d).updPath k f).held

@[simp] theorem Dev.setStat_held (k : PKey) (st : PStat) : (d.setStat k st).held = d.held := d.updPath_held ..

@[simp] theorem Dev.tileFlag_held (k : PKey) (b : Nat) : (d.tileFlag k b).held = d.held := by
  cases k with
  | bed n t i => exact d.updTile_held ..
  | inc x => rfl

@[simp] theorem Dev.tileHandoff_held (k : PKey) : (d.tileHandoff k).held = d.held := by
  cases k with
  | bed n t i => exact d.updTile_held ..
  | inc x => rfl

@[simp] theorem Dev.loseFrom_held (m : Dram) (k : PKey) (a : Nat) : (d.loseFrom m k a).held = d.held := by
  unfold Dev.loseFrom
  split
  · cases k with
    | bed n t i => exact d.updTile_held ..
    | inc x => unfold Dev.addNotExposed; dsimp only; split <;> rfl
  · rfl

@[simp] theorem Dev.updTko_held (i : Nat) (f : Takeover → Takeover) : (d.updTko i f).held = d.held := by
  unfold Dev.updTko
  split <;> rfl

@[simp] theorem Dev.stbyEnd_held (k : PKey) (r : Nat) : (d.stbyEnd k r).held = d.held := foldl_held _ (fun _ _ => rfl)

@[simp] theorem Dev.pairEnd_held (k : PKey) (c : Nat) : (d.pairEnd k c).held = d.held := ((Dev.BooksOnly.refl d).pairEnd k c).held

@[simp] theorem Dev.incDone_held (x : Nat) (a : Bool) (s c : Nat) : (d.incDone x a s c).held = d.held := by
  unfold Dev.incDone
  split
  · rfl
  · dsimp only
    split
    · exact d.raise_held ..
    · rfl

/-! ### Fault entries and takeovers -/

@[simp] theorem Dev.ftRaise_held (k v : Nat) : (d.ftRaise k v).held = d.held := ((Dev.BooksOnly.refl d).ftRaise k v).held

@[simp] theorem Dev.ftSweep_held : d.ftSweep.held = d.held := by
  refine foldl_held (d := d) _ (fun e k => ?_)
  unfold Dev.ftResolve
  split
  · refine foldl_held (d := e.setFlag _ true) _ (fun e n => ?_)
    split <;> rfl
  · rfl

@[simp] theorem Dev.entryBit_held (e : Option Nat) (f : Nat → Fld) : (d.entryBit e f).held = d.held := by cases e <;> rfl

@[simp] theorem Dev.uncovered_held (m : Dram) (t : Takeover) : (d.uncovered m t).held = d.held := by
  unfold Dev.uncovered
  cases t.entry <;> simp

@[simp] theorem Dev.dropTko_held (i : Nat) : (d.dropTko i).held = d.held := by
  have done : ∀ n : Option Nat, (d.handingDone n).held = d.held := by
    intro n
    unfold Dev.handingDone
    split
    · split <;> rfl
    · rfl
  refine (Dev.ftSweep_held _).trans ?_
  split
  · exact done _
  · rfl

@[simp] theorem Dev.tkoEnded_held (k : PKey) : (d.tkoEnded k).held = d.held := by
  unfold Dev.tkoEnded
  split <;> simp

/-! ### Ends of paths, tiles and beds -/

@[simp] theorem Dev.swapLive_held (w : Swap) (hold : Bool) : (d.swapLive w hold).held = d.held := by
  refine foldl_held (d := d) _ (fun e x => ?_)
  split
  · split
    · rfl
    · exact e.raise_held ..
  · exact e.raise_held ..

@[simp] theorem Dev.idleCheck_held : d.idleCheck.held = d.held := by
  have enter : d.enterIdle.held = d.held := by
    unfold Dev.enterIdle
    dsimp only
    split
    · exact (Dev.retestJoin_held _).trans (Dev.swapLive_held _ _ _)
    · exact Dev.retestJoin_held _
  unfold Dev.idleCheck
  dsimp only
  split
  · exact enter
  · rfl

@[simp] theorem Dev.oldSetRelease_held (n : Nat) : (d.oldSetRelease n).held = d.held := by
  unfold Dev.oldSetRelease
  split
  · rfl
  · split
    · rfl
    · exact d.raise_held ..

@[simp] theorem Dev.bedCheck_held (n : Nat) : (d.bedCheck n).held = d.held := by
  unfold Dev.bedCheck
  split
  · rfl
  · split
    · simp only [Dev.idleCheck_held, Dev.ftSweep_held, Dev.oldSetRelease_held]
      split <;> rfl
    · rfl

@[simp] theorem Dev.pathEnded_held (k : PKey) : (d.pathEnded k).held = d.held := by
  have tile : ∀ (e : Dev) (n t : Nat), (e.tileCheck n t).held = e.held := by
    intro e n t
    unfold Dev.tileCheck
    split
    · rfl
    · split
      · exact (Dev.bedCheck_held _ n).trans (e.updTile_held ..)
      · rfl
  unfold Dev.pathEnded
  dsimp only
  split
  · exact (tile ..).trans (d.setStat_held ..)
  · exact d.setStat_held ..

@[simp] theorem Dev.uncover_held (m : Dram) (i : Nat) : (d.uncover m i).held = d.held := by
  unfold Dev.uncover
  split
  · rfl
  · split
    · dsimp only
      split <;> simp
    · simp

/-! ## Standby copies while covers are chosen (R249 to R254) -/

theorem Dev.cutPath_stby (m : Dram) (p : Nat) : (d.cutPath m p).hnd.stby = d.hnd.stby := by
  have dropped : ∀ e : Dev, (e.dropRun p).hnd.stby = e.hnd.stby := fun e => congrArg Hnd.stby (e.dropRun_keeps p).1
  have pooled : ∀ (e : Dev) (k : PKey) (rp : ResumePt) (r : ResRule), (e.splitPath m p k rp r).held = e.held := by
    intro e k rp r
    unfold Dev.splitPath
    extract_lets e1
    have h1 : e1.held = e.held := by simp [e1, Dev.requeue]
    clear_value e1
    split
    · exact h1
    · dsimp only
      split
      · exact h1
      · exact (Dev.raise_held ..).trans h1
  unfold Dev.cutPath
  split
  · rfl
  · split
    · exact dropped d
    · exact (Dev.held_stby ((pooled ..).trans (Dev.pairEnd_held ..))).trans (dropped (d.blankPort p))

theorem Dev.takeLocal_stby (m : Dram) (i : Nat) (t : Takeover) (p : Nat) : (d.takeLocal m i t p).hnd.stby = d.hnd.stby := by
  unfold Dev.takeLocal
  extract_lets cw noCut cs wait d1
  have h1 : d1.hnd.stby = d.hnd.stby := Dev.held_stby (by simp [d1])
  clear_value d1
  split
  · exact (Dev.held_stby (Dev.raise_held ..)).trans h1
  · split
    · exact (d1.cutPath_stby m p).trans h1
    · split <;> exact h1

theorem Dev.chooseAll_stby (m : Dram) (n : Nat) (l : List Nat) : (Dev.chooseAll m n l d).hnd.stby = d.hnd.stby := by
  induction n generalizing l d with
  | zero => rfl
  | succ n ih =>
    cases l with
    | nil => rfl
    | cons i rest =>
      unfold Dev.chooseAll
      split
      · exact ih ..
      · split
        · exact (ih ..).trans (Dev.held_stby (d.uncover_held m i))
        · split
          · refine (ih ..).trans ((Dev.takeLocal_stby ..).trans (Dev.held_stby ?_))
            exact foldl_held _ (fun e j => e.updTko_held j _)
          · exact (ih ..).trans (Dev.held_stby (Dev.updTko_held _ i _))

theorem Dev.beginTko_stby (m : Dram) (lead entry : Option Nat) (k : PKey) (rp : ResumePt) (cs : List (Nat × Nat)) :
    (d.beginTko m lead entry k rp cs).hnd.stby = d.hnd.stby :=
  (Dev.chooseAll_stby ..).trans (Dev.held_stby (Dev.updPath_held ..))

end

/-! ## Orphans (R269) -/

theorem exec_orphanTakeover (xid : Word) (s : State) :
    exec (.orphanTakeover xid) s = .next (s.onDev (fun d => d.orphanTakeover s.mem xid.toNat)) := rfl

section
variable {d : Dev} {m : Dram} {x : Nat} {c : Standby}

theorem Dev.orphanCover_incomplete (h : c.complete = false) : d.orphanCover m x c = none := if_neg (by simp [h])

theorem Dev.orphanTakeover_discards (hx : tfind d.hnd.stby x = some c) (h : d.orphanCover m x c = none) : d.orphanTakeover m x =
    (d.stbyTaken x).raise 0x0612 0x04 4 (c.node + 256 * c.hdr.lead.val + 65536 * 0xFF + 2 ^ 24 * 3) c.hdr.bedNo.toNat c.hdr.tile.toNat := by
  unfold Dev.orphanTakeover
  simp only [hx, h]
  rfl

theorem Dev.orphanTakeover_announces {cv : Nat × Nat} (hx : tfind d.hnd.stby x = some c) (h : d.orphanCover m x c = some cv) :
    ∃ e : Dev, e.hnd.stby = tdel d.hnd.stby x ∧
      d.orphanTakeover m x = e.send 0x1B c.node (leBytes 4 x ++ leBytes 4 cv.2 ++ leBytes 4 c.startPt.seg) := by
  unfold Dev.orphanTakeover
  simp only [hx, h]
  exact ⟨_, (Dev.beginTko_stby ..).trans (Dev.held_stby (Dev.raise_held ..)), rfl⟩

end

theorem exec_orphanTakeover_discards {xid : Word} {s : State} {c : Standby} (hx : tfind s.dev.hnd.stby xid.toNat = some c)
    (h : s.dev.orphanCover s.mem xid.toNat c = none) :
    ∃ t : State, exec (.orphanTakeover xid) s = .next t ∧ tfind t.dev.hnd.stby xid.toNat = none ∧
      recorded s.dev t.dev 0x0612 0x04 4 (c.node + 256 * c.hdr.lead.val + 65536 * 0xFF + 2 ^ 24 * 3) c.hdr.bedNo.toNat c.hdr.tile.toNat ∧
      onlyRegsRec [] { s with dev := s.dev.stbyTaken xid.toNat } t := by
  refine ⟨_, exec_orphanTakeover xid s, ?_⟩
  rw [State.onDev, Dev.orphanTakeover_discards hx h]
  refine ⟨?_, Dev.raise_evr_congr _ _ _ _ _ _ _ _ rfl rfl rfl, State.onDev_raise_onlyRegsRec { s with dev := s.dev.stbyTaken xid.toNat } ..⟩
  rw [Dev.raise_hnd]
  exact tfind_tdel_self ..

theorem exec_orphanTakeover_announces {xid : Word} {s : State} {c : Standby} {cv : Nat × Nat} (hx : tfind s.dev.hnd.stby xid.toNat = some c)
    (h : s.dev.orphanCover s.mem xid.toNat c = some cv) :
    ∃ (t : State) (q : Nat), exec (.orphanTakeover xid) s = .next t ∧ tfind t.dev.hnd.stby xid.toNat = none ∧
      t.dev.glk.tx.getLast? = some ⟨0x1B, some c.node, q, leBytes 4 xid.toNat ++ leBytes 4 cv.2 ++ leBytes 4 c.startPt.seg⟩ ∧
      t.mem = s.mem ∧ t.pending = s.pending := by
  obtain ⟨e, copies, announces⟩ := Dev.orphanTakeover_announces hx h
  refine ⟨_, tget 0 e.glk.seqs 0x1B, exec_orphanTakeover xid s, ?_⟩
  rw [State.onDev, announces]
  exact ⟨(congrArg (tfind · xid.toNat) copies).trans (tfind_tdel_self ..), List.getLast?_concat, rfl, rfl⟩

/-! ## The owner of an orphan (R269) -/

/-- The end of the run on port p leaves its engine without one. -/
theorem Dev.endRun_runOf (d : Dev) (m : Dram) (p : Nat) (lost : Option Nat) (reason : Nat) : (d.endRun m p lost reason).runOf p = none := by
  unfold Dev.endRun
  split
  · assumption
  · extract_lets c d1 d2
    have left : d2.runOf p = none := (Dev.held_runOf (by simp [d2]) p).trans (d1.dropRun_runOf p)
    clear_value d2
    split
    · exact (Dev.held_runOf (d2.incDone_held ..) p).trans left
    · exact left

/-- A path that ends with segments not exposed leaves its port dark. -/
theorem Dev.finishRun_lost {d : Dev} {p : Nat} (hr : (d.runOf p).isSome = true) (m : Dram) (a reason : Nat) :
    (d.finishRun m p (some a) reason).runOf p = none ∧ (d.finishRun m p (some a) reason).get (F.BEAMn_PSTAT_EMIT p) = 0 := by
  obtain ⟨r, hr⟩ := Option.isSome_iff_exists.mp hr
  have shut : d.finishRun m p (some a) reason = ((d.endRun m p (some a) reason).tkoEnded r.key).gateShut p := by
    unfold Dev.finishRun
    rw [hr]
    rfl
  rw [shut]
  exact ⟨(Dev.held_runOf (Dev.tkoEnded_held (d.endRun m p (some a) reason) r.key) p).trans (d.endRun_runOf ..), Dev.gateShut_dark ..⟩

theorem exec_hoOrphanedReceived (src : Node) (xid : Word) (cover : Port) (seg : Word) (s : State) :
    exec (.hoOrphanedReceived src xid cover seg) s = .next (s.onDev (fun d => d.hoOrphaned s.mem src.val xid.toNat cover.val)) := rfl

theorem exec_hoOrphanedReceived_unknown {xid : Word} {s : State} (hx : tfind s.dev.hnd.stbyOut xid.toNat = none) (src : Node) (cover : Port)
    (seg : Word) : exec (.hoOrphanedReceived src xid cover seg) s = .next s := by
  rw [exec_hoOrphanedReceived, State.onDev]
  unfold Dev.hoOrphaned
  rw [hx]

/-- An owner that still runs the path notes the hand-off and the orphan, and ends it. -/
theorem Dev.hoOrphaned_running {d : Dev} {src x p : Nat} {o : StbyOut} {q : PathSt} (hx : tfind d.hnd.stbyOut x = some o) (ho : o.node = src)
    (hq : d.path? o.key = some q) (hs : q.st = .running p) (m : Dram) (cover : Nat) :
    ∃ e : Dev, e.held = d.held ∧ d.hoOrphaned m src x cover = e.finishRun m p (some (d.cutSeg p)) 4 := by
  unfold Dev.hoOrphaned
  simp only [hx, ho, hq, hs, Option.map_some, bne_self_eq_false, Bool.false_eq_true, if_false]
  exact ⟨_, (Dev.raise_held ..).trans (d.tileHandoff_held _), rfl⟩

theorem exec_hoOrphanedReceived_running {src : Node} {xid : Word} {s : State} {o : StbyOut} {q : PathSt} {p : Nat}
    (hx : tfind s.dev.hnd.stbyOut xid.toNat = some o) (ho : o.node = src.val) (hq : s.dev.path? o.key = some q) (hs : q.st = .running p)
    (hr : (s.dev.runOf p).isSome = true) (cover : Port) (seg : Word) :
    ∃ t : State, exec (.hoOrphanedReceived src xid cover seg) s = .next t ∧ t.dev.runOf p = none ∧
      t.dev.get (F.BEAMn_PSTAT_EMIT p) = 0 ∧ t.mem = s.mem ∧ t.pending = s.pending := by
  obtain ⟨e, held, ends⟩ := Dev.hoOrphaned_running hx ho hq hs s.mem cover.val
  obtain ⟨idle, dark⟩ := Dev.finishRun_lost (d := e) (p := p) (by rwa [Dev.held_runOf held]) s.mem (s.dev.cutSeg p) 4
  refine ⟨_, exec_hoOrphanedReceived .., ?_⟩
  rw [State.onDev, ends]
  exact ⟨idle, dark, rfl, rfl⟩

/-- Settles O40: a message changes the one copy it names; the takeover of an orphan takes its copy, and whatever it then displaces leaves the
other copies alone; the end of a path empties the engine of its port and keeps the gate shut. -/
theorem standbyCopies : Obligations.StandbyCopies := by
  unfold Obligations.StandbyCopies
  refine fun src xid s => ⟨fun h => exec_hoStbyReceived_header src xid h s, exec_stby_unknown src, fun c => exec_stby_known, fun c hx => ⟨?_, ?_⟩,
    (exec_hoOrphanedReceived_unknown · src), fun o q p cover seg hx ho hq hs hr _ _ => exec_hoOrphanedReceived_running hx ho hq hs hr cover seg⟩
  · intro uncovered
    exact exec_orphanTakeover_discards hx (uncovered.elim Dev.orphanCover_incomplete id)
  · exact fun cv => exec_orphanTakeover_announces hx

end Sys2Proof.Machine

/-! # Pre-scan, dealing and paired starts (09_handoff.md R242, R245; 04_bed_cycle.md R108, R110)

The pre-scan forms the paths of a tile from segments that its counter does not move. Dealing writes one path and one queue. A paired start lets
one or two engines go and counts both tiles on; a requeue is the same change of every path, so looking a path up passes through it. -/

namespace Sys2Proof.Machine

open Sys2Proof.Safety

/-! ## Reading what has been updated -/

theorem tfind_map {α β : Type} (f : α → β) (t : Table α) (k : Nat) : tfind (t.map (fun x => (x.1, f x.2))) k = (tfind t k).map f := by
  induction t with
  | nil => rfl
  | cons e t ih =>
    obtain ⟨i, a⟩ := e
    by_cases h : i = k <;> simp [tfind, h, ih]

theorem tfind_singleton {α : Type} (k : Nat) (v : α) : tfind [(k, v)] k = some v := by simp [tfind]

theorem Dev.updTile_tile_ne (d : Dev) (n : Nat) {t u : Nat} (f : TileSt → TileSt) (h : u ≠ t) : (d.updTile n u f).tile? n t = d.tile? n t := by
  unfold Dev.updTile Dev.updBed Dev.tile? Dev.bed?
  cases hb : tfind d.bar.beds n with
  | none => simp [hb]
  | some b =>
    cases hu : tfind b.tiles u <;> simp [hu, tfind_tput_ne _ _ _ _ h]

theorem Dev.path?_congr {d e : Dev} (hb : e.bar = d.bar) (hh : e.hnd = d.hnd) (k : PKey) : e.path? k = d.path? k := by
  cases k with
  | bed n t i => exact congrArg (fun y => y.bind (fun x : TileSt => x.paths[i]?)) (Dev.tile?_congr hb n t)
  | inc x => exact congrArg (fun h : Hnd => (tfind h.inc x).map (fun y => y.path)) hh

theorem Dev.updPath_path? {d : Dev} {k : PKey} {q : PathSt} (h : d.path? k = some q) (f : PathSt → PathSt) :
    (d.updPath k f).path? k = some (f q) := by
  cases k with
  | bed n t i =>
    obtain ⟨x, hx, hi⟩ := Option.bind_eq_some_iff.mp h
    have tile := Dev.updTile_tile hx (fun x => { x with paths := x.paths.modify i f })
    rw [show (d.updPath (.bed n t i) f).path? (.bed n t i) = _ from congrArg (fun y => y.bind (fun x : TileSt => x.paths[i]?)) tile]
    simp [hi]
  | inc x =>
    obtain ⟨y, hy, rfl⟩ := Option.map_eq_some_iff.mp h
    simp [Dev.updPath, Dev.path?, hy]

theorem Dev.updPath_keeps (d : Dev) (k : PKey) (f : PathSt → PathSt) :
    (d.updPath k f).eng = d.eng ∧ (d.updPath k f).evr = d.evr ∧ (d.updPath k f).regs = d.regs := by
  cases k with
  | bed n t i =>
    obtain ⟨-, eng, evr, -, regs⟩ := d.updTile_keeps n t (fun x => { x with paths := x.paths.modify i f })
    exact ⟨eng, evr, regs⟩
  | inc x =>
    unfold Dev.updPath
    dsimp only
    split <;> exact ⟨rfl, rfl, rfl⟩

/-! ## The pre-scan of a bed (R242) -/

theorem exec_prescan (s : State) : exec .prescan s = .next (s.onDev (fun d => d.prescan s.mem)) := rfl

theorem exec_prescan_none {s : State} (h : s.dev.bar.beds.find? (fun (x : Nat × Bed) => !x.2.scanned) = none) :
    exec .prescan s = .next s := by
  rw [exec_prescan, State.onDev]
  unfold Dev.prescan
  rw [h]

/-- The bed in buffer n has been scanned. -/
def Dev.bedScanned (d : Dev) (n : Nat) : Dev := d.updBed n (fun b => { b with scanned := true })

theorem Dev.bedScanned_keeps (d : Dev) (n : Nat) : (d.bedScanned n).regs = d.regs ∧ (d.bedScanned n).evr = d.evr := by
  unfold Dev.bedScanned Dev.updBed
  split <;> exact ⟨rfl, rfl⟩

theorem Dev.bedScanned_bed? (d : Dev) (n : Nat) : (d.bedScanned n).bed? n = (d.bed? n).map (fun b => { b with scanned := true }) := by
  unfold Dev.bedScanned Dev.updBed Dev.bed?
  cases h : tfind d.bar.beds n with
  | none => exact h
  | some b => simp

theorem Dev.bedScanned_tile? (d : Dev) (n t : Nat) : (d.bedScanned n).tile? n t = d.tile? n t := by
  rw [Dev.tile?, Dev.bedScanned_bed?, Dev.tile?]
  cases d.bed? n <;> rfl

/-- A bed that is not exposing does not leave its buffer. -/
theorem Dev.bedCheck_not_exposing {d : Dev} {n : Nat} (h : d.get (F.BED_BUFn_STAT_STATE n) ≠ 4) : d.bedCheck n = d := by
  unfold Dev.bedCheck
  split
  · rfl
  · exact if_neg (by simp [h])

/-- The pre-scan of the only bed: its counter starts anew, and its tiles are scanned in order. -/
theorem Dev.prescan_single {d : Dev} {n : Nat} {b : Bed} (hb : d.bar.beds = [(n, b)]) (hs : b.scanned = false) (m : Dram) :
    d.prescan m = ((b.scanOrder.foldl (fun e t => e.scanTile m (d.scanSections n) n t) (d.put F.HND_UNCOV_PATHS_COUNT 0)).bedScanned n).bedCheck
      n := by
  unfold Dev.prescan
  simp only [hb, List.find?_cons, hs, Bool.not_false]
  rfl

/-- The counter of paths without a cover stands apart from the registers of the buffers and of the ports. -/
theorem uncovPathsKey_ne {n p : Nat} (hn : n < 16) (hp : p < 32) : F.HND_UNCOV_PATHS_COUNT.key ≠ (F.BED_BUFn_STAT_STATE n).key ∧
    F.HND_UNCOV_PATHS_COUNT.key ≠ (F.BEAMn_PROF_JOIN_ANG p).key := by
  simp only [Fld.key, F.HND_UNCOV_PATHS_COUNT, F.BED_BUFn_STAT_STATE, F.BEAMn_PROF_JOIN_ANG]
  omega

theorem exec_prescan_no_tiles {s : State} {n : Nat} {b : Bed} (hb : s.dev.bar.beds = [(n, b)]) (hs : b.scanned = false) (ht : b.tiles = [])
    (hn : n < 16) (hx : s.dev.get (F.BED_BUFn_STAT_STATE n) ≠ 4) :
    ∃ t : State, exec .prescan s = .next t ∧ (t.dev.bed? n).map (fun b => b.scanned) = some true ∧ t.dev.get F.HND_UNCOV_PATHS_COUNT = 0 ∧
      regsKeep [F.HND_UNCOV_PATHS_COUNT] s.dev t.dev ∧ t.mem = s.mem ∧ t.dev.evr = s.dev.evr := by
  have order : b.scanOrder = [] := by simp [Bed.scanOrder, ht]
  have bed : (s.dev.put F.HND_UNCOV_PATHS_COUNT 0).bed? n = some b := (congrArg (tfind · n) hb).trans (tfind_singleton n b)
  obtain ⟨regs, evr⟩ := (s.dev.put F.HND_UNCOV_PATHS_COUNT 0).bedScanned_keeps n
  obtain ⟨apart, -⟩ := uncovPathsKey_ne (p := 0) hn (by decide)
  refine ⟨_, exec_prescan s, ?_⟩
  rw [State.onDev, Dev.prescan_single hb hs, order, List.foldl_nil, Dev.bedCheck_not_exposing (by
    rwa [Dev.get_congr _ regs, Dev.get_put_ne _ _ _ _ apart])]
  refine ⟨?_, (Dev.get_congr _ regs).trans (Dev.get_put_self ..), ?_, rfl, evr⟩
  · rw [Dev.bedScanned_bed?, bed]
    rfl
  · exact regsKeep_trans (regsKeep_put _ _ _ (by simp)) (regsKeep_of_regs regs)

/-! ## The pre-scan of a tile (R242) -/

/-- The paths of tile i of the bed in buffer n, as the pre-scan forms them under the sections l. -/
def Dev.scanPaths (d : Dev) (m : Dram) (l : List Section) (n i : Nat) (x : TileSt) : List PathSt :=
  (splitPaths (d.segOf m (.bed n i 0)) x.rcd.first x.rcd.count x.rcd.first).map
    (scanPath (d.segOf m (.bed n i 0)) (d.setOf (.bed n i 0)) (d.get (F.BEAMn_PROF_JOIN_ANG x.rcd.lead)) l x.rcd)

/-- How many paths no cover could expose. -/
def uncoverables (l : List PathSt) : Nat := (l.filter (fun q => !q.coverable)).length

/-- The device on which tile i of the bed in buffer n has been scanned into the paths l, with what no cover could expose counted. -/
def Dev.tileScanned (d : Dev) (n i : Nat) (l : List PathSt) : Dev :=
  (d.updTile n i (fun x => { x with scanned := true, paths := l })).bump F.HND_UNCOV_PATHS_COUNT (uncoverables l)

section
variable {d : Dev} {m : Dram} {l : List Section} {n i : Nat} {x : TileSt}

/-- The counter is not part of what the paths are formed from. -/
theorem Dev.put_uncov_scanPaths (hn : n < 16) (hl : x.rcd.lead < 32) (v : Nat) :
    (d.put F.HND_UNCOV_PATHS_COUNT v).scanPaths m l n i x = d.scanPaths m l n i x := by
  have segs : (d.put F.HND_UNCOV_PATHS_COUNT v).segOf m (.bed n i 0) = d.segOf m (.bed n i 0) :=
    funext (Dev.segOf_congr m (.put d _ v (by decide)) hn rfl (fun _ => rfl))
  obtain ⟨-, angle⟩ := uncovPathsKey_ne hn hl
  unfold Dev.scanPaths
  rw [segs, Dev.get_put_ne _ _ _ _ angle]
  rfl

theorem Dev.scanTile_unscanned (hx : d.tile? n i = some x) (hs : x.scanned = false) (hm : m.poison = [])
    (hc : ∀ c ∈ x.rcd.named, coverListed l x.rcd.lead c = true) : d.scanTile m l n i =
    if uncoverables (d.scanPaths m l n i x) = 0 then d.tileScanned n i (d.scanPaths m l n i x)
    else (d.tileScanned n i (d.scanPaths m l n i x)).raise 0x0610 0x04 0 i (uncoverables (d.scanPaths m l n i x))
      (d.keyBedNo (.bed n i 0)) := by
  have listed : ∀ e : Dev, e.coverEvents l i x.rcd = e := by
    intro e
    unfold Dev.coverEvents
    rw [List.filter_eq_nil_iff.mpr (fun c h => by simp [hc c h])]
    rfl
  unfold Dev.scanTile
  simp only [hx, hs, hm, List.find?_nil, listed, Bool.false_eq_true, if_false, beq_iff_eq]
  rfl

theorem Dev.tileScanned_keeps (ps : List PathSt) : (d.tileScanned n i ps).evr = d.evr ∧
    (d.tileScanned n i ps).get F.HND_UNCOV_PATHS_COUNT = min (d.get F.HND_UNCOV_PATHS_COUNT + uncoverables ps) 0xFFFFFFFF ∧
    regsKeep [F.HND_UNCOV_PATHS_COUNT] d (d.tileScanned n i ps) := by
  obtain ⟨-, -, evr, -, regs⟩ := d.updTile_keeps n i (fun x => { x with scanned := true, paths := ps })
  refine ⟨evr, ?_, regsKeep_trans (regsKeep_of_regs regs) (regsKeep_put _ _ _ (by simp))⟩
  rw [Dev.tileScanned, Dev.bump_eq, Dev.get_put_self, Dev.get_congr _ regs]
  exact Nat.mod_eq_of_lt (Nat.lt_of_le_of_lt (Nat.min_le_right ..) (by decide))

/-- What the pre-scan of one tile leaves. -/
theorem Dev.scanTile_leaves (hx : d.tile? n i = some x) (hs : x.scanned = false) (hm : m.poison = [])
    (hc : ∀ c ∈ x.rcd.named, coverListed l x.rcd.lead c = true) {ps : List PathSt} (hp : d.scanPaths m l n i x = ps) :
    (d.scanTile m l n i).tile? n i = some { x with scanned := true, paths := ps } ∧
    (d.scanTile m l n i).get F.HND_UNCOV_PATHS_COUNT = min (d.get F.HND_UNCOV_PATHS_COUNT + uncoverables ps) 0xFFFFFFFF ∧
    (uncoverables ps = 0 → (d.scanTile m l n i).evr = d.evr) ∧
    (uncoverables ps ≠ 0 → recorded d (d.scanTile m l n i) 0x0610 0x04 0 i (uncoverables ps) (d.keyBedNo (.bed n i 0))) ∧
    regsKeep (recFlds ++ [F.HND_UNCOV_PATHS_COUNT]) d (d.scanTile m l n i) := by
  obtain ⟨evr, count, regs⟩ := d.tileScanned_keeps (n := n) (i := i) ps
  have tile : (d.tileScanned n i ps).tile? n i = some { x with scanned := true, paths := ps } := Dev.updTile_tile hx _
  have time : (d.tileScanned n i ps).time = d.time := by
    rw [Dev.tileScanned, Dev.updTile_frame]
    rfl
  have lastGasp : (d.tileScanned n i ps).get F.EVR_STAT_LASTGASP = d.get F.EVR_STAT_LASTGASP := regs _ (by decide)
  have keep : regsKeep (recFlds ++ [F.HND_UNCOV_PATHS_COUNT]) d (d.tileScanned n i ps) := regsKeep_mono regs (fun _ => List.mem_append_right _)
  rw [Dev.scanTile_unscanned hx hs hm hc, hp]
  split
  · next none => exact ⟨tile, count, fun _ => evr, fun h => absurd none h, keep⟩
  · next bad =>
    refine ⟨(Dev.tile?_congr (Dev.raise_bar ..) n i).trans tile, (Dev.get_raise _ _ _ _ _ _ _ _ (by decide)).trans count,
      fun h => absurd h bad, fun _ => Dev.raise_evr_congr _ _ _ _ _ _ _ _ evr time lastGasp, regsKeep_trans keep ?_⟩
    exact regsKeep_mono (Dev.recOnly_raise ..).2 (fun _ => List.mem_append_left _)

end

/-! ## The order of the tiles (R242) -/

/-- What stands at one place of a range is found once. -/
theorem flatMap_range_single {α : Type} (v : List α) {m k : Nat} (h : m < k) :
    (List.range k).flatMap (fun s => if s = m then v else []) = v := by
  induction k with
  | zero => omega
  | succ k ih =>
    rw [List.range_succ, List.flatMap_append, List.flatMap_singleton]
    by_cases hk : k = m
    · subst hk
      have before : (List.range k).flatMap (fun s => if s = k then v else []) = [] :=
        List.flatMap_eq_nil_iff.mpr (fun s hs => if_neg (Nat.ne_of_lt (List.mem_range.mp hs)))
      rw [before, if_pos rfl, List.nil_append]
    · rw [ih (by omega), if_neg hk, List.append_nil]

/-- The only tile of a bed is scanned once: with its own stripe, or with the last where its own lies behind that. -/
theorem Bed.scanOrder_single {b : Bed} {i : Nat} {x : TileSt} (ht : b.tiles = [(i, x)]) : b.scanOrder = [i] := by
  obtain ⟨k, hk⟩ : ∃ k, max 1 b.stripeCount = k + 1 := ⟨max 1 b.stripeCount - 1, by omega⟩
  have mine : ∀ s ∈ upTo (k + 1), (([(i, x)].filter (fun (y : Nat × TileSt) => y.2.rcd.stripe == s ||
      (s + 1 == k + 1 && decide (s < y.2.rcd.stripe)))).map (·.1)) = if s = min x.rcd.stripe k then [i] else [] := by
    intro s hs
    have last := List.mem_range.mp hs
    have here : (x.rcd.stripe == s || (s + 1 == k + 1 && decide (s < x.rcd.stripe))) = decide (s = min x.rcd.stripe k) := by
      rw [Bool.eq_iff_iff]
      simp only [Bool.or_eq_true, Bool.and_eq_true, beq_iff_eq, decide_eq_true_eq]
      omega
    rw [List.filter_singleton, here]
    by_cases h : s = min x.rcd.stripe k <;> simp [h]
  unfold Bed.scanOrder
  rw [ht, hk, List.flatMap_congr mine]
  exact flatMap_range_single [i] (by omega)

theorem exec_prescan_tile {s : State} {n i : Nat} {b : Bed} {x : TileSt} (hb : s.dev.bar.beds = [(n, b)]) (hs : b.scanned = false)
    (ht : b.tiles = [(i, x)]) (hx : x.scanned = false) (hn : n < 16) (hl : x.rcd.lead < 32) (he : s.dev.get (F.BED_BUFn_STAT_STATE n) ≠ 4)
    (hm : s.mem.poison = []) (hc : ∀ c ∈ x.rcd.named, coverListed (s.dev.scanSections n) x.rcd.lead c = true) {ps : List PathSt}
    (hp : s.dev.scanPaths s.mem (s.dev.scanSections n) n i x = ps) :
    ∃ t : State, exec .prescan s = .next t ∧ t.dev.tile? n i = some { x with scanned := true, paths := ps } ∧
      (t.dev.bed? n).map (fun b => b.scanned) = some true ∧ t.dev.get F.HND_UNCOV_PATHS_COUNT = min (uncoverables ps) 0xFFFFFFFF ∧
      t.mem = s.mem ∧ (uncoverables ps = 0 → t.dev.evr = s.dev.evr) ∧
      (uncoverables ps ≠ 0 → recorded s.dev t.dev 0x0610 0x04 0 i (uncoverables ps) b.bedNo.toNat) ∧
      regsKeep (recFlds ++ [F.HND_UNCOV_PATHS_COUNT]) s.dev t.dev := by
  have bed : (s.dev.put F.HND_UNCOV_PATHS_COUNT 0).bed? n = some b := (congrArg (tfind · n) hb).trans (tfind_singleton n b)
  have tile : (s.dev.put F.HND_UNCOV_PATHS_COUNT 0).tile? n i = some x := by
    rw [Dev.tile?, bed, Option.bind_some, ht, tfind_singleton]
  have no : (s.dev.put F.HND_UNCOV_PATHS_COUNT 0).keyBedNo (.bed n i 0) = b.bedNo.toNat := by
    simp only [Dev.keyBedNo, bed]
  obtain ⟨tile', count, quiet, loud, regs⟩ := Dev.scanTile_leaves tile hx hm hc ((Dev.put_uncov_scanPaths hn hl 0).trans hp)
  have state : ∀ k < 16, (F.BED_BUFn_STAT_STATE k).key ∉ (recFlds ++ [F.HND_UNCOV_PATHS_COUNT]).map Fld.key := by decide
  have regs := regsKeep_trans (regsKeep_put s.dev F.HND_UNCOV_PATHS_COUNT 0 (List.mem_append_right _ (List.mem_singleton_self _))) regs
  rw [Dev.get_put_self, Nat.zero_mod, Nat.zero_add] at count
  rw [no] at loud
  refine ⟨_, exec_prescan s, ?_⟩
  rw [State.onDev, Dev.prescan_single hb hs, Bed.scanOrder_single ht, List.foldl_cons, List.foldl_nil]
  generalize (s.dev.put F.HND_UNCOV_PATHS_COUNT 0).scanTile s.mem (s.dev.scanSections n) n i = e at *
  obtain ⟨regs', evr⟩ := e.bedScanned_keeps n
  rw [Dev.bedCheck_not_exposing (by rwa [Dev.get_congr _ regs', regs _ (state n hn)])]
  refine ⟨(e.bedScanned_tile? n i).trans tile', ?_, (Dev.get_congr _ regs').trans count, rfl, fun h => evr.trans (quiet h), fun h => ?_,
    regsKeep_trans regs (regsKeep_of_regs regs')⟩
  · obtain ⟨c, hc, -⟩ := Option.bind_eq_some_iff.mp tile'
    rw [Dev.bedScanned_bed?, hc]
    rfl
  · exact evr.trans ((loud h).trans (Dev.put_raise_evr _ _ _ _ _ _ _ _ _ (by decide)))

/-! ## Dealing (R245) -/

theorem exec_dealPath (s : State) : exec .dealPath s = .next (s.onDev (fun d => d.dealPath s.mem)) := rfl

theorem exec_dealPath_none {s : State} (h : s.dev.dealOrder = []) : exec .dealPath s = .next s := by
  rw [exec_dealPath, State.onDev, Dev.dealPath, h]
  rfl

section
variable {d : Dev} {m : Dram} {k : PKey} {q : PathSt} {b : Nat}

/-- A path that a beam with room takes is dealt to it. -/
theorem Dev.tryDeal_room (hq : d.path? k = some q) (hw : d.extraWaits k = false) (he : d.eligible m k q ≠ [])
    (hb : d.dealBeam m k q (d.eligible m k q) = some b) (room : (d.engOf b).queue.length < d.view b F.HND_CTRL_DEPTH) :
    d.tryDeal m k = some (d.dealTo k b) := by
  obtain ⟨c, rest, beams⟩ := List.exists_cons_of_ne_nil he
  rw [beams] at hb
  simp only [Dev.tryDeal, hq, hw, beams, hb, room, Bool.false_eq_true, if_false, if_true]

theorem Dev.dealPath_first {rest : List PKey} (ho : d.dealOrder = k :: rest) {e : Dev} (h : d.tryDeal m k = some e) : d.dealPath m = e := by
  rw [Dev.dealPath, ho, List.findSome?_cons, h, Option.getD_some]

theorem Dev.spotStop_keeps (d : Dev) (p : Nat) : (d.spotStop p).eng = d.eng ∧ (d.spotStop p).evr = d.evr ∧ (d.spotStop p).bar = d.bar ∧
    (d.spotStop p).hnd = d.hnd ∧ regsKeep [F.SNS_Pn_SPOT_STATE p] d (d.spotStop p) := by
  unfold Dev.spotStop
  split
  · exact ⟨rfl, rfl, rfl, rfl, regsKeep_refl _ d⟩
  · exact ⟨rfl, rfl, rfl, rfl, regsKeep_trans (regsKeep_of_regs rfl) (regsKeep_put _ _ _ (by simp))⟩

/-- What dealing a path to beam b leaves. -/
theorem Dev.dealTo_leaves (hq : d.path? k = some q) (hb : b < 32) :
    ((d.dealTo k b).engOf b).queue = (d.engOf b).queue ++ [k] ∧ (d.dealTo k b).path? k = some { q with st := .dealt b } ∧
    (d.dealTo k b).get (F.HND_Pn_DEALT_COUNT b) = (d.get (F.HND_Pn_DEALT_COUNT b) + 1) % 2 ^ 32 ∧ (d.dealTo k b).evr = d.evr := by
  obtain ⟨eng, evr, regs⟩ := d.updPath_keeps k (fun p => { p with st := .dealt b })
  have path : (d.setStat k (.dealt b)).path? k = some { q with st := .dealt b } := Dev.updPath_path? hq _
  have apart : (F.HND_Pn_DEALT_COUNT b).key ∉ [F.SNS_Pn_SPOT_STATE b].map Fld.key := by
    simp only [List.map_cons, List.map_nil, List.mem_singleton, Fld.key, F.HND_Pn_DEALT_COUNT, F.SNS_Pn_SPOT_STATE]
    omega
  unfold Dev.dealTo
  obtain ⟨eng', evr', bar', hnd', regs'⟩ := (((d.setStat k (.dealt b)).updEng b (fun e => { e with queue := e.queue ++ [k] })).bumpWrap
    (F.HND_Pn_DEALT_COUNT b)).spotStop_keeps b
  refine ⟨?_, (Dev.path?_congr bar' hnd' k).trans path, ?_, evr'.trans evr⟩
  · refine (congrArg (fun l => (tget eng0 l b).queue) eng').trans ((congrArg Eng.queue (tget_tput_self ..)).trans ?_)
    exact congrArg (fun l => (tget eng0 l b).queue ++ [k]) eng
  · rw [regs' _ apart, Dev.bumpWrap_eq, Dev.get_put_self]
    exact congrArg (fun v => (v + 1) % 2 ^ 32) (Dev.get_congr _ regs)

end

theorem exec_dealPath_deals {s : State} {k : PKey} {rest : List PKey} {q : PathSt} {b : Nat} (ho : s.dev.dealOrder = k :: rest)
    (hq : s.dev.path? k = some q) (hw : s.dev.extraWaits k = false) (he : s.dev.eligible s.mem k q ≠ [])
    (hd : s.dev.dealBeam s.mem k q (s.dev.eligible s.mem k q) = some b) (room : (s.dev.engOf b).queue.length < s.dev.view b F.HND_CTRL_DEPTH)
    (hb : b < 32) :
    ∃ t : State, exec .dealPath s = .next t ∧ (t.dev.engOf b).queue = (s.dev.engOf b).queue ++ [k] ∧
      t.dev.path? k = some { q with st := .dealt b } ∧
      t.dev.get (F.HND_Pn_DEALT_COUNT b) = (s.dev.get (F.HND_Pn_DEALT_COUNT b) + 1) % 2 ^ 32 ∧ t.mem = s.mem ∧ t.dev.evr = s.dev.evr := by
  obtain ⟨queue, path, count, evr⟩ := Dev.dealTo_leaves hq hb
  refine ⟨_, exec_dealPath s, ?_⟩
  rw [State.onDev, Dev.dealPath_first ho (Dev.tryDeal_room hq hw he hd room)]
  exact ⟨queue, path, count, rfl, evr⟩

/-! ## Paired starts (R108) -/

theorem exec_pairStart (tile : BitVec 16) (s : State) : exec (.pairStart tile) s = .next (s.onDev (fun d => d.pairStart tile.toNat)) := rfl

/-- A tile goes on to its next pair of paths. -/
def TileSt.nextPair (x : TileSt) : TileSt := { x with pairIx := x.pairIx + 1 }

/-- Tiles t and u of the bed in buffer n go on to their next pair of paths. -/
def Dev.pairNext (d : Dev) (n t u : Nat) : Dev := (d.updTile n t TileSt.nextPair).updTile n u TileSt.nextPair

theorem Dev.pairNext_tiles {d : Dev} {n t u : Nat} {x y : TileSt} (hx : d.tile? n t = some x) (hy : d.tile? n u = some y) (hu : u ≠ t) :
    (d.pairNext n t u).tile? n t = some x.nextPair ∧ (d.pairNext n t u).tile? n u = some y.nextPair :=
  ⟨(Dev.updTile_tile_ne _ n _ hu).trans (Dev.updTile_tile hx _),
    Dev.updTile_tile ((Dev.updTile_tile_ne d n TileSt.nextPair (Ne.symm hu)).trans hy) _⟩

/-! What the steps of a paired start keep. -/

theorem Dev.pairNext_runOf (d : Dev) (n t u p : Nat) : (d.pairNext n t u).runOf p = d.runOf p :=
  Dev.held_runOf ((Dev.updTile_held ..).trans (d.updTile_held ..)) p

theorem Dev.pairNext_evr (d : Dev) (n t u : Nat) : (d.pairNext n t u).evr = d.evr := by
  obtain ⟨-, -, evr, -⟩ := d.updTile_keeps n t TileSt.nextPair
  obtain ⟨-, -, evr', -⟩ := (d.updTile n t TileSt.nextPair).updTile_keeps n u TileSt.nextPair
  exact evr'.trans evr

theorem Dev.portBits_runOf (d : Dev) (p q : Nat) : (d.portBits p).runOf q = d.runOf q := rfl

theorem Dev.portBits_tile? (d : Dev) (p n t : Nat) : (d.portBits p).tile? n t = d.tile? n t := rfl

theorem Dev.portBits_evr (d : Dev) (p : Nat) : (d.portBits p).evr = d.evr := rfl

theorem Dev.pairGo_evr (d : Dev) (p : Nat) : (d.pairGo p).evr = d.evr := rfl

theorem Dev.pairGo_planT {d : Dev} {p : Nat} {r : Run} (hr : d.runOf p = some r) :
    ((d.pairGo p).runOf p).map (fun r => r.planT) = some (fracI (r.k + 1)) := by
  rw [Dev.pairGo, Dev.updRun_runOf hr]
  rfl

theorem Dev.pairGo_runOf_ne (d : Dev) {p q : Nat} (h : q ≠ p) : (d.pairGo p).runOf q = d.runOf q :=
  congrArg Eng.run (d.setEng_engOf_ne _ h)

section
variable {d : Dev} {n t p : Nat} {x : TileSt} (ho : d.bar.old = none) (hc : d.bar.cur = some n) (hx : d.tile? n t = some x)
  (hpair : x.paired = true) (hp : d.pairWaits (.bed n t x.pairIx) = some p)
include ho hc hx hpair hp

theorem Dev.pairStart_both {q : Nat} (hq : d.pairWaits (.bed n x.rcd.partner x.pairIx) = some q) :
    d.pairStart t = ((((d.pairGo p).pairGo q).pairNext n t x.rcd.partner).portBits p).portBits q := by
  simp only [Dev.pairStart, ho, hc, List.filterMap_cons, List.filterMap_nil, id, List.foldl_cons, List.foldl_nil, hx, hpair, hp, hq]
  rfl

theorem Dev.pairStart_alone (hq : d.pairWaits (.bed n x.rcd.partner x.pairIx) = none)
    (ended : d.pathOver (.bed n x.rcd.partner x.pairIx) = true) :
    d.pairStart t = ((d.pairGo p).pairNext n t x.rcd.partner).portBits p := by
  simp only [Dev.pairStart, ho, hc, List.filterMap_cons, List.filterMap_nil, id, List.foldl_cons, List.foldl_nil, hx, hpair, hp, hq, ended,
    if_true]
  rfl

end

section
variable {tile : BitVec 16} {s : State} {n p : Nat} {x y : TileSt} (ho : s.dev.bar.old = none) (hc : s.dev.bar.cur = some n)
  (hx : s.dev.tile? n tile.toNat = some x) (hpair : x.paired = true) (hne : x.rcd.partner ≠ tile.toNat)
  (hy : s.dev.tile? n x.rcd.partner = some y) (hp : s.dev.pairWaits (.bed n tile.toNat x.pairIx) = some p)
include ho hc hx hpair hne hy hp

theorem exec_pairStart_both {q : Nat} (hq : s.dev.pairWaits (.bed n x.rcd.partner x.pairIx) = some q) (hpq : p ≠ q) :
    ∃ t : State, exec (.pairStart tile) s = .next t ∧ t.dev.tile? n tile.toNat = some { x with pairIx := x.pairIx + 1 } ∧
      t.dev.tile? n x.rcd.partner = some { y with pairIx := y.pairIx + 1 } ∧
      (∀ r : Run, s.dev.runOf p = some r → (t.dev.runOf p).map (fun r => r.planT) = some (fracI (r.k + 1))) ∧
      (∀ r : Run, s.dev.runOf q = some r → (t.dev.runOf q).map (fun r => r.planT) = some (fracI (r.k + 1))) ∧
      t.mem = s.mem ∧ t.dev.evr = s.dev.evr := by
  obtain ⟨tiles, partner⟩ := Dev.pairNext_tiles (d := (s.dev.pairGo p).pairGo q) hx hy hne
  refine ⟨_, exec_pairStart tile s, ?_⟩
  rw [State.onDev, Dev.pairStart_both ho hc hx hpair hp hq]
  dsimp only
  simp only [Dev.portBits_tile?, Dev.portBits_runOf, Dev.pairNext_runOf, Dev.portBits_evr, Dev.pairNext_evr, Dev.pairGo_evr]
  refine ⟨tiles, partner, fun r hr => ?_, fun r hr => ?_, trivial, trivial⟩
  · rw [Dev.pairGo_runOf_ne _ hpq]
    exact Dev.pairGo_planT hr
  · exact Dev.pairGo_planT ((Dev.pairGo_runOf_ne _ hpq.symm).trans hr)

theorem exec_pairStart_alone (hq : s.dev.pairWaits (.bed n x.rcd.partner x.pairIx) = none)
    (ended : s.dev.pathOver (.bed n x.rcd.partner x.pairIx) = true) :
    ∃ t : State, exec (.pairStart tile) s = .next t ∧ t.dev.tile? n tile.toNat = some { x with pairIx := x.pairIx + 1 } ∧
      t.dev.tile? n x.rcd.partner = some { y with pairIx := y.pairIx + 1 } ∧
      (∀ r : Run, s.dev.runOf p = some r → (t.dev.runOf p).map (fun r => r.planT) = some (fracI (r.k + 1))) ∧
      t.mem = s.mem ∧ t.dev.evr = s.dev.evr := by
  obtain ⟨tiles, partner⟩ := Dev.pairNext_tiles (d := s.dev.pairGo p) hx hy hne
  refine ⟨_, exec_pairStart tile s, ?_⟩
  rw [State.onDev, Dev.pairStart_alone ho hc hx hpair hp hq ended]
  dsimp only
  simp only [Dev.portBits_tile?, Dev.portBits_runOf, Dev.pairNext_runOf, Dev.portBits_evr, Dev.pairNext_evr, Dev.pairGo_evr]
  exact ⟨tiles, partner, fun r hr => Dev.pairGo_planT hr, trivial, trivial⟩

end

/-! ## Remainders whose COOL_TIME has passed (R110) -/

theorem exec_remainderRequeue (s : State) : exec .remainderRequeue s = .next (s.onDev (fun d => d.remainderRequeue)) := rfl

/-- Every path of a tile is requeued that is due. -/
def TileSt.requeued (now : Word) (x : TileSt) : TileSt := { x with paths := x.paths.map (Machine.requeued now) }

/-- Every path of a bed is requeued that is due. -/
def Bed.requeued (now : Word) (b : Bed) : Bed := { b with tiles := b.tiles.map (fun y => (y.1, y.2.requeued now)) }

/-- The path of a remainder held for another node is requeued if it is due. -/
def HoIn.requeued (now : Word) (h : HoIn) : HoIn := { h with path := Machine.requeued now h.path }

theorem Dev.remainderRequeue_tile? (d : Dev) (n t : Nat) : d.remainderRequeue.tile? n t = (d.tile? n t).map (TileSt.requeued d.tick) := by
  have bed : d.remainderRequeue.bed? n = (d.bed? n).map (Bed.requeued d.tick) :=
    tfind_map (Bed.requeued d.tick) d.bar.beds n
  rw [Dev.tile?, Dev.tile?, bed]
  cases d.bed? n with
  | none => rfl
  | some b => exact tfind_map (TileSt.requeued d.tick) b.tiles t

/-- A path that is due joins the pool, and no other path changes. -/
theorem Dev.remainderRequeue_path? (d : Dev) (k : PKey) : d.remainderRequeue.path? k = (d.path? k).map (requeued d.tick) := by
  cases k with
  | bed n t i =>
    rw [Dev.path?, Dev.path?, Dev.remainderRequeue_tile?]
    cases d.tile? n t with
    | none => rfl
    | some x => exact List.getElem?_map
  | inc x =>
    have held : tfind d.remainderRequeue.hnd.inc x = (tfind d.hnd.inc x).map (HoIn.requeued d.tick) :=
      tfind_map (HoIn.requeued d.tick) d.hnd.inc x
    rw [Dev.path?, Dev.path?, held]
    cases tfind d.hnd.inc x <;> rfl

/-- Settles O18: the pre-scan of a bed is that of its tiles in order, whose paths do not depend on the counter; the first path in order that a
beam with room takes is the one dealt; a paired start is one step of both tiles. -/
theorem prescanDealAndPairedStart : Obligations.PrescanDealAndPairedStart := by
  unfold Obligations.PrescanDealAndPairedStart
  refine ⟨⟨fun s => exec_prescan_none, fun s n b => exec_prescan_no_tiles, fun s n i b x hb hs ht hx hn hl he hm hc => ?_,
      fun s => exec_dealPath_none, fun s k rest q b => exec_dealPath_deals⟩,
    fun tile s n p q x y ho hc hx hpair hne hy hp hq hpq => exec_pairStart_both ho hc hx hpair hne hy hp hq hpq,
    fun tile s n p x y ho hc hx hpair hne hy hp hq ended => exec_pairStart_alone ho hc hx hpair hne hy hp hq ended,
    fun s => ⟨_, exec_remainderRequeue s, s.dev.remainderRequeue_path?, rfl, rfl, rfl, rfl⟩⟩
  exact exec_prescan_tile hb hs ht hx hn hl he hm hc rfl

end Sys2Proof.Machine

/-! # Pins and boundary scan (10_encoders_axes.md R284; 17_electrical_package.md R428)

A cycle of TCK is followed in three parts: the rising edge changes shift registers and uses up free values, the falling edge decides the instruction in
force, and the beams are then held off where the instruction asks for it. -/

namespace Sys2Proof.Machine

open Sys2Proof.Safety

/-! ## PIN_PULSE_END (R284) -/

section
variable {d : Dev} {g : Nat} {u : DWord}

theorem Dev.pulseEnd_before (h : tfind d.pins g = some u) (hl : later64 u d.time = true) : d.pulseEnd g = d := by
  simp [Dev.pulseEnd, h, hl]

theorem Dev.pulseEnd_reached (h : tfind d.pins g = some u) (hl : later64 u d.time = false) :
    d.pulseEnd g = { d with pins := tdel d.pins g } := by
  simp [Dev.pulseEnd, h, hl]

theorem Dev.pulseEnd_low (h : tfind d.pins g = none) : d.pulseEnd g = d := by
  simp [Dev.pulseEnd, h]

end

theorem exec_pinPulseEnd (g : Gpf) (s : State) : exec (.pinPulseEnd g) s = .next (s.onDev (fun d => d.pulseEnd g.val)) := rfl

/-- Before the end of its pulse, or with no pulse, a pin stays as it is. -/
theorem exec_pinPulseEnd_stays {g : Gpf} {s : State} (h : s.dev.pulseEnd g.val = s.dev) : exec (.pinPulseEnd g) s = .next s := by
  rw [exec_pinPulseEnd, State.onDev, h]

/-- A pulse that has reached its end leaves its pin low. -/
theorem exec_pinPulseEnd_reached {g : Gpf} {u : DWord} {s : State} (h : tfind s.dev.pins g.val = some u) (hl : later64 u s.dev.time = false) :
    ∃ t : State, exec (.pinPulseEnd g) s = .next t ∧ tfind t.dev.pins g.val = none ∧
      (∀ q : Nat, q ≠ g.val → tfind t.dev.pins q = tfind s.dev.pins q) ∧ t = { s with dev := { s.dev with pins := t.dev.pins } } := by
  refine ⟨_, exec_pinPulseEnd g s, ?_⟩
  rw [State.onDev, Dev.pulseEnd_reached h hl]
  exact ⟨tfind_tdel_self _ _, fun q hq => tfind_tdel_ne _ _ _ hq.symm, rfl⟩

/-! ## The states of the controller (R428) -/

/-- Update-IR is entered from states that shift nothing. -/
theorem TapState.next_updIr {st : TapState} {tms : Bool} (h : st.next tms = .updIr) : st = .ex1Ir ∨ st = .ex2Ir := by
  cases st <;> cases tms <;> simp [TapState.next] at h ⊢

/-! ## The edges of TCK (R428) -/

/-- Of the device d only shift registers of the test access port changed, and free values were used up. -/
structure Dev.ShiftOnly (d d' : Dev) : Prop where
  frame : d' = { d with freeCtr := d'.freeCtr, tap := d'.tap }
  ir : d'.tap.ir = d.tap.ir

theorem Dev.tapRise_shiftOnly (d : Dev) (tdi : Bool) : d.ShiftOnly (d.tapRise tdi) := by
  unfold Dev.tapRise
  dsimp only
  split
  · exact ⟨rfl, rfl⟩
  · exact ⟨rfl, rfl⟩
  · split <;> exact ⟨rfl, rfl⟩
  · split <;> exact ⟨rfl, rfl⟩
  · exact ⟨rfl, rfl⟩

/-- Only Capture-IR and Shift-IR change the shifted instruction. -/
theorem Dev.tapRise_exit {d : Dev} (h : d.tap.st = .ex1Ir ∨ d.tap.st = .ex2Ir) (tdi : Bool) : d.tapRise tdi = d := by
  rcases h with h | h <;> simp [Dev.tapRise, h]

theorem Tap.fall_ir_other (t : Tap) {st : TapState} (h : st ≠ .reset) (k : st ≠ .updIr) : (t.fall st).ir = t.ir := by
  cases st
  case reset => exact absurd rfl h
  case updIr => exact absurd rfl k
  all_goals rfl

/-! ## The beams under EXTEST, HIGHZ and CLAMP (R428) -/

/-- Port p with its DAC clamped and its EMIT_EN brought up to date. -/
def Dev.holdPort (d : Dev) (p : Nat) : Dev := (d.updPrt p (fun x => { x with dac := 0 })).emitBit p

/-- Port p is dark. -/
def Dev.HeldDark (d : Dev) (p : Nat) : Prop := d.get (F.BEAMn_PSTAT_EMIT p) = 0 ∧ (d.prtOf p).dac = 0

theorem Dev.emitBit_forced {d : Dev} (h : d.tapForce = true) (p : Nat) : (d.emitBit p).get (F.BEAMn_PSTAT_EMIT p) = 0 := by
  have level : d.emitLevel p = false := by simp [Dev.emitLevel, Dev.emitAllowed, h]
  rw [Dev.emitBit, Dev.setFlag_eq, Dev.get_put_self, level]
  rfl

theorem Dev.holdPort_self {d : Dev} (h : d.tapForce = true) (p : Nat) : (d.holdPort p).HeldDark p :=
  ⟨Dev.emitBit_forced (d := d.updPrt p _) h p, congrArg Prt.dac (Dev.updPrt_prtOf d p (fun x => { x with dac := 0 }))⟩

theorem Dev.holdPort_other {d : Dev} {p q : Nat} (hq : q ≠ p) (k : d.HeldDark p) : (d.holdPort q).HeldDark p := by
  obtain ⟨emit, dac⟩ := k
  have apart : (F.BEAMn_PSTAT_EMIT q).key ≠ (F.BEAMn_PSTAT_EMIT p).key := by
    simp only [portKeys]
    omega
  exact ⟨(Dev.get_put_ne _ _ _ _ apart).trans emit, (congrArg Prt.dac (tget_tput_ne _ _ _ _ _ hq)).trans dac⟩

theorem Dev.holdPort_keeps {d : Dev} {p : Nat} (h : d.tapForce = true) (k : d.HeldDark p) (q : Nat) : (d.holdPort q).HeldDark p := by
  by_cases hq : q = p
  · exact hq ▸ Dev.holdPort_self h q
  · exact Dev.holdPort_other hq k

theorem Dev.tapHold_forced {d : Dev} (h : d.tapForce = true) : d.tapHold = (upTo 32).foldl Dev.holdPort d := if_pos h

theorem Dev.tapHold_released {d : Dev} (h : d.tapForce = false) : d.tapHold = d := if_neg (by simp [h])

/-- While the instruction asks for it every port is held dark. -/
theorem Dev.tapHold_dark {d : Dev} (h : d.tapForce = true) {p : Nat} (hp : p < 32) : d.tapHold.HeldDark p := by
  rw [Dev.tapHold_forced h]
  exact foldl_reaches (I := fun e => e.tapForce = true) Dev.holdPort _ (fun _ _ _ force => force) (fun _ q _ force k => Dev.holdPort_keeps force k q)
    ⟨p, List.mem_range.mpr hp, fun _ force => Dev.holdPort_self force p⟩ h

/-- Of the device d only ports and registers changed. -/
structure Dev.PortsOnly (d d' : Dev) : Prop where
  frame : d' = { d with regs := d'.regs, prt := d'.prt }

namespace Dev.PortsOnly

variable {d e : Dev}

theorem holdPort (h : d.PortsOnly e) (p : Nat) : d.PortsOnly (e.holdPort p) where
  frame := by
    have held : e.holdPort p = { e with regs := (e.holdPort p).regs, prt := (e.holdPort p).prt } := rfl
    rw [h.frame] at held
    rw [h.frame]
    exact held

theorem tap (h : d.PortsOnly e) : e.tap = d.tap := by rw [h.frame]
theorem sys (h : d.PortsOnly e) : e.sys = d.sys := by rw [h.frame]
theorem evr (h : d.PortsOnly e) : e.evr = d.evr := by rw [h.frame]

end Dev.PortsOnly

/-- Holding the beams off changes ports and registers alone. -/
theorem Dev.tapHold_portsOnly (d : Dev) : d.PortsOnly d.tapHold := by
  cases h : d.tapForce with
  | false =>
    rw [Dev.tapHold_released h]
    exact ⟨rfl⟩
  | true =>
    rw [Dev.tapHold_forced h]
    exact List.foldlRecOn (motive := d.PortsOnly) _ _ ⟨rfl⟩ (fun _ he q _ => he.holdPort q)

/-! ## BOUNDARY_SCAN_TCK (R428) -/

/-- The device with a level of RESET_N taken in. -/
def Dev.resetPin (d : Dev) (resetN : Bool) : Dev := { d with sys := { d.sys with resetLow := !resetN } }

/-- The device after both edges of TCK, before the beams are held off. -/
def Dev.tapCycle (d : Dev) (tms tdi resetN : Bool) : Dev :=
  let r := (d.resetPin resetN).tapRise tdi
  { r with tap := r.tap.fall (d.tap.st.next tms) }

theorem Dev.tapClock_cycle (d : Dev) (tms tdi resetN : Bool) : d.tapClock tms tdi true resetN = (d.tapCycle tms tdi resetN).tapHold := rfl

section
variable (d : Dev) (tms tdi resetN : Bool)

theorem Dev.tapCycle_frame : d.tapCycle tms tdi resetN =
    { d.resetPin resetN with tap := (d.tapCycle tms tdi resetN).tap, freeCtr := (d.tapCycle tms tdi resetN).freeCtr } := by
  have frame := ((d.resetPin resetN).tapRise_shiftOnly tdi).frame
  exact congrArg (fun r : Dev => { r with tap := (d.tapCycle tms tdi resetN).tap }) frame

theorem Dev.tapCycle_resetLow : (d.tapCycle tms tdi resetN).sys.resetLow = !resetN := by
  rw [Dev.tapCycle_frame]
  rfl

theorem Dev.tapCycle_st : (d.tapCycle tms tdi resetN).tap.st = d.tap.st.next tms := rfl

variable {d tms}

theorem Dev.tapCycle_reset (h : d.tap.st.next tms = .reset) : (d.tapCycle tms tdi resetN).tap.ir = 0x01#8 :=
  congrArg (fun st => (Tap.fall _ st).ir) h

theorem Dev.tapCycle_updIr (h : d.tap.st.next tms = .updIr) : (d.tapCycle tms tdi resetN).tap.ir = d.tap.irShift := by
  have unshifted : ((d.resetPin resetN).tapRise tdi).tap.irShift = d.tap.irShift := by
    rw [Dev.tapRise_exit (d := d.resetPin resetN) (TapState.next_updIr h)]
    rfl
  exact (congrArg (fun st => (Tap.fall _ st).ir) h).trans unshifted

theorem Dev.tapCycle_other (h : d.tap.st.next tms ≠ .reset) (k : d.tap.st.next tms ≠ .updIr) :
    (d.tapCycle tms tdi resetN).tap.ir = d.tap.ir :=
  (Tap.fall_ir_other _ h k).trans (Dev.tapRise_shiftOnly _ tdi).ir

variable (d tms)

/-- What holding the beams off leaves of the cycle. -/
theorem Dev.tapClock_keeps : (d.tapClock tms tdi true resetN).tap = (d.tapCycle tms tdi resetN).tap ∧
    (d.tapClock tms tdi true resetN).sys.resetLow = !resetN ∧ (d.tapClock tms tdi true resetN).evr = d.evr := by
  have ports := (d.tapCycle tms tdi resetN).tapHold_portsOnly
  have evr : (d.tapCycle tms tdi resetN).evr = d.evr := by
    rw [Dev.tapCycle_frame]
    rfl
  rw [Dev.tapClock_cycle]
  exact ⟨ports.tap, (congrArg Sys.resetLow ports.sys).trans (d.tapCycle_resetLow tms tdi resetN), ports.evr.trans evr⟩

/-- With RESET_N high nothing holds the beams off. -/
theorem Dev.tapClock_running : d.tapClock tms tdi true true = d.tapCycle tms tdi true := by
  have released : (d.tapCycle tms tdi true).tapForce = false := by
    rw [Dev.tapForce, Dev.tapCycle_resetLow]
    rfl
  rw [Dev.tapClock_cycle, Dev.tapHold_released released]

theorem Dev.tapClock_dark (hi : (d.tapCycle tms tdi false).tap.ir ∈ [0x00#8, 0x08#8, 0x09#8]) {p : Nat} (hp : p < 32) :
    (d.tapClock tms tdi true false).HeldDark p := by
  have forced : (d.tapCycle tms tdi false).tapForce = true := by
    rw [Dev.tapForce, Dev.tapCycle_resetLow, List.contains_iff_mem.mpr hi]
    rfl
  exact Dev.tapHold_dark forced hp

end

theorem exec_boundaryScanTck (tms tdi trstN resetN : Bool) (s : State) :
    exec (.boundaryScanTck tms tdi trstN resetN) s = .next (s.onDev (fun d => d.tapClock tms tdi trstN resetN)) := rfl

/-- TRST_N low selects IDCODE, under which no beam is held off. -/
theorem exec_boundaryScanTck_reset (tms tdi resetN : Bool) (s : State) : exec (.boundaryScanTck tms tdi false resetN) s = .next { s with
    dev := { s.dev with sys := { s.dev.sys with resetLow := !resetN }, tap := { s.dev.tap with st := .reset, ir := 0x01#8, tdo := none } } } := by
  have free : ∀ e : Dev, e.tap.ir = 0x01#8 → e.tapHold = e := fun e h => Dev.tapHold_released (by simp [Dev.tapForce, h])
  have clocked : s.dev.tapClock tms tdi false resetN =
      { s.dev.resetPin resetN with tap := { s.dev.tap with st := .reset, ir := 0x01#8, tdo := none } } := free _ rfl
  rw [exec_boundaryScanTck, State.onDev, clocked]
  rfl

/-- A cycle of TCK with TRST_N high. -/
theorem exec_boundaryScanTck_cycle (tms tdi resetN : Bool) (s : State) : ∃ t : State, exec (.boundaryScanTck tms tdi true resetN) s = .next t ∧
    t.dev.tap.st = s.dev.tap.st.next tms ∧ t.dev.sys.resetLow = !resetN ∧
    (s.dev.tap.st.next tms = .reset → t.dev.tap.ir = 0x01#8) ∧
    (s.dev.tap.st.next tms = .updIr → t.dev.tap.ir = s.dev.tap.irShift) ∧
    (s.dev.tap.st.next tms ≠ .reset → s.dev.tap.st.next tms ≠ .updIr → t.dev.tap.ir = s.dev.tap.ir) ∧
    (t.dev.tap.ir ∈ [0x00#8, 0x08#8, 0x09#8] → resetN = false →
      ∀ p : Fin 32, t.dev.get (F.BEAMn_PSTAT_EMIT p.val) = 0 ∧ (t.dev.prtOf p.val).dac = 0) ∧
    (resetN = true → t = { s with dev := { s.dev with
      sys := { s.dev.sys with resetLow := false }, tap := t.dev.tap, freeCtr := t.dev.freeCtr } }) ∧
    t.mem = s.mem ∧ t.dev.evr = s.dev.evr := by
  obtain ⟨tap, low, evr⟩ := s.dev.tapClock_keeps tms tdi resetN
  refine ⟨_, exec_boundaryScanTck tms tdi true resetN s, ?_⟩
  rw [State.onDev_dev, tap]
  refine ⟨rfl, low, Dev.tapCycle_reset _ _, Dev.tapCycle_updIr _ _, Dev.tapCycle_other _ _, ?_, ?_, rfl, evr⟩
  · rintro hi rfl p
    exact s.dev.tapClock_dark tms tdi hi p.isLt
  · rintro rfl
    rw [State.onDev, Dev.tapClock_running]
    exact congrArg (fun d => { s with dev := d }) (s.dev.tapCycle_frame tms tdi true)

/-- Settles O60: a pulse is over or is left alone; of a cycle of TCK the falling edge decides the instruction in force, and the beams are held off by
what is then in force. -/
theorem pinsAndBoundaryScan : Obligations.PinsAndBoundaryScan := by
  refine ⟨fun g u s h => ⟨fun hl => exec_pinPulseEnd_stays (Dev.pulseEnd_before h hl), exec_pinPulseEnd_reached h⟩,
    fun g s h => exec_pinPulseEnd_stays (Dev.pulseEnd_low h), exec_boundaryScanTck_reset, exec_boundaryScanTck_cycle⟩

end Sys2Proof.Machine

/-! # Encoders and compare units (10_encoders_axes.md R273 to R282)

A sample with one edge changes registers of its input and the input (`Dev.EncOnly`). What waits in a compare unit is taken in (`Dev.cmpTaken`) and then
judged against the count (`Dev.cmpGap`). -/

namespace Sys2Proof.Machine

open Sys2Proof.Safety

/-! ## Places of registers (R274 to R283) -/

/-- Where the registers of an encoder input stand. -/
theorem encKeys (e : Nat) :
    (F.QEe_STAT_DIR e).key = (0x2E0004 + e * 0x40) * 32 + 0 ∧ (F.QEe_STAT_MOVING e).key = (0x2E0004 + e * 0x40) * 32 + 1 ∧
    (F.QEe_STAT_PVALID e).key = (0x2E0004 + e * 0x40) * 32 + 2 ∧ (F.QEe_ERR_ILLEGAL e).key = (0x2E0008 + e * 0x40) * 32 + 0 ∧
    (F.QEe_ERR_LINE_NOW e).key = (0x2E0008 + e * 0x40) * 32 + 3 ∧ (F.QEe_COUNT_COUNT e).key = (0x2E000C + e * 0x40) * 32 + 0 ∧
    (F.QEe_PERIOD_SAMPLES e).key = (0x2E0018 + e * 0x40) * 32 + 0 ∧ (F.QEe_VEL_VAL e).key = (0x2E001C + e * 0x40) * 32 + 0 ∧
    (F.QEe_ILLEGAL_COUNT e).key = (0x2E0020 + e * 0x40) * 32 + 0 :=
  ⟨rfl, rfl, rfl, rfl, rfl, rfl, rfl, rfl, rfl⟩

/-- Where the registers of a compare unit stand. -/
theorem cmpKeys (k : Nat) :
    (F.QE_CMPk_CTRL_SRC k).key = (0x2E0400 + k * 0x40) * 32 + 0 ∧ (F.QE_CMPk_CTRL_DIR k).key = (0x2E0400 + k * 0x40) * 32 + 3 ∧
    (F.QE_CMPk_CTRL_CATCHUP k).key = (0x2E0400 + k * 0x40) * 32 + 5 ∧ (F.QE_CMPk_STAT_ARMED k).key = (0x2E0404 + k * 0x40) * 32 + 0 ∧
    (F.QE_CMPk_STAT_CMP_BEHIND k).key = (0x2E0404 + k * 0x40) * 32 + 1 ∧ (F.QE_CMPk_VAL_VAL k).key = (0x2E0408 + k * 0x40) * 32 + 0 :=
  ⟨rfl, rfl, rfl, rfl, rfl, rfl⟩

/-- A register of the encoder inputs or of the compare units. -/
def Fld.ofEncoders (G : Fld) : Prop := 0x2E0000 * 32 ≤ G.key ∧ G.key < 0x2E0600 * 32

/-- The recorder's registers stand elsewhere. -/
theorem Fld.ofEncoders_not_rec {G : Fld} (h : G.ofEncoders) : G.key ∉ recFlds.map Fld.key := by
  intro q
  have away : ∀ k ∈ recFlds.map Fld.key, k < 0x2E0000 * 32 ∨ 0x2E0600 * 32 ≤ k := by decide
  have := away _ q
  unfold Fld.ofEncoders at h
  omega

theorem Dev.get_raise_ofEncoders (d : Dev) {G : Fld} (hG : G.ofEncoders) (c a b x y z : Nat) : (d.raise c a b x y z).get G = d.get G :=
  Dev.get_raise _ _ _ _ _ _ _ _ (Fld.ofEncoders_not_rec hG)

theorem Fld.ofEncoders_not_lastGasp {G : Fld} (h : G.ofEncoders) : G.key ≠ F.EVR_STAT_LASTGASP.key :=
  fun q => Fld.ofEncoders_not_rec h (q ▸ List.mem_map_of_mem (by simp [recFlds]))

theorem ofEncoders_enc {e : Nat} (he : e < 8) : (F.QEe_COUNT_COUNT e).ofEncoders ∧ (F.QEe_ERR_ILLEGAL e).ofEncoders ∧
    (F.QEe_ILLEGAL_COUNT e).ofEncoders := by
  simp only [Fld.ofEncoders, encKeys]
  omega

theorem ofEncoders_cmp {k : Nat} (hk : k < 8) : ∀ G ∈ [F.QE_CMPk_STAT_CMP_BEHIND k, F.QE_CMPk_VAL_VAL k, F.QE_CMPk_STAT_ARMED k],
    G.ofEncoders := by
  simp only [Fld.ofEncoders, List.mem_cons, List.not_mem_nil, or_false, forall_eq_or_imp, forall_eq, cmpKeys]
  omega

/-! ## Inputs -/

@[simp] theorem Dev.updEnc_encOf (d : Dev) (e : Nat) (f : Enc → Enc) : (d.updEnc e f).encOf e = f (d.encOf e) := tget_tput_self _ _ _ _

theorem Dev.encOf_put (d : Dev) (G : Fld) (v e : Nat) : (d.put G v).encOf e = d.encOf e := rfl

/-- Of the device d only encoder inputs and register fields of fs changed. -/
structure Dev.EncOnly (fs : List Fld) (d d' : Dev) : Prop where
  frame : d' = { d with regs := d'.regs, encs := d'.encs }
  keeps : regsKeep fs d d'

namespace Dev.EncOnly

variable {fs : List Fld} {d e f : Dev}

theorem refl (d : Dev) : d.EncOnly fs d := ⟨rfl, regsKeep_refl fs d⟩

theorem trans (h : d.EncOnly fs e) (k : e.EncOnly fs f) : d.EncOnly fs f where
  frame := by
    have frame := k.frame
    rw [h.frame] at frame
    exact frame
  keeps := regsKeep_trans h.keeps k.keeps

theorem put (h : d.EncOnly fs e) {G : Fld} (hG : G ∈ fs) (v : Nat) : d.EncOnly fs (e.put G v) := h.trans ⟨rfl, regsKeep_put e G v hG⟩

theorem updEnc (h : d.EncOnly fs e) (n : Nat) (g : Enc → Enc) : d.EncOnly fs (e.updEnc n g) := h.trans ⟨rfl, regsKeep_of_regs rfl⟩

end Dev.EncOnly

/-! ## One sample of an input without filter (R274, R275) -/

theorem filterLine_unfiltered (level : Bool) (run : Nat) (raw : Bool) : filterLine 0 level run raw = (raw, 0) := by
  unfold filterLine
  split
  next same => rw [eq_of_beq same]
  next => rfl

/-- The device with levels of A and B taken in at input e, and Z as it was. -/
def Dev.encTaken (d : Dev) (e : Nat) (a b : Bool) : Dev :=
  d.updEnc e (fun x => { x with a := a, ra := 0, b := b, rb := 0, rz := 0, clock := x.clock + 1 })

/-- The direction in which an edge of A or B moves the count of input e: true for decreasing. -/
def Dev.edgeDown (d : Dev) (e : Nat) (a b : Bool) : Bool :=
  if a = (d.encOf e).a then ((b != (d.encOf e).a) != encInvert (d.sections false) e)
  else ((a == (d.encOf e).b) != encInvert (d.sections false) e)

section
variable {d : Dev} {m : Dram} {e : Nat} {a b : Bool} (hf : d.get (F.QEe_CTRL_FILT e) = 0)
include hf

/-- A sample with no edge of Z is judged by the changes of A and B. -/
theorem Dev.encSample_taken : d.encSample m e a b (d.encOf e).z =
    if a != (d.encOf e).a && b != (d.encOf e).b then ((d.encTaken e a b).encIllegal m e).encSlow e
    else if a != (d.encOf e).a then (d.encTaken e a b).encEdge m e ((a == (d.encOf e).b) != encInvert (d.sections false) e)
    else if b != (d.encOf e).b then (d.encTaken e a b).encEdge m e ((b != (d.encOf e).a) != encInvert (d.sections false) e)
    else (d.encTaken e a b).encSlow e := by
  have noEdge : (encUsesZ (d.sections false) e && (d.encOf e).z && !(d.encOf e).z) = false := by
    rw [Bool.and_assoc, Bool.and_not_self, Bool.and_false]
  unfold Dev.encSample
  simp only [hf, filterLine_unfiltered, noEdge]
  rfl

/-- One edge of A or B is counted. -/
theorem Dev.encSample_edge (h : (a ≠ (d.encOf e).a ∧ b = (d.encOf e).b) ∨ (a = (d.encOf e).a ∧ b ≠ (d.encOf e).b)) :
    d.encSample m e a b (d.encOf e).z = (d.encTaken e a b).encEdge m e (d.edgeDown e a b) := by
  rw [Dev.encSample_taken hf, Dev.edgeDown]
  rcases h with ⟨ha, hb⟩ | ⟨ha, hb⟩
  · rw [if_neg (by simp [hb]), if_pos (by simpa using ha), if_neg ha]
  · rw [if_neg (by simp [ha]), if_neg (by simp [ha]), if_pos (by simpa using hb), if_pos ha]

/-- A change of both lines is illegal. -/
theorem Dev.encSample_illegal (ha : a ≠ (d.encOf e).a) (hb : b ≠ (d.encOf e).b) :
    d.encSample m e a b (d.encOf e).z = ((d.encTaken e a b).encIllegal m e).encSlow e := by
  rw [Dev.encSample_taken hf, if_pos (by simp [ha, hb])]

end

/-- With no line at fault the runs of the lines begin again. -/
def Dev.linesClear (d : Dev) (e : Nat) : Dev :=
  (d.updEnc e (fun x => { x with fa := 0, fb := 0, fz := 0 })).put (F.QEe_ERR_LINE_NOW e) 0

theorem Dev.encLines_clear (d : Dev) (m : Dram) (e n : Nat) : d.encLines m e 0 n = d.linesClear e := by
  simp [Dev.encLines, Dev.linesClear, bitAt, lineSamples, b2n]

theorem Dev.qeSample_uncounted {d : Dev} {e : Nat} (h : d.encCounts e = false) (m : Dram) (n : Nat) (a b z : Bool) (lines : Nat) :
    d.qeSample m e n a b z lines = d := by
  simp [Dev.qeSample, h]

theorem Dev.qeSample_one {d : Dev} {e : Nat} (h : d.encCounts e = true) (m : Dram) (a b z : Bool) :
    d.qeSample m e 1 a b z 0 = (d.encSample m e a b z).linesClear e := by
  simp [Dev.qeSample, h, settleSamples, Dev.encSamples, Dev.encLines_clear]

/-! ## A counted edge (R275, R279) -/

/-- The register fields that a sample with one edge shows itself in. -/
def edgeFlds (e : Nat) : List Fld :=
  [F.QEe_COUNT_COUNT e, F.QEe_STAT_DIR e, F.QEe_STAT_MOVING e, F.QEe_STAT_PVALID e, F.QEe_VEL_VAL e, F.QEe_PERIOD_SAMPLES e,
   F.QEe_ERR_LINE_NOW e]

/-- Those of them that show the period and the lines. -/
def timeFlds (e : Nat) : List Fld := [F.QEe_STAT_PVALID e, F.QEe_VEL_VAL e, F.QEe_PERIOD_SAMPLES e, F.QEe_ERR_LINE_NOW e]

theorem timeFlds_edge {e : Nat} : ∀ G ∈ timeFlds e, G ∈ edgeFlds e := by simp [timeFlds, edgeFlds]

/-- The count after an edge. -/
def countStep (down : Bool) (c : Word) : Word := if down then c - 1 else c + 1

/-- The device on which an edge has moved the count of input e. -/
def Dev.encMoved (d : Dev) (e : Nat) (down : Bool) : Dev :=
  ((d.put (F.QEe_COUNT_COUNT e) (countStep down (d.count e)).toNat).put (F.QEe_STAT_DIR e) (b2n down)).put (F.QEe_STAT_MOVING e) 1

/-- The device on which an edge of input e has been counted and timed. -/
def Dev.encCounted (d : Dev) (e : Nat) (down : Bool) : Dev :=
  let en := d.encOf e
  let p := min maxPeriod (en.clock - en.last)
  let ok := decide (en.edge = some down)
  let d1 := ((d.encMoved e down).put (F.QEe_STAT_PVALID e) (b2n ok)).put (F.QEe_VEL_VAL e) (if ok then (velOf p down).toNat else 0)
  (if ok then d1.put (F.QEe_PERIOD_SAMPLES e) p else d1).updEnc e (fun x => { x with last := x.clock, edge := some down })

section
variable (d : Dev) (e : Nat) (down : Bool)

theorem Dev.encMoved_encOnly : d.EncOnly (edgeFlds e) (d.encMoved e down) :=
  (((Dev.EncOnly.refl d).put (by simp [edgeFlds]) _).put (by simp [edgeFlds]) _).put (by simp [edgeFlds]) _

theorem Dev.encCounted_timed : (d.encMoved e down).EncOnly (timeFlds e) (d.encCounted e down) := by
  unfold Dev.encCounted
  extract_lets en p ok d1
  have timed : (d.encMoved e down).EncOnly (timeFlds e) d1 := ((Dev.EncOnly.refl _).put (by simp [timeFlds]) _).put (by simp [timeFlds]) _
  refine Dev.EncOnly.updEnc ?_ e _
  split
  · exact timed.put (by simp [timeFlds]) _
  · exact timed

theorem Dev.encCounted_encOf : (d.encCounted e down).encOf e = { d.encOf e with last := (d.encOf e).clock, edge := some down } := by
  unfold Dev.encCounted
  extract_lets en p ok d1
  have same : (if ok then d1.put (F.QEe_PERIOD_SAMPLES e) p else d1).encOf e = en := by
    cases ok
    · exact (Dev.encOf_put ..).trans (Dev.encOf_put ..)
    · exact (Dev.encOf_put ..).trans ((Dev.encOf_put ..).trans (Dev.encOf_put ..))
  rw [Dev.updEnc_encOf, same]

theorem Dev.linesClear_encOnly : d.EncOnly (timeFlds e) (d.linesClear e) :=
  ((Dev.EncOnly.refl d).updEnc e _).put (by simp [timeFlds]) _

/-- The count and the direction that an edge shows. -/
theorem Dev.encMoved_shows : (d.encMoved e down).count e = countStep down (d.count e) ∧
    (d.encMoved e down).get (F.QEe_STAT_DIR e) = b2n down ∧ (d.encMoved e down).get (F.QEe_STAT_MOVING e) = 1 := by
  have apart : (F.QEe_STAT_MOVING e).key ≠ (F.QEe_COUNT_COUNT e).key ∧ (F.QEe_STAT_DIR e).key ≠ (F.QEe_COUNT_COUNT e).key ∧
      (F.QEe_STAT_MOVING e).key ≠ (F.QEe_STAT_DIR e).key := by
    simp only [encKeys]
    omega
  obtain ⟨movingCount, dirCount, movingDir⟩ := apart
  unfold Dev.encMoved
  refine ⟨?_, ?_, Dev.get_put_self _ _ _⟩
  · rw [Dev.count, Dev.getW_eq, Dev.get_put_ne _ _ _ _ movingCount, Dev.get_put_ne _ _ _ _ dirCount, Dev.get_put_self]
    exact BitVec.eq_of_toNat_eq (by simp [F.QEe_COUNT_COUNT, (countStep down (d.count e)).isLt])
  · rw [Dev.get_put_ne _ _ _ _ movingDir, Dev.get_put_self]
    cases down <;> rfl

/-- The period and the lines are shown elsewhere. -/
theorem timeFlds_apart : ∀ G ∈ [F.QEe_COUNT_COUNT e, F.QEe_STAT_DIR e, F.QEe_STAT_MOVING e], G.key ∉ (timeFlds e).map Fld.key := by
  simp only [timeFlds, List.map_cons, List.map_nil, List.mem_cons, List.not_mem_nil, or_false, forall_eq_or_imp, forall_eq, encKeys]
  omega

end

theorem Dev.cmpEdge_disarmed {d : Dev} {k : Nat} (h : d.get (F.QE_CMPk_STAT_ARMED k) = 0) (m : Dram) (down : Bool) (c0 c1 : Word) :
    d.cmpEdge m k down c0 c1 = d := by
  simp [Dev.cmpEdge, h]

/-- Counting leaves the registers of the compare units and of the Control Bar alone. -/
theorem Dev.encCounted_get {d : Dev} {e : Nat} {down : Bool} {G : Fld} (he : e < 8) (h : G.key < 0x2E0000 * 32 ∨ 0x2E0400 * 32 ≤ G.key) :
    (d.encCounted e down).get G = d.get G := by
  have away : G.key ∉ (edgeFlds e).map Fld.key := by
    simp only [edgeFlds, List.map_cons, List.map_nil, List.mem_cons, List.not_mem_nil, or_false, encKeys]
    omega
  exact (regsKeep_trans (d.encMoved_encOnly e down).keeps (regsKeep_mono (d.encCounted_timed e down).keeps timeFlds_edge)) G away

/-- Where no armed unit is on the input and no recoat watches it, an edge is counted and nothing more. -/
theorem Dev.encEdge_quiet {d : Dev} {e : Nat} (he : e < 8)
    (hc : ∀ k : Nat, k < 8 → d.get (F.QE_CMPk_CTRL_SRC k) = e → d.get (F.QE_CMPk_STAT_ARMED k) = 0) (hp : d.get F.BED_STAT_PHASE ≠ 3) (m : Dram)
    (down : Bool) : d.encEdge m e down = d.encCounted e down := by
  have units : ∀ k : Nat, (d.encCounted e down).get (F.QE_CMPk_CTRL_SRC k) = d.get (F.QE_CMPk_CTRL_SRC k) ∧
      (d.encCounted e down).get (F.QE_CMPk_STAT_ARMED k) = d.get (F.QE_CMPk_STAT_ARMED k) := fun k =>
    ⟨Dev.encCounted_get he (by simp only [cmpKeys]; omega), Dev.encCounted_get he (by simp only [cmpKeys]; omega)⟩
  have noHit : ∀ c0 c1 : Word, ((d.encCounted e down).cmpsOn e).foldl (fun d k => d.cmpEdge m k down c0 c1) (d.encCounted e down) =
      d.encCounted e down := by
    refine fun c0 c1 => List.foldlRecOn (motive := (· = d.encCounted e down)) _ _ rfl (fun x hx k hk => ?_)
    obtain ⟨lt, src⟩ := List.mem_filter.mp hk
    obtain ⟨srcKept, armedKept⟩ := units k
    rw [hx]
    exact Dev.cmpEdge_disarmed (armedKept.trans (hc k (List.mem_range.mp lt) (srcKept.symm.trans (eq_of_beq src)))) m down c0 c1
  have phase : (d.encCounted e down).get F.BED_STAT_PHASE ≠ 3 := by
    rwa [Dev.encCounted_get he (Or.inl (by decide))]
  unfold Dev.encEdge
  extract_lets en c0 c1 p ok d1 d2 d3 d4 fin
  have quiet : d4 = d.encCounted e down := noHit c0 c1
  rw [quiet, if_neg (by simp [phase])]

/-! ## An illegal transition (R275, R277) -/

/-- The device on which an illegal transition of input e has been noted. -/
def Dev.illegalNoted (d : Dev) (e : Nat) : Dev :=
  let counted := (d.put (F.QEe_ERR_ILLEGAL e) 1).bump (F.QEe_ILLEGAL_COUNT e)
  (counted.raise 0x0900 (srcEnc e) 2 e (d.count e).toNat d.tick.toNat).updEnc e
    (fun x => { x with ill := ((d.encOf e).clock :: (d.encOf e).ill).take 16 })

/-- With fewer than 15 others remembered an illegal transition is no loss. -/
theorem Dev.encIllegal_few {d : Dev} {e : Nat} (h : (d.encOf e).ill.length < 15) (m : Dram) : d.encIllegal m e = d.illegalNoted e := by
  unfold Dev.encIllegal
  extract_lets now ill d1
  have few : ill.length ≠ 16 := by
    simp only [ill, List.length_take, List.length_cons]
    omega
  rw [if_neg (by simp [few])]
  rfl

/-- An illegal transition is shown, counted and recorded, and leaves the count. -/
theorem Dev.illegalNoted_shows (d : Dev) {e : Nat} (he : e < 8) :
    (d.illegalNoted e).count e = d.count e ∧ (d.illegalNoted e).get (F.QEe_ERR_ILLEGAL e) = 1 ∧
    (d.illegalNoted e).get (F.QEe_ILLEGAL_COUNT e) = min (d.get (F.QEe_ILLEGAL_COUNT e) + 1) (2 ^ (F.QEe_ILLEGAL_COUNT e).width - 1) ∧
    recorded d (d.illegalNoted e) 0x0900 (0x10 + e) 2 e (d.count e).toNat d.tick.toNat := by
  obtain ⟨countEnc, illegalEnc, countersEnc⟩ := ofEncoders_enc he
  have apart : (F.QEe_ERR_ILLEGAL e).key ≠ (F.QEe_COUNT_COUNT e).key ∧ (F.QEe_ILLEGAL_COUNT e).key ≠ (F.QEe_COUNT_COUNT e).key ∧
      (F.QEe_ILLEGAL_COUNT e).key ≠ (F.QEe_ERR_ILLEGAL e).key ∧ (F.QEe_ERR_ILLEGAL e).key ≠ (F.QEe_ILLEGAL_COUNT e).key := by
    simp only [encKeys]
    omega
  obtain ⟨illegalCount, counterCount, counterIllegal, illegalCounter⟩ := apart
  have kept : ∀ G : Fld, G.ofEncoders →
      (d.illegalNoted e).get G = ((d.put (F.QEe_ERR_ILLEGAL e) 1).bump (F.QEe_ILLEGAL_COUNT e)).get G :=
    fun G hG => Dev.get_raise_ofEncoders _ hG ..
  refine ⟨?_, ?_, ?_, ?_⟩
  · exact congrArg (BitVec.ofNat 32) ((kept _ countEnc).trans
      ((Dev.get_put_ne _ _ _ _ counterCount).trans (Dev.get_put_ne _ _ _ _ illegalCount)))
  · exact (kept _ illegalEnc).trans ((Dev.get_put_ne _ _ _ _ counterIllegal).trans (Dev.get_put_self ..))
  · rw [kept _ countersEnc, Dev.bump_eq, Dev.get_put_self, Dev.get_put_ne _ _ _ _ illegalCounter]
    exact Nat.mod_eq_of_lt (Nat.lt_of_le_pred (Nat.two_pow_pos _) (Nat.min_le_right _ _))
  · exact (Dev.put_raise_evr _ _ _ _ _ _ _ _ _ (Fld.ofEncoders_not_lastGasp countersEnc)).trans
      (Dev.put_raise_evr _ _ _ _ _ _ _ _ _ (Fld.ofEncoders_not_lastGasp illegalEnc))

/-- A velocity that falls while no edge comes. -/
theorem Dev.encSlow_encOnly (d : Dev) (e : Nat) : d.EncOnly (timeFlds e) (d.encSlow e) := by
  unfold Dev.encSlow
  dsimp only
  split
  · exact (Dev.EncOnly.refl d).put (by simp [timeFlds]) _
  · exact .refl d

/-! ## QE_SAMPLE -/

/-- A sample whose result d forms no DRAM write changes the device alone. -/
theorem exec_qeSample {e : Sys2Proof.Enc} {n : Nat} {a b z : Bool} {lines : BitVec 3} {s : State} {d : Dev}
    (hd : s.settled.dev.qeSample s.mem e.val n a b z lines.toNat = d) (hw : d.wq = []) :
    exec (.qeSample e n a b z lines) s = .next { s with dev := d } := by
  subst hd
  exact congrArg Host.Outcome.next (State.runDev_noWrites s (fun d m => d.qeSample m e.val n a b z lines.toNat) hw)

theorem exec_qeSample_uncounted {e : Sys2Proof.Enc} {s : State} (h : s.dev.encCounts e.val = false) (n : Nat) (a b z : Bool) (lines : BitVec 3) :
    exec (.qeSample e n a b z lines) s = .next s.settled := by
  have same := Dev.qeSample_uncounted (d := s.settled.dev) h s.mem n a b z lines.toNat
  exact exec_qeSample same rfl

section
variable {e : Sys2Proof.Enc} {s : State} {a b : Bool} (hr : s.dev.encCounts e.val = true) (hf : s.dev.get (F.QEe_CTRL_FILT e.val) = 0)
include hr hf

/-- One edge of A or B is counted in its direction. -/
theorem exec_qeSample_edge
    (hc : ∀ k : Nat, k < 8 → s.dev.get (F.QE_CMPk_CTRL_SRC k) = e.val → s.dev.get (F.QE_CMPk_STAT_ARMED k) = 0)
    (hp : s.dev.get F.BED_STAT_PHASE ≠ 3)
    (h : (a ≠ (s.dev.encOf e.val).a ∧ b = (s.dev.encOf e.val).b) ∨ (a = (s.dev.encOf e.val).a ∧ b ≠ (s.dev.encOf e.val).b)) :
    ∃ t : State, exec (.qeSample e 1 a b (s.dev.encOf e.val).z 0) s = .next t ∧
      (t.dev.count e.val = countStep (s.dev.edgeDown e.val a b) (s.dev.count e.val) ∧
        t.dev.get (F.QEe_STAT_DIR e.val) = b2n (s.dev.edgeDown e.val a b) ∧
        (t.dev.encOf e.val).edge = some (s.dev.edgeDown e.val a b)) ∧
      t.dev.get (F.QEe_STAT_MOVING e.val) = 1 ∧ (t.dev.encOf e.val).clock = (s.dev.encOf e.val).clock + 1 ∧ t.mem = s.mem ∧
      t.dev.evr = s.dev.evr ∧ regsKeep (edgeFlds e.val) s.dev t.dev := by
  generalize hdown : s.dev.edgeDown e.val a b = down
  let d := s.settled.dev.encTaken e.val a b
  have counted : s.settled.dev.encSample s.mem e.val a b (s.dev.encOf e.val).z = d.encCounted e.val down := by
    rw [← hdown]
    exact (Dev.encSample_edge (d := s.settled.dev) hf h).trans (Dev.encEdge_quiet (d := d) e.isLt hc hp s.mem _)
  have moved := d.encMoved_encOnly e.val down
  have timed := (d.encCounted_timed e.val down).trans ((d.encCounted e.val down).linesClear_encOnly e.val)
  have input : ((d.encCounted e.val down).linesClear e.val).encOf e.val =
      { d.encOf e.val with last := (d.encOf e.val).clock, edge := some down, fa := 0, fb := 0, fz := 0 } := by
    rw [Dev.linesClear, Dev.encOf_put, Dev.updEnc_encOf, Dev.encCounted_encOf]
  have clock : (d.encOf e.val).clock = (s.dev.encOf e.val).clock + 1 := congrArg Enc.clock (Dev.updEnc_encOf s.settled.dev e.val _)
  obtain ⟨count, dir, moving⟩ := d.encMoved_shows e.val down
  have shown : ∀ G ∈ [F.QEe_COUNT_COUNT e.val, F.QEe_STAT_DIR e.val, F.QEe_STAT_MOVING e.val],
      ((d.encCounted e.val down).linesClear e.val).get G = (d.encMoved e.val down).get G :=
    fun G hG => timed.keeps G (timeFlds_apart e.val G hG)
  have unwritten : ((d.encCounted e.val down).linesClear e.val).wq = [] := by rw [timed.frame, moved.frame]; rfl
  refine ⟨_, exec_qeSample ((Dev.qeSample_one (d := s.settled.dev) hr s.mem a b _).trans (congrArg (Dev.linesClear · e.val) counted)) unwritten,
    ⟨?_, ?_, congrArg Enc.edge input⟩, ?_,
    (congrArg Enc.clock input).trans clock, rfl, by rw [timed.frame, moved.frame]; rfl, ?_⟩
  · exact (congrArg (BitVec.ofNat 32) (shown _ (by simp))).trans count
  · exact (shown _ (by simp)).trans dir
  · exact (shown _ (by simp)).trans moving
  · exact regsKeep_trans moved.keeps (regsKeep_mono timed.keeps timeFlds_edge)

/-- A change of both lines is noted as illegal. -/
theorem exec_qeSample_illegal (ha : a ≠ (s.dev.encOf e.val).a) (hb : b ≠ (s.dev.encOf e.val).b) (hi : (s.dev.encOf e.val).ill.length < 15) :
    ∃ t : State, exec (.qeSample e 1 a b (s.dev.encOf e.val).z 0) s = .next t ∧ t.dev.count e.val = s.dev.count e.val ∧
      t.dev.get (F.QEe_ERR_ILLEGAL e.val) = 1 ∧
      t.dev.get (F.QEe_ILLEGAL_COUNT e.val) =
        min (s.dev.get (F.QEe_ILLEGAL_COUNT e.val) + 1) (2 ^ (F.QEe_ILLEGAL_COUNT e.val).width - 1) ∧
      recorded s.dev t.dev 0x0900 (0x10 + e.val) 2 e.val (s.dev.count e.val).toNat s.dev.tick.toNat ∧ t.mem = s.mem := by
  let d := s.settled.dev.encTaken e.val a b
  have few : (d.encOf e.val).ill.length < 15 := (congrArg (fun x => x.ill.length) (Dev.updEnc_encOf s.settled.dev e.val _)).trans_lt hi
  have noted : s.settled.dev.encSample s.mem e.val a b (s.dev.encOf e.val).z = (d.illegalNoted e.val).encSlow e.val :=
    (Dev.encSample_illegal (d := s.settled.dev) hf ha hb).trans (congrArg (Dev.encSlow · e.val) (Dev.encIllegal_few few s.mem))
  have later := ((d.illegalNoted e.val).encSlow_encOnly e.val).trans (Dev.linesClear_encOnly _ e.val)
  obtain ⟨count, illegal, counter, event⟩ := d.illegalNoted_shows e.isLt
  have shown : ∀ G ∈ [F.QEe_COUNT_COUNT e.val, F.QEe_ERR_ILLEGAL e.val, F.QEe_ILLEGAL_COUNT e.val],
      (((d.illegalNoted e.val).encSlow e.val).linesClear e.val).get G = (d.illegalNoted e.val).get G := by
    refine fun G hG => later.keeps G ?_
    revert G
    simp only [timeFlds, List.map_cons, List.map_nil, List.mem_cons, List.not_mem_nil, or_false, forall_eq_or_imp, forall_eq, encKeys]
    omega
  have unwritten : (((d.illegalNoted e.val).encSlow e.val).linesClear e.val).wq = [] := by
    rw [later.frame]
    exact Dev.raise_wq ..
  refine ⟨_, exec_qeSample ((Dev.qeSample_one (d := s.settled.dev) hr s.mem a b _).trans (congrArg (Dev.linesClear · e.val) noted)) unwritten,
    ?_, (shown _ (by simp)).trans illegal, (shown _ (by simp)).trans counter, ?_, rfl⟩
  · exact (congrArg (BitVec.ofNat 32) (shown _ (by simp))).trans count
  · have same : (((d.illegalNoted e.val).encSlow e.val).linesClear e.val).evr = (d.illegalNoted e.val).evr := by rw [later.frame]
    exact same.trans (event.trans (Dev.raise_evr_congr d s.dev _ _ _ _ _ _ rfl rfl rfl))

end

/-! ## QE_MOVING_TIMEOUT (R279) -/

theorem exec_qeMovingTimeout (e : Sys2Proof.Enc) (s : State) : exec (.qeMovingTimeout e) s = .next (s.onDev (fun d => d.qeStopped e.val)) := rfl

/-- An input at rest, or with an edge in time, stays as it is. -/
theorem exec_qeMovingTimeout_stays {e : Sys2Proof.Enc} {s : State}
    (h : s.dev.get (F.QEe_STAT_MOVING e.val) = 0 ∨ (s.dev.encOf e.val).clock - (s.dev.encOf e.val).last < 2 ^ 24) :
    exec (.qeMovingTimeout e) s = .next s := by
  have inTime : s.dev.get (F.QEe_STAT_MOVING e.val) = 0 ∨ (s.dev.encOf e.val).clock - (s.dev.encOf e.val).last ≤ maxPeriod := by
    unfold maxPeriod
    omega
  have stays : s.dev.qeStopped e.val = s.dev := if_neg (by rcases inTime with still | early <;> simp [*])
  rw [exec_qeMovingTimeout, State.onDev, stays]

/-- The register fields that show the movement of an input. -/
def movingFlds (e : Nat) : List Fld := [F.QEe_STAT_MOVING e, F.QEe_STAT_PVALID e, F.QEe_VEL_VAL e]

/-- The device on which input e has come to rest. -/
def Dev.encRest (d : Dev) (e : Nat) : Dev :=
  (((d.put (F.QEe_STAT_MOVING e) 0).put (F.QEe_STAT_PVALID e) 0).put (F.QEe_VEL_VAL e) 0).updEnc e (fun x => { x with edge := none })

theorem Dev.qeStopped_late {d : Dev} {e : Nat} (hm : d.get (F.QEe_STAT_MOVING e) ≠ 0) (hl : 2 ^ 24 ≤ (d.encOf e).clock - (d.encOf e).last) :
    d.qeStopped e = d.encRest e := by
  have late : maxPeriod < (d.encOf e).clock - (d.encOf e).last := by
    unfold maxPeriod
    omega
  exact if_pos (by simp [hm, late])

theorem Dev.encRest_encOnly (d : Dev) (e : Nat) : d.EncOnly (movingFlds e) (d.encRest e) :=
  ((((Dev.EncOnly.refl d).put (by simp [movingFlds]) _).put (by simp [movingFlds]) _).put (by simp [movingFlds]) _).updEnc e _

theorem Dev.encRest_shows (d : Dev) (e : Nat) : (d.encRest e).get (F.QEe_STAT_MOVING e) = 0 ∧ (d.encRest e).get (F.QEe_STAT_PVALID e) = 0 ∧
    (d.encRest e).get (F.QEe_VEL_VAL e) = 0 := by
  have apart : (F.QEe_VEL_VAL e).key ≠ (F.QEe_STAT_MOVING e).key ∧ (F.QEe_STAT_PVALID e).key ≠ (F.QEe_STAT_MOVING e).key ∧
      (F.QEe_VEL_VAL e).key ≠ (F.QEe_STAT_PVALID e).key := by
    simp only [encKeys]
    omega
  obtain ⟨velMoving, validMoving, velValid⟩ := apart
  exact ⟨(Dev.get_put_ne _ _ _ _ velMoving).trans ((Dev.get_put_ne _ _ _ _ validMoving).trans (Dev.get_put_self ..)),
    (Dev.get_put_ne _ _ _ _ velValid).trans (Dev.get_put_self ..), Dev.get_put_self ..⟩

/-- With no edge within 2²⁴ samples an input is at rest. -/
theorem exec_qeMovingTimeout_late {e : Sys2Proof.Enc} {s : State} (hm : s.dev.get (F.QEe_STAT_MOVING e.val) ≠ 0)
    (hl : 2 ^ 24 ≤ (s.dev.encOf e.val).clock - (s.dev.encOf e.val).last) :
    ∃ t : State, exec (.qeMovingTimeout e) s = .next t ∧ t.dev.get (F.QEe_STAT_MOVING e.val) = 0 ∧ t.dev.get (F.QEe_STAT_PVALID e.val) = 0 ∧
      t.dev.get (F.QEe_VEL_VAL e.val) = 0 ∧ t = { s with dev := { s.dev with regs := t.dev.regs, encs := t.dev.encs } } ∧
      regsKeep (movingFlds e.val) s.dev t.dev := by
  obtain ⟨moving, valid, vel⟩ := s.dev.encRest_shows e.val
  refine ⟨_, exec_qeMovingTimeout e s, ?_⟩
  rw [State.onDev, Dev.qeStopped_late hm hl]
  exact ⟨moving, valid, vel, rfl, (s.dev.encRest_encOnly e.val).keeps⟩

/-! ## What waits in a compare unit (R282) -/

/-- The value of unit k that counts once what waits has been taken in. -/
def Dev.cmpNext (d : Dev) (k : Nat) : Word := (d.cmpOf k).value.getD (d.getW (F.QE_CMPk_VAL_VAL k))

/-- How far the value of unit k lies ahead of its count in the direction of travel. -/
def Dev.cmpGap (d : Dev) (k : Nat) (v : Word) : Int := along (d.cmpDown k) (v - d.count (d.get (F.QE_CMPk_CTRL_SRC k))).toInt

/-- The device on which the value that waits in unit k is live. -/
def Dev.cmpValued (d : Dev) (k : Nat) : Dev :=
  match (d.cmpOf k).value with
  | some v => d.put (F.QE_CMPk_VAL_VAL k) v.toNat
  | none => d

/-- The device on which the arming that waits in unit k is live as well. -/
def Dev.cmpArmed (d : Dev) (k : Nat) : Dev :=
  if (d.cmpOf k).arm then (d.cmpValued k).put (F.QE_CMPk_STAT_ARMED k) 1 else d.cmpValued k

/-- The device with what waits in unit k taken in. -/
def Dev.cmpTaken (d : Dev) (k : Nat) : Dev := (d.cmpArmed k).updCmp k (fun _ => cmp0)

theorem Dev.cmpLive_nothing {d : Dev} {k : Nat} (hv : (d.cmpOf k).value = none) (ha : (d.cmpOf k).arm = false) (m : Dram) :
    d.cmpLive m k = d := by
  simp [Dev.cmpLive, hv, ha]

/-- What waits is taken in and judged. -/
theorem Dev.cmpLive_waiting {d : Dev} {k : Nat} (h : (d.cmpOf k).value.isSome = true ∨ (d.cmpOf k).arm = true) (m : Dram) :
    d.cmpLive m k = (d.cmpTaken k).cmpJudge m k := by
  have waits : ¬ ((d.cmpOf k).value.isNone && !(d.cmpOf k).arm) = true := by
    rcases h with value | arm
    · simp [Option.isNone_iff_eq_none, Option.ne_none_iff_isSome.mpr value]
    · simp [arm]
  exact if_neg waits

section
variable (d : Dev) (k : Nat)

theorem Dev.cmpValued_regsOnly : d.RegsOnly [F.QE_CMPk_VAL_VAL k] (d.cmpValued k) := by
  unfold Dev.cmpValued
  split
  · exact (Dev.RegsOnly.refl d).put (by simp) _
  · exact .refl d

theorem Dev.cmpValued_val : (d.cmpValued k).getW (F.QE_CMPk_VAL_VAL k) = d.cmpNext k := by
  unfold Dev.cmpValued Dev.cmpNext
  cases (d.cmpOf k).value with
  | none => rfl
  | some v =>
    rw [Dev.getW_eq, Dev.get_put_self]
    exact BitVec.eq_of_toNat_eq (by simp [F.QE_CMPk_VAL_VAL, v.isLt])

theorem Dev.cmpArmed_regsOnly : (d.cmpValued k).RegsOnly [F.QE_CMPk_STAT_ARMED k] (d.cmpArmed k) := by
  unfold Dev.cmpArmed
  split
  · exact (Dev.RegsOnly.refl _).put (by simp) _
  · exact .refl _

/-- Taking in changes what waits, the value and ARMED. -/
theorem Dev.cmpTaken_frame : d.cmpTaken k = { d with regs := (d.cmpTaken k).regs, cmps := (d.cmpTaken k).cmps } := by
  have armed := (d.cmpArmed_regsOnly k).frame
  rw [(d.cmpValued_regsOnly k).frame] at armed
  exact congrArg (fun x : Dev => { x with cmps := (d.cmpTaken k).cmps }) armed

theorem Dev.cmpTaken_beside : (d.cmpTaken k).evr = d.evr ∧ (d.cmpTaken k).time = d.time ∧ (d.cmpTaken k).wq = d.wq := by
  rw [Dev.cmpTaken_frame]
  exact ⟨rfl, rfl, rfl⟩

theorem Dev.cmpTaken_keeps : regsKeep [F.QE_CMPk_VAL_VAL k, F.QE_CMPk_STAT_ARMED k] d (d.cmpTaken k) :=
  regsKeep_trans (regsKeep_mono (d.cmpValued_regsOnly k).keeps (by simp)) (regsKeep_mono (d.cmpArmed_regsOnly k).keeps (by simp))

theorem Dev.cmpTaken_cmpOf : (d.cmpTaken k).cmpOf k = cmp0 := tget_tput_self ..

theorem cmpArmed_not_val : (F.QE_CMPk_VAL_VAL k).key ∉ [F.QE_CMPk_STAT_ARMED k].map Fld.key ∧
    (F.QE_CMPk_STAT_ARMED k).key ∉ [F.QE_CMPk_VAL_VAL k].map Fld.key := by
  simp only [List.map_cons, List.map_nil, List.mem_singleton, cmpKeys]
  omega

theorem Dev.cmpTaken_val : (d.cmpTaken k).getW (F.QE_CMPk_VAL_VAL k) = d.cmpNext k :=
  (congrArg (BitVec.ofNat 32) ((d.cmpArmed_regsOnly k).keeps _ (cmpArmed_not_val k).1)).trans (d.cmpValued_val k)

/-- ARMED is set where an arming waited, and stays elsewhere. -/
theorem Dev.cmpTaken_armed : (d.cmpTaken k).get (F.QE_CMPk_STAT_ARMED k) =
    if (d.cmpOf k).arm then 1 else d.get (F.QE_CMPk_STAT_ARMED k) := by
  have armed : (d.cmpTaken k).get (F.QE_CMPk_STAT_ARMED k) = (d.cmpArmed k).get (F.QE_CMPk_STAT_ARMED k) := rfl
  rw [armed, Dev.cmpArmed]
  split
  · exact Dev.get_put_self ..
  · exact (d.cmpValued_regsOnly k).keeps _ (cmpArmed_not_val k).2

/-- A register field that taking in leaves alone. -/
theorem Dev.cmpTaken_get {G : Fld} (hv : G.key ≠ (F.QE_CMPk_VAL_VAL k).key) (ha : G.key ≠ (F.QE_CMPk_STAT_ARMED k).key) :
    (d.cmpTaken k).get G = d.get G := d.cmpTaken_keeps k G (by simp [hv, ha])

theorem Dev.cmpTaken_src : (d.cmpTaken k).get (F.QE_CMPk_CTRL_SRC k) = d.get (F.QE_CMPk_CTRL_SRC k) :=
  d.cmpTaken_get k (by simp only [cmpKeys]; omega) (by simp only [cmpKeys]; omega)

end

section
variable {d : Dev} {k : Nat} (hs : d.get (F.QE_CMPk_CTRL_SRC k) < 8)
include hs

/-- Where the source is one of the eight inputs, its registers are others than those taken in. -/
theorem Dev.cmpTaken_source : ∀ G ∈ [F.QEe_STAT_MOVING (d.get (F.QE_CMPk_CTRL_SRC k)), F.QEe_STAT_DIR (d.get (F.QE_CMPk_CTRL_SRC k)),
    F.QEe_COUNT_COUNT (d.get (F.QE_CMPk_CTRL_SRC k))], (d.cmpTaken k).get G = d.get G := by
  refine fun G hG => d.cmpTaken_keeps k G ?_
  revert G
  simp only [List.map_cons, List.map_nil, List.mem_cons, List.not_mem_nil, or_false, forall_eq_or_imp, forall_eq, encKeys, cmpKeys]
  omega

theorem Dev.cmpTaken_count :
    (d.cmpTaken k).count ((d.cmpTaken k).get (F.QE_CMPk_CTRL_SRC k)) = d.count (d.get (F.QE_CMPk_CTRL_SRC k)) := by
  rw [d.cmpTaken_src k]
  exact congrArg (BitVec.ofNat 32) (Dev.cmpTaken_source hs _ (by simp))

theorem Dev.cmpTaken_down : (d.cmpTaken k).cmpDown k = d.cmpDown k := by
  have moving : (d.cmpTaken k).flag (F.QEe_STAT_MOVING _) = d.flag _ := congrArg (· != 0) (Dev.cmpTaken_source hs _ (List.mem_cons_self ..))
  have dir : (d.cmpTaken k).flag (F.QEe_STAT_DIR (d.get (F.QE_CMPk_CTRL_SRC k))) = d.flag _ :=
    congrArg (· != 0) (Dev.cmpTaken_source hs _ (by simp))
  have travel : (d.cmpTaken k).get (F.QE_CMPk_CTRL_DIR k) = d.get (F.QE_CMPk_CTRL_DIR k) :=
    d.cmpTaken_get k (by simp only [cmpKeys]; omega) (by simp only [cmpKeys]; omega)
  unfold Dev.cmpDown
  dsimp only
  rw [d.cmpTaken_src k, moving, dir, travel]

/-- What was taken in is judged as it would have been before. -/
theorem Dev.cmpTaken_judged : (d.cmpTaken k).cmpGap k ((d.cmpTaken k).getW (F.QE_CMPk_VAL_VAL k)) = d.cmpGap k (d.cmpNext k) := by
  rw [Dev.cmpGap, Dev.cmpGap, d.cmpTaken_val k, Dev.cmpTaken_down hs, Dev.cmpTaken_count hs]

end

/-! ## The judgement (R282) -/

theorem Dev.cmpJudge_ahead {d : Dev} {k : Nat} (h : 0 < d.cmpGap k (d.getW (F.QE_CMPk_VAL_VAL k))) (m : Dram) : d.cmpJudge m k = d := if_pos h

/-- The device on which the value of unit k has been noted as reached already. -/
def Dev.cmpLate (d : Dev) (k : Nat) : Dev :=
  (d.put (F.QE_CMPk_STAT_CMP_BEHIND k) 1).raise 0x0908 (srcCmp k) 1 k (d.getW (F.QE_CMPk_VAL_VAL k)).toNat
    (d.count (d.get (F.QE_CMPk_CTRL_SRC k))).toNat

theorem Dev.cmpLate_frame (d : Dev) (k : Nat) :
    d.cmpLate k = { d with regs := (d.cmpLate k).regs, evr := (d.cmpLate k).evr, cmps := (d.cmpLate k).cmps } := by
  have cmps : (d.cmpLate k).cmps = d.cmps := Dev.raise_cmps ..
  rw [cmps]
  exact Dev.raise_eq ..

/-- A value already reached stays where nothing lets it catch up. -/
theorem Dev.cmpJudge_behind {d : Dev} {k : Nat} (h : d.cmpGap k (d.getW (F.QE_CMPk_VAL_VAL k)) ≤ 0)
    (hc : d.get (F.QE_CMPk_CTRL_CATCHUP k) = 0) (m : Dram) : d.cmpJudge m k = d.cmpLate k := by
  unfold Dev.cmpJudge
  extract_lets down v c gap d1 space
  have reached : ¬ 0 < gap := not_lt.mpr h
  rw [if_neg reached, if_neg (by simp [hc])]
  rfl

section
variable (d : Dev) {k : Nat} (hk : k < 8)
include hk

theorem Dev.cmpLate_behind : (d.cmpLate k).get (F.QE_CMPk_STAT_CMP_BEHIND k) = 1 :=
  (Dev.get_raise_ofEncoders _ (ofEncoders_cmp hk _ (by simp)) ..).trans (Dev.get_put_self ..)

theorem Dev.cmpLate_val : (d.cmpLate k).getW (F.QE_CMPk_VAL_VAL k) = d.getW (F.QE_CMPk_VAL_VAL k) := by
  have apart : (F.QE_CMPk_STAT_CMP_BEHIND k).key ≠ (F.QE_CMPk_VAL_VAL k).key := by
    simp only [cmpKeys]
    omega
  exact congrArg (BitVec.ofNat 32) ((Dev.get_raise_ofEncoders _ (ofEncoders_cmp hk _ (by simp)) ..).trans (Dev.get_put_ne _ _ _ _ apart))

theorem Dev.cmpLate_recorded : recorded d (d.cmpLate k) 0x0908 (0x18 + k) 1 k (d.getW (F.QE_CMPk_VAL_VAL k)).toNat
    (d.count (d.get (F.QE_CMPk_CTRL_SRC k))).toNat :=
  Dev.put_raise_evr _ _ _ _ _ _ _ _ _ (Fld.ofEncoders_not_lastGasp (ofEncoders_cmp hk _ (by simp)))

end

/-! ## COMPARE_VALUE_LIVE (R282) -/

/-- A row whose result d forms no DRAM write changes the device alone. -/
theorem exec_compareValueLive {k : Cmp} {s : State} {d : Dev} (hd : s.settled.dev.cmpLive s.mem k.val = d) (hw : d.wq = []) :
    exec (.compareValueLive k) s = .next { s with dev := d } := by
  subst hd
  exact congrArg Host.Outcome.next (State.runDev_noWrites s (fun d m => d.cmpLive m k.val) hw)

theorem exec_compareValueLive_nothing {k : Cmp} {s : State} (hv : (s.dev.cmpOf k.val).value = none) (ha : (s.dev.cmpOf k.val).arm = false) :
    exec (.compareValueLive k) s = .next s.settled :=
  exec_compareValueLive (Dev.cmpLive_nothing (d := s.settled.dev) hv ha s.mem) rfl

section
variable {k : Cmp} {s : State} (hw : (s.dev.cmpOf k.val).value.isSome = true ∨ (s.dev.cmpOf k.val).arm = true)
include hw

theorem State.cmpLive_taken : s.settled.dev.cmpLive s.mem k.val = (s.settled.dev.cmpTaken k.val).cmpJudge s.mem k.val :=
  Dev.cmpLive_waiting (d := s.settled.dev) hw s.mem

variable (hs : s.dev.get (F.QE_CMPk_CTRL_SRC k.val) < 8)
include hs

/-- A value ahead of the count of its input waits there. -/
theorem exec_compareValueLive_ahead (hg : 0 < s.dev.cmpGap k.val (s.dev.cmpNext k.val)) :
    ∃ t : State, exec (.compareValueLive k) s = .next t ∧ t.dev.getW (F.QE_CMPk_VAL_VAL k.val) = s.dev.cmpNext k.val ∧
      ((s.dev.cmpOf k.val).arm = true → t.dev.get (F.QE_CMPk_STAT_ARMED k.val) = 1) ∧
      ((s.dev.cmpOf k.val).arm = false → t.dev.get (F.QE_CMPk_STAT_ARMED k.val) = s.dev.get (F.QE_CMPk_STAT_ARMED k.val)) ∧
      t.dev.cmpOf k.val = { value := none, arm := false } ∧
      t = { s.settled with dev := { s.settled.dev with regs := t.dev.regs, cmps := t.dev.cmps } } ∧
      regsKeep [F.QE_CMPk_VAL_VAL k.val, F.QE_CMPk_STAT_ARMED k.val] s.dev t.dev := by
  let d := s.settled.dev
  have ahead : 0 < (d.cmpTaken k.val).cmpGap k.val ((d.cmpTaken k.val).getW (F.QE_CMPk_VAL_VAL k.val)) :=
    hg.trans_eq (Dev.cmpTaken_judged (d := d) hs).symm
  have armed := d.cmpTaken_armed k.val
  obtain ⟨-, -, unwritten⟩ := d.cmpTaken_beside k.val
  exact ⟨_, exec_compareValueLive ((State.cmpLive_taken hw).trans (Dev.cmpJudge_ahead ahead s.mem)) unwritten, d.cmpTaken_val k.val,
    fun ha => armed.trans (if_pos ha), fun ha => armed.trans (if_neg (ha ▸ Bool.false_ne_true)), d.cmpTaken_cmpOf k.val,
    congrArg (fun x => { s with dev := x }) (d.cmpTaken_frame k.val), d.cmpTaken_keeps k.val⟩

/-- A value that the count of its input has already reached is noted, and stays without CATCHUP. -/
theorem exec_compareValueLive_behind (hg : s.dev.cmpGap k.val (s.dev.cmpNext k.val) ≤ 0) (hc : s.dev.get (F.QE_CMPk_CTRL_CATCHUP k.val) = 0) :
    ∃ t : State, exec (.compareValueLive k) s = .next t ∧ t.dev.get (F.QE_CMPk_STAT_CMP_BEHIND k.val) = 1 ∧
      t.dev.getW (F.QE_CMPk_VAL_VAL k.val) = s.dev.cmpNext k.val ∧
      recorded s.dev t.dev 0x0908 (0x18 + k.val) 1 k.val (s.dev.cmpNext k.val).toNat
        (s.dev.count (s.dev.get (F.QE_CMPk_CTRL_SRC k.val))).toNat ∧
      t.dev.cmpOf k.val = { value := none, arm := false } ∧
      t = { s.settled with dev := { s.settled.dev with regs := t.dev.regs, evr := t.dev.evr, cmps := t.dev.cmps } } := by
  let d := s.settled.dev
  have behind : (d.cmpTaken k.val).cmpGap k.val ((d.cmpTaken k.val).getW (F.QE_CMPk_VAL_VAL k.val)) ≤ 0 :=
    (Dev.cmpTaken_judged (d := d) hs).trans_le hg
  have catchup : (d.cmpTaken k.val).get (F.QE_CMPk_CTRL_CATCHUP k.val) = 0 :=
    (d.cmpTaken_get k.val (by simp only [cmpKeys]; omega) (by simp only [cmpKeys]; omega)).trans hc
  have frame : (d.cmpTaken k.val).cmpLate k.val = { d with
      regs := ((d.cmpTaken k.val).cmpLate k.val).regs, evr := ((d.cmpTaken k.val).cmpLate k.val).evr,
      cmps := ((d.cmpTaken k.val).cmpLate k.val).cmps } :=
    ((d.cmpTaken k.val).cmpLate_frame k.val).trans (congrArg (fun x : Dev => { x with
      regs := ((d.cmpTaken k.val).cmpLate k.val).regs, evr := ((d.cmpTaken k.val).cmpLate k.val).evr,
      cmps := ((d.cmpTaken k.val).cmpLate k.val).cmps }) (d.cmpTaken_frame k.val))
  have unwritten : ((d.cmpTaken k.val).cmpLate k.val).wq = [] := congrArg Dev.wq frame
  have event := (d.cmpTaken k.val).cmpLate_recorded k.isLt
  rw [d.cmpTaken_val k.val, Dev.cmpTaken_count (d := d) hs] at event
  have gasp : (d.cmpTaken k.val).get F.EVR_STAT_LASTGASP = d.get F.EVR_STAT_LASTGASP :=
    d.cmpTaken_get k.val (Fld.ofEncoders_not_lastGasp (ofEncoders_cmp k.isLt _ (by simp))).symm
      (Fld.ofEncoders_not_lastGasp (ofEncoders_cmp k.isLt _ (by simp))).symm
  obtain ⟨evr, time, -⟩ := d.cmpTaken_beside k.val
  have before := Dev.raise_evr_congr (d.cmpTaken k.val) s.dev 0x0908 (0x18 + k.val) 1 k.val (d.cmpNext k.val).toNat
    (d.count (d.get (F.QE_CMPk_CTRL_SRC k.val))).toNat evr time gasp
  have nothing : ((d.cmpTaken k.val).cmpLate k.val).cmpOf k.val = cmp0 :=
    (congrArg (fun t => tget cmp0 t k.val) (Dev.raise_cmps ..)).trans (d.cmpTaken_cmpOf k.val)
  exact ⟨_, exec_compareValueLive ((State.cmpLive_taken hw).trans (Dev.cmpJudge_behind behind catchup s.mem)) unwritten,
    Dev.cmpLate_behind _ k.isLt, (Dev.cmpLate_val _ k.isLt).trans (d.cmpTaken_val k.val), event.trans before, nothing,
    congrArg (fun x => { s with dev := x }) frame⟩

end

/-! ## A source that is none of the eight inputs

A state lists registers with any number for a value, and O52 is said of every state. The direction of an "input 16" would stand in the register that
holds ARMED of unit 0. -/

/-- After reset, with unit 0 waiting to be armed at the value 1, on source `src`, in either direction of travel. -/
def armingOn (src : Nat) : State := State.reset.onDev (fun d => { d with
  regs := [((F.QE_CMPk_CTRL_SRC 0).key, src), ((F.QE_CMPk_CTRL_DIR 0).key, 2), ((F.QE_CMPk_VAL_VAL 0).key, 1)]
  cmps := [(0, { value := none, arm := true })] })

/-- On input 0 the value lies ahead, and the unit is armed there. -/
theorem armingOn_input : ∃ t : State, exec (.compareValueLive 0) (armingOn 0) = .next t ∧ t.dev.get (F.QE_CMPk_STAT_ARMED 0) = 1 := by
  obtain ⟨t, ht, -, armed, -⟩ := exec_compareValueLive_ahead (k := 0) (s := armingOn 0) (by decide) (by decide) (by decide)
  exact ⟨t, ht, armed rfl⟩

/-- On source 16 the value lies ahead until the unit is armed, and behind from then on. -/
theorem armingOn_16 : 0 < (armingOn 16).dev.cmpGap 0 1 ∧
    ((armingOn 16).settled.dev.cmpTaken 0).cmpGap 0 (((armingOn 16).settled.dev.cmpTaken 0).getW (F.QE_CMPk_VAL_VAL 0)) ≤ 0 := by decide

/-- So arming it notes the value as reached already. -/
theorem armingOn_16_behind : ∃ t : State, exec (.compareValueLive 0) (armingOn 16) = .next t ∧ t.dev.get (F.QE_CMPk_STAT_CMP_BEHIND 0) = 1 := by
  have late := (State.cmpLive_taken (k := 0) (s := armingOn 16) (by decide)).trans (Dev.cmpJudge_behind armingOn_16.2 (by decide) _)
  exact ⟨_, exec_compareValueLive late (Dev.raise_wq ..), Dev.cmpLate_behind _ (by decide)⟩

/-- Refutes O52: its clause on a value ahead of the count judges it before the arming, and the model once the unit is armed. In `armingOn 16`, whose
SRC holds a value that three bits do not, the direction of the source is read from ARMED itself, and the value ahead is noted as CMP_BEHIND. With one
of the eight inputs in SRC the clauses hold (`exec_compareValueLive_ahead`, `exec_compareValueLive_behind`); so do the other clauses:
`exec_qeSample_uncounted`, `exec_qeSample_edge`, `exec_qeSample_illegal`, `exec_qeMovingTimeout_late`, `exec_qeMovingTimeout_stays`,
`exec_compareValueLive_nothing`. -/
theorem not_encodersAndCompareUnits : ¬ Obligations.EncodersAndCompareUnits := by
  intro h
  obtain ⟨-, live⟩ := h
  obtain ⟨-, waiting⟩ := live 0 (armingOn 16)
  obtain ⟨ahead, -⟩ := waiting (Or.inr rfl)
  obtain ⟨t, ht, -, -, -, -, -, keeps⟩ := ahead armingOn_16.1
  obtain ⟨u, hu, behind⟩ := armingOn_16_behind
  obtain rfl := Host.Outcome.next.inj (ht.symm.trans hu)
  have kept := keeps (F.QE_CMPk_STAT_CMP_BEHIND 0) (by decide)
  exact absurd (behind.symm.trans kept) (by decide)

end Sys2Proof.Machine

/-! # The queue and reset (00_scope.md R10; 16_host_startup.md R401, R406, R411, R412, R420)

No row touches the commands that wait. A row reaches the state in the same few ways as in `exec_next_wf`: through the device, through DRAM writes,
through a read, or through a command in its lane; each of them keeps the queue. -/

namespace Sys2Proof.Machine

open Sys2Proof.Safety

/-! ## One step and reset -/

/-- Settles O1: the two branches of `step`. -/
theorem stepRunsFrontCommand : Obligations.StepRunsFrontCommand := by
  refine ⟨fun c rest s => rfl, fun s h => ?_⟩
  unfold step
  rw [h]

/-- Settles O2: every field of `State.reset` by its definition, the sixteen buffers and the 32 beams one by one. -/
theorem resetState : Obligations.ResetState := by
  refine ⟨rfl, rfl, rfl, rfl, rfl, ?buffers, rfl, rfl, rfl, rfl, rfl, rfl, fun _ => rfl, rfl, fun _ => ⟨rfl, rfl, rfl⟩, ?beams, rfl, fun _ => rfl⟩
  case buffers => decide
  case beams => decide

/-! ## Waiting commands stay -/

/-- Where each of two outcomes keeps the waiting commands, so does the choice between them. -/
theorem State.ite_pending {α : Type} {p : Prop} [Decidable p] {x y : State × α} {q : List Instr} (hx : x.1.pending = q) (hy : y.1.pending = q) :
    (if p then x else y).1.pending = q := by
  split <;> assumption

/-- A change of the device keeps the waiting commands. -/
theorem State.onDev_pending_of (s : State) {q : List Instr} (f : Dev → Dev) (h : s.pending = q) : (s.onDev f).pending = q := h

theorem State.dramRead_pending {s t : State} {src a n : Nat} {r : List Byte × Bool} (e : s.dramRead src a n = (t, r)) :
    t.pending = s.pending := by
  have key : (s.dramRead src a n).1.pending = s.pending := by
    unfold State.dramRead
    exact State.ite_pending rfl (State.ite_pending rfl rfl)
  rw [e] at key
  exact key

theorem State.imageRead_pending {s t : State} {a n : Nat} {r : List Byte × Bool} (e : s.imageRead a n = (t, r)) : t.pending = s.pending := by
  unfold State.imageRead at e
  split at e
  · exact State.dramRead_pending (s := { s with dev := s.dev.free.2 }) e
  · exact State.dramRead_pending e

theorem State.stage_pending {s t : State} {addr : DWord} {len : Word} {img : List Byte} (e : s.stage addr len = (t, img)) :
    t.pending = s.pending := by
  rcases r : s.imageRead addr.toNat (min len.toNat 4194304) with ⟨u, bs, ok⟩
  rw [State.stage, r] at e
  obtain ⟨rfl, -⟩ := Prod.mk.inj e
  exact State.imageRead_pending r

/-! ### Commands that load an image -/

theorem State.loopLoad_pending (s : State) (addr : DWord) (len : Word) : (s.loopLoad addr len).1.pending = s.pending := by
  rcases r : s.imageRead addr.toNat (min len.toNat 65600) with ⟨t, bs, ok⟩
  have ht := State.imageRead_pending r
  rw [State.loopLoad, r]
  refine State.ite_pending rfl (State.ite_pending rfl (State.ite_pending ht ?_))
  split <;> exact ht

theorem State.corrLoad_pending (s : State) (port : Word) (addr : DWord) (len : Word) :
    (s.corrLoad port addr len).1.pending = s.pending := by
  rcases r : s.imageRead addr.toNat (min len.toNat (64 + corrPayLen)) with ⟨t, bs, ok⟩
  have ht := State.imageRead_pending r
  rw [State.corrLoad, r]
  refine State.ite_pending rfl (State.ite_pending rfl (State.ite_pending rfl ?_))
  dsimp only
  split <;> exact ht

theorem State.axsLoad_pending (s : State) (addr : DWord) (len : Word) : (s.axsLoad addr len).1.pending = s.pending := by
  rcases r : s.imageRead addr.toNat (min len.toNat 4416) with ⟨t, bs, ok⟩
  have ht := State.imageRead_pending r
  rw [State.axsLoad, r]
  refine State.ite_pending rfl (State.ite_pending rfl ?_)
  dsimp only
  split
  · exact ht
  · exact State.ite_pending ht ht

theorem State.rigLoad_pending (s : State) (tag : Word) (addr : DWord) (len : Word) : (s.rigLoad tag addr len).1.pending = s.pending := by
  rcases r : s.stage addr len with ⟨t, img⟩
  have ht := State.stage_pending r
  rw [State.rigLoad, r]
  refine State.ite_pending rfl (State.ite_pending rfl (State.ite_pending rfl ?_))
  dsimp only
  split <;> exact ht

theorem State.rigSwap_pending (s : State) (addr : DWord) (len : Word) : (s.rigSwap addr len).1.pending = s.pending := by
  rcases r : s.stage addr len with ⟨t, img⟩
  have ht := State.stage_pending r
  rw [State.rigSwap, r]
  refine State.ite_pending rfl (State.ite_pending rfl ?_)
  dsimp only
  split <;> exact ht

theorem State.rigProgram_pending (s : State) (addr : DWord) (len slot : Word) (good : Bool) :
    (s.rigProgram addr len slot good).1.pending = s.pending := by
  rcases r : s.stage addr len with ⟨t, img⟩
  have ht := State.stage_pending r
  rw [State.rigProgram, r]
  refine State.ite_pending rfl (State.ite_pending rfl ?_)
  dsimp only
  split
  · exact ht
  · exact State.ite_pending ht ht

/-! ### Writes of the host and of reports -/

theorem State.hostPart_pending (src : Nat) (s : State) (x : Nat × List Byte) : (State.hostPart src s x).pending = s.pending := by
  cases hb : s.dev.lockedBuf src x.1 x.2.length with
  | some n => rw [State.hostPart_refused hb]; rfl
  | none => rw [State.hostPart_writes hb rfl]; exact s.dramWrite_pending src _ _

theorem State.hostWrite_pending (s : State) (src a : Nat) (bs : List Byte) : (s.hostWrite src a bs).1.pending = s.pending := by
  unfold State.hostWrite
  refine State.ite_pending rfl (State.ite_pending ?_ (s.dramWrite_pending src a bs))
  exact List.foldlRecOn (motive := fun t : State => t.pending = s.pending) _ _ rfl (fun t ht x _ => (t.hostPart_pending src x).trans ht)

theorem State.dmaTake_pending (s : State) (c : Nat) (desc : List Byte) (host : Option (List Byte)) :
    (s.dmaTake c desc host).pending = s.pending := by
  unfold State.dmaTake
  generalize dmaParse desc = x
  dsimp only
  split
  · rfl
  split
  · exact s.onDev_pending _
  split
  · exact s.onDev_pending _
  split
  · exact s.onDev_pending _
  split
  · rcases r : s.dramRead (0x40 + c) (s.dev.dmaAddr x) x.len with ⟨t, bs, ok⟩
    exact t.onDev_pending_of _ (State.dramRead_pending r)
  cases host with
  | none => exact s.onDev_pending _
  | some bs => exact State.onDev_pending_of _ _ (s.hostWrite_pending _ _ _)

theorem State.writeRecs_pending (src : Nat) (l : List Rec) : ∀ (s : State) (a : Nat), (s.writeRecs src a l).pending = s.pending := by
  induction l with
  | nil => exact fun _ _ => rfl
  | cons r l ih =>
    intro s a
    rw [State.writeRecs]
    exact (ih _ _).trans (s.dramWrite_pending src a _)

theorem State.logFetch_pending (s : State) (start count : Word) (addr : DWord) : (s.logFetch start count addr).1.pending = s.pending := by
  unfold State.logFetch
  exact State.ite_pending rfl (State.writeRecs_pending _ _ s _)

theorem State.writeReport_pending (l : List (Nat × Nat)) : ∀ (s : State) (a : Nat), (s.writeReport a l).pending = s.pending := by
  induction l with
  | nil => exact fun _ _ => rfl
  | cons x l ih =>
    intro s a
    rw [State.writeReport]
    exact (ih _ _).trans (s.dramWrite_pending 0x5A a _)

theorem State.coverCheck_pending (s : State) (n : Nat) (g : Word) (addr : DWord) : (s.coverCheck n g addr).1.pending = s.pending := by
  unfold State.coverCheck
  exact State.ite_pending rfl (State.ite_pending rfl (State.ite_pending rfl (State.writeReport_pending _ s _)))

/-! ### The DRAM controller -/

theorem State.eccRead_pending (s : State) (src a : Nat) (ecc : Ecc) : (s.eccRead src a ecc).pending = s.pending := by
  unfold State.eccRead
  cases ecc with
  | clean => rfl
  | corrected => rfl
  | uncorrectable =>
    dsimp only
    split <;> rfl

theorem State.serve_pending (s : State) (w : DdrWait) (ecc : Ecc) : (s.serve w ecc).pending = s.pending := by
  unfold State.serve
  dsimp only
  split
  · rw [State.onDev_pending]
    split
    · exact State.hostWrite_pending _ _ _ _
    · exact State.dramWrite_pending _ _ _ _
  · split
    · rfl
    split
    · rfl
    · exact State.eccRead_pending _ _ _ ecc

theorem State.serveNext_pending (s : State) (w : DdrWait) (e : DramEnd) : (s.serveNext w e).pending = s.pending := by
  unfold State.serveNext
  dsimp only
  split <;> exact State.serve_pending _ w _

theorem State.dramRequest_pending (s : State) (r : Option DramReq) (e : DramEnd) : (s.dramRequest r e).pending = s.pending := by
  unfold State.dramRequest
  split
  · split <;> rfl
  · split
    · exact s.serveNext_pending _ e
    · rfl

theorem State.scrubStep_pending (s : State) (ecc : Ecc) : (s.scrubStep ecc).pending = s.pending := by
  unfold State.scrubStep
  extract_lets d c o st s1
  split
  · rfl
  split
  · exact s.onDev_pending _
  refine State.onDev_pending_of _ _ (State.onDev_pending_of _ _ ?_)
  unfold s1
  split
  · rfl
  · exact s.onDev_pending _
  · split
    · exact s.onDev_pending _
    · rfl
  · exact s.onDev_pending _

/-! ### Commands that go on running, and resets -/

/-- A command that starts keeps the waiting commands where its body does. -/
theorem State.commandStart_pending (s : State) (l : Lane) (op : Nat) (tag : Word) (words : List Word)
    (body : State → State × Option (Res × DWord)) (h : (body s).1.pending = s.pending) :
    (s.commandStart l op tag words body).pending = s.pending := by
  unfold State.commandStart
  split
  case isFalse => rfl
  split
  · rfl
  rcases hb : body s with ⟨t, _ | ⟨r, v⟩⟩ <;> rw [hb] at h <;> exact h

theorem State.hstReset_pending (s : State) (tag key : Word) : (s.hstReset tag key).pending = s.pending := by
  unfold State.hstReset
  split
  case isFalse => rfl
  split <;> exact s.onDev_pending _

theorem State.fullReset_pending (s : State) (c : ResetCause) : (s.fullReset c).pending = s.pending := by
  unfold State.fullReset
  split <;> rfl

/-! ### The rows -/

theorem exec_bar2Read_pending (off : BitVec 28) (len : Nat) (s : State) :
    ∃ t : State, exec (.bar2Read off len) s = .next t ∧ t.pending = s.pending := by
  rcases r : s.dramRead 0x44 (s.dev.bar2Addr off) len with ⟨t, bs, ok⟩
  exact ⟨_, exec_bar2Read rfl r, t.onDev_pending_of _ (State.dramRead_pending r)⟩

theorem exec_bufSeal_pending (tag n g : Word) (s : State) : ∃ t : State, exec (.bufSeal tag n g) s = .next t ∧ t.pending = s.pending := by
  by_cases hw : s.dev.rig.staged.isSome = true
  · exact ⟨s, if_pos hw, rfl⟩
  · refine ⟨_, if_neg hw, s.commandStart_pending _ _ _ _ _ ?_⟩
    split <;> rfl

/-- Settles O4: each row in the way in which it reaches the state. -/
theorem execAnswersAndKeepsQueue : Obligations.ExecAnswersAndKeepsQueue := by
  intro i s
  cases i with
  -- rows whose writes land at their end
  | pairFailure | pTick | syncTimeout | takeoverStart | tTick | inboundFrame | missingFrame | laserSourceFault | prefetchUnderrun | qrecWrite
  | shedStep | tempConversion | sensorRestore | shutdownReport | blindLimitExpire | dieTempRead | camFrameEnd | compareValueLive | qeSample
  | bedBoundary | controlDieBridgeSilence | sramScrubStep | sliceEnd | telPeriod
  | registerWrite | dmaHeadWrite | loopnYyArm | loopnCapStart | cammTrigFire | hndFtRelease | ptpAccept | ptpSnap | ledApply | ledEnWrite
  | qeePreset | qeeRearm | axsaEnWrite | axsaGo | axsaStop | axsaBndgo | evrCursorWrite | evrNext | evrFreezeWrite =>
    exact ⟨_, rfl, s.runDev_pending _⟩
  -- commands that change the device alone
  | nop | rigCancel | bufOpen | bufDiscard | bedCommit | bedUncommit | bedAbort => exact ⟨_, rfl, s.command_pending _ _ _ _ rfl⟩
  | bedRecoated => exact ⟨_, rfl, s.command_pending _ _ _ _ (State.ite_pending rfl rfl)⟩
  | fence => exact ⟨_, rfl, s.commandStart_pending _ _ _ _ _ (State.ite_pending rfl rfl)⟩
  | bufSeal tag n g => exact exec_bufSeal_pending tag n g s
  -- commands that read an image
  | rigLoad => exact ⟨_, rfl, s.commandStart_pending _ _ _ _ _ (s.rigLoad_pending _ _ _)⟩
  | rigSwap => exact ⟨_, rfl, s.command_pending _ _ _ _ (s.rigSwap_pending _ _)⟩
  | rigProgram => exact ⟨_, rfl, s.command_pending _ _ _ _ (s.rigProgram_pending _ _ _ _)⟩
  | corrLoad => exact ⟨_, rfl, s.command_pending _ _ _ _ (s.corrLoad_pending _ _ _)⟩
  | loopLoad => exact ⟨_, rfl, s.command_pending _ _ _ _ (s.loopLoad_pending _ _)⟩
  | axsLoad => exact ⟨_, rfl, s.command_pending _ _ _ _ (s.axsLoad_pending _ _)⟩
  -- commands and rows that reach DRAM themselves
  | logFetch => exact ⟨_, rfl, s.command_pending _ _ _ _ (s.logFetch_pending _ _ _)⟩
  | coverCheck => exact ⟨_, rfl, s.command_pending _ _ _ _ (s.coverCheck_pending _ _ _)⟩
  | bar2Read off len => exact exec_bar2Read_pending off len s
  | bar2Write => exact ⟨_, rfl, s.hostWrite_pending _ _ _⟩
  | dmaDescriptor => exact ⟨_, rfl, s.dmaTake_pending _ _ _⟩
  | dramRequest => exact ⟨_, rfl, s.dramRequest_pending _ _⟩
  | dramScrubStep => exact ⟨_, rfl, s.scrubStep_pending _⟩
  -- resets
  | hstReset => exact ⟨_, rfl, s.hstReset_pending _ _⟩
  | fullReset => exact ⟨_, rfl, s.fullReset_pending _⟩
  -- the other rows change the device alone
  | _ => exact ⟨_, rfl, s.onDev_pending _⟩

end Sys2Proof.Machine

/-! # The mailbox and its lanes (16_host_startup.md R400 to R405; 12_memory.md R330)

`LaneRow` is what R401 and R404 say of every mailbox command, whatever it does: when it waits, what it completes while HALTED, and what a parameter
out of range completes. A row that is `State.command` or `State.commandStart` of some body has it (`LaneRow.of_command`, `LaneRow.of_start`). -/

namespace Sys2Proof.Machine

open Sys2Proof.Safety

/-! ## Commands in their lanes (R401, R404) -/

/-- A command may not run while the supervisor restarts, or while its lane holds another one. -/
theorem Dev.mayRun_held {d : Dev} {l : Lane} (op : Nat) (tag : Word)
    (h : d.sys.sup = .restarting ∨ (tfind d.hst.running (laneIx l)).isSome ∨ tget [] d.hst.finished (laneIx l) ≠ []) :
    d.mayRun l op tag = false := by
  unfold Dev.mayRun
  rcases h with h | h | h
  · simp [h]
  · simp [Option.isSome_iff_ne_none.mp h]
  · simp [h]

/-- What every mailbox command of this lane, opcode and tag does whatever its body is. -/
structure LaneRow (i : Instr) (l : Lane) (op : Nat) (tag : Word) : Prop where
  waits : ∀ s : State, s.dev.mayRun l op tag = false → exec i s = .next s
  halted : ∀ s : State, s.dev.mayRun l op tag = true → s.dev.sys.sup = .halted → op ≠ 0x01 → op ≠ 0x02 →
    exec i s = .next (s.onDev (fun d => d.finish l op tag Res.state.code 0))
  param : ∀ s : State, s.dev.mayRun l op tag = true → s.dev.sys.sup ≠ .halted → badParam i = true →
    exec i s = .next (s.onDev (fun d => d.finish l op tag Res.param.code 0))

theorem LaneRow.of_command {i : Instr} {l : Lane} {op : Nat} {tag : Word} {body : State → State × Res × DWord}
    (hx : ∀ s : State, exec i s = .next (s.command l op tag body)) (hp : badParam i = true → ∀ s : State, body s = (s, .param, 0)) :
    LaneRow i l op tag where
  waits s h := by rw [hx, s.command_waits l op tag body h]
  halted s h hs h1 h2 := by rw [hx, s.command_halted l op tag body h hs h1 h2]
  param s h hs hb := by rw [hx, s.command_runs l op tag body h hs, hp hb s]

/-! ### Commands that go on running -/

section
variable {s : State} {l : Lane} {op : Nat} {tag : Word} (words : List Word) {body : State → State × Option (Res × DWord)}

theorem State.commandStart_waits (h : s.dev.mayRun l op tag = false) : s.commandStart l op tag words body = s := by
  simp [State.commandStart, h]

theorem State.commandStart_halted (h : s.dev.mayRun l op tag = true) (hs : s.dev.sys.sup = .halted) :
    s.commandStart l op tag words body = s.onDev (fun d => d.finish l op tag Res.state.code 0) := by
  simp [State.commandStart, h, hs]

/-- A body that answers at once finishes the command. -/
theorem State.commandStart_answers (h : s.dev.mayRun l op tag = true) (hs : s.dev.sys.sup ≠ .halted) {t : State} {r : Res} {v : DWord}
    (hb : body s = (t, some (r, v))) : s.commandStart l op tag words body = t.onDev (fun d => d.finish l op tag r.code v) := by
  simp [State.commandStart, h, hs, hb]

/-- A body that gives no answer yet leaves the command running in its lane. -/
theorem State.commandStart_goes_on (h : s.dev.mayRun l op tag = true) (hs : s.dev.sys.sup ≠ .halted) {t : State}
    (hb : body s = (t, none)) : s.commandStart l op tag words body = t.onDev (fun d => { d with hst := { d.hst with
      queue := d.hst.queue.eraseIdx (d.hst.queue.findIdx (fun c => c.op == op && c.tag == tag))
      running := tput d.hst.running (laneIx l) ⟨0, op, tag, words, none⟩ } }) := by
  simp [State.commandStart, h, hs, hb]

end

theorem LaneRow.of_start {i : Instr} {l : Lane} {op : Nat} {tag : Word} {words : List Word} {body : State → State × Option (Res × DWord)}
    (hx : ∀ s : State, exec i s = .next (s.commandStart l op tag words body))
    (hp : badParam i = true → ∀ s : State, body s = (s, some (.param, 0))) : LaneRow i l op tag where
  waits s h := by rw [hx, State.commandStart_waits words h]
  halted s h hs _ _ := by rw [hx, State.commandStart_halted words h hs]
  param s h hs hb := by rw [hx, State.commandStart_answers words h hs (hp hb s)]

/-- HST_RESET has no parameter that `badParam` judges, and may run while HALTED. -/
theorem LaneRow.hstReset (tag key : Word) : LaneRow (.hstReset tag key) .ctrl 0x02 tag where
  waits s h := by simp [exec, execHstReset, State.hstReset, h]
  halted _ _ _ _ h2 := absurd rfl h2
  param _ _ _ hb := Bool.noConfusion hb

/-- Every mailbox command is one of its lane. -/
theorem laneRow_of_mailboxRow {i : Instr} {l : Lane} {op : Nat} {tag : Word} (h : mailboxRow i = some (l, op, tag)) : LaneRow i l op tag := by
  cases i <;> simp only [mailboxRow, reduceCtorEq, Option.some.injEq, Prod.mk.injEq] at h <;> obtain ⟨rfl, rfl, rfl⟩ := h
  case hstReset key => exact .hstReset _ key
  -- commands that take no parameter of which a value is out of range
  case nop | rigCancel | bedUncommit | bedAbort | bedRecoated => exact .of_command (fun _ => rfl) (fun hb => Bool.noConfusion hb)
  case fence => exact .of_start (fun _ => rfl) (fun hb => Bool.noConfusion hb)
  -- commands that name a buffer
  case bufOpen | bufDiscard | bedCommit =>
    refine .of_command (fun _ => rfl) (fun hb s => ?_)
    simp only [badParam, decide_eq_true_eq] at hb
    simp [Dev.bufOpen, Dev.bufDiscard, Dev.bedCommit, hb]
  case coverCheck =>
    exact .of_command (fun _ => rfl) (fun hb s => if_pos hb)
  -- commands that read or write at an address
  case rigLoad => exact .of_start (fun _ => rfl) (fun hb s => if_pos hb)
  case rigSwap | rigProgram | corrLoad | loopLoad | axsLoad => exact .of_command (fun _ => rfl) (fun hb s => if_pos hb)
  case logFetch =>
    refine .of_command (fun _ => rfl) (fun hb s => if_pos ?_)
    simp only [badParam] at hb
    simp [hb]

/-- Settles O6: `LaneRow` of the command, with `Dev.mayRun_held` for the ways in which its lane may hold it. -/
theorem lanesHoldCommands : Obligations.LanesHoldCommands := by
  intro i l op tag s h
  have row := laneRow_of_mailboxRow h
  exact ⟨fun held => row.waits s (Dev.mayRun_held op tag held), row.halted s, row.param s⟩

/-! ## The words of the mailbox (R400) -/

/-- The host interface once word 15 is written. -/
def Hst.submit (h : Hst) (v : Word) : Hst := { h with mbx := tput h.mbx 15 v, free := false }

theorem Hst.submit_word_last (h : Hst) (v : Word) : (h.submit v).word 15 = v := tget_tput_self 0 h.mbx 15 v

theorem Hst.submit_word {h : Hst} {j : Nat} (v : Word) (hj : j ≠ 15) : (h.submit v).word j = h.word j :=
  tget_tput_ne 0 h.mbx 15 j v hj.symm

theorem Hst.submit_words (h : Hst) (v : Word) : (upTo 16).map (h.submit v).word = (upTo 15).map h.word ++ [v] := by
  rw [show upTo 16 = upTo 15 ++ [15] from rfl, List.map_append, List.map_cons, List.map_nil, h.submit_word_last]
  refine congrArg (· ++ [v]) (List.map_congr_left fun j hj => h.submit_word v ?_)
  have := List.mem_range.mp hj
  omega

/-- The event of a submission enters the recorder before anything moves. -/
def Dev.submitRecorded (d : Dev) (v : Word) : Dev :=
  ({ d with hst := d.hst.submit v }).raise 0x0111 0x01 0
    ((d.hst.word 0).toNat % 256 + 65536 * b2n (d.hst.known 0 (d.hst.word 1)).isSome) (d.hst.word 1).toNat (d.hst.word 2).toNat

section
variable {d : Dev} (v : Word)

@[simp] theorem Dev.submitRecorded_hst : (d.submitRecorded v).hst = d.hst.submit v := Dev.raise_hst ..

theorem Dev.submitRecorded_eq : d.submitRecorded v =
    { d with regs := (d.submitRecorded v).regs, evr := (d.submitRecorded v).evr, hst := d.hst.submit v } := Dev.raise_eq ..

theorem Dev.submitRecorded_keeps : regsKeep recFlds d (d.submitRecorded v) :=
  fun G hG => Dev.get_raise { d with hst := d.hst.submit v } _ _ _ _ _ _ G hG

theorem Dev.submitRecorded_evr (h : d.hst.known 0 (d.hst.word 1) = none) : (d.submitRecorded v).evr =
    (d.raise 0x0111 0x01 0 ((d.hst.word 0).toNat % 256) (d.hst.word 1).toNat (d.hst.word 2).toNat).evr := by
  unfold Dev.submitRecorded
  rw [h]
  exact Dev.raise_evr_congr _ _ _ _ _ _ _ _ rfl rfl rfl

theorem exec_mailboxSubmit {s : State} (h : s.dev.hst.free = true) :
    exec (.mailboxSubmit v) s = .next { s with dev := (s.dev.submitRecorded v).mbxMove } := by
  have e : s.dev.mbxSubmit v = (s.dev.submitRecorded v).mbxMove := by
    have hk : ∀ tag : Word, ({ s.dev.hst with mbx := tput s.dev.hst.mbx 15 v, free := false } : Hst).known 0 tag = s.dev.hst.known 0 tag :=
      fun _ => rfl
    unfold Dev.mbxSubmit Dev.submitRecorded
    rw [if_pos h]
    dsimp only
    rw [hk]
    have hw : ∀ j, j ≠ 15 → ({ s.dev.hst with mbx := tput s.dev.hst.mbx 15 v, free := false } : Hst).word j = s.dev.hst.word j :=
      fun j hj => s.dev.hst.submit_word v hj
    rw [hw 0 (by decide), hw 1 (by decide), hw 2 (by decide)]
    rfl
  exact congrArg (fun x => Host.Outcome.next { s with dev := x }) e

theorem exec_mailboxSubmit_closed {s : State} (h : s.dev.hst.free = false) :
    exec (.mailboxSubmit v) s = .next (s.onDev (fun d => d.raise 0x0E04 0x01 2 15 v.toNat 0)) := by
  simp [exec, execMailboxSubmit, Dev.mbxSubmit, h, State.onDev]

theorem exec_mailboxWordWrite_free {w : Fin 15} {s : State} (h : s.dev.hst.free = true) :
    exec (.mailboxWordWrite w v) s = .next (s.onDev (fun d => { d with hst := { d.hst with mbx := tput d.hst.mbx w.val v } })) := by
  simp [exec, execMailboxWordWrite, Dev.mbxWrite, h, State.onDev]

theorem exec_mailboxWordWrite_closed {w : Fin 15} {s : State} (h : s.dev.hst.free = false) :
    exec (.mailboxWordWrite w v) s = .next (s.onDev (fun d => d.raise 0x0E04 0x01 2 w.val v.toNat 0)) := by
  simp [exec, execMailboxWordWrite, Dev.mbxWrite, h, State.onDev]

/-! ## Submissions (R400, R402) -/

theorem Hst.submit_written (h : Hst) : (tfind (h.submit v).mbx 15).isSome = true := by
  simp [Hst.submit]

/-- A submission with room in the queue joins it, and the mailbox is empty and free again. -/
theorem exec_mailboxSubmit_queues {s : State} (hf : s.dev.hst.free = true) (hr : s.dev.hst.resetWait = none)
    (hk : s.dev.hst.known 0 (s.dev.hst.word 1) = none) (hq : s.dev.hst.queued < 16) :
    ∃ t : State, exec (.mailboxSubmit v) s = .next t ∧ t = { s with dev := { s.dev.submitRecorded v with hst := { s.dev.hst with
      mbx := [], free := true
      queue := s.dev.hst.queue ++ [⟨0, (s.dev.hst.word 0).toNat % 256, s.dev.hst.word 1, (upTo 15).map s.dev.hst.word ++ [v],
        mbxVerdict ((upTo 15).map s.dev.hst.word ++ [v])⟩]
      remembered := rememberPut s.dev.hst.remembered ⟨0, s.dev.hst.word 1, none⟩ } } } := by
  have w0 : (s.dev.hst.submit v).word 0 = s.dev.hst.word 0 := Hst.submit_word v (by decide)
  have w1 : (s.dev.hst.submit v).word 1 = s.dev.hst.word 1 := Hst.submit_word v (by decide)
  have move := (s.dev.submitRecorded v).mbxMove_queues
  rw [Dev.submitRecorded_hst, w0, w1, Hst.submit_words] at move
  refine ⟨_, exec_mailboxSubmit v hf, ?_⟩
  rw [move (s.dev.hst.submit_written v) rfl hr hq hk]
  rfl

/-- A submission without room in the queue stays in the mailbox. -/
theorem exec_mailboxSubmit_full {s : State} (hf : s.dev.hst.free = true) (hq : s.dev.hst.queued = 16) :
    exec (.mailboxSubmit v) s = .next { s with dev := s.dev.submitRecorded v } := by
  have full : 16 ≤ (s.dev.submitRecorded v).hst.queued := by
    rw [Dev.submitRecorded_hst]
    exact Nat.le_of_eq hq.symm
  rw [exec_mailboxSubmit v hf, Dev.mbxMove_waits _ (Or.inr (Or.inr full))]

/-- A submission whose tag is remembered with a result completes with it, as a duplicate. -/
theorem Dev.mbxMove_dup {r : Remembered} {res : Nat} {val : DWord} (h15 : (tfind d.hst.mbx 15).isSome = true) (hf : d.hst.free = false)
    (hr : d.hst.resetWait = none) (hq : d.hst.queued < 16) (hk : d.hst.known 0 (d.hst.word 1) = some r) (hd : r.done = some (res, val)) :
    ∃ c : Cmd, c.op = (d.hst.word 0).toNat % 256 ∧ c.tag = d.hst.word 1 ∧
      d.mbxMove = ({ d with hst := { d.hst with mbx := [], free := true } }).finishDup c res val := by
  refine ⟨⟨0, (d.hst.word 0).toNat % 256, d.hst.word 1, (upTo 16).map d.hst.word, mbxVerdict ((upTo 16).map d.hst.word)⟩, rfl, rfl, ?_⟩
  have e0 : ((upTo 16).map d.hst.word).getD 0 0 = d.hst.word 0 := rfl
  have e1 : ((upTo 16).map d.hst.word).getD 1 0 = d.hst.word 1 := rfl
  simp only [Dev.mbxMove, e0, e1, h15, hf, hr, hq, hk, hd]
  rfl

theorem exec_mailboxSubmit_dup {s : State} {r : Remembered} {res : Nat} {val : DWord} (hf : s.dev.hst.free = true)
    (hr : s.dev.hst.resetWait = none) (hq : s.dev.hst.queued < 16) (hk : s.dev.hst.known 0 (s.dev.hst.word 1) = some r)
    (hd : r.done = some (res, val)) : ∃ t : State, exec (.mailboxSubmit v) s = .next t ∧
      t.dev.hst = ({ s.dev.hst with mbx := [], free := true } : Hst).addFinished (opLane ((s.dev.hst.word 0).toNat % 256))
        ⟨s.dev.hst.word 1, (s.dev.hst.word 0).toNat % 256, res, true, val⟩ := by
  have w0 : (s.dev.hst.submit v).word 0 = s.dev.hst.word 0 := Hst.submit_word v (by decide)
  have w1 : (s.dev.hst.submit v).word 1 = s.dev.hst.word 1 := Hst.submit_word v (by decide)
  have move := Dev.mbxMove_dup (d := s.dev.submitRecorded v) (r := r) (res := res) (val := val)
  rw [Dev.submitRecorded_hst, w0, w1] at move
  obtain ⟨c, hop, htag, e⟩ := move (s.dev.hst.submit_written v) rfl hr hq hk hd
  refine ⟨_, exec_mailboxSubmit v hf, ?_⟩
  rw [e, (Dev.finishDup_frame _ c res val).1, hop, htag]
  rfl

end

/-- Settles O5: each clause by the rule of its case. -/
theorem mailboxWordsSubmissionsDuplicates : Obligations.MailboxWordsSubmissionsDuplicates := by
  refine ⟨fun w v s => ⟨fun hf => ?_, fun hf => ?_⟩, fun v s => ⟨fun hf hr hk hq => ?_, fun hf hk hq => ?_, fun hf => ?_⟩,
    fun v s r res val hf hr hq hk hd => ?_⟩
  -- a word below 15
  · exact ⟨_, exec_mailboxWordWrite_free v hf, tget_tput_self .., fun j hj => tget_tput_ne _ _ _ _ _ hj.symm, rfl⟩
  · exact ⟨_, exec_mailboxWordWrite_closed v hf, s.onDev_raise_onlyRegsRec .., rfl⟩
  -- word 15
  · obtain ⟨t, ht, rfl⟩ := exec_mailboxSubmit_queues v hf hr hk hq
    refine ⟨_, ht, rfl, fun _ => rfl, Dev.submitRecorded_evr v hk, ?_, Dev.submitRecorded_keeps v⟩
    exact congrArg (fun d : Dev => ({ s with dev := { d with hst := _ } } : State)) (Dev.submitRecorded_eq v)
  · refine ⟨_, exec_mailboxSubmit_full v hf hq, ?_⟩
    simp only [Dev.submitRecorded_hst]
    exact ⟨rfl, rfl, Hst.submit_word_last .., fun j hj => Hst.submit_word v hj, Dev.submitRecorded_evr v hk⟩
  · exact ⟨_, exec_mailboxSubmit_closed v hf, s.onDev_raise_onlyRegsRec .., rfl⟩
  -- a duplicate
  · obtain ⟨t, ht, e⟩ := exec_mailboxSubmit_dup v hf hr hq hk hd
    refine ⟨t, ht, ?_⟩
    rw [e]
    exact ⟨rfl, rfl, rfl, tget_tput_self ..⟩

/-! ## Finished commands (R402, R403) -/

section
variable {d : Dev} {l : Lane} {op : Nat} {tag : Word} (res : Nat) (val : DWord)

/-- The host interface after a command has finished for which no duplicate waits. -/
theorem Dev.finish_hst (h : d.hst.dupWait.filter (fun c => c.tag == tag) = []) : (d.finish l op tag res val).hst =
    ({ d.hst with
      queue := d.hst.queue.eraseIdx (d.hst.queue.findIdx (fun c => c.op == op && c.tag == tag))
      running := if (tfind d.hst.running (laneIx l)).isSome then tdel d.hst.running (laneIx l) else d.hst.running
      remembered := d.hst.remembered.map (fun r => if r.src == 0 && r.tag == tag then { r with done := some (res, val) } else r)
      dupWait := d.hst.dupWait.filter (fun c => c.tag != tag) } : Hst).addFinished l ⟨tag, op, res, false, val⟩ := by
  unfold Dev.finish
  simp only [h, List.foldl_nil]

/-- The lane of a finished command runs nothing. -/
theorem Dev.finish_lane_free (h : d.hst.dupWait.filter (fun c => c.tag == tag) = []) :
    tfind (d.finish l op tag res val).hst.running (laneIx l) = none := by
  rw [Dev.finish_hst res val h]
  change tfind (if (tfind d.hst.running (laneIx l)).isSome then tdel d.hst.running (laneIx l) else d.hst.running) (laneIx l) = none
  split
  · exact tfind_tdel_self ..
  case isFalse hn => exact Option.not_isSome_iff_eq_none.mp hn

/-- The result of a finished command is remembered under its tag. -/
theorem Dev.finish_remembers (h : d.hst.dupWait.filter (fun c => c.tag == tag) = []) {r : Remembered}
    (hr : r ∈ (d.finish l op tag res val).hst.remembered) (hs : r.src = 0) (ht : r.tag = tag) : r.done = some (res, val) := by
  rw [Dev.finish_hst res val h] at hr
  obtain ⟨x, -, rfl⟩ := List.mem_map.mp hr
  by_cases hx : (x.src == 0 && x.tag == tag) = true
  · rw [if_pos hx]
  · rw [if_neg hx] at hs ht
    exact absurd (by simp [hs, ht]) hx

/-- A finished command that stood first of the queue leaves it. -/
theorem Dev.finish_leaves_queue (h : d.hst.dupWait.filter (fun c => c.tag == tag) = []) {c : Cmd} {q : List Cmd}
    (hq : d.hst.queue = c :: q) (ho : c.op = op) (ht : c.tag = tag) : (d.finish l op tag res val).hst.queue = q := by
  rw [Dev.finish_hst res val h]
  change d.hst.queue.eraseIdx (d.hst.queue.findIdx (fun c => c.op == op && c.tag == tag)) = q
  simp [hq, List.findIdx_cons, ho, ht]

end

/-! ## Completions (R403) -/

/-- What a completion that is placed changes of the rigging: a RIG_PROGRAM of its own writes its slot no more. -/
theorem Dev.progDone_eq (d : Dev) (c : Completion) :
    d.progDone c = { d with rig := { d.rig with prog := if c.op = 0x13 ∧ c.dup = false then none else d.rig.prog } } := by
  unfold Dev.progDone
  by_cases h : c.op = 0x13 ∧ c.dup = false
  · simp [h]
  · rw [if_neg h, if_neg]
    simpa using h

section
variable {s : State} {l : Lane} {c : Completion} {rest : List Completion} (h : tget [] s.dev.hst.finished (laneIx l) = c :: rest)
include h

/-- A finished command of a lane places its completion, and nothing moves from an empty mailbox. -/
theorem exec_commandComplete_places (hm : tfind s.dev.hst.mbx 15 = none) (hc : s.dev.hst.cpl.length < 32) :
    exec (.commandComplete l) s = .next (s.onDev (fun d => ({ d with hst := { d.hst with
      cpl := d.hst.cpl ++ [c]
      finished := if rest.isEmpty then tdel d.hst.finished (laneIx l) else tput d.hst.finished (laneIx l) rest } }).progDone c)) := by
  have still : ∀ d : Dev, tfind d.hst.mbx 15 = none → (d.progDone c).mbxMove = d.progDone c := by
    intro d hd
    rw [Dev.progDone_eq]
    exact Dev.mbxMove_waits _ (Or.inl (congrArg Option.isSome hd))
  simp only [exec, execCommandComplete, State.onDev, Dev.commandComplete, h, List.isEmpty_cons, Bool.false_eq_true, if_false, hc, if_true]
  refine congrArg (fun d => Host.Outcome.next { s with dev := d }) (still _ ?_)
  exact hm

/-- With 32 completions waiting, the next waits in its lane. -/
theorem exec_commandComplete_waits (hc : 32 ≤ s.dev.hst.cpl.length) : exec (.commandComplete l) s = .next s := by
  simp only [exec, execCommandComplete, State.onDev, Dev.commandComplete, h, List.isEmpty_cons, Bool.false_eq_true, if_false,
    Nat.not_lt.mpr hc]

end

theorem exec_hstCplPop_pops {v : Word} {s : State} (h : v.toNat % 2 = 1) : exec (.hstCplPop v) s =
    .next { s with dev := { s.dev with hst := { s.dev.hst with cpl := s.dev.hst.cpl.drop 1 } } } := by
  simp [exec, execHstCplPop, Dev.cplPop, h, State.onDev]

theorem exec_hstCplPop_nothing {v : Word} {s : State} (h : v.toNat % 2 = 0) : exec (.hstCplPop v) s = .next s := by
  simp [exec, execHstCplPop, Dev.cplPop, h, State.onDev]

/-! ## NOP and FENCE (R330, R405) -/

theorem exec_nop {tag : Word} {s : State} (h : s.dev.mayRun .ctrl 0x01 tag = true) :
    exec (.nop tag) s = .next (s.onDev (fun d => d.finish .ctrl 0x01 tag Res.ok.code (BitVec.ofNat 64 d.hstStat))) := by
  simp [exec, execNop, State.command, h, State.onDev]

section
variable {tag mask : Word} {s : State} (h : s.dev.mayRun .ctrl 0x03 tag = true) (hs : s.dev.sys.sup ≠ .halted)
include h hs

theorem exec_fence_param (hm : 32 ≤ mask.toNat) :
    exec (.fence tag mask) s = .next (s.onDev (fun d => d.finish .ctrl 0x03 tag Res.param.code 0)) :=
  congrArg Host.Outcome.next (State.commandStart_answers _ h hs (if_pos hm))

/-- A FENCE that starts covers what waits, and what was dropped before it, and stands running in its lane. -/
theorem exec_fence_starts (hm : mask.toNat < 32) : exec (.fence tag mask) s = .next ((s.onDev (fun d => d.fenceStart tag mask.toNat)).onDev
    (fun d => { d with hst := { d.hst with
      queue := d.hst.queue.eraseIdx (d.hst.queue.findIdx (fun c => c.op == 0x03 && c.tag == tag))
      running := tput d.hst.running (laneIx .ctrl) ⟨0, 0x03, tag, [0x03#32, tag, mask], none⟩ } })) :=
  congrArg Host.Outcome.next (State.commandStart_goes_on _ h hs (if_neg (Nat.not_le.mpr hm)))

end

section
variable {s : State} {f : FenceRun} (h : s.dev.ddr.fence = some f)
include h

theorem exec_fenceDrained_waits (hw : s.dev.ddr.waiting.any (fun w => f.ids.contains w.id) = true) : exec .fenceDrained s = .next s := by
  simp only [exec, execFenceDrained, State.onDev, Dev.fenceDrained, h, hw, if_true]

theorem exec_fenceDrained_ends (hw : s.dev.ddr.waiting.any (fun w => f.ids.contains w.id) = false) : exec .fenceDrained s =
    .next (s.onDev (fun d => ({ d with ddr := { d.ddr with fence := none } }).finish .ctrl 0x03 f.tag
      (if f.dropped then Res.dropped.code else Res.ok.code) 0)) := by
  simp only [exec, execFenceDrained, State.onDev, Dev.fenceDrained, h, hw, Bool.false_eq_true, if_false, apply_ite Res.code]

end

/-- Settles O7: completions, finished commands, NOP and FENCE by the rules of their cases. -/
theorem completionsAndFinishedCommands : Obligations.CompletionsAndFinishedCommands := by
  refine ⟨⟨fun l s c rest h hm => ⟨fun hc => ?_, exec_commandComplete_waits h⟩, fun v s => ⟨exec_hstCplPop_pops, exec_hstCplPop_nothing⟩⟩,
    fun d l op tag res val h => ?_, fun tag s h => exec_nop h, fun tag mask s h hs => ⟨exec_fence_param h hs, fun hm => ?_⟩,
    fun s f h => ⟨exec_fenceDrained_waits h, exec_fenceDrained_ends h⟩⟩
  · have places := exec_commandComplete_places h hm hc
    rw [State.onDev, Dev.progDone_eq] at places
    refine ⟨_, places, rfl, ?_, rfl, rfl⟩
    cases rest with
    | nil => exact tget_tdel_self ..
    | cons x rest => exact tget_tput_self ..
  · refine ⟨?_, Dev.finish_lane_free res val h, fun r hr hs ht => Dev.finish_remembers res val h hr hs ht,
      fun c q hq ho ht => Dev.finish_leaves_queue res val h hq ho ht, d.finish_noDup l op tag res val h⟩
    rw [Dev.finish_hst res val h]
    exact tget_tput_self ..
  · refine ⟨_, exec_fence_starts h hs hm, rfl, rfl, ?_, rfl⟩
    exact congrArg Option.isSome (tfind_tput_self s.dev.hst.running (laneIx .ctrl) _)

end Sys2Proof.Machine

/-! # DMA channels (16_host_startup.md R396, R397; 03_bed_data.md R91)

How many bytes of a transfer land is counted over the parts that the ends of buffers and channels cut it into; where no buffer refuses it and no
channel is missing, every part counts (`Dev.landed_all`). -/

namespace Sys2Proof.Machine

open Sys2Proof.Safety

/-! ## Every part of a write that meets no obstacle lands (R86, R321, R334) -/

/-- An address of a range of which nothing is in a LOST channel is in none. -/
theorem Dev.not_gone_of_goneAt {d : Dev} {a n x : Nat} (h : d.goneAt a n = none) (h1 : a ≤ x) (h2 : x < a + n) : d.gone x = false := by
  -- the channels change only at M and at C − D, so the last of the three places that `goneAt` probes at or before x decides
  obtain ⟨z, hz, hlo, hzx, hM, hC⟩ : ∃ z ∈ [a, d.mirrorBytes, d.chanBytes], a ≤ z ∧ z ≤ x ∧ (z < d.mirrorBytes ↔ x < d.mirrorBytes) ∧
      (z < d.chanBytes ↔ x < d.chanBytes) := by
    by_cases hM : a ≤ d.mirrorBytes ∧ d.mirrorBytes ≤ x ∧ (d.chanBytes ≤ x → d.chanBytes ≤ d.mirrorBytes)
    · exact ⟨d.mirrorBytes, by simp, by omega⟩
    · by_cases hC : a ≤ d.chanBytes ∧ d.chanBytes ≤ x
      · exact ⟨d.chanBytes, by simp, by omega⟩
      · exact ⟨a, by simp, by omega⟩
  have probe : d.gone z = false := by
    have := List.find?_eq_none.mp h z hz
    simpa [hlo, show z < a + max 1 n by omega] using this
  rw [← probe]
  simp only [Dev.gone, Dev.homes, hM, hC]

/-- Cutting a write changes no byte count. -/
theorem cutAt_length (c : Nat) (x : Nat × List Byte) : ((cutAt c x).map (fun y => y.2.length)).sum = x.2.length := by
  by_cases hc : splits c x
  · rw [cutAt_of_splits hc]
    have := hc.2
    simp only [List.map_cons, List.map_nil, List.sum_cons, List.sum_nil, List.length_take, List.length_drop]
    omega
  · rw [cutAt_of_not_splits hc]
    simp

theorem cutAll_length (cs : List Nat) (x : Nat × List Byte) : ((cutAll cs x).map (fun y => y.2.length)).sum = x.2.length := by
  have flat : ∀ (c : Nat) (l : List (Nat × List Byte)),
      ((l.flatMap (cutAt c)).map (fun y => y.2.length)).sum = (l.map (fun y => y.2.length)).sum := by
    intro c l
    induction l with
    | nil => rfl
    | cons y l ih => rw [List.flatMap_cons, List.map_append, List.sum_append, cutAt_length, ih, List.map_cons, List.sum_cons]
  refine List.foldlRecOn (motive := fun l : List (Nat × List Byte) => (l.map (fun y => y.2.length)).sum = x.2.length) cs _ (by simp) (fun l hl c _ => ?_)
  rw [flat, hl]

/-- Where no buffer refuses a write and no channel of it is LOST, all of it lands. -/
theorem Dev.landed_all {d : Dev} {src a : Nat} {bs : List Byte} (hl : d.lockedBuf src a bs.length = none)
    (hg : d.goneAt a bs.length = none) : d.landed src a bs = bs.length := by
  have lands : ∀ y ∈ cutAll (d.bufEdges ++ d.rangeEdges) (a, bs), ∀ n : Nat,
      (if (d.lockedBuf src y.1 y.2.length).isSome || d.gone y.1 then n else n + y.2.length) = n + y.2.length := by
    intro y hy n
    obtain ⟨hlo, hhi⟩ := cutAll_within hy
    have free : d.lockedBuf src y.1 y.2.length = none :=
      Dev.lockedBuf_eq_none.mpr (fun k hk hr => Dev.lockedBuf_eq_none.mp hl k hk (hr.mono hlo hhi))
    by_cases he : y.2.length = 0
    · simp [he]
    · have here : d.gone y.1 = false := Dev.not_gone_of_goneAt hg hlo (by dsimp only at hhi; omega)
      simp [free, here]
  have count : ∀ (l : List (Nat × List Byte)), (∀ y ∈ l, ∀ n : Nat,
      (if (d.lockedBuf src y.1 y.2.length).isSome || d.gone y.1 then n else n + y.2.length) = n + y.2.length) → ∀ n : Nat,
      l.foldl (fun n x => if (d.lockedBuf src x.1 x.2.length).isSome || d.gone x.1 then n else n + x.2.length) n =
        n + (l.map (fun y => y.2.length)).sum := by
    intro l
    induction l with
    | nil => exact fun _ _ => rfl
    | cons y l ih =>
      intro hl n
      rw [List.foldl_cons, hl y (List.mem_cons_self ..), ih (fun z hz => hl z (List.mem_cons_of_mem _ hz)), List.map_cons, List.sum_cons]
      omega
  unfold Dev.landed
  rw [count _ lands, cutAll_length, Nat.zero_add]

/-! ## DMA_DESCRIPTOR (R396, R397) -/

section
variable {d : Dev} {c : Nat} (x : DmaDesc) (st n : Nat)

theorem Dev.dmaJob_taken : tfind (d.dmaJob c x st n).hst.dma c =
    some ⟨BitVec.ofNat 64 x.host, d.get (F.HST_DMAc_TAIL_INDEX c), x.flags % 2 == 1, st, n⟩ := tfind_tput_self ..

theorem Dev.dmaJob_runs : (d.dmaJob c x st n).get (F.HST_DMAc_STAT_RUN c) = 1 := by
  have apart : (F.HST_DMAc_BYTES_COUNT c).key ≠ (F.HST_DMAc_STAT_RUN c).key := by
    change (_ + _) * 32 + 0 ≠ (_ + _) * 32 + 0
    omega
  unfold Dev.dmaJob
  rw [Dev.bumpWrap_eq, Dev.get_put_ne _ _ _ _ apart, Dev.setFlag_eq, Dev.get_put_self]
  rfl

end

section
variable {c : Dma} {desc : List Byte} {x : DmaDesc} {s : State} (hx : dmaParse desc = x) (ht : s.dev.dmaTakes c.val = true)
include hx ht

/-- A descriptor that breaks a format rule moves nothing. -/
theorem exec_dmaDescriptor_format (host : Option (List Byte)) (hw : x.wellFormed = false) :
    exec (.dmaDescriptor c desc host) s = .next (s.onDev (fun d => d.dmaJob c.val x 0x07 0)) := by
  simp [exec, execDmaDescriptor, State.dmaTake, hx, ht, hw]

/-- A good descriptor from host memory to a device address moves all its bytes. -/
theorem exec_dmaDescriptor_toDevice {bytes : List Byte} (hw : x.wellFormed = true) (hk : x.kind = 0) (hn : bytes.length = x.len)
    (hb : s.dev.beyond x.dev x.len = false) (hl : s.dev.lockedBuf (0x40 + c.val) x.dev x.len = none)
    (hg : s.dev.goneAt x.dev x.len = none) : exec (.dmaDescriptor c desc (some bytes)) s =
      .next { s with mem := s.mem.writeBytes x.dev bytes, dev := (s.dev.touchAll x.dev).dmaJob c.val x 0x01 x.len } := by
  have all : bytes.take x.len = bytes := List.take_of_length_le (Nat.le_of_eq hn)
  have stale : s.dev.dmaStale x = false := by simp [Dev.dmaStale, hk]
  have range : s.dev.dmaRange x = false := by simp [Dev.dmaRange, hk, hb]
  have addr : s.dev.dmaAddr x = x.dev := by simp [Dev.dmaAddr, hk]
  have lands := State.hostWrite_lands (hn ▸ hb) (hn ▸ hl) (hn ▸ hg)
  have count := (Dev.landed_all (hn ▸ hl) (hn ▸ hg)).trans hn
  simp [exec, execDmaDescriptor, State.dmaTake, hx, ht, hw, hk, stale, range, addr, all, lands, count, hn, State.onDev]

end

/-! ## DMA_DESCRIPTOR_DONE (R397, R91) -/

/-- Where the registers of a DMA channel stand. -/
theorem dmaKeys (c : Dma) : (F.HST_DMAc_TAIL_INDEX c.val).key ≠ (F.HST_DMAc_STAT_RUN c.val).key ∧
    (F.HST_DMAc_TAIL_INDEX c.val).key ≠ (F.HST_DMAc_STAT_ERR c.val).key ∧
    (F.HST_DMAc_STAT_RUN c.val).key ≠ (F.HST_DMAc_STAT_ERR c.val).key ∧
    ∀ G ∈ [F.HST_DMAc_TAIL_INDEX c.val, F.HST_DMAc_STAT_RUN c.val, F.HST_DMAc_STAT_ERR c.val], G.key ∉ recFlds.map Fld.key := by
  revert c
  decide

section
variable {c : Dma} {s : State} {j : DmaJob}

/-- The device while a finished descriptor is written back: what its channel shows, the error if there was one, and the attention asked for. -/
def Dev.dmaShown (d : Dev) (c : Nat) (j : DmaJob) : Dev :=
  (({ d with hst := { d.hst with dma := tdel d.hst.dma c, dmaStatus := tput d.hst.dmaStatus c (j.index, j.status) } }).put
    (F.HST_DMAc_TAIL_INDEX c) ((j.index + 1) % max 1 (d.get (F.HST_DMAc_RING_SIZE_SIZE c)))).setFlag (F.HST_DMAc_STAT_RUN c) false

/-- The error of a descriptor whose status is not OK. -/
def Dev.dmaErr (d : Dev) (c : Nat) (j : DmaJob) : Dev :=
  if j.status == 1 then d else (d.setFlag (F.HST_DMAc_STAT_ERR c) true).raise 0x0E20 0x01 2 c j.index j.status

/-- The attention that a descriptor asks for. -/
def Dev.dmaNotify (d : Dev) (j : DmaJob) : Dev := if j.notify then d.attn .dma else d

theorem exec_dmaDescriptorDone (h : tfind s.dev.hst.dma c.val = some j) : exec (.dmaDescriptorDone c) s =
    .next { s with dev := (((s.dev.dmaShown c.val j).dmaErr c.val j).dmaNotify j).sealLess c.val } := by
  simp only [exec, execDmaDescriptorDone, State.onDev, Dev.dmaDone, h]
  rfl

end

/-- An attention cause just latched is shown. -/
theorem Dev.attn_bit (d : Dev) (a : Attn) : bitAt ((d.attn a).get F.HST_ATTN_CAUSE) a.bit = true := by
  have place : a.bit < F.HST_ATTN_CAUSE.width := by cases a <;> decide
  rw [Dev.attn_eq, Dev.get_put_self]
  exact bitAt_bitPut_mod place

section
variable (d : Dev) {c : Dma} {j : DmaJob}

theorem Dev.dmaShown_tail (hj : j.index < d.get (F.HST_DMAc_RING_SIZE_SIZE c.val)) (hr : d.get (F.HST_DMAc_RING_SIZE_SIZE c.val) ≤ 4096) :
    (d.dmaShown c.val j).get (F.HST_DMAc_TAIL_INDEX c.val) = (j.index + 1) % d.get (F.HST_DMAc_RING_SIZE_SIZE c.val) := by
  obtain ⟨tailRun, -⟩ := dmaKeys c
  have size : max 1 (d.get (F.HST_DMAc_RING_SIZE_SIZE c.val)) = d.get (F.HST_DMAc_RING_SIZE_SIZE c.val) := by omega
  unfold Dev.dmaShown
  rw [Dev.setFlag_eq, Dev.get_put_ne _ _ _ _ tailRun.symm, Dev.get_put_self, size]
  have := Nat.mod_lt (j.index + 1) (show 0 < d.get (F.HST_DMAc_RING_SIZE_SIZE c.val) by omega)
  exact Nat.mod_eq_of_lt (Nat.lt_of_lt_of_le this hr)

theorem Dev.dmaShown_run (c : Nat) (j : DmaJob) : (d.dmaShown c j).get (F.HST_DMAc_STAT_RUN c) = 0 := Dev.get_put_self ..

theorem Dev.dmaShown_keeps (c : Nat) (j : DmaJob) : regsKeep [F.HST_DMAc_TAIL_INDEX c, F.HST_DMAc_STAT_RUN c] d (d.dmaShown c j) :=
  regsKeep_trans (regsKeep_put { d with hst := _ } _ _ (by simp)) (regsKeep_put _ _ _ (by simp))

theorem Dev.dmaErr_keeps (c : Nat) (j : DmaJob) : regsKeep (recFlds ++ [F.HST_DMAc_STAT_ERR c]) d (d.dmaErr c j) := by
  unfold Dev.dmaErr
  split
  · exact regsKeep_refl _ d
  · exact regsKeep_trans (regsKeep_put d _ _ (by simp)) (regsKeep_raise _ _ _ _ _ _ _ (fun F hF => List.mem_append_left _ hF))

theorem Dev.dmaNotify_keeps (j : DmaJob) : regsKeep recFlds d (d.dmaNotify j) := by
  unfold Dev.dmaNotify
  split
  · exact regsKeep_put d F.HST_ATTN_CAUSE _ (by simp [recFlds])
  · exact regsKeep_refl _ d

/-- The error and the attention change nothing but registers and what the recorder took in. -/
theorem Dev.dmaErr_eq (c : Nat) (j : DmaJob) : d.dmaErr c j = { d with regs := (d.dmaErr c j).regs, evr := (d.dmaErr c j).evr } := by
  unfold Dev.dmaErr
  split
  · rfl
  · conv => lhs; rw [Dev.raise_eq]
    rfl

theorem Dev.dmaNotify_eq (j : DmaJob) : d.dmaNotify j = { d with regs := (d.dmaNotify j).regs } := by
  unfold Dev.dmaNotify
  split <;> rfl

theorem Dev.dmaNotify_bit (h : j.notify = true) : bitAt ((d.dmaNotify j).get F.HST_ATTN_CAUSE) 14 = true := by
  rw [Dev.dmaNotify, if_pos h]
  exact d.attn_bit .dma

theorem Dev.dmaErr_err (h : j.status ≠ 1) : (d.dmaErr c.val j).get (F.HST_DMAc_STAT_ERR c.val) = 1 := by
  obtain ⟨-, -, -, apart⟩ := dmaKeys c
  unfold Dev.dmaErr
  rw [if_neg (by simpa using h), Dev.get_raise _ _ _ _ _ _ _ _ (apart _ (by simp)), Dev.setFlag_eq, Dev.get_put_self]
  rfl

theorem Dev.dmaErr_evr (h : j.status ≠ 1) : ((d.dmaShown c.val j).dmaErr c.val j).evr = (d.raise 0x0E20 0x01 2 c.val j.index j.status).evr := by
  obtain ⟨-, -, -, apart⟩ := dmaKeys c
  have lastGasp : F.EVR_STAT_LASTGASP.key ∈ recFlds.map Fld.key := by decide
  unfold Dev.dmaErr
  rw [if_neg (by simpa using h), Dev.setFlag_eq, Dev.put_raise_evr _ _ _ _ _ _ _ _ _ (fun q => apart _ (by simp) (q ▸ lastGasp))]
  refine Dev.raise_evr_congr _ _ _ _ _ _ _ _ rfl rfl (d.dmaShown_keeps c.val j _ (fun q => ?_))
  obtain ⟨G, hG, q⟩ := List.mem_map.mp q
  exact apart G (by simp at hG ⊢; tauto) (q ▸ lastGasp)

/-- Beside the registers and the recorder, a finished descriptor changes the channel's jobs alone. -/
theorem Dev.dmaNotify_dmaErr_eq (c : Nat) (j : DmaJob) : (d.dmaErr c j).dmaNotify j =
    { d with regs := ((d.dmaErr c j).dmaNotify j).regs, evr := (d.dmaErr c j).evr } := by
  have err := d.dmaErr_eq c j
  have notify := (d.dmaErr c j).dmaNotify_eq j
  generalize (d.dmaErr c j).dmaNotify j = y at *
  generalize d.dmaErr c j = x at *
  rw [notify, err]

end

/-- Settles O9: the two ways in which a descriptor is taken, and what a finished one leaves. -/
theorem dmaDescriptors : Obligations.DmaDescriptors := by
  refine ⟨fun c desc s ht => ⟨fun hw host => ?_, fun bytes hw hk hn hb hl hg => ?_⟩, fun c s j h hj hr => ?_⟩
  · exact ⟨_, exec_dmaDescriptor_format rfl ht host hw, rfl, Dev.dmaJob_runs .., _, Dev.dmaJob_taken .., rfl, rfl, rfl⟩
  · exact ⟨_, exec_dmaDescriptor_toDevice rfl ht hw hk hn hb hl hg, fun k => Dram.writeBytes_read .., _, Dev.dmaJob_taken .., rfl, rfl⟩
  · obtain ⟨-, tailErr, runErr, apart⟩ := dmaKeys c
    have shown := s.dev.dmaShown_keeps c.val j
    have err := (s.dev.dmaShown c.val j).dmaErr_keeps c.val j
    have notify := ((s.dev.dmaShown c.val j).dmaErr c.val j).dmaNotify_keeps j
    have frame := (s.dev.dmaShown c.val j).dmaNotify_dmaErr_eq c.val j
    have after := regsKeep_trans err (regsKeep_mono notify (fun F hF => List.mem_append_left _ hF))
    have other : ∀ G ∈ [F.HST_DMAc_TAIL_INDEX c.val, F.HST_DMAc_STAT_RUN c.val], G.key ∉ (recFlds ++ [F.HST_DMAc_STAT_ERR c.val]).map Fld.key := by
      intro G hG
      simp only [List.map_append, List.mem_append, List.map_cons, List.map_nil, List.mem_singleton, not_or]
      simp only [List.mem_cons, List.not_mem_nil, or_false] at hG
      obtain rfl | rfl := hG
      · exact ⟨apart _ (by simp), tailErr⟩
      · exact ⟨apart _ (by simp), runErr⟩
    have errKept := notify (F.HST_DMAc_STAT_ERR c.val) (apart _ (by simp))
    have shownErr := shown (F.HST_DMAc_STAT_ERR c.val) (by simp [tailErr.symm, runErr.symm])
    have evr : (((s.dev.dmaShown c.val j).dmaErr c.val j).dmaNotify j).evr = ((s.dev.dmaShown c.val j).dmaErr c.val j).evr :=
      (congrArg Dev.evr frame :)
    have hst := congrArg Dev.hst frame
    refine ⟨_, exec_dmaDescriptorDone h, (after _ (other _ (by simp))).trans (s.dev.dmaShown_tail hj hr),
      (after _ (other _ (by simp))).trans (s.dev.dmaShown_run c.val j), ?_, ?_, fun ok => ?_, fun bad => ?_, fun asks => ?_, ?_, ?_, ?_⟩
    · exact (congrArg (fun x : Hst => tfind x.dma c.val) hst).trans (tfind_tdel_self ..)
    · exact (congrArg (fun x : Hst => tfind x.dmaStatus c.val) hst).trans (tfind_tput_self ..)
    · have same : (s.dev.dmaShown c.val j).dmaErr c.val j = s.dev.dmaShown c.val j := if_pos (by simp [ok])
      exact ⟨(errKept.trans (congrArg (fun x : Dev => x.get _) same)).trans shownErr, evr.trans (congrArg Dev.evr same :)⟩
    · exact ⟨errKept.trans (Dev.dmaErr_err _ bad), evr.trans (s.dev.dmaErr_evr bad)⟩
    · exact Dev.dmaNotify_bit _ asks
    · rw [frame]
      rfl
    · rw [frame]
      rfl
    · exact regsKeep_trans (regsKeep_mono shown (by simp)) (regsKeep_mono after (fun F hF => by simp at hF ⊢; tauto))

end Sys2Proof.Machine

/-! # Resets and start-up (16_host_startup.md R406 to R412; 08_sensing_calibration.md R217, R219)

What power-up calibration sets stands at places of its own, so it leaves the calibration store and STORE_BAD as the reading of the store left them
(`Dev.StoreKept`). -/

namespace Sys2Proof.Machine

open Sys2Proof.Safety

/-! ## HST_RESET (R410) -/

theorem exec_hstReset_param {tag key : Word} {s : State} (h : s.dev.mayRun .ctrl 0x02 tag = true) (hk : key ≠ 0x0000A5A5#32) :
    exec (.hstReset tag key) s = .next (s.onDev (fun d => d.finish .ctrl 0x02 tag Res.param.code 0)) := by
  simp [exec, execHstReset, State.hstReset, h, hk]

theorem exec_hstReset_accepted {tag key : Word} {s : State} (h : s.dev.mayRun .ctrl 0x02 tag = true) (hk : key = 0x0000A5A5#32) :
    exec (.hstReset tag key) s = .next { s with dev := s.dev.resetAccept tag } := by
  simp [exec, execHstReset, State.hstReset, h, hk, State.onDev]

/-- The beam of port p is off, and its next MOD frame carries no power. -/
def Dev.beamDark (d : Dev) (p : Nat) : Prop := d.beamOff p ∧ (d.prtOf p).blank = true

theorem Dev.blankPort_beamDark (d : Dev) (p : Nat) : (d.blankPort p).beamDark p := by
  refine ⟨d.blankPort_beamOff p, ?_⟩
  change (tget prt0 (tput d.prt p _) p).blank = true
  rw [tget_tput_self]

theorem Dev.beamDark.blankPort {d : Dev} {p : Nat} (h : d.beamDark p) (q : Nat) : (d.blankPort q).beamDark p := by
  by_cases hpq : p = q
  · exact hpq ▸ d.blankPort_beamDark p
  · refine ⟨h.1.blankPort q, ?_⟩
    change (tget prt0 (tput d.prt q _) p).blank = true
    rw [tget_tput_ne _ _ _ _ _ (Ne.symm hpq)]
    exact h.2

/-- Every beam is blanked. -/
def Dev.allBlanked (d : Dev) : Dev := (upTo 32).foldl (fun d p => d.blankPort p) d

theorem Dev.allBlanked_dark (d : Dev) (p : Fin 32) : d.allBlanked.beamDark p.val :=
  foldl_reaches (fun d p => Dev.blankPort d p) (I := fun _ => True) (P := fun d => d.beamDark p.val) (upTo 32) (fun _ _ _ _ => trivial)
    (fun _ q _ _ h => h.blankPort q) ⟨p.val, List.mem_range.mpr p.isLt, fun d _ => d.blankPort_beamDark p.val⟩ trivial

theorem Dev.allBlanked_hst_evr (d : Dev) : d.allBlanked.hst = d.hst ∧ d.allBlanked.evr = d.evr :=
  List.foldlRecOn (motive := fun e : Dev => e.hst = d.hst ∧ e.evr = d.evr) _ _ ⟨rfl, rfl⟩ (fun _ he _ _ => he)

/-- The host interface while an accepted HST_RESET waits for its record: the mailbox is closed, and the command runs. -/
def Hst.resetting (h : Hst) (tag : Word) (t : DWord) : Hst :=
  { h with
    free := false
    resetWait := some (tag, t)
    queue := h.queue.eraseIdx (h.queue.findIdx (fun c => c.op == 0x02 && c.tag == tag))
    running := tput h.running (laneIx .ctrl) ⟨0, 0x02, tag, [0x02#32, tag, 0x0000A5A5#32], none⟩ }

theorem Dev.resetAccept_eq (d : Dev) (tag : Word) :
    d.resetAccept tag = { d.allBlanked with hst := d.hst.resetting tag d.time } := by
  rw [← d.allBlanked_hst_evr.1]
  unfold Dev.resetAccept Dev.allBlanked Hst.resetting
  rfl

theorem Dev.resetAccept_hst_evr (d : Dev) (tag : Word) :
    (d.resetAccept tag).hst = d.hst.resetting tag d.time ∧ (d.resetAccept tag).evr = d.evr := by
  rw [d.resetAccept_eq tag]
  exact ⟨rfl, d.allBlanked_hst_evr.2⟩

theorem Dev.beamDark.hst {d : Dev} {p : Nat} (h : d.beamDark p) (x : Hst) : ({ d with hst := x } : Dev).beamDark p := h

theorem Dev.resetAccept_dark (d : Dev) (tag : Word) (p : Fin 32) : (d.resetAccept tag).beamDark p.val := by
  rw [d.resetAccept_eq tag]
  exact (d.allBlanked_dark p).hst _

/-! ## Power-up calibration leaves the store alone (R214 to R219) -/

/-- The calibration store and STORE_BAD are those of d. -/
structure Dev.StoreKept (d e : Dev) : Prop where
  store : e.sns.store = d.sns.store
  bad : e.get F.SNS_STAT_STORE_BAD = d.get F.SNS_STAT_STORE_BAD

namespace Dev.StoreKept

variable {d e : Dev}

theorem refl (d : Dev) : d.StoreKept d := ⟨rfl, rfl⟩

theorem put (h : d.StoreKept e) {G : Fld} (v : Nat) (hG : G.key ≠ F.SNS_STAT_STORE_BAD.key) : d.StoreKept (e.put G v) :=
  ⟨h.store, (Dev.get_put_ne e G _ v hG).trans h.bad⟩

theorem raise (h : d.StoreKept e) (c a b x y z : Nat) : d.StoreKept (e.raise c a b x y z) :=
  ⟨(congrArg Sns.store (e.raise_sns c a b x y z)).trans h.store, (Dev.get_raise e c a b x y z _ (by decide)).trans h.bad⟩

theorem sns (h : d.StoreKept e) {x : Sns} (hx : x.store = e.sns.store) : d.StoreKept { e with sns := x } := ⟨hx.trans h.store, h.bad⟩

theorem trans {f : Dev} (h : d.StoreKept e) (h' : e.StoreKept f) : d.StoreKept f := ⟨h'.store.trans h.store, h'.bad.trans h.bad⟩

end Dev.StoreKept

/-- Where the registers stand that calibration sets: none of them at the place of STORE_BAD. -/
theorem calKeys (n : Nat) : ∀ G ∈ [F.BEAMn_STITCH_X_OFS n, F.BEAMn_STITCH_Y_OFS n, F.SNS_Pn_TGT_X_VAL n, F.SNS_Pn_TGT_Y_VAL n,
    F.SNS_CHc_OFS_OFS n, F.SNS_CHc_GCAL_VAL n, F.SNS_CHc_TRIM_VAL n, F.BEAMn_SKEW_SKEW n, F.SNS_CHc_STAT_UNSURE n,
    F.SNS_CHc_STAT_OFS_SLEW n, F.SNS_CHc_STAT_GAIN_SLEW n], G.key ≠ F.SNS_STAT_STORE_BAD.key := by
  simp only [List.forall_mem_cons, List.not_mem_nil, false_imp_iff, implies_true, and_true]
  simp only [Fld.key, F.BEAMn_STITCH_X_OFS, F.BEAMn_STITCH_Y_OFS, F.SNS_Pn_TGT_X_VAL, F.SNS_Pn_TGT_Y_VAL, F.SNS_CHc_OFS_OFS, F.SNS_CHc_GCAL_VAL,
    F.SNS_CHc_TRIM_VAL, F.BEAMn_SKEW_SKEW, F.SNS_CHc_STAT_UNSURE, F.SNS_CHc_STAT_OFS_SLEW, F.SNS_CHc_STAT_GAIN_SLEW, F.SNS_STAT_STORE_BAD]
  omega

namespace Dev.StoreKept

variable {d e : Dev} (h : d.StoreKept e)
include h

theorem slewPut (k : SlewKind) (v : List Frac) : d.StoreKept (e.slewPut k v) := by
  unfold Dev.slewPut
  cases k with
  | ofs c => exact h.put _ (calKeys c _ (by simp))
  | gcal c => exact h.put _ (calKeys c _ (by simp))
  | trim c => exact h.put _ (calKeys c _ (by simp))
  | dac p => exact ⟨h.store, h.bad⟩
  | skew p => exact h.put _ (calKeys p _ (by simp))
  | temp t => exact ⟨h.store, h.bad⟩

theorem slewBits (k : SlewKind) : d.StoreKept (e.slewBits k) := by
  unfold Dev.slewBits
  cases k with
  | ofs c => exact h.put _ (calKeys c _ (by simp))
  | gcal c => exact h.put _ (calKeys c _ (by simp))
  | trim c => exact h.put _ (calKeys c _ (by simp))
  | dac p => exact h
  | skew p => exact h
  | temp t => exact h

theorem slewTo (k : SlewKind) (v : List Frac) : d.StoreKept (e.slewTo k v) := by
  unfold Dev.slewTo
  exact slewBits (sns h (by rfl)) k

theorem calKeep (i : CalItem) (v : List Int) : d.StoreKept (e.calKeep i v) := by
  unfold Dev.calKeep
  cases i with
  | pdOffset c r => exact sns h (by rfl)
  | pdGain c r => exact sns h (by rfl)
  | _ => exact h

theorem calThird (m : CalMeas) : d.StoreKept (e.calThird m) := by
  unfold Dev.calThird
  exact raise (sns h (by rfl)) _ _ _ _ _ _

/-- The bits of an unsure item stand at places of their own. -/
theorem setBit (G : Fld) (n : Nat) (hG : G.key ≠ F.SNS_STAT_STORE_BAD.key) : d.StoreKept (e.setBit G n true) := h.put _ hG

theorem calUnsure (i : CalItem) (used : List Int) (fromStore : Bool) : d.StoreKept (e.calUnsure i used fromStore) := by
  have channel : ∀ n m : Nat, d.StoreKept
      ((if m < 32 then e.setBit F.SNS_UNSURE_PD0_CH n true else e.setBit F.SNS_UNSURE_PD1_CH (n - 32) true).setFlag (F.SNS_CHc_STAT_UNSURE n) true) := by
    intro n m
    refine put ?_ _ (calKeys n _ (by simp))
    split
    · exact h.setBit _ _ (by decide)
    · exact h.setBit _ _ (by decide)
  unfold Dev.calUnsure
  refine raise (put (G := F.SNS_STAT_UNSURE) (sns ?_ (by rfl)) _ (by decide)) _ _ _ _ _ _
  cases i with
  | pdOffset c r => exact channel _ _
  | pdGain c r => exact channel _ _
  | tempFe t =>
    dsimp only
    split
    · exact h.setBit _ _ (by decide)
    split
    · exact h.setBit _ _ (by decide)
    · exact h.setBit _ _ (by decide)
  | dacLin p => exact h.setBit _ _ (by decide)
  | strLat p => exact h.setBit _ _ (by decide)
  | skew p => exact h.setBit _ _ (by decide)

/-- What an item's measurement sets (R216, R217), before its slew. -/
theorem calItem (m : CalMeas) : d.StoreKept (e.calItem m) := by
  have third : d.StoreKept (if (settle m).third then e.calThird m else e) := by
    split
    · exact h.calThird m
    · exact h
  unfold Dev.calItem
  split
  · exact h
  dsimp only
  split
  · refine slewTo (calKeep ?_ _ _) _ _
    split
    · exact sns third (by rfl)
    · exact third.calUnsure _ _ _
  · refine calKeep ?_ _ _
    split
    · exact sns third (by rfl)
    · exact third.calUnsure _ _ _

theorem calRestore (x : CalItem × List Int) : d.StoreKept (e.calRestore x) := by
  unfold Dev.calRestore
  dsimp only
  split
  · split
    · exact (h.calKeep _ _).slewPut _ _
    · exact h.calKeep _ _
  · exact h.calKeep _ _

omit h in
/-- Steps that keep the store, one after another. -/
theorem foldl {α : Type} {f : Dev → α → Dev} (hf : ∀ (e : Dev) (x : α), d.StoreKept e → d.StoreKept (f e x)) (l : List α) (h : d.StoreKept e) :
    d.StoreKept (l.foldl f e) :=
  List.foldlRecOn l f h (fun e he x _ => hf e x he)

theorem stitchRestore : d.StoreKept e.stitchRestore :=
  foldl (fun _ x he => (((he.put _ (calKeys x.1 _ (by simp))).put _ (calKeys x.1 _ (by simp))).put _ (calKeys x.1 _ (by simp))).put _
    (calKeys x.1 _ (by simp))) _ h

theorem calBegin (cal : List CalMeas) : d.StoreKept (e.calBegin cal) := by
  unfold Dev.calBegin
  exact foldl (fun _ m he => he.calItem m) _ (sns (put (G := F.SNS_STAT_CAL_RUN) (foldl (fun _ x he => he.calRestore x) _ h.stitchRestore) _ (by decide)) (by rfl))

end Dev.StoreKept

/-! ## The store is read at start-up (R219) -/

/-- A copy that fails its CRC is shown and recorded, and leaves the contents in use as they are. -/
theorem Dev.storeBad_foldl (d : Dev) (bad : List (Fin 2 × Word)) :
    let e := bad.foldl (fun (d : Dev) x => (d.setFlag F.SNS_STAT_STORE_BAD true).raise 0x0504 0x0D 2 x.1.val x.2.toNat 0) d
    e.sns.store = d.sns.store ∧ e.get F.SNS_STAT_STORE_BAD = (if bad = [] then d.get F.SNS_STAT_STORE_BAD else 1) := by
  induction bad generalizing d with
  | nil => exact ⟨rfl, rfl⟩
  | cons x xs ih =>
    obtain ⟨hs, hb⟩ := ih ((d.setFlag F.SNS_STAT_STORE_BAD true).raise 0x0504 0x0D 2 x.1.val x.2.toNat 0)
    refine ⟨hs.trans (congrArg Sns.store (Dev.raise_sns _ _ _ _ _ _ _)), hb.trans ?_⟩
    have now : ((d.setFlag F.SNS_STAT_STORE_BAD true).raise 0x0504 0x0D 2 x.1.val x.2.toNat 0).get F.SNS_STAT_STORE_BAD = 1 :=
      (Dev.get_raise _ _ _ _ _ _ _ _ (by decide)).trans (Dev.get_put_self d F.SNS_STAT_STORE_BAD 1)
    rw [now]
    simp

/-- The contents in use once the copies are judged, before those that fail are shown. -/
def Dev.storeChosen (d : Dev) (nowFails otherFails : Bool) : Dev :=
  let d1 := if otherFails then { d with sns := { d.sns with older := noCopy d.sns.older.seq } } else d
  if nowFails then d1.storeUse d1.sns.older else d1

theorem Dev.storeChosen_store (d : Dev) (nowFails otherFails : Bool) :
    (d.storeChosen nowFails otherFails).sns.store =
      (if nowFails = false then d.sns.store else if otherFails = false then d.sns.older.items else []) := by
  cases nowFails with
  | false => cases otherFails <;> rfl
  | true => cases otherFails <;> rfl

theorem Dev.storeChosen_regs (d : Dev) (nowFails otherFails : Bool) : (d.storeChosen nowFails otherFails).regs = d.regs := by
  cases nowFails with
  | false => cases otherFails <;> rfl
  | true => cases otherFails <;> rfl

theorem Dev.storeRead_store (d : Dev) (bad : List (Fin 2 × Word)) :
    (d.storeRead bad).sns.store =
      (if bad.any (fun x => x.1.val == d.sns.storeSeq.toNat % 2) = false then d.sns.store
       else if bad.any (fun x => x.1.val == 1 - d.sns.storeSeq.toNat % 2) = false then d.sns.older.items else []) :=
  (Dev.storeBad_foldl (d.storeChosen _ _) bad).1.trans (d.storeChosen_store _ _)

theorem Dev.storeRead_bad (d : Dev) (bad : List (Fin 2 × Word)) :
    (d.storeRead bad).get F.SNS_STAT_STORE_BAD = (if bad = [] then d.get F.SNS_STAT_STORE_BAD else 1) :=
  (Dev.storeBad_foldl (d.storeChosen _ _) bad).2.trans (by rw [Dev.get_congr _ (d.storeChosen_regs _ _)])

/-! ## The phases (R411) -/

/-- The device in TRAIN, once the store is read. -/
def Dev.booted (e : Dev) (cal : List CalMeas) : Dev :=
  ((((e.calBegin cal).put (F.DDR_CHc_STAT_STATE 0) 1).put (F.DDR_CHc_STAT_STATE 1) 1).put F.RIG_STAT_STATE 1).put F.HST_STAT_PHASE 2

theorem exec_startupBoot_phase0 {cal : List CalMeas} {bad : List (Fin 2 × Word)} {s : State} (h : s.dev.get F.HST_STAT_PHASE = 0) :
    exec (.startupBoot cal bad) s = .next { s with dev := (s.dev.storeRead bad).booted cal } := by
  simp [exec, execStartupBoot, Dev.startupBoot, Dev.booted, h, State.onDev]

theorem exec_startupBoot_otherwise {cal : List CalMeas} {bad : List (Fin 2 × Word)} {s : State} (h : s.dev.get F.HST_STAT_PHASE ≠ 0) :
    exec (.startupBoot cal bad) s = .next s := by
  simp [exec, execStartupBoot, Dev.startupBoot, h, State.onDev]

/-- The phase that follows CALIBRATE (R26, R411). -/
def Dev.phaseAfterCal (d : Dev) : Nat := if d.sys.sup = .halted then 5 else 4

theorem exec_startupReady_ready {s : State} (h : s.dev.get F.HST_STAT_PHASE = 3) (hc : s.dev.get F.SNS_STAT_CAL_DONE = 1) :
    exec .startupReady s = .next { s with dev := { s.dev.put F.HST_STAT_PHASE s.dev.phaseAfterCal with
        hst := { s.dev.hst with free := s.dev.hst.resetWait.isNone } } } := by
  simp [exec, execStartupReady, Dev.startupReady, Dev.flag, h, hc, State.onDev, Dev.phaseAfterCal]

theorem exec_startupReady_otherwise {s : State} (h : s.dev.get F.HST_STAT_PHASE ≠ 3 ∨ s.dev.get F.SNS_STAT_CAL_DONE = 0) :
    exec .startupReady s = .next s := by
  have closed : (s.dev.get F.HST_STAT_PHASE == 3 && s.dev.flag F.SNS_STAT_CAL_DONE) = false := by
    rcases h with h | h
    · simp [h]
    · simp [Dev.flag, h]
  simp only [exec, execStartupReady, Dev.startupReady, closed, State.onDev, Bool.false_eq_true, if_false]

/-- What STARTUP_BOOT shows once the phase is TRAIN: calibration has not touched what the reading of the store left. -/
theorem Dev.booted_shows (e : Dev) (cal : List CalMeas) :
    (e.booted cal).get F.HST_STAT_PHASE = 2 ∧ (e.booted cal).get F.RIG_STAT_STATE = 1 ∧ (e.booted cal).get (F.DDR_CHc_STAT_STATE 0) = 1 ∧
      (e.booted cal).get (F.DDR_CHc_STAT_STATE 1) = 1 ∧ e.StoreKept (e.booted cal) := by
  unfold Dev.booted
  refine ⟨Dev.get_put_self _ _ _, ?_, ?_, ?_, ?_⟩
  · exact (Dev.get_put_ne _ _ _ _ (by decide)).trans (Dev.get_put_self _ _ _)
  · exact (Dev.get_put_ne _ _ _ _ (by decide)).trans ((Dev.get_put_ne _ _ _ _ (by decide)).trans
      ((Dev.get_put_ne _ _ _ _ (by decide)).trans (Dev.get_put_self _ _ _)))
  · exact (Dev.get_put_ne _ _ _ _ (by decide)).trans ((Dev.get_put_ne _ _ _ _ (by decide)).trans (Dev.get_put_self _ _ _))
  · exact ((((((Dev.StoreKept.refl e).calBegin cal).put _ (by decide)).put _ (by decide)).put _ (by decide)).put _ (by decide))

/-- Settles O11: HST_RESET blanks or answers PARAM, and each start-up phase leads to the next one, with what the reading of the store left. -/
theorem resetsAndStartup : Obligations.ResetsAndStartup := by
  refine ⟨fun tag key s h => ⟨exec_hstReset_param h, fun hk => ?_⟩, ?_, ?_, ?_, ?_⟩
  · obtain ⟨hh, he⟩ := s.dev.resetAccept_hst_evr tag
    refine ⟨_, exec_hstReset_accepted h hk, ?_, ?_, ?_, ?_, fun p => ?_, rfl, he⟩
    · exact congrArg Hst.free hh
    · exact congrArg Hst.resetWait hh
    · exact (congrArg Hst.cpl hh :)
    · exact (congrArg Hst.finished hh :)
    · obtain ⟨⟨he, hg⟩, hb⟩ := s.dev.resetAccept_dark tag p
      exact ⟨he, hg, hb⟩
  · intro cal bad s h
    obtain ⟨hp, hr, h0, h1, kept⟩ := (s.dev.storeRead bad).booted_shows cal
    exact ⟨_, exec_startupBoot_phase0 h, hp, hr, h0, h1, rfl, kept.bad.trans (s.dev.storeRead_bad bad), kept.store.trans (s.dev.storeRead_store bad)⟩
  · exact fun _ _ _ h => exec_startupBoot_otherwise h
  · intro s h hc hw
    have small : s.dev.phaseAfterCal % 2 ^ F.HST_STAT_PHASE.width = s.dev.phaseAfterCal := by
      unfold Dev.phaseAfterCal
      split <;> rfl
    refine ⟨_, exec_startupReady_ready h hc, (Dev.get_put_self s.dev _ _).trans small, ?_, ?_, ?_⟩
    · exact congrArg Option.isNone hw
    · rw [hw]; rfl
    · exact regsKeep_put s.dev F.HST_STAT_PHASE s.dev.phaseAfterCal (by exact List.mem_singleton.mpr rfl)
  · exact fun _ h => exec_startupReady_otherwise h

end Sys2Proof.Machine

/-! # The recorder and the log flash (15_selftest_recorder.md R375 to R387; 16_host_startup.md R406, R408)

What an event does to the FIFO where no entry takes it; the start-up scan of the log flash with the record of the reset; the ring, persistence and
LOG_FETCH. -/

namespace Sys2Proof.Machine

open Sys2Proof.Safety

/-! ## Registers and the recorder alone -/

/-- Of the device d only register fields of fs and the recorder, with its register fields, changed. -/
structure Dev.RegsRec (fs : List Fld) (d e : Dev) : Prop where
  frame : e = { d with regs := e.regs, evr := e.evr }
  keeps : regsKeep (recFlds ++ fs) d e

namespace Dev.RegsRec

variable {fs : List Fld} {d e f : Dev}

theorem refl (d : Dev) : d.RegsRec fs d := ⟨rfl, regsKeep_refl _ d⟩

theorem trans (h : d.RegsRec fs e) (k : e.RegsRec fs f) : d.RegsRec fs f where
  frame := by
    have frame := k.frame
    rw [h.frame] at frame
    exact frame
  keeps := regsKeep_trans h.keeps k.keeps

theorem put (h : d.RegsRec fs e) {G : Fld} (v : Nat) (hG : G ∈ recFlds ++ fs) : d.RegsRec fs (e.put G v) := h.trans ⟨rfl, regsKeep_put e G v hG⟩

theorem raise (h : d.RegsRec fs e) (c a b x y z : Nat) : d.RegsRec fs (e.raise c a b x y z) :=
  h.trans ⟨e.raise_eq c a b x y z, regsKeep_raise _ _ _ _ _ _ _ (fun _ hG => List.mem_append_left _ hG)⟩

theorem attn (h : d.RegsRec fs e) (a : Attn) : d.RegsRec fs (e.attn a) := h.put _ (List.mem_append_left _ (by decide))

theorem setEvr (h : d.RegsRec fs e) (x : Evr) : d.RegsRec fs { e with evr := x } := h.trans ⟨rfl, regsKeep_of_regs rfl⟩

theorem onlyRegsRec {s : State} (h : s.dev.RegsRec fs e) : onlyRegsRec fs s { s with dev := e } :=
  ⟨by rw [h.frame], h.keeps⟩

end Dev.RegsRec

/-! ## An event that no entry of the FIFO takes (R376, R377) -/

/-- The entry that an event raised now makes. -/
def Dev.entry (d : Dev) (code src sev p1 p2 p3 : Nat) : Event :=
  { time := d.time, code := BitVec.ofNat 16 code, src := BitVec.ofNat 8 src, sev := BitVec.ofNat 8 sev, p1 := BitVec.ofNat 32 p1,
    p2 := BitVec.ofNat 32 p2, p3 := BitVec.ofNat 32 p3, count := 1 }

theorem Dev.raise_fifo_nil {d : Dev} (h : d.evr.fifo = []) (c a b x y z : Nat) :
    d.raise c a b x y z = { d with evr := { d.evr with fifo := [d.entry c a b x y z] } } := by
  unfold Dev.raise Dev.intake Dev.entry
  simp [h, fifoMerge, fifoMax]

theorem Dev.raise_fifo_other {d : Dev} {e : Event} {c : Nat} (h : d.evr.fifo = [e]) (hc : e.code ≠ BitVec.ofNat 16 c) (a b x y z : Nat) :
    d.raise c a b x y z = { d with evr := { d.evr with fifo := [e, d.entry c a b x y z] } } := by
  unfold Dev.raise Dev.intake Dev.entry
  simp [h, fifoMerge, fifoMax, Event.takes, hc]

/-! ## An event and the latched attention causes (R381, R399) -/

theorem Dev.bankAdd_attention (d : Dev) (e : Event) : (d.bankAdd e).get F.HST_ATTN_CAUSE = d.get F.HST_ATTN_CAUSE := by
  unfold Dev.bankAdd
  split
  · exact (Dev.get_put_ne _ _ _ _ (by decide)).trans (Dev.get_put_ne _ _ _ _ (by decide))
  · exact Dev.get_put_ne _ _ _ _ (by decide)

theorem Dev.countDrop_attention (d : Dev) (sev : Nat) : (d.countDrop sev).get F.HST_ATTN_CAUSE = d.get F.HST_ATTN_CAUSE :=
  (Dev.get_put_ne _ _ _ _ (by decide)).trans (Dev.get_put_ne _ _ _ _ (by decide))

/-- An event latches no attention cause but RECORDER. -/
theorem Dev.raise_attention (d : Dev) (c a b x y z : Nat) : (d.raise c a b x y z).get F.HST_ATTN_CAUSE = d.get F.HST_ATTN_CAUSE ∨
    bitAt ((d.raise c a b x y z).get F.HST_ATTN_CAUSE) 10 = true := by
  unfold Dev.raise Dev.intake
  split
  · exact .inl (Dev.get_put_ne _ _ _ _ (by decide))
  split
  · exact .inl rfl
  dsimp only
  split
  · exact .inl (d.countDrop_attention _)
  split
  · unfold Dev.toBank
    dsimp only
    split
    · exact .inl (d.bankAdd_attention _)
    · exact .inr (Dev.attn_bit _ .recorder)
  · exact .inl (d.countDrop_attention _)

/-- Once latched RECORDER stays through an event. -/
theorem Dev.raise_keeps_recorder {d : Dev} (h : bitAt (d.get F.HST_ATTN_CAUSE) 10 = true) (c a b x y z : Nat) :
    bitAt ((d.raise c a b x y z).get F.HST_ATTN_CAUSE) 10 = true :=
  (d.raise_attention c a b x y z).elim (fun same => same ▸ h) id

/-! ## The start-up scan of the log flash (R386) -/

theorem Dev.flashOldest_regsOnly (d : Dev) : d.RegsOnly [F.EVR_FLASH_OLDEST_SEQ] d.flashOldest := by
  unfold Dev.flashOldest
  split
  · exact (Dev.RegsOnly.refl d).put (by simp) _
  · exact .refl d

theorem Dev.RegsRec.ringOldest {fs : List Fld} {d e : Dev} (h : d.RegsRec fs e) (ho : F.EVR_OLDEST_SEQ ∈ fs) : d.RegsRec fs e.ringOldest := by
  unfold Dev.ringOldest
  split
  · exact h.put _ (List.mem_append_right _ ho)
  · exact h

theorem Dev.ringOldest_keeps (d : Dev) : regsKeep [F.EVR_OLDEST_SEQ] d d.ringOldest := by
  unfold Dev.ringOldest
  split
  · exact regsKeep_put d _ _ (by simp)
  · exact regsKeep_refl _ d

@[simp] theorem Dev.ringOldest_evr (d : Dev) : d.ringOldest.evr = d.evr := by
  unfold Dev.ringOldest
  split <;> rfl

/-- The highest SEQ in the log, 0 where it is empty. -/
def LogFlash.highest (f : LogFlash) : Word :=
  match newestSeq f.recs with
  | some q => q
  | none => 0

/-- The reset of device d is recorded (R408) on what the scan left. -/
def Dev.recordReset (d e : Dev) : Dev := e.raise 0x0E30 0x01 0 (d.get F.HST_RESET_CAUSE_CAUSE) d.sys.phaseBefore 0

/-- The device once the flash has answered the scan, before its events. -/
def Dev.scanFound (d : Dev) : Dev := (d.free.2.setFlag F.EVR_STAT_FLASH_READY true).flashOldest.put F.EVR_PERSIST_SEQ d.logFlash.highest.toNat

theorem exec_logFlashScan_done {ans : Bool} {s : State} (h : s.dev.get F.EVR_STAT_FLASH_READY ≠ 0 ∨ s.dev.get F.EVR_STAT_FLASH_FAIL ≠ 0) :
    exec (.logFlashScan ans) s = .next s := by
  have done : (s.dev.flag F.EVR_STAT_FLASH_READY || s.dev.flag F.EVR_STAT_FLASH_FAIL) = true := by
    rcases h with h | h
    · simp [h]
    · simp [h]
  simp only [exec, execLogFlashScan, Dev.logFlashScan, done, if_true, State.onDev]

theorem exec_logFlashScan_answers {s : State} (hr : s.dev.get F.EVR_STAT_FLASH_READY = 0) (hf : s.dev.get F.EVR_STAT_FLASH_FAIL = 0) :
    exec (.logFlashScan true) s = .next { s with dev := (s.dev.recordReset
      (s.dev.scanFound.raise 0x0D07 0x0C 0 s.dev.logFlash.recs.length s.dev.logFlash.highest.toNat (s.dev.free.1 % 51))) } := by
  have due : (s.dev.flag F.EVR_STAT_FLASH_READY || s.dev.flag F.EVR_STAT_FLASH_FAIL) = false := by simp [hr, hf]
  simp only [exec, execLogFlashScan, Dev.logFlashScan, due, State.onDev, Bool.false_eq_true, if_false, if_true]
  rfl

/-- The device once the flash has not answered, before the record of the reset: 0x0D06 and attention RECORDER. -/
def Dev.scanFailed (d : Dev) : Dev :=
  (((d.renumber d.logFlash.nextSeq).put F.EVR_STAT_FLASH_FAIL 1).raise 0x0D06 0x0C 3 1 (d.renumber d.logFlash.nextSeq).logFlash.retiredCount
    ((d.renumber d.logFlash.nextSeq).get F.EVR_PERSIST_SEQ)).attn .recorder

/-- Numbering anew changes the recorder, HEAD and OLDEST, and no entry of the FIFO. -/
theorem Dev.renumber_regsRec (d : Dev) (q : Word) : d.RegsRec [F.EVR_OLDEST_SEQ] (d.renumber q) ∧ (d.renumber q).evr.fifo = d.evr.fifo := by
  unfold Dev.renumber
  dsimp only
  split
  · exact ⟨(((Dev.RegsRec.refl d).setEvr _).put (G := F.EVR_HEAD_SEQ) _ (by decide)).ringOldest (by simp), by rw [Dev.ringOldest_evr]; rfl⟩
  · exact ⟨(Dev.RegsRec.refl d).setEvr _, rfl⟩

theorem Dev.flashFailed_first {d : Dev} (h : d.get F.EVR_STAT_FLASH_FAIL = 0) (cause : Nat) :
    d.flashFailed cause = ((d.put F.EVR_STAT_FLASH_FAIL 1).raise 0x0D06 0x0C 3 cause d.logFlash.retiredCount (d.get F.EVR_PERSIST_SEQ)).attn .recorder := by
  unfold Dev.flashFailed
  rw [if_neg (by simp [h])]
  rfl

theorem exec_logFlashScan_fails {s : State} (hr : s.dev.get F.EVR_STAT_FLASH_READY = 0) (hf : s.dev.get F.EVR_STAT_FLASH_FAIL = 0) :
    exec (.logFlashScan false) s = .next { s with dev := s.dev.recordReset s.dev.scanFailed } := by
  have due : (s.dev.flag F.EVR_STAT_FLASH_READY || s.dev.flag F.EVR_STAT_FLASH_FAIL) = false := by simp [hr, hf]
  have first := Dev.flashFailed_first (((s.dev.renumber_regsRec s.dev.logFlash.nextSeq).1.keeps F.EVR_STAT_FLASH_FAIL (by decide)).trans hf) 1
  simp only [exec, execLogFlashScan, Dev.logFlashScan, due, State.onDev, Bool.false_eq_true, if_false, first]
  rfl

/-! ## The reset and its record (R406, R408) -/

theorem exec_fullReset_due {c : ResetCause} {s : State} (h : c = .command → s.dev.resetReady = true) :
    exec (.fullReset c) s = .next { s with mem := { cells := [], poison := [] }, dev := s.dev.afterReset c } := by
  have due : s.dev.resetDue c = true := by
    cases c with
    | command => exact h rfl
    | _ => rfl
  simp only [exec, execFullReset, State.fullReset, due, if_true]

/-- The registers that the answered scan sets. -/
def scanFlds : List Fld := [F.EVR_STAT_FLASH_READY, F.EVR_FLASH_OLDEST_SEQ, F.EVR_PERSIST_SEQ]

/-- The scan that the flash answers shows READY and the highest SEQ, and changes no other block than the count of free values. -/
theorem Dev.scanFound_eq (d : Dev) : d.scanFound = { d with regs := d.scanFound.regs, freeCtr := d.freeCtr + 1 } := by
  have frame := (d.free.2.setFlag F.EVR_STAT_FLASH_READY true).flashOldest_regsOnly.frame
  unfold Dev.scanFound
  rw [frame]
  rfl

theorem Dev.scanFound_keeps (d : Dev) : regsKeep scanFlds d d.scanFound := by
  have shown := (d.free.2.setFlag F.EVR_STAT_FLASH_READY true).flashOldest_regsOnly.keeps
  have set : regsKeep scanFlds d (d.free.2.setFlag F.EVR_STAT_FLASH_READY true) := regsKeep_put d.free.2 _ _ (by decide)
  exact regsKeep_trans set (regsKeep_trans (regsKeep_mono shown (by decide)) (regsKeep_put _ _ _ (by decide)))

theorem Dev.scanFound_ready (d : Dev) : d.scanFound.get F.EVR_STAT_FLASH_READY = 1 :=
  (Dev.get_put_ne _ _ _ _ (by decide)).trans
    (((Dev.flashOldest_regsOnly _).keeps F.EVR_STAT_FLASH_READY (by decide)).trans (Dev.get_put_self d.free.2 F.EVR_STAT_FLASH_READY 1))

theorem Dev.scanFound_persist (d : Dev) : d.scanFound.get F.EVR_PERSIST_SEQ = d.logFlash.highest.toNat :=
  (Dev.get_put_self _ _ _).trans (Nat.mod_eq_of_lt d.logFlash.highest.isLt)

theorem Dev.scanFailed_regsRec (d : Dev) : d.RegsRec [F.EVR_OLDEST_SEQ, F.EVR_STAT_FLASH_FAIL] d.scanFailed := by
  obtain ⟨h, -⟩ := d.renumber_regsRec d.logFlash.nextSeq
  have wide : d.RegsRec [F.EVR_OLDEST_SEQ, F.EVR_STAT_FLASH_FAIL] (d.renumber d.logFlash.nextSeq) := ⟨h.frame, regsKeep_mono h.keeps (by decide)⟩
  exact ((wide.put _ (by decide)).raise _ _ _ _ _ _).attn _

theorem Dev.scanFailed_fail (d : Dev) : d.scanFailed.get F.EVR_STAT_FLASH_FAIL = 1 :=
  (Dev.get_put_ne _ _ _ _ (by decide)).trans ((Dev.get_raise _ _ _ _ _ _ _ _ (by decide)).trans (Dev.get_put_self _ _ _))

/-- From an empty FIFO the scan leaves two entries: its own and the record of the reset. -/
theorem Dev.recordReset_second {d e f : Dev} {c a b x y z : Nat} (he : e.evr.fifo = []) (ht : e.time = d.time) (hf : f.evr = (e.raise c a b x y z).evr)
    (hft : f.time = d.time) (hc : BitVec.ofNat 16 c ≠ 0x0E30#16) :
    (d.recordReset f).evr.fifo = [d.entry c a b x y z, d.entry 0x0E30 0x01 0 (d.get F.HST_RESET_CAUSE_CAUSE) d.sys.phaseBefore 0] := by
  have first : f.evr.fifo = [e.entry c a b x y z] := by
    rw [hf, Dev.raise_fifo_nil he]
  unfold Dev.recordReset
  rw [Dev.raise_fifo_other first hc]
  simp only [Dev.entry, ht, hft]

theorem Dev.get_recordReset (d e : Dev) {G : Fld} (h : G.key ∉ recFlds.map Fld.key) : (d.recordReset e).get G = e.get G :=
  Dev.get_raise _ _ _ _ _ _ _ G h

/-- Settles O57: the reset leaves its code in the register, and the scan that ends on an empty FIFO leaves its own entry and that of the reset. -/
theorem resetCauseShownAndRecorded : Obligations.ResetCauseShownAndRecorded := by
  refine ⟨fun c s h => ⟨_, exec_fullReset_due h, ?_, ?_, ?_⟩, ?_⟩
  · cases c <;> rfl
  · cases c <;> rfl
  · rfl
  intro ans s hr hf hq
  cases ans with
  | true =>
    have kept := s.dev.scanFound_keeps
    have frame := s.dev.scanFound_eq
    refine ⟨_, _, _, exec_logFlashScan_answers hr hf, Dev.recordReset_second (e := s.dev.scanFound) (c := 0x0D07) ?_ ?_ rfl ?_ (by decide), rfl, rfl, ?_, ?_⟩
    · rw [frame]; exact hq
    · rw [frame]
    · rw [Dev.raise_time, frame]
    · exact (Dev.get_recordReset _ _ (by decide)).trans ((Dev.get_raise _ _ _ _ _ _ _ _ (by decide)).trans (kept _ (by decide)))
    · refine exec_logFlashScan_done (.inl ?_)
      rw [Dev.get_recordReset _ _ (by decide), Dev.get_raise _ _ _ _ _ _ _ _ (by decide), Dev.scanFound_ready]
      decide
  | false =>
    have frame := (s.dev.renumber_regsRec s.dev.logFlash.nextSeq).1.frame
    have failed := s.dev.scanFailed_regsRec
    refine ⟨_, _, _, exec_logFlashScan_fails hr hf,
      Dev.recordReset_second (e := (s.dev.renumber s.dev.logFlash.nextSeq).put F.EVR_STAT_FLASH_FAIL 1) (c := 0x0D06) ?_ ?_ rfl ?_ (by decide), rfl, rfl, ?_, ?_⟩
    · exact (s.dev.renumber_regsRec s.dev.logFlash.nextSeq).2.trans hq
    · exact (congrArg Dev.time frame :)
    · rw [failed.frame]
    · exact (Dev.get_recordReset _ _ (by decide)).trans (failed.keeps _ (by decide))
    · refine exec_logFlashScan_done (.inr ?_)
      rw [Dev.get_recordReset _ _ (by decide), Dev.scanFailed_fail]
      decide

/-! ## The ring (R375, R376, R379, R381, R383) -/

theorem exec_evrRingWrite_empty {w : RingOutcome} {s : State} (h : s.dev.evr.fifo = []) : exec (.evrRingWrite w) s = .next s := by
  simp only [exec, execEvrRingWrite, Dev.ringWrite, h, State.onDev]

theorem Dev.anyPage_eq {d : Dev} (h : d.get F.EVR_PAGES_RETIRED ≠ 0xFFFF) : d.anyPage = true := by
  simpa [Dev.anyPage] using h

theorem exec_evrRingWrite_waits {w : RingOutcome} {s : State} (hp : s.dev.get F.EVR_PAGES_RETIRED ≠ 0xFFFF) (hn : s.dev.nextSlot = none) :
    exec (.evrRingWrite w) s = .next s := by
  cases hf : s.dev.evr.fifo with
  | nil => exact exec_evrRingWrite_empty hf
  | cons e l => simp only [exec, execEvrRingWrite, Dev.ringWrite, hf, Dev.anyPage_eq hp, hn, State.onDev, Bool.not_true, Bool.false_eq_true, if_false]

theorem Dev.lostRecord_none {d : Dev} (h : d.evr.drops.all (· == 0) = true) : d.lostRecord = d := by
  unfold Dev.lostRecord
  rw [if_pos h]

/-- The link's list of digests takes an event; nothing else changes. -/
theorem Dev.noteDigest_eq (d : Dev) (e : Event) (q : Word) : d.noteDigest e q = { d with glk := (d.noteDigest e q).glk } := by
  unfold Dev.noteDigest
  split <;> rfl

/-- The device once the oldest entry has left the FIFO and the link has noted it. -/
def Dev.ringTaken (d : Dev) (e : Event) : Dev := d.fifoPop.noteDigest e d.evr.nextSeq

theorem Dev.ringTaken_eq (d : Dev) (e : Event) :
    d.ringTaken e = { d with glk := (d.ringTaken e).glk, evr := { d.evr with fifo := d.evr.fifo.drop 1 } } := by
  unfold Dev.ringTaken
  rw [Dev.noteDigest_eq]
  rfl

theorem exec_evrRingWrite_slot {e : Event} {l : List Event} {i : Nat} {s : State} (hf : s.dev.evr.fifo = e :: l)
    (hd : s.dev.evr.drops.all (· == 0) = true) (hp : s.dev.get F.EVR_PAGES_RETIRED ≠ 0xFFFF) (hn : s.dev.nextSlot = some i) :
    exec (.evrRingWrite .good) s = .next { s with dev := (s.dev.ringTaken e).slotWrite i e } := by
  have kept : s.dev.fifoPop.lostRecord = s.dev.fifoPop := Dev.lostRecord_none hd
  simp only [exec, execEvrRingWrite, Dev.ringWrite, hf, Dev.anyPage_eq hp, hn, State.onDev, Bool.not_true, Bool.false_eq_true, if_false, kept]
  rfl

theorem exec_evrRingWrite_bank {w : RingOutcome} {e : Event} {l : List Event} {s : State} (hf : s.dev.evr.fifo = e :: l)
    (hd : s.dev.evr.drops.all (· == 0) = true) (hp : s.dev.get F.EVR_PAGES_RETIRED = 0xFFFF) :
    exec (.evrRingWrite w) s = .next { s with dev := (s.dev.ringTaken e).toBank e 1 } := by
  have kept : s.dev.fifoPop.lostRecord = s.dev.fifoPop := Dev.lostRecord_none hd
  have none_healthy : s.dev.anyPage = false := by simp [Dev.anyPage, hp]
  simp only [exec, execEvrRingWrite, Dev.ringWrite, hf, none_healthy, State.onDev, Bool.not_false, if_true, kept]
  rfl

/-- The event stands in slot i with the next SEQ, which HEAD shows, and the ring goes on behind it. -/
theorem Dev.slotWrite_shows (d : Dev) (i : Nat) (e : Event) :
    (d.slotWrite i e).evr = { d.evr with slots := tput d.evr.slots i ⟨e, d.evr.nextSeq, false⟩, wr := (i + 1) % ringSlots, nextSeq := d.evr.nextSeq + 1 } ∧
    (d.slotWrite i e).get F.EVR_HEAD_SEQ = d.evr.nextSeq.toNat ∧ regsKeep [F.EVR_HEAD_SEQ, F.EVR_OLDEST_SEQ] d (d.slotWrite i e) := by
  have oldest := Dev.ringOldest_evr
  refine ⟨?_, (Dev.get_put_self _ _ _).trans (Nat.mod_eq_of_lt d.evr.nextSeq.isLt), ?_⟩
  · unfold Dev.slotWrite Dev.slotPut
    simp only [Dev.put_evr, oldest]
  · unfold Dev.slotWrite Dev.slotPut
    have placed : regsKeep [F.EVR_OLDEST_SEQ] d
        (({ d with evr := { d.evr with slots := tput d.evr.slots i ⟨e, d.evr.nextSeq, false⟩, wr := (i + 1) % ringSlots } } : Dev).ringOldest) :=
      regsKeep_trans (regsKeep_of_regs rfl) (Dev.ringOldest_keeps _)
    exact regsKeep_trans (regsKeep_mono placed (by simp)) (regsKeep_trans (regsKeep_of_regs rfl) (regsKeep_put _ F.EVR_HEAD_SEQ _ (by simp)))

/-- LASTGASP stands already: the record joins the bank with the next SEQ. -/
theorem Dev.toBank_gasping {d : Dev} (hg : d.get F.EVR_STAT_LASTGASP ≠ 0) (hb : d.evr.bank.length < 8) (e : Event) (cause : Nat) :
    (d.toBank e cause).evr = { d.evr with bank := d.evr.bank ++ [⟨e, d.evr.nextSeq, false⟩], nextSeq := d.evr.nextSeq + 1 } := by
  unfold Dev.toBank Dev.bankAdd
  simp only [Dev.flag_eq, bne_iff_ne, ne_eq, hg, not_false_eq_true, if_true, hb, Dev.put_evr]

/-! ## The freeze (R383) -/

theorem exec_freezeExpire_free {s : State} (h : s.dev.get F.EVR_STAT_FROZEN = 0) : exec .freezeExpire s = .next s := by
  simp [exec, execFreezeExpire, Dev.unfreeze, Dev.frozen, h, State.onDev]

/-- The freeze is over, before its event. -/
def Dev.thawed (d : Dev) : Dev := (d.put F.EVR_STAT_FROZEN 0).put F.EVR_CTRL_FREEZE 0

theorem exec_freezeExpire_frozen {s : State} (h : s.dev.get F.EVR_STAT_FROZEN ≠ 0) : exec .freezeExpire s =
    .next { s with dev := s.dev.thawed.raise 0x0D04 0x0C 0 1 ((elapsed64 s.dev.time s.dev.evr.freezeAt) / 1000) 0 } := by
  have frozen : s.dev.frozen = true := by simpa [Dev.frozen] using h
  simp only [exec, execFreezeExpire, Dev.unfreeze, frozen, if_true, State.onDev]
  rfl

/-- Settles O58: an event goes to the slot, waits or goes to the bank, and the freeze ends with its event. -/
theorem ringTakesTheOldest : Obligations.RingTakesTheOldest := by
  refine ⟨fun _ _ => exec_evrRingWrite_empty, fun _ _ => exec_evrRingWrite_waits, ?_, ?_, ?_, fun _ => exec_freezeExpire_free⟩
  · intro e l i s hf hd hp hn
    obtain ⟨evr, head, kept⟩ := (s.dev.ringTaken e).slotWrite_shows i e
    have frame := s.dev.ringTaken_eq e
    have before : (s.dev.ringTaken e).evr = { s.dev.evr with fifo := l } := by rw [frame, hf]; rfl
    rw [before] at evr head
    refine ⟨_, exec_evrRingWrite_slot hf hd hp hn, ?_, ?_, ?_, head, ?_, ?_, regsKeep_trans (regsKeep_of_regs (by rw [frame])) kept, rfl⟩
    · exact (congrArg Evr.fifo evr :)
    · exact (congrArg (fun x => tfind x.slots i) evr).trans (tfind_tput_self ..)
    · exact (congrArg Evr.nextSeq evr :)
    · exact (congrArg Evr.wr evr :)
    · exact (congrArg Evr.bank evr :)
  · intro w e l s hf hd hp hg hb
    have frame := s.dev.ringTaken_eq e
    have before : (s.dev.ringTaken e).evr = { s.dev.evr with fifo := l } := by rw [frame, hf]; rfl
    have same : (s.dev.ringTaken e).get F.EVR_STAT_LASTGASP = s.dev.get F.EVR_STAT_LASTGASP := Dev.get_congr _ (by rw [frame])
    have evr := Dev.toBank_gasping (d := s.dev.ringTaken e) (by rw [same]; exact hg) (by rw [before]; exact hb) e 1
    rw [before] at evr
    refine ⟨_, exec_evrRingWrite_bank hf hd hp, ?_, ?_, ?_, ?_, rfl⟩
    · exact (congrArg Evr.fifo evr :)
    · exact (congrArg Evr.bank evr :)
    · exact (congrArg Evr.nextSeq evr :)
    · exact (congrArg Evr.slots evr :)
  · intro s h
    refine ⟨_, exec_freezeExpire_frozen h, ?_, ?_, ?_, ?_⟩
    · exact (Dev.get_raise _ _ _ _ _ _ _ _ (by decide)).trans ((Dev.get_put_ne _ _ _ _ (by decide)).trans (Dev.get_put_self _ _ _))
    · exact (Dev.get_raise _ _ _ _ _ _ _ _ (by decide)).trans (Dev.get_put_self _ _ _)
    · exact (Dev.put_raise_evr _ _ _ _ _ _ _ _ _ (by decide)).trans (Dev.put_raise_evr _ _ _ _ _ _ _ _ _ (by decide))
    · exact ((((Dev.RegsRec.refl s.dev).put _ (by decide)).put _ (by decide)).raise _ _ _ _ _ _).onlyRegsRec

/-! ## LOG_FETCH (R387) -/

theorem exec_logFetch_param {tag start count : Word} {addr : DWord} {s : State} (h : s.dev.mayRun .flash 0x50 tag = true)
    (hs : s.dev.sys.sup ≠ .halted) (hc : count = 0 ∨ 65536 < count.toNat) :
    exec (.logFetch tag start count addr) s = .next (s.onDev (fun d => d.finish .flash 0x50 tag Res.param.code 0)) := by
  have refused : (!(aligned16 addr) || count == 0 || decide (65536 < count.toNat)) = true := by
    rcases hc with hc | hc
    · simp [hc]
    · simp [hc]
  simp only [exec, execLogFetch, State.command_runs s _ _ _ _ h hs, State.logFetch, refused, if_true]

/-- The result and value of a LOG_FETCH whose count and address are in range. -/
def Dev.fetchResult (d : Dev) (start count : Word) : Res × DWord :=
  if d.flag F.EVR_STAT_FLASH_FAIL then (.flashFail, BitVec.ofNat 64 (recordsFrom d.logRecords start count.toNat).length)
  else match oldestSeq d.logRecords with
    | some q => if later32 q start then (.range, BitVec.ofNat 64 q.toNat)
        else (.ok, BitVec.ofNat 64 (recordsFrom d.logRecords start count.toNat).length)
    | none => (.ok, 0)

theorem exec_logFetch_answers {tag start count : Word} {addr : DWord} {s : State} (h : s.dev.mayRun .flash 0x50 tag = true)
    (hs : s.dev.sys.sup ≠ .halted) (ha : aligned16 addr = true) (h0 : count ≠ 0) (hn : count.toNat ≤ 65536) {r : Res} {v : DWord}
    (hr : s.dev.fetchResult start count = (r, v)) : exec (.logFetch tag start count addr) s =
      .next ((s.writeRecs 0x5B addr.toNat (recordsFrom s.dev.logRecords start count.toNat)).onDev (fun d => d.finish .flash 0x50 tag r.code v)) := by
  have taken : (!(aligned16 addr) || count == 0 || decide (65536 < count.toNat)) = false := by
    have counted : (count == 0) = false := beq_false_of_ne h0
    rw [ha, counted, decide_eq_false (by omega)]
    rfl
  have result : s.logFetch start count addr =
      (s.writeRecs 0x5B addr.toNat (recordsFrom s.dev.logRecords start count.toNat), s.dev.fetchResult start count) := by
    unfold State.logFetch
    simp only [taken, Bool.false_eq_true, if_false]
    rfl
  simp only [exec, execLogFetch, State.command_runs s _ _ _ _ h hs, result, hr]

theorem recBytes_length (r : Rec) : (recBytes r).length = 32 := by simp [recBytes, recBody]

theorem State.writeRecs_one (s : State) (src a : Nat) (r : Rec) : s.writeRecs src a [r] = (s.dramWrite src a (recBytes r)).1 := by
  rw [State.writeRecs, State.writeRecs]

/-- Bytes written where all of them are present: they lie there, and every other byte is as it was. -/
theorem State.dramWrite_mem_read {s : State} {a n : Nat} {bs : List Byte} (src : Nat) (len : bs.length = n) (hb : s.dev.beyond a n = false)
    (hg : s.dev.goneAt a n = none) (k : Nat) :
    (s.dramWrite src a bs).1.mem.read k = if a ≤ k ∧ k < a + n then bs.getD (k - a) 0 else s.mem.read k := by
  subst len
  have lands := State.dramWrite_present (s := s) (w := { src := src, addr := a, data := bs }) ⟨hb, hg⟩
  exact (congrArg (fun t => t.mem.read k) lands).trans (s.mem.writeBytes_read a k bs)

/-! ## Persistence (R384, R385) -/

/-- Persistence runs (R384): it is on, the scan has ended, the flash has not failed and the supervisor runs. -/
def Dev.persistRuns (d : Dev) : Prop :=
  d.get F.EVR_CTRL_PERSIST ≠ 0 ∧ d.get F.EVR_STAT_FLASH_READY ≠ 0 ∧ d.get F.EVR_STAT_FLASH_FAIL = 0 ∧ d.sys.sup = .running

theorem exec_flashPersist_idle {o : FlashOutcome} {s : State} (h : ¬ s.dev.persistRuns ∨ earliest 8 s.dev.unpersisted = []) :
    exec (.flashPersist o) s = .next s := by
  by_cases runs : s.dev.persistRuns
  · obtain ⟨hp, hr, hf, hs⟩ := runs
    have group : earliest 8 s.dev.unpersisted = [] := h.resolve_left (not_not_intro ⟨hp, hr, hf, hs⟩)
    simp [exec, execFlashPersist, Dev.flashPersist, State.onDev, hp, hr, hf, hs, group]
  · have off : (!(s.dev.flag F.EVR_CTRL_PERSIST) || !(s.dev.flag F.EVR_STAT_FLASH_READY) || s.dev.flag F.EVR_STAT_FLASH_FAIL ||
        decide (s.dev.sys.sup ≠ .running)) = true := by
      unfold Dev.persistRuns at runs
      simp only [Dev.flag_eq, Bool.or_eq_true, Bool.not_eq_true', bne_eq_false_iff_eq, bne_iff_ne, decide_eq_true_eq]
      tauto
    simp only [exec, execFlashPersist, Dev.flashPersist, off, if_true, State.onDev]

theorem exec_flashPersist_noAnswer {s : State} (h : s.dev.persistRuns) (hg : earliest 8 s.dev.unpersisted ≠ []) :
    exec (.flashPersist .noAnswer) s = .next { s with dev := s.dev.flashFailed 1 } := by
  obtain ⟨hp, hr, hf, hs⟩ := h
  obtain ⟨r, rs, group⟩ := List.exists_cons_of_ne_nil hg
  simp [exec, execFlashPersist, Dev.flashPersist, State.onDev, hp, hr, hf, hs, group]

/-- The log with a group of records behind those of the current sector. -/
def LogFlash.appended (f : LogFlash) (grp : List Rec) : LogFlash :=
  { f with sectors := tput f.sectors f.cur { f.sector f.cur with recs := (f.sector f.cur).recs ++ grp } }

/-- The ring and the bank with the records of a group marked. -/
def Evr.marked (r : Evr) (grp : List Rec) : Evr :=
  { r with
    slots := r.slots.map (fun (x : Nat × Rec) => (x.1, markPersisted (grp.map (·.seq)) x.2))
    bank := r.bank.map (markPersisted (grp.map (·.seq))) }

/-- The device once a group of records is in the current sector and marked, before its registers follow. -/
def Dev.groupKept (d : Dev) (grp : List Rec) : Dev := { d with logFlash := d.logFlash.appended grp, evr := d.evr.marked grp }

/-- PERSIST_SEQ and FLASH_OLDEST follow the group. -/
def Dev.groupShown (d : Dev) (grp : List Rec) : Dev :=
  (match newestSeq grp with
    | some q => d.put F.EVR_PERSIST_SEQ q.toNat
    | none => d).flashOldest

theorem Dev.groupShown_regsOnly (d : Dev) (grp : List Rec) : d.RegsOnly [F.EVR_PERSIST_SEQ, F.EVR_FLASH_OLDEST_SEQ] (d.groupShown grp) := by
  have oldest : ∀ e : Dev, e.RegsOnly [F.EVR_PERSIST_SEQ, F.EVR_FLASH_OLDEST_SEQ] e.flashOldest := fun e =>
    ⟨e.flashOldest_regsOnly.frame, regsKeep_mono e.flashOldest_regsOnly.keeps (by simp)⟩
  unfold Dev.groupShown
  split
  · exact ((Dev.RegsOnly.refl d).put (by simp) _).trans (oldest _)
  · exact oldest d

theorem earliest_length (n : Nat) : ∀ l : List Rec, (earliest n l).length ≤ n := by
  induction n with
  | zero => exact fun _ => Nat.le_refl _
  | succ n ih =>
    intro l
    unfold earliest
    split
    · exact Nat.zero_le _
    · split
      · exact Nat.succ_le_succ (ih _)
      · exact Nat.zero_le _

theorem exec_flashPersist_good {s : State} (h : s.dev.persistRuns) (hg : earliest 8 s.dev.unpersisted ≠ [])
    (hn : s.dev.logFlash.needSector = false) (hroom : (s.dev.logFlash.sector s.dev.logFlash.cur).recs.length + 8 ≤ 2047) :
    let grp := (earliest 8 s.dev.unpersisted).map (fun (r : Rec) => { r with persisted := true })
    exec (.flashPersist .good) s = .next { s with dev := (s.dev.groupKept grp).groupShown grp } := by
  obtain ⟨hp, hr, hf, hs⟩ := h
  obtain ⟨r, rs, group⟩ := List.exists_cons_of_ne_nil hg
  have short := earliest_length 8 s.dev.unpersisted
  have all : (r :: rs).take (sectorSlots - (s.dev.logFlash.sector s.dev.logFlash.cur).recs.length) = r :: rs :=
    List.take_of_length_le (by rw [← group]; unfold sectorSlots; omega)
  have runs : (!(s.dev.flag F.EVR_CTRL_PERSIST) || !(s.dev.flag F.EVR_STAT_FLASH_READY) || s.dev.flag F.EVR_STAT_FLASH_FAIL ||
      decide (s.dev.sys.sup ≠ .running)) = false := by simp [hp, hr, hf, hs]
  simp only [exec, execFlashPersist, Dev.flashPersist, runs, group, hn, all, State.onDev, Bool.false_eq_true, if_false]
  rfl

/-- A record of a kept sequence is marked. -/
theorem markPersisted_kept {qs : List Word} {r : Rec} (h : r.seq ∈ qs) : markPersisted qs r = { r with persisted := true } := by
  unfold markPersisted
  rw [if_pos (by simpa using h)]

/-- Settles O59: LOG_FETCH answers by the count, the flash and the oldest record; a group goes to the sector and is marked; the scan ends once. -/
theorem logFlashPersistsAndFetches : Obligations.LogFlashPersistsAndFetches := by
  refine ⟨fun tag start count addr s h hs ha => ⟨exec_logFetch_param h hs, ?_, ?_, ?_⟩, ?_, ?_, fun _ _ => exec_logFlashScan_done, ?_⟩
  · intro h0 hn hf
    exact exec_logFetch_answers h hs ha h0 hn (by simp [Dev.fetchResult, hf])
  · intro q h0 hn hf hq
    refine ⟨fun hl => ?_, fun hl => ?_⟩
    · exact exec_logFetch_answers h hs ha h0 hn (by simp [Dev.fetchResult, hf, hq, hl])
    · exact exec_logFetch_answers h hs ha h0 hn (by simp [Dev.fetchResult, hf, hq, hl])
  · intro r hr hb hg k
    rw [hr, State.writeRecs_one]
    exact State.dramWrite_mem_read 0x5B (recBytes_length r) hb hg k
  · intro o s h
    refine exec_flashPersist_idle ?_
    unfold Dev.persistRuns
    tauto
  · intro s hp hr hf hs hg
    refine ⟨⟨_, exec_flashPersist_noAnswer ⟨hp, hr, hf, hs⟩ hg, ?_⟩, fun hn hroom => ⟨_, exec_flashPersist_good ⟨hp, hr, hf, hs⟩ hg hn hroom, ?_⟩⟩
    · rw [Dev.flashFailed_first hf]
      refine ⟨?_, ?_, Dev.attn_bit _ .recorder, ?_⟩
      · exact (Dev.get_put_ne _ _ _ _ (by decide)).trans ((Dev.get_raise _ _ _ _ _ _ _ _ (by decide)).trans (Dev.get_put_self _ _ _))
      · exact Dev.put_raise_evr _ _ _ _ _ _ _ _ _ (by decide)
      · exact ((((Dev.RegsRec.refl s.dev).put _ (by decide)).raise _ _ _ _ _ _).attn _).onlyRegsRec
    · generalize hgrp : (earliest 8 s.dev.unpersisted).map (fun (r : Rec) => { r with persisted := true }) = grp
      have shown := (s.dev.groupKept grp).groupShown_regsOnly grp
      have log : ((s.dev.groupKept grp).groupShown grp).logFlash = (s.dev.groupKept grp).logFlash := by rw [shown.frame]
      have evr : ((s.dev.groupKept grp).groupShown grp).evr = (s.dev.groupKept grp).evr := by rw [shown.frame]
      refine ⟨?_, ?_, ?_, rfl, regsKeep_trans (regsKeep_of_regs rfl) shown.keeps⟩
      · exact (congrArg (fun f => (f.sector s.dev.logFlash.cur).recs) log).trans (congrArg LogSector.recs (tget_tput_self ..))
      · rintro i r hi ⟨g, hg, hq⟩
        have kept : r.seq ∈ grp.map (·.seq) := by
          rw [← hgrp, List.map_map]
          exact List.mem_map.mpr ⟨g, hg, hq⟩
        have marked : (i, markPersisted (grp.map (·.seq)) r) ∈ (s.dev.groupKept grp).evr.slots := List.mem_map_of_mem hi
        rw [markPersisted_kept kept, ← evr] at marked
        exact marked
      · exact (congrArg Evr.fifo evr :)
  · intro s hr hf
    refine ⟨⟨_, exec_logFlashScan_answers hr hf, ?_, ?_, fun q hq => ?_, ?_, rfl⟩, ⟨_, exec_logFlashScan_fails hr hf, ?_, ?_, ?_, rfl⟩⟩
    · exact (Dev.get_recordReset _ _ (by decide)).trans ((Dev.get_raise _ _ _ _ _ _ _ _ (by decide)).trans s.dev.scanFound_ready)
    · exact (Dev.get_recordReset _ _ (by decide)).trans ((Dev.get_raise _ _ _ _ _ _ _ _ (by decide)).trans ((s.dev.scanFound_keeps _ (by decide)).trans hf))
    · have highest : s.dev.logFlash.highest = q := by simp [LogFlash.highest, hq]
      exact (Dev.get_recordReset _ _ (by decide)).trans
        ((Dev.get_raise _ _ _ _ _ _ _ _ (by decide)).trans (s.dev.scanFound_persist.trans (congrArg BitVec.toNat highest)))
    · exact (Dev.raise_logFlash _ _ _ _ _ _ _).trans ((Dev.raise_logFlash _ _ _ _ _ _ _).trans (congrArg Dev.logFlash s.dev.scanFound_eq :))
    · exact (Dev.get_recordReset _ _ (by decide)).trans ((s.dev.scanFailed_regsRec.keeps _ (by decide)).trans hr)
    · exact (Dev.get_recordReset _ _ (by decide)).trans s.dev.scanFailed_fail
    · exact Dev.raise_keeps_recorder (Dev.attn_bit _ .recorder) _ _ _ _ _ _

end Sys2Proof.Machine

/-! # The DRAM controller (12_memory.md R325 to R334)

What the fixed mode reports (O46), and the state on which the loss of a channel does not last (O47). -/

namespace Sys2Proof.Machine

open Sys2Proof.Safety

/-! ## The fixed mode (R327) -/

section
variable {c : Ch} {s : State} (hf : s.dev.get F.DDR_CTRL_FIXED ≠ 0)
include hf

theorem exec_retrainStep_fixed (ok : Bool) (uv : Nat) (ppb : Int) : exec (.retrainStep c ok uv ppb) s = .next s := by
  have fixed : s.dev.flag F.DDR_CTRL_FIXED = true := by simpa using hf
  simp only [exec, execRetrainStep, Dev.retrainStep, fixed, Bool.not_true, Bool.and_false, Bool.false_and, Bool.false_eq_true, if_false, State.onDev]

/-- A check in fixed mode that finds nothing, comes in no pause, or is not due. -/
theorem exec_retrainCheck_fixed_quiet {moved : Bool} {drift : Nat}
    (h : drift ≤ 8 ∨ s.dev.ddrPause = false ∨ s.dev.checkDue c.val moved = false) : exec (.retrainCheck c moved drift) s = .next s := by
  have fixed : s.dev.flag F.DDR_CTRL_FIXED = true := by simpa using hf
  by_cases runs : (s.dev.get (F.DDR_CHc_STAT_STATE c.val) != 2 || !s.dev.background || !(s.dev.checkDue c.val moved)) = true
  · simp only [exec, execRetrainCheck, Dev.retrainCheck, runs, if_true, State.onDev]
  · have due : s.dev.checkDue c.val moved = true := by
      by_contra q
      exact runs (by simp [q])
    have quiet : (s.dev.ddrPause && decide (8 < drift)) = false := by
      rcases h with h | h | h
      · simp [h]
      · simp [h]
      · rw [due] at h
        cases h
    simp only [exec, execRetrainCheck, Dev.retrainCheck, runs, fixed, quiet, Bool.false_eq_true, if_false, if_true, State.onDev]

/-- The device once channel c's drift is noted for the first time. -/
def Dev.driftRecorded (d : Dev) (c drift : Nat) : Dev :=
  ((d.put F.DDR_STAT_DRIFT 1).free.2.raise 0x0807 0x05 2 c ((d.put F.DDR_STAT_DRIFT 1).free.1 % 2 ^ 32) drift).updCh c
    (fun x => { x with driftNoted := true, checkAt := d.time })

/-- A check that is due in a pause and finds a drift. -/
theorem exec_retrainCheck_fixed_drift {moved : Bool} {drift : Nat} (hst : s.dev.get (F.DDR_CHc_STAT_STATE c.val) = 2) (hb : s.dev.background = true)
    (hd : s.dev.checkDue c.val moved = true) (hp : s.dev.ddrPause = true) (h8 : 8 < drift) : exec (.retrainCheck c moved drift) s =
    .next { s with dev := if (tget ddrCh0 s.dev.ddr.ch c.val).driftNoted then s.dev.put F.DDR_STAT_DRIFT 1 else s.dev.driftRecorded c.val drift } := by
  have fixed : s.dev.flag F.DDR_CTRL_FIXED = true := by simpa using hf
  have runs : (s.dev.get (F.DDR_CHc_STAT_STATE c.val) != 2 || !s.dev.background || !(s.dev.checkDue c.val moved)) = false := by simp [hst, hb, hd]
  have reports : (s.dev.ddrPause && decide (8 < drift)) = true := by simp [hp, h8]
  simp only [exec, execRetrainCheck, Dev.retrainCheck, runs, fixed, reports, Bool.false_eq_true, if_false, if_true, State.onDev]
  rfl

end

theorem Dev.driftRecorded_frame (d : Dev) (c drift : Nat) : d.driftRecorded c drift =
    { d with regs := (d.driftRecorded c drift).regs, evr := (d.driftRecorded c drift).evr, freeCtr := (d.driftRecorded c drift).freeCtr,
             ddr := { d.ddr with ch := tput d.ddr.ch c { tget ddrCh0 d.ddr.ch c with driftNoted := true, checkAt := d.time } } } := by
  unfold Dev.driftRecorded Dev.updCh
  rw [Dev.raise_eq]
  rfl

theorem Dev.driftRecorded_keeps (d : Dev) (c drift : Nat) : regsKeep (recFlds ++ [F.DDR_STAT_DRIFT]) d (d.driftRecorded c drift) :=
  regsKeep_trans (regsKeep_put d F.DDR_STAT_DRIFT 1 (by decide))
    (regsKeep_trans (b := (d.put F.DDR_STAT_DRIFT 1).free.2) (regsKeep_of_regs rfl)
      (regsKeep_trans (regsKeep_raise _ _ _ _ _ _ _ (fun _ h => List.mem_append_left _ h)) (regsKeep_of_regs rfl)))

/-- Settles O46: in fixed mode no step is taken, and a drift is shown, and recorded once for its channel. -/
theorem fixedModeOnlyReports : Obligations.FixedModeOnlyReports := by
  intro c s hf
  refine ⟨exec_retrainStep_fixed hf, fun _ _ => exec_retrainCheck_fixed_quiet hf, fun moved drift hst hs hw hq hm h8 => ?_⟩
  have pause : s.dev.ddrPause = true := by
    have none_waits : s.dev.ddr.waiting.any (fun w => w.cls == 0) = false := by
      rw [List.any_eq_false]
      exact fun w h => by simpa using hw w h
    rcases hq with hq | hq
    · simp [Dev.ddrPause, none_waits, hq]
    · simp [Dev.ddrPause, none_waits, hq]
  have due : s.dev.checkDue c.val moved = true := by
    rcases hm with hm | hm
    · simp [Dev.checkDue, hm]
    · simp [Dev.checkDue, hm]
  have step := exec_retrainCheck_fixed_drift hf hst (decide_eq_true hs) due pause h8
  cases noted : (tget ddrCh0 s.dev.ddr.ch c.val).driftNoted with
  | true =>
    rw [noted, if_pos rfl] at step
    exact ⟨_, 0, step, Dev.get_put_self _ _ _, noted, fun _ => rfl, fun h => (nomatch h), fun _ _ => rfl, rfl, regsKeep_put _ F.DDR_STAT_DRIFT _ (by decide)⟩
  | false =>
    rw [noted, if_neg Bool.false_ne_true] at step
    have frame := s.dev.driftRecorded_frame c.val drift
    have ch : (s.dev.driftRecorded c.val drift).ddr.ch =
        tput s.dev.ddr.ch c.val { tget ddrCh0 s.dev.ddr.ch c.val with driftNoted := true, checkAt := s.dev.time } := by rw [frame]
    refine ⟨_, (s.dev.put F.DDR_STAT_DRIFT 1).free.1 % 2 ^ 32, step, ?_, ?_, fun h => (nomatch h), fun _ => ?_, fun e he => ?_, ?_,
      s.dev.driftRecorded_keeps c.val drift⟩
    · exact (Dev.get_raise _ _ _ _ _ _ _ _ (by decide)).trans (Dev.get_put_self _ _ _)
    · exact (congrArg (fun l => (tget ddrCh0 l c.val).driftNoted) ch).trans (congrArg DdrCh.driftNoted (tget_tput_self ..))
    · exact Dev.raise_evr_congr _ _ _ _ _ _ _ _ rfl rfl (Dev.get_put_ne s.dev F.DDR_STAT_DRIFT F.EVR_STAT_LASTGASP 1 (by decide))
    · exact (congrArg (fun l => tget ddrCh0 l e) ch).trans (tget_tput_ne _ _ _ _ _ (Ne.symm he))
    · show State.mk _ _ _ = State.mk _ _ _
      rw [frame]

/-! ## A loss that does not last (R263, R328, R334)

The statement ranges over every state, also one whose list of fault entries names an entry that the fault table does not have. The loss of a channel
that alone holds a bed writes a fault of its own (R334). With all 64 entries in use two of the list are merged, and the fault takes the place of the
newer one; the place of entry 16,264 would be that of the channel's status register. -/

/-- A read of 64 bytes at address 0 that waits. -/
def lostRead : DdrWait := { id := 0, req := { src := 0, addr := 0, wr := none, len := 64 }, cls := 0, since := 0 }

/-- After reset, with 2 GB at DRAM channel 0, a sealed bed of one page at address 0, `lostRead` waiting, and a full fault table whose list names entries 0
and 16,264. -/
def farEntry : State := State.reset.onDev (fun d => { d with
  regs := [((F.DDR_CHc_STAT_CAP 0).key, 2), ((F.BED_BUFn_STAT_STATE 0).key, 2), ((F.BED_BUFn_SIZE_SIZE 0).key, 1),
    (F.HND_FT_VALID0_VALID.key, 2 ^ 32 - 1), (F.HND_FT_VALID1_VALID.key, 2 ^ 32 - 1)]
  hnd := { d.hnd with order := [0, 16264] }
  ddr := { d.ddr with waiting := [lostRead] } })

/-- The place of the class of entry 16,264 is that of the state of DRAM channel 0. -/
theorem farEntry_place : (F.HND_FTk_INFO_CLASS 16264).key = (F.DDR_CHc_STAT_STATE 0).key := by decide

theorem farEntry_served : exec (.dramRequest none .caParity) farEntry = .next (farEntry.serveNext lostRead .caParity) := rfl

/-- The CA parity alert has lost channel 0, and the fault's class 6 stands where its state 5 was. -/
theorem farEntry_state : (farEntry.serveNext lostRead .caParity).dev.get (F.DDR_CHc_STAT_STATE 0) = 6 := by decide +kernel

/-- Refutes O47: its clause on a CA parity alert lets the channel that served the access stay LOST (5), but from `farEntry` the state of channel 0
reads 6 once the request is served. -/
theorem not_dramRequestsServed : ¬ Obligations.DramRequestsServed := by
  intro h
  obtain ⟨-, -, -, serves, -⟩ := h
  obtain ⟨-, -, loses⟩ := serves .caParity [] [] lostRead farEntry rfl (by simp) (by simp) (by simp)
  have serving : farEntry.dev.serving lostRead.req.addr.toNat = 0 := by decide
  rw [serving] at loses
  obtain ⟨t, ht, -, lost, -⟩ := loses (.inl rfl) (by decide)
  obtain rfl := Host.Outcome.next.inj (farEntry_served.symm.trans ht)
  exact absurd (farEntry_state.symm.trans lost) (by decide)

end Sys2Proof.Machine

/-! # Hardware shutdowns (13_thermal.md R347; 09_handoff.md R263)

The statement ranges over every state, also one whose list of fault entries names an entry that the fault table does not have (as for O47). -/

namespace Sys2Proof.Machine

open Sys2Proof.Safety

/-- A shutdown of beam 0 at T-tick 0 that waits for its report. -/
def waitingShutdown : ThmBeam := { thmBeam0 with report := some { input := 0, reading := 0, tick := 0 } }

/-- After reset, with port 0 in service, five shutdowns counted, `waitingShutdown` on beam 0, and a full fault table whose list names entries 0 and 24,448. -/
def farShutdown : State := State.reset.onDev (fun d => { d with
  regs := [(F.THM_SHUTDOWNS_COUNT.key, 5), ((F.HND_Pn_STAT_STATE 0).key, 0), (F.HND_FT_VALID0_VALID.key, 2 ^ 32 - 1), (F.HND_FT_VALID1_VALID.key, 2 ^ 32 - 1)]
  hnd := { d.hnd with order := [0, 24448] }
  thm := { d.thm with beams := [(0, waitingShutdown)] } })

/-- The place of the ports of entry 24,448 is that of the count of shutdowns. -/
theorem farShutdown_place : (F.HND_FTk_PORTS_PORTS 24448).key = F.THM_SHUTDOWNS_COUNT.key := by decide

theorem farShutdown_reported : exec (.shutdownReport 0) farShutdown = .next (farShutdown.runDev (fun d m => d.shutdownReport m 0)) := rfl

/-- The sixth shutdown is counted, and then the mask of port 0 stands where the count was. -/
theorem farShutdown_count : (farShutdown.runDev (fun d m => d.shutdownReport m 0)).dev.get F.THM_SHUTDOWNS_COUNT = 1 := by decide +kernel

/-- Refutes O49: its clause on the report of a shutdown lets THM_SHUTDOWNS rise by one, but from `farShutdown` it goes from 5 to 1, since the new fault
takes the place of the newer of two merged entries, which the list gives as entry 24,448. -/
theorem not_sensorsLatchesAndShutdowns : ¬ Obligations.SensorsLatchesAndShutdowns := by
  intro h
  obtain ⟨-, ports⟩ := h
  obtain ⟨-, reported, -⟩ := ports 0 farShutdown
  obtain ⟨t, ht, -, count, -⟩ := reported { input := 0, reading := 0, tick := 0 } (by decide) (by decide) (.inl (by decide)) (by decide) (by decide)
  obtain rfl := Host.Outcome.next.inj (farShutdown_reported.symm.trans ht)
  have five : farShutdown.dev.get F.THM_SHUTDOWNS_COUNT = 5 := by decide
  rw [farShutdown_count, five] at count
  exact absurd count (by decide)

end Sys2Proof.Machine

/-! # Bed lighting (14_bed_lighting.md R355 to R362)

A frame begins, takes the lamp-board reading and, where one is asked for, the transfer; a line slot notes the columns that fail and then drives the line or
turns it off. -/

namespace Sys2Proof.Machine

open Sys2Proof.Safety

/-! ## A frame begins (R355, R360) -/

/-- The lighting state of a frame that begins now. -/
def Dev.ledBegun (d : Dev) : Led :=
  { d.led with light := d.lightNow, frame := some (d.tick, d.time), enAt := none, begun := true, drive := none }

/-- The device once a frame has begun, before its lamp-board reading. -/
def Dev.frameBegun (d : Dev) : Dev :=
  let d1 := d.put F.LED_STAT_FITTED 1
  { (if d.led.begun then d1.bumpWrap F.LED_FRAME_COUNT else d1).put F.LED_STAT_RUN 1 with led := d.ledBegun }

theorem Dev.frameBegun_frame (d : Dev) : d.frameBegun = { d with regs := d.frameBegun.regs, led := d.ledBegun } := by
  unfold Dev.frameBegun
  cases d.led.begun <;> rfl

theorem Dev.frameBegun_run (d : Dev) : d.frameBegun.get F.LED_STAT_RUN = 1 := Dev.get_put_self ..

theorem Dev.frameBegun_fitted (d : Dev) : d.frameBegun.get F.LED_STAT_FITTED = 1 := by
  refine (Dev.get_put_ne _ _ _ _ (by decide)).trans ?_
  have shown : (d.put F.LED_STAT_FITTED 1).get F.LED_STAT_FITTED = 1 := Dev.get_put_self ..
  split
  · exact (Dev.get_put_ne _ _ _ _ (by decide)).trans shown
  · exact shown

theorem Dev.frameBegun_count (d : Dev) : d.frameBegun.get F.LED_FRAME_COUNT =
    (if d.led.begun then (d.get F.LED_FRAME_COUNT + 1) % 2 ^ F.LED_FRAME_COUNT.width else d.get F.LED_FRAME_COUNT) := by
  have before : (d.put F.LED_STAT_FITTED 1).get F.LED_FRAME_COUNT = d.get F.LED_FRAME_COUNT := Dev.get_put_ne _ _ _ _ (by decide)
  refine (Dev.get_put_ne _ _ _ _ (by decide)).trans ?_
  split
  · exact (Dev.get_put_self _ _ _).trans (by rw [before])
  · exact before

/-- The registers that a frame's beginning sets. -/
def frameFlds : List Fld := [F.LED_STAT_FITTED, F.LED_FRAME_COUNT, F.LED_STAT_RUN]

theorem Dev.frameBegun_keeps (d : Dev) : regsKeep frameFlds d d.frameBegun := by
  have fitted : regsKeep frameFlds d (d.put F.LED_STAT_FITTED 1) := regsKeep_put _ _ _ (by decide)
  have run : ∀ e : Dev, regsKeep frameFlds e ({ e.put F.LED_STAT_RUN 1 with led := d.ledBegun }) := fun e =>
    regsKeep_trans (regsKeep_put e F.LED_STAT_RUN 1 (by decide)) (regsKeep_of_regs rfl)
  refine regsKeep_trans fitted (regsKeep_trans ?_ (run _))
  split
  · exact regsKeep_put _ _ _ (by decide)
  · exact regsKeep_refl _ _

/-! ## The lamp-board reading and the transfer (R357 to R359) -/

/-- The registers that the lamp-board reading sets. -/
def readingFlds : List Fld := [F.LED_TEMP_TEMP, F.LED_STAT_COMP_STALE]

theorem Dev.lampHeld_regsRec (d : Dev) (t : Nat) (held : Int) : d.RegsRec readingFlds (d.lampHeld t held) := by
  unfold Dev.lampHeld
  split
  · exact ((Dev.RegsRec.refl d).put _ (by decide)).raise _ _ _ _ _ _
  · exact .refl d

theorem Dev.ledReading_regsRec (d : Dev) : d.RegsRec readingFlds d.ledReading := by
  unfold Dev.ledReading
  dsimp only
  split
  · exact (d.lampHeld_regsRec _ _).put _ (by decide)
  · split
    · exact (((Dev.RegsRec.refl d).put _ (by decide)).put _ (by decide)).raise _ _ _ _ _ _
    · exact (Dev.RegsRec.refl d).put _ (by decide)

/-- The device once a frame has begun with its lamp-board reading. -/
def Dev.frameRead (d : Dev) : Dev := d.frameBegun.ledReading

/-- The drive copy of the staging intensities and compensation factors. -/
def Dev.staged (d : Dev) : Led :=
  { d.led with
    ints := (upTo 384).map (fun i => (i, d.get (F.LED_INTl_c_INT (i / 24) (i % 24))))
    comps := (upTo 64).map (fun i => (i, d.getW (F.LED_COMPg_k_VAL (i / 16) (i % 16)))) }

/-- The registers that a transfer sets, before its event. -/
def Dev.transferShown (d : Dev) : Dev :=
  { ((d.put F.LED_CTRL_APPLY 0).put F.LED_STAT_PEND 0).put F.LED_FRAME_APPLIED (d.get F.LED_FRAME_COUNT) with led := d.staged }

theorem Dev.ledTransfer_eq (d : Dev) : d.ledTransfer =
    d.transferShown.raise 0x0B00 0x0A 0 (d.get F.LED_FRAME_COUNT) (trunc 32 (d.getI F.LED_TEMP_TEMP)) d.tick.toNat := rfl

theorem Dev.ledTransfer_frame (d : Dev) : d.ledTransfer = { d with regs := d.ledTransfer.regs, evr := d.ledTransfer.evr, led := d.staged } := by
  rw [Dev.ledTransfer_eq, Dev.raise_eq]
  rfl

/-- The registers that a transfer sets. -/
def transferFlds : List Fld := [F.LED_CTRL_APPLY, F.LED_STAT_PEND, F.LED_FRAME_APPLIED]

theorem Dev.ledTransfer_keeps (d : Dev) : regsKeep (recFlds ++ transferFlds) d d.ledTransfer := by
  have shown := (((Dev.RegsRec.refl (fs := transferFlds) d).put (G := F.LED_CTRL_APPLY) 0 (by decide)).put (G := F.LED_STAT_PEND) 0 (by decide)).put
    (G := F.LED_FRAME_APPLIED) (d.get F.LED_FRAME_COUNT) (by decide)
  exact regsKeep_trans (b := d.transferShown) (regsKeep_trans shown.keeps (regsKeep_of_regs rfl))
    (regsKeep_raise _ _ _ _ _ _ _ (fun _ h => List.mem_append_left _ h))

theorem Dev.ledTransfer_shows (d : Dev) : d.ledTransfer.get F.LED_CTRL_APPLY = 0 ∧ d.ledTransfer.get F.LED_STAT_PEND = 0 ∧
    d.ledTransfer.get F.LED_FRAME_APPLIED = d.get F.LED_FRAME_COUNT % 2 ^ F.LED_FRAME_APPLIED.width := by
  rw [Dev.ledTransfer_eq]
  refine ⟨?_, ?_, ?_⟩
  · exact (Dev.get_raise _ _ _ _ _ _ _ _ (by decide)).trans ((Dev.get_put_ne _ _ _ _ (by decide)).trans
      ((Dev.get_put_ne _ _ _ _ (by decide)).trans (Dev.get_put_self d F.LED_CTRL_APPLY 0)))
  · exact (Dev.get_raise _ _ _ _ _ _ _ _ (by decide)).trans ((Dev.get_put_ne _ _ _ _ (by decide)).trans (Dev.get_put_self _ F.LED_STAT_PEND 0))
  · exact (Dev.get_raise _ _ _ _ _ _ _ _ (by decide)).trans (Dev.get_put_self _ _ _)

/-- A table of the first n values of a function. -/
theorem tget_upTo {α : Type} (x : α) (f : Nat → α) {n j : Nat} (h : j < n) : tget x ((upTo n).map (fun i => (i, f i))) j = f j := by
  have listed : ∀ l : List Nat, j ∈ l → tget x (l.map (fun i => (i, f i))) j = f j := by
    intro l
    induction l with
    | nil => exact fun q => nomatch q
    | cons i l ih =>
      intro q
      by_cases hi : i = j
      · simp [tget, hi]
      · simp [tget, hi, ih (List.mem_of_ne_of_mem (Ne.symm hi) q)]
  exact listed _ (List.mem_range.mpr h)

/-! ## LED_FRAME_START (R355) -/

theorem exec_ledFrameStart_none {s : State} (h : s.dev.ledDue = false) : exec .ledFrameStart s = .next s := by
  simp only [exec, execLedFrameStart, Dev.ledFrame, h, Bool.false_eq_true, if_false, State.onDev]

theorem exec_ledFrameStart_due {s : State} (h : s.dev.ledDue = true) (hl : byteAt s.dev.lightNow 0 ≠ 0) : exec .ledFrameStart s =
    .next { s with dev := (if s.dev.led.enAt.isSome || s.dev.flag F.LED_CTRL_APPLY then s.dev.frameRead.ledTransfer
      else s.dev.frameRead) } := by
  have fitted : (byteAt s.dev.lightNow 0 != 0) = true := bne_iff_ne.mpr hl
  simp only [exec, execLedFrameStart, Dev.ledFrame, h, fitted, if_true, State.onDev, Bool.not_true, Bool.false_eq_true, if_false]
  unfold Dev.frameRead Dev.frameBegun
  cases s.dev.led.begun <;> rfl

/-- A frame is due 500 T-ticks after the one before, or at the first T-tick after EN landed (R355). -/
theorem Dev.ledDue_of {d : Dev} (hen : d.get F.LED_CTRL_EN ≠ 0) (hrig : d.rigged = true) (hsil : d.sys.edgeSilent = false)
    (hdue : (∃ k u, d.led.frame = some (k, u) ∧ 500 ≤ elapsed32 d.tick k) ∨
      (d.led.frame = none ∧ ∃ k, d.led.enAt = some k ∧ d.tick ≠ k)) : d.ledDue = true := by
  unfold Dev.ledDue
  rcases hdue with ⟨k, u, hf, ht⟩ | ⟨hf, k, he, ht⟩
  · simp [hen, hrig, hsil, hf, ht]
  · simp [hen, hrig, hsil, hf, he, ht]

/-- The registers that a frame without a transfer may change. -/
def frameReadFlds : List Fld := recFlds ++ frameFlds ++ readingFlds

theorem Dev.frameRead_frame (d : Dev) : d.frameRead = { d with regs := d.frameRead.regs, evr := d.frameRead.evr, led := d.ledBegun } := by
  have frame := d.frameBegun.ledReading_regsRec.frame
  rw [d.frameBegun_frame] at frame
  unfold Dev.frameRead
  conv_lhs => rw [d.frameBegun_frame, frame]
  conv_rhs => rw [d.frameBegun_frame]

theorem Dev.frameRead_keeps (d : Dev) : regsKeep frameReadFlds d d.frameRead :=
  regsKeep_trans (regsKeep_mono d.frameBegun_keeps (by decide)) (regsKeep_mono d.frameBegun.ledReading_regsRec.keeps (by decide))

/-- What the reading leaves of the registers that the frame's beginning shows. -/
theorem Dev.frameRead_get (d : Dev) {G : Fld} (h : G.key ∉ (recFlds ++ readingFlds).map Fld.key) : d.frameRead.get G = d.frameBegun.get G :=
  d.frameBegun.ledReading_regsRec.keeps G h

/-- The staging registers stand apart from those that a frame sets. -/
theorem staging_apart {G : Fld} (h : 0x310400 * 32 ≤ G.key) (h' : G.key < 0x320000 * 32) : G.key ∉ frameReadFlds.map Fld.key := by
  intro q
  have away : ∀ k ∈ frameReadFlds.map Fld.key, k < 0x310400 * 32 ∨ 0x320000 * 32 ≤ k := by decide
  have := away _ q
  omega

theorem Dev.frameRead_ints (d : Dev) {l c : Nat} (hl : l < 16) (hc : c < 24) :
    tget 0 d.frameRead.staged.ints (24 * l + c) = d.get (F.LED_INTl_c_INT l c) := by
  refine (tget_upTo _ _ (by omega)).trans ?_
  have row : (24 * l + c) / 24 = l := by omega
  have col : (24 * l + c) % 24 = c := by omega
  rw [row, col]
  exact d.frameRead_keeps _ (staging_apart (by simp only [Fld.key, F.LED_INTl_c_INT]; omega) (by simp only [Fld.key, F.LED_INTl_c_INT]; omega))

theorem Dev.frameRead_comps (d : Dev) {g k : Nat} (hg : g < 4) (hk : k < 16) :
    tget 0 d.frameRead.staged.comps (16 * g + k) = d.getW (F.LED_COMPg_k_VAL g k) := by
  refine (tget_upTo _ _ (by omega)).trans ?_
  have group : (16 * g + k) / 16 = g := by omega
  have point : (16 * g + k) % 16 = k := by omega
  rw [group, point, Dev.getW_eq, Dev.getW_eq]
  exact congrArg _ (d.frameRead_keeps _ (staging_apart (by simp only [Fld.key, F.LED_COMPg_k_VAL]; omega)
    (by simp only [Fld.key, F.LED_COMPg_k_VAL]; omega)))

/-! ## Line slots (R356, R362) -/

theorem exec_ledLineSlot_noFrame {l : Fin 16} {weak : BitVec 24} {ovr : Bool} {s : State} (h : s.dev.led.frame = none) :
    exec (.ledLineSlot l weak ovr) s = .next s := by
  simp only [exec, execLedLineSlot, Dev.ledSlot, h, State.onDev]

section
variable {l : Fin 16} {weak : BitVec 24} {ovr : Bool} {s : State} {k : Word} {u : DWord} (hf : s.dev.led.frame = some (k, u))
include hf

theorem exec_ledLineSlot_outside (hs : elapsed64 s.dev.time u / 31250 ≠ l.val) : exec (.ledLineSlot l weak ovr) s = .next s := by
  have outside : (elapsed64 s.dev.time u / 31250 != l.val) = true := bne_iff_ne.mpr hs
  simp only [exec, execLedLineSlot, Dev.ledSlot, hf, State.onDev, outside, if_true]

variable (hs : elapsed64 s.dev.time u / 31250 = l.val)
include hs

theorem exec_ledLineSlot_dark (h : byteAt s.dev.led.light 0 ≤ l.val ∨ 4 ≤ tget 0 s.dev.led.trips l.val) :
    exec (.ledLineSlot l weak ovr) s = .next { s with dev := { s.dev with led := { s.dev.led with drive := none } } } := by
  have inside : (elapsed64 s.dev.time u / 31250 != l.val) = false := by simp [hs]
  have dark : (byteAt s.dev.led.light 0 ≤ l.val || decide (4 ≤ tget 0 s.dev.led.trips l.val)) = true := by simpa using h
  simp only [exec, execLedLineSlot, Dev.ledSlot, hf, State.onDev, inside, dark, Bool.false_eq_true, if_false, if_true]

end

/-- The device once the columns that fail in line l are noted. -/
def Dev.weakNoted (d : Dev) (l weak : Nat) : Dev := (upTo 24).foldl (fun d c => if bitAt weak c && d.ledColumn c then d.ledWeak l c else d) d

/-- An overcurrent of line l's switch turns it off. -/
def Dev.lineTripped (d : Dev) (l n tick : Nat) : Dev :=
  ({ d with led := { d.led with drive := none, trips := tput d.led.trips l n } }.setBit F.LED_LINE_FLT_LINES l true).raise 0x0B02 0x0A 2 l n tick

/-- Line l drives its columns. -/
def Dev.lineDriven (d : Dev) (l : Nat) (codes : List Nat) : Dev :=
  { d with led := { d.led with drive := some (l, codes), trips := tput d.led.trips l 0 } }

theorem exec_ledLineSlot_lit {l : Fin 16} {weak : BitVec 24} {ovr : Bool} {s : State} {k : Word} {u : DWord} (hf : s.dev.led.frame = some (k, u))
    (hs : elapsed64 s.dev.time u / 31250 = l.val) (hl : l.val < byteAt s.dev.led.light 0) (ht : tget 0 s.dev.led.trips l.val < 4) :
    exec (.ledLineSlot l weak ovr) s = .next { s with dev := (if ovr then
        (s.dev.weakNoted l.val weak.toNat).lineTripped l.val (tget 0 s.dev.led.trips l.val + 1) s.dev.tick.toNat
      else (s.dev.weakNoted l.val weak.toNat).lineDriven l.val ((upTo 24).map (fun c => s.dev.ledCode l.val c))) } := by
  have inside : (elapsed64 s.dev.time u / 31250 != l.val) = false := by simp [hs]
  have lit : (byteAt s.dev.led.light 0 ≤ l.val || decide (4 ≤ tget 0 s.dev.led.trips l.val)) = false := by simp [hl, ht]
  simp only [exec, execLedLineSlot, Dev.ledSlot, hf, State.onDev, inside, lit, Bool.false_eq_true, if_false]
  rfl

/-! ### The columns noted (R362) -/

theorem bitAt_eq_testBit (v k : Nat) : bitAt v k = v.testBit k := by
  rw [bitAt, Nat.testBit_eq_decide_div_mod_eq]
  rfl

/-- Where bit k is clear, adding 2 ^ k keeps every other bit. -/
theorem testBit_add_two_pow {v k c : Nat} (hv : v.testBit k = false) (hc : c ≠ k) : (v + 2 ^ k).testBit c = v.testBit c := by
  rcases Nat.lt_or_gt_of_ne hc with below | above
  · rw [Nat.add_comm, Nat.testBit_two_pow_add_gt below]
  · obtain ⟨i, rfl⟩ : ∃ i, c = i + (k + 1) := ⟨c - (k + 1), by omega⟩
    have even : v / 2 ^ k % 2 = 0 := by
      rw [Nat.testBit_eq_decide_div_mod_eq] at hv
      have := of_decide_eq_false hv
      omega
    have upper : (v + 2 ^ k) / 2 ^ (k + 1) = v / 2 ^ (k + 1) := by
      rw [Nat.pow_succ, ← Nat.div_div_eq_div_mul, ← Nat.div_div_eq_div_mul, Nat.add_div_right _ (Nat.two_pow_pos k)]
      omega
    rw [Nat.testBit_add, Nat.testBit_add, upper]

/-- Setting bit k of a register of w bits sets that bit alone. -/
theorem bitAt_bitPut_true {v k w c : Nat} (hc : c < w) : bitAt (bitPut v k true % 2 ^ w) c = (bitAt v c || decide (c = k)) := by
  by_cases hk : c = k
  · subst hk
    rw [bitAt_bitPut_mod hc, decide_eq_true rfl, Bool.or_true]
  · rw [decide_eq_false hk, Bool.or_false, bitAt_eq_testBit, bitAt_eq_testBit, Nat.testBit_mod_two_pow, decide_eq_true hc, Bool.true_and, bitPut]
    split
    · rfl
    · next clear =>
      have unset : v.testBit k = false := by
        rw [← bitAt_eq_testBit]
        simpa using clear
      rw [if_pos rfl]
      exact testBit_add_two_pow unset hk

theorem Dev.ledWeak_regsRec (d : Dev) (l c : Nat) : d.RegsRec [F.LED_COL_FLT_COLS] (d.ledWeak l c) := by
  unfold Dev.ledWeak
  split
  · exact .refl d
  · exact ((Dev.RegsRec.refl d).put _ (by decide)).raise _ _ _ _ _ _

theorem Dev.ledWeak_bit (d : Dev) (l k : Nat) {c : Nat} (hc : c < 24) :
    bitAt ((d.ledWeak l k).get F.LED_COL_FLT_COLS) c = (bitAt (d.get F.LED_COL_FLT_COLS) c || decide (c = k)) := by
  unfold Dev.ledWeak
  split
  · next set =>
    by_cases hk : c = k
    · subst hk
      rw [show bitAt (d.get F.LED_COL_FLT_COLS) c = true from set, Bool.true_or]
    · rw [decide_eq_false hk, Bool.or_false]
  · rw [show ∀ e : Dev, ∀ a b x y z : Nat, (e.raiseLed a b x y z).get F.LED_COL_FLT_COLS = e.get F.LED_COL_FLT_COLS from
      fun e _ _ _ _ _ => Dev.get_raise e _ _ _ _ _ _ _ (by decide), Dev.setBit_eq, Dev.get_put_self]
    exact bitAt_bitPut_true hc

/-- The columns of a list that fail are noted: their bits are set, and besides the recorder nothing else changes. -/
theorem Dev.weakNoted_list (d : Dev) (l weak : Nat) (cs : List Nat) :
    let e := cs.foldl (fun d c => if bitAt weak c && d.ledColumn c then d.ledWeak l c else d) d
    d.RegsRec [F.LED_COL_FLT_COLS] e ∧ ∀ c < 24,
      bitAt (e.get F.LED_COL_FLT_COLS) c = (bitAt (d.get F.LED_COL_FLT_COLS) c || (decide (c ∈ cs) && (bitAt weak c && d.ledColumn c))) := by
  induction cs generalizing d with
  | nil => exact ⟨.refl d, fun c _ => by simp⟩
  | cons k cs ih =>
    rw [List.foldl_cons]
    by_cases fails : (bitAt weak k && d.ledColumn k) = true
    · rw [if_pos fails]
      obtain ⟨kept, bits⟩ := ih (d.ledWeak l k)
      have first := d.ledWeak_regsRec l k
      have column : ∀ c, (d.ledWeak l k).ledColumn c = d.ledColumn c := fun c => by
        rw [first.frame]
        rfl
      refine ⟨first.trans kept, fun c hc => (bits c hc).trans ?_⟩
      rw [d.ledWeak_bit l k hc, column]
      by_cases hk : c = k
      · subst hk
        simp [fails]
      · simp [hk]
    · rw [if_neg fails]
      obtain ⟨kept, bits⟩ := ih d
      refine ⟨kept, fun c hc => (bits c hc).trans ?_⟩
      by_cases hk : c = k
      · subst hk
        simp [Bool.eq_false_iff.mpr fails]
      · simp [hk]

theorem Dev.weakNoted_regsRec (d : Dev) (l weak : Nat) : d.RegsRec [F.LED_COL_FLT_COLS] (d.weakNoted l weak) := (d.weakNoted_list l weak _).1

theorem Dev.weakNoted_bit (d : Dev) (l weak : Nat) {c : Nat} (hc : c < 24) : bitAt ((d.weakNoted l weak).get F.LED_COL_FLT_COLS) c =
    (bitAt (d.get F.LED_COL_FLT_COLS) c || (bitAt weak c && d.ledColumn c)) := by
  refine ((d.weakNoted_list l weak _).2 c hc).trans ?_
  rw [decide_eq_true (List.mem_range.mpr hc), Bool.true_and]

theorem Dev.weakNoted_none (d : Dev) (l : Nat) : d.weakNoted l 0 = d :=
  List.foldlRecOn (motive := fun e => e = d) _ _ rfl (fun e he c _ => by
    rw [he, if_neg]
    simp [bitAt])

/-! ### The line turned off, or driven -/

section
variable (d : Dev) (l : Nat)

theorem Dev.lineTripped_frame (n tick : Nat) : d.lineTripped l n tick =
    { d with regs := (d.lineTripped l n tick).regs, evr := (d.lineTripped l n tick).evr,
             led := { d.led with drive := none, trips := tput d.led.trips l n } } := by
  unfold Dev.lineTripped
  rw [Dev.raise_eq]
  rfl

theorem Dev.lineTripped_keeps (n tick : Nat) : regsKeep (recFlds ++ [F.LED_LINE_FLT_LINES]) d (d.lineTripped l n tick) :=
  regsKeep_trans (regsKeep_trans (b := { d with led := _ }) (regsKeep_of_regs rfl) (regsKeep_put _ F.LED_LINE_FLT_LINES _ (by decide)))
    (regsKeep_raise _ _ _ _ _ _ _ (fun _ h => List.mem_append_left _ h))

theorem Dev.lineTripped_bit {l : Nat} (hl : l < 16) (n tick : Nat) : bitAt ((d.lineTripped l n tick).get F.LED_LINE_FLT_LINES) l = true := by
  unfold Dev.lineTripped
  rw [Dev.get_raise _ _ _ _ _ _ _ _ (by decide), Dev.setBit_eq, Dev.get_put_self]
  exact bitAt_bitPut_mod hl

theorem Dev.lineTripped_recorded (n tick : Nat) : recorded d (d.lineTripped l n tick) 0x0B02 0x0A 2 l n tick :=
  (Dev.put_raise_evr _ _ _ _ _ _ _ _ _ (by decide)).trans (Dev.raise_evr_congr _ _ _ _ _ _ _ _ rfl rfl rfl)

end

/-- Settles O51: a frame that is due begins and takes the transfer that was asked for; a line slot notes the columns that fail, and the line is turned off or
driven. -/
theorem lightingFrameAndLines : Obligations.LightingFrameAndLines := by
  refine ⟨fun s h => exec_ledFrameStart_none ?_, ?_, ?_⟩
  · rcases h with h | h | h
    · simp [Dev.ledDue, h]
    · simp [Dev.ledDue, h]
    · simp [Dev.ledDue, h]
  · intro s hen hrig hsil hl hdue
    have due := Dev.ledDue_of hen hrig hsil hdue
    have led : s.dev.frameRead.led = s.dev.ledBegun := by rw [s.dev.frameRead_frame]
    have run := (s.dev.frameRead_get (G := F.LED_STAT_RUN) (by decide)).trans s.dev.frameBegun_run
    have fitted := (s.dev.frameRead_get (G := F.LED_STAT_FITTED) (by decide)).trans s.dev.frameBegun_fitted
    have count := (s.dev.frameRead_get (G := F.LED_FRAME_COUNT) (by decide)).trans s.dev.frameBegun_count
    refine ⟨_, exec_ledFrameStart_due due hl, ?_⟩
    by_cases asked : (s.dev.led.enAt.isSome || s.dev.flag F.LED_CTRL_APPLY) = true
    · rw [if_pos asked]
      have frame := s.dev.frameRead.ledTransfer_frame
      have kept := s.dev.frameRead.ledTransfer_keeps
      obtain ⟨apply, pend, applied⟩ := s.dev.frameRead.ledTransfer_shows
      have now := s.dev.frameRead_frame
      have counted := kept F.LED_FRAME_COUNT (by decide)
      have staged : s.dev.frameRead.ledTransfer.led = s.dev.frameRead.staged := by rw [frame]
      have begun : s.dev.frameRead.staged = { s.dev.ledBegun with ints := s.dev.frameRead.staged.ints, comps := s.dev.frameRead.staged.comps } := by
        rw [← led]
        rfl
      have lit := staged.trans begun
      refine ⟨(kept _ (by decide)).trans run, (kept _ (by decide)).trans fitted, ?_, ?_, ?_, ?_, ?_, counted.trans count,
        fun _ => ⟨apply, pend, ?_, fun l c hl hc => ?_, fun g k hg hk => ?_⟩, fun ha he => ?_, ?_⟩
      · exact (congrArg Led.frame lit :)
      · exact (congrArg Led.begun lit :)
      · exact (congrArg Led.drive lit :)
      · exact (congrArg Led.enAt lit :)
      · exact (congrArg Led.light lit :)
      · exact applied.trans (congrArg (· % 2 ^ F.LED_FRAME_APPLIED.width) counted.symm)
      · exact (congrArg (fun x : Led => tget 0 x.ints (24 * l + c)) staged).trans (s.dev.frameRead_ints hl hc)
      · exact (congrArg (fun x : Led => tget 0 x.comps (16 * g + k)) staged).trans (s.dev.frameRead_comps hg hk)
      · simp [ha, he] at asked
      · rw [frame, now]
    · rw [if_neg asked]
      refine ⟨run, fitted, ?_, ?_, ?_, ?_, ?_, count, fun h => (asked ?_).elim, fun _ _ => ⟨?_, ?_⟩, ?_⟩
      · exact (congrArg Led.frame led :)
      · exact (congrArg Led.begun led :)
      · exact (congrArg Led.drive led :)
      · exact (congrArg Led.enAt led :)
      · exact (congrArg Led.light led :)
      · rcases h with h | h
        · simp [h]
        · simp [h]
      · exact (congrArg Led.ints led :)
      · exact (congrArg Led.comps led :)
      · rw [s.dev.frameRead_frame]
  · intro l weak ovr s
    refine ⟨exec_ledLineSlot_noFrame, fun k u hf => ⟨exec_ledLineSlot_outside hf, fun hs => ⟨exec_ledLineSlot_dark hf hs, fun hl ht =>
      ⟨_, exec_ledLineSlot_lit hf hs hl ht, ?_⟩⟩⟩⟩
    have noted := s.dev.weakNoted_regsRec l.val weak.toNat
    have bit := fun {c : Nat} => s.dev.weakNoted_bit l.val weak.toNat (c := c)
    have led : (s.dev.weakNoted l.val weak.toNat).led = s.dev.led := by rw [noted.frame]
    have same : weak = 0 → s.dev.weakNoted l.val weak.toNat = s.dev := fun h => by
      rw [h]
      exact s.dev.weakNoted_none l.val
    have keeps : regsKeep (recFlds ++ [F.LED_COL_FLT_COLS, F.LED_LINE_FLT_LINES]) s.dev (s.dev.weakNoted l.val weak.toNat) :=
      regsKeep_mono noted.keeps (by decide)
    generalize s.dev.weakNoted l.val weak.toNat = e at *
    cases ovr with
    | true =>
      rw [if_pos rfl]
      have frame := e.lineTripped_frame l.val (tget 0 s.dev.led.trips l.val + 1) s.dev.tick.toNat
      have kept := e.lineTripped_keeps l.val (tget 0 s.dev.led.trips l.val + 1) s.dev.tick.toNat
      have shown := e.lineTripped_bit l.isLt (tget 0 s.dev.led.trips l.val + 1) s.dev.tick.toNat
      have noticed := e.lineTripped_recorded l.val (tget 0 s.dev.led.trips l.val + 1) s.dev.tick.toNat
      generalize e.lineTripped l.val (tget 0 s.dev.led.trips l.val + 1) s.dev.tick.toNat = t at *
      refine ⟨fun c hc => ?_, fun _ => ⟨?_, ?_, shown, fun h => same h ▸ noticed⟩, fun h => (nomatch h), ?_,
        regsKeep_trans keeps (regsKeep_mono kept (by decide))⟩
      · rw [kept F.LED_COL_FLT_COLS (by decide), bit hc]
      · rw [frame]
      · rw [frame, led]
        exact tget_tput_self ..
      · rw [frame, noted.frame]
    | false =>
      rw [if_neg Bool.false_ne_true]
      refine ⟨fun c hc => bit hc, fun h => (nomatch h), fun _ => ⟨?_, fun h => ?_, _, rfl, ?_, fun c hc => ?_⟩, ?_, keeps⟩
      · exact tget_tput_self ..
      · rw [← same h]
        rfl
      · exact (List.length_map _).trans List.length_range
      · simp [hc]
      · unfold Dev.lineDriven
        rw [noted.frame]

end Sys2Proof.Machine

/-! # Writes of host, loop, camera, recorder and clock registers (00_scope.md R14 to R20, R433)

A write that nothing refuses places the fields of its register, is noted where that changed a value, and then acts as the register's chapter says
(`State.regWrite_accepted`). What a register's fields hold after the write is said once for each register. -/

namespace Sys2Proof.Machine

open Sys2Proof.Safety

/-! ## Accepted writes -/

/-- The device once every field of the register has taken its part and the change is noted. -/
def Dev.fieldsWritten (d : Dev) (h : RegHit) (a v : Nat) : Dev := (h.spec.fields.foldl (fun d f => d.applyField h a v f) d).noteWrite d h a v

/-- A write that is accepted and forms no DRAM write. -/
theorem State.regWrite_accepted {s : State} {a : Nat} {v : Word} {h : RegHit} (ha : a % 4 = 0) (hf : regFind a regSpecs = some h)
    (hm : h.holds (F.HST_MBXw_WORD 0) = false) (hp : h.holds F.HST_CPL_POP_POP = false)
    (hr : s.settled.dev.writeRefused h a v.toNat = false) (hh : (s.settled.dev.encHeldAt a || s.settled.dev.tempHeldAt a) = false)
    {d' : Dev} (hd : (s.settled.dev.fieldsWritten h a v.toNat).afterWrite s.settled.dev s.mem h v.toNat = d') (hq : d'.wq = []) :
    s.regWrite a v = { s with dev := d' } := by
  subst hd
  have row : s.settled.dev.regWrite s.mem a v.toNat =
      (s.settled.dev.fieldsWritten h a v.toNat).afterWrite s.settled.dev s.mem h v.toNat := by
    rw [Dev.regWrite_judged ha hf hm hp, if_neg (by simp [hr]), Dev.acceptWrite, if_neg (by simp [hh])]
    rfl
  rw [← row] at hq ⊢
  exact State.runDev_noWrites s (fun d m => d.regWrite m a v.toNat) hq

section
variable {d p : Dev} {h : RegHit} {a v : Nat} (hp : h.spec.fields.foldl (fun d f => d.applyField h a v f) d = p)
include hp

/-- Beside the recorder the fields alone have changed. -/
theorem Dev.fieldsWritten_recOnly : p.recOnly (d.fieldsWritten h a v) := by
  unfold Dev.fieldsWritten
  rw [hp]
  exact Dev.recOnly_noteWrite ..

theorem Dev.fieldsWritten_get {G : Fld} (hG : G.key ∉ recFlds.map Fld.key) : (d.fieldsWritten h a v).get G = p.get G :=
  (Dev.fieldsWritten_recOnly hp).2 G hG

/-- A write that leaves every noted value as it was raises nothing (R20). -/
theorem Dev.fieldsWritten_same (hn : ∀ f ∈ h.spec.fields, d.notedAfter h a v f = d.noted h a f) : d.fieldsWritten h a v = p := by
  have same : packFields h.spec.fields (d.notedAfter h a v) = packFields h.spec.fields (d.noted h a) := by
    unfold packFields
    rw [List.map_congr_left (fun f hf => by rw [hn f hf])]
  unfold Dev.fieldsWritten Dev.noteWrite
  dsimp only
  rw [hp, same, if_pos (by simp)]

end

/-! ### The ring stays as it is -/

theorem Dev.bankAdd_slots (d : Dev) (e : Event) : (d.bankAdd e).evr.slots = d.evr.slots := by
  unfold Dev.bankAdd
  split <;> rfl

theorem Dev.bankAdd_freezeAt (d : Dev) (e : Event) : (d.bankAdd e).evr.freezeAt = d.evr.freezeAt := by
  unfold Dev.bankAdd
  split <;> rfl

/-- An event enters the FIFO or the bank, never the ring. -/
theorem Dev.raise_slots (d : Dev) (c a b x y z : Nat) : (d.raise c a b x y z).evr.slots = d.evr.slots := by
  unfold Dev.raise Dev.intake
  split
  · rfl
  split
  · rfl
  dsimp only
  split
  · rfl
  split
  · unfold Dev.toBank
    dsimp only
    split
    · exact Dev.bankAdd_slots ..
    · exact (Dev.bankAdd_slots ..).trans (Dev.bankAdd_slots ..)
  · rfl

/-- An event does not change when the ring was frozen. -/
theorem Dev.raise_freezeAt (d : Dev) (c a b x y z : Nat) : (d.raise c a b x y z).evr.freezeAt = d.evr.freezeAt := by
  unfold Dev.raise Dev.intake
  split
  · rfl
  split
  · rfl
  dsimp only
  split
  · rfl
  split
  · unfold Dev.toBank
    dsimp only
    split
    · exact Dev.bankAdd_freezeAt ..
    · exact (Dev.bankAdd_freezeAt ..).trans (Dev.bankAdd_freezeAt ..)
  · rfl

theorem Dev.fieldsWritten_slots {d p : Dev} {h : RegHit} {a v : Nat} (hp : h.spec.fields.foldl (fun d f => d.applyField h a v f) d = p) :
    (d.fieldsWritten h a v).evr.slots = p.evr.slots := by
  unfold Dev.fieldsWritten Dev.noteWrite
  dsimp only
  rw [hp]
  split
  · rfl
  · exact Dev.raise_slots ..

/-! ## The head of a DMA ring (R396) -/

/-- INDEX of HST_DMAc_HEAD. -/
def headField : FieldSpec := ⟨"INDEX", 0, 12, 0x0, .rw, .imm, .any⟩

/-- HST_DMAc_HEAD of channel c. -/
def headReg (c : Dma) : RegHit := ⟨⟨"HST_DMAc_HEAD", 0x414, 64, 4, 0, 1, .device, [headField]⟩, c.val, 0⟩

theorem plain_head (c : Dma) : PlainReg (F.HST_DMAc_HEAD_INDEX c.val).addr (headReg c) headField where
  aligned := by revert c; decide
  found := by revert c; decide
  notMbx := rfl
  notPop := rfl
  fields := rfl
  owner := rfl
  notPair := rfl
  notCmp := rfl
  noPlace := rfl
  notHeld d := by
    have low : (F.HST_DMAc_HEAD_INDEX c.val).addr < 0x2E0000 := by revert c; decide
    simp only [Dev.encHeldAt, Dev.tempHeldAt, Bool.or_eq_false_iff, Bool.and_eq_false_iff, decide_eq_false_iff_not]
    exact ⟨.inl (.inl (by omega)), .inl (.inl (.inl (by omega)))⟩

theorem exec_dmaHeadWrite_live {c : Dma} {v : Word} {s : State} (hs : s.dev.shadow = []) (hv : s.dev.oldViews = []) :
    ∃ t : State, exec (.dmaHeadWrite c v) s = .next t ∧ t.dev.get (F.HST_DMAc_HEAD_INDEX c.val) = v.toNat % 4096 ∧
      onlyRegsRec [F.HST_DMAc_HEAD_INDEX c.val] s.settled t := by
  have addr : (BitVec.ofNat 32 (F.HST_DMAc_HEAD_INDEX c.val).addr).toNat = (F.HST_DMAc_HEAD_INDEX c.val).addr := by revert c; decide
  have apart : (F.HST_DMAc_HEAD_INDEX c.val).key ∉ recFlds.map Fld.key := by revert c; decide
  have row : exec (.dmaHeadWrite c v) s = exec (.registerWrite (BitVec.ofNat 32 (F.HST_DMAc_HEAD_INDEX c.val).addr) v) s :=
    congrArg (fun a => Host.Outcome.next (s.regWrite a v)) addr.symm
  obtain ⟨t, ht, hg, -, -, only⟩ := (plain_head c).exec_live hs hv rfl apart (v := v) addr rfl
  exact ⟨t, row.trans ht, hg, only⟩


/-! ## How a field takes its part (R14, R18) -/

section
variable {d : Dev} {h : RegHit} {a v : Nat} {f : FieldSpec}

/-- A field with access RW or RWL lands at its effect point. -/
theorem Dev.applyField_lands (ho : h.ownPlace f = false) (hx : f.access = .rw ∨ f.access = .rwl) :
    d.applyField h a v f = d.land h.port (f.fld a) f.effect (f.bits v) := by
  unfold Dev.applyField
  dsimp only
  rw [if_neg (by simp [ho])]
  obtain hx | hx := hx <;> rw [hx]

/-- A bit that is only an action, or that its own block places, holds nothing of the word. -/
theorem Dev.applyField_skips (ho : h.ownPlace f = true ∨ (f.access = .w1s ∧ h.holds (F.LOOPn_YY_CTRL_ARM 0) = false)) :
    d.applyField h a v f = d := by
  unfold Dev.applyField
  dsimp only
  obtain ho | ⟨hx, hy⟩ := ho
  · rw [if_pos ho]
  · split
    · rfl
    · rw [hx]
      dsimp only
      rw [if_neg (by simp [hy])]

/-- With nothing in a shadow and no old view, an RW field whose block is stopped holds its part of the word at once. -/
theorem Dev.applyField_live (ho : h.ownPlace f = false) (hx : f.access = .rw ∨ f.access = .rwl) (hs : d.shadow = [])
    (hv : d.oldViews = []) (he : d.effectStopped h.port f.effect = true) : d.applyField h a v f = d.put (f.fld a) (f.bits v) := by
  rw [Dev.applyField_lands ho hx, Dev.land_live _ hs hv he]

end

/-! ## A Yo-yo run is armed (R204) -/

/-- MODE of LOOPn_YY_CTRL. -/
def yyMode : FieldSpec := ⟨"MODE", 0, 3, 0x0, .rw, .path, .le 4⟩
/-- POINT of LOOPn_YY_CTRL. -/
def yyPoint : FieldSpec := ⟨"POINT", 3, 2, 0x0, .rw, .path, .le 2⟩
/-- ARM of LOOPn_YY_CTRL. -/
def yyArm : FieldSpec := ⟨"ARM", 5, 1, 0x0, .w1s, .path, .any⟩
/-- CAPSYNC of LOOPn_YY_CTRL. -/
def yySync : FieldSpec := ⟨"CAPSYNC", 6, 1, 0x0, .rw, .path, .any⟩

/-- LOOPn_YY_CTRL of port p. -/
def yyReg (p : Port) : RegHit := ⟨⟨"LOOPn_YY_CTRL", 0x18102C, 128, 32, 0, 1, .port, [yyMode, yyPoint, yyArm, yySync]⟩, p.val, 0⟩

/-- A port's own registers are there on the AX32, and on the AX16 for the ports that it has (R3). -/
theorem Dev.regAbsent_port {d : Dev} {h : RegHit} (ho : h.spec.owner = .port) (hp : d.variant = .ax32 ∨ h.i < 16) : d.regAbsent h = false := by
  unfold Dev.regAbsent
  rw [ho]
  obtain hp | hp := hp
  · rw [hp]; rfl
  · simp [show ¬ 16 ≤ h.i by omega]

theorem yyReg_accepted {d : Dev} {p : Port} {v : Nat} (hp : d.variant = .ax32 ∨ p.val < 16) (hm : v % 8 ≤ 4) (hq : v / 8 % 4 ≤ 2) :
    d.writeRefused (yyReg p) (F.LOOPn_YY_CTRL_ARM p.val).addr v = false := by
  have mode : decide (v / 2 ^ 0 % 2 ^ 3 ≤ 4) = true := decide_eq_true (by simpa using hm)
  have point : decide (v / 2 ^ 3 % 2 ^ 2 ≤ 2) = true := decide_eq_true hq
  have rule : d.ruleRefused (yyReg p) v = false := rfl
  simp only [Dev.writeRefused, Dev.regAbsent_port (h := yyReg p) rfl hp, rule]
  simp [yyReg, yyMode, yyPoint, yyArm, yySync, Dev.fieldRefused, Access.writable, Check.ok, FieldSpec.bits, hq]
  simpa using hm

/-- The device once the fields of LOOPn_YY_CTRL hold their parts of the word. -/
def Dev.yyPlaced (d : Dev) (p v : Nat) : Dev :=
  let d1 := (d.put (F.LOOPn_YY_CTRL_MODE p) (v % 8)).put (F.LOOPn_YY_CTRL_POINT p) (v / 8 % 4)
  (if v / 32 % 2 = 1 then d1.put (F.LOOPn_YY_CTRL_ARM p) 1 else d1).put (F.LOOPn_YY_CTRL_CAPSYNC p) (v / 64 % 2)

/-- ARM takes a 1 only (R204). -/
theorem yyArm_applied (d : Dev) (p : Port) (v : Nat) : d.applyField (yyReg p) (F.LOOPn_YY_CTRL_ARM p.val).addr v yyArm =
    if v / 32 % 2 = 1 then d.land (yyReg p).port (F.LOOPn_YY_CTRL_ARM p.val) .path 1 else d := by
  show (if (v / 2 ^ 5 % 2 ^ 1 != 0 && true) = true then _ else _) = _
  by_cases hb : v / 32 % 2 = 1
  · rw [if_pos (by simp [hb]), if_pos hb]
    rfl
  · rw [if_neg (by simp; omega), if_neg hb]

/-- The fields of the register take their parts one after the other. -/
theorem yyReg_fold (d : Dev) (p : Port) (a v : Nat) : (yyReg p).spec.fields.foldl (fun d f => d.applyField (yyReg p) a v f) d =
    (((d.applyField (yyReg p) a v yyMode).applyField (yyReg p) a v yyPoint).applyField (yyReg p) a v yyArm).applyField (yyReg p) a v yySync := by
  show List.foldl _ d [yyMode, yyPoint, yyArm, yySync] = _
  simp only [List.foldl_cons, List.foldl_nil]

section
variable {d : Dev} {p : Port} {v : Nat} (hs : d.shadow = [])
include hs

theorem yyReg_placed (hv : d.oldViews = []) (he : d.onPath p.val = false) :
    (yyReg p).spec.fields.foldl (fun d f => d.applyField (yyReg p) (F.LOOPn_YY_CTRL_ARM p.val).addr v f) d = d.yyPlaced p.val v := by
  have stopped : ∀ e : Dev, e.onPath p.val = d.onPath p.val → e.effectStopped (yyReg p).port .path = true :=
    fun e h => by rw [show e.effectStopped (yyReg p).port .path = !(e.onPath p.val) from rfl, h, he]; rfl
  have live : ∀ (e : Dev) (f : FieldSpec), e.shadow = [] → e.oldViews = [] → e.onPath p.val = d.onPath p.val → f.access = .rw →
      f.effect = .path → e.applyField (yyReg p) (F.LOOPn_YY_CTRL_ARM p.val).addr v f =
        e.put (f.fld (F.LOOPn_YY_CTRL_ARM p.val).addr) (f.bits v) :=
    fun e f h1 h2 h3 hx hf => Dev.applyField_live rfl (.inl hx) h1 h2 (hf ▸ stopped e h3)
  have mode : yyMode.bits v = v % 8 := congrArg (· % 8) (Nat.div_one v)
  have arm : ∀ e : Dev, e.shadow = [] → e.oldViews = [] → e.onPath p.val = d.onPath p.val →
      e.land (yyReg p).port (F.LOOPn_YY_CTRL_ARM p.val) .path 1 = e.put (F.LOOPn_YY_CTRL_ARM p.val) 1 :=
    fun e h1 h2 h3 => Dev.land_live _ h1 h2 (stopped e h3)
  rw [yyReg_fold, live d _ hs hv rfl rfl rfl, live (d.put _ _) _ hs hv rfl rfl rfl, yyArm_applied,
    arm (Dev.put (Dev.put _ _ _) _ _) hs hv rfl, mode]
  unfold Dev.yyPlaced
  split
  · exact live _ yySync hs hv rfl rfl rfl
  · exact live _ yySync hs hv rfl rfl rfl

end

/-- Placing the register's fields changes these registers alone. -/
theorem Dev.yyPlaced_regsRec (d : Dev) (p v : Nat) : d.RegsRec [F.LOOPn_YY_CTRL_MODE p, F.LOOPn_YY_CTRL_POINT p, F.LOOPn_YY_CTRL_CAPSYNC p,
    F.LOOPn_YY_CTRL_ARM p] (d.yyPlaced p v) := by
  have two := ((Dev.RegsRec.refl (fs := [F.LOOPn_YY_CTRL_MODE p, F.LOOPn_YY_CTRL_POINT p, F.LOOPn_YY_CTRL_CAPSYNC p,
    F.LOOPn_YY_CTRL_ARM p]) d).put (G := F.LOOPn_YY_CTRL_MODE p) (v % 8) (by simp)).put (G := F.LOOPn_YY_CTRL_POINT p) (v / 8 % 4) (by simp)
  unfold Dev.yyPlaced
  split
  · exact (two.put (G := F.LOOPn_YY_CTRL_ARM p) _ (by simp)).put _ (by simp)
  · exact two.put _ (by simp)

/-! ### What the register holds after the write -/

section
variable (d : Dev) (p : Port) (v : Nat)

/-- A field of the register that is neither ARM nor CAPSYNC holds what the first two placements left. -/
theorem Dev.yyPlaced_get {G : Fld} (hA : (F.LOOPn_YY_CTRL_ARM p.val).key ≠ G.key) (hC : (F.LOOPn_YY_CTRL_CAPSYNC p.val).key ≠ G.key) :
    (d.yyPlaced p.val v).get G = ((d.put (F.LOOPn_YY_CTRL_MODE p.val) (v % 8)).put (F.LOOPn_YY_CTRL_POINT p.val) (v / 8 % 4)).get G := by
  unfold Dev.yyPlaced
  dsimp only
  rw [Dev.get_put_ne _ _ _ _ hC]
  split
  · exact Dev.get_put_ne _ _ _ _ hA
  · rfl

theorem Dev.yyPlaced_mode : (d.yyPlaced p.val v).get (F.LOOPn_YY_CTRL_MODE p.val) = v % 8 := by
  rw [Dev.yyPlaced_get _ _ _ (by revert p; decide) (by revert p; decide), Dev.get_put_ne _ _ _ _ (by revert p; decide), Dev.get_put_self]
  exact Nat.mod_mod ..

theorem Dev.yyPlaced_point : (d.yyPlaced p.val v).get (F.LOOPn_YY_CTRL_POINT p.val) = v / 8 % 4 := by
  rw [Dev.yyPlaced_get _ _ _ (by revert p; decide) (by revert p; decide), Dev.get_put_self]
  exact Nat.mod_mod ..

theorem Dev.yyPlaced_sync : (d.yyPlaced p.val v).get (F.LOOPn_YY_CTRL_CAPSYNC p.val) = v / 64 % 2 :=
  (Dev.get_put_self _ _ _).trans (Nat.mod_mod ..)

theorem Dev.yyPlaced_arm :
    (d.yyPlaced p.val v).get (F.LOOPn_YY_CTRL_ARM p.val) = if v / 32 % 2 = 1 then 1 else d.get (F.LOOPn_YY_CTRL_ARM p.val) := by
  unfold Dev.yyPlaced
  dsimp only
  rw [Dev.get_put_ne _ _ _ _ (by revert p; decide)]
  split
  · exact Dev.get_put_self ..
  · exact (Dev.get_put_ne _ _ _ _ (by revert p; decide)).trans (Dev.get_put_ne _ _ _ _ (by revert p; decide))

end

theorem yyReg_found : ∀ p : Port, regFind (F.LOOPn_YY_CTRL_ARM p.val).addr regSpecs = some (yyReg p) := by decide

theorem yyReg_aligned : ∀ p : Port, (F.LOOPn_YY_CTRL_ARM p.val).addr % 4 = 0 := by decide

theorem yyReg_low : ∀ p : Port, (F.LOOPn_YY_CTRL_ARM p.val).addr < 0x2E0000 := by decide

theorem yyFlds_notRec : ∀ p : Port, ∀ G ∈ [F.LOOPn_YY_CTRL_MODE p.val, F.LOOPn_YY_CTRL_POINT p.val, F.LOOPn_YY_CTRL_CAPSYNC p.val,
    F.LOOPn_YY_CTRL_ARM p.val], G.key ∉ recFlds.map Fld.key := by decide

/-- Below the encoder inputs no register keeps its reset values (R273, R339). -/
theorem Dev.notHeld_below (d : Dev) {a : Nat} (h : a < 0x2E0000) : (d.encHeldAt a || d.tempHeldAt a) = false := by
  simp only [Dev.encHeldAt, Dev.tempHeldAt, Bool.or_eq_false_iff, Bool.and_eq_false_iff, decide_eq_false_iff_not]
  exact ⟨.inl (.inl (by omega)), .inl (.inl (.inl (by omega)))⟩

/-! ### Fields that wait in their shadows (R16) -/

/-- A value that was just put in its shadow is the one that waits there. -/
theorem shadowPut_find_self (l : List ShadowEntry) (e : ShadowEntry) : (shadowPut l e).find? (fun x => decide (x.fld = e.fld)) = some e := by
  have none : (l.filter (fun x => decide (x.fld ≠ e.fld))).find? (fun x => decide (x.fld = e.fld)) = none :=
    List.find?_eq_none.mpr (fun x hx => by simpa using (List.mem_filter.mp hx).2)
  rw [shadowPut, List.find?_append, none]
  simp

/-- What waits for another field stands. -/
theorem shadowPut_find_ne (l : List ShadowEntry) (e : ShadowEntry) {G : Fld} (h : e.fld ≠ G) :
    (shadowPut l e).find? (fun x => decide (x.fld = G)) = l.find? (fun x => decide (x.fld = G)) := by
  have same : (fun x : ShadowEntry => decide (decide (x.fld ≠ e.fld) = true ∧ decide (x.fld = G) = true)) = fun x => decide (x.fld = G) := by
    funext x
    by_cases hx : x.fld = G
    · simp [hx, h.symm]
    · simp [hx]
  rw [shadowPut, List.find?_append, List.find?_filter, same]
  simp [h]

/-- The device while a value waits in its shadow. -/
def Dev.waiting (d : Dev) (e : ShadowEntry) : Dev := { d with shadow := shadowPut d.shadow e }

/-- While the block runs a value goes into its shadow, and nothing else changes. -/
theorem Dev.land_running {d : Dev} {G : Fld} {e : Effect} {port : Option Nat} (w : Nat) (he : d.effectStopped port e = false) :
    d.land port G e w = d.waiting ⟨G, e, port, w⟩ := by
  unfold Dev.land
  rw [if_neg (by simp [he])]
  rfl

/-- The device while the fields of LOOPn_YY_CTRL wait for the PATH boundary, ARM among them. -/
def Dev.yyWaiting (d : Dev) (p v : Nat) : Dev :=
  (((d.waiting ⟨F.LOOPn_YY_CTRL_MODE p, .path, some p, v % 8⟩).waiting ⟨F.LOOPn_YY_CTRL_POINT p, .path, some p, v / 8 % 4⟩).waiting
    ⟨F.LOOPn_YY_CTRL_ARM p, .path, some p, 1⟩).waiting ⟨F.LOOPn_YY_CTRL_CAPSYNC p, .path, some p, v / 64 % 2⟩

theorem yyReg_waiting {d : Dev} {p : Port} {v : Nat} (he : d.onPath p.val = true) (ha : v / 32 % 2 = 1) :
    (yyReg p).spec.fields.foldl (fun d f => d.applyField (yyReg p) (F.LOOPn_YY_CTRL_ARM p.val).addr v f) d = d.yyWaiting p.val v := by
  have waits : ∀ (e : Dev) (G : Fld) (w : Nat), e.onPath p.val = d.onPath p.val →
      e.land (yyReg p).port G .path w = e.waiting ⟨G, .path, some p.val, w⟩ :=
    fun e G w h => Dev.land_running w (by rw [show e.effectStopped (yyReg p).port .path = !(e.onPath p.val) from rfl, h, he]; rfl)
  have applied : ∀ (e : Dev) (f : FieldSpec), e.onPath p.val = d.onPath p.val → f.access = .rw → f.effect = .path →
      e.applyField (yyReg p) (F.LOOPn_YY_CTRL_ARM p.val).addr v f =
        e.waiting ⟨f.fld (F.LOOPn_YY_CTRL_ARM p.val).addr, .path, some p.val, f.bits v⟩ :=
    fun e f h hx hf => by rw [Dev.applyField_lands rfl (.inl hx), hf, waits e _ _ h]
  have mode : yyMode.bits v = v % 8 := congrArg (· % 8) (Nat.div_one v)
  rw [yyReg_fold, applied d _ rfl rfl rfl, applied (d.waiting _) _ rfl rfl rfl, yyArm_applied, if_pos ha,
    waits ((d.waiting _).waiting _) _ _ rfl, applied (((d.waiting _).waiting _).waiting _) _ rfl rfl rfl, mode]
  rfl

theorem yyFlds_apart : ∀ p : Port, F.LOOPn_YY_CTRL_CAPSYNC p.val ≠ F.LOOPn_YY_CTRL_ARM p.val := by decide

/-- No register shows what waits. -/
theorem Dev.yyWaiting_get (d : Dev) (p v : Nat) (G : Fld) : (d.yyWaiting p v).get G = d.get G := rfl

theorem Dev.yyWaiting_wq (d : Dev) (p v : Nat) : (d.yyWaiting p v).wq = d.wq := rfl

/-- ARM waits, though CAPSYNC comes after it. -/
theorem Dev.yyWaiting_arm (d : Dev) (p : Port) (v : Nat) :
    (d.yyWaiting p.val v).shadow.find? (fun e => decide (e.fld = F.LOOPn_YY_CTRL_ARM p.val)) =
      some ⟨F.LOOPn_YY_CTRL_ARM p.val, .path, some p.val, 1⟩ :=
  (shadowPut_find_ne _ _ (yyFlds_apart p)).trans (shadowPut_find_self _ ⟨F.LOOPn_YY_CTRL_ARM p.val, .path, some p.val, 1⟩)

/-- The device after an accepted write of LOOPn_YY_CTRL. -/
theorem exec_loopnYyArm {p : Port} {v : Word} {s : State} (hp : s.dev.variant = .ax32 ∨ p.val < 16) (hm : v.toNat % 8 ≤ 4)
    (hq : v.toNat / 8 % 4 ≤ 2) {d' : Dev} (hd : s.settled.dev.fieldsWritten (yyReg p) (F.LOOPn_YY_CTRL_ARM p.val).addr v.toNat = d')
    (hw : d'.wq = []) : exec (.loopnYyArm p v) s = .next { s with dev := d' } :=
  congrArg Host.Outcome.next (State.regWrite_accepted (yyReg_aligned p) (yyReg_found p) rfl rfl (yyReg_accepted hp hm hq)
    (Dev.notHeld_below _ (yyReg_low p)) hd hw)

section
variable {p : Port} {v : Word} {s : State} (hp : s.dev.variant = .ax32 ∨ p.val < 16) (hs : s.dev.shadow = [])
  (hm : v.toNat % 8 ≤ 4) (hq : v.toNat / 8 % 4 ≤ 2)
include hp hs hm hq

/-- While no path of the port runs the fields are live at once. -/
theorem exec_loopnYyArm_live (hv : s.dev.oldViews = []) (he : s.dev.onPath p.val = false) :
    ∃ t : State, exec (.loopnYyArm p v) s = .next t ∧
       t.dev.get (F.LOOPn_YY_CTRL_MODE p.val) = v.toNat % 8 ∧ t.dev.get (F.LOOPn_YY_CTRL_POINT p.val) = v.toNat / 8 % 4 ∧
       t.dev.get (F.LOOPn_YY_CTRL_CAPSYNC p.val) = v.toNat / 64 % 2 ∧
       t.dev.get (F.LOOPn_YY_CTRL_ARM p.val) =
         (if v.toNat / 32 % 2 = 1 then 1 else s.dev.get (F.LOOPn_YY_CTRL_ARM p.val)) ∧
       onlyRegsRec [F.LOOPn_YY_CTRL_MODE p.val, F.LOOPn_YY_CTRL_POINT p.val, F.LOOPn_YY_CTRL_CAPSYNC p.val,
         F.LOOPn_YY_CTRL_ARM p.val] s.settled t := by
  have placed := yyReg_placed (d := s.settled.dev) (p := p) (v := v.toNat) hs hv he
  have only := Dev.fieldsWritten_recOnly placed
  have regs := (s.settled.dev.yyPlaced_regsRec p.val v.toNat).trans ⟨only.1, regsKeep_mono only.2 (fun _ h => List.mem_append_left _ h)⟩
  refine ⟨_, exec_loopnYyArm hp hm hq rfl (by rw [regs.frame]; rfl), ?_, ?_, ?_, ?_, regs.onlyRegsRec⟩
  · exact (only.2 _ (yyFlds_notRec p _ (by simp))).trans (Dev.yyPlaced_mode ..)
  · exact (only.2 _ (yyFlds_notRec p _ (by simp))).trans (Dev.yyPlaced_point ..)
  · exact (only.2 _ (yyFlds_notRec p _ (by simp))).trans (Dev.yyPlaced_sync ..)
  · exact (only.2 _ (yyFlds_notRec p _ (by simp))).trans (Dev.yyPlaced_arm ..)

omit hs in
/-- While a path of the port runs every field waits in its shadow for the PATH boundary, in the order of their places. -/
theorem exec_loopnYyArm_waits (he : s.dev.onPath p.val = true) (ha : v.toNat / 32 % 2 = 1) :
    ∃ t : State, exec (.loopnYyArm p v) s = .next t ∧
       t.dev.get (F.LOOPn_YY_CTRL_ARM p.val) = s.dev.get (F.LOOPn_YY_CTRL_ARM p.val) ∧
       t.dev.get (F.LOOPn_YY_CTRL_MODE p.val) = s.dev.get (F.LOOPn_YY_CTRL_MODE p.val) ∧
       t.dev.shadow.find? (fun e => decide (e.fld = F.LOOPn_YY_CTRL_ARM p.val)) =
         some ⟨F.LOOPn_YY_CTRL_ARM p.val, .path, some p.val, 1⟩ ∧ t.mem = s.mem := by
  have only := Dev.fieldsWritten_recOnly (yyReg_waiting (d := s.settled.dev) (p := p) (v := v.toNat) he ha)
  have shown : ∀ G : Fld, G.key ∉ recFlds.map Fld.key →
      (s.settled.dev.fieldsWritten (yyReg p) (F.LOOPn_YY_CTRL_ARM p.val).addr v.toNat).get G = s.dev.get G :=
    fun G hG => (only.2 G hG).trans (Dev.yyWaiting_get s.settled.dev _ _ G)
  generalize hd : s.settled.dev.fieldsWritten (yyReg p) (F.LOOPn_YY_CTRL_ARM p.val).addr v.toNat = d' at only shown
  have queue : d'.wq = [] := by
    rw [only.1]
    exact Dev.yyWaiting_wq s.settled.dev p.val v.toNat
  have waits : d'.shadow = (s.settled.dev.yyWaiting p.val v.toNat).shadow := (congrArg Dev.shadow only.1 :)
  refine ⟨_, exec_loopnYyArm hp hm hq hd queue, shown _ (yyFlds_notRec p _ (by simp)), shown _ (yyFlds_notRec p _ (by simp)), ?_, rfl⟩
  exact (congrArg (List.find? _) waits).trans (Dev.yyWaiting_arm ..)

end

/-! ## A capture is started (R207) -/

/-- START of LOOPn_CAP_CTRL. -/
def capField : FieldSpec := ⟨"START", 0, 1, 0x0, .w1s, .imm, .any⟩

/-- LOOPn_CAP_CTRL of port p. -/
def capReg (p : Port) : RegHit := ⟨⟨"LOOPn_CAP_CTRL", 0x181040, 128, 32, 0, 1, .port, [capField]⟩, p.val, 0⟩

theorem capReg_found : ∀ p : Port, regFind (F.LOOPn_CAP_CTRL_START p.val).addr regSpecs = some (capReg p) := by decide

theorem capReg_aligned : ∀ p : Port, (F.LOOPn_CAP_CTRL_START p.val).addr % 4 = 0 := by decide

theorem capReg_low : ∀ p : Port, (F.LOOPn_CAP_CTRL_START p.val).addr < 0x2E0000 := by decide

theorem capReg_accepted {d : Dev} {p : Port} (v : Nat) (hp : d.variant = .ax32 ∨ p.val < 16) :
    d.writeRefused (capReg p) (F.LOOPn_CAP_CTRL_START p.val).addr v = false := by
  rw [Dev.writeRefused, Dev.regAbsent_port (h := capReg p) rfl hp]
  rfl

/-- START is only an action: the register holds nothing of the word. -/
theorem capReg_written (d : Dev) (p : Port) (a v : Nat) : d.fieldsWritten (capReg p) a v = d := by
  refine Dev.fieldsWritten_same (Dev.applyField_skips (d := d) (h := capReg p) (a := a) (v := v) (f := capField) (.inr ⟨rfl, rfl⟩)) (fun f hf => ?_)
  rw [List.mem_singleton.mp (hf : f ∈ [capField])]
  rfl

/-- A write of LOOPn_CAP_CTRL changes what START changes (R207). -/
theorem exec_loopnCapStart {p : Port} {v : Word} {s : State} (hp : s.dev.variant = .ax32 ∨ p.val < 16) {d' : Dev}
    (hd : (if bitAt v.toNat 0 then s.settled.dev.capStart p.val else s.settled.dev) = d') (hw : d'.wq = []) :
    exec (.loopnCapStart p v) s = .next { s with dev := d' } :=
  congrArg Host.Outcome.next (State.regWrite_accepted (capReg_aligned p) (capReg_found p) rfl rfl (capReg_accepted v.toNat hp)
    (Dev.notHeld_below _ (capReg_low p)) (by rw [capReg_written]; exact hd) hw)

section
variable {p : Port} {v : Word} {s : State} (hp : s.dev.variant = .ax32 ∨ p.val < 16)
include hp

theorem exec_loopnCapStart_starts (ho : v.toNat % 2 = 1) (hc : (s.dev.loopOfPort p.val).cap ≠ .running) :
    ∃ t : State, exec (.loopnCapStart p v) s = .next t ∧
       (t.dev.loopOfPort p.val).cap = (if s.dev.get (F.LOOPn_YY_CTRL_CAPSYNC p.val) = 0 then CapState.running else CapState.waiting) ∧
       t.dev.get (F.LOOPn_STAT_CAP_BUSY p.val) = 1 ∧ t.dev.get (F.LOOPn_CAP_WR_COUNT p.val) = 0 ∧
       t = { s with dev := { s.dev with regs := t.dev.regs, loops := t.dev.loops, wq := [] } } ∧
       regsKeep [F.LOOPn_STAT_CAP_BUSY p.val, F.LOOPn_CAP_WR_COUNT p.val] s.dev t.dev := by
  have hb : bitAt v.toNat 0 = true := by simp [bitAt, ho]
  have apart : ∀ p : Port, (F.LOOPn_CAP_WR_COUNT p.val).key ≠ (F.LOOPn_STAT_CAP_BUSY p.val).key := by decide
  have start : s.settled.dev.capStart p.val = ((s.settled.dev.updLoop p.val (fun l => { l with
      cap := if s.dev.flag (F.LOOPn_YY_CTRL_CAPSYNC p.val) then .waiting else .running })).put (F.LOOPn_STAT_CAP_BUSY p.val) 1).put
        (F.LOOPn_CAP_WR_COUNT p.val) 0 := by
    unfold Dev.capStart
    exact if_neg (fun h => hc (of_decide_eq_true h))
  refine ⟨_, exec_loopnCapStart hp (by rw [if_pos hb, start]) rfl, ?_, ?_, ?_, rfl, ?_⟩
  · rw [Dev.loopOfPort_put, Dev.loopOfPort_put, Dev.updLoop_loopOfPort]
    simp [Dev.flag, ite_not]
  · rw [Dev.get_put_ne _ _ _ _ (apart p), Dev.get_put_self]
    rfl
  · exact Dev.get_put_self ..
  · exact regsKeep_trans (regsKeep_trans (regsKeep_of_regs rfl) (regsKeep_put _ _ _ (by simp))) (regsKeep_put _ _ _ (by simp))

theorem exec_loopnCapStart_none (h : v.toNat % 2 = 0 ∨ (s.dev.loopOfPort p.val).cap = .running) :
    exec (.loopnCapStart p v) s = .next s.settled := by
  refine exec_loopnCapStart hp ?_ rfl
  obtain h | h := h
  · exact if_neg (by simp [bitAt, h])
  · have idle : s.settled.dev.capStart p.val = s.settled.dev := if_pos (decide_eq_true h)
    rw [idle]
    exact ite_self _

end

/-! ## A camera is triggered (R234) -/

/-- MODE of CAMm_TRIG. -/
def trigMode : FieldSpec := ⟨"MODE", 0, 2, 0x0, .rw, .imm, .any⟩
/-- FIRE of CAMm_TRIG. -/
def trigFire : FieldSpec := ⟨"FIRE", 2, 1, 0x0, .w1s, .imm, .any⟩
/-- WIDTH of CAMm_TRIG. -/
def trigWidth : FieldSpec := ⟨"WIDTH", 8, 8, 0xA, .rw, .imm, .any⟩

/-- CAMm_TRIG of receiver m. -/
def trigReg (m : Cam) : RegHit := ⟨⟨"CAMm_TRIG", 0x200014, 256, 8, 0, 1, .device, [trigMode, trigFire, trigWidth]⟩, m.val, 0⟩

theorem trigReg_found : ∀ m : Cam, regFind (F.CAMm_TRIG_FIRE m.val).addr regSpecs = some (trigReg m) := by decide

theorem trigReg_aligned : ∀ m : Cam, (F.CAMm_TRIG_FIRE m.val).addr % 4 = 0 := by decide

theorem trigReg_low : ∀ m : Cam, (F.CAMm_TRIG_FIRE m.val).addr < 0x2E0000 := by decide

theorem trigFlds_notRec : ∀ m : Cam, ∀ G ∈ [F.CAMm_TRIG_MODE m.val, F.CAMm_TRIG_WIDTH m.val], G.key ∉ recFlds.map Fld.key := by decide

/-- Every device has the registers of the device itself, but for the pairs beyond its own (R3). -/
theorem Dev.regAbsent_device (d : Dev) {h : RegHit} (ho : h.spec.owner = .device) (hn : h.holds (F.ENG_PAIRk_STATE 0) = false) :
    d.regAbsent h = false := by
  unfold Dev.regAbsent
  rw [ho]
  simp [hn]

theorem trigReg_accepted (d : Dev) (m : Cam) (v : Nat) : d.writeRefused (trigReg m) (F.CAMm_TRIG_FIRE m.val).addr v = false := by
  rw [Dev.writeRefused, Dev.regAbsent_device (h := trigReg m) d rfl rfl]
  rfl

/-- The device once the fields of CAMm_TRIG hold their parts of the word. -/
def Dev.trigPlaced (d : Dev) (m v : Nat) : Dev := (d.put (F.CAMm_TRIG_MODE m) (v % 4)).put (F.CAMm_TRIG_WIDTH m) (v / 256 % 256)

theorem trigReg_placed {d : Dev} (m : Cam) (v : Nat) (hs : d.shadow = []) (hv : d.oldViews = []) :
    (trigReg m).spec.fields.foldl (fun d f => d.applyField (trigReg m) (F.CAMm_TRIG_FIRE m.val).addr v f) d = d.trigPlaced m.val v := by
  have mode : trigMode.bits v = v % 4 := congrArg (· % 4) (Nat.div_one v)
  show List.foldl _ d [trigMode, trigFire, trigWidth] = _
  rw [List.foldl_cons, List.foldl_cons, List.foldl_cons, List.foldl_nil, Dev.applyField_live (f := trigMode) rfl (.inl rfl) hs hv rfl,
    Dev.applyField_skips (f := trigFire) (.inr ⟨rfl, rfl⟩), mode]
  exact Dev.applyField_live (f := trigWidth) rfl (.inl rfl) hs hv rfl

theorem Dev.trigPlaced_regsKeep (d : Dev) (m v : Nat) : regsKeep [F.CAMm_TRIG_MODE m, F.CAMm_TRIG_WIDTH m] d (d.trigPlaced m v) :=
  regsKeep_trans (regsKeep_put _ _ _ (by simp)) (regsKeep_put _ _ _ (by simp))

theorem Dev.trigPlaced_mode (d : Dev) (m : Cam) (v : Nat) : (d.trigPlaced m.val v).get (F.CAMm_TRIG_MODE m.val) = v % 4 := by
  have apart : ∀ m : Cam, (F.CAMm_TRIG_WIDTH m.val).key ≠ (F.CAMm_TRIG_MODE m.val).key := by decide
  rw [Dev.trigPlaced, Dev.get_put_ne _ _ _ _ (apart m), Dev.get_put_self]
  exact Nat.mod_mod ..

theorem Dev.trigPlaced_width (d : Dev) (m : Cam) (v : Nat) : (d.trigPlaced m.val v).get (F.CAMm_TRIG_WIDTH m.val) = v / 256 % 256 :=
  (Dev.get_put_self ..).trans (Nat.mod_mod ..)

section
variable (d old : Dev) (m v : Nat)

/-- A write of CAMm_TRIG acts on the receiver alone. -/
theorem Dev.trigWritten_frame : d.trigWritten old m v = { d with sns := (d.trigWritten old m v).sns } := by
  unfold Dev.trigWritten
  dsimp only
  split <;> split <;> rfl

/-- FIRE is noted with its T-tick in any mode but 0 (R234). -/
theorem Dev.trigWritten_fire : ((d.trigWritten old m v).cam m).fire =
    if v / 4 % 2 = 1 ∧ d.get (F.CAMm_TRIG_MODE m) ≠ 0 then some d.tick else (d.cam m).fire := by
  have tick : ∀ f : CamRx → CamRx, (d.updCam m f).tick = d.tick := fun _ => rfl
  have bit : (bitAt v 2 && d.get (F.CAMm_TRIG_MODE m) != 0) = true ↔ v / 4 % 2 = 1 ∧ d.get (F.CAMm_TRIG_MODE m) ≠ 0 := by simp [bitAt]
  unfold Dev.trigWritten
  dsimp only
  simp only [bit]
  split <;> split <;> simp [tick]

end

/-- A write of CAMm_TRIG places MODE and WIDTH, and notes FIRE. -/
theorem exec_cammTrigFire {m : Cam} {v : Word} {s : State} (hs : s.dev.shadow = []) (hv : s.dev.oldViews = []) :
    ∃ t : State, exec (.cammTrigFire m v) s = .next t ∧ t.dev.get (F.CAMm_TRIG_MODE m.val) = v.toNat % 4 ∧
       t.dev.get (F.CAMm_TRIG_WIDTH m.val) = v.toNat / 256 % 256 ∧
       (t.dev.cam m.val).fire = (if v.toNat / 4 % 2 = 1 ∧ v.toNat % 4 ≠ 0 then some s.dev.tick else (s.dev.cam m.val).fire) ∧
       t.mem = s.mem ∧ regsKeep (recFlds ++ [F.CAMm_TRIG_MODE m.val, F.CAMm_TRIG_WIDTH m.val]) s.dev t.dev := by
  obtain ⟨w, hw⟩ : ∃ w, s.settled.dev.fieldsWritten (trigReg m) (F.CAMm_TRIG_FIRE m.val).addr v.toNat = w := ⟨_, rfl⟩
  have only : (s.settled.dev.trigPlaced m.val v.toNat).recOnly w := hw ▸ Dev.fieldsWritten_recOnly (trigReg_placed m v.toNat hs hv)
  have frame := w.trigWritten_frame s.settled.dev m.val v.toNat
  have regs : ∀ G : Fld, (w.trigWritten s.settled.dev m.val v.toNat).get G = w.get G :=
    fun G => Dev.get_congr G (by rw [frame])
  have mode : w.get (F.CAMm_TRIG_MODE m.val) = v.toNat % 4 :=
    (only.2 _ (trigFlds_notRec m _ (by simp))).trans (Dev.trigPlaced_mode ..)
  refine ⟨_, congrArg Host.Outcome.next (State.regWrite_accepted (trigReg_aligned m) (trigReg_found m) rfl rfl (trigReg_accepted _ m _)
    (Dev.notHeld_below _ (trigReg_low m)) (d' := w.trigWritten s.settled.dev m.val v.toNat) (by rw [hw]; rfl) ?_), ?_, ?_, ?_, rfl, ?_⟩
  · rw [frame, only.1]
    rfl
  · exact (regs _).trans mode
  · exact (regs _).trans ((only.2 _ (trigFlds_notRec m _ (by simp))).trans (Dev.trigPlaced_width ..))
  · rw [Dev.trigWritten_fire, mode, only.1]
    rfl
  · exact regsKeep_trans (regsKeep_trans (regsKeep_mono (s.settled.dev.trigPlaced_regsKeep m.val v.toNat) (fun _ h => List.mem_append_right _ h))
      (regsKeep_mono only.2 (fun _ h => List.mem_append_left _ h))) (fun G _ => regs G)

/-! ## The cursor of the ring (R382) -/

/-- SEQ of EVR_CURSOR. -/
def cursorField : FieldSpec := ⟨"SEQ", 0, 32, 0x0, .rw, .imm, .any⟩

/-- EVR_CURSOR. -/
def cursorReg : RegHit := soleReg "EVR_CURSOR" 0x330014 cursorField

theorem cursorReg_accepted (d : Dev) (v : Nat) : d.writeRefused cursorReg F.EVR_CURSOR_SEQ.addr v = false := by
  rw [Dev.writeRefused, Dev.regAbsent_device (h := cursorReg) d rfl rfl]
  rfl

theorem cursorReg_placed {d : Dev} (v : Nat) (hs : d.shadow = []) (hv : d.oldViews = []) :
    cursorReg.spec.fields.foldl (fun d f => d.applyField cursorReg F.EVR_CURSOR_SEQ.addr v f) d = d.put F.EVR_CURSOR_SEQ (v % 2 ^ 32) := by
  have bits : cursorField.bits v = v % 2 ^ 32 := congrArg (· % 2 ^ 32) (Nat.div_one v)
  exact (Dev.applyField_live (d := d) (h := cursorReg) (f := cursorField) rfl (.inl rfl) hs hv rfl).trans (by rw [bits]; rfl)

/-- The window holds the records of the eight sequences from the cursor. -/
theorem Dev.loadWindow_win (d : Dev) {r : Nat} (hr : r < 8) :
    d.loadWindow.evr.win.getD r none = d.ringFind (d.getW F.EVR_CURSOR_SEQ + BitVec.ofNat 32 r) := by
  unfold Dev.loadWindow
  dsimp only
  rw [List.getD_eq_getElem?_getD, List.getElem?_map]
  have at_ : (upTo 8)[r]? = some r := by revert r; decide
  rw [at_]
  dsimp only [Option.map_some, Option.getD_some]
  split <;> simp_all

/-- The records that the ring holds depend on its slots alone. -/
theorem Dev.ringFind_congr {d e : Dev} (h : e.evr.slots = d.evr.slots) (q : Word) : e.ringFind q = d.ringFind q := by
  unfold Dev.ringFind
  rw [h]

theorem exec_evrCursorWrite {v : Word} {s : State} (hs : s.dev.shadow = []) (hv : s.dev.oldViews = []) :
    ∃ t : State, exec (.evrCursorWrite v) s = .next t ∧ t.dev.get F.EVR_CURSOR_SEQ = v.toNat ∧
       (∀ r : Nat, r < 8 → t.dev.evr.win.getD r none = s.dev.ringFind (v + BitVec.ofNat 32 r)) ∧ t.dev.evr.slots = s.dev.evr.slots ∧
       t = { s with dev := { s.dev with regs := t.dev.regs, evr := t.dev.evr, wq := [] } } ∧
       regsKeep (recFlds ++ [F.EVR_CURSOR_SEQ]) s.dev t.dev := by
  obtain ⟨w, hw⟩ : ∃ w, s.settled.dev.fieldsWritten cursorReg F.EVR_CURSOR_SEQ.addr v.toNat = w := ⟨_, rfl⟩
  have placed := cursorReg_placed (d := s.settled.dev) v.toNat hs hv
  have only := hw ▸ Dev.fieldsWritten_recOnly (a := F.EVR_CURSOR_SEQ.addr) placed
  have slots : w.evr.slots = (s.settled.dev.put F.EVR_CURSOR_SEQ (v.toNat % 2 ^ 32)).evr.slots := hw ▸ Dev.fieldsWritten_slots (a := F.EVR_CURSOR_SEQ.addr) placed
  have cursor : w.get F.EVR_CURSOR_SEQ = v.toNat := by
    rw [only.2 _ (by decide), Dev.get_put_self]
    exact (Nat.mod_mod ..).trans (Nat.mod_eq_of_lt v.isLt)
  have regs := (((Dev.RegsRec.refl s.settled.dev).put (fs := [F.EVR_CURSOR_SEQ]) (G := F.EVR_CURSOR_SEQ) (v.toNat % 2 ^ 32) (by simp)).trans
    ⟨only.1, regsKeep_mono only.2 (fun _ h => List.mem_append_left _ h)⟩).setEvr w.loadWindow.evr
  refine ⟨_, congrArg Host.Outcome.next (State.regWrite_accepted (h := cursorReg) rfl (by decide) rfl rfl (cursorReg_accepted _ _)
    rfl (d' := w.loadWindow) (by rw [hw]; rfl) ?_), cursor, fun r hr => ?_, slots, ?_, regs.keeps⟩
  · rw [show w.loadWindow = _ from regs.frame]
    rfl
  · rw [Dev.loadWindow_win _ hr, Dev.ringFind_congr slots, Dev.getW, cursor, BitVec.ofNat_toNat, BitVec.setWidth_eq]
    rfl
  · exact congrArg (State.mk s.pending s.mem) regs.frame

/-! ## The ring is frozen and released, and the cursor moves on (R382, R383) -/

/-- FREEZE of EVR_CTRL. -/
def freezeField : FieldSpec := ⟨"FREEZE", 0, 1, 0x0, .rw, .imm, .any⟩
/-- NEXT of EVR_CTRL. -/
def nextField : FieldSpec := ⟨"NEXT", 1, 1, 0x0, .w1s, .imm, .any⟩
/-- PERSIST of EVR_CTRL. -/
def persistField : FieldSpec := ⟨"PERSIST", 2, 1, 0x1, .rw, .imm, .any⟩

/-- EVR_CTRL. -/
def evrReg : RegHit := ⟨⟨"EVR_CTRL", 0x330000, 0, 1, 0, 1, .device, [freezeField, nextField, persistField]⟩, 0, 0⟩

theorem evrReg_accepted (d : Dev) (v : Nat) : d.writeRefused evrReg 0x330000 v = false := by
  rw [Dev.writeRefused, Dev.regAbsent_device (h := evrReg) d rfl rfl]
  rfl

/-- The device once the fields of EVR_CTRL hold their parts of the word. -/
def Dev.evrPlaced (d : Dev) (v : Nat) : Dev := (d.put F.EVR_CTRL_FREEZE (v % 2)).put F.EVR_CTRL_PERSIST (v / 4 % 2)

theorem evrReg_placed {d : Dev} (v : Nat) (hs : d.shadow = []) (hv : d.oldViews = []) :
    evrReg.spec.fields.foldl (fun d f => d.applyField evrReg 0x330000 v f) d = d.evrPlaced v := by
  have freeze : freezeField.bits v = v % 2 := congrArg (· % 2) (Nat.div_one v)
  show List.foldl _ d [freezeField, nextField, persistField] = _
  rw [List.foldl_cons, List.foldl_cons, List.foldl_cons, List.foldl_nil, Dev.applyField_live (f := freezeField) rfl (.inl rfl) hs hv rfl,
    Dev.applyField_skips (f := nextField) (.inr ⟨rfl, rfl⟩), freeze]
  exact Dev.applyField_live (f := persistField) rfl (.inl rfl) hs hv rfl

theorem Dev.evrPlaced_regsRec (d : Dev) (v : Nat) : d.RegsRec [F.EVR_CTRL_FREEZE, F.EVR_CTRL_PERSIST] (d.evrPlaced v) :=
  ((Dev.RegsRec.refl d).put _ (by decide)).put _ (by decide)

/-- The ring is frozen, or released. -/
def Dev.frozenTo (d : Dev) (on : Bool) : Dev := if on then d.freeze else d.unfreeze false

section
variable (d : Dev) (on : Bool)

theorem Dev.frozenTo_regsRec : d.RegsRec [F.EVR_STAT_FROZEN, F.EVR_CTRL_FREEZE] (d.frozenTo on) := by
  unfold Dev.frozenTo
  split
  · unfold Dev.freeze
    split
    · exact Dev.RegsRec.refl d
    · exact (((Dev.RegsRec.refl d).put (G := F.EVR_STAT_FROZEN) _ (by decide)).setEvr _).raise _ _ _ _ _ _
  · unfold Dev.unfreeze
    split
    · exact (((Dev.RegsRec.refl d).put (G := F.EVR_STAT_FROZEN) _ (by decide)).put (G := F.EVR_CTRL_FREEZE) _ (by decide)).raise _ _ _ _ _ _
    · exact Dev.RegsRec.refl d

theorem Dev.frozenTo_slots : (d.frozenTo on).evr.slots = d.evr.slots := by
  unfold Dev.frozenTo Dev.freeze Dev.unfreeze
  split
  · split
    · rfl
    · exact Dev.raise_slots ..
  · split
    · exact Dev.raise_slots ..
    · rfl

/-- FROZEN follows FREEZE. -/
theorem Dev.frozenTo_frozen (h : d.get F.EVR_STAT_FROZEN < 2) : (d.frozenTo on).get F.EVR_STAT_FROZEN = b2n on := by
  unfold Dev.frozenTo
  cases on
  case true =>
    unfold Dev.freeze Dev.frozen Dev.flag
    rw [if_pos rfl]
    split
    next hf => simp at hf; simp [b2n]; omega
    next => exact (Dev.get_raise _ _ _ _ _ _ _ _ (by decide)).trans (Dev.get_put_self d F.EVR_STAT_FROZEN 1)
  case false =>
    unfold Dev.unfreeze Dev.frozen Dev.flag
    rw [if_neg (by simp)]
    split
    next =>
      exact (Dev.get_raise _ _ _ _ _ _ _ _ (by decide)).trans
        ((Dev.get_put_ne _ _ _ _ (by decide)).trans (Dev.get_put_self d F.EVR_STAT_FROZEN 0))
    next hf => simpa [b2n] using hf

/-- FREEZE keeps the value that it was given. -/
theorem Dev.frozenTo_freeze (h : d.get F.EVR_CTRL_FREEZE = b2n on) : (d.frozenTo on).get F.EVR_CTRL_FREEZE = b2n on := by
  unfold Dev.frozenTo
  cases on
  case true =>
    unfold Dev.freeze
    rw [if_pos rfl]
    split
    · exact h
    · exact (Dev.get_raise _ _ _ _ _ _ _ _ (by decide)).trans
        ((Dev.get_put_ne d F.EVR_STAT_FROZEN F.EVR_CTRL_FREEZE 1 (by decide)).trans h)
  case false =>
    unfold Dev.unfreeze
    rw [if_neg (by simp)]
    split
    · exact (Dev.get_raise _ _ _ _ _ _ _ _ (by decide)).trans (Dev.get_put_self _ _ _)
    · exact h

/-- A freeze counts from now. -/
theorem Dev.frozenTo_freezeAt (h : d.get F.EVR_STAT_FROZEN = 0) : (d.frozenTo true).evr.freezeAt = d.time := by
  unfold Dev.frozenTo Dev.freeze Dev.frozen Dev.flag
  rw [if_pos rfl, if_neg (by simp [h])]
  exact Dev.raise_freezeAt ..

end

/-- The cursor moves on by eight records where NEXT asks for it. -/
def Dev.movedOn (d : Dev) (next : Bool) : Dev :=
  if next then (d.put F.EVR_CURSOR_SEQ (d.get F.EVR_CURSOR_SEQ + 8)).loadWindow else d

theorem Dev.evrWritten_eq (d : Dev) (v : Nat) : d.evrWritten v = (d.frozenTo (bitAt v 0)).movedOn (bitAt v 1) := rfl

theorem Dev.movedOn_get (d : Dev) (next : Bool) {G : Fld} (hG : F.EVR_CURSOR_SEQ.key ≠ G.key) : (d.movedOn next).get G = d.get G := by
  unfold Dev.movedOn
  split
  · exact Dev.get_put_ne _ _ _ _ hG
  · rfl

theorem Dev.movedOn_slots (d : Dev) (next : Bool) : (d.movedOn next).evr.slots = d.evr.slots := by
  unfold Dev.movedOn
  split <;> rfl

theorem Dev.movedOn_freezeAt (d : Dev) (next : Bool) : (d.movedOn next).evr.freezeAt = d.evr.freezeAt := by
  unfold Dev.movedOn
  split <;> rfl

theorem Dev.movedOn_wq (d : Dev) (next : Bool) : (d.movedOn next).wq = d.wq := by
  unfold Dev.movedOn
  split <;> rfl

theorem Dev.getW_putW (d : Dev) (G : Fld) (n : Nat) (h : G.width = 32) : (d.put G n).getW G = BitVec.ofNat 32 n := by
  rw [Dev.getW, Dev.get_put_self, h]
  exact BitVec.eq_of_toNat_eq (by simp)

/-- NEXT moves the cursor by eight and loads the window from there (R382). -/
theorem Dev.movedOn_next (d : Dev) : (d.movedOn true).getW F.EVR_CURSOR_SEQ = d.getW F.EVR_CURSOR_SEQ + 8 ∧
    ∀ r : Nat, r < 8 → (d.movedOn true).evr.win.getD r none = d.ringFind (d.getW F.EVR_CURSOR_SEQ + 8 + BitVec.ofNat 32 r) := by
  have cursor : (d.put F.EVR_CURSOR_SEQ (d.get F.EVR_CURSOR_SEQ + 8)).getW F.EVR_CURSOR_SEQ = d.getW F.EVR_CURSOR_SEQ + 8 := by
    rw [Dev.getW_putW _ _ _ rfl, BitVec.ofNat_add]
    rfl
  exact ⟨cursor, fun r hr => (Dev.loadWindow_win _ hr).trans (by rw [cursor]; rfl)⟩

section
variable {v : Word} {s : State} (hs : s.dev.shadow = []) (hv : s.dev.oldViews = [])
include hs hv

/-- What the fields of EVR_CTRL hold, and that no record of the ring has changed. -/
theorem evrReg_written {w : Dev} (hw : s.settled.dev.fieldsWritten evrReg 0x330000 v.toNat = w) :
    s.settled.dev.RegsRec [F.EVR_CTRL_FREEZE, F.EVR_CTRL_PERSIST] w ∧ w.get F.EVR_CTRL_FREEZE = v.toNat % 2 ∧
      w.get F.EVR_CTRL_PERSIST = v.toNat / 4 % 2 ∧ w.evr.slots = s.dev.evr.slots := by
  subst hw
  have placed := evrReg_placed (d := s.settled.dev) v.toNat hs hv
  have only := Dev.fieldsWritten_recOnly (a := 0x330000) placed
  refine ⟨(s.settled.dev.evrPlaced_regsRec v.toNat).trans ⟨only.1, regsKeep_mono only.2 (fun _ h => List.mem_append_left _ h)⟩, ?_, ?_,
    (Dev.fieldsWritten_slots (a := 0x330000) placed).trans rfl⟩
  · rw [only.2 _ (by decide), Dev.evrPlaced, Dev.get_put_ne _ _ _ _ (by decide), Dev.get_put_self]
    exact Nat.mod_mod ..
  · rw [only.2 _ (by decide), Dev.evrPlaced, Dev.get_put_self]
    exact Nat.mod_mod ..

theorem State.regWrite_evrCtrl {w : Dev} (hw : s.settled.dev.fieldsWritten evrReg 0x330000 v.toNat = w) :
    s.regWrite 0x330000 v = { s with dev := (w.frozenTo (bitAt v.toNat 0)).movedOn (bitAt v.toNat 1) } := by
  refine State.regWrite_accepted (h := evrReg) rfl (by decide) rfl rfl (evrReg_accepted _ _) rfl (by rw [hw]; rfl) ?_
  obtain ⟨regs, -, -, -⟩ := evrReg_written hs hv hw
  rw [Dev.movedOn_wq, ((w.frozenTo_regsRec _).frame), regs.frame]
  rfl

theorem exec_evrNext (hn : v.toNat / 2 % 2 = 1) : ∃ t : State, exec (.evrNext v) s = .next t ∧
    t.dev.getW F.EVR_CURSOR_SEQ = s.dev.getW F.EVR_CURSOR_SEQ + 8 ∧
    (∀ r : Nat, r < 8 → t.dev.evr.win.getD r none = s.dev.ringFind (s.dev.getW F.EVR_CURSOR_SEQ + 8 + BitVec.ofNat 32 r)) ∧
    t.dev.evr.slots = s.dev.evr.slots ∧ t.mem = s.mem := by
  obtain ⟨w, hw⟩ : ∃ w, s.settled.dev.fieldsWritten evrReg 0x330000 v.toNat = w := ⟨_, rfl⟩
  obtain ⟨regs, -, -, slots⟩ := evrReg_written hs hv hw
  have next : bitAt v.toNat 1 = true := by simp [bitAt, hn]
  have held : (w.frozenTo (bitAt v.toNat 0)).evr.slots = s.dev.evr.slots := (Dev.frozenTo_slots ..).trans slots
  have cursor : (w.frozenTo (bitAt v.toNat 0)).getW F.EVR_CURSOR_SEQ = s.dev.getW F.EVR_CURSOR_SEQ :=
    congrArg (BitVec.ofNat 32) (((w.frozenTo_regsRec _).keeps _ (by decide)).trans (regs.keeps _ (by decide)))
  obtain ⟨moved, win⟩ := (w.frozenTo (bitAt v.toNat 0)).movedOn_next
  refine ⟨_, congrArg Host.Outcome.next (State.regWrite_evrCtrl hs hv hw), ?_, fun r hr => ?_, (Dev.movedOn_slots ..).trans held, rfl⟩
  · rw [next, moved, cursor]
  · rw [next, win r hr, cursor, Dev.ringFind_congr held]

theorem exec_evrFreezeWrite (hf : s.dev.get F.EVR_STAT_FROZEN < 2) : ∃ t : State, exec (.evrFreezeWrite v) s = .next t ∧
    t.dev.get F.EVR_STAT_FROZEN = v.toNat % 2 ∧ t.dev.get F.EVR_CTRL_FREEZE = v.toNat % 2 ∧ t.dev.get F.EVR_CTRL_PERSIST = v.toNat / 4 % 2 ∧
    (v.toNat % 2 = 1 → s.dev.get F.EVR_STAT_FROZEN = 0 → t.dev.evr.freezeAt = s.dev.time) ∧
    t.dev.evr.slots = s.dev.evr.slots ∧ t.mem = s.mem := by
  obtain ⟨w, hw⟩ : ∃ w, s.settled.dev.fieldsWritten evrReg 0x330000 v.toNat = w := ⟨_, rfl⟩
  obtain ⟨regs, freeze, persist, slots⟩ := evrReg_written hs hv hw
  have was : w.get F.EVR_STAT_FROZEN = s.dev.get F.EVR_STAT_FROZEN := regs.keeps _ (by decide)
  have on : b2n (bitAt v.toNat 0) = v.toNat % 2 := by
    obtain h | h := Nat.mod_two_eq_zero_or_one v.toNat <;> simp [bitAt, b2n, h]
  have time : w.time = s.dev.time := by rw [regs.frame]; rfl
  refine ⟨_, congrArg Host.Outcome.next (State.regWrite_evrCtrl hs hv hw), ?_, ?_, ?_, fun h1 h0 => ?_,
    (Dev.movedOn_slots ..).trans ((Dev.frozenTo_slots ..).trans slots), rfl⟩
  · rw [Dev.movedOn_get _ _ (by decide), Dev.frozenTo_frozen _ _ (by rw [was]; exact hf), on]
  · rw [Dev.movedOn_get _ _ (by decide), Dev.frozenTo_freeze _ _ (freeze.trans on.symm), on]
  · rw [Dev.movedOn_get _ _ (by decide), (w.frozenTo_regsRec _).keeps _ (by decide), persist]
  · rw [Dev.movedOn_freezeAt, show bitAt v.toNat 0 = true by simp [bitAt, h1], Dev.frozenTo_freezeAt _ (was.trans h0), time]

end

/-! ## A snapshot of the time (R317) -/

/-- SNAP of PTP_SNAP. -/
def snapField : FieldSpec := ⟨"SNAP", 0, 1, 0x0, .w1s, .imm, .any⟩

/-- PTP_SNAP. -/
def snapReg : RegHit := soleReg "PTP_SNAP" 0x2A0030 snapField

/-- SNAP is only an action: the register holds nothing of the word. -/
theorem snapReg_written (d : Dev) (v : Nat) : d.fieldsWritten snapReg 0x2A0030 v = d := by
  refine Dev.fieldsWritten_same (Dev.applyField_skips (d := d) (h := snapReg) (a := 0x2A0030) (v := v) (f := snapField) (.inr ⟨rfl, rfl⟩))
    (fun f hf => ?_)
  rw [List.mem_singleton.mp (hf : f ∈ [snapField])]
  rfl

theorem exec_ptpSnap {v : Word} {s : State} {d' : Dev} (hd : (if bitAt v.toNat 0 then s.settled.dev.snapshot else s.settled.dev) = d')
    (hw : d'.wq = []) : exec (.ptpSnap v) s = .next { s with dev := d' } := by
  have accepted : s.settled.dev.writeRefused snapReg 0x2A0030 v.toNat = false := by
    rw [Dev.writeRefused, Dev.regAbsent_device (h := snapReg) _ rfl rfl]
    rfl
  exact congrArg Host.Outcome.next (State.regWrite_accepted (h := snapReg) rfl (by decide) rfl rfl accepted rfl
    (by rw [snapReg_written]; exact hd) hw)

theorem exec_ptpSnap_none {v : Word} {s : State} (h : v.toNat % 2 = 0) : exec (.ptpSnap v) s = .next s.settled :=
  exec_ptpSnap (if_neg (by simp [bitAt, h])) rfl

/-- The registers of a snapshot. -/
def snapFlds : List Fld := [F.PTP_SNAP_SEC_LO_SEC, F.PTP_SNAP_SEC_HI_SEC, F.PTP_SNAP_NS_NS, F.PTP_SNAP_TICK_TICK, F.PTP_SNAP_INT_LO_NS,
  F.PTP_SNAP_INT_HI_NS]

/-- The device with the registers of a snapshot set. -/
def Dev.snapPut (d : Dev) (sec high ns tick lo hi : Nat) : Dev :=
  (((((d.put F.PTP_SNAP_SEC_LO_SEC sec).put F.PTP_SNAP_SEC_HI_SEC high).put F.PTP_SNAP_NS_NS ns).put F.PTP_SNAP_TICK_TICK tick).put
    F.PTP_SNAP_INT_LO_NS lo).put F.PTP_SNAP_INT_HI_NS hi

section
variable (d : Dev) (sec high ns tick lo hi : Nat)

theorem Dev.snapPut_regsOnly : d.RegsOnly snapFlds (d.snapPut sec high ns tick lo hi) :=
  ((((((Dev.RegsOnly.refl d).put (by decide) sec).put (by decide) high).put (by decide) ns).put (by decide) tick).put (by decide) lo).put
    (by decide) hi

theorem Dev.snapPut_get : let e := d.snapPut sec high ns tick lo hi
    e.get F.PTP_SNAP_SEC_LO_SEC = sec % 2 ^ 32 ∧ e.get F.PTP_SNAP_NS_NS = ns % 2 ^ 32 ∧ e.get F.PTP_SNAP_TICK_TICK = tick % 2 ^ 32 ∧
      e.get F.PTP_SNAP_INT_LO_NS = lo % 2 ^ 32 ∧ e.get F.PTP_SNAP_INT_HI_NS = hi % 2 ^ 32 := by
  have ne : ∀ (e : Dev) (G H : Fld) (w x : Nat), G.key ≠ H.key → e.get H = x → (e.put G w).get H = x :=
    fun e G H w x hn hx => (Dev.get_put_ne e G H w hn).trans hx
  exact ⟨ne _ _ _ _ _ (by decide) (ne _ _ _ _ _ (by decide) (ne _ _ _ _ _ (by decide) (ne _ _ _ _ _ (by decide) (ne _ _ _ _ _ (by decide)
      (Dev.get_put_self ..))))),
    ne _ _ _ _ _ (by decide) (ne _ _ _ _ _ (by decide) (ne _ _ _ _ _ (by decide) (Dev.get_put_self ..))),
    ne _ _ _ _ _ (by decide) (ne _ _ _ _ _ (by decide) (Dev.get_put_self ..)), ne _ _ _ _ _ (by decide) (Dev.get_put_self ..),
    Dev.get_put_self ..⟩

end

theorem Dev.snapshot_eq (d : Dev) : d.snapshot = d.snapPut (d.time.toNat / 1000000000) (d.time.toNat / 1000000000 / 2 ^ 32)
    (d.time.toNat % 1000000000) d.tick.toNat d.time.toNat (d.time.toNat / 2 ^ 32) := rfl

theorem exec_ptpSnap_latches {v : Word} {s : State} (h : v.toNat % 2 = 1) : ∃ t : State, exec (.ptpSnap v) s = .next t ∧
    t.dev.get F.PTP_SNAP_SEC_LO_SEC = s.dev.time.toNat / 1000000000 % 2 ^ 32 ∧
    t.dev.get F.PTP_SNAP_NS_NS = s.dev.time.toNat % 1000000000 ∧ t.dev.get F.PTP_SNAP_TICK_TICK = s.dev.tick.toNat ∧
    t.dev.get F.PTP_SNAP_INT_LO_NS = s.dev.time.toNat % 2 ^ 32 ∧ t.dev.get F.PTP_SNAP_INT_HI_NS = s.dev.time.toNat / 2 ^ 32 ∧
    onlyRegs snapFlds s.settled t := by
  have snap := s.settled.dev.snapshot_eq
  rw [show s.settled.dev.time = s.dev.time from rfl, show s.settled.dev.tick = s.dev.tick from rfl] at snap
  have bound := s.dev.time.isLt
  have counter := s.dev.tick.isLt
  generalize s.dev.time.toNat = time at *
  generalize s.dev.tick.toNat = now at *
  obtain ⟨sec, ns, tick, lo, hi⟩ := s.settled.dev.snapPut_get (time / 1000000000) (time / 1000000000 / 2 ^ 32) (time % 1000000000) now time
    (time / 2 ^ 32)
  have only := s.settled.dev.snapPut_regsOnly (time / 1000000000) (time / 1000000000 / 2 ^ 32) (time % 1000000000) now time (time / 2 ^ 32)
  have on : bitAt v.toNat 0 = true := by simp [bitAt, h]
  have row := exec_ptpSnap (v := v) (s := s) ((if_pos on).trans snap) (by rw [only.frame]; rfl)
  exact ⟨_, row, sec, ns.trans (Nat.mod_eq_of_lt (by omega)), tick.trans (Nat.mod_eq_of_lt counter), lo,
    hi.trans (Nat.mod_eq_of_lt (by omega)), congrArg (State.mk s.pending s.mem) only.frame, only.keeps⟩

end Sys2Proof.Machine

/-! # A write of PTP_CTRL (11_link_and_time.md R314, R317)

A field that takes the value that it has leaves the register list as it was only where that list is in its normal form: where the list holds an
entry at a field's reset value, placing that value takes the entry away, and a reading with another reset value tells the two apart. The statement's rows before this one hold, each by its lemma above. -/

namespace Sys2Proof.Machine

open Sys2Proof.Safety

/-- A device whose register list shows EN of PTP_CTRL as 1, and COMPAT by an entry that holds its reset value. -/
def compatListed : State := { State.reset with dev := { State.reset.dev with regs := [(F.PTP_CTRL_EN.key, 1), (F.PTP_CTRL_COMPAT.key, 0)] } }

/-- COMPAT's place, read with the reset value 1. -/
def compatHigh : Fld := { F.PTP_CTRL_COMPAT with reset := 1 }

theorem compatListed_accepted : exec (.ptpAccept 0x101) compatListed = .next (compatListed.regWrite 0x2A0000 0x101) := rfl

/-- The write of the same COMPAT takes its entry away. -/
theorem compatListed_reads : (compatListed.regWrite 0x2A0000 0x101).dev.get compatHigh = 1 := by decide +kernel

/-- Refutes O33: its last clause says that ACCEPT out of REFUSING leaves what is read at every place, but in `compatListed` the write of the COMPAT that
the register has takes away the list's entry at the reset value, and the place reads as whatever reset value the reading names. -/
theorem not_hostAndRecorderRowsWrite : ¬ Obligations.HostAndRecorderRowsWrite := by
  intro h
  obtain ⟨-, -, -, accepts⟩ := h
  obtain ⟨-, other⟩ := accepts 0x101 compatListed rfl rfl (by decide) (by decide) (by decide) (by decide) (by decide) (by decide) (by decide)
    (by decide) (by decide) (by decide) (by decide)
  obtain ⟨t, ht, keeps, -⟩ := other (by decide)
  obtain rfl := Host.Outcome.next.inj (compatListed_accepted.symm.trans ht)
  have same := keeps compatHigh (by decide)
  rw [compatListed_reads] at same
  exact absurd same (by decide)

end Sys2Proof.Machine

/-! # Writes of lighting, encoder, axis and fault-table registers (R359, R277, R278, R286, R287, R261)

The enables of lighting and of an axis and the bits of the fault table are placed by their own blocks, so that such a write first only notes its change;
what the block then does is said once for each. -/

namespace Sys2Proof.Machine

open Sys2Proof.Safety

/-! ## LED_CTRL (R359) -/

/-- EN of LED_CTRL. -/
def ledEn : FieldSpec := ⟨"EN", 0, 1, 0x0, .rw, .imm, .any⟩
/-- APPLY of LED_CTRL. -/
def ledAsk : FieldSpec := ⟨"APPLY", 1, 1, 0x0, .w1s, .imm, .any⟩

/-- LED_CTRL. -/
def ledReg : RegHit := ⟨⟨"LED_CTRL", 0x310000, 0, 1, 0, 1, .device, [ledEn, ledAsk]⟩, 0, 0⟩

/-- Neither field of LED_CTRL takes its part before the block acts. -/
theorem ledReg_placed (d : Dev) (v : Nat) : ledReg.spec.fields.foldl (fun d f => d.applyField ledReg 0x310000 v f) d = d := by
  show List.foldl _ d [ledEn, ledAsk] = d
  rw [List.foldl_cons, List.foldl_cons, List.foldl_nil, Dev.applyField_skips (f := ledEn) (.inl rfl),
    Dev.applyField_skips (f := ledAsk) (.inr ⟨rfl, rfl⟩)]

/-- A transfer is asked for, or not. -/
def Dev.ledAsked (d : Dev) (on : Bool) : Dev := if on then d.ledApply else d

theorem Dev.ledAsked_led (d : Dev) (on : Bool) : (d.ledAsked on).led = d.led := by
  unfold Dev.ledAsked
  split <;> rfl

theorem Dev.ledAsked_wq (d : Dev) (on : Bool) : (d.ledAsked on).wq = d.wq := by
  unfold Dev.ledAsked
  split <;> rfl

theorem Dev.ledAsked_regsKeep (d : Dev) (on : Bool) : regsKeep [F.LED_CTRL_APPLY, F.LED_STAT_PEND] d (d.ledAsked on) := by
  unfold Dev.ledAsked
  split
  · exact regsKeep_trans (regsKeep_put _ _ _ (by simp)) (regsKeep_put _ _ _ (by simp))
  · exact regsKeep_refl _ d

theorem Dev.ledAsked_asks (d : Dev) : (d.ledAsked true).get F.LED_CTRL_APPLY = 1 ∧ (d.ledAsked true).get F.LED_STAT_PEND = 1 :=
  ⟨(Dev.get_put_ne _ _ _ _ (by decide)).trans (Dev.get_put_self ..), Dev.get_put_self ..⟩

/-- With EN 0 every line is off. -/
theorem Dev.ledEnable_off (d : Dev) : d.ledEnable false = (d.put F.LED_CTRL_EN 0).ledStop := rfl

/-- EN from 0 to 1 starts frames. -/
theorem Dev.ledEnable_on {d : Dev} (h : d.get F.LED_CTRL_EN = 0) : d.ledEnable true =
    { d.put F.LED_CTRL_EN 1 with led := { d.led with enAt := some d.tick, trips := [] } } := by
  have was : d.flag F.LED_CTRL_EN = false := by simp [Dev.flag, h]
  unfold Dev.ledEnable
  rw [was]
  rfl

theorem Dev.ledEnable_wq (d : Dev) (on : Bool) : (d.ledEnable on).wq = d.wq := by
  unfold Dev.ledEnable
  dsimp only
  split
  · rfl
  · split <;> rfl

theorem Dev.ledEnable_regsKeep (d : Dev) (on : Bool) : regsKeep [F.LED_CTRL_EN, F.LED_STAT_RUN] d (d.ledEnable on) := by
  have en : regsKeep [F.LED_CTRL_EN, F.LED_STAT_RUN] d (d.setFlag F.LED_CTRL_EN on) := regsKeep_put _ _ _ (by simp)
  unfold Dev.ledEnable
  dsimp only
  split
  · exact en
  · split
    · exact regsKeep_trans en (regsKeep_put _ F.LED_STAT_RUN 0 (by simp))
    · exact en

theorem Dev.ledWritten_eq (d : Dev) (v : Nat) : d.ledWritten v = (d.ledEnable (bitAt v 0)).ledAsked (bitAt v 1) := rfl

/-- What a write of LED_CTRL leaves: the device with the change noted, on which the block acts. -/
theorem State.regWrite_led (s : State) (v : Word) : ∃ w : Dev, s.settled.dev.recOnly w ∧
    s.regWrite 0x310000 v = { s with dev := (w.ledEnable (bitAt v.toNat 0)).ledAsked (bitAt v.toNat 1) } := by
  have accepted : s.settled.dev.writeRefused ledReg 0x310000 v.toNat = false := by
    rw [Dev.writeRefused, Dev.regAbsent_device (h := ledReg) _ rfl rfl]
    rfl
  have only := Dev.fieldsWritten_recOnly (ledReg_placed s.settled.dev v.toNat)
  refine ⟨_, only, State.regWrite_accepted (h := ledReg) rfl (by decide) rfl rfl accepted rfl rfl ?_⟩
  rw [Dev.ledAsked_wq, Dev.ledEnable_wq, only.1]
  rfl

section
variable {s : State} {v : Word}

theorem regWrite_led_off (h : v.toNat % 2 = 0) : ∃ t : State, s.regWrite 0x310000 v = t ∧ t.dev.get F.LED_CTRL_EN = 0 ∧
    t.dev.get F.LED_STAT_RUN = 0 ∧ t.dev.led.drive = none ∧ t.dev.led.frame = none ∧ t.mem = s.mem ∧
    regsKeep (recFlds ++ [F.LED_CTRL_EN, F.LED_STAT_RUN, F.LED_CTRL_APPLY, F.LED_STAT_PEND]) s.dev t.dev := by
  obtain ⟨w, only, row⟩ := s.regWrite_led v
  rw [show bitAt v.toNat 0 = false by simp [bitAt, h], Dev.ledEnable_off] at row
  refine ⟨_, row, ?_, ?_, ?_, ?_, rfl, ?_⟩
  · exact (Dev.ledAsked_regsKeep _ _ _ (by decide)).trans ((Dev.get_put_ne _ _ _ _ (by decide)).trans (Dev.get_put_self w F.LED_CTRL_EN 0))
  · exact (Dev.ledAsked_regsKeep _ _ _ (by decide)).trans (Dev.get_put_self _ F.LED_STAT_RUN 0)
  · rw [Dev.ledAsked_led]
    rfl
  · rw [Dev.ledAsked_led]
    rfl
  · exact regsKeep_trans (regsKeep_trans (regsKeep_mono only.2 (fun _ h => List.mem_append_left _ h))
      (regsKeep_mono (w.ledEnable_regsKeep false) (by decide))) (regsKeep_mono (Dev.ledAsked_regsKeep _ _) (by decide))

theorem regWrite_led_on (h : v.toNat % 2 = 1) (h0 : s.dev.get F.LED_CTRL_EN = 0) : ∃ t : State, s.regWrite 0x310000 v = t ∧
    t.dev.get F.LED_CTRL_EN = 1 ∧ t.dev.led.enAt = some s.dev.tick ∧ t.dev.led.trips = [] ∧ t.dev.led.drive = s.dev.led.drive ∧
    t.mem = s.mem ∧ regsKeep (recFlds ++ [F.LED_CTRL_EN, F.LED_CTRL_APPLY, F.LED_STAT_PEND]) s.dev t.dev := by
  obtain ⟨w, only, row⟩ := s.regWrite_led v
  have off : w.get F.LED_CTRL_EN = 0 := (only.2 _ (by decide)).trans h0
  have led : w.led = s.dev.led := by rw [only.1]; rfl
  have tick : w.tick = s.dev.tick := by rw [only.1]; rfl
  rw [show bitAt v.toNat 0 = true by simp [bitAt, h], Dev.ledEnable_on off] at row
  refine ⟨_, row, ?_, ?_, ?_, ?_, rfl, ?_⟩
  · exact (Dev.ledAsked_regsKeep _ _ _ (by decide)).trans (Dev.get_put_self w F.LED_CTRL_EN 1)
  · rw [Dev.ledAsked_led, tick]
  · rw [Dev.ledAsked_led]
  · rw [Dev.ledAsked_led, led]
  · exact regsKeep_trans (regsKeep_trans (regsKeep_mono only.2 (fun _ h => List.mem_append_left _ h))
      (regsKeep_put w F.LED_CTRL_EN 1 (by decide))) (regsKeep_mono (Dev.ledAsked_regsKeep _ _) (by decide))

theorem regWrite_led_apply (h : v.toNat / 2 % 2 = 1) : ∃ t : State, s.regWrite 0x310000 v = t ∧ t.dev.get F.LED_CTRL_APPLY = 1 ∧
    t.dev.get F.LED_STAT_PEND = 1 ∧ t.mem = s.mem ∧
    regsKeep (recFlds ++ [F.LED_CTRL_EN, F.LED_STAT_RUN, F.LED_CTRL_APPLY, F.LED_STAT_PEND]) s.dev t.dev := by
  obtain ⟨w, only, row⟩ := s.regWrite_led v
  rw [show bitAt v.toNat 1 = true by simp [bitAt, h]] at row
  refine ⟨_, row, (Dev.ledAsked_asks _).1, (Dev.ledAsked_asks _).2, rfl, ?_⟩
  exact regsKeep_trans (regsKeep_trans (regsKeep_mono only.2 (fun _ h => List.mem_append_left _ h))
    (regsKeep_mono (w.ledEnable_regsKeep _) (by decide))) (regsKeep_mono (Dev.ledAsked_regsKeep _ _) (by decide))

end

/-! ## QEe_CTRL (R277, R278) -/

/-- FILT of QEe_CTRL. -/
def encFilt : FieldSpec := ⟨"FILT", 0, 2, 0x1, .rw, .imm, .any⟩
/-- ZHOME of QEe_CTRL. -/
def encHome : FieldSpec := ⟨"ZHOME", 2, 1, 0x0, .rw, .imm, .any⟩
/-- PRESET of QEe_CTRL. -/
def encPre : FieldSpec := ⟨"PRESET", 3, 1, 0x0, .w1s, .imm, .any⟩
/-- REARM of QEe_CTRL. -/
def encArm : FieldSpec := ⟨"REARM", 4, 1, 0x0, .w1s, .imm, .any⟩

/-- QEe_CTRL of input e. -/
def encReg (e : Sys2Proof.Enc) : RegHit := ⟨⟨"QEe_CTRL", 0x2E0000, 64, 8, 0, 1, .device, [encFilt, encHome, encPre, encArm]⟩, e.val, 0⟩

/-- The address of QEe_CTRL. -/
def encAddr (e : Sys2Proof.Enc) : Nat := (F.QEe_CTRL_PRESET e.val).addr

theorem encReg_found : ∀ e : Sys2Proof.Enc, regFind (encAddr e) regSpecs = some (encReg e) := by decide

theorem encAddr_aligned : ∀ e : Sys2Proof.Enc, encAddr e % 4 = 0 := by decide

theorem encAddr_input : ∀ e : Sys2Proof.Enc, 0x2E0000 ≤ encAddr e ∧ encAddr e < 0x2E0200 ∧ (encAddr e - 0x2E0000) / 0x40 = e.val := by decide

theorem encFlds_notRec : ∀ e : Sys2Proof.Enc, ∀ G ∈ [F.QEe_CTRL_FILT e.val, F.QEe_CTRL_ZHOME e.val, F.QEe_COUNT_COUNT e.val,
    F.QEe_PRESET_VAL e.val, F.QEe_ERR_LOST e.val], G.key ∉ recFlds.map Fld.key := by decide

/-- The register is held at its reset values where the input's role is 0x00 (R273). -/
theorem Dev.heldAt_enc (d : Dev) (e : Sys2Proof.Enc) : (d.encHeldAt (encAddr e) || d.tempHeldAt (encAddr e)) = d.encHeld e.val := by
  obtain ⟨low, high, index⟩ := encAddr_input e
  have cold : d.tempHeldAt (encAddr e) = false := by
    simp only [Dev.tempHeldAt, Bool.and_eq_false_iff, decide_eq_false_iff_not]
    exact .inl (.inl (.inl (by omega)))
  rw [cold, Bool.or_false, Dev.encHeldAt, index]
  simp [low, high]

/-- REARM with a line fault and PRESET of an input in use are refused (R277, R278); nothing else is. -/
theorem encReg_accepted {d : Dev} {e : Sys2Proof.Enc} {v : Nat} (hu : d.encInUse e.val = false)
    (hl : v / 16 % 2 = 0 ∨ d.get (F.QEe_ERR_LINE_NOW e.val) = 0) : d.writeRefused (encReg e) (encAddr e) v = false := by
  have rule : d.ruleRefused (encReg e) v = ((bitAt v 4 && d.flag (F.QEe_ERR_LINE_NOW e.val)) ||
    (d.encInUse e.val && (bitAt v 3 || bitAt v 2 != d.flag (F.QEe_CTRL_ZHOME e.val)))) := rfl
  have line : (bitAt v 4 && d.flag (F.QEe_ERR_LINE_NOW e.val)) = false := by
    obtain h | h := hl
    · simp [bitAt, h]
    · simp [Dev.flag, h]
  rw [Dev.writeRefused, Dev.regAbsent_device (h := encReg e) _ rfl rfl, rule, line, hu]
  rfl

/-- The device once the fields of QEe_CTRL hold their parts of the word. -/
def Dev.encPlaced (d : Dev) (e v : Nat) : Dev := (d.put (F.QEe_CTRL_FILT e) (v % 4)).put (F.QEe_CTRL_ZHOME e) (v / 4 % 2)

theorem encReg_placed {d : Dev} (e : Sys2Proof.Enc) (v : Nat) (hs : d.shadow = []) (hv : d.oldViews = []) :
    (encReg e).spec.fields.foldl (fun d f => d.applyField (encReg e) (encAddr e) v f) d = d.encPlaced e.val v := by
  have filt : encFilt.bits v = v % 4 := congrArg (· % 4) (Nat.div_one v)
  show List.foldl _ d [encFilt, encHome, encPre, encArm] = _
  rw [List.foldl_cons, List.foldl_cons, List.foldl_cons, List.foldl_cons, List.foldl_nil,
    Dev.applyField_live (f := encFilt) rfl (.inl rfl) hs hv rfl, filt,
    Dev.applyField_skips (f := encPre) (.inr ⟨rfl, rfl⟩), Dev.applyField_skips (f := encArm) (.inr ⟨rfl, rfl⟩)]
  exact Dev.applyField_live (f := encHome) rfl (.inl rfl) hs hv rfl

theorem Dev.encPlaced_regsRec (d : Dev) (e v : Nat) : d.RegsRec [F.QEe_CTRL_FILT e, F.QEe_CTRL_ZHOME e] (d.encPlaced e v) :=
  ((Dev.RegsRec.refl d).put _ (by simp)).put _ (by simp)

theorem Dev.encPlaced_filt (d : Dev) (e : Sys2Proof.Enc) (v : Nat) : (d.encPlaced e.val v).get (F.QEe_CTRL_FILT e.val) = v % 4 := by
  have apart : ∀ e : Sys2Proof.Enc, (F.QEe_CTRL_ZHOME e.val).key ≠ (F.QEe_CTRL_FILT e.val).key := by decide
  rw [Dev.encPlaced, Dev.get_put_ne _ _ _ _ (apart e), Dev.get_put_self]
  exact Nat.mod_mod ..

theorem Dev.encPlaced_home (d : Dev) (e : Sys2Proof.Enc) (v : Nat) : (d.encPlaced e.val v).get (F.QEe_CTRL_ZHOME e.val) = v / 4 % 2 :=
  (Dev.get_put_self ..).trans (Nat.mod_mod ..)

section
variable {s : State} {v : Word} {e : Sys2Proof.Enc}

/-- A write of QEe_CTRL of an input that holds its reset values has no effect. -/
theorem regWrite_enc_held (hh : s.dev.encHeld e.val = true) (hu : s.dev.encInUse e.val = false)
    (hl : v.toNat / 16 % 2 = 0 ∨ s.dev.get (F.QEe_ERR_LINE_NOW e.val) = 0) : s.regWrite (encAddr e) v = s.settled := by
  have held : (s.settled.dev.encHeldAt (encAddr e) || s.settled.dev.tempHeldAt (encAddr e)) = true :=
    (s.settled.dev.heldAt_enc e).trans hh
  have row : s.settled.dev.regWrite s.mem (encAddr e) v.toNat = s.settled.dev := by
    rw [Dev.regWrite_judged (encAddr_aligned e) (encReg_found e) rfl rfl,
      if_neg (by rw [encReg_accepted (d := s.settled.dev) hu hl]; simp), Dev.acceptWrite, if_pos held]
  exact (State.runDev_noWrites s (fun d m => d.regWrite m (encAddr e) v.toNat) (by rw [row]; rfl)).trans (by rw [row]; rfl)

variable (hs : s.dev.shadow = []) (hv : s.dev.oldViews = []) (hh : s.dev.encHeld e.val = false) (hu : s.dev.encInUse e.val = false)
  (hl : v.toNat / 16 % 2 = 0 ∨ s.dev.get (F.QEe_ERR_LINE_NOW e.val) = 0)
include hs hv

/-- What the fields of QEe_CTRL hold once they are written. -/
theorem encReg_written {w : Dev} (hw : s.settled.dev.fieldsWritten (encReg e) (encAddr e) v.toNat = w) :
    s.settled.dev.RegsRec [F.QEe_CTRL_FILT e.val, F.QEe_CTRL_ZHOME e.val] w ∧ w.get (F.QEe_CTRL_FILT e.val) = v.toNat % 4 ∧
      w.get (F.QEe_CTRL_ZHOME e.val) = v.toNat / 4 % 2 := by
  subst hw
  have only := Dev.fieldsWritten_recOnly (encReg_placed (d := s.settled.dev) e v.toNat hs hv)
  exact ⟨(s.settled.dev.encPlaced_regsRec e.val v.toNat).trans ⟨only.1, regsKeep_mono only.2 (fun _ h => List.mem_append_left _ h)⟩,
    (only.2 _ (encFlds_notRec e _ (by simp))).trans (Dev.encPlaced_filt ..),
    (only.2 _ (encFlds_notRec e _ (by simp))).trans (Dev.encPlaced_home ..)⟩

/-- A write of the values that FILT and ZHOME have raises nothing. -/
theorem encReg_same (hf : v.toNat % 4 = s.dev.get (F.QEe_CTRL_FILT e.val)) (hz : v.toNat / 4 % 2 = s.dev.get (F.QEe_CTRL_ZHOME e.val)) :
    s.settled.dev.fieldsWritten (encReg e) (encAddr e) v.toNat = s.settled.dev.encPlaced e.val v.toNat := by
  refine Dev.fieldsWritten_same (encReg_placed (d := s.settled.dev) e v.toNat hs hv) (fun f hm => ?_)
  have live : ∀ g : FieldSpec, s.settled.dev.noted (encReg e) (encAddr e) g = s.settled.dev.get (g.fld (encAddr e)) := by
    intro g
    show s.settled.dev.written _ = _
    rw [Dev.written, show s.settled.dev.shadow = [] from hs]
    rfl
  have filt : encFilt.bits v.toNat = v.toNat % 4 := congrArg (· % 4) (Nat.div_one v.toNat)
  obtain rfl | rfl | rfl | rfl : f = encFilt ∨ f = encHome ∨ f = encPre ∨ f = encArm := by simpa [encReg] using hm
  · exact (filt.trans hf).trans (live encFilt).symm
  · exact hz.trans (live encHome).symm
  · rfl
  · rfl

include hh hu hl

omit hs hv in
theorem regWrite_enc {w : Dev} (hw : s.settled.dev.fieldsWritten (encReg e) (encAddr e) v.toNat = w)
    {d' : Dev} (hd : w.encWritten s.mem e.val v.toNat = d') (hq : d'.wq = []) : s.regWrite (encAddr e) v = { s with dev := d' } := by
  have free : (s.settled.dev.encHeldAt (encAddr e) || s.settled.dev.tempHeldAt (encAddr e)) = false := (s.settled.dev.heldAt_enc e).trans hh
  exact State.regWrite_accepted (encAddr_aligned e) (encReg_found e) rfl rfl (encReg_accepted hu hl) free (by rw [hw]; exact hd) hq

end

/-! ### What PRESET and REARM do -/

theorem cmpFlds_apart : ∀ (e : Sys2Proof.Enc) (k : Fin 8), ∀ G ∈ [F.QE_CMPk_CTRL_SRC k.val, F.QE_CMPk_STAT_ARMED k.val],
    G.key ∉ (recFlds ++ [F.QEe_CTRL_FILT e.val, F.QEe_CTRL_ZHOME e.val]).map Fld.key := by decide

/-- The units that judge an input are the same after a write of its fields. -/
theorem Dev.cmpsOn_written {d w : Dev} {e : Sys2Proof.Enc}
    (h : regsKeep (recFlds ++ [F.QEe_CTRL_FILT e.val, F.QEe_CTRL_ZHOME e.val]) d w) : w.cmpsOn e.val = d.cmpsOn e.val := by
  unfold Dev.cmpsOn
  refine List.filter_congr (fun k hk => ?_)
  rw [h _ (cmpFlds_apart e ⟨k, List.mem_range.mp hk⟩ (F.QE_CMPk_CTRL_SRC k) (by simp))]

/-- With no armed unit on the input a preset sets the count alone. -/
theorem Dev.encPreset_unarmed {d : Dev} {e : Nat} (m : Dram) (h : ∀ k ∈ d.cmpsOn e, d.get (F.QE_CMPk_STAT_ARMED k) = 0) :
    d.encPreset m e = (d.put (F.QEe_COUNT_COUNT e) (d.get (F.QEe_PRESET_VAL e))).updEnc e (fun x => { x with edge := none }) := by
  have none : (d.cmpsOn e).filter (fun k => d.flag (F.QE_CMPk_STAT_ARMED k)) = [] :=
    List.filter_eq_nil_iff.mpr (fun k hk => by simp [Dev.flag, h k hk])
  unfold Dev.encPreset
  rw [none]
  rfl

/-- The loss of an input ends, before its event. -/
def Dev.encFound (d : Dev) (e : Nat) : Dev := (d.put (F.QEe_ERR_LOST e) 0).updEnc e (fun x => { x with ill := [], edge := none })

/-- With no unit on the input a re-arm ends its loss, and says so. -/
theorem Dev.encRearm_lost {d : Dev} {e : Nat} (m : Dram) (hl : d.get (F.QEe_ERR_LOST e) = 1) (hc : d.cmpsOn e = []) :
    d.encRearm m e = (d.encFound e).raise 0x0902 (srcEnc e) 1 e (d.count e).toNat d.tick.toNat := by
  unfold Dev.encRearm
  rw [if_pos (by simp [Dev.flag, hl]), hc]
  rfl

theorem encCount_apart : ∀ e : Sys2Proof.Enc, ∀ G ∈ [F.QEe_CTRL_FILT e.val, F.QEe_CTRL_ZHOME e.val],
    (F.QEe_COUNT_COUNT e.val).key ≠ G.key ∧ (F.QEe_ERR_LOST e.val).key ≠ G.key := by decide

theorem encLasting_apart : ∀ e : Sys2Proof.Enc, ∀ G ∈ [F.QEe_ERR_LOST e.val, F.QEe_CTRL_ZHOME e.val, F.QEe_CTRL_FILT e.val],
    G.key ≠ F.EVR_STAT_LASTGASP.key := by decide

theorem encPreset_kept : ∀ e : Sys2Proof.Enc, ∀ G ∈ [F.QEe_PRESET_VAL e.val, F.QEe_COUNT_COUNT e.val, F.QEe_ERR_LOST e.val],
    G.key ∉ (recFlds ++ [F.QEe_CTRL_FILT e.val, F.QEe_CTRL_ZHOME e.val]).map Fld.key := by decide

section
variable {s : State} {v : Word} {e : Sys2Proof.Enc} (hs : s.dev.shadow = []) (hv : s.dev.oldViews = []) (hh : s.dev.encHeld e.val = false)
  (hu : s.dev.encInUse e.val = false)
include hs hv hh hu

theorem regWrite_enc_preset (ha : ∀ k : Nat, k ∈ s.dev.cmpsOn e.val → s.dev.get (F.QE_CMPk_STAT_ARMED k) = 0) (h3 : v.toNat / 8 % 2 = 1)
    (h4 : v.toNat / 16 % 2 = 0) : ∃ t : State, s.regWrite (encAddr e) v = t ∧
      t.dev.getW (F.QEe_COUNT_COUNT e.val) = s.dev.getW (F.QEe_PRESET_VAL e.val) ∧
      t.dev.get (F.QEe_CTRL_FILT e.val) = v.toNat % 4 ∧ t.dev.get (F.QEe_CTRL_ZHOME e.val) = v.toNat / 4 % 2 ∧
      (t.dev.encOf e.val).edge = none ∧ t.mem = s.mem ∧
      regsKeep (recFlds ++ [F.QEe_COUNT_COUNT e.val, F.QEe_CTRL_FILT e.val, F.QEe_CTRL_ZHOME e.val]) s.dev t.dev := by
  obtain ⟨w, hw⟩ : ∃ w, s.settled.dev.fieldsWritten (encReg e) (encAddr e) v.toNat = w := ⟨_, rfl⟩
  obtain ⟨regs, filt, home⟩ := encReg_written hs hv hw
  have on : w.cmpsOn e.val = s.dev.cmpsOn e.val := Dev.cmpsOn_written regs.keeps
  have unarmed : ∀ k ∈ w.cmpsOn e.val, w.get (F.QE_CMPk_STAT_ARMED k) = 0 := fun k hk => by
    have hk8 : k < 8 := List.mem_range.mp (List.mem_filter.mp hk).1
    rw [regs.keeps _ (cmpFlds_apart e ⟨k, hk8⟩ (F.QE_CMPk_STAT_ARMED k) (by simp))]
    exact ha k (on ▸ hk)
  have acts : w.encWritten s.mem e.val v.toNat = (w.put (F.QEe_COUNT_COUNT e.val) (w.get (F.QEe_PRESET_VAL e.val))).updEnc e.val
      (fun x => { x with edge := none }) := by
    unfold Dev.encWritten
    rw [show bitAt v.toNat 3 = true by simp [bitAt, h3], show bitAt v.toNat 4 = false by simp [bitAt, h4], if_pos rfl,
      Dev.encPreset_unarmed _ unarmed]
    rfl
  have apart := encCount_apart e
  refine ⟨_, regWrite_enc hh hu (.inl h4) hw acts (by rw [regs.frame]; rfl), ?_, ?_, ?_, ?_, rfl, ?_⟩
  · exact (Dev.getW_putW w _ _ rfl).trans (congrArg (BitVec.ofNat 32) (regs.keeps _ (encPreset_kept e _ (by simp))))
  · exact (Dev.get_put_ne _ _ _ _ (apart _ (by simp)).1).trans filt
  · exact (Dev.get_put_ne _ _ _ _ (apart _ (by simp)).1).trans home
  · exact congrArg Enc.edge (tget_tput_self ..)
  · exact regsKeep_trans (regsKeep_mono regs.keeps (fun G hG => by simp at hG ⊢; tauto)) (regsKeep_put w (F.QEe_COUNT_COUNT e.val) _ (by simp))

theorem regWrite_enc_rearm (h3 : v.toNat / 8 % 2 = 0) (h4 : v.toNat / 16 % 2 = 1) (hn : s.dev.get (F.QEe_ERR_LINE_NOW e.val) = 0)
    (hc : s.dev.cmpsOn e.val = []) (hl : s.dev.get (F.QEe_ERR_LOST e.val) = 1) : ∃ t : State, s.regWrite (encAddr e) v = t ∧
      t.dev.get (F.QEe_ERR_LOST e.val) = 0 ∧ (t.dev.encOf e.val).ill = [] ∧
      (v.toNat % 4 = s.dev.get (F.QEe_CTRL_FILT e.val) → v.toNat / 4 % 2 = s.dev.get (F.QEe_CTRL_ZHOME e.val) →
        recorded s.dev t.dev 0x0902 (srcEnc e.val) 1 e.val (s.dev.count e.val).toNat s.dev.tick.toNat) ∧ t.mem = s.mem ∧
      regsKeep (recFlds ++ [F.QEe_ERR_LOST e.val, F.QEe_CTRL_FILT e.val, F.QEe_CTRL_ZHOME e.val]) s.dev t.dev := by
  obtain ⟨w, hw⟩ : ∃ w, s.settled.dev.fieldsWritten (encReg e) (encAddr e) v.toNat = w := ⟨_, rfl⟩
  obtain ⟨regs, -, -⟩ := encReg_written hs hv hw
  have lost : w.get (F.QEe_ERR_LOST e.val) = 1 := (regs.keeps _ (encPreset_kept e _ (by simp))).trans hl
  have count : w.count e.val = s.dev.count e.val := congrArg (BitVec.ofNat 32) (regs.keeps _ (encPreset_kept e _ (by simp)))
  have acts : w.encWritten s.mem e.val v.toNat =
      (w.encFound e.val).raise 0x0902 (srcEnc e.val) 1 e.val (s.dev.count e.val).toNat s.dev.tick.toNat := by
    unfold Dev.encWritten
    rw [show bitAt v.toNat 3 = false by simp [bitAt, h3], show bitAt v.toNat 4 = true by simp [bitAt, h4], if_pos rfl, if_neg (by simp),
      Dev.encRearm_lost _ lost ((Dev.cmpsOn_written regs.keeps).trans hc), count, show w.tick = s.dev.tick by rw [regs.frame]; rfl]
  have lostApart : (F.QEe_ERR_LOST e.val).key ∉ recFlds.map Fld.key := encFlds_notRec e _ (by simp)
  refine ⟨_, regWrite_enc hh hu (.inr hn) hw acts (by rw [Dev.raise_wq, Dev.encFound, regs.frame]; rfl), ?_, ?_, fun hf hz => ?_, rfl, ?_⟩
  · exact (Dev.get_raise _ _ _ _ _ _ _ _ lostApart).trans (Dev.get_put_self w (F.QEe_ERR_LOST e.val) 0)
  · exact (congrArg (fun l => (tget enc0 l e.val).ill) (Dev.raise_encs ..)).trans (congrArg Enc.ill (tget_tput_self ..))
  · have same : w = s.settled.dev.encPlaced e.val v.toNat := hw.symm.trans (encReg_same hs hv hf hz)
    have apart := encLasting_apart e
    have evr : (w.encFound e.val).evr = s.dev.evr := by rw [same]; rfl
    have time : (w.encFound e.val).time = s.dev.time := by rw [same]; rfl
    exact Dev.raise_evr_congr _ _ _ _ _ _ _ _ evr time (by
      rw [same]
      exact (Dev.get_put_ne _ _ _ _ (apart _ (by simp))).trans ((Dev.get_put_ne _ _ _ _ (apart _ (by simp))).trans
        (Dev.get_put_ne _ _ _ _ (apart _ (by simp)))))
  · exact regsKeep_trans (regsKeep_trans (regsKeep_mono regs.keeps (fun G hG => by simp at hG ⊢; tauto))
      (regsKeep_put w (F.QEe_ERR_LOST e.val) 0 (by simp))) (regsKeep_raise _ _ _ _ _ _ _ (fun _ h => List.mem_append_left _ h))

end

/-! ## AXSa_CTRL (R286, R287) -/

@[simp] theorem Dev.updAxs_axsOf (d : Dev) (a : Nat) (f : Axs → Axs) : (d.updAxs a f).axsOf a = f (d.axsOf a) := tget_tput_self ..

/-- EN of AXSa_CTRL. -/
def axisEn : FieldSpec := ⟨"EN", 0, 1, 0x0, .rw, .imm, .any⟩
/-- GO of AXSa_CTRL. -/
def axisStart : FieldSpec := ⟨"GO", 1, 1, 0x0, .w1s, .imm, .any⟩
/-- STOP of AXSa_CTRL. -/
def axisHalt : FieldSpec := ⟨"STOP", 2, 1, 0x0, .w1s, .imm, .any⟩
/-- BNDGO of AXSa_CTRL. -/
def axisBound : FieldSpec := ⟨"BNDGO", 3, 1, 0x0, .w1s, .imm, .any⟩

/-- AXSa_CTRL of axis a. -/
def axisReg (a : Axis) : RegHit := ⟨⟨"AXSa_CTRL", 0x2E0800, 128, 4, 0, 1, .device, [axisEn, axisStart, axisHalt, axisBound]⟩, a.val, 0⟩

/-- The address of AXSa_CTRL. -/
def axisAddr (a : Axis) : Nat := (F.AXSa_CTRL_EN a.val).addr

theorem axisReg_found : ∀ a : Axis, regFind (axisAddr a) regSpecs = some (axisReg a) := by decide

theorem axisAddr_aligned : ∀ a : Axis, axisAddr a % 4 = 0 := by decide

theorem axisAddr_between : ∀ a : Axis, 0x2E0200 ≤ axisAddr a ∧ axisAddr a < 0x300100 := by decide

/-- No register of an axis keeps its reset values. -/
theorem Dev.notHeld_axis (d : Dev) (a : Axis) : (d.encHeldAt (axisAddr a) || d.tempHeldAt (axisAddr a)) = false := by
  obtain ⟨low, high⟩ := axisAddr_between a
  simp only [Dev.encHeldAt, Dev.tempHeldAt, Bool.or_eq_false_iff, Bool.and_eq_false_iff, decide_eq_false_iff_not]
  exact ⟨.inl (.inr (by omega)), .inl (.inl (.inl (by omega)))⟩

/-- EN 1 of an axis without a usable input is refused (R286); nothing else is. -/
theorem axisReg_accepted {d : Dev} {a : Axis} {v : Nat} (h : v % 2 = 0 ∨ d.axisMay a.val = true) :
    d.writeRefused (axisReg a) (axisAddr a) v = false := by
  have rule : d.ruleRefused (axisReg a) v = (bitAt v 0 && !(d.axisMay a.val)) := rfl
  have may : (bitAt v 0 && !(d.axisMay a.val)) = false := by
    obtain h | h := h
    · simp [bitAt, h]
    · simp [h]
  rw [Dev.writeRefused, Dev.regAbsent_device (h := axisReg a) _ rfl rfl, rule, may]
  rfl

/-- No field of AXSa_CTRL takes its part before the axis acts. -/
theorem axisReg_placed (d : Dev) (a : Axis) (v : Nat) :
    (axisReg a).spec.fields.foldl (fun d f => d.applyField (axisReg a) (axisAddr a) v f) d = d := by
  show List.foldl _ d [axisEn, axisStart, axisHalt, axisBound] = d
  rw [List.foldl_cons, List.foldl_cons, List.foldl_cons, List.foldl_cons, List.foldl_nil, Dev.applyField_skips (f := axisEn) (.inl rfl),
    Dev.applyField_skips (f := axisStart) (.inr ⟨rfl, rfl⟩), Dev.applyField_skips (f := axisHalt) (.inr ⟨rfl, rfl⟩),
    Dev.applyField_skips (f := axisBound) (.inr ⟨rfl, rfl⟩)]

theorem State.regWrite_axis {s : State} {a : Axis} {v : Word} (h : v.toNat % 2 = 0 ∨ s.dev.axisMay a.val = true) {w : Dev}
    (hw : s.settled.dev.fieldsWritten (axisReg a) (axisAddr a) v.toNat = w) {d' : Dev} (hd : w.axisWritten a.val v.toNat = d') (hq : d'.wq = []) :
    s.regWrite (axisAddr a) v = { s with dev := d' } :=
  State.regWrite_accepted (axisAddr_aligned a) (axisReg_found a) rfl rfl (axisReg_accepted h) (s.settled.dev.notHeld_axis a)
    (by rw [hw]; exact hd) hq

/-! ### An axis is enabled and stopped -/

/-- The register fields of axis a that its enable changes. -/
def axisFlds (a : Nat) : List Fld := [F.AXSa_CTRL_EN a, F.AXSa_STAT_STATE a, F.AXSa_STAT_BNDARM a, F.AXSa_STAT_SAT a, F.AXSa_OUT_CODE a,
  F.AXSa_REF_POS a]

/-- What changes an axis: register fields of fs and the axes. -/
structure Dev.AxisOnly (fs : List Fld) (d e : Dev) : Prop where
  frame : e = { d with regs := e.regs, axs := e.axs }
  keeps : regsKeep fs d e

theorem Dev.AxisOnly.put {fs : List Fld} {d e : Dev} (h : d.AxisOnly fs e) {G : Fld} (v : Nat) (hG : G ∈ fs) : d.AxisOnly fs (e.put G v) where
  frame := by
    have frame := h.frame
    generalize e.regs = r, e.axs = x at frame
    rw [frame]
    rfl
  keeps := regsKeep_trans h.keeps (regsKeep_put e G v hG)

theorem Dev.AxisOnly.updAxs {fs : List Fld} {d e : Dev} (h : d.AxisOnly fs e) (a : Nat) (f : Axs → Axs) : d.AxisOnly fs (e.updAxs a f) where
  frame := by
    have frame := h.frame
    generalize e.regs = r, e.axs = x at frame
    rw [frame]
    rfl
  keeps := h.keeps

theorem Dev.AxisOnly.refl {fs : List Fld} (d : Dev) : d.AxisOnly fs d := ⟨rfl, regsKeep_refl fs d⟩

theorem Dev.axisOff_only (d : Dev) (a : Nat) : d.AxisOnly (axisFlds a) (d.axisOff a) := by
  unfold Dev.axisOff
  exact ((((((Dev.AxisOnly.refl (fs := axisFlds a) d).put (G := F.AXSa_CTRL_EN a) 0 (by simp [axisFlds])).put (G := F.AXSa_STAT_STATE a) 0
    (by simp [axisFlds])).put (G := F.AXSa_STAT_BNDARM a) 0 (by simp [axisFlds])).put (G := F.AXSa_STAT_SAT a) 0 (by simp [axisFlds])).put
    (G := F.AXSa_OUT_CODE a) 0 (by simp [axisFlds])).updAxs a _

/-- An axis that takes no moves ignores GO, STOP and BNDGO. -/
theorem Dev.axisWritten_idle {d : Dev} {a v : Nat} (h : (d.axisEnable a (bitAt v 0)).axisTakes a = false) :
    d.axisWritten a v = d.axisEnable a (bitAt v 0) := by
  generalize he : d.axisEnable a (bitAt v 0) = e at h
  have go : e.axisGo a = e := if_neg (by simp [h])
  have stop : e.axisStop a = e := if_neg (by simp [h])
  have arm : e.axisArm a = e := if_neg (by simp [h])
  unfold Dev.axisWritten
  dsimp only
  rw [he, go, ite_self, stop, ite_self, arm, ite_self]

section
variable (d : Dev) (a : Axis)

theorem Dev.axisOff_shows : (d.axisOff a.val).get (F.AXSa_CTRL_EN a.val) = 0 ∧ (d.axisOff a.val).get (F.AXSa_STAT_STATE a.val) = 0 ∧
    (d.axisOff a.val).get (F.AXSa_OUT_CODE a.val) = 0 := by
  have apart : ∀ a : Axis, (F.AXSa_STAT_STATE a.val).key ≠ (F.AXSa_CTRL_EN a.val).key ∧ ∀ G ∈ [F.AXSa_STAT_BNDARM a.val, F.AXSa_STAT_SAT a.val, F.AXSa_OUT_CODE a.val],
      G.key ≠ (F.AXSa_CTRL_EN a.val).key ∧ G.key ≠ (F.AXSa_STAT_STATE a.val).key := by decide
  obtain ⟨state, rest⟩ := apart a
  obtain ⟨arm, arm'⟩ := rest (F.AXSa_STAT_BNDARM a.val) (by simp)
  obtain ⟨sat, sat'⟩ := rest (F.AXSa_STAT_SAT a.val) (by simp)
  obtain ⟨out, out'⟩ := rest (F.AXSa_OUT_CODE a.val) (by simp)
  have later : ∀ (e : Dev) (G : Fld), (F.AXSa_STAT_BNDARM a.val).key ≠ G.key → (F.AXSa_STAT_SAT a.val).key ≠ G.key →
      (F.AXSa_OUT_CODE a.val).key ≠ G.key →
      (((e.put (F.AXSa_STAT_BNDARM a.val) 0).put (F.AXSa_STAT_SAT a.val) 0).put (F.AXSa_OUT_CODE a.val) 0).get G = e.get G :=
    fun e G h1 h2 h3 => by rw [Dev.get_put_ne _ _ _ _ h3, Dev.get_put_ne _ _ _ _ h2, Dev.get_put_ne _ _ _ _ h1]
  refine ⟨?_, ?_, Dev.get_put_self _ (F.AXSa_OUT_CODE a.val) 0⟩
  · exact (later _ _ arm sat out).trans ((Dev.get_put_ne _ _ _ _ state).trans (Dev.get_put_self d (F.AXSa_CTRL_EN a.val) 0))
  · exact (later _ _ arm' sat' out').trans (Dev.get_put_self _ (F.AXSa_STAT_STATE a.val) 0)

theorem Dev.axisOff_rests : ((d.axisOff a.val).axsOf a.val).move = none ∧ ((d.axisOff a.val).axsOf a.val).next = none :=
  ⟨congrArg Axs.move (tget_tput_self ..), congrArg Axs.next (tget_tput_self ..)⟩

end

theorem axisFlds_notRec : ∀ a : Axis, ∀ G ∈ axisFlds a.val, G.key ∉ recFlds.map Fld.key := by decide

section
variable {s : State} {a : Axis} {v : Word}

theorem regWrite_axis_off (h : v.toNat % 2 = 0) : ∃ t : State, s.regWrite (axisAddr a) v = t ∧ t.dev.get (F.AXSa_CTRL_EN a.val) = 0 ∧
    t.dev.get (F.AXSa_STAT_STATE a.val) = 0 ∧ t.dev.get (F.AXSa_OUT_CODE a.val) = 0 ∧ (t.dev.axsOf a.val).move = none ∧
    (t.dev.axsOf a.val).next = none ∧ t.mem = s.mem ∧ regsKeep (recFlds ++ axisFlds a.val) s.dev t.dev := by
  obtain ⟨w, hw⟩ : ∃ w, s.settled.dev.fieldsWritten (axisReg a) (axisAddr a) v.toNat = w := ⟨_, rfl⟩
  have only : s.settled.dev.recOnly w := hw ▸ Dev.fieldsWritten_recOnly (axisReg_placed s.settled.dev a v.toNat)
  obtain ⟨en, state, code⟩ := w.axisOff_shows a
  have off : w.axisEnable a.val (bitAt v.toNat 0) = w.axisOff a.val := by rw [show bitAt v.toNat 0 = false by simp [bitAt, h]]; rfl
  have acts : w.axisWritten a.val v.toNat = w.axisOff a.val := by
    rw [Dev.axisWritten_idle (by rw [off]; simp [Dev.axisTakes, Dev.flag, en]), off]
  have frame := w.axisOff_only a.val
  refine ⟨_, State.regWrite_axis (.inl h) hw acts (by rw [frame.frame, only.1]; rfl), en, state, code, (w.axisOff_rests a).1,
    (w.axisOff_rests a).2, rfl, ?_⟩
  exact regsKeep_trans (regsKeep_mono only.2 (fun _ h => List.mem_append_left _ h)) (regsKeep_mono frame.keeps (fun _ h => List.mem_append_right _ h))

end

/-- The device with axis a enabled, which holds its present position (R286). -/
def Dev.axisHeld (d : Dev) (a e : Nat) : Dev :=
  (((d.put (F.AXSa_CTRL_EN a) 1).put (F.AXSa_STAT_STATE a) 1).putI (F.AXSa_REF_POS a) (d.count e).toInt).updAxs a
    (fun s => { axs0 with ref := (d.count e).toInt * 2 ^ 32, last := d.tick, tab := s.tab })

theorem Dev.axisEnable_held {d : Dev} {a e : Nat} (h0 : d.get (F.AXSa_CTRL_EN a) = 0) (hi : axisInput (d.sections false) a = some e) :
    d.axisEnable a true = d.axisHeld a e := by
  unfold Dev.axisEnable
  rw [if_neg (by simp), if_neg (by simp [Dev.flag, h0]), hi]
  rfl

theorem Dev.axisHeld_only (d : Dev) (a e : Nat) : d.AxisOnly (axisFlds a) (d.axisHeld a e) :=
  ((((Dev.AxisOnly.refl (fs := axisFlds a) d).put (G := F.AXSa_CTRL_EN a) _ (by simp [axisFlds])).put (G := F.AXSa_STAT_STATE a) _
    (by simp [axisFlds])).put (G := F.AXSa_REF_POS a) _ (by simp [axisFlds])).updAxs a _

theorem Dev.axisHeld_axs (d : Dev) (a e : Nat) : (d.axisHeld a e).axsOf a =
    { axs0 with ref := (d.count e).toInt * 2 ^ 32, last := d.tick, tab := (d.axsOf a).tab } := tget_tput_self ..

theorem Dev.axisHeld_shows (d : Dev) (a : Axis) (e : Nat) :
    (d.axisHeld a.val e).get (F.AXSa_CTRL_EN a.val) = 1 ∧ (d.axisHeld a.val e).get (F.AXSa_STAT_STATE a.val) = 1 := by
  have apart : ∀ a : Axis, (F.AXSa_STAT_STATE a.val).key ≠ (F.AXSa_CTRL_EN a.val).key ∧ (F.AXSa_REF_POS a.val).key ≠ (F.AXSa_CTRL_EN a.val).key ∧
      (F.AXSa_REF_POS a.val).key ≠ (F.AXSa_STAT_STATE a.val).key := by decide
  obtain ⟨state, pos, pos'⟩ := apart a
  exact ⟨(Dev.get_put_ne _ _ _ _ pos).trans ((Dev.get_put_ne _ _ _ _ state).trans (Dev.get_put_self d (F.AXSa_CTRL_EN a.val) 1)),
    (Dev.get_put_ne _ _ _ _ pos').trans (Dev.get_put_self _ (F.AXSa_STAT_STATE a.val) 1)⟩

theorem axisInput_lt {l : List Section} {a e : Nat} (h : axisInput l a = some e) : e < 8 := List.mem_range.mp (List.mem_of_find?_eq_some h)

/-- With its input usable an axis may be enabled. -/
theorem Dev.axisMay_of {d : Dev} {a e : Nat} (hr : d.rigged = true) (hi : axisInput (d.sections false) a = some e)
    (hl : d.get (F.QEe_ERR_LOST e) = 0) : d.axisMay a = true := by
  unfold Dev.axisMay
  rw [hr, hi]
  simp [Dev.flag, hl]

/-- A write of AXSa_CTRL with the EN that it has changes no field and is not noted. -/
theorem axisReg_same {d : Dev} {a : Axis} {v : Nat} (hs : d.shadow = []) (h : d.get (F.AXSa_CTRL_EN a.val) = v % 2) :
    d.fieldsWritten (axisReg a) (axisAddr a) v = d := by
  refine Dev.fieldsWritten_same (axisReg_placed d a v) (fun f hm => ?_)
  have en : axisEn.bits v = v % 2 := congrArg (· % 2) (Nat.div_one v)
  have live : d.noted (axisReg a) (axisAddr a) axisEn = d.get (F.AXSa_CTRL_EN a.val) := by
    show d.written _ = _
    rw [Dev.written, hs]
    rfl
  obtain rfl | rfl | rfl | rfl : f = axisEn ∨ f = axisStart ∨ f = axisHalt ∨ f = axisBound := by simpa [axisReg] using hm
  · exact en.trans (h.symm.trans live.symm)
  · rfl
  · rfl
  · rfl

section
variable {s : State} {a : Axis} {v : Word} {e : Nat} (hr : s.dev.rigged = true) (hi : axisInput (s.dev.sections false) a.val = some e)
  (hl : s.dev.get (F.QEe_ERR_LOST e) = 0)
include hr hi hl

theorem regWrite_axis_enable (hv : v.toNat = 1) (h0 : s.dev.get (F.AXSa_CTRL_EN a.val) = 0) :
    ∃ t : State, s.regWrite (axisAddr a) v = t ∧
      t.dev.get (F.AXSa_CTRL_EN a.val) = 1 ∧ t.dev.get (F.AXSa_STAT_STATE a.val) = 1 ∧
      (t.dev.axsOf a.val).ref = (s.dev.count e).toInt * 2 ^ 32 ∧ (t.dev.axsOf a.val).move = none ∧
      (t.dev.axsOf a.val).tab = (s.dev.axsOf a.val).tab ∧ t.mem = s.mem ∧ regsKeep (recFlds ++ axisFlds a.val) s.dev t.dev := by
  obtain ⟨w, hw⟩ : ∃ w, s.settled.dev.fieldsWritten (axisReg a) (axisAddr a) v.toNat = w := ⟨_, rfl⟩
  have only : s.settled.dev.recOnly w := hw ▸ Dev.fieldsWritten_recOnly (axisReg_placed s.settled.dev a v.toNat)
  have off : w.get (F.AXSa_CTRL_EN a.val) = 0 := (only.2 _ (axisFlds_notRec a _ (by simp [axisFlds]))).trans h0
  have input : axisInput (w.sections false) a.val = some e := by rw [show w.sections false = s.dev.sections false by rw [only.1]; rfl]; exact hi
  have count : w.count e = s.dev.count e := congrArg (BitVec.ofNat 32) (only.2 _ (encFlds_notRec ⟨e, axisInput_lt hi⟩ (F.QEe_COUNT_COUNT e) (by simp)))
  have axs : w.axsOf a.val = s.dev.axsOf a.val := by rw [only.1]; rfl
  obtain ⟨en, state⟩ := w.axisHeld_shows a e
  have acts : w.axisWritten a.val v.toNat = w.axisHeld a.val e := by
    unfold Dev.axisWritten
    rw [hv, show bitAt 1 0 = true from rfl, show bitAt 1 1 = false from rfl, show bitAt 1 2 = false from rfl, show bitAt 1 3 = false from rfl,
      Dev.axisEnable_held off input]
    rfl
  have frame := w.axisHeld_only a.val e
  refine ⟨_, State.regWrite_axis (.inr (Dev.axisMay_of hr hi hl)) hw acts (by rw [frame.frame, only.1]; rfl), en, state, ?_, ?_, ?_, rfl, ?_⟩
  · exact (congrArg Axs.ref (w.axisHeld_axs a.val e)).trans (congrArg (fun n : Word => n.toInt * 2 ^ 32) count)
  · exact congrArg Axs.move (w.axisHeld_axs a.val e)
  · exact (congrArg Axs.tab (w.axisHeld_axs a.val e)).trans (congrArg Axs.tab axs :)
  · exact regsKeep_trans (regsKeep_mono only.2 (fun _ h => List.mem_append_left _ h)) (regsKeep_mono frame.keeps (fun _ h => List.mem_append_right _ h))

/-- A write of AXSa_CTRL of an enabled axis, EN among its bits, is what its other bits ask for. -/
theorem State.regWrite_axis_on (hs : s.dev.shadow = []) (h1 : s.dev.get (F.AXSa_CTRL_EN a.val) = 1) (hv : v.toNat % 2 = 1) {d' : Dev}
    (hd : s.settled.dev.axisWritten a.val v.toNat = d') (hq : d'.wq = []) : s.regWrite (axisAddr a) v = { s with dev := d' } :=
  State.regWrite_axis (.inr (Dev.axisMay_of hr hi hl)) (axisReg_same (d := s.settled.dev) hs (h1.trans hv.symm)) hd hq

variable (hs : s.dev.shadow = []) (h1 : s.dev.get (F.AXSa_CTRL_EN a.val) = 1) (h3 : s.dev.get (F.AXSa_STAT_STATE a.val) ≠ 3)
include hs h1 h3

omit hr hi hl hs h3 in
/-- EN 1 on an enabled axis changes nothing. -/
theorem Dev.axisEnable_on : s.settled.dev.axisEnable a.val true = s.settled.dev := by
  unfold Dev.axisEnable
  rw [if_neg (by simp)]
  exact if_pos (bne_iff_ne.mpr (by rw [show s.settled.dev.get _ = 1 from h1]; simp))

omit hr hi hl hs in
theorem Dev.axisTakes_on : s.settled.dev.axisTakes a.val = true :=
  Bool.and_eq_true_iff.mpr ⟨bne_iff_ne.mpr (by rw [show s.settled.dev.get _ = 1 from h1]; simp), bne_iff_ne.mpr h3⟩

theorem regWrite_axis_go (hv : v.toNat = 3) : ∃ t : State, s.regWrite (axisAddr a) v = t ∧ (t.dev.axsOf a.val).next = some
      ⟨s.dev.getI (F.AXSa_TGT_POS a.val), s.dev.getW (F.AXSa_VMAX_VAL a.val), s.dev.getW (F.AXSa_AMAX_VAL a.val)⟩ ∧
    (t.dev.axsOf a.val).move = (s.dev.axsOf a.val).move ∧ t.dev.get (F.AXSa_STAT_BNDARM a.val) = 0 ∧
    t = { s with dev := { s.dev with regs := t.dev.regs, axs := t.dev.axs, wq := [] } } ∧
    regsKeep [F.AXSa_STAT_BNDARM a.val] s.dev t.dev := by
  have acts : s.settled.dev.axisWritten a.val v.toNat = (s.settled.dev.put (F.AXSa_STAT_BNDARM a.val) 0).updAxs a.val (fun x => { x with
      next := some ⟨s.dev.getI (F.AXSa_TGT_POS a.val), s.dev.getW (F.AXSa_VMAX_VAL a.val), s.dev.getW (F.AXSa_AMAX_VAL a.val)⟩ }) := by
    unfold Dev.axisWritten
    rw [hv, show bitAt 3 0 = true from rfl, show bitAt 3 1 = true from rfl, show bitAt 3 2 = false from rfl, show bitAt 3 3 = false from rfl,
      Dev.axisEnable_on h1]
    exact if_pos (Dev.axisTakes_on h1 h3)
  exact ⟨_, State.regWrite_axis_on hr hi hl hs h1 (by rw [hv]) acts rfl, congrArg Axs.next (Dev.updAxs_axsOf ..),
    (congrArg Axs.move (Dev.updAxs_axsOf ..) :), Dev.get_put_self _ (F.AXSa_STAT_BNDARM a.val) 0, rfl,
    regsKeep_put s.settled.dev (F.AXSa_STAT_BNDARM a.val) 0 (by simp)⟩

theorem regWrite_axis_stop (hv : v.toNat = 5) : ∃ t : State, s.regWrite (axisAddr a) v = t ∧ (t.dev.axsOf a.val).next = none ∧
    (t.dev.axsOf a.val).stop = (s.dev.axsOf a.val).move.isSome ∧ t.dev.get (F.AXSa_STAT_BNDARM a.val) = 0 ∧
    t = { s with dev := { s.dev with regs := t.dev.regs, axs := t.dev.axs, wq := [] } } ∧
    regsKeep [F.AXSa_STAT_BNDARM a.val] s.dev t.dev := by
  have acts : s.settled.dev.axisWritten a.val v.toNat = (s.settled.dev.put (F.AXSa_STAT_BNDARM a.val) 0).updAxs a.val
      (fun x => { x with next := none, stop := x.move.isSome }) := by
    unfold Dev.axisWritten
    rw [hv, show bitAt 5 0 = true from rfl, show bitAt 5 1 = false from rfl, show bitAt 5 2 = true from rfl, show bitAt 5 3 = false from rfl,
      Dev.axisEnable_on h1]
    exact if_pos (Dev.axisTakes_on h1 h3)
  exact ⟨_, State.regWrite_axis_on hr hi hl hs h1 (by rw [hv]) acts rfl, congrArg Axs.next (Dev.updAxs_axsOf ..),
    congrArg Axs.stop (Dev.updAxs_axsOf ..), Dev.get_put_self _ (F.AXSa_STAT_BNDARM a.val) 0, rfl,
    regsKeep_put s.settled.dev (F.AXSa_STAT_BNDARM a.val) 0 (by simp)⟩

theorem regWrite_axis_bndgo (hv : v.toNat = 9) : ∃ t : State, s.regWrite (axisAddr a) v = t ∧ t.dev.get (F.AXSa_STAT_BNDARM a.val) = 1 ∧
    onlyRegs [F.AXSa_STAT_BNDARM a.val] s.settled t := by
  have acts : s.settled.dev.axisWritten a.val v.toNat = s.settled.dev.put (F.AXSa_STAT_BNDARM a.val) 1 := by
    unfold Dev.axisWritten
    rw [hv, show bitAt 9 0 = true from rfl, show bitAt 9 1 = false from rfl, show bitAt 9 2 = false from rfl, show bitAt 9 3 = true from rfl,
      Dev.axisEnable_on h1]
    exact if_pos (Dev.axisTakes_on h1 h3)
  exact ⟨_, State.regWrite_axis_on hr hi hl hs h1 (by rw [hv]) acts rfl, Dev.get_put_self _ (F.AXSa_STAT_BNDARM a.val) 1,
    State.onlyRegs_put s.settled _ _⟩

end

/-! ## HND_FT_VALID0 and HND_FT_VALID1 (R261) -/

/-- VALID of HND_FT_VALID0 and HND_FT_VALID1. -/
def validField : FieldSpec := ⟨"VALID", 0, 32, 0x0, .w1c, .imm, .any⟩

/-- The address of the release bits of the lower or upper entries. -/
def validAddr (hi : Bool) : Nat := if hi then F.HND_FT_VALID1_VALID.addr else F.HND_FT_VALID0_VALID.addr

/-- HND_FT_VALID1 or HND_FT_VALID0. -/
def validReg (hi : Bool) : RegHit := soleReg (if hi then "HND_FT_VALID1" else "HND_FT_VALID0") (validAddr hi) validField

theorem validReg_found (hi : Bool) : regFind (validAddr hi) regSpecs = some (validReg hi) := by revert hi; decide

theorem validReg_aligned (hi : Bool) : validAddr hi % 4 = 0 := by revert hi; decide

theorem validReg_low (hi : Bool) : validAddr hi < 0x2E0000 := by revert hi; decide

theorem validReg_own (hi : Bool) : (validReg hi).ownPlace validField = true := by revert hi; decide

theorem validReg_host (hi : Bool) : (validReg hi).holds (F.HST_MBXw_WORD 0) = false ∧ (validReg hi).holds F.HST_CPL_POP_POP = false := by
  revert hi; decide

theorem validReg_acts (d old : Dev) (m : Dram) (hi : Bool) (v : Nat) : d.afterWrite old m (validReg hi) v = d.ftRelease (b2n hi) v := by
  cases hi <;> rfl

theorem validReg_rule (d : Dev) (hi : Bool) (v : Nat) : d.ruleRefused (validReg hi) v = Dev.ruleRefused.openBits d (b2n hi) v := by
  cases hi <;> rfl

/-- A word refuses where it has a 1 in the place of an open entry, and nothing else refuses it. -/
theorem validReg_refused (d : Dev) (hi : Bool) (v : Nat) :
    d.writeRefused (validReg hi) (validAddr hi) v = Dev.ruleRefused.openBits d (b2n hi) v := by
  have there : d.regAbsent (validReg hi) = false := Dev.regAbsent_device (h := validReg hi) d rfl (by revert hi; decide)
  rw [Dev.writeRefused, there, validReg_rule]
  rfl

/-- A word of one bit has only that bit. -/
theorem bitAt_two_pow (k i : Nat) : bitAt (2 ^ k) i = decide (i = k) := by
  rw [bitAt_eq_testBit, Nat.testBit_two_pow]
  simp [eq_comm]

theorem openBits_two_pow (d : Dev) (w : Nat) {k : Nat} (hk : k < 32) :
    Dev.ruleRefused.openBits d w (2 ^ k) = (d.ftValid (32 * w + k) && !(d.flag (F.HND_FTk_INFO_RESOLVED (32 * w + k)))) := by
  unfold Dev.ruleRefused.openBits
  rw [Bool.eq_iff_iff, List.any_eq_true]
  simp only [bitAt_two_pow, Bool.and_eq_true, decide_eq_true_eq, List.mem_range]
  constructor
  · rintro ⟨i, -, ⟨rfl, valid⟩, closed⟩
    exact ⟨valid, closed⟩
  · rintro ⟨valid, closed⟩
    exact ⟨k, hk, ⟨rfl, valid⟩, closed⟩

/-! ### An entry is freed -/

/-- A fold in which one element of the list alone acts. -/
theorem foldl_only {α β : Type} [DecidableEq α] {f : β → α → β} {a : α} (h : ∀ (b : β) (i : α), i ≠ a → f b i = b) :
    ∀ {l : List α}, l.Nodup → a ∈ l → ∀ b : β, l.foldl f b = f b a
  | i :: t, nodup, mem, b => by
    obtain ⟨fresh, rest⟩ := List.nodup_cons.mp nodup
    by_cases hi : i = a
    · subst hi
      have quiet : ∀ c : β, t.foldl f c = c := fun c => by
        refine List.foldlRecOn (motive := fun x => x = c) t f rfl (fun x hx j hj => ?_)
        rw [hx]
        exact h c j (fun e => fresh (e ▸ hj))
      rw [List.foldl_cons, quiet]
    · rw [List.foldl_cons, h b i hi]
      exact foldl_only h rest ((List.mem_cons.mp mem).resolve_left (fun e => hi e.symm)) b

/-- Entry k is free: its fields at their reset values, its bit clear, its place in the order of detection given up. -/
def Dev.ftReleased (d : Dev) (k : Nat) : Dev :=
  let d1 := (d.ftClear k).ftSetValid k false
  { d1 with hnd := { d1.hnd with order := d1.hnd.order.filter (· != k) } }

/-- A word of one bit releases the one resolved entry in its place. -/
theorem Dev.ftRelease_two_pow {d : Dev} {w k : Nat} (hk : k < 32) (hv : d.ftValid (32 * w + k) = true)
    (hr : d.get (F.HND_FTk_INFO_RESOLVED (32 * w + k)) = 1) : d.ftRelease w (2 ^ k) = d.ftReleased (32 * w + k) := by
  refine (foldl_only (a := k) (fun b i hi => ?_) List.nodup_range (List.mem_range.mpr hk) d).trans ?_
  · simp [bitAt_two_pow, hi]
  · simp only [bitAt_two_pow, hv, Dev.flag, hr]
    rfl

/-- The fields of entry k. -/
def entryFlds (k : Nat) : List Fld :=
  [F.HND_FTk_INFO_CLASS k, F.HND_FTk_INFO_SEV k, F.HND_FTk_INFO_RESOLVED k, F.HND_FTk_INFO_PORT k,
   F.HND_FTk_INFO_DEVICE k, F.HND_FTk_INFO_COVERED k, F.HND_FTk_INFO_UNCOVERED k, F.HND_FTk_INFO_RETIRED k,
   F.HND_FTk_INFO_REMOTE k, F.HND_FTk_INFO_COUNT k, F.HND_FTk_CAUSE_CAUSE k, F.HND_FTk_TAKE_NODE k,
   F.HND_FTk_TAKE_CPORT k, F.HND_FTk_TAKE_CVALID k, F.HND_FTk_TAKE_INTERVAL k, F.HND_FTk_PORTS_PORTS k,
   F.HND_FTk_ONSET_TICK k, F.HND_FTk_TIME_LO_NS k, F.HND_FTk_TIME_HI_NS k, F.HND_FTk_RESUME_SEG k]

theorem Dev.ftClear_eq (d : Dev) (k : Nat) : d.ftClear k = (entryFlds k).foldl (fun d f => d.put f f.reset) d := rfl

/-- Each field of a list that is put at its reset value reads so. -/
theorem Dev.get_cleared {G : Fld} (hG : G.reset % 2 ^ G.width = G.reset) : ∀ (l : List Fld) (d : Dev),
    (∀ f ∈ l, f.key = G.key → f = G) → (G ∈ l ∨ d.get G = G.reset) → (l.foldl (fun d f => d.put f f.reset) d).get G = G.reset
  | [], _, _, h => h.resolve_left (by simp)
  | f :: t, d, alone, h => by
    rw [List.foldl_cons]
    refine Dev.get_cleared hG t _ (fun g hg => alone g (List.mem_cons_of_mem _ hg)) ?_
    by_cases hf : f.key = G.key
    · obtain rfl := alone f List.mem_cons_self hf
      exact .inr ((Dev.get_put_self ..).trans hG)
    · obtain h | h := h
      · exact .inl ((List.mem_cons.mp h).resolve_left (fun e => hf (e ▸ rfl)))
      · exact .inr ((Dev.get_put_ne _ _ _ _ hf).trans h)

theorem Dev.ftClear_regsOnly (d : Dev) (k : Nat) : d.RegsOnly (entryFlds k) (d.ftClear k) :=
  List.foldlRecOn (motive := d.RegsOnly (entryFlds k)) _ _ (.refl d) (fun _ he f hf => he.put hf f.reset)

theorem entryFlds_alone : ∀ k : Fin 64, ∀ f ∈ entryFlds k.val,
    (f.key = (F.HND_FTk_INFO_CLASS k.val).key → f = F.HND_FTk_INFO_CLASS k.val) ∧
    (f.key = (F.HND_FTk_CAUSE_CAUSE k.val).key → f = F.HND_FTk_CAUSE_CAUSE k.val) := by decide +kernel

theorem entryFlds_apart : ∀ k : Fin 64, F.HND_FT_VALID0_VALID.key ∉ (entryFlds k.val).map Fld.key ∧
    F.HND_FT_VALID1_VALID.key ∉ (entryFlds k.val).map Fld.key ∧ F.HND_FT_VALID0_VALID.key ≠ (F.HND_FTk_INFO_CLASS k.val).key ∧
    F.HND_FT_VALID1_VALID.key ≠ (F.HND_FTk_INFO_CLASS k.val).key ∧ F.HND_FT_VALID0_VALID.key ≠ (F.HND_FTk_CAUSE_CAUSE k.val).key ∧
    F.HND_FT_VALID1_VALID.key ≠ (F.HND_FTk_CAUSE_CAUSE k.val).key := by decide +kernel

/-- Clearing bit k of a register of w bits clears that bit alone. -/
theorem bitAt_bitPut_false {v k w c : Nat} (hc : c < w) : bitAt (bitPut v k false % 2 ^ w) c = (bitAt v c && decide (c ≠ k)) := by
  rw [bitAt_eq_testBit, Nat.testBit_mod_two_pow, decide_eq_true hc, Bool.true_and, bitAt_eq_testBit, bitPut, bitAt_eq_testBit]
  cases hk : v.testBit k
  case false =>
    rw [if_pos (beq_self_eq_true false)]
    by_cases h : c = k
    · rw [h, hk, Bool.false_and]
    · simp [h]
  case true =>
    rw [if_neg (by simp), if_neg (by simp)]
    have whole : v - 2 ^ k + 2 ^ k = v := Nat.sub_add_cancel (Nat.ge_two_pow_of_testBit hk)
    have clear : (v - 2 ^ k).testBit k = false := by
      have flips := Nat.testBit_two_pow_add_eq (v - 2 ^ k) k
      rw [Nat.add_comm, whole, hk] at flips
      simpa using flips.symm
    by_cases h : c = k
    · rw [h, clear]
      simp
    · have kept := testBit_add_two_pow clear h
      rw [whole] at kept
      simp [kept, h]

/-- The bit of entry k alone is cleared. -/
theorem Dev.ftSetValid_false (d : Dev) {k j : Nat} (hj : j < 64) : (d.ftSetValid k false).ftValid j = (d.ftValid j && decide (j ≠ k)) := by
  have apart : F.HND_FT_VALID0_VALID.key ≠ F.HND_FT_VALID1_VALID.key := by decide
  have cleared : ∀ (G : Fld) (i c : Nat), G.width = 32 → c < 32 → (d.setBit G i false).bit G c = (d.bit G c && decide (c ≠ i)) := by
    intro G i c hw hc
    rw [Dev.bit, Dev.setBit, Dev.get_put_self, hw, bitAt_bitPut_false hc, Dev.bit]
  have other : ∀ (G H : Fld) (i c : Nat), G.key ≠ H.key → (d.setBit G i false).bit H c = d.bit H c := by
    intro G H i c h
    rw [Dev.bit, Dev.setBit, Dev.get_put_ne _ _ _ _ h, Dev.bit]
  unfold Dev.ftSetValid Dev.ftValid
  by_cases lowK : k < 32 <;> by_cases lowJ : j < 32
  · rw [if_pos lowK, if_pos lowJ, if_pos lowJ, cleared _ _ _ rfl lowJ]
  · rw [if_pos lowK, if_neg lowJ, if_neg lowJ, other _ _ _ _ apart, decide_eq_true (by omega), Bool.and_true]
  · rw [if_neg lowK, if_pos lowJ, if_pos lowJ, other _ _ _ _ apart.symm, decide_eq_true (by omega), Bool.and_true]
  · rw [if_neg lowK, if_neg lowJ, if_neg lowJ, cleared _ _ _ rfl (by omega)]
    exact congrArg _ (decide_eq_decide.mpr (by omega))

theorem Dev.ftSetValid_get (d : Dev) (k : Nat) (b : Bool) {G : Fld} (h0 : F.HND_FT_VALID0_VALID.key ≠ G.key)
    (h1 : F.HND_FT_VALID1_VALID.key ≠ G.key) : (d.ftSetValid k b).get G = d.get G := by
  unfold Dev.ftSetValid
  split
  · exact Dev.get_put_ne _ _ _ _ h0
  · exact Dev.get_put_ne _ _ _ _ h1

theorem Dev.ftSetValid_frame (d : Dev) (k : Nat) (b : Bool) : d.ftSetValid k b = { d with regs := (d.ftSetValid k b).regs } := by
  unfold Dev.ftSetValid
  split <;> rfl

section
variable (d : Dev) (k : Fin 64)

theorem Dev.ftReleased_valid {j : Nat} (hj : j < 64) : (d.ftReleased k.val).ftValid j = (d.ftValid j && decide (j ≠ k.val)) := by
  obtain ⟨low, high, -⟩ := entryFlds_apart k
  have kept : (d.ftClear k.val).ftValid j = d.ftValid j := by
    unfold Dev.ftValid Dev.bit
    rw [(d.ftClear_regsOnly k.val).keeps _ low, (d.ftClear_regsOnly k.val).keeps _ high]
  rw [← kept]
  exact Dev.ftSetValid_false _ hj

theorem Dev.ftReleased_class : (d.ftReleased k.val).get (F.HND_FTk_INFO_CLASS k.val) = 0 := by
  obtain ⟨-, -, low, high, -⟩ := entryFlds_apart k
  refine (Dev.ftSetValid_get _ _ _ low high).trans ?_
  rw [Dev.ftClear_eq]
  exact Dev.get_cleared rfl _ _ (fun f hf => (entryFlds_alone k f hf).1) (.inl (by simp [entryFlds]))

theorem Dev.ftReleased_cause : (d.ftReleased k.val).get (F.HND_FTk_CAUSE_CAUSE k.val) = 0 := by
  obtain ⟨-, -, -, -, low, high⟩ := entryFlds_apart k
  refine (Dev.ftSetValid_get _ _ _ low high).trans ?_
  rw [Dev.ftClear_eq]
  exact Dev.get_cleared rfl _ _ (fun f hf => (entryFlds_alone k f hf).2) (.inl (by simp [entryFlds]))

theorem Dev.ftReleased_frame : d.ftReleased k.val =
    { d with regs := (d.ftReleased k.val).regs, hnd := { d.hnd with order := d.hnd.order.filter (· != k.val) } } := by
  have entry := (d.ftClear_regsOnly k.val).frame
  have bit := (d.ftClear k.val).ftSetValid_frame k.val false
  unfold Dev.ftReleased
  dsimp only
  generalize (d.ftClear k.val).ftSetValid k.val false = e at bit ⊢
  generalize d.ftClear k.val = c at entry bit
  generalize e.regs = r, c.regs = q at entry bit
  rw [bit, entry]

end

/-! ### Writes of the release bits -/

theorem entryFlds_notRec : ∀ k : Fin 64, (F.HND_FTk_INFO_RESOLVED k.val).key ∉ recFlds.map Fld.key := by decide

theorem Dev.ftValid_recOnly {d w : Dev} (h : d.recOnly w) (j : Nat) : w.ftValid j = d.ftValid j := by
  unfold Dev.ftValid Dev.bit
  rw [h.2 F.HND_FT_VALID0_VALID (by decide), h.2 F.HND_FT_VALID1_VALID (by decide)]

/-- The word that releases entry k of its register. -/
theorem releaseWord_toNat {k : Nat} (hk : k < 32) : (BitVec.ofNat 32 (2 ^ k)).toNat = 2 ^ k := by
  rw [BitVec.toNat_ofNat]
  exact Nat.mod_eq_of_lt (Nat.pow_lt_pow_right (by omega) hk)

section
variable {s : State} {hi : Bool} {k : Nat} (hk : k < 32) (hv : s.dev.ftValid (32 * b2n hi + k) = true)
include hk hv

theorem regWrite_release (hr : s.dev.get (F.HND_FTk_INFO_RESOLVED (32 * b2n hi + k)) = 1) :
    ∃ t : State, s.regWrite (validAddr hi) (BitVec.ofNat 32 (2 ^ k)) = t ∧ t.dev.ftValid (32 * b2n hi + k) = false ∧
      (∀ j : Nat, j < 64 → j ≠ 32 * b2n hi + k → t.dev.ftValid j = s.dev.ftValid j) ∧
      t.dev.get (F.HND_FTk_INFO_CLASS (32 * b2n hi + k)) = 0 ∧ t.dev.get (F.HND_FTk_CAUSE_CAUSE (32 * b2n hi + k)) = 0 ∧
      t.dev.hnd.order = s.dev.hnd.order.filter (· != 32 * b2n hi + k) ∧ t.mem = s.mem := by
  obtain ⟨n, hn⟩ : ∃ n : Fin 64, n.val = 32 * b2n hi + k := ⟨⟨32 * b2n hi + k, by cases hi <;> simp [b2n] <;> omega⟩, rfl⟩
  obtain ⟨w, hw⟩ : ∃ w, s.settled.dev.fieldsWritten (validReg hi) (validAddr hi) (BitVec.ofNat 32 (2 ^ k)).toNat = w := ⟨_, rfl⟩
  have only : s.settled.dev.recOnly w := hw ▸ Dev.fieldsWritten_recOnly
    (Dev.applyField_skips (d := s.settled.dev) (h := validReg hi) (f := validField) (.inl (validReg_own hi)))
  have accepted : s.settled.dev.writeRefused (validReg hi) (validAddr hi) (BitVec.ofNat 32 (2 ^ k)).toNat = false := by
    rw [validReg_refused, releaseWord_toNat hk, openBits_two_pow _ _ hk]
    have resolved : s.settled.dev.flag (F.HND_FTk_INFO_RESOLVED (32 * b2n hi + k)) = true := bne_iff_ne.mpr (by
      rw [show s.settled.dev.get _ = 1 from hr]
      simp)
    rw [resolved]
    simp
  have acts : w.afterWrite s.settled.dev s.mem (validReg hi) (BitVec.ofNat 32 (2 ^ k)).toNat = w.ftReleased n.val := by
    rw [validReg_acts, hn, releaseWord_toNat hk]
    exact Dev.ftRelease_two_pow hk ((Dev.ftValid_recOnly only _).trans hv) ((only.2 _ (hn ▸ entryFlds_notRec n)).trans hr)
  have frame := w.ftReleased_frame n
  rw [← hn]
  refine ⟨_, State.regWrite_accepted (validReg_aligned hi) (validReg_found hi) (validReg_host hi).1 (validReg_host hi).2 accepted
    (Dev.notHeld_below _ (validReg_low hi)) (by rw [hw]; exact acts) ((congrArg Dev.wq frame).trans (by rw [only.1]; rfl)), ?_, fun j hj hne => ?_,
    w.ftReleased_class n, w.ftReleased_cause n, ?_, rfl⟩
  · rw [Dev.ftReleased_valid _ _ n.isLt]
    simp
  · rw [Dev.ftReleased_valid _ _ hj, decide_eq_true hne, Bool.and_true]
    exact Dev.ftValid_recOnly only j
  · exact (congrArg (fun d : Dev => d.hnd.order) frame).trans (by rw [only.1]; rfl)

theorem regWrite_release_open (hr : s.dev.get (F.HND_FTk_INFO_RESOLVED (32 * b2n hi + k)) = 0) :
    ∃ t : State, s.regWrite (validAddr hi) (BitVec.ofNat 32 (2 ^ k)) = t ∧ onlyRegsRec [] s.settled t ∧
      recorded s.dev t.dev 0x0E03 0x01 2 (validAddr hi) (2 ^ k) (s.settled.dev.readReg (validAddr hi)) := by
  have refused : s.settled.dev.writeRefused (validReg hi) (validAddr hi) (BitVec.ofNat 32 (2 ^ k)).toNat = true := by
    rw [validReg_refused, releaseWord_toNat hk, openBits_two_pow _ _ hk, show s.settled.dev.ftValid _ = true from hv, Dev.flag,
      show s.settled.dev.get _ = 0 from hr]
    rfl
  have row : s.settled.dev.regWrite s.mem (validAddr hi) (BitVec.ofNat 32 (2 ^ k)).toNat =
      s.settled.dev.raise 0x0E03 0x01 2 (validAddr hi) (2 ^ k) (s.settled.dev.readReg (validAddr hi)) := by
    rw [Dev.regWrite_judged (validReg_aligned hi) (validReg_found hi) (validReg_host hi).1 (validReg_host hi).2, if_pos refused,
      Dev.refuseWrite, releaseWord_toNat hk]
  refine ⟨_, State.runDev_noWrites s (fun d m => d.regWrite m (validAddr hi) (BitVec.ofNat 32 (2 ^ k)).toNat) (by rw [row]; exact Dev.raise_wq ..),
    ?_, ?_⟩
  · rw [row]
    exact State.onDev_raise_onlyRegsRec s.settled [] _ _ _ _ _ _
  · rw [row]
    exact s.settled_recorded _ _ _ _ _ _

end

/-- Settles O34: each block's register is judged as a whole, and the block then does what its chapter says of the bits. -/
theorem driveRowsWrite : Obligations.DriveRowsWrite := by
  refine ⟨fun v s _ _ => ⟨fun h => ?_, fun h h0 => ?_, fun h => ?_⟩, fun e v s hh hu hl => ?_, fun e v s hs hv hh hu ha => ⟨fun h3 h4 => ?_, fun h3 h4 hn hc hl => ?_⟩,
    fun a v s => ⟨fun h => ?_, fun e hv hr hi hl h0 => ?_, fun e hr hi hl h1 h3 hs => ⟨fun hv => ?_, fun hv => ?_, fun hv => ?_⟩⟩,
    fun hi k s hk hv hr => ?_, fun hi k s hk hv hr => ?_⟩
  · obtain ⟨t, ht, holds⟩ := regWrite_led_off (s := s) h
    exact ⟨t, congrArg Host.Outcome.next ht, holds⟩
  · obtain ⟨t, ht, holds⟩ := regWrite_led_on h h0
    exact ⟨t, congrArg Host.Outcome.next ht, holds⟩
  · obtain ⟨t, ht, holds⟩ := regWrite_led_apply (s := s) h
    exact ⟨t, congrArg Host.Outcome.next ht, holds⟩
  · exact ⟨congrArg Host.Outcome.next (regWrite_enc_held hh hu hl), congrArg Host.Outcome.next (regWrite_enc_held hh hu hl)⟩
  · obtain ⟨t, ht, holds⟩ := regWrite_enc_preset hs hv hh hu ha h3 h4
    exact ⟨t, congrArg Host.Outcome.next ht, holds⟩
  · obtain ⟨t, ht, holds⟩ := regWrite_enc_rearm hs hv hh hu h3 h4 hn hc hl
    exact ⟨t, congrArg Host.Outcome.next ht, holds⟩
  · obtain ⟨t, ht, holds⟩ := regWrite_axis_off (s := s) (a := a) h
    exact ⟨t, congrArg Host.Outcome.next ht, holds⟩
  · obtain ⟨t, ht, holds⟩ := regWrite_axis_enable hr hi hl hv h0
    exact ⟨t, congrArg Host.Outcome.next ht, holds⟩
  · obtain ⟨t, ht, holds⟩ := regWrite_axis_go hr hi hl hs h1 h3 hv
    exact ⟨t, congrArg Host.Outcome.next ht, holds⟩
  · obtain ⟨t, ht, holds⟩ := regWrite_axis_stop hr hi hl hs h1 h3 hv
    exact ⟨t, congrArg Host.Outcome.next ht, holds⟩
  · obtain ⟨t, ht, holds⟩ := regWrite_axis_bndgo hr hi hl hs h1 h3 hv
    exact ⟨t, congrArg Host.Outcome.next ht, holds⟩
  · obtain ⟨t, ht, holds⟩ := regWrite_release hk hv hr
    exact ⟨t, congrArg Host.Outcome.next ht, holds⟩
  · obtain ⟨t, ht, holds⟩ := regWrite_release_open hk hv hr
    exact ⟨t, congrArg Host.Outcome.next ht, holds⟩

end Sys2Proof.Machine

/-! # Network time (11_link_and_time.md R310 to R313, R317)

A Sync moves the servo, or decides a step; the messages of a port are answered from its own registers; the loss of a master and the end of a phase slew change
the clock's state alone. -/

namespace Sys2Proof.Machine

open Sys2Proof.Safety

/-! ## PTP_SYNC (R312, R313) -/

theorem exec_ptpSync {e : Eth} {raw : Int} {gm : DWord} {s : State} {d' : Dev} (h : s.dev.ptpSync e.val raw gm = d') :
    exec (.ptpSync e raw gm) s = .next { s with dev := d' } := by
  subst h
  rfl

theorem exec_ptpMessage {e : Eth} {m : PtpMsg} {s : State} {d' : Dev} (h : s.dev.ptpMsg e.val m = d') :
    exec (.ptpMessage e m) s = .next { s with dev := d' } := by
  subst h
  rfl

theorem exec_ptpMasterLost {s : State} {d' : Dev} (h : s.dev.masterLost = d') : exec .ptpMasterLost s = .next { s with dev := d' } := by
  subst h
  rfl

theorem exec_ptpPeriodicSend {e : Eth} {m : PtpOut} {s : State} {d' : Dev} (h : s.dev.ptpSend e.val m = d') :
    exec (.ptpPeriodicSend e m) s = .next { s with dev := d' } := by
  subst h
  rfl

/-- A clock that follows the same master keeps its state. -/
theorem Dev.newMaster_same {d : Dev} {e : Nat} {gm : DWord} (hh : d.get F.PTP_GM_HI_ID = gm.toNat / 2 ^ 32)
    (hl : d.get F.PTP_GM_LO_ID = gm.toNat % 2 ^ 32) : d.newMaster e gm = d := by
  unfold Dev.newMaster
  dsimp only
  rw [if_pos (by simp [hh, hl])]

theorem Dev.putOffset_regsOnly (d : Dev) (o : Int) : d.RegsOnly [F.PTP_OFS_LO_NS, F.PTP_OFS_HI_NS] (d.putOffset o) :=
  ((Dev.RegsOnly.refl d).put (by simp) _).put (by simp) _

theorem trunc_lt (w : Nat) (v : Int) : trunc w v < 2 ^ w := by
  have pos : (0 : Int) < 2 ^ w := by positivity
  have below := Int.emod_lt_of_pos v pos
  have above := Int.emod_nonneg v pos.ne'
  unfold trunc
  zify
  rw [Int.toNat_of_nonneg above]
  exact below

theorem Dev.putOffset_low (d : Dev) (o : Int) : (d.putOffset o).get F.PTP_OFS_LO_NS = trunc 32 o :=
  (Dev.get_put_ne _ _ _ _ (by decide)).trans ((Dev.get_put_self ..).trans (Nat.mod_eq_of_lt (trunc_lt 32 o)))

section
variable {d : Dev} {e : Nat} {raw : Int} {gm : DWord} (ho : d.ptpOn e = true) (hh : d.get F.PTP_GM_HI_ID = gm.toNat / 2 ^ 32)
  (hl : d.get F.PTP_GM_LO_ID = gm.toNat % 2 ^ 32)
include ho hh hl

/-- Where the device follows its root, a Sync of the same master changes nothing. -/
theorem Dev.ptpSync_follows (h : d.get F.PTP_STAT_STATE = 6) : d.ptpSync e raw gm = d := by
  unfold Dev.ptpSync
  dsimp only
  rw [if_neg (by simp [ho]), Dev.newMaster_same hh hl, if_pos (by simp [h])]

/-- The offset of a locked clock goes to the servo. -/
theorem Dev.ptpSync_locked (h : d.get F.PTP_STAT_STATE = 2) (hv : d.get F.PTP_STAT_TIME_VALID = 1) (hf : d.ptp.first = none) :
    d.ptpSync e raw gm = (d.putOffset (d.syncOffset e raw)).servo (d.syncOffset e raw) := by
  unfold Dev.ptpSync
  dsimp only
  rw [if_neg (by simp [ho]), Dev.newMaster_same hh hl, if_neg (by simp [h]), if_neg (by simp [Dev.flag, hv]), hf, h]
  rfl

/-- The first offset of a clock without valid time decides a step. -/
theorem Dev.ptpSync_steps (h : d.get F.PTP_STAT_STATE ≠ 6) (hv : d.get F.PTP_STAT_TIME_VALID = 0) (hs : d.ptp.step = none) :
    d.ptpSync e raw gm = (d.putOffset (d.syncOffset e raw)).decideStep (d.syncOffset e raw) := by
  unfold Dev.ptpSync
  dsimp only
  rw [if_neg (by simp [ho]), Dev.newMaster_same hh hl, if_neg (by simpa using h), if_pos (by simp [Dev.flag, hv]), if_neg (by simp [hs])]

end

/-- The frequency that the servo sets for an offset (R312). -/
def Dev.servoFreq (d : Dev) (o : Int) : Word :=
  d.slewLimit (f32Sub d.ptp.fHold (f32Add (f32Mul (d.getW F.PTP_KP_VAL) (f32OfInt o))
    (f32Add d.ptp.i (f32Mul (d.getW F.PTP_KI_VAL) (f32OfInt o)))))

/-- The servo of a locked clock keeps the frequencies of the last 16 s. -/
theorem Dev.servo_locked {d : Dev} (o : Int) (h : d.get F.PTP_STAT_STATE = 2) : d.servo o =
    { d.put F.PTP_FREQ_VAL (d.servoFreq o).toNat with ptp := { d.ptp with
        i := f32Add d.ptp.i (f32Mul (d.getW F.PTP_KI_VAL) (f32OfInt o))
        run := if o.natAbs ≤ 100 then d.ptp.run + 1 else 0
        first := none
        fs := d.ptp.fs.filter (fun (y : DWord × Word) => decide (elapsed64 d.time y.1 < 16000000000)) ++ [(d.time, d.servoFreq o)] } } := by
  unfold Dev.servo
  dsimp only
  rw [h]
  rfl

/-- The frequency does not depend on the offset registers. -/
theorem Dev.servoFreq_putOffset (d : Dev) (o : Int) : (d.putOffset o).servoFreq o = d.servoFreq o := by
  have keeps : ∀ G : Fld, G.key ∉ [F.PTP_OFS_LO_NS, F.PTP_OFS_HI_NS].map Fld.key → (d.putOffset o).get G = d.get G :=
    (d.putOffset_regsOnly o).keeps
  unfold Dev.servoFreq Dev.slewLimit Dev.getW
  rw [keeps F.PTP_KP_VAL (by decide), keeps F.PTP_KI_VAL (by decide), keeps F.PTP_SLEW_MAX_PPB (by decide)]
  rfl

/-- An offset from the master that a locked clock follows. -/
theorem exec_ptpSync_locked {e : Eth} {raw : Int} {gm : DWord} {s : State} (ho : s.dev.ptpOn e.val = true)
    (hh : s.dev.get F.PTP_GM_HI_ID = gm.toNat / 2 ^ 32) (hl : s.dev.get F.PTP_GM_LO_ID = gm.toNat % 2 ^ 32)
    (h : s.dev.get F.PTP_STAT_STATE = 2) (hv : s.dev.get F.PTP_STAT_TIME_VALID = 1) (hf : s.dev.ptp.first = none) :
    let o := s.dev.syncOffset e.val raw
    ∃ t : State, exec (.ptpSync e raw gm) s = .next t ∧ t.dev.get F.PTP_STAT_STATE = 2 ∧
      t.dev.get F.PTP_OFS_LO_NS = trunc 32 o ∧ t.dev.ptp.i = f32Add s.dev.ptp.i (f32Mul (s.dev.getW F.PTP_KI_VAL) (f32OfInt o)) ∧
      t.dev.get F.PTP_FREQ_VAL = (s.dev.slewLimit (f32Sub s.dev.ptp.fHold
        (f32Add (f32Mul (s.dev.getW F.PTP_KP_VAL) (f32OfInt o)) t.dev.ptp.i))).toNat ∧
      t.dev.ptp.run = (if o.natAbs ≤ 100 then s.dev.ptp.run + 1 else 0) ∧ t.dev.evr = s.dev.evr ∧ t.dev.time = s.dev.time ∧
      t = { s with dev := { s.dev with regs := t.dev.regs, ptp := t.dev.ptp } } ∧
      regsKeep [F.PTP_OFS_LO_NS, F.PTP_OFS_HI_NS, F.PTP_FREQ_VAL] s.dev t.dev := by
  intro o
  have offset := s.dev.putOffset_regsOnly o
  have gain : (s.dev.putOffset o).getW F.PTP_KI_VAL = s.dev.getW F.PTP_KI_VAL := congrArg (BitVec.ofNat 32) (offset.keeps _ (by decide))
  have row := (Dev.ptpSync_locked (raw := raw) ho hh hl h hv hf).trans
    (Dev.servo_locked (d := s.dev.putOffset o) o ((offset.keeps _ (by decide)).trans h))
  rw [Dev.servoFreq_putOffset, gain] at row
  refine ⟨_, exec_ptpSync row, ?_, ?_, rfl, ?_, rfl, rfl, rfl, rfl, ?_⟩
  · exact (Dev.get_put_ne (s.dev.putOffset o) F.PTP_FREQ_VAL F.PTP_STAT_STATE _ (by decide)).trans ((offset.keeps _ (by decide)).trans h)
  · exact (Dev.get_put_ne (s.dev.putOffset o) F.PTP_FREQ_VAL F.PTP_OFS_LO_NS _ (by decide)).trans (s.dev.putOffset_low o)
  · exact (Dev.get_put_self (s.dev.putOffset o) F.PTP_FREQ_VAL _).trans (Nat.mod_eq_of_lt (BitVec.isLt _))
  · exact regsKeep_trans (regsKeep_mono offset.keeps (by simp +contextual)) (regsKeep_put (s.dev.putOffset o) F.PTP_FREQ_VAL _ (by simp))

theorem exec_ptpSync_steps {e : Eth} {raw : Int} {gm : DWord} {s : State} (ho : s.dev.ptpOn e.val = true)
    (hh : s.dev.get F.PTP_GM_HI_ID = gm.toNat / 2 ^ 32) (hl : s.dev.get F.PTP_GM_LO_ID = gm.toNat % 2 ^ 32)
    (h : s.dev.get F.PTP_STAT_STATE ≠ 6) (hv : s.dev.get F.PTP_STAT_TIME_VALID = 0) (hs : s.dev.ptp.step = none) :
    ∃ t : State, exec (.ptpSync e raw gm) s = .next t ∧ t.dev.ptp.step = some (s.dev.syncOffset e.val raw) ∧ t.dev.get F.PTP_STAT_STATE = 1 ∧
      t.dev.time = s.dev.time ∧ t.dev.evr = s.dev.evr ∧ regsKeep [F.PTP_OFS_LO_NS, F.PTP_OFS_HI_NS, F.PTP_STAT_STATE] s.dev t.dev := by
  have offset := s.dev.putOffset_regsOnly (s.dev.syncOffset e.val raw)
  refine ⟨_, exec_ptpSync (Dev.ptpSync_steps ho hh hl h hv hs), rfl,
    Dev.get_put_self _ F.PTP_STAT_STATE 1, rfl, rfl, ?_⟩
  exact regsKeep_trans (regsKeep_mono offset.keeps (by simp +contextual)) (regsKeep_put _ F.PTP_STAT_STATE 1 (by simp))

/-! ## PTP_MESSAGE (R310, R311) -/

/-- Half the sum of both ways, in 32 bits. -/
theorem Dev.pathDelay_eq (d : Dev) (e : Nat) (v : Int) : (d.pathDelay e v : Int) =
    (v + d.get (F.PTPp_ING_LAT_LAT e) - d.get (F.PTPp_EGR_LAT_LAT e)) / 2 % 2 ^ 32 :=
  Int.toNat_of_nonneg (Int.emod_nonneg _ (by decide))

/-- A message that nothing follows, or under one-step, leaves alone. -/
theorem Dev.ptpPut_alone {d : Dev} {e : Nat} {m : PtpKind} {r : Option Nat} (h : m.followed = none ∨ d.get F.PTP_CTRL_ONESTEP ≠ 0) :
    d.ptpPut e m r = { d with ptp := { d.ptp with sent := d.ptp.sent ++ [d.ptpSentNow e m r] } } := by
  unfold Dev.ptpPut
  obtain h | h := h
  · rw [h, show Option.toList (none : Option PtpKind) = [] from rfl, List.map_nil, ite_self]
  · rw [if_pos (by simp [Dev.flag, h])]

/-- Under two-step the message that follows carries the egress timestamp (R310). -/
theorem Dev.ptpPut_followed {d : Dev} {e : Nat} {m k : PtpKind} {r : Option Nat} (h : m.followed = some k) (h0 : d.get F.PTP_CTRL_ONESTEP = 0) :
    d.ptpPut e m r = { d with ptp := { d.ptp with sent := d.ptp.sent ++ [d.ptpSentNow e m r, d.ptpSentNow e k r] } } := by
  unfold Dev.ptpPut
  rw [if_neg (by simp [Dev.flag, h0]), h]
  rfl

section
variable {e : Eth} {s : State} (ho : s.dev.ptpOn e.val = true)
include ho

/-- A response to the port's own kind of request gives its mean path delay; one to the other kind is discarded. -/
theorem exec_ptpMessage_response (mine other : Int → PtpMsg) (v : Int)
    (h : (mine, other) = (if s.dev.get F.PTP_CTRL_P2P = 0 then (PtpMsg.delayResp, PtpMsg.pdelayResp) else (PtpMsg.pdelayResp, PtpMsg.delayResp))) :
    (∃ t : State, exec (.ptpMessage e (mine v)) s = .next t ∧
      (t.dev.get (F.PTPp_MPD_MPD e.val) : Int) =
        (v + s.dev.get (F.PTPp_ING_LAT_LAT e.val) - s.dev.get (F.PTPp_EGR_LAT_LAT e.val)) / 2 % 2 ^ 32 ∧
      onlyRegs [F.PTPp_MPD_MPD e.val] s t) ∧ exec (.ptpMessage e (other v)) s = .next s := by
  have shows : (((s.dev.put (F.PTPp_MPD_MPD e.val) (s.dev.pathDelay e.val v)).get (F.PTPp_MPD_MPD e.val) : Nat) : Int) =
      (v + s.dev.get (F.PTPp_ING_LAT_LAT e.val) - s.dev.get (F.PTPp_EGR_LAT_LAT e.val)) / 2 % 2 ^ 32 := by
    rw [Dev.get_put_self, ← s.dev.pathDelay_eq e.val v]
    exact congrArg Int.ofNat (Nat.mod_eq_of_lt (trunc_lt 32 _))
  by_cases peer : s.dev.get F.PTP_CTRL_P2P = 0
  · rw [if_pos peer] at h
    obtain ⟨rfl, rfl⟩ := Prod.mk.inj h
    have mine : s.dev.ptpMsg e.val (.delayResp v) = s.dev.put (F.PTPp_MPD_MPD e.val) (s.dev.pathDelay e.val v) := if_pos (by simp [ho, Dev.flag, peer])
    have other : s.dev.ptpMsg e.val (.pdelayResp v) = s.dev := if_neg (by simp [Dev.flag, peer])
    exact ⟨⟨_, exec_ptpMessage mine, shows, State.onlyRegs_put s _ _⟩,
      exec_ptpMessage other⟩
  · rw [if_neg peer] at h
    obtain ⟨rfl, rfl⟩ := Prod.mk.inj h
    have mine : s.dev.ptpMsg e.val (.pdelayResp v) = s.dev.put (F.PTPp_MPD_MPD e.val) (s.dev.pathDelay e.val v) := if_pos (by simp [ho, Dev.flag, peer])
    have other : s.dev.ptpMsg e.val (.delayResp v) = s.dev := if_neg (by simp [Dev.flag, peer])
    exact ⟨⟨_, exec_ptpMessage mine, shows, State.onlyRegs_put s _ _⟩,
      exec_ptpMessage other⟩

/-- A master answers a Delay_Req under E2E. -/
theorem exec_ptpMessage_delayReq {raw : Nat} (hp : s.dev.get F.PTP_CTRL_P2P = 0) (hm : s.dev.get (F.PTPp_STAT_PSTATE e.val) = 6) :
    exec (.ptpMessage e (.delayReq raw)) s = .next { s with dev := { s.dev with ptp := { s.dev.ptp with
      sent := s.dev.ptp.sent ++ [s.dev.ptpSentNow e.val .delayResp (some (raw + s.dev.get (F.PTPp_ING_LAT_LAT e.val)))] } } } := by
  have answers : s.dev.ptpMsg e.val (.delayReq raw) = s.dev.ptpPut e.val .delayResp (some (raw + s.dev.get (F.PTPp_ING_LAT_LAT e.val))) :=
    if_pos (by simp [ho, Dev.flag, hp, hm])
  exact exec_ptpMessage (answers.trans (Dev.ptpPut_alone (.inl rfl)))

/-- A port answers a Pdelay_Req under P2P; under one-step nothing follows. -/
theorem exec_ptpMessage_pdelayReq {raw : Nat} (hp : s.dev.get F.PTP_CTRL_P2P ≠ 0) (h1 : s.dev.get F.PTP_CTRL_ONESTEP ≠ 0) :
    exec (.ptpMessage e (.pdelayReq raw)) s = .next { s with dev := { s.dev with ptp := { s.dev.ptp with
      sent := s.dev.ptp.sent ++ [s.dev.ptpSentNow e.val .pdelayResp (some (raw + s.dev.get (F.PTPp_ING_LAT_LAT e.val)))] } } } := by
  have answers : s.dev.ptpMsg e.val (.pdelayReq raw) = s.dev.ptpPut e.val .pdelayResp (some (raw + s.dev.get (F.PTPp_ING_LAT_LAT e.val))) :=
    if_pos (by simp [ho, Dev.flag, hp])
  exact exec_ptpMessage (answers.trans (Dev.ptpPut_alone (.inr h1)))

end

/-! ## The loss of a master, and the end of a phase slew (R313) -/

theorem exec_ptpMasterLost_none {s : State} (h : s.dev.get F.PTP_CTRL_EN = 0 ∨ s.dev.get F.PTP_STAT_STATE = 0 ∨ s.dev.get F.PTP_STAT_STATE = 3 ∨
    s.dev.get F.PTP_STAT_STATE = 4 ∨ 6 ≤ s.dev.get F.PTP_STAT_STATE) : exec .ptpMasterLost s = .next s := by
  have quiet : s.dev.masterLost = s.dev := by
    unfold Dev.masterLost
    dsimp only
    refine if_neg ?_
    simp only [Dev.flag, Bool.and_eq_true, Bool.or_eq_true, bne_iff_ne, beq_iff_eq]
    omega
  exact exec_ptpMasterLost quiet

/-- The frequency that holds once the master is lost (R313). -/
def Dev.heldFreq (d : Dev) : Word := if d.flag F.PTP_CTRL_COMPAT then d.getW F.PTP_FREQ_VAL else d.meanFreq

/-- The clock without its master, before the event of the loss. -/
def Dev.unled (d : Dev) : Dev :=
  ((({ d with ptp := { d.ptp with first := none, run := 0 } }).put F.PTP_STAT_STATE (if d.flag F.PTP_CTRL_COMPAT then 4 else 3)).put
    F.PTP_FREQ_VAL d.heldFreq.toNat).put F.PTP_STAT_MASTER_LOST 1

theorem Dev.unled_regsRec (d : Dev) : ({ d with ptp := { d.ptp with first := none, run := 0 } } : Dev).RegsRec
    [F.PTP_STAT_STATE, F.PTP_STAT_MASTER_LOST, F.PTP_FREQ_VAL] d.unled :=
  (((Dev.RegsRec.refl ({ d with ptp := { d.ptp with first := none, run := 0 } })).put _ (by decide)).put _ (by decide)).put _ (by decide)

theorem exec_ptpMasterLost_leads {s : State} (he : s.dev.get F.PTP_CTRL_EN = 1)
    (hs : s.dev.get F.PTP_STAT_STATE = 1 ∨ s.dev.get F.PTP_STAT_STATE = 2 ∨ s.dev.get F.PTP_STAT_STATE = 5) : ∃ t : State, exec .ptpMasterLost s = .next t ∧
      t.dev.get F.PTP_STAT_STATE = (if s.dev.get F.PTP_CTRL_COMPAT = 0 then 3 else 4) ∧ t.dev.get F.PTP_STAT_MASTER_LOST = 1 ∧
      (s.dev.get F.PTP_CTRL_COMPAT ≠ 0 → t.dev.getW F.PTP_FREQ_VAL = s.dev.getW F.PTP_FREQ_VAL) ∧
      t.dev.ptp = { s.dev.ptp with first := none, run := 0 } ∧
      onlyRegsRec [F.PTP_STAT_STATE, F.PTP_STAT_MASTER_LOST, F.PTP_FREQ_VAL]
        { s with dev := { s.dev with ptp := t.dev.ptp } } t := by
  have lost : s.dev.masterLost = s.dev.unled.raise 0x0721 0x08 2 (b2n (s.dev.flag F.PTP_CTRL_COMPAT)) (trunc 32 (f32ToInt s.dev.heldFreq)) s.dev.tick.toNat := by
    unfold Dev.masterLost
    dsimp only
    refine if_pos ?_
    simp only [Dev.flag, Bool.and_eq_true, Bool.or_eq_true, bne_iff_ne, beq_iff_eq]
    omega
  have only := s.dev.unled.recOnly_raise 0x0721 0x08 2 (b2n (s.dev.flag F.PTP_CTRL_COMPAT)) (trunc 32 (f32ToInt s.dev.heldFreq)) s.dev.tick.toNat
  generalize s.dev.unled.raise 0x0721 0x08 2 _ _ _ = r at lost only
  have got := only.2
  have regs := s.dev.unled_regsRec.trans ⟨only.1, regsKeep_mono only.2 (fun _ h => List.mem_append_left _ h)⟩
  have ptp := congrArg Dev.ptp regs.frame
  refine ⟨_, exec_ptpMasterLost lost, (got _ (by decide)).trans ?_, (got _ (by decide)).trans (Dev.get_put_self _ _ _), fun hc => ?_, ptp, ?_⟩
  · refine (Dev.get_put_ne _ _ _ _ (by decide)).trans ((Dev.get_put_ne _ _ _ _ (by decide)).trans ((Dev.get_put_self _ _ _).trans ?_))
    by_cases hc : s.dev.get F.PTP_CTRL_COMPAT = 0 <;> simp [Dev.flag, hc, F.PTP_STAT_STATE]
  · have held : s.dev.heldFreq = s.dev.getW F.PTP_FREQ_VAL := if_pos (by simp [Dev.flag, hc])
    refine (congrArg (BitVec.ofNat 32) ((got _ (by decide)).trans ((Dev.get_put_ne _ _ _ _ (by decide)).trans (Dev.get_put_self _ _ _)))).trans ?_
    rw [held]
    exact BitVec.eq_of_toNat_eq (by simp [F.PTP_FREQ_VAL])
  · dsimp only
    rw [ptp]
    exact ⟨congrArg (State.mk s.pending s.mem) regs.frame, regs.keeps⟩

theorem exec_phaseSlewDone {s : State} (h : s.dev.get F.PTP_STAT_PHASE_SLEW ≠ 0) : ∃ t : State, exec .phaseSlewDone s = .next t ∧
    t.dev.get F.PTP_STAT_PHASE_SLEW = 0 ∧ t.dev.time = s.dev.time - BitVec.ofInt 64 s.dev.ptp.rem ∧ t.dev.ptp = { s.dev.ptp with rem := 0 } ∧
    t.dev.tick = s.dev.tick ∧ t.mem = s.mem ∧ t.dev.evr = s.dev.evr ∧ regsKeep [F.PTP_STAT_PHASE_SLEW] s.dev t.dev := by
  have ends : s.dev.slewEnd = { s.dev.put F.PTP_STAT_PHASE_SLEW 0 with
      time := s.dev.time - BitVec.ofInt 64 s.dev.ptp.rem, ptp := { s.dev.ptp with rem := 0 } } := if_pos (by simp [Dev.flag, h])
  refine ⟨{ s with dev := s.dev.slewEnd }, rfl, ?_⟩
  rw [ends]
  exact ⟨Dev.get_put_self s.dev F.PTP_STAT_PHASE_SLEW 0, rfl, rfl, rfl, rfl, rfl, regsKeep_put s.dev F.PTP_STAT_PHASE_SLEW 0 (by simp)⟩

theorem exec_phaseSlewDone_none {s : State} (h : s.dev.get F.PTP_STAT_PHASE_SLEW = 0) : exec .phaseSlewDone s = .next s := by
  have quiet : s.dev.slewEnd = s.dev := if_neg (by simp [Dev.flag, h])
  show Host.Outcome.next { s with dev := s.dev.slewEnd } = .next s
  rw [quiet]

/-! ## ETH_LINK_CHANGE (R317) -/

theorem exec_ethLinkChange (e : Eth) (up : Bool) (s : State) : ∃ t : State, exec (.ethLinkChange e up) s = .next t ∧
    t.dev.get (F.PTPp_STAT_LINK e.val) = b2n up ∧
    (s.dev.ptpOn e.val = true → t.dev.get (F.PTPp_STAT_PSTATE e.val) = if up then 4 else 2) ∧
    (s.dev.ptpOn e.val = false → t.dev.get (F.PTPp_STAT_PSTATE e.val) = s.dev.get (F.PTPp_STAT_PSTATE e.val)) ∧
    onlyRegs [F.PTPp_STAT_LINK e.val, F.PTPp_STAT_PSTATE e.val] s t := by
  have apart : ∀ e : Eth, (F.PTPp_STAT_LINK e.val).key ≠ (F.PTPp_STAT_PSTATE e.val).key := by decide
  have link := ((Dev.RegsOnly.refl (fs := [F.PTPp_STAT_LINK e.val, F.PTPp_STAT_PSTATE e.val]) s.dev).put (G := F.PTPp_STAT_LINK e.val) (by simp) (b2n up))
  have shows : (s.dev.put (F.PTPp_STAT_LINK e.val) (b2n up)).get (F.PTPp_STAT_LINK e.val) = b2n up := by
    rw [Dev.get_put_self]
    cases up <;> rfl
  refine ⟨{ s with dev := s.dev.ethLink e.val up }, rfl, ?_⟩
  cases on : s.dev.ptpOn e.val
  case false =>
    rw [show s.dev.ethLink e.val up = s.dev.put (F.PTPp_STAT_LINK e.val) (b2n up) from if_neg (by simp [on])]
    exact ⟨shows, fun h => (nomatch h), fun _ => Dev.get_put_ne _ _ _ _ (apart e), congrArg (State.mk s.pending s.mem) link.frame, link.keeps⟩
  case true =>
    rw [show s.dev.ethLink e.val up = (s.dev.put (F.PTPp_STAT_LINK e.val) (b2n up)).put (F.PTPp_STAT_PSTATE e.val) (if up then 4 else 2) from if_pos on]
    have both := link.put (G := F.PTPp_STAT_PSTATE e.val) (by simp) (if up then 4 else 2)
    refine ⟨(Dev.get_put_ne _ _ _ _ (apart e).symm).trans shows, fun _ => ?_, fun h => (nomatch h),
      congrArg (State.mk s.pending s.mem) both.frame, both.keeps⟩
    exact (Dev.get_put_self _ _ _).trans (by cases up <;> rfl)

/-! ## PTP_PERIODIC_SEND (R310, R311) -/

theorem exec_ptpPeriodicSend_none {e : Eth} {m : PtpOut} {s : State} (h : s.dev.ptpOn e.val = false ∨ s.dev.get (F.PTPp_STAT_LINK e.val) = 0) :
    exec (.ptpPeriodicSend e m) s = .next s := by
  refine exec_ptpPeriodicSend (if_neg ?_)
  obtain h | h := h
  · simp [h]
  · simp [Dev.flag, h]

/-- What a master sends when an interval of it is over. -/
theorem exec_ptpPeriodicSend_master {e : Eth} {m : PtpOut} {s : State} (ho : s.dev.ptpOn e.val = true) (hl : s.dev.get (F.PTPp_STAT_LINK e.val) = 1)
    (hp : s.dev.get (F.PTPp_STAT_PSTATE e.val) = 6) (hm : m = .sync ∨ m = .announce) :
    exec (.ptpPeriodicSend e m) s = .next { s with dev := s.dev.ptpPut e.val (ptpOutKind m) none } := by
  refine exec_ptpPeriodicSend (if_pos ?_)
  obtain rfl | rfl := hm <;> simp [ho, Dev.flag, hl, hp]

/-- Settles O44: each row acts on the registers of its port, the servo's state and the messages that leave. -/
theorem ptpRows : Obligations.PtpRows := by
  refine ⟨fun e raw gm s => ⟨fun h => ?_, fun ho hh hl => ⟨fun h => ?_, fun h hv hf => ?_, fun h hv hs => ?_⟩⟩,
    fun e s => ⟨fun mine other v ho h => exec_ptpMessage_response ho mine other v h, fun hp => ?_, fun raw ho => ⟨fun hp hm => ?_, fun hp h1 => ?_⟩, rfl, rfl⟩,
    fun s => ⟨exec_ptpMasterLost_none, exec_ptpMasterLost_leads, exec_phaseSlewDone_none, exec_phaseSlewDone⟩, exec_ethLinkChange,
    fun e m s => ⟨exec_ptpPeriodicSend_none, fun ho hl hp hm => ?_⟩⟩
  · exact exec_ptpSync (if_pos (by simp [h]))
  · exact exec_ptpSync (Dev.ptpSync_follows ho hh hl h)
  · exact exec_ptpSync_locked ho hh hl h hv hf
  · exact exec_ptpSync_steps ho hh hl h hv hs
  · exact ⟨_, exec_ptpMessage (if_pos (by simp [Dev.flag, hp])), s.dev.bump_get _, State.onlyRegs_put s _ _⟩
  · exact exec_ptpMessage_delayReq ho hp hm
  · exact exec_ptpMessage_pdelayReq ho hp h1
  · refine (exec_ptpPeriodicSend_master ho hl hp hm).trans ?_
    obtain rfl | rfl := hm
    · by_cases one : s.dev.get F.PTP_CTRL_ONESTEP = 0
      · rw [Dev.ptpPut_followed (k := .followUp) rfl one, if_pos ⟨rfl, one⟩]
        rfl
      · rw [Dev.ptpPut_alone (.inr one), if_neg (by simp [one])]
        rfl
    · rw [Dev.ptpPut_alone (.inl rfl), if_neg (by simp)]
      rfl

end Sys2Proof.Machine

/-! # Frames and markers of Gorwin Link (11_link_and_time.md R299, R300, R302, R303)

A block in error counts, and may take the port down; the new routes that follow (R306) judge the role again, which touches no receiver. The blocks
of a whole frame leave the port's receiver free and the frame to `Dev.frameIn`, whose outcome is one lemma per cause. -/

namespace Sys2Proof.Machine

open Sys2Proof.Safety

/-! ## Judging the role leaves the receivers as they are -/

/-- The receivers of Gorwin Link are those of d. -/
def Dev.rxsKept (d d' : Dev) : Prop := d'.glk.rxs = d.glk.rxs

namespace Dev.rxsKept
variable {d e : Dev}

theorem refl (d : Dev) : d.rxsKept d := rfl

theorem trans {a b c : Dev} (h : a.rxsKept b) (k : b.rxsKept c) : a.rxsKept c := Eq.trans k h

theorem put (d : Dev) (G : Fld) (v : Nat) : d.rxsKept (d.put G v) := rfl

theorem raise (d : Dev) (c a b x y z : Nat) : d.rxsKept (d.raise c a b x y z) := congrArg Glk.rxs (d.raise_glk ..)

theorem raiseIf (d : Dev) (q : Prop) [Decidable q] (c a b x y z : Nat) : d.rxsKept (if q then d.raise c a b x y z else d) := by
  split
  · exact raise ..
  · exact refl d

theorem reachBits (d : Dev) : d.rxsKept d.reachBits := rfl

theorem upstreamBits (up : Option Nat) (d : Dev) :
    d.rxsKept ((upTo 4).foldl (fun d p => d.setFlag (F.GLKp_STAT_UPSTREAM p) (decide (up = some p))) d) :=
  List.foldlRecOn (upTo 4) _ (refl d) (fun _ he _ _ => he.trans (put ..))

theorem setRole (d : Dev) (role : Nat) (root up : Option Nat) (hops : Nat) : d.rxsKept (d.setRole role root up hops) :=
  trans (b := ((Dev.put { d with glk := { d.glk with root := root, up := up } } F.GLK_STAT_ROLE role).put F.GLK_STAT_ROOT (root.getD 0)).put
    F.GLK_STAT_HOPS hops) rfl ((upstreamBits up _).trans (reachBits _))

theorem followTime (d : Dev) (member : Bool) : d.rxsKept (d.followTime member) := by
  unfold Dev.followTime
  split
  · exact put ..
  · split
    · exact put d F.PTP_STAT_STATE (b2n (d.flag F.PTP_CTRL_EN))
    · exact refl d

theorem roleAndTime (d : Dev) (role : Nat) (root up : Option Nat) (hops : Nat) (member : Bool) :
    d.rxsKept ((d.setRole role root up hops).followTime member) :=
  (setRole ..).trans (followTime ..)

theorem joined (d : Dev) (r p hops : Nat) : d.rxsKept (d.joined r p hops) :=
  (raiseIf ..).trans ((raise ..).trans (roleAndTime ..))

theorem takeTick (d : Dev) (r p : Nat) (m : Marker) (tick : Word) : d.rxsKept (d.takeTick r p m tick) := by
  have clock : ∀ (time : DWord) (ports : Table GlkPort) (phase : Int),
      d.rxsKept { d with tick := tick, time := time, glk := { d.glk with ports := ports, phase := phase } } := fun _ _ _ => rfl
  exact (clock _ _ _).trans (put ..)

theorem detach (d : Dev) (r : Nat) (ticks times : Int) : d.rxsKept (d.detach r ticks times) := by
  have apart : ∀ e : Dev, e.rxsKept (((((e.setFlag F.GLK_STAT_TICK_MISMATCH true).raise 0x0705 0x07 3 r (trunc 32 ticks)
      (trunc 32 times)).attn .link).setRole 3 (some d.node) none 0).followTime false) := fun e =>
    (put ..).trans ((raise ..).trans ((put ..).trans (roleAndTime ..)))
  unfold Dev.detach
  refine trans ?_ (apart _)
  split
  · exact (put ..).trans ((raise ..).trans (put ..))
  · exact refl d

theorem tryJoin (d : Dev) (r p hops : Nat) (led : Bool) : d.rxsKept (d.tryJoin r p hops led) := by
  unfold Dev.tryJoin
  split
  case h_1 => exact refl d
  case h_2 m at_ _ =>
    dsimp only
    split
    · exact (takeTick d r p m _).trans (joined ..)
    · split
      · exact refl d
      · split
        · exact joined ..
        · split
          · exact refl d
          · exact detach ..

theorem becomeRoot (d : Dev) : d.rxsKept d.becomeRoot := by
  unfold Dev.becomeRoot
  split
  · exact refl d
  · exact (raiseIf ..).trans (roleAndTime ..)

theorem becomeAlone (d : Dev) : d.rxsKept d.becomeAlone := by
  unfold Dev.becomeAlone
  split
  · exact refl d
  · exact roleAndTime ..

theorem judgeRole (d : Dev) (retest : Bool) : d.rxsKept (d.judgeRole retest) := by
  unfold Dev.judgeRole
  split
  · exact becomeAlone d
  · extract_lets role mine up e stay
    split
    · exact refl d
    · have stays : e.rxsKept (stay e) := by
        clear_value up e
        cases up with
        | none => exact refl e
        | some x => exact setRole ..
      refine trans (rfl : d.rxsKept e) ?_
      split
      · split
        · exact setRole ..
        · exact becomeAlone e
      · split
        · split
          · exact setRole ..
          · exact becomeRoot e
        · split
          · exact stays
          · split
            · exact refl e
            · split
              · exact stays.trans (tryJoin ..)
              · exact stays

end Dev.rxsKept

/-! ## New routes after the loss of a neighbour (R306) -/

/-- The fields that new routes can change. -/
def routeFlds : List Fld := F.GLK_STAT_ROUTE_CHG :: (recFlds ++ roleFlds)

/-- New routes leave every receiver, and every register but `routeFlds`. -/
structure Dev.Rerouted (d d' : Dev) : Prop where
  rxs : d.rxsKept d'
  keeps : regsKeep routeFlds d d'

namespace Dev.Rerouted
variable {d e f : Dev}

theorem refl (d : Dev) : d.Rerouted d := ⟨rfl, regsKeep_refl _ d⟩

theorem trans (h : d.Rerouted e) (k : e.Rerouted f) : d.Rerouted f := ⟨h.rxs.trans k.rxs, regsKeep_trans h.keeps k.keeps⟩

theorem of_role (h : d.roleOnly e) (k : d.rxsKept e) : d.Rerouted e := ⟨k, regsKeep_mono h.2 (fun _ hG => List.mem_cons_of_mem _ hG)⟩

theorem raise (h : d.Rerouted e) (c a b x y z : Nat) : d.Rerouted (e.raise c a b x y z) :=
  h.trans (of_role (e.roleOnly_raise ..) (Dev.rxsKept.raise ..))

theorem sendRoute (d : Dev) : d.Rerouted d.sendRoute := ⟨rfl, regsKeep_of_regs rfl⟩

theorem reroute (d : Dev) : d.Rerouted d.reroute := by
  unfold Dev.reroute
  extract_lets old d1 d2 d3
  have judged : d.Rerouted d2 :=
    (of_role d.roleOnly_reachBits (Dev.rxsKept.reachBits d)).trans (of_role (Dev.roleOnly_judgeRole ..) (Dev.rxsKept.judgeRole ..))
  have noted : d.Rerouted d3 := by
    unfold d3
    split
    · exact judged
    · exact (judged.trans ⟨Dev.rxsKept.put .., regsKeep_put _ _ _ (List.mem_cons_self ..)⟩).raise ..
  refine List.foldlRecOn _ _ noted (fun e he x _ => ?_)
  split
  · exact he.raise ..
  · exact he

end Dev.Rerouted

/-! ## A block in error (R299) -/

theorem Dev.glkRx_of_rxs {d d' : Dev} (h : d.rxsKept d') (q : Nat) : d'.glkRx q = d.glkRx q := congrArg (fun t => tget glkRx0 t q) h

theorem Dev.glkDown_rx (d : Dev) (p st : Nat) : (d.glkDown p st).glkRx p = glkRx0 := Dev.glkRx_updGlkRx ..

/-- The registers that a port goes down with. -/
theorem Dev.glkDown_get (d : Dev) (p st : Nat) (G : Fld) :
    (d.glkDown p st).get G = ((d.put (F.GLKp_STAT_STATE p) st).setFlag (F.GLKp_STAT_NBR_VALID p) false).get G := rfl

theorem Dev.glkDown_state (d : Dev) (p : Gp) : (d.glkDown p.val 0).get (F.GLKp_STAT_STATE p.val) = 0 := by
  have other : ∀ p : Gp, (F.GLKp_STAT_NBR_VALID p.val).key ≠ (F.GLKp_STAT_STATE p.val).key := by decide
  rw [Dev.glkDown_get, Dev.setFlag_eq, Dev.get_put_ne _ _ _ _ (other p), Dev.get_put_self]
  rfl

theorem Dev.glkDown_neighbour (d : Dev) (p : Gp) : (d.glkDown p.val 0).get (F.GLKp_STAT_NBR_VALID p.val) = 0 := by
  rw [Dev.glkDown_get, Dev.setFlag_eq, Dev.get_put_self]
  rfl

/-- What the loss of the neighbour of a port records before the port goes down (R306), where the neighbour went with its block lock. -/
def Dev.lossNoted (d : Dev) (p : Nat) : Dev :=
  let d1 := ((((d.rxLoss p).setFlag (F.GLKp_STAT_LOST p) true).bump (F.GLKp_LOSSES_COUNT p)).bump F.GLK_REROUTES_COUNT).raise 0x0701 0x07 2 p 1
    d.tick.toNat
  if decide (d.glk.up = some p) then d1.raise 0x0701 0x07 2 p 4 d.tick.toNat else d1

theorem Dev.nbrLost_up {d : Dev} {p : Nat} (h : d.glkUp p = true) : d.nbrLost p 1 = (((d.lossNoted p).glkDown p 0).sendRoute).reroute :=
  if_pos h

theorem Dev.lossNoted_lost (d : Dev) (p : Gp) : (d.lossNoted p.val).get (F.GLKp_STAT_LOST p.val) = 1 := by
  have apart : ∀ p : Gp, (F.GLKp_STAT_LOST p.val).key ∉ recFlds.map Fld.key ∧ F.GLK_REROUTES_COUNT.key ≠ (F.GLKp_STAT_LOST p.val).key ∧
      (F.GLKp_LOSSES_COUNT p.val).key ≠ (F.GLKp_STAT_LOST p.val).key := by decide
  obtain ⟨recorder, reroutes, losses⟩ := apart p
  have noted : ∀ n t : Nat, ((((d.rxLoss p.val).setFlag (F.GLKp_STAT_LOST p.val) true).bump (F.GLKp_LOSSES_COUNT p.val)).bump
      F.GLK_REROUTES_COUNT |>.raise 0x0701 0x07 2 p.val n t).get (F.GLKp_STAT_LOST p.val) = 1 := by
    intro n t
    rw [Dev.get_raise _ _ _ _ _ _ _ _ recorder, Dev.bump_eq, Dev.get_put_ne _ _ _ _ reroutes, Dev.bump_eq, Dev.get_put_ne _ _ _ _ losses,
      Dev.setFlag_eq, Dev.get_put_self]
    rfl
  unfold Dev.lossNoted
  dsimp only
  split
  · rw [Dev.get_raise _ _ _ _ _ _ _ _ recorder]
    exact noted _ _
  · exact noted _ _

/-- A port that goes down with nothing known of its neighbour or of what it was receiving. -/
structure Dev.GoneDown (d : Dev) (p : Gp) : Prop where
  state : d.get (F.GLKp_STAT_STATE p.val) = 0
  neighbour : d.get (F.GLKp_STAT_NBR_VALID p.val) = 0
  rx : d.glkRx p.val = glkRx0

theorem Dev.glkDown_gone (d : Dev) (p : Gp) : (d.glkDown p.val 0).GoneDown p := ⟨d.glkDown_state p, d.glkDown_neighbour p, d.glkDown_rx _ _⟩

/-- Port registers that new routes leave as they are. -/
theorem Dev.Rerouted.port {d e : Dev} (h : d.Rerouted e) (p : Gp) : e.get (F.GLKp_STAT_STATE p.val) = d.get (F.GLKp_STAT_STATE p.val) ∧
    e.get (F.GLKp_STAT_NBR_VALID p.val) = d.get (F.GLKp_STAT_NBR_VALID p.val) ∧
    e.get (F.GLKp_STAT_LOST p.val) = d.get (F.GLKp_STAT_LOST p.val) := by
  have apart : ∀ p : Gp, (F.GLKp_STAT_STATE p.val).key ∉ routeFlds.map Fld.key ∧ (F.GLKp_STAT_NBR_VALID p.val).key ∉ routeFlds.map Fld.key ∧
      (F.GLKp_STAT_LOST p.val).key ∉ routeFlds.map Fld.key := by decide
  obtain ⟨state, neighbour, lost⟩ := apart p
  exact ⟨h.keeps _ state, h.keeps _ neighbour, h.keeps _ lost⟩

theorem Dev.nbrLost_gone {d : Dev} {p : Gp} (h : d.glkUp p.val = true) :
    (d.nbrLost p.val 1).GoneDown p ∧ (d.nbrLost p.val 1).get (F.GLKp_STAT_LOST p.val) = 1 := by
  have apart : ∀ p : Gp, (F.GLKp_STAT_STATE p.val).key ≠ (F.GLKp_STAT_LOST p.val).key ∧
      (F.GLKp_STAT_NBR_VALID p.val).key ≠ (F.GLKp_STAT_LOST p.val).key := by decide
  obtain ⟨apartState, apartNeighbour⟩ := apart p
  have down := (d.lossNoted p.val).glkDown_gone p
  have lost : ((d.lossNoted p.val).glkDown p.val 0).get (F.GLKp_STAT_LOST p.val) = 1 := by
    rw [Dev.glkDown_get, Dev.setFlag_eq, Dev.get_put_ne _ _ _ _ apartNeighbour, Dev.get_put_ne _ _ _ _ apartState, Dev.lossNoted_lost]
  have routes := (Dev.Rerouted.sendRoute ((d.lossNoted p.val).glkDown p.val 0)).trans (Dev.Rerouted.reroute _)
  rw [Dev.nbrLost_up h]
  obtain ⟨keepState, keepNeighbour, keepLost⟩ := routes.port p
  exact ⟨⟨keepState.trans down.state, keepNeighbour.trans down.neighbour, (Dev.glkRx_of_rxs routes.rxs _).trans down.rx⟩, keepLost.trans lost⟩

theorem exec_glkFrameReceived {p : Gp} {b : GlkBlock} {more : List GlkBlock} {s : State} {d' : Dev}
    (h : (b :: more).foldl (fun d b => d.blockIn p.val b) s.dev = d') :
    exec (.glkFrameReceived p b more) s = .next { s with dev := d' } := by
  subst h
  rfl

theorem Dev.blockIn_bad {d : Dev} {b : GlkBlock} (p : Nat) (hb : blockBad b = true) :
    d.blockIn p b = (d.updGlkRx p (fun x => x.count b)).blockError p := if_pos hb

/-- Without block lock an error is not counted (log entry 81). -/
theorem Dev.blockError_unlocked {d : Dev} {p : Nat} (h : d.get (F.GLKp_STAT_STATE p) < 2 ∨ 5 < d.get (F.GLKp_STAT_STATE p)) :
    d.blockError p = d := by
  unfold Dev.blockError
  dsimp only
  rw [if_neg (by simp; omega)]

section
variable {d : Dev} {p : Gp} (h2 : 2 ≤ d.get (F.GLKp_STAT_STATE p.val)) (h5 : d.get (F.GLKp_STAT_STATE p.val) ≤ 5)
include h2 h5

theorem Dev.blockError_kept (hl : (d.glkRx p.val).lost = false) :
    d.blockError p.val = (d.bump (F.GLKp_BLK_ERR_COUNT p.val)).updGlkRx p.val (fun x => { x with frame := none }) := by
  have kept : ((d.bump (F.GLKp_BLK_ERR_COUNT p.val)).glkRx p.val).lost = false := hl
  unfold Dev.blockError
  dsimp only
  rw [if_pos (by simp [h2, h5]), if_neg (Bool.eq_false_iff.mp kept)]

theorem Dev.blockError_gone (hl : (d.glkRx p.val).lost = true) :
    (d.blockError p.val).GoneDown p ∧
      (d.get (F.GLKp_STAT_STATE p.val) = 5 → (d.blockError p.val).get (F.GLKp_STAT_LOST p.val) = 1) := by
  have apart : ∀ p : Gp, (F.GLKp_BLK_ERR_COUNT p.val).key ≠ (F.GLKp_STAT_STATE p.val).key := by decide
  have gone : ((d.bump (F.GLKp_BLK_ERR_COUNT p.val)).glkRx p.val).lost = true := hl
  unfold Dev.blockError
  dsimp only
  rw [if_pos (by simp [h2, h5]), if_pos gone]
  split
  case isTrue h =>
    have up : (d.bump (F.GLKp_BLK_ERR_COUNT p.val)).glkUp p.val = true := by
      unfold Dev.glkUp
      rwa [Dev.bump_eq, Dev.get_put_ne _ _ _ _ (apart p)]
    exact ⟨(Dev.nbrLost_gone up).1, fun _ => (Dev.nbrLost_gone up).2⟩
  case isFalse h => exact ⟨Dev.glkDown_gone _ p, fun h' => absurd (beq_iff_eq.mpr h') h⟩

end

/-- An error in a port without block lock changes its receiver alone, and so does one that the port counts, but for the counter. -/
def State.RxHeld (p : Gp) (s t : State) : Prop :=
  (∀ q : Nat, q ≠ p.val → t.dev.glkRx q = s.dev.glkRx q) ∧
    t = { s with dev := { s.dev with regs := t.dev.regs, glk := { s.dev.glk with rxs := t.dev.glk.rxs } } }

section
variable (p : Gp) {b : GlkBlock} (s : State) (hb : blockBad b = true)
include hb

theorem exec_badBlock : exec (.glkFrameReceived p b []) s =
    .next { s with dev := (s.dev.updGlkRx p.val (fun x => x.count b)).blockError p.val } :=
  exec_glkFrameReceived (Dev.blockIn_bad p.val hb)

theorem exec_badBlock_counted (h2 : 2 ≤ s.dev.get (F.GLKp_STAT_STATE p.val)) (h5 : s.dev.get (F.GLKp_STAT_STATE p.val) ≤ 5)
    (hl : ((s.dev.glkRx p.val).count b).lost = false) :
    ∃ t : State, exec (.glkFrameReceived p b []) s = .next t ∧ s.RxHeld p t ∧ (t.dev.glkRx p.val).frame = none ∧
      regsKeep [F.GLKp_BLK_ERR_COUNT p.val] s.dev t.dev ∧
      t.dev.get (F.GLKp_BLK_ERR_COUNT p.val) =
        min (s.dev.get (F.GLKp_BLK_ERR_COUNT p.val) + 1) (2 ^ (F.GLKp_BLK_ERR_COUNT p.val).width - 1) := by
  let d1 := s.dev.updGlkRx p.val (fun x => x.count b)
  have kept : (d1.glkRx p.val).lost = false := (congrArg GlkRx.lost (Dev.glkRx_updGlkRx ..)).trans hl
  refine ⟨_, exec_badBlock p s hb, ?_⟩
  rw [Dev.blockError_kept (d := d1) h2 h5 kept]
  refine ⟨⟨fun q hq => ?_, rfl⟩, congrArg GlkRx.frame (Dev.glkRx_updGlkRx ..), regsKeep_put s.dev _ _ (List.mem_singleton_self _),
    Dev.bump_get s.dev _⟩
  exact (Dev.glkRx_updGlkRx_ne _ _ _ _ hq.symm).trans
    ((Dev.glkRx_of_rxs (Dev.rxsKept.put d1 ..) q).trans (Dev.glkRx_updGlkRx_ne s.dev _ _ _ hq.symm))

theorem exec_badBlock_gone (h2 : 2 ≤ s.dev.get (F.GLKp_STAT_STATE p.val)) (h5 : s.dev.get (F.GLKp_STAT_STATE p.val) ≤ 5)
    (hl : ((s.dev.glkRx p.val).count b).lost = true) :
    ∃ t : State, exec (.glkFrameReceived p b []) s = .next t ∧ t.dev.get (F.GLKp_STAT_STATE p.val) = 0 ∧
      t.dev.get (F.GLKp_STAT_NBR_VALID p.val) = 0 ∧ t.dev.glkRx p.val = glkRx0 ∧
      (s.dev.get (F.GLKp_STAT_STATE p.val) = 5 → t.dev.get (F.GLKp_STAT_LOST p.val) = 1) ∧ t.mem = s.mem := by
  let d1 := s.dev.updGlkRx p.val (fun x => x.count b)
  have gone : (d1.glkRx p.val).lost = true := (congrArg GlkRx.lost (Dev.glkRx_updGlkRx ..)).trans hl
  obtain ⟨⟨state, neighbour, rx⟩, lost⟩ := Dev.blockError_gone (d := d1) h2 h5 gone
  exact ⟨_, exec_badBlock p s hb, state, neighbour, rx, lost, rfl⟩

theorem exec_badBlock_unlocked (h : s.dev.get (F.GLKp_STAT_STATE p.val) < 2 ∨ 5 < s.dev.get (F.GLKp_STAT_STATE p.val)) :
    ∃ t : State, exec (.glkFrameReceived p b []) s = .next t ∧ s.RxHeld p t ∧ t.dev.regs = s.dev.regs := by
  refine ⟨_, exec_badBlock p s hb, ?_⟩
  rw [Dev.blockError_unlocked (d := s.dev.updGlkRx p.val (fun x => x.count b)) h]
  exact ⟨⟨fun q hq => Dev.glkRx_updGlkRx_ne s.dev _ _ _ hq.symm, rfl⟩, rfl⟩

end

/-! ## A whole frame (R300): what each cause leaves -/

theorem Dev.frameIn_notUp {d : Dev} {p : Nat} {f : GlkFrame} (ok : Bool) (h5 : d.get (F.GLKp_STAT_STATE p) ≠ 5) (h1 : f.type ≠ 1) :
    d.frameIn p f ok = d := by
  have type : (f.type == 1) = false := beq_eq_false_iff_ne.mpr h1
  unfold Dev.frameIn
  exact if_pos (by simp only [type, bne_iff_ne.mpr h5]; rfl)

section
variable {d : Dev} {p : Nat} {f : GlkFrame} (h5 : d.get (F.GLKp_STAT_STATE p) = 5)
include h5

theorem Dev.frameIn_badCrc : d.frameIn p f false = d.bump (F.GLKp_CRC_ERR_COUNT p) := by
  unfold Dev.frameIn
  dsimp only
  rw [if_neg (by simp [h5])]
  exact if_pos rfl

/-- A frame whose checksum holds, at a port that is UP. -/
theorem Dev.frameIn_good : d.frameIn p f true =
    if glkTypes.contains f.type.toNat then
      if f.type == 1 || f.dst.toNat == d.node then d
      else if f.dst == 0xFF then d.floodIn p f
      else if f.ttl.toNat ≤ 1 then d.bump (F.GLKp_DROPS_COUNT p)
      else match d.nextHop f.dst.toNat with
        | some q => d.forward q f
        | none => d
    else d.bump (F.GLKp_DROPS_COUNT p) := by
  unfold Dev.frameIn
  dsimp only
  rw [if_neg (by simp [h5]), if_neg (by decide)]
  cases glkTypes.contains f.type.toNat <;> rfl

theorem Dev.frameIn_unknown (ht : f.type.toNat ∉ glkTypes) : d.frameIn p f true = d.bump (F.GLKp_DROPS_COUNT p) := by
  rw [Dev.frameIn_good h5, if_neg (by simpa using ht)]

section
variable (ht : f.type.toNat ∈ glkTypes)
include ht

theorem Dev.frameIn_own (hn : f.dst.toNat = d.node) : d.frameIn p f true = d := by
  rw [Dev.frameIn_good h5, if_pos (by simpa using ht), if_pos (by simp [hn])]

variable (h1 : f.type ≠ 1) (hn : f.dst.toNat ≠ d.node) (hf : f.dst ≠ 0xFF)
include h1 hn hf

/-- A frame for another node only. -/
theorem Dev.frameIn_onward : d.frameIn p f true =
    if f.ttl.toNat ≤ 1 then d.bump (F.GLKp_DROPS_COUNT p)
    else match d.nextHop f.dst.toNat with
      | some q => d.forward q f
      | none => d := by
  have type : (f.type == 1) = false := beq_eq_false_iff_ne.mpr h1
  have single : (f.dst == 0xFF) = false := beq_eq_false_iff_ne.mpr hf
  rw [Dev.frameIn_good h5, if_pos (by simpa using ht), type, single, if_neg (by simp [hn])]
  rfl

theorem Dev.frameIn_expired (hh : f.ttl.toNat ≤ 1) : d.frameIn p f true = d.bump (F.GLKp_DROPS_COUNT p) := by
  rw [Dev.frameIn_onward h5 ht h1 hn hf, if_pos hh]

theorem Dev.frameIn_forwarded {q : Nat} (hh : 2 ≤ f.ttl.toNat) (hq : d.nextHop f.dst.toNat = some q) :
    d.frameIn p f true = d.forward q f := by
  rw [Dev.frameIn_onward h5 ht h1 hn hf, if_neg (by omega), hq]

theorem Dev.frameIn_noRoute (hh : 2 ≤ f.ttl.toNat) (hq : d.nextHop f.dst.toNat = none) : d.frameIn p f true = d := by
  rw [Dev.frameIn_onward h5 ht h1 hn hf, if_neg (by omega), hq]

end
end

/-! ## The blocks of a whole frame -/

/-- The port is free for its next frame; only registers and the frames to be forwarded may have changed beside its receiver. -/
def State.TookFrame (p : Gp) (s t : State) : Prop :=
  (t.dev.glkRx p.val).frame = none ∧ (∀ q : Nat, q ≠ p.val → t.dev.glkRx q = s.dev.glkRx q) ∧
    t = { s with dev := { s.dev with regs := t.dev.regs, glk := { s.dev.glk with rxs := t.dev.glk.rxs, fwd := t.dev.glk.fwd } } }

/-- The device once the blocks of a frame are in: the receiver x, and nothing else. -/
def Dev.withRx (d : Dev) (p : Gp) (x : GlkRx) : Dev := d.updGlkRx p.val (fun _ => x)

theorem Dev.withRx_get (d : Dev) (p : Gp) (x : GlkRx) (G : Fld) : (d.withRx p x).get G = d.get G := rfl

theorem Dev.withRx_node (d : Dev) (p : Gp) (x : GlkRx) : (d.withRx p x).node = d.node := rfl

/-- The hops to the nodes reached depend on the neighbours alone. -/
theorem Dev.hopsFrom_congr {d e : Dev} (h : e.nbrs = d.nbrs) : ∀ (n k : Nat) (last : List Nat) (seen : Table Nat),
    e.hopsFrom n k last seen = d.hopsFrom n k last seen
  | 0, _, _, _ => rfl
  | n + 1, k, last, seen => by
    unfold Dev.hopsFrom
    simp only [h, Dev.hopsFrom_congr h n]

/-- Routes do not depend on what is being received. -/
theorem Dev.withRx_hopsVia (d : Dev) (p : Gp) (x : GlkRx) (q n : Nat) : (d.withRx p x).hopsVia q n = d.hopsVia q n := by
  have neighbours : (d.withRx p x).nbrs = d.nbrs := rfl
  unfold Dev.hopsVia
  simp only [Dev.hopsFrom_congr neighbours, Dev.withRx_get, Dev.withRx_node]

theorem Dev.withRx_nextHop (d : Dev) (p : Gp) (x : GlkRx) (n : Nat) : (d.withRx p x).nextHop n = d.nextHop n := by
  have ups : (d.withRx p x).glkUps = d.glkUps := rfl
  unfold Dev.nextHop
  simp only [ups, Dev.withRx_hopsVia]

theorem exec_wholeFrame (p : Gp) {f : GlkFrame} (crc : Word) (l : Fin 2) (s : State) (h8 : f.payload.length % 8 = 0)
    (hm : f.payload.length ≤ 1008) :
    ∃ x : GlkRx, x.frame = none ∧ exec (.glkFrameReceived p ⟨l, (frameStart f).1, (frameStart f).2⟩ (onLanes (l + 1) (frameRest f crc))) s =
      .next { s with dev := (s.dev.withRx p x).frameIn p.val f (decide (crc = frameCrc f)) } := by
  obtain ⟨x, free, blocks⟩ := Dev.blocks_frame s.dev p.val f crc l h8 hm
  exact ⟨x, free, exec_glkFrameReceived blocks⟩

section
variable (s : State) (p : Gp) {x : GlkRx} (hx : x.frame = none)
include hx

/-- What a frame leaves beside the port's receiver. -/
theorem State.tookFrame_of (e : Dev) (hr : (s.dev.withRx p x).rxsKept e)
    (he : e = { s.dev with regs := e.regs, glk := { s.dev.glk with rxs := e.glk.rxs, fwd := e.glk.fwd } }) :
    s.TookFrame p { s with dev := e } := by
  refine ⟨?_, fun q hq => ?_, congrArg (fun d => { s with dev := d }) he⟩
  · rw [Dev.glkRx_of_rxs hr, Dev.withRx, Dev.glkRx_updGlkRx]
    exact hx
  · exact (Dev.glkRx_of_rxs hr q).trans (Dev.glkRx_updGlkRx_ne s.dev _ _ _ hq.symm)

theorem State.tookFrame_quiet : s.TookFrame p { s with dev := s.dev.withRx p x } := s.tookFrame_of p hx _ (Dev.rxsKept.refl _) rfl

theorem State.tookFrame_bump (G : Fld) : s.TookFrame p { s with dev := (s.dev.withRx p x).bump G } :=
  s.tookFrame_of p hx _ (Dev.rxsKept.put ..) rfl

theorem State.tookFrame_forward (q : Nat) (f : GlkFrame) : s.TookFrame p { s with dev := (s.dev.withRx p x).forward q f } :=
  s.tookFrame_of p hx _ rfl rfl

end

/-! ## Markers (R302, R303) -/

theorem Dev.glkPort_updGlkPort (d : Dev) (p : Nat) (f : GlkPort → GlkPort) : (d.updGlkPort p f).glkPort p = f (d.glkPort p) :=
  tget_tput_self ..

theorem Dev.glkPort_updGlkPort_ne (d : Dev) {p q : Nat} (f : GlkPort → GlkPort) (h : q ≠ p) : (d.updGlkPort p f).glkPort q = d.glkPort q :=
  tget_tput_ne _ _ _ _ _ h.symm

theorem exec_glkMarker {p : Gp} {m : Marker} {s : State} {d' : Dev} (h : s.dev.markerIn p.val m = d') :
    exec (.glkMarker p m) s = .next { s with dev := d' } := by
  subst h
  rfl

theorem Dev.markerIn_notUp {d : Dev} {p : Nat} (m : Marker) (h : d.get (F.GLKp_STAT_STATE p) ≠ 5) : d.markerIn p m = d :=
  if_neg (by simp [Dev.glkUp, h])

section
variable {d : Dev} {p : Nat} {m : Marker} (h5 : d.get (F.GLKp_STAT_STATE p) = 5) (hu : d.glk.up ≠ some p)
include h5 hu

theorem Dev.markerIn_invalid (hv : d.markValid p m = false) : d.markerIn p m = d.updGlkPort p (fun x => { x with bad := x.bad + 1 }) := by
  unfold Dev.markerIn
  dsimp only
  rw [if_pos (by simp [Dev.glkUp, h5]), if_neg (by simp [hv]), if_neg (by simp [hu])]

theorem Dev.markerIn_valid (hv : d.markValid p m = true) :
    d.markerIn p m = (d.updGlkPort p (fun x => { x with bad := 0, mark := some (m, d.tick) })).judgeRole false := by
  unfold Dev.markerIn
  dsimp only
  rw [if_pos (by simp [Dev.glkUp, h5]), if_pos hv, if_neg (by simp [hu])]

end

/-- The role waits for a valid marker of every port that is UP (R303). -/
theorem Dev.judgeRole_waits {d : Dev} {q : Nat} (hrig : d.rigged = true) (hrole : d.get F.GLK_STAT_ROLE ≠ 2) (hq : q < 4)
    (hup : d.get (F.GLKp_STAT_STATE q) = 5) (hmark : (d.glkPort q).mark = none) : d.judgeRole false = d := by
  have up : q ∈ d.glkUps := List.mem_filter.mpr ⟨by simpa [upTo] using hq, by simp [Dev.glkUp, hup]⟩
  have waits : d.glkUps.any (fun p => (d.glkPort p).mark.isNone) = true := List.any_eq_true.mpr ⟨q, up, by simp [hmark]⟩
  unfold Dev.judgeRole
  rw [if_neg (by simp [hrig, List.isEmpty_iff, List.ne_nil_of_mem up])]
  dsimp only
  rw [if_pos (by simp [hrole, waits])]

/-- Settles O41: a block in error only touches the counter and receiver of its port, or takes it down before the new routes, which leave ports alone; a
whole frame comes down to the cases of `Dev.frameIn`, a marker to those of `Dev.markerIn`. -/
theorem glkFramesAndMarkers : Obligations.GlkFramesAndMarkers := by
  unfold Obligations.GlkFramesAndMarkers
  refine ⟨fun p b s hb => ?_, fun p f crc l s h8 hm => ?_, fun p m s => ?_⟩
  · exact ⟨exec_badBlock_counted p s hb, exec_badBlock_gone p s hb, exec_badBlock_unlocked p s hb⟩
  · obtain ⟨x, free, received⟩ := exec_wholeFrame p crc l s h8 hm
    have quiet := s.tookFrame_quiet p free
    have counted : ∀ G : Fld, regsKeep [G] s.dev ((s.dev.withRx p x).bump G) ∧
        ((s.dev.withRx p x).bump G).get G = min (s.dev.get G + 1) (2 ^ G.width - 1) := fun G =>
      ⟨regsKeep_put s.dev G _ (List.mem_singleton_self G), Dev.bump_get s.dev G⟩
    refine ⟨fun h5 h1 => ?_, fun h5 => ⟨fun hc => ?_, fun hc => ?_⟩⟩
    · rw [Dev.frameIn_notUp (d := s.dev.withRx p x) _ h5 h1] at received
      exact ⟨_, received, quiet, rfl, rfl⟩
    · rw [decide_eq_false hc, Dev.frameIn_badCrc (d := s.dev.withRx p x) h5] at received
      exact ⟨_, received, s.tookFrame_bump p free _, rfl, counted _⟩
    · rw [decide_eq_true hc] at received
      refine ⟨fun ht => ?_, fun ht hn => ?_, fun ht h1 hn hf => ⟨fun hh => ?_, fun q hh hq => ?_, fun hh hq => ?_⟩⟩
      · rw [Dev.frameIn_unknown (d := s.dev.withRx p x) h5 ht] at received
        exact ⟨_, received, s.tookFrame_bump p free _, rfl, counted _⟩
      · rw [Dev.frameIn_own (d := s.dev.withRx p x) h5 ht hn] at received
        exact ⟨_, received, quiet, rfl, rfl⟩
      · rw [Dev.frameIn_expired (d := s.dev.withRx p x) h5 ht h1 hn hf hh] at received
        exact ⟨_, received, s.tookFrame_bump p free _, rfl, counted _⟩
      · rw [Dev.frameIn_forwarded (d := s.dev.withRx p x) h5 ht h1 hn hf hh ((Dev.withRx_nextHop ..).trans hq)] at received
        exact ⟨_, received, s.tookFrame_forward p free q f, rfl, rfl⟩
      · rw [Dev.frameIn_noRoute (d := s.dev.withRx p x) h5 ht h1 hn hf hh ((Dev.withRx_nextHop ..).trans hq)] at received
        exact ⟨_, received, quiet, rfl, rfl⟩
  · refine ⟨fun h5 => exec_glkMarker (Dev.markerIn_notUp m h5), fun h5 hu => ⟨fun hv => ?_, fun q hv hrig hrole hq hne hup hmark => ?_⟩⟩
    · have taken := Dev.glkPort_updGlkPort s.dev p.val (fun x => { x with bad := x.bad + 1 })
      exact ⟨_, exec_glkMarker (Dev.markerIn_invalid h5 hu hv), (congrArg GlkPort.bad taken :), (congrArg GlkPort.mark taken :), rfl⟩
    · have taken := Dev.glkPort_updGlkPort s.dev p.val (fun x => { x with bad := 0, mark := some (m, s.dev.tick) })
      have other := Dev.glkPort_updGlkPort_ne s.dev (fun x => { x with bad := 0, mark := some (m, s.dev.tick) }) hne
      have waits := (Dev.markerIn_valid h5 hu hv).trans
        (Dev.judgeRole_waits hrig hrole hq hup ((congrArg GlkPort.mark other).trans hmark))
      exact ⟨_, exec_glkMarker waits, (congrArg GlkPort.bad taken :), (congrArg GlkPort.mark taken :), other, rfl⟩

end Sys2Proof.Machine
